-- ==== Sys2Proof/Word.lean ====
section
/-! DEFINITION. The word types of the block and their plainest arithmetic: bytes, window words and
time stamps, and the little-endian reading of bytes (R40, R48). -/
namespace Sys2Proof

/-- A byte of a payload, a flash cell or a packet. -/
abbrev Byte := BitVec 8

/-- A word of the host window (R40). -/
abbrev Word := BitVec 32

/-- A time stamp: epoch in bits [63:48], tick in bits [47:0] (R58, R476). -/
abbrev Stamp := BitVec 64

/-- The two concentrator halves (chapter 00, Names used throughout). -/
inductive Half where
  | s | b
  deriving DecidableEq, Repr

/-- The other half. -/
def Half.other : Half → Half
  | .s => .b
  | .b => .s

/-- The number a half has in registers and calls: 0 for S, 1 for B (R44, R60). -/
def Half.code : Half → Nat
  | .s => 0
  | .b => 1

/-- The half a code names: 1 is B, anything else S. -/
def Half.ofCode (n : Nat) : Half := if n = 1 then .b else .s

/-- The value of bytes read with the first byte lowest (R48). -/
def leNat : List Byte → Nat
  | [] => 0
  | b :: bs => b.toNat + 256 * leNat bs

/-- The `n` bytes of a value, lowest first (R48). -/
def leBytes : Nat → Nat → List Byte
  | 0, _ => []
  | n + 1, v => BitVec.ofNat 8 v :: leBytes n (v / 256)

/-- One bit as a number. -/
def bitNat (b : Bool) : Nat := if b then 1 else 0

end Sys2Proof
end

