-- ==== Sys2Proof/Syntax.lean ====
section
/-! DEFINITION. The commands of the block: one constructor per row of spec/opcode_table.json, with what the
outside supplies as operands. A call names its mailbox; a waveform-engine instruction names its core. -/
namespace Sys2Proof

/-- The levels sampled at the release of POR_N (R80, R91, R640). -/
structure StrapLevels where
  /-- BOOT_SEL_1, BOOT_SEL_0 -/
  bootSel : BitVec 2
  /-- TILE_ID_5 to TILE_ID_0 -/
  tileId : BitVec 6
  /-- TEST_EN -/
  testEn : Bool
  /-- ARB_GNT_S -/
  gntS : Bool
  /-- ARB_GNT_B -/
  gntB : Bool
  deriving DecidableEq, Repr

/-- What a flash device shows during the negotiation of R87, and the bytes it holds that the module has not
written itself. -/
structure FlashProbe where
  /-- a valid SFDP signature was read -/
  sfdp : Bool
  /-- device size in MiB -/
  density : Nat
  /-- SFDP lists the 8-8-8 DTR mode with the xSPI profile table -/
  xspi : Bool
  /-- SFDP lists the 1-4-4 mode -/
  quad : Bool
  /-- SFDP lists the 1-1-1 mode at 50 MHz -/
  single : Bool
  /-- the 64 bytes read in 8-8-8 DTR, in 1-4-4 and in 1-1-1 at 50 MHz equal the reference -/
  matched : Bool × Bool × Bool
  /-- runs of bytes found in the device: offset and bytes -/
  found : List (Nat × List Byte)
  deriving DecidableEq, Repr

/-- What the work of a job gave (R55, R699): only what the module cannot know without doing it. -/
structure JobOutcome where
  /-- the work succeeded -/
  ok : Bool
  /-- bit c: the write, erase or readback on chip select c succeeded -/
  cs : BitVec 2
  /-- a mask the job's chapter names (trained channels) -/
  mask : Nat
  /-- numbered results: pulses that fired at a point, measured table entries; of a chain, the shift count at which RET rose
  (none: it did not) -/
  values : List (Nat × Int)
  /-- second numbered results: what the neighbours of a pixel fired -/
  second : List (Nat × Nat)
  /-- words received (status words, chain after chain, board 0 first) -/
  words : List Word
  deriving DecidableEq, Repr

/-- A received CTRL_REQ (R445, R446). -/
structure CtrlReq where
  /-- lane group it arrived on -/
  group : Nat
  /-- class it arrived in -/
  cls : Nat
  /-- its packet CRC is good -/
  crcOk : Bool
  /-- TAG -/
  tag : Nat
  /-- COUNT -/
  count : Nat
  /-- ADDRESS -/
  addr : Nat
  /-- DATA -/
  data : List Word
  deriving DecidableEq, Repr

/-- What a configuration readback reads of a block where it is not what was written there (R136). -/
structure FeDiff where
  /-- block -/
  block : Nat
  /-- pixel addresses and the bytes read -/
  pixels : List (Nat × Byte)
  /-- registers, 0 the mode byte and 1 to 7 the DACs, and the values read -/
  regs : List (Nat × Nat)
  deriving DecidableEq, Repr

/-- What the check code of a stored word shows as the word is read (R179, R415). -/
inductive WordCheck where
  /-- no error -/
  | good
  /-- an error that was corrected -/
  | corrected
  /-- an error beyond correction -/
  | uncorrectable
  deriving DecidableEq, Repr

/-- An entry of the calibration tables as an engine's SRAM holds it (R179, R188). -/
inductive TableEntry where
  /-- PER, by 4 s + b -/
  | per (i : Nat)
  /-- SKEW, by super-pixel -/
  | skew (s : Nat)
  /-- WLK, by 64 k + i -/
  | wlk (i : Nat)
  /-- WSW, by 16 k + i -/
  | wsw (i : Nat)
  /-- INL, by 128 k + j -/
  | inl (i : Nat)
  /-- TC, by block -/
  | tc (k : Nat)
  /-- TCAL, by 4 k + b -/
  | tcal (i : Nat)
  /-- V, by 4 k + b -/
  | v (i : Nat)
  deriving DecidableEq, Repr

/-- What the ECC check of a table entry shows as it is read (R179). -/
structure TableCheck where
  /-- the entry -/
  entry : TableEntry
  /-- the error was uncorrectable; else corrected -/
  lost : Bool
  deriving DecidableEq, Repr

/-- A copy of a block's global registers found to disagree (R134). -/
structure TmrUpset where
  /-- block -/
  block : Nat
  /-- corrections made -/
  count : Nat
  deriving DecidableEq, Repr

/-- An EDGE_FRAG message (R229). -/
structure EdgeFrag where
  /-- FLAGS -/
  flags : BitVec 6
  /-- FRAG_ID -/
  fragId : Nat
  /-- SIZE -/
  size : Nat
  /-- SIDE -/
  side : Nat
  /-- EDGE_FIRST -/
  edgeFirst : Nat
  /-- EDGE_MASK -/
  edgeMask : BitVec 64
  /-- EPOCH and TOA_TICK -/
  toa : Stamp
  /-- TOA_FINE -/
  fine : Nat
  /-- TOA_PIXEL -/
  pixel : Nat
  /-- Q -/
  q : Nat
  /-- QR -/
  qr : Int
  /-- QC -/
  qc : Int
  deriving DecidableEq, Repr

/-- What the background correction of a slice finds (R254, R255). -/
structure AdcUpdate where
  /-- patch -/
  patch : Nat
  /-- slice -/
  slice : Nat
  /-- offset correction called for, in 0.01 code -/
  offset : Int
  /-- gain correction called for, in ppm -/
  gain : Int
  /-- skew correction called for, in 0.01 ps -/
  skew : Int
  /-- residuals found: offset in 0.01 code, gain in ppm, skew in 0.01 ps -/
  residual : Int × Int × Int
  deriving DecidableEq, Repr

/-- What reaches the converter of a patch for some samples (R250, R251): all lists end at the last of them. -/
structure PatchIn where
  /-- patch -/
  patch : Nat
  /-- noise and spurs of the converter, in codes -/
  noise : List Int
  /-- pixels with the amplifier output of each as the shaper gives it, in elementary charges, those of electrons negative -/
  pixels : List (Nat × List Int)
  deriving DecidableEq, Repr

/-- A pointer of a queue whose two copies disagree (R362). -/
structure PointerUpset where
  /-- pointer: 0 W, 1 R, 2 spill, 3 refill -/
  which : Nat
  /-- bits of one copy that have flipped -/
  bits : Nat
  deriving DecidableEq, Repr

/-- Upset bits of a stored line (R369 to R371). -/
structure LineUpset where
  /-- data bits flipped -/
  data : BitVec 256
  /-- check bits flipped -/
  check : BitVec 16
  /-- line-address bits flipped -/
  addr : BitVec 28
  deriving DecidableEq, Repr

/-- Upset bits that a demand read meets in a 32-byte word of a frame or chunk (R371, R379). -/
structure WordUpset where
  /-- index of the word in the frame, its descriptor 0, or in the chunk -/
  word : Nat
  /-- the bits -/
  up : LineUpset
  deriving DecidableEq, Repr

/-- What the SRAM scrub finds in a head or tail word, a word of the valid bitmap or of the chunk index (R372, R376). -/
structure SramUpset where
  /-- 0 head or tail, 1 valid bitmap, 2 chunk index -/
  memory : Nat
  /-- queue -/
  q : Nat
  /-- position / 32 of the word in a head or tail; its index in the bitmap or chunk index -/
  word : Nat
  /-- data bits flipped -/
  data : BitVec 256
  /-- check bits flipped -/
  check : BitVec 16
  deriving DecidableEq, Repr

/-- A time as the module stamps it: tick with epoch and fine code (R468, R504). -/
structure FineTime where
  /-- tick with epoch -/
  tick : Stamp
  /-- fine code -/
  fine : Nat
  deriving DecidableEq, Repr

/-- A replica of the time core that disagrees (R477): replica and its values. -/
structure TimeUpset where
  /-- replica 0 to 2 -/
  replica : Nat
  /-- count it holds -/
  value : Stamp
  /-- steering it holds, in 1e-12 -/
  y : Int
  /-- phase to steer out that it holds, in ps -/
  steerPs : Int
  /-- time state that it holds, as TIME_STATE numbers it -/
  state : Nat
  deriving DecidableEq, Repr

/-- What a slow-control conversion measures (R545, R548, R555). -/
structure Conversion where
  /-- code before clipping, after calibration -/
  code : Int
  /-- RTD3: code of the lead measurement -/
  code2 : Int
  /-- voltage at PIN_P in nV -/
  vp : Int
  /-- voltage at PIN_N in nV -/
  vn : Int
  /-- RTD3: voltage at PIN_L in nV -/
  vl : Int
  /-- MC_21 to MC_23: die temperature in 0.001 C -/
  temp : Int
  /-- every pin of the channel stayed inside the window during it -/
  inside : Bool
  deriving DecidableEq, Repr

/-- What the excitation monitor measures on one channel (R559). -/
structure ExcMonitor where
  /-- current delivered in nA -/
  current : Nat
  /-- EXC pin in mV -/
  excMv : Nat
  /-- sense pins outside the window -/
  out : Nat
  /-- those outside are low -/
  low : Bool
  deriving DecidableEq, Repr

/-- One switch of a safe output closed alone in the output self-test (R602). -/
structure SwitchTest where
  /-- output 0 or 1 -/
  n : Nat
  /-- the high-side switch -/
  high : Bool
  /-- it read back closed -/
  closed : Bool
  /-- loop current in 10 uA units -/
  current : Nat
  deriving DecidableEq, Repr

/-- The readings of a dark test (R613). -/
structure DarkReadings where
  /-- SO_n_H read low within 150 us of opening the high-side switch -/
  highLow : Bool
  /-- loop current then, in 10 uA units -/
  current1 : Nat
  /-- loop current after the high-side switch has closed, in 10 uA units -/
  restored : Nat
  /-- SO_n_L read high within 150 us of opening the low-side switch -/
  lowHigh : Bool
  /-- loop current then, in 10 uA units -/
  current2 : Nat
  deriving DecidableEq, Repr

/-- What the readback of a safe output shows (R612). -/
structure SoReadback where
  /-- output 0 or 1 -/
  n : Nat
  /-- loop current in 10 uA units -/
  current : Nat
  /-- SO_n_H in mV -/
  highMv : Nat
  /-- SO_n_L in mV -/
  lowMv : Nat
  /-- the current is at its limit -/
  atLimit : Bool
  /-- the voltages contradict the command -/
  contradicts : Bool
  deriving DecidableEq, Repr

/-- A voted field of the event state whose copies disagree (R652): copies as they read. -/
structure EventUpset where
  /-- 0 sticky word k, 1 count of source k, 2 fault-log pointer -/
  kind : Nat
  /-- word or source -/
  k : Nat
  /-- the three copies -/
  a : Nat
  /-- second copy -/
  b : Nat
  /-- third copy -/
  c : Nat
  deriving DecidableEq, Repr


/-- The commands, one per row of the table, in its order. -/
inductive Instr where
  /-- SB_READ: Sideband SPI command 0x0B returns window words from a 4-byte address, incrementing by 4 per word while SB_CS_N stays low. (R46) -/
  | sbRead (addr : Word) (words : Nat)
  /-- SB_WRITE: Sideband SPI command 0x02 writes each complete word from a 4-byte address and discards an incomplete final word. (R46) -/
  | sbWrite (addr : Word) (data : List Byte)
  /-- SB_STATUS: Sideband SPI command 0x05 returns the window-ready, boot-hold and discarded-write status byte. (R46) -/
  | sbStatus
  /-- SB_UNKNOWN_COMMAND: Any other sideband command byte is ignored until SB_CS_N rises, with SB_SDO kept high-impedance. (R46) -/
  | sbUnknownCommand (cmd : Byte)
  /-- WINDOW_WRITE: A write to a host-window register that has no behaviour of its own sets or ignores the word; a write to a busy mailbox is ignored and raises EV_016. (R40) -/
  | windowWrite (addr : Word) (w : Word)
  /-- EVENT_STICKY_CLEAR: A W1C write to EVENT_STICKY_k clears the chosen sticky bits and leaves the counts unchanged. (R654) -/
  | eventStickyClear (k : Nat) (w : Word)
  /-- CTRL_READ: A received CTRL_REQ with OP READ reads window words and is answered with a CTRL_RSP in the same class. (R445) -/
  | ctrlRead (rq : CtrlReq)
  /-- CTRL_WRITE: A received CTRL_REQ with OP WRITE writes window words and is answered with a CTRL_RSP giving a result code. (R445) -/
  | ctrlWrite (rq : CtrlReq)
  /-- UNKNOWN_CALL: A rung mailbox whose call code is unknown or not allowed there is answered with BAD_CALL. (R52) -/
  | unknownCall (mb : Fin 8)
  /-- JOB_COMPLETE: A job's work ends, its outcome is recorded in the job table and EV_022 is raised. (R55) -/
  | jobComplete (job : Nat) (out : JobOutcome)
  /-- JOB_DEFERRED_START: A LOW job that was answered DEFERRED starts at the first governor evaluation at or after its expected start with step 1 released. (R526) -/
  | jobDeferredStart (job : Nat)
  /-- SYS_NOP: Call 0x0100 does nothing and answers OK. (R60) -/
  | sysNop (mb : Fin 8)
  /-- SYS_IDENT: Call 0x0101 returns the identity words, the image build identifier and the negotiated flash clock. (R60) -/
  | sysIdent (mb : Fin 8)
  /-- SYS_RESET_WARM: Call 0x0102 kind 0 answers and then starts a warm reset that reruns the boot from step 4. (R700) -/
  | sysResetWarm (mb : Fin 8)
  /-- SYS_RESET_COX: Call 0x0102 kind 1 restarts the named half's cox from its boot ROM, passing the lead first if needed. (R64) -/
  | sysResetCox (mb : Fin 8)
  /-- SYS_RESET_BOTH: Call 0x0102 kind 2 restarts both coxes, or in boot hold restarts the boot from step 4. (R64) -/
  | sysResetBoth (mb : Fin 8)
  /-- SYS_LEAD_SET: Call 0x0103 moves the lead to the named live half and returns the previous lead. (R60) -/
  | sysLeadSet (mb : Fin 8)
  /-- SYS_BOOT_REPORT: Call 0x0104 returns up to 8 boot records from the given offset. (R701) -/
  | sysBootReport (mb : Fin 8)
  /-- SYS_FLASH_INFO: Call 0x0105 returns presence, read mode, clock, density and both boot-pointer copies of a chip select. (R702) -/
  | sysFlashInfo (mb : Fin 8)
  /-- SYS_SETTING_READ: Call 0x0106 returns the running value of a settings tag from an offset. (R60) -/
  | sysSettingRead (mb : Fin 8)
  /-- SYS_SETTINGS_SAVE: Call 0x0107 starts a job that writes the running settings with the running image into the inactive slot of both chip selects. (R79) -/
  | sysSettingsSave (mb : Fin 8)
  /-- SYS_IMAGE_COMMIT: Call 0x0108 writes the boot pointers to name a verified or saved slot on each chip select. (R62) -/
  | sysImageCommit (mb : Fin 8)
  /-- SYS_JOB_STATUS: Call 0x0109 returns state, percentage, status code and reason of a job number. (R699) -/
  | sysJobStatus (mb : Fin 8)
  /-- SYS_IMAGE_BEGIN: Call 0x010A starts a job that erases the inactive slot on both chip selects, optionally keeping the settings block. (R60) -/
  | sysImageBegin (mb : Fin 8)
  /-- SYS_IMAGE_DATA: Call 0x010B writes image bytes at a slot offset of the inactive slot on both chip selects. (R61) -/
  | sysImageData (mb : Fin 8)
  /-- SYS_IMAGE_VERIFY: Call 0x010C starts a job that runs the image checks on the inactive slot. (R73) -/
  | sysImageVerify (mb : Fin 8)
  /-- SYS_ROLLBACK_ADVANCE: Call 0x010D raises the anti-rollback fuse counter to a target no higher than the running image's version. (R74) -/
  | sysRollbackAdvance (mb : Fin 8)
  /-- SYS_LIFECYCLE_ADVANCE: Call 0x010E advances the lifecycle fuses to the next state after a confirm check. (R89) -/
  | sysLifecycleAdvance (mb : Fin 8)
  /-- SYS_KEY_REVOKE: Call 0x010F revokes a key slot by fuse after a confirm check. (R63) -/
  | sysKeyRevoke (mb : Fin 8)
  /-- POR_ASSERT: POR_N falls: the module lowers every SEQ_EN within 10 us and stops answering the sideband path. (R679) -/
  | porAssert
  /-- POR_RELEASE: POR_N is released: straps are sampled, ALERT_N asserted and the boot and power-up sequence start. (R80) -/
  | porRelease (st : StrapLevels)
  /-- PWR_GOOD_RISE: PWR_GOOD rises and the module raises the next supply enable of the power-up table. (R675) -/
  | pwrGoodRise
  /-- SEQ_ENABLE_TIMEOUT: PWR_GOOD has not risen 1.5 ms after an enable, so all enables fall and EV_024 is raised. (R676) -/
  | seqEnableTimeout
  /-- SEQ_RETRY_TIMER: One second after a sequencing failure the power-up table restarts from step 2. (R676) -/
  | seqRetryTimer
  /-- PWR_GOOD_FALL: PWR_GOOD falls for 10 us or more when expected high; EV_025 is raised with PMIC status and the upper enables drop. (R677) -/
  | pwrGoodFall (ns : Nat) (pmic : Option (List Byte))
  /-- PWR_GOOD_RETRY_TIMER: Ten milliseconds after a power-good loss the module reruns power-up steps 4-9 and resumes the boot at step 4. (R677) -/
  | pwrGoodRetryTimer
  /-- RST_N_PULSE: A low pulse of at least 1 us on RST_N starts a warm reset, waking first if in HOLD. (R686) -/
  | rstNPulse (ns : Nat)
  /-- PD0_RUNNING: PD_0 runs on its oscillator, the window becomes readable and BOOT_RESULT reads IN_PROGRESS. (R80) -/
  | pd0Running
  /-- SF_ROM_START: The safety partition starts from its ROM, checks the ROM, reads the sealed switches and starts its output self-test. (R602) -/
  | sfRomStart (romOk : Bool) (seals : BitVec 12)
  /-- SF_SELF_TEST_DONE: The output self-test ends and the partition enters RUN with HV OFF and shutter close requested. (R602) -/
  | sfSelfTestDone (tests : List SwitchTest)
  /-- COX_BOOT_ROM_START: Both coxes run their boot ROMs, clear memories, start the heartbeat and the lead is chosen by BOOT_SEL. (R80) -/
  | coxBootRomStart
  /-- COX_ROM_READY: A cox reports ROM-ready over the crosslink. (R85) -/
  | coxRomReady (h : Half)
  /-- BOOT_ROM_READY_TIMEOUT: 50 ms after step 4 a cox without ROM-ready is failed; the other half leads, or with neither the boot stops with NO_COX. (R85) -/
  | bootRomReadyTimeout
  /-- FLASH_NEGOTIATION: The module reads SFDP and steps down read modes until a reference read matches, or skips the chip select. (R87) -/
  | flashNegotiation (cs : Fin 2) (probe : FlashProbe)
  /-- BOOT_IMAGE_CHECK: A loaded image finishes loading and is checked in order; the first failing check rejects it. (R73) -/
  | bootImageCheck (cs : Fin 2) (slot : Fin 2) (readOk : Bool)
  /-- SETTINGS_APPLY: The firmware applies default settings and the settings block in subsystem order at boot step 8. (R76) -/
  | settingsApply
  /-- MEM_TRAINING_DONE: Memory-layer training ends; on failure the layer is taken out of use, queues run SRAM_ONLY and EV_327 is raised. (R349) -/
  | memTrainingDone (okMask : BitVec 16)
  /-- TIME_CORE_START: The time core starts with the selected reference without waiting for OCXO_RDY. (R80) -/
  | timeCoreStart
  /-- BOOT_LINK_WAIT_EXPIRY: BOOT_LINK_WAIT expires and the boot stops waiting for lanes. (R80) -/
  | bootLinkWaitExpiry
  /-- BOOT_ENTER_EASY: The boot ends in EASY, sets BOOT_RESULT, raises EV_000, releases ALERT_N and serves waiting calls. (R80) -/
  | bootEnterEasy
  /-- COX_RESTART_TIMEOUT: A restarted cox without firmware after 50 ms is handled as a boot failure and the arbiter takes over. (R64) -/
  | coxRestartTimeout (h : Half)
  /-- COX_MEM_SCRUB: Every 10 s each cox scrubs its memories; corrected errors raise EV_018, uncorrectable ones EV_019 and restart the cox. (R39) -/
  | coxMemScrub (h : Half) (corrected : Bool) (uncorrectable : Bool)
  /-- DISCRIMINATOR_RISE: A pixel discriminator rises: first-hit arbitration, ring start or spare latch, ToT count or clock start request. (R151) -/
  | discriminatorRise (pix : Nat) (ps : Nat) (per : Nat)
  /-- RING_COUNT_SATURATED: A ring count saturates without a stop edge; the hit is discarded, STROBE_MISSING counted and EV_132 raised. (R154) -/
  | ringCountSaturated (pix : Nat)
  /-- RANGE_SWITCH: A pixel's amplifier passes Q_SW, switches to low gain, latches SW_TIME, restarts its ToT and starts the blank. (R103) -/
  | rangeSwitch (pix : Nat) (ps : Nat)
  /-- RANGE_BLANK_END: The one-unit blank after a range switch ends and the discriminator is watched again. (R104) -/
  | rangeBlankEnd (pix : Nat)
  /-- DISCRIMINATOR_FALL: A pixel discriminator falls; ToT or bridge count is latched and the hit frame is sent to the port. (R201) -/
  | discriminatorFall (pix : Nat) (ps : Nat)
  /-- TOT_SATURATED: A ToT count reaches 0xFFF; the hit frame is sent with TOT_SAT. (R201) -/
  | totSaturated (pix : Nat)
  /-- PIXEL_DEAD_TIME_END: The pixel dead time of ToT plus 50 ns ends and the pixel is armed again. (R142) -/
  | pixelDeadTimeEnd (pix : Nat)
  /-- BLOCK_CLOCK_READY: A gated block clock becomes ready; running bridges hand off to the ToT count. (R159) -/
  | blockClockReady (block : Nat)
  /-- BLOCK_CLOCK_IDLE_GATE: After 256 ticks without a discriminator edge a block clock is gated. (R158) -/
  | blockClockIdleGate (block : Nat)
  /-- BRIDGE_SATURATED: A ToT bridge saturates; the hit is delivered with ToT 0xFFF and EV_133 raised. (R162) -/
  | bridgeSaturated (pix : Nat)
  /-- PORT_RECORD_AGE_OUT: A record held in its block over 32,768 ticks is discarded and counted as cause 4. (R153) -/
  | portRecordAgeOut (block : Nat)
  /-- PORT_LOSS_SEND: When the port buffer has room, the block sends a PORT_LOSS frame covering discards of one cause. (R204) -/
  | portLossSend (block : Nat) (cause : Nat)
  /-- WATERMARK_SEND: An idle port whose watermark has advanced, or every 64 frames while busy, sends a WATERMARK frame. (R203) -/
  | watermarkSend (block : Nat)
  /-- FRAME_BOUNDARY: A frame boundary tick swaps the counter banks of FRAME-mode blocks and starts bank readout. (R125) -/
  | frameBoundary
  /-- FRAME_UNIT_ASSEMBLE: A complete FRAME_BEGIN, bank and FRAME_END is written as one FRAME unit, poisoned on a CRC mismatch. (R244) -/
  | frameUnitAssemble (block : Nat) (flips : List (Nat × BitVec 16))
  /-- FE_MODE_EFFECT: The effect tick of a mode change arrives and all mode bytes of the call take effect together. (R121) -/
  | feModeEffect
  /-- CRAB_WINDOW_END: A crab window ends; noisy or stuck pixels are masked and retested pixels released or remasked. (R128) -/
  | crabWindowEnd
  /-- CRAB_RETEST: CRAB_RETEST after masking, a crab is unmasked for one window with its hits counted but not forwarded. (R130) -/
  | crabRetest (pix : Nat)
  /-- LEAK_UPDATE: Every second the lead cox sets LEAK_MAX of each block from its mapped temperature, falling back to a die sensor on BREAK. (R110) -/
  | leakUpdate (sat : List Nat)
  /-- FE_SCRUB: Every 10 ms powered blocks are read back and differing bytes rewritten; three failures set the block OFF. (R136) -/
  | feScrub (diffs : List FeDiff)
  /-- FE_TMR_VOTE: On every tick the triplicated block registers are voted and rewritten, counting corrections with EV_065. (R134) -/
  | feTmrVote (upset : List TmrUpset) (droop : List (Nat × Nat))
  /-- TP_STEP: A scheduled test-pulse step injects TP_AMP into pixels with TP_EN set. (R113) -/
  | tpStep
  /-- FE_MODE_SET: Call 0x0200 sets block mode bytes and returns the effect tick. (R121) -/
  | feModeSet (mb : Fin 8)
  /-- FE_MODE_GET: Call 0x0201 returns block mode bytes. (R144) -/
  | feModeGet (mb : Fin 8)
  /-- FE_DAC_SET: Call 0x0202 sets one DAC of one or all blocks and returns the previous code. (R144) -/
  | feDacSet (mb : Fin 8)
  /-- FE_DAC_GET: Call 0x0203 returns the seven DAC codes of a block. (R144) -/
  | feDacGet (mb : Fin 8)
  /-- FE_PIXEL_WRITE: Call 0x0204 writes pixel configuration bytes to the golden copy and then the blocks. (R135) -/
  | fePixelWrite (mb : Fin 8)
  /-- FE_PIXEL_READ: Call 0x0205 returns running pixel configuration bytes without crab masks. (R144) -/
  | fePixelRead (mb : Fin 8)
  /-- FE_TRIM_RUN: Call 0x0206 starts a job that trims blocks by test-pulse bisection. (R109) -/
  | feTrimRun (mb : Fin 8)
  /-- FE_SCURVE: Call 0x0207 starts a job that sweeps TP_AMP and fits threshold and noise per pixel. (R115) -/
  | feScurve (mb : Fin 8)
  /-- FE_SCAN_RESULT: Call 0x0208 returns per-pixel threshold and noise of a scan job. (R144) -/
  | feScanResult (mb : Fin 8)
  /-- FE_BUMP_TEST: Call 0x0209 starts a job that classifies each pixel's bump. (R116) -/
  | feBumpTest (mb : Fin 8)
  /-- FE_BUMP_RESULT: Call 0x020A returns bump-test result codes. (R144) -/
  | feBumpResult (mb : Fin 8)
  /-- FE_TP_INJECT: Call 0x020B schedules test-pulse steps and returns the first step tick. (R113) -/
  | feTpInject (mb : Fin 8)
  /-- FE_CRAB_CONFIG: Call 0x020C sets the crab detection parameters. (R144) -/
  | feCrabConfig (mb : Fin 8)
  /-- FE_CRAB_LIST: Call 0x020D returns entries of the crab list from an offset. (R146) -/
  | feCrabList (mb : Fin 8)
  /-- FE_LEAK_CONFIG: Call 0x020E sets a block's leakage compensation entry. (R144) -/
  | feLeakConfig (mb : Fin 8)
  /-- FE_FRAME_CONFIG: Call 0x020F sets a new frame schedule and returns its first boundary. (R127) -/
  | feFrameConfig (mb : Fin 8)
  /-- FE_CHARGE_CAL: Call 0x0210 starts a job that measures charge tables and gain ratios. (R133) -/
  | feChargeCal (mb : Fin 8)
  /-- FE_CHARGE_READ: Call 0x0211 returns a block's charge record. (R144) -/
  | feChargeRead (mb : Fin 8)
  /-- FE_CHARGE_WRITE: Call 0x0212 writes a block's charge record. (R144) -/
  | feChargeWrite (mb : Fin 8)
  /-- FE_SCRUB_STATUS: Call 0x0213 returns scrub and correction counts. (R144) -/
  | feScrubStatus (mb : Fin 8)
  /-- FE_STATUS: Call 0x0214 returns a block's mode, bias, mask, crab and LEAK_SAT counts. (R144) -/
  | feStatus (mb : Fin 8)
  /-- BLOCK_COUNTER_CHECK: Every 65,536 ticks a block's local tick counter is compared with the time core and reloaded on mismatch. (R149) -/
  | blockCounterCheck (block : Nat) (seen : BitVec 16)
  /-- HIT_FRAME_RECEIVED: A HIT frame reaches its cluster engine, is converted to tick and fine code and joins or opens a cluster. (R155) -/
  | hitFrameReceived (block : Nat) (ecc : List TableCheck) (drop : Bool)
  /-- WATERMARK_RECEIVED: A WATERMARK frame updates the block's watermark for cluster closing. (R214) -/
  | watermarkReceived (block : Nat)
  /-- PORT_LOSS_RECEIVED: A PORT_LOSS frame makes a loss record that enters the reorder stage. (R239) -/
  | portLossReceived (block : Nat)
  /-- PORT_FRAMING_ERROR: A frame of type 0b10 or unknown control code is discarded, EV_201 raised and the block told to reframe. (R207) -/
  | portFramingError (block : Nat) (word0 : BitVec 16)
  /-- INL_UPDATE: When a block's INL bins total 2^20 hits, INL is rebuilt, bins cleared and EV_135 raised. (R185) -/
  | inlUpdate (block : Nat)
  /-- TM_TEMP_UPDATE: Every 100 ms the lead cox updates each block's temperature, with die-sensor fallback on BREAK. (R166) -/
  | tmTempUpdate
  /-- CAL_RUN_LATCH: A calibration run latches its four-tick phase count and is counted or discarded. (R169) -/
  | calRunLatch (sp : Nat) (per : Nat)
  /-- CAL_BAND_AGE_EXPIRY: A band exceeds MAX_AGE, becomes stale, raises EV_134 and is scheduled for recalibration. (R172) -/
  | calBandAgeExpiry (block : Nat) (band : Fin 4)
  /-- TM_STATUS: Call 0x0300 returns a block's band, droop, clock and temperature state. (R191) -/
  | tmStatus (mb : Fin 8)
  /-- TM_CAL_STATUS: Call 0x0301 returns calibration validity, voltage, temperature and age per band. (R191) -/
  | tmCalStatus (mb : Fin 8)
  /-- TM_CAL_RUN: Call 0x0302 starts a job recalibrating each selected block's current band. (R173) -/
  | tmCalRun (mb : Fin 8)
  /-- TM_BAND_CONFIG: Call 0x0303 sets the band thresholds and hysteresis. (R164) -/
  | tmBandConfig (mb : Fin 8)
  /-- TM_PERIOD_READ: Call 0x0304 returns ring periods of super-pixels in a band. (R191) -/
  | tmPeriodRead (mb : Fin 8)
  /-- TM_PERIOD_WRITE: Call 0x0305 writes ring periods, a zero making the band missing. (R192) -/
  | tmPeriodWrite (mb : Fin 8)
  /-- TM_SKEW_READ: Call 0x0306 returns skew table entries or last skew calibration results. (R191) -/
  | tmSkewRead (mb : Fin 8)
  /-- TM_SKEW_WRITE: Call 0x0307 writes skew table entries. (R192) -/
  | tmSkewWrite (mb : Fin 8)
  /-- TM_WALK_READ: Call 0x0308 returns a block's walk tables. (R191) -/
  | tmWalkRead (mb : Fin 8)
  /-- TM_WALK_WRITE: Call 0x0309 writes a block's walk tables. (R192) -/
  | tmWalkWrite (mb : Fin 8)
  /-- TM_WALK_CAL: Call 0x030A starts a job filling walk tables with test pulses. (R183) -/
  | tmWalkCal (mb : Fin 8)
  /-- TM_SKEW_CAL: Call 0x030B starts a job accumulating CAL-tagged hit times per super-pixel. (R184) -/
  | tmSkewCal (mb : Fin 8)
  /-- TM_INL_READ: Call 0x030C returns a block's INL table and current bin count. (R191) -/
  | tmInlRead (mb : Fin 8)
  /-- TM_TEMP_CONFIG: Call 0x030D changes a block's temperature source at once. (R166) -/
  | tmTempConfig (mb : Fin 8)
  /-- TM_DROOP_READ: Call 0x030E returns droop readings of blocks. (R191) -/
  | tmDroopRead (mb : Fin 8)
  /-- TM_STATS: Call 0x030F returns and optionally clears timing statistics. (R191) -/
  | tmStats (mb : Fin 8)
  /-- CLUSTER_CLOSE: An open cluster whose window and watermarks are met closes and enters the reorder stage. (R214) -/
  | clusterClose (engine : Fin 16) (first : Nat)
  /-- REORDER_RELEASE: A record held REORDER with nothing earlier held is released, gate-filtered and written to its queue. (R233) -/
  | reorderRelease (q : Fin 16)
  /-- BLOCK_OFF_RELEASE: Two ticks after a BLOCK_OFF policy ends the held blocks are released. (R237) -/
  | blockOffRelease (q : Fin 16)
  /-- EDGE_FRAG_RX: An EDGE_FRAG reaches the owner and is matched against held edge clusters. (R225) -/
  | edgeFragRx (side : Fin 4) (f : EdgeFrag)
  /-- MERGE_REPLY_RX: A MERGE_REPLY reaches the non-owner, which discards or emits its held cluster. (R225) -/
  | mergeReplyRx (side : Fin 4) (fragId : BitVec 16) (result : Nat)
  /-- MERGE_WAIT_EXPIRY: MERGE_WAIT passes for a fragment with no match, the owner answers NO_MATCH and emits its edge cluster. (R225) -/
  | mergeWaitExpiry (side : Fin 4) (fragId : BitVec 16)
  /-- MERGE_REPLY_TIMEOUT: A non-owner gets no reply within 2 x MERGE_WAIT + 1 us and emits the cluster with FRAG and EV_205. (R225) -/
  | mergeReplyTimeout (side : Fin 4) (fragId : BitVec 16)
  /-- HP_STATUS: Call 0x0400 returns an engine's output, gate, cluster, merge and row state. (R247) -/
  | hpStatus (mb : Fin 8)
  /-- HP_OUTPUT_SET: Call 0x0401 sets the output kind of engines. (R248) -/
  | hpOutputSet (mb : Fin 8)
  /-- HP_CLUSTER_CONFIG: Call 0x0402 sets cluster window and entry settings. (R248) -/
  | hpClusterConfig (mb : Fin 8)
  /-- HP_LOSS_CONFIG: Call 0x0403 sets a queue's loss policy and water marks. (R248) -/
  | hpLossConfig (mb : Fin 8)
  /-- HP_LOSS_STATUS: Call 0x0404 returns a queue's loss state and counts by cause. (R247) -/
  | hpLossStatus (mb : Fin 8)
  /-- HP_GATE_CONFIG: Call 0x0405 sets the gate mode and unit mask of engines. (R248) -/
  | hpGateConfig (mb : Fin 8)
  /-- HP_MERGE_CONFIG: Call 0x0406 sets side merge enables, GAP and MERGE_WAIT. (R247) -/
  | hpMergeConfig (mb : Fin 8)
  /-- HP_MERGE_STATUS: Call 0x0407 returns merge state and counts per side. (R247) -/
  | hpMergeStatus (mb : Fin 8)
  /-- HP_REORDER_CONFIG: Call 0x0408 sets REORDER. (R248) -/
  | hpReorderConfig (mb : Fin 8)
  /-- HP_STATS: Call 0x0409 returns and optionally clears an engine's statistics. (R247) -/
  | hpStats (mb : Fin 8)
  /-- HP_TP_READ: Call 0x040A returns diverted test-pulse hit records. (R245) -/
  | hpTpRead (mb : Fin 8)
  /-- ADC_CAL_UPDATE: Every millisecond the converter background correction coefficients are updated and convergence judged. (R254) -/
  | adcCalUpdate (upd : List AdcUpdate)
  /-- ADC_CONVERGE_TIMEOUT: A converter not CONVERGED within 200 ms enters FAULT and EV_209 is raised. (R255) -/
  | adcConvergeTimeout (patch : Nat)
  /-- TRIGGER_FIRE: Units meet their condition on a sample and the record builder takes the union of their actions. (R266) -/
  | triggerFire (g : Nat) (xs : List PatchIn)
  /-- HOLDOFF_END: A unit's HOLDOFF samples pass and it may fire again. (R268) -/
  | holdoffEnd (unit : Fin 16)
  /-- SOFT_FIRE_TICK: The tick of a soft fire arrives and the named units fire on sample 0. (R277) -/
  | softFireTick
  /-- TRIGGER_RECORD_WRITE: After MEAS_POST the trigger record is completed and written to BQ_12. (R275) -/
  | triggerRecordWrite
  /-- WAVE_CAPTURE_DONE: A capture engine writes the last waveform segment and becomes free. (R278) -/
  | waveCaptureDone (eng : Fin 4)
  /-- TR_CONFIG_EFFECT: A unit configuration takes effect on its tick, restarting comparators, hold-off and PERIOD history. (R294) -/
  | trConfigEffect
  /-- TRIG_IN_EDGE: A TRIG_IN rising edge in LEVEL mode fires every unit with SOURCE TRIG_IN. (R291) -/
  | trigInEdge (ns : Nat)
  /-- DOMAIN_ARM_RX: An ARM word is received; the member adopts its sequence and arms at the arm tick or late. (R285) -/
  | domainArmRx (path : Fin 5) (w : BitVec 64)
  /-- DOMAIN_DISARM_RX: A DISARM word is received and the member disarms at its effect tick. (R285) -/
  | domainDisarmRx (path : Fin 5) (w : BitVec 64)
  /-- DOMAIN_FIRE_RX: A FIRE word is received and, if current and armed or fired, ACCEPT actions are taken once. (R285) -/
  | domainFireRx (path : Fin 5) (w : BitVec 64)
  /-- DOMAIN_BEAT_RX: A BEAT word is received, rejoining a detached module or arming late on an unknown sequence. (R283) -/
  | domainBeatRx (path : Fin 5) (w : BitVec 64)
  /-- DOMAIN_BEAT_SEND: The master sends a BEAT every beat period. (R283) -/
  | domainBeatSend
  /-- DOMAIN_BEAT_TIMEOUT: No BEAT within three beat periods makes the module DETACHED with EV_218. (R283) -/
  | domainBeatTimeout
  /-- DOMAIN_ARM_TICK: The arm tick arrives and the module becomes ARMED. (R285) -/
  | domainArmTick
  /-- DOMAIN_REARM: In CONTINUOUS mode the module rearms at the earliest fire tick plus REARM. (R285) -/
  | domainRearm
  /-- DOMAIN_DISARM_EFFECT: The DISARM effect tick arrives and the module becomes DISARMED. (R285) -/
  | domainDisarmEffect
  /-- TR_STATUS: Call 0x0500 returns domain, unit, capture and converter state. (R296) -/
  | trStatus (mb : Fin 8)
  /-- TR_UNIT_CONFIG: Call 0x0501 sets a unit configuration and returns its effect tick. (R294) -/
  | trUnitConfig (mb : Fin 8)
  /-- TR_UNIT_READ: Call 0x0502 returns a unit configuration and the input in use. (R296) -/
  | trUnitRead (mb : Fin 8)
  /-- TR_UNIT_ENABLE: Call 0x0503 sets and clears unit enables and returns the effect tick. (R296) -/
  | trUnitEnable (mb : Fin 8)
  /-- TR_PATCH_CONFIG: Call 0x0504 sets patch gains. (R252) -/
  | trPatchConfig (mb : Fin 8)
  /-- TR_ADC_STATUS: Call 0x0505 returns a converter's state and slice corrections. (R255) -/
  | trAdcStatus (mb : Fin 8)
  /-- TR_ADC_FREEZE: Call 0x0506 freezes or releases converter coefficients. (R255) -/
  | trAdcFreeze (mb : Fin 8)
  /-- TR_DOMAIN_CONFIG: Call 0x0507 sets the domain configuration and detaches until the next BEAT. (R296) -/
  | trDomainConfig (mb : Fin 8)
  /-- TR_ARM: Call 0x0508 at the master starts a new sequence, sends ARM and arms at the arm tick. (R285) -/
  | trArm (mb : Fin 8)
  /-- TR_DISARM: Call 0x0509 at the master disarms the domain at an effect tick. (R297) -/
  | trDisarm (mb : Fin 8)
  /-- TR_DOMAIN_STATUS: Call 0x050A returns domain state and counts. (R296) -/
  | trDomainStatus (mb : Fin 8)
  /-- TR_SOFT_FIRE: Call 0x050B schedules a soft fire of units at a future tick. (R277) -/
  | trSoftFire (mb : Fin 8)
  /-- TR_STATS: Call 0x050C returns and optionally clears unit statistics. (R297) -/
  | trStats (mb : Fin 8)
  /-- TR_TRIGIO_CONFIG: Call 0x050D sets TRIG_IN and TRIG_OUT modes. (R291) -/
  | trTrigioConfig (mb : Fin 8)
  /-- TR_SAMPLE_READ: Call 0x050E returns raw or expanded filtered samples of a patch. (R331) -/
  | trSampleRead (mb : Fin 8)
  /-- NOP: WE instruction 0x00 does nothing. (R314) -/
  | weNop (core : Fin 4)
  /-- ADD: WE instruction 0x01 adds a and b. (R314) -/
  | weAdd (core : Fin 4)
  /-- SUB: WE instruction 0x02 subtracts b from a. (R314) -/
  | weSub (core : Fin 4)
  /-- ADDS: WE instruction 0x03 adds with i32 saturation and sets SAT. (R314) -/
  | weAdds (core : Fin 4)
  /-- SUBS: WE instruction 0x04 subtracts with i32 saturation and sets SAT. (R314) -/
  | weSubs (core : Fin 4)
  /-- AND: WE instruction 0x05 bitwise AND. (R314) -/
  | weAnd (core : Fin 4)
  /-- OR: WE instruction 0x06 bitwise OR. (R314) -/
  | weOr (core : Fin 4)
  /-- XOR: WE instruction 0x07 bitwise XOR. (R314) -/
  | weXor (core : Fin 4)
  /-- SHL: WE instruction 0x08 shifts left by b[4:0]. (R314) -/
  | weShl (core : Fin 4)
  /-- SHR: WE instruction 0x09 shifts right logically. (R314) -/
  | weShr (core : Fin 4)
  /-- SAR: WE instruction 0x0A shifts right arithmetically. (R314) -/
  | weSar (core : Fin 4)
  /-- MIN: WE instruction 0x0B signed minimum. (R314) -/
  | weMin (core : Fin 4)
  /-- MAX: WE instruction 0x0C signed maximum. (R314) -/
  | weMax (core : Fin 4)
  /-- ABS: WE instruction 0x0D saturating absolute value. (R314) -/
  | weAbs (core : Fin 4)
  /-- ADD2H: WE instruction 0x0E per-halfword saturating add. (R314) -/
  | weAdd2h (core : Fin 4)
  /-- SUB2H: WE instruction 0x0F per-halfword saturating subtract. (R314) -/
  | weSub2h (core : Fin 4)
  /-- PACK: WE instruction 0x10 packs two low halves. (R314) -/
  | wePack (core : Fin 4)
  /-- CMPLT: WE instruction 0x11 signed less-than compare. (R314) -/
  | weCmplt (core : Fin 4)
  /-- CMPEQ: WE instruction 0x12 equality compare. (R314) -/
  | weCmpeq (core : Fin 4)
  /-- MOV: WE instruction 0x13 copies b. (R314) -/
  | weMov (core : Fin 4)
  /-- MOVS: WE instruction 0x14 writes a special register, faulting on reserved codes or ROTB/SQ in a PLOOP. (R308) -/
  | weMovs (core : Fin 4)
  /-- MOVSR: WE instruction 0x15 reads a special register. (R308) -/
  | weMovsr (core : Fin 4)
  /-- MUL: WE instruction 0x18 multiplies low halves to i32. (R314) -/
  | weMul (core : Fin 4)
  /-- MUL2H: WE instruction 0x19 per-half Q15 multiply. (R314) -/
  | weMul2h (core : Fin 4)
  /-- MAC: WE instruction 0x1A adds a dual product to an accumulator. (R314) -/
  | weMac (core : Fin 4)
  /-- MSU: WE instruction 0x1B subtracts a dual product from an accumulator. (R314) -/
  | weMsu (core : Fin 4)
  /-- MAC0: WE instruction 0x1C sets an accumulator to a dual product. (R314) -/
  | weMac0 (core : Fin 4)
  /-- FTAP: WE instruction 0x1D reads X, Y and C, accumulates four products and shifts the delay line. (R315) -/
  | weFtap (core : Fin 4)
  /-- FTAP0: WE instruction 0x1E as FTAP but sets the accumulator. (R315) -/
  | weFtap0 (core : Fin 4)
  /-- CLRA: WE instruction 0x20 clears an accumulator. (R314) -/
  | weClra (core : Fin 4)
  /-- ADDA: WE instruction 0x21 adds one accumulator into another. (R314) -/
  | weAdda (core : Fin 4)
  /-- LDA: WE instruction 0x22 loads an accumulator. (R314) -/
  | weLda (core : Fin 4)
  /-- MOVA: WE instruction 0x23 moves a rounded saturated 16-bit accumulator value. (R314) -/
  | weMova (core : Fin 4)
  /-- MOVAW: WE instruction 0x24 moves a rounded saturated 32-bit accumulator value. (R314) -/
  | weMovaw (core : Fin 4)
  /-- IN: WE instruction 0x28 pops the next sample of an input channel, stalling while empty. (R314) -/
  | weIn (core : Fin 4)
  /-- OUT: WE instruction 0x29 pushes a sample to an output channel, stalling while full. (R314) -/
  | weOut (core : Fin 4)
  /-- QPUT: WE instruction 0x2A appends a word to the open kernel record, stalling while the buffer is full. (R334) -/
  | weQput (core : Fin 4)
  /-- QEND: WE instruction 0x2B closes the open kernel record with USER. (R334) -/
  | weQend (core : Fin 4)
  /-- BR: WE instruction 0x30 branches. (R314) -/
  | weBr (core : Fin 4)
  /-- BRZ: WE instruction 0x31 branches if a is zero. (R314) -/
  | weBrz (core : Fin 4)
  /-- BRNZ: WE instruction 0x32 branches if a is not zero. (R314) -/
  | weBrnz (core : Fin 4)
  /-- CALL: WE instruction 0x33 calls a subroutine, faulting STACK past 8 levels. (R319) -/
  | weCall (core : Fin 4)
  /-- RET: WE instruction 0x34 returns from a subroutine. (R314) -/
  | weRet (core : Fin 4)
  /-- LOOP: WE instruction 0x35 runs its body n times, faulting STACK past 4 levels. (R319) -/
  | weLoop (core : Fin 4)
  /-- PLOOP: WE instruction 0x36 runs a software-pipelined body with stage predicates and register rotation. (R321) -/
  | wePloop (core : Fin 4)
  /-- WAIT: WE instruction 0x37 issues nothing until an interrupt is taken. (R314) -/
  | weWait (core : Fin 4)
  /-- RTI: WE instruction 0x38 returns from the active interrupt level. (R325) -/
  | weRti (core : Fin 4)
  /-- SWI: WE instruction 0x39 raises EV_270 with a value. (R314) -/
  | weSwi (core : Fin 4)
  /-- HALT: WE instruction 0x3A stops the core and raises EV_257. (R301) -/
  | weHalt (core : Fin 4)
  /-- WE_IN_RESUME: A stalled IN resumes when a sample arrives in its channel. (R316) -/
  | weInResume (core : Fin 4)
  /-- WE_OUT_RESUME: A stalled OUT resumes when its output buffer has room. (R332) -/
  | weOutResume (core : Fin 4)
  /-- WE_QPUT_RESUME: A stalled QPUT resumes when the record buffer has room. (R335) -/
  | weQputResume (core : Fin 4)
  /-- WE_IRQ_LEVEL1: A pending enabled level-1 interrupt is taken and the core swaps to bank 1. (R325) -/
  | weIrqLevel1 (core : Fin 4)
  /-- WE_IRQ_LEVEL2: A pending enabled level-2 interrupt is taken after draining and saving state. (R327) -/
  | weIrqLevel2 (core : Fin 4)
  /-- WE_INPUT_SAMPLE: A decimated sample becomes ready in an input channel FIFO, faulting IN_OVERRUN if full. (R328) -/
  | weInputSample (core : Fin 4) (ch : Fin 16) (g : Nat)
  /-- WE_STATUS: Call 0x0600 returns a core's state, fault, priority and live outputs. (R343) -/
  | weStatus (mb : Fin 8)
  /-- WE_LOAD_BEGIN: Call 0x0601 clears a core's memories and sets it OFF. (R305) -/
  | weLoadBegin (mb : Fin 8)
  /-- WE_LOAD_DATA: Call 0x0602 writes kernel data into a core space. (R343) -/
  | weLoadData (mb : Fin 8)
  /-- WE_LOAD_END: Call 0x0603 checks the kernel and sets the core STOPPED or returns a reject reason. (R339) -/
  | weLoadEnd (mb : Fin 8)
  /-- WE_START: Call 0x0604 starts cores from ENTRY with reset registers. (R301) -/
  | weStart (mb : Fin 8)
  /-- WE_STOP: Call 0x0605 stops cores. (R301) -/
  | weStop (mb : Fin 8)
  /-- WE_MEM_READ: Call 0x0606 returns core memory contents. (R343) -/
  | weMemRead (mb : Fin 8)
  /-- WE_PARAM_WRITE: Call 0x0607 writes a parameter block atomically between issue cycles. (R342) -/
  | weParamWrite (mb : Fin 8)
  /-- WE_REG_READ: Call 0x0608 returns V or G registers of a stopped or faulted core. (R343) -/
  | weRegRead (mb : Fin 8)
  /-- WE_SIGNAL: Call 0x0609 sets HOSTVAL and the HOST interrupt of a core. (R323) -/
  | weSignal (mb : Fin 8)
  /-- WE_STATS: Call 0x060A returns and optionally clears core statistics. (R344) -/
  | weStats (mb : Fin 8)
  /-- FRAME_CLOSE_TIMEOUT: A frame's oldest record has waited the packet-close time and the frame closes. (R354) -/
  | frameCloseTimeout (q : Fin 16) (source : Nat) (kind : Nat)
  /-- DRAIN: With the middle empty and head space free, positions pass from tail to head. (R351) -/
  | drain (q : Fin 16)
  /-- SPILL: A complete tail chunk that cannot drain is written to the region's next pages. (R351) -/
  | spill (q : Fin 16)
  /-- REFILL: With 64 KiB of head free, the oldest middle chunk is read into the head and its pages released. (R351) -/
  | refill (q : Fin 16) (ups : List WordUpset)
  /-- POINTER_CHECK: Queue pointer copies are compared; a mismatch or broken order is a pointer fault starting a queue reset. (R362) -/
  | pointerCheck (q : Fin 16) (upset : Option PointerUpset)
  /-- QUEUE_RESET_COMPLETE: With consumers idle, pages are released, pointers rewritten, a loss frame written and the queue resumes. (R364) -/
  | queueResetComplete (q : Fin 16)
  /-- SCRUB_LINE_VISIT: The patrol scrubber visits a line, writing back corrections or poison codes. (R377) -/
  | scrubLineVisit (line : Nat) (upset : Option LineUpset)
  /-- SRAM_SCRUB: Every SRAM period the head, tail, bitmap and chunk index are scrubbed. (R376) -/
  | sramScrub (found : List SramUpset)
  /-- BB_STATUS: Call 0x0700 returns a queue's QSTAT, fill, capacity and oldest time base. (R357) -/
  | bbStatus (mb : Fin 8)
  /-- BB_QUEUE_MAP_SET: Call 0x0701 changes a queue's map entry at an effect tick. (R390) -/
  | bbQueueMapSet (mb : Fin 8)
  /-- BB_QUEUE_MAP_GET: Call 0x0702 returns the queue map. (R389) -/
  | bbQueueMapGet (mb : Fin 8)
  /-- BB_REGION_SET: Call 0x0703 resizes regions at once. (R391) -/
  | bbRegionSet (mb : Fin 8)
  /-- BB_REGION_GET: Call 0x0704 returns region sizes, spare budgets and defects. (R389) -/
  | bbRegionGet (mb : Fin 8)
  /-- BB_HOLD_OUTPUT: Call 0x0705 sets or releases host holds on queues. (R356) -/
  | bbHoldOutput (mb : Fin 8)
  /-- BB_FLUSH: Call 0x0706 discards unstarted closed frames and writes a loss frame. (R704) -/
  | bbFlush (mb : Fin 8)
  /-- BB_RESET: Call 0x0707 starts the queue-reset sequence. (R364) -/
  | bbReset (mb : Fin 8)
  /-- BB_PEEK: Call 0x0708 returns the oldest unstarted closed frame's descriptor and payload bytes. (R358) -/
  | bbPeek (mb : Fin 8)
  /-- BB_STATS: Call 0x0709 returns and optionally clears queue statistics. (R389) -/
  | bbStats (mb : Fin 8)
  /-- MEM_STATUS: Call 0x070A returns memory training, patrol and defect state. (R389) -/
  | memStatus (mb : Fin 8)
  /-- MEM_SCRUB_CONFIG: Call 0x070B sets the patrol rate and SRAM period. (R376) -/
  | memScrubConfig (mb : Fin 8)
  /-- MEM_SCRUB_RANGE: Call 0x070C starts or defers a range scrub job. (R380) -/
  | memScrubRange (mb : Fin 8)
  /-- MEM_SCRUB_SUMMARY: Call 0x070D returns a scrub summary. (R381) -/
  | memScrubSummary (mb : Fin 8)
  /-- MEM_DEFECT_READ: Call 0x070E lists remapped lines and retired pages. (R385) -/
  | memDefectRead (mb : Fin 8)
  /-- MEM_CHECKER_WRITE: Call 0x070F writes a data word and chosen check bits to the test page or an OFF queue's head. (R386) -/
  | memCheckerWrite (mb : Fin 8)
  /-- MEM_CHECKER_READ: Call 0x0710 reads a test word and reports syndrome and result. (R386) -/
  | memCheckerRead (mb : Fin 8)
  /-- MEM_TRAIN: Call 0x0711 starts a job that retrains the memory layer. (R349) -/
  | memTrain (mb : Fin 8)
  /-- CX_UNIT_CODE: A compression unit takes a closed frame and codes it or copies it into output buffers. (R402) -/
  | cxUnitCode (unit : Fin 2) (q : Fin 16)
  /-- CX_BUFFER_CLOSE_TIMEOUT: An output buffer's first byte waits the packet-close time and the buffer becomes READY. (R403) -/
  | cxBufferCloseTimeout (unit : Fin 2) (q : Fin 16)
  /-- CX_IDLE_GATE: In EASY, PD_25 is gated after 1 ms without work. (R417) -/
  | cxIdleGate
  /-- CX_STATUS: Call 0x0800 returns a unit's state and throughput. (R421) -/
  | cxStatus (mb : Fin 8)
  /-- CX_QUEUE_CONFIG: Call 0x0801 changes a queue's compression configuration. (R419) -/
  | cxQueueConfig (mb : Fin 8)
  /-- CX_QUEUE_GET: Call 0x0802 returns compression settings of all queues. (R421) -/
  | cxQueueGet (mb : Fin 8)
  /-- CX_CHAIN_READ: Call 0x0803 returns output-buffer descriptors. (R406) -/
  | cxChainRead (mb : Fin 8)
  /-- CX_STATS: Call 0x0804 returns and optionally clears compression statistics. (R421) -/
  | cxStats (mb : Fin 8)
  /-- CX_CODE_TEST: Call 0x0805 codes given values with the Rice coder and returns the result. (R422) -/
  | cxCodeTest (mb : Fin 8)
  /-- LANE_SIGNAL_DETECT: A lane in DETECT sees receive amplitude above threshold for 100 us and enters RATE. (R430) -/
  | laneSignalDetect (lane : Fin 16)
  /-- LANE_BLOCK_LOCK: A lane achieves block lock on 64 valid sync headers. (R428) -/
  | laneBlockLock (lane : Fin 20)
  /-- LANE_LOCK_LOST: A lane loses block lock and its group leaves RUNNING. (R436) -/
  | laneLockLost (lane : Fin 20)
  /-- NEG_ADV_RX: A received ADV set moves a lane to FEC on a match with block lock. (R430) -/
  | negAdvRx (lane : Fin 16) (v : BitVec 16)
  /-- NEG_FEC_RX: A received FEC set settles FEC and moves the lane to GROUP. (R431) -/
  | negFecRx (lane : Fin 16) (v : BitVec 16)
  /-- NEG_GROUP_RX: A received GROUP set fixes width and lanes and moves them to ALIGN. (R432) -/
  | negGroupRx (lane : Fin 16) (v : BitVec 16)
  /-- NEG_MAP_RX: A received MAP set settles the class map. (R430) -/
  | negMapRx (lane : Fin 16) (v : BitVec 16)
  /-- NEG_READY_RX: A received READY set after sending READY makes the lane RUNNING. (R430) -/
  | negReadyRx (lane : Fin 16)
  /-- NEG_RATE_REQ_RX: A received RATE_REQ set is answered with RATE_ACK. (R437) -/
  | negRateReqRx (lane : Fin 16) (v : BitVec 16)
  /-- NEG_RATE_ACK_RX: A matching accepting RATE_ACK finishes the packet and re-enters RATE at the new code. (R437) -/
  | negRateAckRx (lane : Fin 16) (v : BitVec 16)
  /-- ALIGN_MARKER_RX: An alignment marker is received and deskew proceeds; three good markers complete ALIGN. (R435) -/
  | alignMarkerRx (lane : Fin 16) (d : BitVec 24) (skew : Int)
  /-- ALIGN_MARKER_SEND: Every 16,384 blocks each lane sends an alignment marker. (R434) -/
  | alignMarkerSend (g : Fin 4)
  /-- MARKER_MISSED: Two consecutive missed markers take the group out of RUNNING. (R436) -/
  | markerMissed (lane : Fin 16)
  /-- FEC_CODEWORD_UNCORRECTABLE: An uncorrectable codeword is counted; more than 16 in 1 ms take the group out of RUNNING. (R436) -/
  | fecCodewordUncorrectable (lane : Fin 16)
  /-- LANE_RATE_DWELL_TIMEOUT: The 20 ms RATE dwell expires and the lane steps down or turns the transmitter off. (R430) -/
  | laneRateDwellTimeout (lane : Fin 16)
  /-- LANE_TX_OFF_END: After 1 ms of transmitter off the lane returns to DETECT. (R430) -/
  | laneTxOffEnd (lane : Fin 16)
  /-- LANE_FEC_TIMEOUT: FEC unsettled in 2 ms returns the lane to RATE at a lower code. (R430) -/
  | laneFecTimeout (lane : Fin 16)
  /-- GROUP_TIMEOUT: 10 ms after the first lane entered GROUP the width is fixed with the lanes present. (R430) -/
  | groupTimeout (g : Fin 4)
  /-- ALIGN_TIMEOUT: ALIGN not complete in 2 ms returns to GROUP without late lanes. (R430) -/
  | alignTimeout (g : Fin 4)
  /-- MAP_TIMEOUT: No MAP in 2 ms takes the proposed class mask as accepted. (R430) -/
  | mapTimeout (g : Fin 4)
  /-- RATE_REQ_TIMEOUT: No RATE_ACK within 100 us leaves the rate unchanged and raises EV_412. (R437) -/
  | rateReqTimeout (g : Fin 4)
  /-- REGROUP_TIMEOUT: A lane not regrouped within 10 ms goes to DETECT. (R436) -/
  | regroupTimeout (lane : Fin 16)
  /-- PACKET_SEND: The link stage takes a closed frame or READY buffer and sends it as a stream packet by class arbitration. (R444) -/
  | packetSend (g : Fin 4) (out : WordCheck) (ups : List WordUpset)
  /-- RX_PACKET_BAD: A received packet with a bad CRC or ending in an error block is discarded, counted and EV_406 raised. (R443) -/
  | rxPacketBad (g : Fin 4)
  /-- RX_RESERVED_STREAM: A received packet on a reserved stream 24-31 is discarded. (R442) -/
  | rxReservedStream (g : Fin 4) (stream : Nat)
  /-- NAK_RX: A NAK is received and requested packets are resent with RETX or reported in GONE. (R455) -/
  | nakRx (g : Fin 4) (payload : List Byte)
  /-- NAK_GROUP_WAIT_EXPIRY: A requested packet whose group is not RUNNING 1 ms after the NAK is reported in GONE. (R455) -/
  | nakGroupWaitExpiry (g : Fin 4)
  /-- TAIL_SEND: Every TAIL interval each group sends a TAIL packet naming last sequences per stream. (R456) -/
  | tailSend (g : Fin 4)
  /-- ARP_REQUEST_RX: An ARP request for the module's address is answered. (R465) -/
  | arpRequestRx (g : Fin 4) (targetIp : Word) (senderMac : BitVec 48) (senderIp : Word)
  /-- ARP_REPLY_RX: An ARP reply resolves a group's destination MAC. (R465) -/
  | arpReplyRx (g : Fin 4) (senderIp : Word) (mac : BitVec 48)
  /-- ARP_RETRY: Every second until resolved, or 60 s after, the group sends ARP for its destination. (R465) -/
  | arpRetry (g : Fin 4)
  /-- ARP_FAIL_TIMEOUT: Five seconds without resolution raises EV_411. (R465) -/
  | arpFailTimeout (g : Fin 4)
  /-- PAUSE_RX: A received PAUSE stops or resumes transmission on the group. (R466) -/
  | pauseRx (g : Fin 4) (quanta : BitVec 16)
  /-- PAUSE_EXPIRY: The pause time of the quanta expires and transmission resumes. (R466) -/
  | pauseExpiry (g : Fin 4)
  /-- ETH_FRAME_DISCARD: A received Ethernet frame of an unsupported kind or for another destination is discarded and counted. (R464) -/
  | ethFrameDiscard (g : Fin 4)
  /-- SL_HELLO_RX: A HELLO set is received and the side link goes UP or the partner is refused. (R470) -/
  | slHelloRx (side : Fin 4) (v : BitVec 16)
  /-- SL_HELLO_SEND: Every 1 ms while UP a side link sends HELLO. (R470) -/
  | slHelloSend (side : Fin 4)
  /-- SL_HELLO_TIMEOUT: Three missed HELLOs take the side link to DETECT, its merge state LOST and raise EV_414. (R470) -/
  | slHelloTimeout (side : Fin 4)
  /-- LK_STATUS: Call 0x0900 returns a group's state, lanes, classes, claim and rate. (R474) -/
  | lkStatus (mb : Fin 8)
  /-- LK_LANE_STATUS: Call 0x0901 returns a lane's state and error counts. (R474) -/
  | lkLaneStatus (mb : Fin 8)
  /-- LK_CONFIG: Call 0x0902 sets a group entry and renegotiates from DETECT. (R474) -/
  | lkConfig (mb : Fin 8)
  /-- LK_RENEGOTIATE: Call 0x0903 restarts negotiation of groups. (R474) -/
  | lkRenegotiate (mb : Fin 8)
  /-- LK_RATE_SET: Call 0x0904 changes a RUNNING group's rate by RATE_REQ. (R437) -/
  | lkRateSet (mb : Fin 8)
  /-- LK_CLASS_CONFIG: Call 0x0905 sets class maps taking effect at the next MAP. (R474) -/
  | lkClassConfig (mb : Fin 8)
  /-- LK_TC2_WEIGHT_SET: Call 0x0906 sets TC2 queue weights. (R450) -/
  | lkTc2WeightSet (mb : Fin 8)
  /-- LK_PACKET_CLOSE_SET: Call 0x0907 sets the packet-close time for new frames. (R21) -/
  | lkPacketCloseSet (mb : Fin 8)
  /-- LK_REPECHAGE_CLEAR: Call 0x0908 clears repechage windows. (R453) -/
  | lkRepechageClear (mb : Fin 8)
  /-- LK_PRBS_CONFIG: Call 0x0909 puts a lane into PRBS TEST or back. (R459) -/
  | lkPrbsConfig (mb : Fin 8)
  /-- LK_PRBS_INJECT_SINGLE: Call 0x090A kind SINGLE inverts one transmitted bit. (R461) -/
  | lkPrbsInjectSingle (mb : Fin 8)
  /-- LK_PRBS_INJECT_BURST: Call 0x090A kind BURST inverts n consecutive bits once. (R461) -/
  | lkPrbsInjectBurst (mb : Fin 8)
  /-- LK_PRBS_INJECT_RATE: Call 0x090A kind RATE inverts one bit in every 2^n until stopped. (R461) -/
  | lkPrbsInjectRate (mb : Fin 8)
  /-- LK_PRBS_INJECT_STOP: Call 0x090A kind STOP ends RATE injection. (R461) -/
  | lkPrbsInjectStop (mb : Fin 8)
  /-- LK_PRBS_READ: Call 0x090B returns PRBS checker lock and counts. (R460) -/
  | lkPrbsRead (mb : Fin 8)
  /-- LK_ETH_CONFIG: Call 0x090C sets a group's Ethernet addressing. (R474) -/
  | lkEthConfig (mb : Fin 8)
  /-- LK_ETH_STATUS: Call 0x090D returns ARP, pause and frame counts. (R474) -/
  | lkEthStatus (mb : Fin 8)
  /-- LK_SL_STATUS: Call 0x090E returns a side link's state and partner. (R474) -/
  | lkSlStatus (mb : Fin 8)
  /-- LK_SL_CONFIG: Call 0x090F sets side-link enables. (R474) -/
  | lkSlConfig (mb : Fin 8)
  /-- LK_STATS: Call 0x0910 returns and optionally clears link statistics. (R474) -/
  | lkStats (mb : Fin 8)
  /-- LK_TC0_LOAD: Call 0x0911 returns measured TC0 load and peaks. (R452) -/
  | lkTc0Load (mb : Fin 8)
  /-- TIME_TMR_VOTE: On each strobe edge the time-core replicas are voted and a disagreeing one reloaded. (R477) -/
  | timeTmrVote (upset : List TimeUpset)
  /-- FREQ_SOURCE_WATCHDOG: No edge from a source within 1 us declares it lost, freezing F and switching sources. (R481) -/
  | freqSourceWatchdog (src : Fin 3)
  /-- FREQ_WINDOW_CHECK: Every 1 ms window each source is counted against LNCLK to decide presence or loss. (R481) -/
  | freqWindowCheck (src : Fin 3) (ppb : Int)
  /-- OCXO_RDY_FALL: The filtered OCXO_RDY falls and OCXO_IN becomes unusable with EV_453. (R482) -/
  | ocxoRdyFall
  /-- OCXO_WARM_HOLD_EXPIRY: OCXO_IN present with OCXO_RDY high for WARM_HOLD becomes usable. (R482) -/
  | ocxoWarmHoldExpiry
  /-- FREQ_RESTORE_TIMER: A higher-priority source usable for WAIT_TO_RESTORE is selected. (R484) -/
  | freqRestoreTimer (src : Nat)
  /-- FREQ_LOCK_CHECK: Frequency within 1e-9 over 100 ms without slew limiting makes FREQ_STATE LOCKED. (R485) -/
  | freqLockCheck (diff : Nat) (want : Int)
  /-- TIME_SYNC_RX: A SYNC from the followed master is stamped t2 and answered with a DELAY_REQ. (R491) -/
  | timeSyncRx (g : Fin 4) (payload : List Byte) (t2 : FineTime)
  /-- TIME_FOLLOW_UP_RX: A FOLLOW_UP provides t1 for an exchange. (R492) -/
  | timeFollowUpRx (g : Fin 4) (payload : List Byte)
  /-- TIME_DELAY_RESP_RX: A DELAY_RESP provides t4, completing a valid exchange that yields offset and delay. (R492) -/
  | timeDelayRespRx (g : Fin 4) (payload : List Byte)
  /-- TIME_ANNOUNCE_RX: An ANNOUNCE updates the candidate masters and may change the followed master. (R491) -/
  | timeAnnounceRx (g : Fin 4) (payload : List Byte)
  /-- TIME_EXCHANGE_TIMEOUT: An exchange without t1 and t4 within 1 s of t2 becomes invalid. (R492) -/
  | timeExchangeTimeout
  /-- MASTER_ANNOUNCE_TIMEOUT: A master unannounced for 3 s is dropped and another followed. (R491) -/
  | masterAnnounceTimeout (master : Word)
  /-- TIME_HOLDOVER_TIMEOUT: In SYNC, no valid measurement for four intervals enters time HOLDOVER with EV_460. (R486) -/
  | timeHoldoverTimeout
  /-- TIME_STEP_EDGE: At the step edge the tick count and epoch are set, frames closed and EV_459 raised. (R489) -/
  | timeStepEdge
  /-- PTP_SYNC_RX: A PTP Sync is received and timestamped. (R493) -/
  | ptpSyncRx (g : Fin 4) (payload : List Byte) (t2 : FineTime)
  /-- PTP_FOLLOW_UP_RX: A PTP Follow_Up supplies t1. (R493) -/
  | ptpFollowUpRx (g : Fin 4) (payload : List Byte)
  /-- PTP_DELAY_RESP_RX: A PTP Delay_Resp supplies t4. (R493) -/
  | ptpDelayRespRx (g : Fin 4) (payload : List Byte)
  /-- PTP_ANNOUNCE_RX: A PTP Announce feeds best-master selection. (R493) -/
  | ptpAnnounceRx (g : Fin 4) (payload : List Byte)
  /-- PPS_IN_EDGE: A PPS_IN rising edge is stamped and accepted within the window or rejected. (R495) -/
  | ppsInEdge (t : FineTime)
  /-- PPS_LOSS_TIMEOUT: 1.1 s without an accepted PPS edge clears PPS_PRESENT and raises EV_463. (R495) -/
  | ppsLossTimeout
  /-- PPS_OUT_PULSE: PPS_OUT rises on the tick congruent to PPS_OUT_PHASE and falls after its width. (R496) -/
  | ppsOutPulse
  /-- TI_EDGE: A selected edge on a time-interval input is counted and, per prescaler, stamped. (R503) -/
  | tiEdge (input : Fin 4) (t : FineTime)
  /-- FREQ_GATE_END: A frequency gate ends and its regression result enters the ring. (R508) -/
  | freqGateEnd (input : Fin 4)
  /-- TIME_STATUS: Call 0x0A00 returns time state, steering, offset and master. (R511) -/
  | timeStatus (mb : Fin 8)
  /-- TIME_NOW: Call 0x0A01 returns the current epoch and tick. (R511) -/
  | timeNow (mb : Fin 8)
  /-- TIME_FREQ_CONFIG: Call 0x0A02 sets frequency source priorities and parameters. (R484) -/
  | timeFreqConfig (mb : Fin 8)
  /-- TIME_SERVO_CONFIG: Call 0x0A03 sets the time servo and restarts TIME_STATE from UNSYNC. (R511) -/
  | timeServoConfig (mb : Fin 8)
  /-- TIME_SET: Call 0x0A04 sets epoch and tick by a step at a named tick. (R501) -/
  | timeSet (mb : Fin 8)
  /-- TIME_PTP_CONFIG: Call 0x0A05 sets PTP domain and ORIGIN. (R494) -/
  | timePtpConfig (mb : Fin 8)
  /-- TIME_PPS_CONFIG: Call 0x0A06 sets PPS input and output parameters. (R496) -/
  | timePpsConfig (mb : Fin 8)
  /-- TI_CONFIG: Call 0x0A07 configures a time-interval input. (R502) -/
  | tiConfig (mb : Fin 8)
  /-- TI_STAMP_READ: Call 0x0A08 returns stamps from an input's capture FIFO. (R504) -/
  | tiStampRead (mb : Fin 8)
  /-- SPLIT_CONFIG: Call 0x0A09 configures a split channel. (R505) -/
  | splitConfig (mb : Fin 8)
  /-- SPLIT_READ: Call 0x0A0A returns split statistics and recent splits. (R506) -/
  | splitRead (mb : Fin 8)
  /-- FREQ_START: Call 0x0A0B starts a frequency gate job on an input. (R507) -/
  | freqStart (mb : Fin 8)
  /-- FREQ_READ: Call 0x0A0C returns a frequency result record. (R508) -/
  | freqRead (mb : Fin 8)
  /-- FREQ_STOP: Call 0x0A0D ends a gate with STOPPED. (R508) -/
  | freqStop (mb : Fin 8)
  /-- TIME_STATS: Call 0x0A0E returns and optionally clears time statistics. (R511) -/
  | timeStats (mb : Fin 8)
  /-- GOVERNOR_EVAL: Every 100 us the governor measures power, updates the level and engages or releases steps. (R524) -/
  | governorEval (p : Nat)
  /-- GOVERNOR_STEP2_TICK: Every 10 ms step 2 lowers or restores one group's rate by one code. (R527) -/
  | governorStep2Tick
  /-- GOVERNOR_RESTORE_RETRY: A refused rate restore is retried once per second. (R527) -/
  | governorRestoreRetry
  /-- THERMAL_SCAN: Every 100 us (1 ms in HOLD) the die sensors are read and thermal limits applied. (R531) -/
  | thermalScan (temps : List Int)
  /-- THROTTLE_STEP_TIMER: While throttling, step 2 engages after 10 ms and step 3 after 20 ms. (R533) -/
  | throttleStepTimer
  /-- SHUTDOWN_HOLD_TIMEOUT: HOLD not reached 5 ms after shutdown makes PD_0 remove every supply enable but the always-on ones. (R534) -/
  | shutdownHoldTimeout
  /-- THERMAL_LATCH_CLEAR: All valid sensors below 85 C for 10 s clear the thermal latch. (R535) -/
  | thermalLatchClear
  /-- AUTO_RATE_WINDOW: Each 1 ms hit-rate window drives AUTO promotion to the busy state or return to EASY. (R522) -/
  | autoRateWindow
  /-- WAKE_TIMER_FIRE: A wake timer reaches its tick and raises the module to its target state. (R521) -/
  | wakeTimerFire (n : Fin 4)
  /-- QUEUE_SAVE: With consumers idle the queues, metadata and cox memories are saved and the memory layer enters self-refresh. (R367) -/
  | queueSave
  /-- HOLD_REACHED: Front end, time core and remaining domains power off, SEQ_EN drop and POWER_STATE becomes HOLD. (R518) -/
  | holdReached
  /-- HOLD_WAKE: A wake source in HOLD raises the supply enables and starts leaving HOLD. (R519) -/
  | holdWake (src : Nat) (timer : Nat)
  /-- HOLD_WAKE_RESTORE: With rails good and strobe running, cox memories, queues and tables are restored. (R519) -/
  | holdWakeRestore (coxOkS : Bool) (coxOkB : Bool) (queuesOk : Bool)
  /-- HOLD_WAKE_EASY: The wake completes, POWER_STATE becomes EASY and lanes start from DETECT. (R519) -/
  | holdWakeEasy
  /-- PW_STATUS: Call 0x0B00 returns power state, governor steps, thermal state and power. (R538) -/
  | pwStatus (mb : Fin 8)
  /-- PW_STATE_SET: Call 0x0B01 changes the module state through each intermediate state. (R516) -/
  | pwStateSet (mb : Fin 8)
  /-- PW_BUDGET_CONFIG: Call 0x0B02 sets the budget, keeping the mean power. (R538) -/
  | pwBudgetConfig (mb : Fin 8)
  /-- PW_THERMAL_CONFIG: Call 0x0B03 sets derating parameters. (R532) -/
  | pwThermalConfig (mb : Fin 8)
  /-- PW_THERMAL_READ: Call 0x0B04 returns the 24 sensor readings. (R538) -/
  | pwThermalRead (mb : Fin 8)
  /-- PW_WAKE_SET: Call 0x0B05 sets a wake timer's target and tick. (R521) -/
  | pwWakeSet (mb : Fin 8)
  /-- PW_WAKE_CLEAR: Call 0x0B06 clears wake timers. (R538) -/
  | pwWakeClear (mb : Fin 8)
  /-- PW_AUTO_CONFIG: Call 0x0B07 sets AUTO parameters. (R522) -/
  | pwAutoConfig (mb : Fin 8)
  /-- PW_DOMAIN_READ: Call 0x0B08 returns the condition of power domains. (R513) -/
  | pwDomainRead (mb : Fin 8)
  /-- PW_STATS: Call 0x0B09 returns and optionally clears power statistics. (R538) -/
  | pwStats (mb : Fin 8)
  /-- SC_PASS_START: The sequence gap ends and the next regular pass starts. (R550) -/
  | scPassStart
  /-- SC_CONVERSION_DONE: A conversion completes and its result record is stored, with limits checked. (R548) -/
  | scConversionDone (r : Conversion)
  /-- SC_SAFETY_INJECT_REQUEST: A safety-partition injected request starts at once, abandoning other work. (R551) -/
  | scSafetyInjectRequest
  /-- SC_CAL_STEP_DONE: A calibration step for one gain ends and the next step or waiting injections follow. (R552) -/
  | scCalStepDone (offsetNv : Int) (gainPpm : Int) (exc0 : Nat) (exc1 : Nat)
  /-- SC_AUTO_CAL_DUE: CAL_PERIOD passes or MC_21 moves over 5 K, scheduling calibration in the sequence gap. (R552) -/
  | scAutoCalDue
  /-- SC_PIN_BREAK: A pin outside the window for 8 modulator clocks sets BREAK and raises EV_512. (R558) -/
  | scPinBreak (ch : Nat) (pin : Nat) (clocks : Nat)
  /-- SC_EXC_MONITOR_DONE: An excitation-monitor check classifies an RTD channel. (R559) -/
  | scExcMonitorDone (m : ExcMonitor)
  /-- SC_STATUS: Call 0x0C00 returns converter activity, breaks and faults. (R566) -/
  | scStatus (mb : Fin 8)
  /-- SC_CHANNEL_CONFIG: Call 0x0C01 configures a measurement channel. (R547) -/
  | scChannelConfig (mb : Fin 8)
  /-- SC_CHANNEL_READ: Call 0x0C02 returns a channel configuration. (R566) -/
  | scChannelRead (mb : Fin 8)
  /-- SC_SEQUENCE_SET: Call 0x0C03 sets the regular sequence for the next pass. (R550) -/
  | scSequenceSet (mb : Fin 8)
  /-- SC_RESULT_READ: Call 0x0C04 returns latest result records. (R548) -/
  | scResultRead (mb : Fin 8)
  /-- SC_INJECT: Call 0x0C05 queues a host injected conversion. (R551) -/
  | scInject (mb : Fin 8)
  /-- SC_INJECT_READ: Call 0x0C06 returns an injected request's state and result. (R567) -/
  | scInjectRead (mb : Fin 8)
  /-- SC_CALIBRATE: Call 0x0C07 starts or defers a calibration job for named gains. (R553) -/
  | scCalibrate (mb : Fin 8)
  /-- SC_DIAG_RUN: Call 0x0C08 starts excitation-monitor checks on named channels. (R560) -/
  | scDiagRun (mb : Fin 8)
  /-- SC_CHANNEL_STATUS: Call 0x0C09 returns a channel's break, monitor class and lead resistance. (R559) -/
  | scChannelStatus (mb : Fin 8)
  /-- SC_STATS: Call 0x0C0A returns and optionally clears slow-control statistics. (R566) -/
  | scStats (mb : Fin 8)
  /-- LD_PRE_WAKE: Before a flash the scheduler wakes PD_33 and checks the outputs. (R582) -/
  | ldPreWake
  /-- LAMP_SHIFT_START: The chain shift starts at the latest instant that ends 1 us before the flash. (R582) -/
  | lampShiftStart (chain : Fin 4)
  /-- FLASH_INSTANT: At the flash instant sinks switch on, chains get LATCH and a flash window opens. (R581) -/
  | flashInstant
  /-- LED_DIAG_SAMPLE: 400 ns into a pulse of at least 500 ns the sink samples current and pin voltage for diagnosis. (R587) -/
  | ledDiagSample (k : Fin 4) (current : Nat) (pinMv : Nat)
  /-- LED_PULSE_END: WIDTH after switch-on the sink switches off. (R577) -/
  | ledPulseEnd (k : Fin 4)
  /-- FLASH_WINDOW_END: CAL_WIN ticks after the flash the window closes. (R585) -/
  | flashWindowEnd
  /-- LD_IDLE_GATE: 1 ms after the last flash PD_33 is gated again. (R582) -/
  | ldIdleGate
  /-- LAMP_CAPTURE_CYCLE: Every second a capture cycle reads each READY chain's status words. (R576) -/
  | lampCaptureCycle (chain : Fin 4) (words : List Word)
  /-- LED_TEMP_UPDATE: Every 100 ms each sink reads its temperature and applies derating or fallback. (R578) -/
  | ledTempUpdate
  /-- PROOF_PULSE_DUE: PROOF_PERIOD passes and a proof pulse becomes due. (R589) -/
  | proofPulseDue (e : Nat)
  /-- PROOF_PULSE: A due proof pulse runs once gating conditions allow and its diagnosis is stored. (R589) -/
  | proofPulse (e : Nat) (current : Nat) (pinMv : Nat) (words : List Word)
  /-- DIAG_AGE_EXPIRY: DIAG_AGE passes without diagnosis and the status returns to NOT_DIAGNOSED with EV_532. (R588) -/
  | diagAgeExpiry (e : Nat)
  /-- LD_LINE_READBACK_FAULT: A chain output disagreeing for 100 us goes high-impedance and the chain FAULT. (R594) -/
  | ldLineReadbackFault (chain : Fin 4)
  /-- LD_STATUS: Call 0x0D00 returns chain states and schedule state. (R596) -/
  | ldStatus (mb : Fin 8)
  /-- LD_CHAIN_DISCOVER: Call 0x0D01 starts chain discovery. (R575) -/
  | ldChainDiscover (mb : Fin 8)
  /-- LD_CHAIN_READ: Call 0x0D02 returns a chain's status words. (R596) -/
  | ldChainRead (mb : Fin 8)
  /-- LD_EMITTER_CONFIG: Call 0x0D03 configures an emitter. (R596) -/
  | ldEmitterConfig (mb : Fin 8)
  /-- LD_EMITTER_READ: Call 0x0D04 returns an emitter's configuration and loop state. (R596) -/
  | ldEmitterRead (mb : Fin 8)
  /-- LD_SCHEDULE: Call 0x0D05 sets a flash schedule entry. (R584) -/
  | ldSchedule (mb : Fin 8)
  /-- LD_CANCEL: Call 0x0D06 cancels schedule entries. (R596) -/
  | ldCancel (mb : Fin 8)
  /-- LD_SCHEDULE_READ: Call 0x0D07 returns a schedule entry with counts. (R596) -/
  | ldScheduleRead (mb : Fin 8)
  /-- LD_DIAG_READ: Call 0x0D08 returns emitter diagnosis status. (R588) -/
  | ldDiagRead (mb : Fin 8)
  /-- LD_PROOF_RUN: Call 0x0D09 requests a proof pulse as a job. (R589) -/
  | ldProofRun (mb : Fin 8)
  /-- LD_SINK_CONFIG: Call 0x0D0A sets a sink's temperature derating. (R578) -/
  | ldSinkConfig (mb : Fin 8)
  /-- LD_STATS: Call 0x0D0B returns and optionally clears emitter statistics. (R596) -/
  | ldStats (mb : Fin 8)
  /-- SF_LOGIC_CYCLE: Each 1 kHz partition cycle votes the three lanes, samples inputs and updates outputs and mirror. (R600) -/
  | sfLogicCycle (disagree : List (Fin 3))
  /-- ILK_CHANNEL_CHANGE: An interlock channel changes state after three agreeing samples, possibly tripping functions. (R608) -/
  | ilkChannelChange (n : Fin 4) (chB : Bool) (samples : List Nat)
  /-- ILK_DISCREPANCY_TIMEOUT: The other channel does not follow within the discrepancy time; the fault latches with EV_578. (R609) -/
  | ilkDiscrepancyTimeout (n : Fin 4)
  /-- SEAL_REREAD: Every 100 ms the seal pairs are reread and a change enters LOCKOUT. (R606) -/
  | sealReread (seals : BitVec 12)
  /-- SO_READBACK: Every 1 ms safe outputs are read back; open loads, shorts or contradictions are output faults. (R612) -/
  | soReadback (rb : List SoReadback)
  /-- SO_DARK_TEST: Every 60 minutes each switch of an on output is briefly opened and checked. (R613) -/
  | soDarkTest (n : Fin 2) (r : DarkReadings)
  /-- SF_COMMAND_RX: A safety COMMAND frame is checked, accepted or rejected, and answered with STATUS. (R625) -/
  | sfCommandRx (payload : List Byte)
  /-- SF_CONN_EXPIRY: No accepted COMMAND within WATCHDOG expires the connection, raising EV_585. (R625) -/
  | sfConnExpiry
  /-- SF_HVMON_POLL: Every 10 ms with trip on and HV ON the partition requests an MC_24 injected conversion. (R620) -/
  | sfHvmonPoll
  /-- SF_STATUS: Call 0x0E00 returns the safety mirror words. (R631) -/
  | sfStatus (mb : Fin 8)
  /-- SF_HV_REQUEST: Call 0x0E01 sets or clears the host HV request. (R618) -/
  | sfHvRequest (mb : Fin 8)
  /-- SF_RESET: Call 0x0E02 requests a reset, refused while a cause is present except as R628 allows. (R618) -/
  | sfReset (mb : Fin 8)
  /-- SF_SHUTTER_REQUEST: Call 0x0E03 sets or withdraws the host shutter close request. (R617) -/
  | sfShutterRequest (mb : Fin 8)
  /-- SF_DARK_TEST: Call 0x0E04 runs a dark test at once on each output that is on. (R613) -/
  | sfDarkTest (mb : Fin 8)
  /-- SF_TRIP_LOG: Call 0x0E05 returns a trip log entry. (R631) -/
  | sfTripLog (mb : Fin 8)
  /-- SF_STATS: Call 0x0E06 returns and optionally clears safety statistics. (R632) -/
  | sfStats (mb : Fin 8)
  /-- XLINK_HEARTBEAT_SEND: Every 20 us each cox sends a heartbeat with its half state. (R635) -/
  | xlinkHeartbeatSend (h : Half)
  /-- XLINK_HEARTBEAT_RX: A heartbeat is received; three with lock restore the crosslink. (R635) -/
  | xlinkHeartbeatRx (h : Half) (lock : Bool)
  /-- XLINK_HEARTBEAT_TIMEOUT: Three missed heartbeats or lost lock declare the crosslink lost with EV_592. (R635) -/
  | xlinkHeartbeatTimeout (h : Half) (lock : Bool)
  /-- ARB_POLL: Every 20 us the arbiter polls each half and judges failure from answers and misses. (R637) -/
  | arbPoll (h : Half) (reaches : Bool)
  /-- ARB_POLL_ANSWER: A half answers a poll with its state, heartbeat view and self-declared failure. (R636) -/
  | arbPollAnswer (h : Half) (failed : Bool)
  /-- ARB_LOST_TIMEOUT: A half with no poll for 60 us sets ARB_LOST and raises EV_595. (R639) -/
  | arbLostTimeout (h : Half)
  /-- TAKEOVER_COMPLETE: Engines are reassigned, loss records written, the lead moved if needed and service resumes. (R645) -/
  | takeoverComplete
  /-- ARB_GNT_CHANGE: An external arbiter grant changes, causing a takeover or EV_602. (R641) -/
  | arbGntChange (gntS : Bool) (gntB : Bool)
  /-- REJOIN_TICK: At the rejoin tick the arbiter returns the rejoined half's resources. (R648) -/
  | rejoinTick
  /-- ALARM_PENDING_COMMIT: 100 us after the previous alarm of a source its pending folded alarm is committed. (R658) -/
  | alarmPendingCommit (src : Nat)
  /-- ALARM_HELD_RELEASE: When TC0 source-queue space returns, held alarms are committed with HELD. (R658) -/
  | alarmHeldRelease
  /-- INCIDENT_CALM_EXPIRY: INCIDENT_CALM passes with no alarm pending or queued, and a SUMMARY is committed. (R661) -/
  | incidentCalmExpiry
  /-- RED_STATUS: Call 0x0F00 returns CLAIMS and redundancy counts. (R667) -/
  | redStatus (mb : Fin 8)
  /-- RED_CLAIM_READ: Call 0x0F01 returns the claim numbers of every resource. (R667) -/
  | redClaimRead (mb : Fin 8)
  /-- RED_REJOIN: Call 0x0F02 starts a job bringing a FAILED half back. (R648) -/
  | redRejoin (mb : Fin 8)
  /-- EVT_READ: Call 0x0F03 returns class, flags, count and latest tick of sources. (R667) -/
  | evtRead (mb : Fin 8)
  /-- EVT_CLEAR: Call 0x0F04 clears sticky bits and/or counts of sources. (R654) -/
  | evtClear (mb : Fin 8)
  /-- EVT_CONFIG: Call 0x0F05 sets a source's class, IRQ flag and enable. (R655) -/
  | evtConfig (mb : Fin 8)
  /-- EVT_SUMMARY: Call 0x0F06 returns the summary of the open or last incident. (R661) -/
  | evtSummary (mb : Fin 8)
  /-- FLOG_READ: Call 0x0F07 returns fault-log records. (R663) -/
  | flogRead (mb : Fin 8)
  /-- FLOG_CLEAR: Call 0x0F08 clears the fault log. (R663) -/
  | flogClear (mb : Fin 8)
  /-- FLOG_MIRROR: Call 0x0F09 starts a job copying the fault log to flash. (R664) -/
  | flogMirror (mb : Fin 8)
  /-- FLOG_MIRROR_READ: Call 0x0F0A returns records of a flash mirror. (R664) -/
  | flogMirrorRead (mb : Fin 8)
  /-- EVT_STATS: Call 0x0F0B returns and optionally clears event statistics. (R667) -/
  | evtStats (mb : Fin 8)
  /-- EVT_TRACE_CONFIG: Call 0x0F0C sets the trace-point mask. (R660) -/
  | evtTraceConfig (mb : Fin 8)
  /-- POWER_STATE_CHANGE_DONE: A change between EASY, PADDLE and DRIVE completes, POWER_STATE updates, EV_032 is raised and the waiting PW_STATE_SET is answered. (R515) -/
  | powerStateChangeDone
  /-- MEM_LAYER_IDLE_SELF_REFRESH: In EASY the memory layer returns to self-refresh after 1 ms without a spill or refill. (R513) -/
  | memLayerIdleSelfRefresh
  /-- CLUSTER_ENGINE_IDLE_GATE: In EASY the cluster engines of a half are gated after 1 ms idle. (R513) -/
  | clusterEngineIdleGate (h : Half)
  /-- WE_PATROL_SCRUB: The waveform-core patrol scrub visits a memory word on an idle port cycle, writing back corrections with EV_261 or poisoning with EV_262. (R305) -/
  | wePatrolScrub (core : Fin 4) (space : Nat) (word : Nat) (syndrome : BitVec 16) (ups : List (Nat × Nat))
  /-- CX_STALLED: A compression unit that has had no free buffer for 100 us raises EV_389. (R407) -/
  | cxStalled (unit : Fin 2)
  /-- SC_INJECTED_CONVERSION_START: At the next output-period boundary a queued host injected conversion starts and the regular conversion in progress is abandoned. (R551) -/
  | scInjectedConversionStart
  /-- COX_FIRMWARE_RELOADED: A cox restarted by SYS_RESET kind 1 or 2 has its firmware running again and its half leaves the restarting condition. (R64) -/
  | coxFirmwareReloaded (h : Half)
  /-- PRBS_CHECKER_LOCK: The PRBS checker locks after 1,024 consecutive error-free bits and starts counting. (R460) -/
  | prbsCheckerLock (lane : Fin 16) (rx : BitVec 1024)
  /-- PRBS_LOCK_LOST: The PRBS checker loses lock when 256 or more of 1,024 bits are in error and EV_409 is raised. (R460) -/
  | prbsLockLost (lane : Fin 16) (errors : Nat) (bad : BitVec 1024)
  /-- OCXO_RDY_RISE: The filtered OCXO_RDY rises, setting the OCXO_RDY bit and starting the WARM_HOLD interval. (R482) -/
  | ocxoRdyRise
  /-- WAKE_HALF_ANSWER_TIMEOUT: At a wake from HOLD a half that does not answer polls within 50 ms is handled as at boot. (R650) -/
  | wakeHalfAnswerTimeout (h : Half)
  /-- WAKE_PWR_GOOD_TIMEOUT: PWR_GOOD not high 2 ms after the wake enables rise makes R677 apply. (R678) -/
  | wakePwrGoodTimeout (pmic : Option (List Byte))
  /-- ARBITER_TMR_VOTE: Every 100 ns the arbiter state and claim numbers are voted, reloading a minority copy with EV_603 or freezing claims with EV_604. (R652) -/
  | arbiterTmrVote (disagree : List (Fin 3))
  /-- EVENT_STATE_TMR_VOTE: Every 1 ms the event sticky bits, counts and fault-log pointers are voted, reloading with EV_603 or taking the median with EV_604. (R652) -/
  | eventStateTmrVote (upset : List EventUpset)
  deriving DecidableEq, Repr

end Sys2Proof
end

