-- ==== Sys2Proof/Decode.lean ====
section
/-! DEFINITION. The decoder over table words. No row of spec/opcode_table.json gives bits (98_reader.md: all 492 rows
unread), so no word spells a command. -/
namespace Sys2Proof

/-- The command a table word spells: none, since no row gives bits. -/
def decodeTableWord (_nbits _w : Nat) : Option Instr := none

end Sys2Proof
end

