-- ==== Sys2Proof/Config.lean ====
section
/-! DEFINITION. What the spec leaves open: free values, as constants without a body, so that no proof
can rest on a value of them; and the constants the module's rules fix. -/
namespace Sys2Proof

/-- Free Boolean number `n`: what the spec leaves open between two outcomes, as whether a read inside the latency of a
pending write of a waveform core sees the old or the new value (R317; log 23 names each). `n` is the free-value counter of
State. -/
opaque Config.freeBool : Nat → Bool

/-- Free number `n`: a value the spec leaves open or does not state although the module goes on, reduced where it is used
into the range a rule gives it (log 23 names each). -/
opaque Config.freeNat : Nat → Nat

/-- The fit of an error function to the fraction of pulses that fired (R115): from the points, each an amplitude in 0.001 e-
and the pulses that fired, and the pulses of a point, the 50 % point in e- and sigma in 0.1 e-. The spec names the fit and
not its arithmetic. -/
opaque Config.erfFit : List (Nat × Nat) → Nat → Nat × Nat

/-- Sigma in 0.1 e- of the bump test's S-curve (R116): from the pixel's threshold in e- and the per cent fired at each
point. -/
opaque Config.bumpSigma : Int → List Nat → Nat

end Sys2Proof
end

