-- ==== Sys2Proof/Machine/Data.lean ====
section
/-! DEFINITION. The plain data operations every chapter uses: tables in one canonical form, byte
strings, bit fields, saturating counts, rounding, and the check codes CRC-32C, CRC-32, CRC-16 and CRC-8. -/
namespace Sys2Proof.Machine

/-- Sparse data by number: strictly rising keys, and no entry that holds the default. -/
abbrev Table (α : Type) := List (Nat × α)

/-- The entry of a table, or the default. -/
def tget {α : Type} (d : α) : Table α → Nat → α
  | [], _ => d
  | (k, v) :: r, i => if i = k then v else if i < k then d else tget d r i

/-- A table with one entry replaced; an entry equal to the default is left out. -/
def tput {α : Type} [DecidableEq α] (d : α) (i : Nat) (v : α) : Table α → Table α
  | [] => if v = d then [] else [(i, v)]
  | (k, w) :: r =>
    if i = k then (if v = d then r else (i, v) :: r)
    else if i < k then (if v = d then (k, w) :: r else (i, v) :: (k, w) :: r)
    else (k, w) :: tput d i v r

/-- A table with a function applied to one entry. -/
def tmod {α : Type} [DecidableEq α] (d : α) (i : Nat) (f : α → α) (t : Table α) : Table α :=
  tput d i (f (tget d t i)) t

/-- A table with a function applied to every entry listed; an entry that becomes the default is left out. -/
def tmap {α β : Type} [DecidableEq β] (d : β) (f : α → β) (t : Table α) : Table β :=
  (t.map (fun e => (e.1, f e.2))).filter (fun e => decide (e.2 ≠ d))

/-- Consecutive entries from `i` get the values of a list. -/
def tfill {α : Type} [DecidableEq α] (d : α) (i : Nat) : List α → Table α → Table α
  | [], t => t
  | v :: vs, t => tfill d (i + 1) vs (tput d i v t)

/-- `n` consecutive entries from `i`. -/
def tslice {α : Type} (d : α) (t : Table α) (i : Nat) : Nat → List α
  | 0 => []
  | n + 1 => tget d t i :: tslice d t (i + 1) n

/-- The canonical form of a table: keys strictly rising from `lo`, no entry equal to the default. -/
def twf {α : Type} [DecidableEq α] (d : α) : Nat → Table α → Bool
  | _, [] => true
  | lo, (k, v) :: r => decide (lo ≤ k) && decide (v ≠ d) && twf d (k + 1) r

/-- One value for each half. -/
structure Two (α : Type) where
  /-- the stroke side's -/
  s : α
  /-- the bow side's -/
  b : α
  deriving DecidableEq, Repr

/-- The value of a half. -/
def twoGet {α : Type} (t : Two α) : Half → α
  | .s => t.s
  | .b => t.b

/-- The value of a half replaced. -/
def twoPut {α : Type} (t : Two α) (h : Half) (v : α) : Two α :=
  match h with
  | .s => { t with s := v }
  | .b => { t with b := v }

/-- The byte at an index of a byte string, zero past its end. -/
def byteAt (bs : List Byte) (i : Nat) : Nat := (bs.getD i 0).toNat

/-- The unsigned little-endian value of `n` bytes at an index. -/
def uAt (n : Nat) (bs : List Byte) (i : Nat) : Nat := leNat ((bs.drop i).take n)

/-- A 16-bit value at an index. -/
def u16At (bs : List Byte) (i : Nat) : Nat := uAt 2 bs i

/-- A 32-bit value at an index. -/
def u32At (bs : List Byte) (i : Nat) : Nat := uAt 4 bs i

/-- The two's complement reading of an unsigned value of `w` bits. -/
def signed (w : Nat) (v : Nat) : Int := if v < 2 ^ (w - 1) then (v : Int) else (v : Int) - (2 ^ w : Nat)

/-- The two's complement code of `w` bits of a number. -/
def unsigned (w : Nat) (v : Int) : Nat := (v % (2 ^ w : Nat)).toNat

/-- A signed 16-bit value at an index. -/
def i16At (bs : List Byte) (i : Nat) : Int := signed 16 (u16At bs i)

/-- A signed 32-bit value at an index. -/
def i32At (bs : List Byte) (i : Nat) : Int := signed 32 (u32At bs i)

/-- `n` bytes at an index. -/
def bytesAt (bs : List Byte) (i n : Nat) : List Byte := (bs.drop i).take n

/-- A byte string with the bytes from an index replaced. -/
def bytesPut (bs : List Byte) (i : Nat) (new : List Byte) : List Byte :=
  bs.take i ++ new ++ bs.drop (i + new.length)

/-- A byte string cut or padded with zeros to a length. -/
def padTo (n : Nat) (bs : List Byte) : List Byte := bs.take n ++ List.replicate (n - bs.length) 0

/-- The text of an ASCII string as bytes. -/
def ascii (cs : List Char) : List Byte := cs.map (fun c => BitVec.ofNat 8 c.toNat)

/-- Bit `i` of a number. -/
def bit (v i : Nat) : Bool := (v / 2 ^ i) % 2 = 1

/-- The field [hi:lo] of a number. -/
def field (v hi lo : Nat) : Nat := (v / 2 ^ lo) % 2 ^ (hi + 1 - lo)

/-- The numbers below `n` whose bit is set in a mask. -/
def maskList (n m : Nat) : List Nat := (List.range n).filter (fun i => bit m i)

/-- The mask of the numbers below `n` that satisfy a test. -/
def maskOf (n : Nat) (p : Nat → Bool) : Nat :=
  (List.range n).foldr (fun i a => a + (if p i then 2 ^ i else 0)) 0

/-- A count that stops at its largest value. -/
def satAdd (max a b : Nat) : Nat := min max (a + b)

/-- The largest value of a 32-bit statistic. -/
def stat32 : Nat := 0xFFFFFFFF

/-- A statistic plus an amount, and whether it has reached its largest value (saturation, R298). -/
def statAdd (a b : Nat) : Nat := satAdd stat32 a b

/-- A number held between two limits. -/
def clampInt (lo hi x : Int) : Int := max lo (min hi x)

/-- A number held between two limits. -/
def clampNat (lo hi x : Nat) : Nat := max lo (min hi x)

/-- Division rounded to the nearest integer, halves up. -/
def divRound (a : Int) (b : Nat) : Int := Int.fdiv (2 * a + b) (2 * b)

/-- Division of numbers rounded to the nearest, halves up. -/
def divRoundNat (a b : Nat) : Nat := (2 * a + b) / (2 * b)

/-- Division rounded up. -/
def divUp (a b : Nat) : Nat := (a + b - 1) / b

/-- The integer part of the square root, by bisection on the bits from `n` down. -/
def sqrtBits (v : Nat) : Nat → Nat → Nat
  | 0, r => r
  | n + 1, r => let t := r + 2 ^ n; sqrtBits v n (if t * t ≤ v then t else r)

/-- The difference of two stamps as signed 64-bit ticks. -/
def stampDiff (a b : Stamp) : Int := (a - b).toInt

/-- How far a stamp lies after another, by their combined values epoch × 2^48 + tick (R497). -/
def tickAfter (a b : Stamp) : Int := (a.toNat : Int) - (b.toNat : Int)

/-- The epoch of a stamp. -/
def epochOf (t : Stamp) : Nat := t.toNat / 2 ^ 48

/-- The tick of a stamp. -/
def tickOf (t : Stamp) : Nat := t.toNat % 2 ^ 48

/-- A stamp from an epoch and a tick. -/
def mkStamp (epoch tick : Nat) : Stamp := BitVec.ofNat 64 (epoch * 2 ^ 48 + tick % 2 ^ 48)

/-- A stamp as the eight bytes u16 epoch, u48 tick (R58, R657). -/
def stampBytes (t : Stamp) : List Byte := leBytes 2 (epochOf t) ++ leBytes 6 (tickOf t)

/-- The stamp at an index of a byte string, u16 epoch then u48 tick. -/
def stampAt (bs : List Byte) (i : Nat) : Stamp := mkStamp (u16At bs i) (uAt 6 bs (i + 2))

/-- One bit of a reflected CRC register. -/
def crcShift (poly : Nat) : Nat → Nat → Nat
  | 0, c => c
  | n + 1, c => crcShift poly n (if c % 2 = 1 then (c / 2) ^^^ poly else c / 2)

/-- A reflected CRC over bytes, lowest bit first. -/
def crcRefl (poly : Nat) (c : Nat) (bs : List Byte) : Nat :=
  bs.foldl (fun c b => crcShift poly 8 (c ^^^ b.toNat)) c

/-- CRC-32C (Castagnoli): polynomial 0x1EDC6F41 reflected, start and end all ones (PRESUMED, log 3). -/
def crc32c (bs : List Byte) : Nat := (crcRefl 0x82F63B78 0xFFFFFFFF bs) ^^^ 0xFFFFFFFF

/-- One bit of a CRC register shifted left, of `w` bits. -/
def crcLeft (w poly : Nat) : Nat → Nat → Nat
  | 0, c => c
  | n + 1, c => crcLeft w poly n
      (if bit c (w - 1) then ((c * 2) % 2 ^ w) ^^^ poly else (c * 2) % 2 ^ w)

/-- A CRC of `w` bits over bytes, highest bit first. -/
def crcMsb (w poly init : Nat) (bs : List Byte) : Nat :=
  bs.foldl (fun c b => crcLeft w poly 8 (c ^^^ (b.toNat * 2 ^ (w - 8)))) init

end Sys2Proof.Machine
end

