-- ==== Sys2Proof/Machine/EventMap.lean ====
section
/-! DEFINITION. Which event sources are defined, and their default delivery (R653, R655 and the event tables
of the chapters). -/
namespace Sys2Proof.Machine

/-- The ranges of defined sources, first and last, from the chapters' event tables. -/
def sourceRanges : List (Nat × Nat) :=
  [(0, 6), (8, 22), (24, 25), (32, 43), (45, 45), (64, 75), (128, 140), (192, 205), (208, 222), (256, 271),
   (320, 339), (341, 342), (384, 398), (400, 418), (448, 451), (453, 453), (455, 471), (512, 523), (528, 541),
   (576, 590), (592, 613)]

/-- A source is defined by some chapter (R653). -/
def isDefined (n : Nat) : Bool := sourceRanges.any (fun r => decide (r.1 ≤ n) && decide (n ≤ r.2))

/-- One bit for every defined source (R654). -/
def definedSources : BitVec 640 :=
  BitVec.ofNat 640 (sourceRanges.foldl (fun a r => a + (2 ^ (r.2 + 1) - 2 ^ r.1)) 0)

/-- Sources whose default is ALARM with the IRQ flag set (R655). -/
def alarmDefaults : List Nat :=
  [3, 19, 41, 66, 209, 258, 322, 325, 327, 329, 395, 402, 403, 449, 512, 514, 515, 541, 576, 577, 578, 579, 580,
   581, 582, 585, 588, 589, 592, 594, 595, 596, 598, 599, 602, 604]

/-- Sources whose default is SILENT (R655). -/
def silentDefaults : List Nat := [8, 9, 10, 11, 12, 13, 14, 15, 65, 328, 330, 338, 448, 606, 607]

/-- The default class of a source: 0 SILENT, 1 LOG, 2 ALARM (R655). -/
def defaultClass (n : Nat) : Nat :=
  if alarmDefaults.contains n then 2 else if silentDefaults.contains n then 0 else 1

end Sys2Proof.Machine
end

