-- ==== Sys2Proof/Machine/State.lean ====
section
/-! DEFINITION. The state of the block: every register, memory, queue, counter, mode and pin the spec gives it,
chapter by chapter, as plain data, with the queue of commands that wait; the reasons a step can stop; and the
state at reset. Each field's comment gives what it is, its width, the file and rule that name it and its reset
value. -/
namespace Sys2Proof.Machine

/-- One 64-byte event record (R657); its bytes are formed when it is read. -/
structure EvRec where
  /-- TYPE: 1 EVENT, 2 TRACE, 3 SUMMARY, 4 CLAIM -/
  type : Nat := 1
  /-- FLAGS: bit 0 COALESCED, bit 1 HELD, bit 2 UNSYNC -/
  flags : BitVec 8 := 0
  /-- SOURCE -/
  source : Nat := 0
  /-- REPEAT -/
  repeats : Nat := 1
  /-- COUNT -/
  count : Nat := 0
  /-- EPOCH and TICK -/
  stamp : Stamp := 0
  /-- LAST_DELTA -/
  lastDelta : Nat := 0
  /-- DROPPED -/
  dropped : Nat := 0
  /-- INCIDENT -/
  incident : Nat := 0
  /-- ORIGIN -/
  origin : Nat := 2
  /-- ARG -/
  arg : List Byte := []
  deriving DecidableEq, Repr

/-- A message in the TC0 source queue (R30, R32). -/
structure Tc0Msg where
  /-- stream of R442 -/
  stream : Nat
  /-- KIND of R442 -/
  kind : Nat
  /-- payload bytes; an alarm's are formed from `alarm` -/
  payload : List Byte
  /-- the record of an alarm message -/
  alarm : Option EvRec := none
  /-- the lane group a control answer is bound to (R446), else none -/
  group : Option Nat := none
  deriving DecidableEq, Repr

/-- An alarm of one source waiting for its commit (R658). -/
structure PendingAlarm where
  /-- raises folded into it -/
  raises : Nat
  /-- stamp of the earliest folded raise -/
  first : Stamp
  /-- stamp of the latest folded raise -/
  last : Stamp
  /-- argument of the latest raise -/
  arg : List Byte
  /-- it waited for TC0 source-queue space -/
  held : Bool
  /-- UNSYNC at the earliest raise -/
  unsync : Bool
  /-- ORIGIN -/
  origin : Nat
  deriving DecidableEq, Repr

/-- An incident: the summary so far (R661, R662). -/
structure Incident where
  /-- an incident is open -/
  isOpen : Bool := false
  /-- incident number; 0 before the first -/
  number : Nat := 0
  /-- first source -/
  source : Nat := 0
  /-- stamp of the first raise -/
  first : Stamp := 0
  /-- stamp of the last ALARM raise -/
  last : Stamp := 0
  /-- moment of the last ALARM raise, in 25 ns units -/
  lastUp : Nat := 0
  /-- raises of all sources -/
  raises : Nat := 0
  /-- alarm messages committed -/
  alarms : Nat := 0
  /-- raises folded into alarms -/
  folded : Nat := 0
  /-- TC3 records coalesced -/
  coalesced : Nat := 0
  /-- TC3 records dropped -/
  dropped : Nat := 0
  /-- distinct sources raised -/
  sources : List Nat := []
  deriving DecidableEq, Repr

/-- The event map, the trouble record and the queues that carry them (chapter 16, R653 to R663; R32). -/
structure EvState where
  /-- EVENT_STICKY_0 to 19: sticky bit of each source | 640 | 16 R653, R654 | 0 (R654) -/
  sticky : BitVec 640 := 0
  /-- EVENT_EN_0 to 19: enable of each source; bits of reserved sources are 0 | 640 | 16 R653, R654 | 1 for every defined source (R654) -/
  en : BitVec 640 := definedSources
  /-- class and IRQ flag of each source that the host has set; else the default of R655 | 2+1 a source | 16 R655 | none: default (R655, R666) -/
  cfg : Table (Option (Nat × Bool)) := []
  /-- count of raises of each source, saturating at 0xFFFF | 16 a source | 16 R653 | 0 (R654) -/
  count : Table Nat := []
  /-- epoch and tick of each source's latest raise | 64 a source | 16 R653 | 0 (DESIGN CHOICE, log 4) -/
  last : Table Stamp := []
  /-- argument of each source's latest raise, at most 32 bytes | 256 a source | 16 R656 | empty (DESIGN CHOICE, log 4) -/
  arg : Table (List Byte) := []
  /-- moment of the last commit of each source's alarm, in 25 ns units, while the 100 us after it run | - | 16 R658 | none (DESIGN CHOICE, log 4) -/
  recent : Table (Option Nat) := []
  /-- alarms folded and pending, by source | - | 16 R658 | none (DESIGN CHOICE, log 4) -/
  pending : Table (Option PendingAlarm) := []
  /-- a hold of alarms for want of TC0 source-queue space has been reported | 1 | 16 R658 | 0 (DESIGN CHOICE, log 4) -/
  holdSeen : Bool := false
  /-- the TC0 source queue, oldest first, 64 messages | 64 messages | 01 R32 | empty (DESIGN CHOICE, log 4) -/
  tc0 : List Tc0Msg := []
  /-- TC0 messages committed in the last second, newest first: stamp, level of the token bucket of R30 in 1/40 message, messages then in the source queue | - | 10 R452, R474 | none (DESIGN CHOICE, log 4) -/
  tc0Load : List (Stamp × Nat × Nat) := []
  /-- the TC3 ring of unsent records, oldest first, 4,096 records | 256 KiB | 16 R660 | empty (DESIGN CHOICE, log 4) -/
  tc3 : List EvRec := []
  /-- TC3 records dropped since the last record sent, saturating | 32 | 16 R660 | 0 (DESIGN CHOICE, log 4) -/
  tc3Dropped : Nat := 0
  /-- the first 64 fault-log records since a clear | 64 records | 16 R663 | empty (R663: lost at power-on reset) -/
  flogFirst : List EvRec := []
  /-- the fault-log ring of 960 records, oldest first | 960 records | 16 R663 | empty (R663: lost at power-on reset) -/
  flogRing : List EvRec := []
  /-- place of the fault-log ring written next, 0 to 959 | 10 | 16 R652, R663 | 0 (R663: lost at power-on reset) -/
  flogPos : Nat := 0
  /-- the open incident, or the last closed one | - | 16 R661, R662 | none, number 0 (R661) -/
  incident : Incident := {}
  /-- EVT_STATS counts: raises, alarms committed, alarms folded, alarms held, TC3 sent, coalesced, dropped, trace refused, incidents | 9 x 32 | 16 R667 | 0 (DESIGN CHOICE, log 4) -/
  stats : Table Nat := []
  /-- EVT_STATS saturation bits | 32 | 16 R667 | 0 (DESIGN CHOICE, log 4) -/
  statSat : Nat := 0
  deriving DecidableEq, Repr

/-- POWER_STATE of SYS_STATE (R44). -/
inductive PowerState where
  | boot | hold | easy | paddle | drive
  deriving DecidableEq, Repr

/-- One mailbox MB_n (R48 to R51). -/
structure Mailbox where
  /-- the payload bytes that are not zero, by offset | 240 bytes | 02 R48 | 0 (DESIGN CHOICE, log 5) -/
  payload : Table Byte := []
  /-- REQ_LEN | 8 | 02 R48 | 0 -/
  reqLen : Nat := 0
  /-- REQ_SEQ | 16 | 02 R48 | 0 -/
  reqSeq : Nat := 0
  /-- RSP_LEN | 8 | 02 R48 | 0 -/
  rspLen : Nat := 0
  /-- RSP_SEQ | 16 | 02 R48 | 0 -/
  rspSeq : Nat := 0
  /-- CODE of STATUS | 8 | 02 R48 | 0 -/
  code : Nat := 0
  /-- DONE of STATUS | 1 | 02 R48 | 0 -/
  done : Bool := false
  /-- BUSY of STATUS, and RING of DOORBELL | 1 | 02 R48 | 0 -/
  busy : Bool := false
  /-- the request has been taken and its answer comes with a later event | 1 | 02 R49 | 0 (DESIGN CHOICE, log 5) -/
  taken : Bool := false
  deriving DecidableEq, Repr

/-- A job of the job table (R55, R698, R699). -/
structure Job where
  /-- job number, 1 to 0xFFFF -/
  num : Nat
  /-- call code that started it -/
  code : Nat
  /-- parameters of the call -/
  params : List Byte
  /-- 0 queued, 1 running, 2 done, 3 failed -/
  state : Nat
  /-- percentage -/
  percent : Nat := 0
  /-- status code -/
  status : Nat := 0
  /-- reason -/
  reason : Nat := 0
  /-- the half it runs on -/
  half : Half := .s
  /-- expected start of a DEFERRED job -/
  start : Stamp := 0
  deriving DecidableEq, Repr

/-- A boot record (R701). -/
structure BootRec where
  /-- STEP -/
  step : Nat
  /-- RESULT -/
  result : Nat
  /-- CS -/
  cs : Nat
  /-- SLOT -/
  slot : Nat
  /-- REASON -/
  reason : Nat
  /-- TIME in ms -/
  ms : Nat
  deriving DecidableEq, Repr

/-- One serial flash device, as the module knows and has written it (R65 to R72, R702). -/
structure FlashChip where
  /-- a valid SFDP answer was read | 1 | 02 R702 | 0 (DESIGN CHOICE, log 5) -/
  present : Bool := false
  /-- READ_MODE negotiated | 2 | 02 R702 | 0 (DESIGN CHOICE, log 5) -/
  mode : Nat := 0
  /-- negotiated read clock in MHz | 16 | 02 R702 | 0 (DESIGN CHOICE, log 5) -/
  clock : Nat := 0
  /-- device size in MiB from SFDP | 32 | 02 R702 | 0 (DESIGN CHOICE, log 5) -/
  density : Nat := 0
  /-- flash bytes by offset that are not 0xFF | 16 MiB | 02 R65 | erased, all 0xFF (DESIGN CHOICE, log 6) -/
  cells : Table Byte := []
  /-- slots that passed SYS_IMAGE_VERIFY or were saved, with no write since | 2 | 02 R62 | 0 (DESIGN CHOICE, log 5) -/
  verified : BitVec 2 := 0
  deriving DecidableEq, Repr

/-- The image that runs (R69, R73, R79). -/
structure RunningImage where
  /-- chip select it came from -/
  cs : Nat := 0
  /-- slot it came from -/
  slot : Nat := 0
  /-- RB_VERSION -/
  rbVersion : Nat := 0
  /-- KEY_SLOT -/
  keySlot : Nat := 0
  /-- SIGNED_LEN -/
  signedLen : Nat := 0
  /-- generation of the running settings block -/
  generation : Nat := 0
  deriving DecidableEq, Repr

/-- The host window, mailboxes, jobs, identity, boot and settings (chapter 02). -/
structure SysState where
  /-- POR_N is low | 1 | 02 R696, 17 R679 | 1 (power-on reset, DESIGN CHOICE, log 2) -/
  por : Bool := true
  /-- last boot step of R80 reached, 0 before step 1 | 4 | 02 R80 | 0 (R80) -/
  bootStep : Nat := 0
  /-- window ready: STATUS bit 0 of the sideband slave | 1 | 02 R696 | 0 (R696) -/
  windowReady : Bool := false
  /-- a word of the last WRITE was discarded: STATUS bit 2 | 1 | 02 R46, R695 | 0 (DESIGN CHOICE, log 5) -/
  discarded : Bool := false
  /-- bytes put on SB_SDO by the last transaction; none: high-impedance | - | 02 R46, R695, R696 | none (R696) -/
  sbOut : Option (List Byte) := none
  /-- BOOT_RESULT | 8 | 02 R43 | 0x01 (R43) -/
  bootResult : BitVec 8 := 0x01
  /-- READ_MODE of BOOT_STATUS | 2 | 02 R43 | 0 (R43) -/
  readMode : Nat := 0
  /-- CS of BOOT_STATUS | 1 | 02 R43 | 0 (R43) -/
  bootCs : Nat := 0
  /-- SLOT of BOOT_STATUS | 1 | 02 R43 | 0 (R43) -/
  bootSlot : Nat := 0
  /-- ATTEMPTS of BOOT_STATUS | 4 | 02 R43 | 0 (R43) -/
  attempts : Nat := 0
  /-- LEAD of BOOT_STATUS and SYS_STATE | 1 | 02 R43, R44 | S (R43) -/
  lead : Half := .s
  /-- POWER_STATE | 3 | 02 R44 | BOOT (R44) -/
  power : PowerState := .boot
  /-- BOOT_HOLD of SYS_STATE | 1 | 02 R44 | 0 (R44) -/
  bootHold : Bool := false
  /-- HALF_S_OK and HALF_B_OK | 2 | 02 R44 | 0 (R44) -/
  halfOk : Two Bool := ⟨false, false⟩
  /-- the boot stopped for want of a cox | 1 | 02 R85 | 0 (DESIGN CHOICE, log 5) -/
  noCox : Bool := false
  /-- each cox has sent ROM-ready | 2 | 02 R85 | 0 (DESIGN CHOICE, log 5) -/
  romReady : Two Bool := ⟨false, false⟩
  /-- each cox runs its firmware | 2 | 02 R64, R80 | 0 (R80) -/
  firmware : Two Bool := ⟨false, false⟩
  /-- each cox is restarting from its boot ROM by SYS_RESET or after a memory error | 2 | 02 R64 | 0 (DESIGN CHOICE, log 5) -/
  restarting : Two Bool := ⟨false, false⟩
  /-- the current boot is a warm one | 1 | 02 R700 | 0 (DESIGN CHOICE, log 5) -/
  warmBoot : Bool := false
  /-- chip selects negotiated in this boot | 2 | 02 R80 step 5 | 0 (DESIGN CHOICE, log 5) -/
  negotiated : BitVec 2 := 0
  /-- images tried in this boot: bit 2 cs + slot | 4 | 02 R80 step 6 | 0 (DESIGN CHOICE, log 5) -/
  tried : BitVec 4 := 0
  /-- an image has been accepted in this boot | 1 | 02 R80 step 7 | 0 (DESIGN CHOICE, log 5) -/
  imageOk : Bool := false
  /-- settings have been applied in this boot | 1 | 02 R80 step 8 | 0 (DESIGN CHOICE, log 5) -/
  settingsDone : Bool := false
  /-- memory training of this boot has ended | 1 | 02 R80 step 8 | 0 (DESIGN CHOICE, log 5) -/
  memTrained : Bool := false
  /-- moment of boot step 4, in 25 ns units | - | 02 R85 | 0 (DESIGN CHOICE, log 5) -/
  step4At : Nat := 0
  /-- moment at which each cox's restart began, in 25 ns units | 2 | 02 R64 | 0 (DESIGN CHOICE, log 5) -/
  restartAt : Two Nat := ⟨0, 0⟩
  /-- moment at which boot step 10 began, in 25 ns units | - | 02 R80 step 10 | 0 (DESIGN CHOICE, log 5) -/
  linkWaitAt : Nat := 0
  /-- the boot no longer waits for lanes | 1 | 02 R80 step 10 | 0 (DESIGN CHOICE, log 5) -/
  linkWaitOver : Bool := false
  /-- the settings block was bad: the boot ends with OK_DEFAULT_SETTINGS | 1 | 02 R77 | 0 (DESIGN CHOICE, log 5) -/
  settingsBad : Bool := false
  /-- PART_NUM | 32 | 02 R43 | 0x0000_1048 (R43) -/
  partNum : Word := 0x00001048
  /-- STEPPING, fused | 8 | 02 R43 | 0x42 (DESIGN CHOICE, log 7) -/
  stepping : Byte := 0x42
  /-- SCREEN, fused | 8 | 02 R43 | 0x53 (DESIGN CHOICE, log 7) -/
  screen : Byte := 0x53
  /-- ROM_VER, fixed | 8 | 02 R43 | 0 (DESIGN CHOICE, log 7) -/
  romVer : Byte := 0
  /-- SERIAL, fused | 64 | 02 R43 | 0 (DESIGN CHOICE, log 7) -/
  serial : BitVec 64 := 0
  /-- LC, fused | 4 | 02 R43 | 0b0111 FIELD (DESIGN CHOICE, log 7) -/
  lc : BitVec 4 := 0b0111
  /-- FW_VERSION | 32 | 02 R43 | 0 (R43) -/
  fwVersion : Word := 0
  /-- build identifier of the running image | 64 | 02 R60 | 0 (DESIGN CHOICE, log 7) -/
  buildId : BitVec 64 := 0
  /-- KEY_REVOKED, fused | 2 | 02 R43 | 0 (DESIGN CHOICE, log 7) -/
  keyRevoked : BitVec 2 := 0
  /-- RB_COUNT, fused | 7 | 02 R43 | 0 (DESIGN CHOICE, log 7) -/
  rbCount : Nat := 0
  /-- fused hash of each key slot, none where not fused | 2 x 256 | 02 R73, R90 | none (DESIGN CHOICE, log 7) -/
  keyHash : Table (Option (BitVec 256)) := []
  /-- BOOT_SEL sampled at power-on reset | 2 | 02 R43 | 0 (DESIGN CHOICE, log 7) -/
  bootSel : BitVec 2 := 0
  /-- TILE_ID sampled at power-on reset | 6 | 02 R43 | 0 (DESIGN CHOICE, log 7) -/
  tileId : BitVec 6 := 0
  /-- TEST_EN was high at power-on reset in MANUFACTURE or DEVELOP: production test mode | 1 | 02 R91 | 0 (DESIGN CHOICE, log 7) -/
  testMode : Bool := false
  /-- mailboxes MB_0 to MB_7 | 8 x 256 bytes | 02 R48 | all zero (R48) -/
  mb : Table Mailbox := []
  /-- waiting requests of MB_2 to MB_7, oldest first | - | 02 R54 | empty (DESIGN CHOICE, log 5) -/
  waitQ : List Nat := []
  /-- open jobs, oldest first, at most 8 | - | 02 R55, R698 | empty (R698) -/
  jobs : List Job := []
  /-- the last 16 jobs that ended, newest first | - | 02 R698 | empty (R698) -/
  ended : List Job := []
  /-- the next job number | 16 | 02 R698 | 1 (R698) -/
  nextJob : Nat := 1
  /-- boot report, at most 16 records | - | 02 R701 | empty (R701) -/
  report : List BootRec := []
  /-- time of the last POR_N release or warm reset, in 25 ns units | - | 02 R701 | 0 (DESIGN CHOICE, log 5) -/
  bootStart : Nat := 0
  /-- flash on chip select 0 | - | 02 R65 | erased (DESIGN CHOICE, log 6) -/
  cs0 : FlashChip := {}
  /-- flash on chip select 1 | - | 02 R65 | erased (DESIGN CHOICE, log 6) -/
  cs1 : FlashChip := {}
  /-- the running image | - | 02 R79 | none: zeros (DESIGN CHOICE, log 5) -/
  image : RunningImage := {}
  /-- allow list of the running image, tags | - | 02 R70, R77 | empty (DESIGN CHOICE, log 5) -/
  allow : List Nat := []
  /-- the inactive slot being written by SYS_IMAGE_BEGIN is open for data | 1 | 02 R61 | 0 (DESIGN CHOICE, log 5) -/
  imageOpen : Bool := false
  /-- running settings that differ from their default, by tag | - | 02 R75 to R78 | none: the defaults of each chapter's tag table -/
  cfg : Table (Option (List Byte)) := []
  deriving DecidableEq, Repr

/-- A HIT frame of a block port (R196, R197), with the tick of the rise that it belongs to (R203). -/
structure HitFrame where
  /-- BAND -/
  band : Nat
  /-- PROW -/
  prow : Nat
  /-- PCOL -/
  pcol : Nat
  /-- TICK_LO -/
  tickLo : Nat
  /-- TP -/
  tp : Bool
  /-- N -/
  n : Nat
  /-- RANGE -/
  range : Bool
  /-- RANGE_AMBIG -/
  ambig : Bool
  /-- BRIDGED -/
  bridged : Bool
  /-- DROOP_LOW -/
  droopLow : Bool
  /-- TOT -/
  tot : Nat
  /-- EXT: the extension follows -/
  ext : Bool
  /-- DM -/
  dm : Nat
  /-- DM_VALID -/
  dmValid : Bool
  /-- SW_TIME of the extension -/
  swTime : Nat
  /-- HAND -/
  hand : Bool
  /-- C -/
  c : Nat
  /-- NB -/
  nb : Nat
  /-- NSWP -/
  nswp : Nat
  /-- SW_CLK -/
  swClk : Bool
  /-- the hit was second in its super-pixel (R205) -/
  second : Bool
  /-- tick in which its discriminator rose -/
  rise : Stamp
  /-- its stop edge; for an untimed hit the first strobe edge after the rise -/
  stop : Stamp
  /-- band and DM of its block on that edge, once the reading has changed since -/
  seen : Option (Nat × Nat)
  /-- tick at which it entered the port buffer (R153) -/
  entered : Stamp
  deriving DecidableEq, Repr

/-- A frame waiting in a block's port buffer (R195, R202, R204). -/
inductive PortFrame where
  /-- a HIT frame -/
  | hit (h : HitFrame)
  /-- a CONTROL frame: its code, ARG and words 1 to 3 -/
  | control (code arg w1 w2 w3 : Nat)
  deriving DecidableEq, Repr

/-- How a pulse is timed (R205). -/
inductive Timing where
  | ring | second | untimed
  deriving DecidableEq, Repr

/-- A pixel's pulse in progress, or its dead time (R103, R142, R151, R159, R201). -/
structure Pulse where
  /-- its discriminator is high -/
  high : Bool
  /-- tick of the rise -/
  rise : Stamp
  /-- ps into that tick -/
  ps : Nat
  /-- stop edge (R151) -/
  stop : Stamp
  /-- timing -/
  timing : Timing
  /-- the block clock was not ready at the rise: ToT runs as a bridge (R159) -/
  bridged : Bool
  /-- N_HAND once the clock has become ready, and that edge -/
  hand : Option (Nat × Stamp)
  /-- the range has switched (R103) -/
  switched : Bool
  /-- SW_TIME or block-clock edges from the hand-off to the switch -/
  swTime : Nat
  /-- ring count at the switch / 128 of a bridged switch (R197 NSWP) -/
  nswp : Nat
  /-- half-picoseconds since the start of the rise tick at which the blank ends -/
  blankEnd : Nat
  /-- the blank is running (R104) -/
  blank : Bool
  /-- its range switched while it ran as a bridge: `nswp` holds the latched ring count (R161) -/
  swBridge : Bool
  /-- half-picoseconds since the start of the rise tick at which its block clock was gated (R158) -/
  gatedAt : Option Nat
  /-- its frame has been sent on saturation (R201), or it gives none (FRAME) -/
  sent : Bool
  /-- TP to be set (R245) -/
  tp : Bool
  /-- the ring's own period in 1/128 ps -/
  per : Nat
  /-- its discriminator has fallen: ps into a tick, and that tick -/
  fell : Option (Nat × Stamp)
  /-- band and DM of its block on its stop edge, once the reading has changed since (R163, R165) -/
  seen : Option (Nat × Nat)
  deriving DecidableEq, Repr

/-- A crab (R128 to R131, R146). -/
structure Crab where
  /-- pixel address -/
  pix : Nat
  /-- 0 NOISY, 1 STUCK -/
  reason : Nat
  /-- retests made -/
  retests : Nat := 0
  /-- stamp of its masking -/
  masked : Stamp := 0
  /-- moment of its masking, in 25 ns units -/
  since : Nat := 0
  /-- retest interval in s -/
  interval : Nat := 60
  /-- start of its retest window in 25 ns units, while it is unmasked for one -/
  test : Option Nat := none
  /-- hits in that window -/
  hits : Nat := 0
  /-- a STUCK condition in that window -/
  stuck : Bool := false
  deriving DecidableEq, Repr

/-- A FRAME bank read out and not yet assembled (R126, R243). -/
structure FrameBank where
  /-- tick at which the frame began -/
  start : Stamp
  /-- frame-boundary tick that ended it -/
  boundary : Stamp
  /-- bank 0 or 1 -/
  bank : Nat
  /-- block frame count -/
  count : Nat
  /-- counters that are not zero, by 64 PROW + PCOL -/
  counts : Table Nat
  /-- the frame that should be FRAME_END was misframed: the bank is discarded -/
  bad : Bool
  deriving DecidableEq, Repr

/-- The configuration registers of a block: the mode byte and the seven DACs (R100, R118, R134, R135). -/
structure FeConf where
  /-- mode byte -/
  mode : BitVec 8 := 0x30
  /-- DAC codes in DAC order: THR_GLOBAL, IPRE, IPRE_EASY, IDISC, IFB, LEAK_MAX, TP_AMP -/
  dacs : List Nat := [150, 100, 25, 20, 12, 16, 0]
  deriving DecidableEq, Repr

/-- A front-end block (R100, R118, R125, R134, R157, R202). -/
structure FeBlock where
  /-- the block's own registers: mode byte (RANGE_SW_EN, CRAB_EN, PADDLE_FULL, POL, MODE), THR_GLOBAL, IPRE, IPRE_EASY, IDISC, IFB, LEAK_MAX, TP_AMP | 8 + 10 + 4 x 8 + 2 x 6 - 8 + 12 | 03 R100, R118, R134 | 0x30; 150, 100, 25, 20, 12, 16, 0 (R100, R118, R143) -/
  conf : FeConf := {}
  /-- their golden copy in the SRAM of the half | as `conf` | 03 R135 | as `conf` (R100, R118, R143) -/
  gold : FeConf := {}
  /-- local tick counter minus the low 16 bits of the time core | 16 | 04 R149 | 0 (DESIGN CHOICE, log 11) -/
  counterOff : BitVec 16 := 0
  /-- the counter is to be reloaded at the next compared edge | 1 | 04 R150 | 0 (DESIGN CHOICE, log 11) -/
  reload : Bool := false
  /-- the 640 MHz block clock is ready | 1 | 04 R158 | 0 gated (DESIGN CHOICE, log 11) -/
  clock : Bool := false
  /-- the discriminator edge that has requested a clock start: its tick and ps into it | 1 | 04 R158 | none (DESIGN CHOICE, log 11) -/
  clockReq : Option (Stamp × Nat) := none
  /-- tick of the latest discriminator edge in the block | 64 | 04 R158 | 0 (DESIGN CHOICE, log 11) -/
  lastEdge : Stamp := 0
  /-- after a framing error the engine reads the port again from this tick | 64 | 05 R207 | none (DESIGN CHOICE, log 11) -/
  reframe : Option Stamp := none
  /-- port buffer, oldest first, 512 frames | 512 x 64 | 05 R204 | empty (DESIGN CHOICE, log 11) -/
  port : List PortFrame := []
  /-- discards not yet reported, by cause 3, 4, 6: count, TICK_LO of the first and of the last hit | 3 x 48 | 05 R202, R204 | none (DESIGN CHOICE, log 11) -/
  discards : Table (Option (Nat × Nat × Nat)) := []
  /-- value of the last WATERMARK sent | 16 | 05 R203 | none (DESIGN CHOICE, log 11) -/
  lastMark : Option Stamp := none
  /-- hit frames sent since the last WATERMARK | 6 | 05 R203 | 0 (DESIGN CHOICE, log 11) -/
  sinceMark : Nat := 0
  /-- held under BLOCK_OFF | 1 | 05 R237 | 0 (DESIGN CHOICE, log 11) -/
  held : Bool := false
  /-- the bank that counts | 1 | 03 R126 | 0 (DESIGN CHOICE, log 11) -/
  bank : Nat := 0
  /-- FRAME counters of the counting bank, by 64 PROW + PCOL | 4,096 x 16 | 03 R126 | 0 (DESIGN CHOICE, log 11) -/
  counts : Table Nat := []
  /-- bank being read out | - | 05 R243 | none (DESIGN CHOICE, log 11) -/
  readout : Option FrameBank := none
  /-- block frame count | 16 | 05 R202 | 0 (DESIGN CHOICE, log 11) -/
  frames : Nat := 0
  /-- first tick of its present FRAME mode | 64 | 03 R121 | 0 (DESIGN CHOICE, log 11) -/
  frameFrom : Stamp := 0
  /-- a block leaving FRAME completes its last frame (R121) | 1 | 03 R121 | 0 (DESIGN CHOICE, log 11) -/
  lastFrame : Bool := false
  /-- the scan job running on the block | 16 | 03 R124, R145 | none (DESIGN CHOICE, log 11) -/
  scan : Option Nat := none
  /-- scrub passes, pixel corrections, register corrections, TMR corrections | 4 x 32 | 03 R134, R136, R144 | 0 (DESIGN CHOICE, log 11) -/
  scrub : Table Nat := []
  /-- consecutive scrubs that found it differing | 2 | 03 R136 | 0 (DESIGN CHOICE, log 11) -/
  scrubFails : Nat := 0
  /-- charge table HG_b[0] to HG_b[31] and GR_b | 33 x 16 | 03 R132 | none: the default of R133 -/
  charge : Option (List Nat) := none
  /-- charge table that a calibration has stored, and the tick from which the engines use it | 33 x 16 + 64 | 03 R133 | none (DESIGN CHOICE, log 11) -/
  chargeNew : Option (List Nat × Stamp) := none
  /-- the mapped leakage temperature channel reports BREAK and the fallback is in use | 1 | 03 R111 | 0 (DESIGN CHOICE, log 11) -/
  leakFallback : Bool := false
  deriving DecidableEq, Repr

/-- A test-pulse injection in progress (R113, R114). -/
structure Injection where
  /-- blocks: a block or 0xFF -/
  block : Nat
  /-- TP_AMP -/
  amp : Nat
  /-- phase -/
  phase : Nat
  /-- steps left -/
  left : Nat
  /-- period in ticks -/
  period : Nat
  /-- stream -/
  stream : Nat
  /-- first step tick -/
  first : Stamp
  /-- next step tick -/
  next : Stamp
  deriving DecidableEq, Repr

/-- The pixel front end (chapter 03) with its pulses, ports and FRAME counters. -/
structure FeState where
  /-- the 256 blocks | - | 03 R95 | as each field of a block -/
  block : Table FeBlock := []
  /-- pixel configuration bytes that differ from TRIM 16, by address: TP_EN, MASK, TRIM | 1,048,576 x 8 | 03 R102 | 0x10 (R102) -/
  pixel : Table (BitVec 8) := []
  /-- their golden copy | 1,048,576 x 8 | 03 R135 | 0x10 (R102) -/
  goldPixel : Table (BitVec 8) := []
  /-- pixels whose LEAK_SAT is set | 1,048,576 | 03 R102 | 0 (R102) -/
  leakSat : Table Bool := []
  /-- crab list, in order of masking | - | 03 R129 | empty (DESIGN CHOICE, log 11) -/
  crabs : List Crab := []
  /-- hits of each pixel in the running crab window: hits in EVENT, FRAME counts (R119, R128) | 1,048,576 x - | 03 R128 | 0 (DESIGN CHOICE, log 11) -/
  crabHits : Table Nat := []
  /-- pixels with a STUCK condition in the running crab window | 1,048,576 | 03 R128 | 0 (DESIGN CHOICE, log 11) -/
  crabStuck : Table Bool := []
  /-- start of the running crab window in 25 ns units | - | 03 R128 | 0 (DESIGN CHOICE, log 11) -/
  crabFrom : Nat := 0
  /-- latest discriminator rise of each super-pixel | 65,536 x 64 | 04 R169 | none (DESIGN CHOICE, log 11) -/
  spRise : Table (Option Stamp) := []
  /-- pulses and dead times in progress, by pixel address | - | 03 R103, 05 R201 | none (DESIGN CHOICE, log 11) -/
  pulse : Table (Option Pulse) := []
  /-- ring of each super-pixel: pixel that won, its stop edge, ring busy with a bridge | 65,536 | 04 R151 | dark (DESIGN CHOICE, log 11) -/
  ring : Table (Option (Nat × Stamp × Bool)) := []
  /-- spare latch of each super-pixel used for the running ring | 65,536 | 05 R205 | 0 (DESIGN CHOICE, log 11) -/
  spare : Table Bool := []
  /-- block rows powered: PD_3 to PD_18 | 16 | 03 R123 | 0 (DESIGN CHOICE, log 11) -/
  rows : BitVec 16 := 0
  /-- mode bytes waiting for their effect tick: first block, bytes, tick | - | 03 R121 | none (DESIGN CHOICE, log 11) -/
  pendingMode : List (Nat × List Byte × Stamp) := []
  /-- FRAME_PERIOD in force | 32 | 03 R125 | 2441 (R143) -/
  framePeriod : Nat := 2441
  /-- FRAME_START in force | 64 | 03 R125 | tick 0 (DESIGN CHOICE, log 11) -/
  frameStart : Stamp := 0
  /-- latest boundary | 64 | 03 R125 | none (DESIGN CHOICE, log 11) -/
  lastBoundary : Option Stamp := none
  /-- the next boundary is no earlier than this tick | 64 | 03 R127 | none (DESIGN CHOICE, log 11) -/
  nextMin : Option Stamp := none
  /-- schedules waiting for their B0, earliest first: FRAME_PERIOD, FRAME_START, B0, first new boundary | - | 03 R127 | none (DESIGN CHOICE, log 11) -/
  pendingFrame : List (Nat × Stamp × Stamp × Stamp) := []
  /-- the test-pulse injection in progress | - | 03 R113 | none (DESIGN CHOICE, log 11) -/
  tp : Option Injection := none
  /-- the latest injection: its first step tick, its stream, its last step and its block parameter | - | 05 R245 | none (DESIGN CHOICE, log 11) -/
  lastTp : Option (Stamp × Nat × Stamp × Nat) := none
  /-- S-curve results of each pixel: threshold, noise | 1,048,576 x 32 | 03 R115 | 0 (DESIGN CHOICE, log 11) -/
  scanRes : Table (Nat × Nat) := []
  /-- the job whose S-curve results are held | 16 | 03 R115, R144 | 0 none (DESIGN CHOICE, log 11) -/
  scanJob : Nat := 0
  /-- bump-test result codes, by address | 1,048,576 x 3 | 03 R116 | 3 NOT_TESTED (DESIGN CHOICE, log 11) -/
  bump : Table Nat := []
  /-- front-end retention area: host-masked addresses kept over HOLD, mode bytes and DACs stay in `block` | 32 KiB | 03 R137 | empty (DESIGN CHOICE, log 11) -/
  retained : List Nat := []
  deriving DecidableEq, Repr

/-- A ring calibration of one super-pixel in one band: its valid runs so far, or the M runs of a finished one (R169). -/
structure CalRun where
  /-- sum of the counts of valid runs -/
  sum : Nat := 0
  /-- valid runs -/
  m : Nat := 0
  /-- sum of the droop readings of the valid runs, in mV -/
  v : Nat := 0
  deriving DecidableEq, Repr

/-- A band of a block being filled or recalibrated in flight (R172, R173, R177, R193). -/
structure Filling where
  /-- band -/
  band : Nat
  /-- valid super-pixels are calibrated too -/
  force : Bool
  /-- sum of the periods of the band when it began -/
  oldSum : Nat
  /-- valid super-pixels of the band when it began -/
  oldN : Nat
  /-- TCAL of the band when it began -/
  oldT : Int
  /-- TM_CAL_RUN jobs that wait for it -/
  jobs : List Nat
  deriving DecidableEq, Repr

/-- A calibration run in progress on a super-pixel (R169 to R171). -/
structure CalNow where
  /-- super-pixel -/
  sp : Nat
  /-- the strobe edge E it starts on -/
  start : Stamp
  /-- band of its block -/
  band : Nat
  /-- a discriminator of the super-pixel has risen in it -/
  hit : Bool := false
  /-- its block has left the band -/
  left : Bool := false
  deriving DecidableEq, Repr

/-- A TM_SKEW_CAL in progress (R184). -/
structure SkewRun where
  /-- job -/
  job : Nat
  /-- first block -/
  first : Nat
  /-- blocks -/
  count : Nat
  /-- last tick -/
  last : Stamp
  /-- sums in fine codes and counts, by super-pixel -/
  sums : Table (Int × Nat)
  deriving DecidableEq, Repr

/-- Event timing: calibration tables, temperatures, droop readings and bands (chapter 04). -/
structure TmState where
  /-- PER[s][b] in 1/128 ps, by 4 s + b; 0 is missing | 262,144 x 16 | 04 R174, R188 | 0 (R188) -/
  per : Table Nat := []
  /-- SKEW[s] in 0.1 ps | 65,536 x 16 | 04 R182 | 0 (R188) -/
  skew : Table Int := []
  /-- last TM_SKEW_CAL: mean in 0.1 ps and count, by super-pixel | 65,536 x 32 | 04 R184 | 0 (DESIGN CHOICE, log 12) -/
  skewCal : Table (Int × Nat) := []
  /-- WLK in 0.1 ps, by 64 k + i | 256 x 64 x 16 | 04 R180 | 0 (R188) -/
  wlk : Table Nat := []
  /-- WSW in 0.1 ps, by 16 k + i | 256 x 16 x 16 | 04 R181 | 0 (R188) -/
  wsw : Table Nat := []
  /-- INL in 0.1 ps, by 128 k + j | 256 x 128 x 8 | 04 R182 | 0 (R188) -/
  inl : Table Int := []
  /-- INL bins, by 128 k + j | 256 x 128 x 16 | 04 R185 | 0 (DESIGN CHOICE, log 12) -/
  bins : Table Nat := []
  /-- TC[k] in ppm/K | 256 x 16 | 04 R166, R168 | 0 (R188) -/
  tc : Table Int := []
  /-- TCAL[k][b] in 0.01 C, by 4 k + b | 1,024 x 16 | 04 R166 | 0 (R188) -/
  tcal : Table Int := []
  /-- V[k][b] in mV, by 4 k + b | 1,024 x 16 | 04 R169 | 0 (R188) -/
  v : Table Nat := []
  /-- K[k] where derived, in 0.001 ps/mV as numerator and denominator | 256 x - | 04 R175 | none: TM_DROOP_SLOPE (R190) -/
  k : Table (Option (Int × Nat)) := []
  /-- K of the TM_CAL record of each block, where that section was loaded | 256 x 16 | 04 R175 | none (R188) -/
  kLoaded : Table (Option Int) := []
  /-- time of calibration of each band in 25 ns units, by 4 k + b | 1,024 | 04 R172 | none (DESIGN CHOICE, log 12) -/
  calAt : Table (Option Nat) := []
  /-- stale bands of each block | 256 x 4 | 04 R172 | 0 (DESIGN CHOICE, log 12) -/
  stale : Table (BitVec 4) := []
  /-- temperature T[k] in 0.01 C | 256 x 16 | 04 R166 | 0 (DESIGN CHOICE, log 12) -/
  temp : Table Int := []
  /-- temperature source in use for each block where the fallback is in force | 256 x 8 | 04 R167 | none (DESIGN CHOICE, log 12) -/
  fallback : Table (Option Nat) := []
  /-- droop reading DM of each block: V - 650 mV | 256 x 8 | 04 R163 | 150, that is 800 mV (DESIGN CHOICE, log 12) -/
  dm : Table Nat := []
  /-- band of each block | 256 x 2 | 04 R164 | 0 (DESIGN CHOICE, log 12) -/
  band : Table Nat := []
  /-- DM request mask of each block | 256 x 4 | 05 R199 | 0 (DESIGN CHOICE, log 12) -/
  dmMask : Table (BitVec 4) := []
  /-- bands whose age has passed MAX_AGE | 256 x 4 | 04 R172 | 0 (DESIGN CHOICE, log 12) -/
  aged : Table (BitVec 4) := []
  /-- bands being filled or recalibrated in flight, by block | - | 04 R172, R173, R177 | none (DESIGN CHOICE, log 12) -/
  filling : Table (List Filling) := []
  /-- bands of each block whose first CALB_EXTRAP hit has been reported | 256 x 4 | 04 R177 | 0 (DESIGN CHOICE, log 12) -/
  missed : Table (BitVec 4) := []
  /-- calibration runs, by 4 s + b | - | 04 R169 | none (DESIGN CHOICE, log 12) -/
  run : Table (Option CalRun) := []
  /-- first measured WSW entry that the last TM_WALK_CAL of each block has reported | 256 x 4 | 04 R183 | none (DESIGN CHOICE, log 12) -/
  walkFirst : Table (Option Nat) := []
  /-- calibration runs in progress, by block: at most 16, one in each super-pixel row | 256 x 16 | 04 R171 | none (DESIGN CHOICE, log 12) -/
  running : Table (List CalNow) := []
  /-- the last four samples of each block in mV, newest first | 256 x 4 x 10 | 04 R163 | 800 mV each (DESIGN CHOICE, log 12) -/
  samples : Table (Nat × Nat × Nat × Nat) := []
  /-- the TM_SKEW_CAL jobs in progress with their sums and counts | - | 04 R184 | none (DESIGN CHOICE, log 12) -/
  skewRuns : List SkewRun := []
  /-- TM_STATS counts, by 6 k + place | 256 x 6 x 32 | 04 R191 | 0 (DESIGN CHOICE, log 12) -/
  stats : Table Nat := []
  /-- TM_STATS saturation bits of each block | 256 x 32 | 04 R191 | 0 (DESIGN CHOICE, log 12) -/
  statSat : Table Nat := []
  deriving DecidableEq, Repr

/-- A converted hit (R155, R174 to R181, R209): what a cluster keeps of each member. -/
structure Hit where
  /-- pixel row -/
  row : Nat
  /-- pixel column -/
  col : Nat
  /-- tick with epoch -/
  tick : Stamp
  /-- fine code, 0 to 8191 -/
  fine : Nat
  /-- TOT field of the hit record -/
  tot : Nat
  /-- RANGE -/
  range : Bool
  /-- RANGE_AMBIG -/
  ambig : Bool
  /-- ToT saturated -/
  sat : Bool
  /-- CALB_EXTRAP -/
  extrap : Bool
  /-- untimed (R205, R206) -/
  untimed : Bool
  /-- rebuilt charge in 1/20480 e- (log 40) -/
  q : Nat
  deriving DecidableEq, Repr

/-- A closed cluster in the form in which it merges and is emitted (R211, R217, R227, R229). -/
structure Closed where
  /-- block row that owns it -/
  row : Nat
  /-- engine that closed it -/
  engine : Nat
  /-- pixels -/
  size : Nat
  /-- members whose positions the unweighted sums hold -/
  n : Nat
  /-- sum of q in 1/20480 e- -/
  q : Nat
  /-- sum of q (16 r + 8), own frame -/
  qr : Int
  /-- sum of q (16 c + 8), own frame -/
  qc : Int
  /-- sum of (16 r + 8), unweighted -/
  ur : Int
  /-- sum of (16 c + 8), unweighted -/
  uc : Int
  /-- earliest ToA: stamp, fine code -/
  toa : Stamp × Nat
  /-- timed members: row, column, stamp, fine code -/
  timed : List (Int × Int × Stamp × Nat)
  /-- RANGE, RANGE_AMBIG, TOT_SAT, CALB_EXTRAP, SIZE_CAP, SPLIT -/
  flags : BitVec 6
  /-- FRAG -/
  frag : Bool := false
  /-- MERGED -/
  merged : Bool := false
  /-- EDGE, bit n for side SL_n -/
  edge : BitVec 4 := 0
  /-- HALF -/
  half : Bool := false
  /-- pixels on tile edges: side, along-edge coordinate -/
  edges : List (Nat × Nat) := []
  /-- WINDOW in ns, ENTRY_EN and ENTRY_TIE in force for it -/
  rules : Nat × Bool × Nat := (50, true, 20)
  /-- output setting in force for it -/
  out : Nat := 0
  deriving DecidableEq, Repr

/-- A cluster an engine holds open, or an edge cluster it keeps for a merge (R212 to R216, R225). -/
structure Cluster where
  /-- members, in order of arrival -/
  hits : List Hit
  /-- parts of engines below that an EDGE_FRAG has brought, each with its pixels in its first row (R219, R229) -/
  parts : List (Closed × List (Nat × Nat)) := []
  /-- SIZE_CAP -/
  sizeCap : Bool := false
  /-- SPLIT -/
  split : Bool := false
  /-- FRAG: a merge with a part of it was refused for its size (R226) -/
  frag : Bool := false
  /-- WINDOW in ns, ENTRY_EN and ENTRY_TIE in force when it opened (R248) -/
  rules : Nat × Bool × Nat := (50, true, 20)
  /-- output setting in force when it opened: 0 CLUSTERS, 1 HITS, 2 BOTH -/
  out : Nat := 0
  /-- moment at which the last hit joined it, in 25 ns units (R214) -/
  joined : Nat := 0
  deriving DecidableEq, Repr

/-- A loss being added up before its record is written (R238 to R240). -/
structure Loss where
  /-- CAUSE -/
  cause : Nat
  /-- UNIT -/
  unit : Nat
  /-- SOURCE -/
  source : Nat
  /-- COUNT, saturating at 0xFFFF_FFFF -/
  count : Nat
  /-- FIRST_TICK with epoch -/
  first : Stamp
  /-- LAST_TICK with epoch -/
  last : Stamp
  deriving DecidableEq, Repr

/-- What a reorder stage holds: a record of an engine, or a loss (R233, R239). -/
inductive HeldBody where
  /-- record kind, 1 hit or 2 cluster, and its 64-bit words with TICK_OFF zero -/
  | words (kind : Nat) (ws : List Nat)
  /-- a loss record -/
  | loss (l : Loss)
  deriving DecidableEq, Repr

/-- A record held in a reorder stage (R233). -/
structure Held where
  /-- block row it comes from -/
  row : Nat
  /-- engine that produced it -/
  engine : Nat
  /-- its tick with epoch -/
  tick : Stamp
  /-- its fine code -/
  fine : Nat
  /-- the record -/
  body : HeldBody
  /-- moment at which it has been held the REORDER in force when it entered, in 25 ns units (R233, R248) -/
  due : Nat
  deriving DecidableEq, Repr

/-- The footprint of a closed cluster (R216). -/
structure Print where
  /-- pixels: row, column -/
  pixels : List (Nat × Nat)
  /-- earliest ToA: stamp, fine code -/
  toa : Stamp × Nat
  /-- WINDOW in ns -/
  window : Nat
  /-- closing time in 25 ns units -/
  closed : Nat
  deriving DecidableEq, Repr

/-- A cluster engine (R212 to R218, R247). -/
structure Engine where
  /-- open clusters, oldest first, at most 256 | - | 05 R215 | none (DESIGN CHOICE, log 9) -/
  clusters : List Cluster := []
  /-- footprints of clusters closed within the last REORDER, newest first | - | 05 R216 | none (DESIGN CHOICE, log 9) -/
  prints : List Print := []
  /-- block rows served, as a bitmap | 16 | 05 R221, R247 | its own row (R15) -/
  moved : Option Nat := none
  /-- tick at which it began serving its rows | 64 | 16 R646 | 0 (DESIGN CHOICE, log 9) -/
  began : Stamp := 0
  /-- input buffer: converted hits that wait while its processing is stalled, oldest first, with block and TP; at most 4,096 | - | 05 R242 | empty (DESIGN CHOICE, log 9) -/
  inBuf : List (Nat × Bool × Hit) := []
  /-- next FRAG_ID towards the engine above | 16 | 05 R219, R229 | 0 (DESIGN CHOICE, log 9) -/
  nextFrag : Nat := 0
  /-- arrival times of the hits of the last second in 25 ns units, newest first | - | 05 R247 | none (DESIGN CHOICE, log 9) -/
  recent : List Nat := []
  /-- HP_STATS counts, by place in the result | 9 x 32 | 05 R247 | 0 (DESIGN CHOICE, log 9) -/
  stats : Table Nat := []
  /-- HP_STATS saturation bits | 32 | 05 R247 | 0 (DESIGN CHOICE, log 9) -/
  statSat : Nat := 0
  deriving DecidableEq, Repr

/-- A queue's loss policy state (R236 to R241). -/
structure LossState where
  /-- the policy is active | 1 | 05 R236 | 0 (DESIGN CHOICE, log 9) -/
  active : Bool := false
  /-- kind it started with | 2 | 05 R248 | 0 (DESIGN CHOICE, log 9) -/
  kind : Nat := 0
  /-- block mask it started with | 64 | 05 R248 | 0 (DESIGN CHOICE, log 9) -/
  mask : Nat := 0
  /-- tick at which it started | 64 | 05 R238 | 0 (DESIGN CHOICE, log 9) -/
  since : Stamp := 0
  /-- blocks held and not yet released after the policy ended, with the tick of their release | - | 05 R237 | none (DESIGN CHOICE, log 9) -/
  releasing : Option (Stamp × List Nat) := none
  /-- losses not yet written | - | 05 R240 | none (DESIGN CHOICE, log 9) -/
  losses : List Loss := []
  /-- COUNT totals by cause | 7 x 32 | 05 R247 | 0 (DESIGN CHOICE, log 9) -/
  totals : Table Nat := []
  /-- records held in the reorder stage, in time order | - | 05 R233 | none (DESIGN CHOICE, log 9) -/
  held : List Held := []
  /-- tick of the last record passed to the queue | 64 | 05 R234 | none (DESIGN CHOICE, log 9) -/
  lastPassed : Option Stamp := none
  deriving DecidableEq, Repr

/-- A cluster or fragment that waits for a merge (R225). -/
structure Merge where
  /-- FRAG_ID -/
  id : Nat
  /-- the cluster held -/
  cluster : Closed
  /-- place in the order of closings and receipts at this side -/
  order : Nat
  /-- moment of its closing or receipt, in 25 ns units (R225) -/
  since : Nat
  deriving DecidableEq, Repr

/-- The merge state of a tile side (R222 to R229). -/
structure MergeSide where
  /-- 0 OFF, 1 NONE, 2 ACTIVE, 3 LOST | 2 | 05 R222 | 1 NONE (DESIGN CHOICE, log 9) -/
  state : Nat := 1
  /-- partner tile identity | 6 | 05 R223 | 0 (DESIGN CHOICE, log 9) -/
  partner : Nat := 0
  /-- role: true owner | 1 | 05 R223 | non-owner (DESIGN CHOICE, log 9) -/
  owner : Bool := false
  /-- closings and receipts so far | - | 05 R225 | 0 (DESIGN CHOICE, log 9) -/
  order : Nat := 0
  /-- next FRAG_ID | 16 | 05 R229 | 0 (DESIGN CHOICE, log 9) -/
  nextId : Nat := 0
  /-- non-owner: clusters held for a reply | - | 05 R225 | none (DESIGN CHOICE, log 9) -/
  sent : List Merge := []
  /-- owner: closed edge clusters kept for MERGE_WAIT, oldest first | - | 05 R225 | none (DESIGN CHOICE, log 9) -/
  kept : List Merge := []
  /-- owner: fragments received that have matched nothing yet | - | 05 R225 | none (DESIGN CHOICE, log 9) -/
  waiting : List Merge := []
  /-- fragments sent, received, merged, FRAG emitted | 4 x 32 | 05 R247 | 0 (DESIGN CHOICE, log 9) -/
  counts : Table Nat := []
  deriving DecidableEq, Repr

/-- A hit-path setting that waits for its effect tick (R248). -/
structure HpPending where
  /-- settings tag -/
  tag : Nat
  /-- new value -/
  value : List Byte
  /-- effect tick -/
  tick : Stamp
  deriving DecidableEq, Repr

/-- The hit path (chapter 05). -/
structure HpState where
  /-- cluster engines 0 to 15 | - | 05 R212 | as each field of an engine -/
  engine : Table Engine := []
  /-- loss policy and reorder stage of each queue | - | 05 R233, R236 | as each field -/
  loss : Table LossState := []
  /-- merge state of sides SL_0 to SL_3 | - | 05 R222 | as each field -/
  side : Table MergeSide := []
  /-- latest watermark of each block, 64-bit tick; none: none seen, so unlimited only under R203 | 256 x 64 | 05 R203, R214 | none (DESIGN CHOICE, log 9) -/
  mark : Table (Option Stamp) := []
  /-- DM substitute: last DM received from each block and its tick | 256 x (8 + 64) | 05 R200 | none (DESIGN CHOICE, log 9) -/
  lastDm : Table (Option (Nat × Stamp)) := []
  /-- diverted test-pulse records, oldest first, 16,384 | 16,384 x 64 | 05 R245 | empty (DESIGN CHOICE, log 9) -/
  tpBuf : List (BitVec 64) := []
  /-- EV_203 has been raised for the running injection | 1 | 05 R245 | 0 (DESIGN CHOICE, log 9) -/
  tpFull : Bool := false
  /-- crosslink fragments: emitting FRAG | 1 | 05 R220, R247 | 0 merging (DESIGN CHOICE, log 9) -/
  halfFrag : Bool := false
  /-- tick of the latest record the engine serving a block row has released into its queue for it | 16 x 64 | 16 R646 | none (DESIGN CHOICE, log 9) -/
  released : Table (Option Stamp) := []
  /-- setting changes waiting for their effect tick | - | 05 R248 | none (DESIGN CHOICE, log 9) -/
  pending : List HpPending := []
  deriving DecidableEq, Repr

/-- A comparator stream of a unit: one patch of its mask, or the sum (R260 to R264). -/
structure CmpStream where
  /-- the first comparator is HIGH -/
  high : Bool := false
  /-- the second comparator (L2) is HIGH -/
  high2 : Bool := false
  /-- the comparators have been set from their first sample -/
  started : Bool := false
  /-- last sample y -/
  last : Int := 0
  /-- index of the last sample -/
  index : Nat := 0
  /-- index and FRAC of the rising transition that opened the pulse -/
  a : Nat × Nat := (0, 0)
  /-- index and FRAC of the last falling transition -/
  b : Nat × Nat := (0, 0)
  /-- the pulse has reached L2 -/
  reached : Bool := false
  /-- the condition has fired in this pulse or stay -/
  done : Bool := false
  deriving DecidableEq, Repr

/-- A trigger unit TU_n (R258 to R268, R293). -/
structure TrigUnit where
  /-- unit configuration in force, 64 bytes | 512 | 06 R293 | all zero (R295) -/
  conf : List Byte := []
  /-- comparator streams, by patch, 64 for the sum | - | 06 R262 | LOW (DESIGN CHOICE, log 13) -/
  streams : Table CmpStream := []
  /-- hold-offs: fire sample and last sample | - | 06 R268 | none (DESIGN CHOICE, log 13) -/
  holds : List (Nat × Nat) := []
  /-- a condition was discarded in hold-off: the next record carries SUPPRESSED | 1 | 06 R268 | 0 (DESIGN CHOICE, log 13) -/
  suppressed : Bool := false
  /-- index in 1/64 sample of the previous reference crossing, for PERIOD | 64 | 06 R273 | none (R294) -/
  lastRef : Option Int := none
  /-- first sample of the tick its configuration took effect | 64 | 06 R274, R294 | 0 (DESIGN CHOICE, log 13) -/
  since : Nat := 0
  /-- unexpired gates, as first and last ns | 64 gates | 06 R271 | none (DESIGN CHOICE, log 13) -/
  gates : List (Int × Int) := []
  /-- TR_STATS counts, by place in the result | 5 x 32 | 06 R296 | 0 (DESIGN CHOICE, log 13) -/
  stats : Table Nat := []
  /-- TR_STATS saturation bits | 32 | 06 R296 | 0 (DESIGN CHOICE, log 13) -/
  statSat : Nat := 0
  deriving DecidableEq, Repr

/-- A fire whose trigger record waits for its measurement window (R266, R272, R275). -/
structure Fire where
  /-- fire sample index g = 25 T + n -/
  g : Nat
  /-- samples the time has been stepped by since: TICK and SAMPLE are those of g less this (R489) -/
  off : Int
  /-- UNIT_MASK -/
  mask : Nat
  /-- FIRST_UNIT -/
  first : Nat
  /-- PATCH -/
  patch : Nat
  /-- reference sample index -/
  ref : Nat
  /-- FRAC -/
  frac : Nat
  /-- local units whose statistics count it -/
  units : Nat
  /-- ORIGIN -/
  origin : Nat
  /-- FLAGS known at the fire -/
  flags : Nat
  /-- PERIOD in 1/16 ns -/
  period : Option Nat
  /-- a unit of the mask has RECORD or WAVE: the record is to be written -/
  wants : Bool
  /-- WAVE_ID -/
  waveId : Nat
  /-- configuration of the measured unit at the fire -/
  conf : List Byte
  /-- it measures RAW in place of its core -/
  raw : Bool
  /-- first sample of the configuration's effect tick -/
  since : Nat
  deriving DecidableEq, Repr

/-- A capture engine at work (R278 to R281). -/
structure Capture where
  /-- WAVE_ID -/
  waveId : Nat
  /-- fire sample index -/
  g : Nat
  /-- samples the time has been stepped by since (R489) -/
  off : Int
  /-- patches -/
  patches : List Nat
  /-- WAVE_PRE in force, after any cut -/
  pre : Nat
  /-- WAVE_POST -/
  post : Nat
  /-- 0 FULL, 1 CHANGE_ONLY -/
  form : Nat
  /-- DEADBAND -/
  deadband : Nat
  /-- CAL -/
  cal : Bool
  /-- lowest unit of the mask with WAVE, whose form and deadband it uses -/
  unit : Nat
  /-- units of the mask with WAVE -/
  units : Nat
  deriving DecidableEq, Repr

/-- Domain states (R283). -/
inductive DomainState where
  | off | detached | disarmed | armed | fired
  deriving DecidableEq, Repr

/-- The arming domain of this module (R283 to R290). -/
structure ArmDomain where
  /-- state | 3 | 06 R283 | OFF (R295: disabled) -/
  state : DomainState := .off
  /-- SEQ | 8 | 06 R284 | 0 (DESIGN CHOICE, log 13) -/
  seq : Nat := 0
  /-- master tile | 6 | 06 R296 | 0 (DESIGN CHOICE, log 13) -/
  master : Nat := 0
  /-- MODE: 1 CONTINUOUS | 1 | 06 R284 | 0 (DESIGN CHOICE, log 13) -/
  mode : Nat := 0
  /-- REARM | 16 | 06 R284 | 0 (DESIGN CHOICE, log 13) -/
  rearm : Nat := 0
  /-- arm tick waiting | 64 | 06 R285 | none (DESIGN CHOICE, log 13) -/
  armAt : Option Stamp := none
  /-- DISARM effect tick waiting | 64 | 06 R285 | none (DESIGN CHOICE, log 13) -/
  disarmAt : Option Stamp := none
  /-- earliest fire tick known for the sequence | 64 | 06 R285 | none (DESIGN CHOICE, log 13) -/
  earliest : Option Stamp := none
  /-- the module armed after its ARM tick: LATE_ARM | 1 | 06 R276 | 0 (DESIGN CHOICE, log 13) -/
  late : Bool := false
  /-- fires acted on: ORIGIN, tick, SAMPLE | - | 06 R285 | none (DESIGN CHOICE, log 13) -/
  seen : List (Nat × Stamp × Nat) := []
  /-- last 64 words forwarded, newest first | 64 x 64 | 06 R286 | none (DESIGN CHOICE, log 13) -/
  forwarded : List (BitVec 64) := []
  /-- words sent on each path, oldest first: path, word | - | 06 R285, R286 | none (DESIGN CHOICE, log 13) -/
  out : List (Nat × BitVec 64) := []
  /-- ARMs, fires sent, fires received, fires ignored, CRC errors, late arms | 6 x 32 | 06 R296 | 0 (DESIGN CHOICE, log 13) -/
  counts : Table Nat := []
  /-- time of the last BEAT, in 25 ns units | - | 06 R296 | 0 (DESIGN CHOICE, log 13) -/
  lastBeat : Nat := 0
  /-- SEQ and arm tick of the ARM last adopted | 8 + 64 | 06 R285 | none (DESIGN CHOICE, log 13) -/
  lastArm : Option (Nat × Stamp) := none
  /-- time the master sent its last BEAT, in 25 ns units | - | 06 R283 | 0 (DESIGN CHOICE, log 13) -/
  beatAt : Nat := 0
  deriving DecidableEq, Repr

/-- Converter states (R255). -/
inductive AdcState where
  | off | converging | converged | fault | frozen
  deriving DecidableEq, Repr

/-- A patch converter (R253 to R256). -/
structure Adc where
  /-- state | 3 | 06 R255 | off (R256) -/
  state : AdcState := .off
  /-- slice corrections, by slice: offset in 0.01 code, gain in ppm, skew in 0.01 ps | 4 x 48 | 06 R254, R296 | 0 (DESIGN CHOICE, log 13) -/
  slices : Table (Int × Int × Int) := []
  /-- clipped samples | 32 | 06 R296 | 0 (DESIGN CHOICE, log 13) -/
  clipped : Nat := 0
  /-- state to return to on release from FROZEN -/
  before : AdcState := .off
  deriving DecidableEq, Repr

/-- Samples of a patch, newest first (R279); the history is the newest 8,192 of them, and those behind it are what running
measurements and captures still need (log 42). -/
structure History where
  /-- index of the newest sample -/
  newest : Nat := 0
  /-- samples, newest first -/
  samples : List Int := []
  /-- indices of clipped samples still held -/
  ovr : List Nat := []
  deriving DecidableEq, Repr

/-- The trigger and acquisition engine (chapter 06). -/
structure TrState where
  /-- trigger units TU_0 to TU_15 | - | 06 R258 | as each field of a unit -/
  unit : Table TrigUnit := []
  /-- unit configurations waiting for their tick: unit, bytes, tick | - | 06 R294 | none (DESIGN CHOICE, log 13) -/
  pending : List (Nat × List Byte × Stamp) := []
  /-- soft fires waiting: unit mask, tick | - | 06 R277 | none (DESIGN CHOICE, log 13) -/
  soft : List (Nat × Stamp) := []
  /-- sample history of each patch | 64 x 8,192 x 16 | 06 R279 | empty (DESIGN CHOICE, log 13) -/
  hist : Table History := []
  /-- record builder: fires not yet written, oldest first | - | 06 R267 | none (DESIGN CHOICE, log 13) -/
  fires : List Fire := []
  /-- capture engines | 4 | 06 R278 | free (DESIGN CHOICE, log 13) -/
  capture : Table (Option Capture) := []
  /-- next WAVE_ID | 16 | 06 R280 | 0 (DESIGN CHOICE, log 13) -/
  waveId : Nat := 0
  /-- TRIG_SEQ | 16 | 06 R275 | 0 (DESIGN CHOICE, log 13) -/
  trigSeq : Nat := 0
  /-- converters of the 64 patches | - | 06 R255 | as each field of a converter -/
  adc : Table Adc := []
  /-- settings accepted in EASY that wait for PD_31: tag and value | - | 06 R296 | none (DESIGN CHOICE, log 13) -/
  waiting : List (Nat × List Byte) := []
  /-- time at which PD_31 powered up, in 25 ns units | - | 06 R255 | 0 (DESIGN CHOICE, log 13) -/
  poweredAt : Nat := 0
  /-- time of the last update of the corrections, in 25 ns units | - | 06 R254 | 0 (DESIGN CHOICE, log 13) -/
  calAt : Nat := 0
  /-- EV_208 has been raised since PD_31 powered up | 1 | 06 R255 | 0 (DESIGN CHOICE, log 13) -/
  allConverged : Bool := false
  /-- arming domain | - | 06 R283 | as each field -/
  domain : ArmDomain := {}
  /-- TRIG_OUT pulses in LEVEL mode, newest first: first and last ns | - | 06 R291 | none (DESIGN CHOICE, log 13) -/
  trigOut : List (Nat × Nat) := []
  deriving DecidableEq, Repr

/-- Core states (R300). -/
inductive CoreState where
  | off | stopped | running | deferred | suspended | fault
  deriving DecidableEq, Repr

/-- A loop in progress (R319 to R321). -/
structure LoopFrame where
  /-- it is a PLOOP -/
  pipelined : Bool
  /-- first index of its body -/
  start : Nat
  /-- body length -/
  len : Nat
  /-- LOOP: iterations not yet started; PLOOP: count n, 0 endless -/
  count : Nat
  /-- PLOOP: stages -/
  stages : Nat
  /-- PLOOP: pass number -/
  pass : Nat
  deriving DecidableEq, Repr

/-- The registers of one bank (R306 to R308). -/
structure Regs where
  /-- V0 to V47, physical | 48 x 32 | 07 R306 | 0 (R306) -/
  v : Table (BitVec 32) := []
  /-- G0 to G15 | 16 x 32 | 07 R306 | 0 (R306) -/
  g : Table (BitVec 32) := []
  /-- A0 to A3 | 4 x 40 | 07 R306 | 0 (R306) -/
  a : Table Int := []
  /-- P0 to P7 | 8 x 16 | 07 R306 | 0 (R306) -/
  p : Table (BitVec 16) := []
  /-- M0 to M7 | 8 x 16 | 07 R306 | 0 (R306) -/
  m : Table (BitVec 16) := []
  /-- B0 to B7 | 8 x 16 | 07 R306 | 0 (R306) -/
  b : Table (BitVec 16) := []
  /-- L0 to L7 | 8 x 16 | 07 R306 | 0 (R306) -/
  l : Table (BitVec 16) := []
  /-- ROTB | 6 | 07 R308 | 0 (R308) -/
  rotb : Nat := 0
  /-- SQ | 16 | 07 R308 | 0x0001 (R308) -/
  sq : BitVec 16 := 1
  /-- SR: GAP, OVA, SAT | 3 | 07 R309 | 0 (R309) -/
  gap : Bool := false
  /-- OVA | 1 | 07 R309 | 0 (R309) -/
  ova : Bool := false
  /-- SAT | 1 | 07 R309 | 0 (R309) -/
  sat : Bool := false
  /-- loops in progress, innermost first, at most 4 | - | 07 R319 | none (R306) -/
  loops : List LoopFrame := []
  /-- call stack, at most 8 | - | 07 R319 | empty (R306) -/
  calls : List Nat := []
  deriving DecidableEq, Repr

/-- The state a level-2 entry saves (R327). -/
structure Saved where
  /-- index -/
  index : Nat
  /-- SR fields -/
  flags : Bool × Bool × Bool
  /-- SQ -/
  sq : BitVec 16
  /-- ROTB -/
  rotb : Nat
  /-- loops -/
  loops : List LoopFrame
  /-- calls -/
  calls : List Nat
  deriving DecidableEq, Repr

/-- What an in-flight operation does when its cycle comes (R316, R318, R326). -/
inductive Flight where
  /-- write a V (physical) or G register of a bank -/
  | reg (bank : Nat) (isG : Bool) (i : Nat) (val : BitVec 32)
  /-- add to an accumulator, saturating -/
  | accAdd (bank : Nat) (i : Nat) (val : Int)
  /-- set an accumulator; saturating as R314 says of MAC0 and FTAP0 -/
  | accSet (bank : Nat) (i : Nat) (val : Int)
  /-- a load: space, halfword addresses, destination registers; reads, then writes one cycle later -/
  | load (space : Nat) (addrs : List Nat) (bank : Nat) (dst : List (Bool × Nat)) (half : Bool)
  /-- write halfwords -/
  | store (space : Nat) (vals : List (Nat × BitVec 16))
  /-- FTAP read of x, y and c: pointers, accumulator, set instead of add -/
  | ftap (bank acc : Nat) (xs ys cs : List Nat) (px py : Nat) (set : Bool)
  deriving DecidableEq, Repr

/-- Why a core issues nothing (R314, R332, R335). -/
inductive Stall where
  | input | output | qput | wait
  deriving DecidableEq, Repr

/-- A kernel record being built (R334, R335). -/
structure KernelRec where
  /-- words so far -/
  words : List (BitVec 32)
  /-- words past 2,044 were discarded -/
  trunc : Bool
  /-- the kernel was deferred while it was open -/
  gap : Bool
  /-- words that have left the record buffer for the queue -/
  taken : Nat
  deriving DecidableEq, Repr

/-- A trigger record on its way into a Y ring (R333). -/
structure RingEntry where
  /-- the record and the 16 bytes after it -/
  head : List Byte
  /-- Y address of the entry -/
  base : Nat
  /-- patch of its samples -/
  patch : Nat
  /-- POL is NEG -/
  neg : Bool
  /-- index of its first sample -/
  start : Nat
  /-- its samples -/
  count : Nat
  /-- how many of them were older than the history -/
  lost : Nat
  deriving DecidableEq, Repr

/-- A waveform-engine core WE_n (R299 to R345). -/
structure WeCore where
  /-- state | 3 | 07 R300 | OFF (R301) -/
  state : CoreState := .off
  /-- fault cause and index | 8 + 16 | 07 R336 | 0 (DESIGN CHOICE, log 14) -/
  fault : Nat × Nat := (0, 0)
  /-- a WE_LOAD_BEGIN is open | 1 | 07 R343 | 0 (DESIGN CHOICE, log 14) -/
  loading : Bool := false
  /-- kernel header, 176 bytes | 1,408 | 07 R339 | zero (R305) -/
  header : Table Byte := []
  /-- P memory | 8,192 x 64 | 07 R304 | zero (R305) -/
  p : Table (BitVec 64) := []
  /-- X memory, halfwords by address / 2 | 64 KiB | 07 R304 | zero (R305) -/
  x : Table (BitVec 16) := []
  /-- Y memory | 64 KiB | 07 R304 | zero (R305) -/
  y : Table (BitVec 16) := []
  /-- C memory | 32 KiB | 07 R304 | zero (R305) -/
  c : Table (BitVec 16) := []
  /-- poisoned or uncorrectable 32-byte words: by space, word | - | 07 R305 | none (DESIGN CHOICE, log 14) -/
  poison : List (Nat × Nat) := []
  /-- 32-byte words whose next read meets an error beyond correction: by space, word | - | 07 R305 | none (DESIGN CHOICE, log 14) -/
  upset : List (Nat × Nat) := []
  /-- bank 0 | - | 07 R306 | zero (R306) -/
  bank0 : Regs := {}
  /-- bank 1 | - | 07 R306 | zero (R306) -/
  bank1 : Regs := {}
  /-- BANK of SR | 1 | 07 R309 | 0 (R309) -/
  bank : Nat := 0
  /-- level: levels entered, innermost first: 1 or 2, with EPC | - | 07 R309, R308 | main program (R309) -/
  levels : List (Nat × Nat) := []
  /-- state saved by level 2 | - | 07 R327 | none (DESIGN CHOICE, log 14) -/
  saved : Option Saved := none
  /-- index of the next instruction | 13 | 07 R301 | 0 (DESIGN CHOICE, log 14) -/
  index : Nat := 0
  /-- IEN | 8 | 07 R308 | 0 (R308) -/
  ien : BitVec 8 := 0
  /-- ILVL | 8 | 07 R308 | 0 (R308) -/
  ilvl : BitVec 8 := 0
  /-- IPEND, edge sources pending | 8 | 07 R308 | 0 (R308) -/
  ipend : BitVec 8 := 0
  /-- ns at which CYC was zero | - | 07 R299 | 0 (DESIGN CHOICE, log 14) -/
  base : Int := 0
  /-- CYC: cycles since WE_START | 32 | 07 R308 | 0 (R308) -/
  cyc : BitVec 32 := 0
  /-- RECW | 16 | 07 R308 | 0 (R308) -/
  recw : BitVec 16 := 0
  /-- RECR | 16 | 07 R308 | 0 (R308) -/
  recr : BitVec 16 := 0
  /-- HOSTVAL | 32 | 07 R308 | 0 (R308) -/
  hostval : BitVec 32 := 0
  /-- TIMER | 32 | 07 R308 | 0 (R308) -/
  timer : BitVec 32 := 0
  /-- loop cache: start and length of the body it holds | - | 07 R320 | empty (DESIGN CHOICE, log 14) -/
  cache : Option (Nat × Nat) := none
  /-- in-flight operations in issue order, with the cycles left until each acts | - | 07 R316, R326 | none (DESIGN CHOICE, log 14) -/
  flight : List (Nat × Flight) := []
  /-- the core is stalled or waits | - | 07 R316 | none (DESIGN CHOICE, log 14) -/
  stall : Option Stall := none
  /-- input FIFOs by channel: samples with tag and the ns at which IN can take them, oldest first, at most 64 | 16 x 64 | 07 R328, R329 | empty (DESIGN CHOICE, log 14) -/
  fifo : Table (List (Int × Nat × Nat)) := []
  /-- tag of the last sample popped from each channel | 16 | 07 R330 | none (DESIGN CHOICE, log 14) -/
  popped : Table (Option Nat) := []
  /-- outputs of each channel, attributed index and value, newest first, at most 64 not yet used; those behind them are what measurements still need (log 42) | 16 x 64 | 07 R331, R332 | none (DESIGN CHOICE, log 14) -/
  outs : Table (List (Nat × Int)) := []
  /-- output channels live | 16 | 07 R332 | 0 (R300) -/
  live : BitVec 16 := 0
  /-- EV_260 has been raised since RUNNING was entered | 1 | 07 R303 | 0 (DESIGN CHOICE, log 14) -/
  reported : Bool := false
  /-- its units were fed by it before the last switch | 1 | 06 R259 | 0 (DESIGN CHOICE, log 14) -/
  fedWas : Bool := false
  /-- first sample from which the last switch of its units acts | 64 | 06 R259 | 0 (DESIGN CHOICE, log 14) -/
  switchAt : Nat := 0
  /-- trigger records on their way into the ring, oldest first | - | 07 R333 | none (DESIGN CHOICE, log 14) -/
  entries : List RingEntry := []
  /-- consecutive late outputs of each channel | 16 x 7 | 07 R332 | 0 (DESIGN CHOICE, log 14) -/
  lateRun : Table Nat := []
  /-- time of the last EV_259, in 25 ns units | - | 07 R332 | none (DESIGN CHOICE, log 14) -/
  lateEv : Option Nat := none
  /-- open kernel record | - | 07 R334 | none (DESIGN CHOICE, log 14) -/
  krec : Option KernelRec := none
  /-- closed kernel records waiting for the queue, oldest first: tick, bytes, words still in the record buffer | 512 words | 07 R335 | none (DESIGN CHOICE, log 14) -/
  recQ : List (Stamp × List Byte × Nat) := []
  /-- WE_STATS counts: cycles issued, stall cycles, samples skipped, records delivered, dropped, kernel records | 6 x 32 | 07 R343 | 0 (DESIGN CHOICE, log 14) -/
  stats : Table Nat := []
  /-- WE_STATS late counts by output channel | 16 x 32 | 07 R343 | 0 (DESIGN CHOICE, log 14) -/
  late : Table Nat := []
  /-- WE_STATS saturation bits | 32 | 07 R343 | 0 (DESIGN CHOICE, log 14) -/
  statSat : Nat := 0
  deriving DecidableEq, Repr

/-- The waveform engine (chapter 07). -/
structure WeState where
  /-- cores WE_0 to WE_3 | - | 07 R299 | as each field of a core -/
  core : Table WeCore := []
  deriving DecidableEq, Repr

/-- What a stored 32-byte word differs by from the clean word at its own address (R369 to R371). -/
structure LineErr where
  /-- data bits that differ -/
  data : BitVec 256 := 0
  /-- check bits that differ -/
  check : BitVec 16 := 0
  /-- line-address bits that differ -/
  addr : BitVec 28 := 0
  deriving DecidableEq, Repr

/-- A closed frame of a queue (R352, R353). -/
structure BqFrame where
  /-- position of its descriptor -/
  pos : Nat
  /-- KIND -/
  kind : Nat
  /-- FLAGS: bit 0 CAL, bit 1 RESYNC, bit 2 LOSS -/
  flags : BitVec 8
  /-- EPOCH and TIME_BASE -/
  base : Stamp
  /-- LAST_OFF -/
  lastOff : Nat
  /-- RECORDS -/
  records : Nat
  /-- SOURCE -/
  source : Nat
  /-- payload, LEN bytes -/
  payload : List Byte
  /-- tick at which it was closed (R419) -/
  closed : Stamp := 0
  deriving DecidableEq, Repr

/-- A frame a producer has open (R354). -/
structure OpenFrame where
  /-- KIND -/
  kind : Nat
  /-- SOURCE -/
  source : Nat
  /-- CAL of its records -/
  cal : Bool
  /-- RESYNC when it was opened -/
  resync : Bool
  /-- TIME_BASE -/
  base : Stamp
  /-- ticks from TIME_BASE to the latest record -/
  lastOff : Nat
  /-- records held -/
  records : Nat
  /-- payload so far -/
  payload : List Byte
  /-- moment at which its oldest record has waited the packet-close time, in 25 ns units (R21, R354) -/
  closes : Nat
  deriving DecidableEq, Repr

/-- A burst-buffer queue BQ_n (R350 to R366). -/
structure BurstQueue where
  /-- write pointer W: positions given to closed frames | 48 | 08 R350, R362 | 0 (DESIGN CHOICE, log 8) -/
  w : Nat := 0
  /-- read pointer R | 48 | 08 R350, R362 | 0 (DESIGN CHOICE, log 8) -/
  r : Nat := 0
  /-- position of the next spill | 48 | 08 R362 | 0 (DESIGN CHOICE, log 8) -/
  spill : Nat := 0
  /-- position of the next refill | 48 | 08 R362 | 0 (DESIGN CHOICE, log 8) -/
  refill : Nat := 0
  /-- closed frames held, oldest first | - | 08 R352 | empty (R357 EMPTY) -/
  frames : List BqFrame := []
  /-- open frames | - | 08 R354 | none (R357 OPEN) -/
  opens : List OpenFrame := []
  /-- pages of each chunk of the middle, oldest chunk first | - | 08 R351 | none (R357 MIDDLE) -/
  chunks : List (List Nat) := []
  /-- bits in which the second copy of W (0), R (1), spill (2) and refill (3) differs from the first | 4 x 48 | 08 R362 | 0 (DESIGN CHOICE, log 8) -/
  copy : Table Nat := []
  /-- place in the region's page ring of the next spill | 21 | 08 R351 | 0 (DESIGN CHOICE, log 8) -/
  ring : Nat := 0
  /-- held words that are not stored clean, by position / 32 | - | 08 R369, R373 | none (DESIGN CHOICE, log 8) -/
  errs : Table LineErr := []
  /-- queue state: 0 OFF, 1 RUN, 2 HELD, 3 RESET, 4 FAULT | 3 | 08 R356, R357 | 0 OFF (R357) -/
  state : Nat := 0
  /-- HOST_HOLD | 1 | 08 R357 | 0 (R357) -/
  hostHold : Bool := false
  /-- held for a fail-over (R356) | 1 | 08 R356 | 0 (DESIGN CHOICE, log 8) -/
  failHold : Bool := false
  /-- starts of the last resets, in 25 ns units, newest first | - | 08 R365 | none (DESIGN CHOICE, log 8) -/
  resetTimes : List Nat := []
  /-- the running reset is to end in FAULT | 1 | 08 R365 | 0 (DESIGN CHOICE, log 8) -/
  toFault : Bool := false
  /-- bytes held when the running reset started | 48 | 08 R364 | 0 (DESIGN CHOICE, log 8) -/
  resetHeld : Nat := 0
  /-- TIME_BASE of the oldest frame held when the running reset started | 64 | 08 R364 | 0 (DESIGN CHOICE, log 8) -/
  resetFirst : Stamp := 0
  /-- bytes discarded in RESET and FAULT | 48 | 08 R364, R365 | 0 (DESIGN CHOICE, log 8) -/
  discarded : Nat := 0
  /-- TIME_BASE + LAST_OFF of the last frame a consumer read since the last reset | 64 | 08 R366 | none (DESIGN CHOICE, log 8) -/
  lastRead : Option Stamp := none
  /-- bytes in and bytes out beyond whole KiB | 2 x 10 | 08 R389 | 0 (DESIGN CHOICE, log 8) -/
  part : Nat × Nat := (0, 0)
  /-- BB_STATS of the queue, by place in its result | 12 x 32 | 08 R389 | 0 (DESIGN CHOICE, log 8) -/
  stats : Table Nat := []
  /-- BB_STATS saturation bits | 32 | 08 R389 | 0 (DESIGN CHOICE, log 8) -/
  statSat : Nat := 0
  deriving DecidableEq, Repr

/-- A scrub summary in the making or complete (R381). -/
structure ScrubSum where
  /-- JOB -/
  job : Nat := 0xFFFF
  /-- KIND -/
  kind : Nat := 0
  /-- RESULT -/
  result : Nat := 0
  /-- EPOCH and START_TICK -/
  start : Stamp := 0
  /-- DURATION in ms -/
  duration : Nat := 0
  /-- PAGES -/
  pages : Nat := 0
  /-- SKIPPED -/
  skipped : Nat := 0
  /-- CORRECTED -/
  corrected : Nat := 0
  /-- POISONED_NEW -/
  poisonedNew : Nat := 0
  /-- POISONED_FOUND -/
  poisonedFound : Nat := 0
  /-- ADDRESS -/
  address : Nat := 0
  /-- REMAPPED -/
  remapped : Nat := 0
  /-- RETIRED -/
  retired : Nat := 0
  /-- FIRST_REGION and FIRST_OFFSET of the first newly poisoned line -/
  first : Option (Nat × Nat) := none
  /-- range job: the line from which it goes on -/
  next : Nat := 0
  deriving DecidableEq, Repr

/-- A line of the watch list (R382). -/
structure Watch where
  /-- physical line -/
  line : Nat
  /-- visits that needed a correction since the write-back that entered it -/
  repeats : Nat
  deriving DecidableEq, Repr

/-- The queues and the memory layer (chapter 08). -/
structure BbState where
  /-- BQ_0 to BQ_15 | - | 08 R350 | as each field of a queue -/
  q : Table BurstQueue := []
  /-- region sizes in units of 16 MiB that differ from 32 (BB_REGIONS) | 16 x 16 | 08 R347, R387 | all 32 (R387) -/
  region : Table Nat := []
  /-- queue map entries that differ from R19: source mask, lane-group mask, enable | 16 x 64 | 08 R387, R388 | as R19 (R387) -/
  map : Table (Option (Nat × Nat × Nat)) := []
  /-- a queue-map change waiting for its effect tick: queue, entry, tick | - | 08 R390 | none (DESIGN CHOICE, log 8) -/
  mapPending : List (Nat × (Nat × Nat × Nat) × Stamp) := []
  /-- pages of the region space whose valid bit is set | 2^21 | 08 R372 | all 0 (R372) -/
  valid : Table Bool := []
  /-- training: 0 none, 1 OK, 2 failed | 8 | 08 R389 | 0 (DESIGN CHOICE, log 8) -/
  training : Nat := 0
  /-- the memory layer is in use | 1 | 08 R349 | 0 (DESIGN CHOICE, log 8) -/
  layer : Bool := false
  /-- the memory layer is in self-refresh | 1 | 08 R367, 12 R513 | 0 (DESIGN CHOICE, log 8) -/
  selfRefresh : Bool := false
  /-- trained-channel mask | 16 | 08 R389 | 0 (DESIGN CHOICE, log 8) -/
  trainedMask : BitVec 16 := 0
  /-- remapped lines, by physical line: the spare in use | - | 08 R383, R385 | none (R385: lost at power-on reset) -/
  remap : Table (Option Nat) := []
  /-- retired pages | - | 08 R384, R385 | none (R385: lost at power-on reset) -/
  retired : List Nat := []
  /-- pages to retire when they are released | - | 08 R384 | none (DESIGN CHOICE, log 8) -/
  retiring : List Nat := []
  /-- watch list, oldest first, at most 1,024 | - | 08 R382 | empty (DESIGN CHOICE, log 8) -/
  watch : List Watch := []
  /-- the patrol pass in progress | - | 08 R376, R381 | zeros (DESIGN CHOICE, log 8) -/
  patrol : ScrubSum := {}
  /-- time at which the patrol pass started, in 25 ns units | - | 08 R381 | 0 (DESIGN CHOICE, log 8) -/
  patrolUp : Nat := 0
  /-- next line the patrol scrubber visits | 28 | 08 R376 | 0 (DESIGN CHOICE, log 8) -/
  patrolNext : Nat := 0
  /-- time of the last patrol visit, in 25 ns units | - | 08 R376 | 0 (DESIGN CHOICE, log 8) -/
  patrolAt : Nat := 0
  /-- time of the last scrub of the SRAMs, in 25 ns units | - | 08 R376 | 0 (DESIGN CHOICE, log 8) -/
  sramAt : Nat := 0
  /-- time of the last spill or refill, in 25 ns units | - | 12 R513 | 0 (DESIGN CHOICE, log 8) -/
  movedAt : Nat := 0
  /-- lines of valid pages that no chunk holds: what a scrub has left there, as it differs from a clean word | - | 08 R372, R377 | none (DESIGN CHOICE, log 8) -/
  loose : Table (Option LineErr) := []
  /-- the last completed patrol pass | - | 08 R381 | none (DESIGN CHOICE, log 8) -/
  lastPatrol : Option ScrubSum := none
  /-- completed patrol passes | 32 | 08 R389 | 0 (DESIGN CHOICE, log 8) -/
  passes : Nat := 0
  /-- summaries of range jobs, by job number | - | 08 R381 | none (DESIGN CHOICE, log 8) -/
  ranges : Table (Option ScrubSum) := []
  /-- checker test page: data and check bits of its 128 words | 128 x 272 | 08 R386 | all zero, read CLEAN (DESIGN CHOICE, log 8) -/
  testPage : Table (BitVec 256 × BitVec 16) := []
  /-- checker words written to the head SRAM of OFF queues, by 8,192 queue + index | 16 x 8,192 x 272 | 08 R386 | all zero, read CLEAN (DESIGN CHOICE, log 8) -/
  headWords : Table (BitVec 256 × BitVec 16) := []
  /-- the HOLD save that is kept: valid | 1 | 08 R367 | 0 (DESIGN CHOICE, log 8) -/
  saved : Bool := false
  deriving DecidableEq, Repr

/-- An output buffer of a compression unit (R403, R406). -/
structure CxBuf where
  /-- descriptor number, 0 to 63 -/
  num : Nat
  /-- queue -/
  q : Nat
  /-- KIND -/
  kind : Nat
  /-- READY -/
  ready : Bool
  /-- CONT_IN -/
  contIn : Bool
  /-- MORE_OUT -/
  moreOut : Bool
  /-- POISON -/
  poison : Bool
  /-- CAL, RESYNC, LOSS in bits 0 to 2, as in a frame descriptor -/
  flags : BitVec 8
  /-- EPOCH and TIME_BASE -/
  base : Stamp
  /-- LAST_OFF -/
  lastOff : Nat
  /-- RECORDS -/
  records : Nat
  /-- bytes written -/
  bytes : List Byte
  /-- moment at which its first byte has waited the packet-close time, in 25 ns units (R21, R403) -/
  closes : Nat
  deriving DecidableEq, Repr

/-- The frame whose index is being made in a FRAME-mode queue (R408, R409). -/
structure CxIndex where
  /-- FRAME_LO of the frame in hand -/
  frame : Option Nat := none
  /-- its boundary tick -/
  base : Stamp := 0
  /-- bytes of its compression blocks so far -/
  total : Nat := 0
  /-- OFFSET of each block that has an entry -/
  offsets : Table (Option Nat) := []
  /-- blocks handled -/
  handled : List Nat := []
  deriving DecidableEq, Repr

/-- A compressing queue's state in its unit (chapter 09). -/
structure CxQueue where
  /-- configuration in force: mode, unit, predictor, index enable | 32 | 09 R420 | none: default of R420 -/
  conf : Option (Nat × Nat × Nat × Nat) := none
  /-- a configuration waiting: value, first tick at which it may act | - | 09 R419 | none (DESIGN CHOICE, log 15) -/
  pending : Option ((Nat × Nat × Nat × Nat) × Stamp) := none
  /-- FRAME_LO of the last FRAME unit handled | 16 | 09 R419 | none (DESIGN CHOICE, log 15) -/
  lastFrame : Option Nat := none
  /-- index in the making | - | 09 R408 | none (DESIGN CHOICE, log 15) -/
  index : CxIndex := {}
  /-- bytes in and bytes out beyond whole KiB | 2 x 10 | 09 R421 | 0 (DESIGN CHOICE, log 15) -/
  part : Nat × Nat := (0, 0)
  /-- CX_STATS counts, by place in the result | 14 x 32 | 09 R421 | 0 (DESIGN CHOICE, log 15) -/
  stats : Table Nat := []
  /-- CX_STATS saturation bits | 32 | 09 R421 | 0 (DESIGN CHOICE, log 15) -/
  statSat : Nat := 0
  deriving DecidableEq, Repr

/-- The compression engine (chapter 09). -/
structure CxState where
  /-- buffers in use by each unit, oldest first | 2 x 64 x 8,192 bytes | 09 R403 | none: all free (DESIGN CHOICE, log 15) -/
  bufs : Table (List CxBuf) := []
  /-- queues | - | 09 R393 | as each field -/
  q : Table CxQueue := []
  /-- coding of FRAME-mode queues is deferred | 1 | 09 R418 | 0 (DESIGN CHOICE, log 15) -/
  deferred : Bool := false
  /-- PD_25 is running in EASY | 1 | 09 R417 | 0 (DESIGN CHOICE, log 15) -/
  awake : Bool := false
  /-- work of the last second of each unit, newest first: time in 25 ns units, samples, output bytes | - | 09 R421 | none (DESIGN CHOICE, log 15) -/
  work : Table (List (Nat × Nat × Nat)) := []
  /-- moment of each unit's last work or wake, in 25 ns units | 2 x 48 | 09 R417 | 0 (DESIGN CHOICE, log 15) -/
  workAt : Table Nat := []
  /-- moment from which each unit may take its next frame, in half cycles of 1.1 GHz (55 to 25 ns) | 2 x 54 | 09 R416 | 0 (DESIGN CHOICE, log 15) -/
  freeAt : Table Nat := []
  /-- moment from which each unit has had no free buffer, in 25 ns units, until EV_389 is raised for it | 2 x 48 | 09 R407, R423 | none (DESIGN CHOICE, log 15) -/
  fullAt : Table (Option Nat) := []
  /-- time at which the deferral began, in 25 ns units | - | 09 R421 | 0 (DESIGN CHOICE, log 15) -/
  deferAt : Nat := 0
  deriving DecidableEq, Repr

/-- Lane states of R430, as LK_LANE_STATUS numbers them (R474). -/
inductive LaneState where
  | disabled | detect | rate | fec | group | align | map | running | test | eth | txOff
  deriving DecidableEq, Repr

/-- A 66-bit block on a lane: control or data, and its 64 bits, first bit lowest (R428). -/
structure WireBlock where
  /-- sync header 0b10: a control block -/
  ctrl : Bool
  /-- bits after the sync header -/
  bits : BitVec 64
  deriving DecidableEq, Repr

/-- A lane LN_n (R424 to R437, R459 to R461). -/
structure Lane where
  /-- state | 4 | 10 R430, R474 | DISABLED (DESIGN CHOICE, log 10) -/
  state : LaneState := .disabled
  /-- candidate or running rate code | 2 | 10 R430 | 0 (DESIGN CHOICE, log 10) -/
  rate : Nat := 0
  /-- time at which it entered its state, in 25 ns units | - | 10 R430 | 0 (DESIGN CHOICE, log 10) -/
  since : Nat := 0
  /-- top rate of the lane when a width choice left it out (R432) | 2 | 10 R432 | none (DESIGN CHOICE, log 10) -/
  top : Option Nat := none
  /-- block lock | 1 | 10 R428 | 0 (DESIGN CHOICE, log 10) -/
  lock : Bool := false
  /-- TYPE and VALUE of the last NEG set received, and how many identical ones in a row | - | 10 R430 | none (DESIGN CHOICE, log 10) -/
  neg : Nat × Nat × Nat := (0, 0, 0)
  /-- FEC settled on this lane | 1 | 10 R431 | 0 (DESIGN CHOICE, log 10) -/
  fecOn : Bool := false
  /-- READY sent | 1 | 10 R430 | 0 (DESIGN CHOICE, log 10) -/
  ready : Bool := false
  /-- the last RATE_ACK sent on it: accept or refuse | 1 | 10 R437 | none (DESIGN CHOICE, log 10) -/
  ack : Option Bool := none
  /-- logical lane | 2 | 10 R432 | 0 (DESIGN CHOICE, log 10) -/
  logical : Nat := 0
  /-- markers received in a row in ALIGN, and the count of the last one | - | 10 R434, R435 | 0 (DESIGN CHOICE, log 10) -/
  markers : Nat × Nat := (0, 0)
  /-- skew in 0.1 ns | 16 | 10 R474 | 0 (DESIGN CHOICE, log 10) -/
  skew : Int := 0
  /-- consecutive markers missed | - | 10 R436 | 0 (DESIGN CHOICE, log 10) -/
  missed : Nat := 0
  /-- times of uncorrectable codewords within the last ms, in 25 ns units | - | 10 R436 | none (DESIGN CHOICE, log 10) -/
  bad : List Nat := []
  /-- corrected codewords, uncorrectable codewords, lock losses | 3 x 32 | 10 R474 | 0 (DESIGN CHOICE, log 10) -/
  counts : Table Nat := []
  /-- PRBS pattern 0 to 4 and invert, in TEST | 3 + 1 | 10 R459 | off (DESIGN CHOICE, log 10) -/
  prbs : Nat × Bool := (0, false)
  /-- PRBS checker lock | 1 | 10 R460 | 0 (DESIGN CHOICE, log 10) -/
  prbsLock : Bool := false
  /-- PRBS bits compared, bit errors, lock losses | 64 + 32 + 32 | 10 R460, R474 | 0 (DESIGN CHOICE, log 10) -/
  prbsCount : Nat × Nat × Nat := (0, 0, 0)
  /-- time up to which the PRBS counts go while locked, in 25 ns units | - | 10 R460 | 0 (DESIGN CHOICE, log 10) -/
  prbsAt : Nat := 0
  /-- error injection: rate exponent in force, and bits inverted by SINGLE and BURST | - | 10 R461 | none (DESIGN CHOICE, log 10) -/
  inject : Option Nat × Nat := (none, 0)
  deriving DecidableEq, Repr

/-- A packet kept in a repechage window (R453). -/
structure SentPacket where
  /-- class -/
  cls : Nat
  /-- stream -/
  stream : Nat
  /-- SEQ -/
  seq : Nat
  /-- header, payload, padding and CRC -/
  bytes : List Byte
  deriving DecidableEq, Repr

/-- A packet offered on the transmit balls of a group, newest first in `sent`. -/
structure WirePacket where
  /-- header, payload, padding and CRC -/
  bytes : List Byte
  /-- it was cut by an error block (R436, R458) -/
  cut : Bool := false
  /-- in Ethernet mode, the frame that carries it, from its preamble to its FCS (R463) -/
  frame : List Byte := []
  deriving DecidableEq, Repr

/-- Who asked for a rate change (R437, R513, R527). -/
inductive RateBy where
  /-- LK_RATE_SET in a mailbox -/
  | call (mb : Nat)
  /-- a change of the module state -/
  | state
  /-- step 2 of the governor lowers -/
  | lower
  /-- step 2 of the governor restores -/
  | restore
  deriving DecidableEq, Repr

/-- A lane group LG_n (R432 to R474). -/
structure LaneGroup where
  /-- lanes in use, bit k for lane 4n + k | 4 | 10 R432 | 0 (R439) -/
  lanes : BitVec 4 := 0
  /-- width in use: 0, 1, 2, 4 | 3 | 10 R432, R439 | 0 (R439) -/
  width : Nat := 0
  /-- rate code in use | 2 | 10 R439 | 0 (R439) -/
  rate : Nat := 0
  /-- lanes and rate code that R432 has fixed, until the partner's GROUP agrees | - | 10 R430, R432 | none (DESIGN CHOICE, log 10) -/
  fixed : Option (List Nat × Nat) := none
  /-- RUNNING | 1 | 10 R439 | 0 (R439) -/
  running : Bool := false
  /-- class mask in force | 4 | 10 R430, R474 | 0 (DESIGN CHOICE, log 10) -/
  classes : BitVec 4 := 0
  /-- class mask proposed in MAP | 4 | 10 R430 | 0 (DESIGN CHOICE, log 10) -/
  proposed : BitVec 4 := 0
  /-- rate to which step 2 of the governor has lowered it | 2 | 10 R705, 12 R527 | none (DESIGN CHOICE, log 10) -/
  cap : Option Nat := none
  /-- a RATE_REQ is outstanding: code asked for, and who asked | - | 10 R437 | none (DESIGN CHOICE, log 10) -/
  rateReq : Option (Nat × RateBy) := none
  /-- time of the RATE_REQ, in 25 ns units | - | 10 R437 | 0 (DESIGN CHOICE, log 10) -/
  reqAt : Nat := 0
  /-- index of the next block of its stream | - | 10 R433 | 0 (DESIGN CHOICE, log 10) -/
  pos : Nat := 0
  /-- blocks since the last idle block | 11 | 10 R427 | 0 (DESIGN CHOICE, log 10) -/
  sinceIdle : Nat := 0
  /-- blocks of packets, markers and idle compensation sent, newest first, each with its logical lane | - | 10 R428, R433 | none (DESIGN CHOICE, log 10) -/
  wire : List (Nat × WireBlock) := []
  /-- how many of them, the newest, are the packet sent last | - | 10 R436, R449 | 0 (DESIGN CHOICE, log 10) -/
  lastLen : Nat := 0
  /-- time of the last marker, in 25 ns units | - | 10 R434 | 0 (DESIGN CHOICE, log 10) -/
  markerAt : Nat := 0
  /-- time of the last TAIL, in 25 ns units | - | 10 R456 | 0 (DESIGN CHOICE, log 10) -/
  tailAt : Nat := 0
  /-- marker count | 8 | 10 R434 | 0 (DESIGN CHOICE, log 10) -/
  marker : Nat := 0
  /-- repechage window, oldest first, at most 2 MiB | 2 MiB | 10 R453 | empty (R453: cleared at power-on reset) -/
  window : List SentPacket := []
  /-- resends asked for and not yet sent: stream and SEQ, in order | - | 10 R455 | none (DESIGN CHOICE, log 10) -/
  resend : List (Nat × Nat) := []
  /-- entries waiting because this group, which sent them, is not RUNNING, with the group the NAK came on and its time | - | 10 R455 | none (DESIGN CHOICE, log 10) -/
  nakWait : List (Nat × Nat × Nat × Nat) := []
  /-- answers and link packets to send: class, stream, kind, payload | - | 10 R445, R455, R456 | none (DESIGN CHOICE, log 10) -/
  out : List (Nat × Nat × Nat × List Byte) := []
  /-- streams that sent since the last TAIL, with their last SEQ | - | 10 R456 | none (DESIGN CHOICE, log 10) -/
  tail : Table (Option Nat) := []
  /-- packets sent, newest first | - | 10 R440 | none (DESIGN CHOICE, log 10) -/
  sent : List WirePacket := []
  /-- deficit of each queue in the round robin, in bytes | 16 x 32 | 10 R450 | 0 (DESIGN CHOICE, log 10) -/
  deficit : Table Int := []
  /-- next queue of the round robin | 4 | 10 R450 | 0 (DESIGN CHOICE, log 10) -/
  turn : Nat := 0
  /-- TC3 token bucket, in bytes | 15 | 10 R451 | 16 KiB (DESIGN CHOICE, log 10) -/
  tokens : Nat := 16384
  /-- time up to which the bucket has been filled, in 25 ns units | - | 10 R451 | 0 (DESIGN CHOICE, log 10) -/
  tokenAt : Nat := 0
  /-- ARP: destination MAC once resolved | 48 | 10 R465 | none (DESIGN CHOICE, log 10) -/
  mac : Option (BitVec 48) := none
  /-- PAUSE in force: quanta | 16 | 10 R466 | 0 (DESIGN CHOICE, log 10) -/
  pause : Nat := 0
  /-- time at which the pause began, in 25 ns units | - | 10 R466 | 0 (DESIGN CHOICE, log 10) -/
  pauseAt : Nat := 0
  /-- time of the last ARP request, in 25 ns units | - | 10 R465 | 0 (DESIGN CHOICE, log 10) -/
  arpAt : Nat := 0
  /-- time since which the destination has not been resolved, in 25 ns units | - | 10 R465 | 0 (DESIGN CHOICE, log 10) -/
  lostAt : Nat := 0
  /-- Ethernet frames out, in, discarded, pauses | 4 x 32 | 10 R474 | 0 (DESIGN CHOICE, log 10) -/
  eth : Table Nat := []
  /-- ARP frames sent, newest first | - | 10 R465 | none (DESIGN CHOICE, log 10) -/
  arp : List (List Byte) := []
  /-- payload bytes sent in the last second, with their time in 25 ns units, newest first | 32 | 10 R474 | none (DESIGN CHOICE, log 10) -/
  rateBytes : List (Nat × Nat) := []
  /-- LK_STATS counts, by place in the result | 9 x 32 | 10 R474 | 0 (DESIGN CHOICE, log 10) -/
  stats : Table Nat := []
  /-- LK_STATS saturation bits | 32 | 10 R474 | 0 (DESIGN CHOICE, log 10) -/
  statSat : Nat := 0
  deriving DecidableEq, Repr

/-- A side link SL_n (R469 to R472). -/
structure SideLink where
  /-- 0 OFF, 1 DETECT, 2 LOCK, 3 HELLO, 4 UP | 3 | 10 R474 | OFF (DESIGN CHOICE, log 10) -/
  state : Nat := 0
  /-- last HELLO value received and how many identical ones in a row | 16 | 10 R469 | none (DESIGN CHOICE, log 10) -/
  hello : Nat × Nat := (0, 0)
  /-- the partner was refused | 1 | 10 R470 | 0 (DESIGN CHOICE, log 10) -/
  refused : Bool := false
  /-- time of the last HELLO sent, in 25 ns units | - | 10 R470 | 0 (DESIGN CHOICE, log 10) -/
  helloAt : Nat := 0
  /-- time of the last HELLO received, in 25 ns units | - | 10 R470 | 0 (DESIGN CHOICE, log 10) -/
  heardAt : Nat := 0
  /-- packets sent, newest first: class, kind, and header, payload, padding and CRC | - | 10 R471 | none (DESIGN CHOICE, log 10) -/
  sent : List (Nat × Nat × List Byte) := []
  /-- sequence counters of its streams | 32 x 16 | 10 R441, R471 | 0 (DESIGN CHOICE, log 10) -/
  seq : Table Nat := []
  /-- blocks of packets and HELLO sets sent, newest first | - | 10 R469, R471 | none (DESIGN CHOICE, log 10) -/
  wire : List WireBlock := []
  /-- how many of them, the newest, are the packet sent last | - | 10 R471 | 0 (DESIGN CHOICE, log 10) -/
  lastLen : Nat := 0
  /-- packets out, packets in, CRC errors, HELLO losses | 4 x 32 | 10 R474 | 0 (DESIGN CHOICE, log 10) -/
  counts : Table Nat := []
  /-- packets waiting, TC1 before TC2: class, kind, payload | - | 10 R471 | none (DESIGN CHOICE, log 10) -/
  out : List (Nat × Nat × List Byte) := []
  deriving DecidableEq, Repr

/-- The output links and side links (chapter 10). -/
structure LkState where
  /-- lanes LN_0 to LN_15 | - | 10 R424 | as each field of a lane -/
  lane : Table Lane := []
  /-- lane groups LG_0 to LG_3 | - | 10 R424 | as each field of a group -/
  group : Table LaneGroup := []
  /-- side links SL_0 to SL_3 | - | 10 R469 | as each field of a side link -/
  side : Table SideLink := []
  /-- per-stream sequence counters | 32 x 16 | 10 R444 | 0 (R444) -/
  seq : Table Nat := []
  deriving DecidableEq, Repr

/-- FREQ_STATE (R479). -/
inductive FreqState where
  | freerun | acquiring | locked | holdover
  deriving DecidableEq, Repr

/-- TIME_STATE field (R479). -/
inductive TimeState where
  | unsync | acquiring | sync | holdover | coarse
  deriving DecidableEq, Repr

/-- A frequency source's presence monitor (R481, R482). -/
structure FreqSource where
  /-- present | 1 | 11 R481 | 0 (R479) -/
  present : Bool := false
  /-- consecutive good windows | 2 | 11 R481 | 0 (DESIGN CHOICE, log 16) -/
  good : Nat := 0
  /-- end of its last window, in 25 ns units | - | 11 R481 | 0 (DESIGN CHOICE, log 16) -/
  winAt : Nat := 0
  deriving DecidableEq, Repr

/-- A time exchange in progress (R491, R492). -/
structure Exchange where
  /-- lane group -/
  group : Nat
  /-- SEQ -/
  seq : Nat
  /-- t1 where known -/
  t1 : Option FineTime
  /-- t2 -/
  t2 : FineTime
  /-- moment of t2, in 25 ns units -/
  opened : Nat
  /-- t3 once the request has been sent -/
  t3 : Option FineTime
  /-- t4 where known -/
  t4 : Option FineTime
  /-- correction of the PTP messages in 1/65,536 ns, master to module and back -/
  corr : Int × Int
  deriving DecidableEq, Repr

/-- A master heard (R491, R493). -/
structure Master where
  /-- MASTER_ID; for PTP the grandmaster dataset in order of comparison -/
  id : Nat
  /-- sender of its messages: MASTER_ID, or the PTP port identity -/
  sender : Nat
  /-- moment of its last announcement, in 25 ns units -/
  heardAt : Nat
  deriving DecidableEq, Repr

/-- A pending step (R489, R703). -/
structure Step489 where
  /-- step edge -/
  edge : Stamp
  /-- value set at it -/
  value : Stamp
  /-- it is a TIME_SET -/
  byCall : Bool
  deriving DecidableEq, Repr

/-- A frequency gate (R507, R508). -/
structure FreqGate where
  /-- job number -/
  job : Nat
  /-- tick at which it opens -/
  start : Stamp
  /-- gate in ms -/
  ms : Nat
  /-- gates back to back -/
  continuous : Bool
  /-- stamps: edge index, fine units since the tick scale's origin, oldest first -/
  stamps : List (Nat × Int)
  /-- edges counted in the gate -/
  edges : Nat
  /-- sum and count of y for STEER -/
  steer : Int × Nat
  deriving DecidableEq, Repr

/-- A time-interval input TI_n (R502 to R508). -/
structure TiInput where
  /-- 64-bit edge counter | 64 | 11 R503 | 0 (DESIGN CHOICE, log 16) -/
  edges : Nat := 0
  /-- stamp of the last stamped edge | 61 | 11 R503 | none (DESIGN CHOICE, log 16) -/
  last : Option FineTime := none
  /-- capture FIFO, oldest first, 4,096: edge index, stamp | 4,096 x 64 | 11 R504 | empty (DESIGN CHOICE, log 16) -/
  fifo : List (Nat × FineTime) := []
  /-- time of the last EV_466, in 25 ns units | - | 11 R503 | none (DESIGN CHOICE, log 16) -/
  missEv : Option Nat := none
  /-- running gate | - | 11 R507 | none (DESIGN CHOICE, log 16) -/
  gate : Option FreqGate := none
  /-- results, newest first, 16 records of 48 bytes | 16 x 384 | 11 R508 | empty (DESIGN CHOICE, log 16) -/
  results : List (List Byte) := []
  deriving DecidableEq, Repr

/-- A split channel SP_n (R505, R506). -/
structure SplitChan where
  /-- start input, stop input, enable, MIN_SPLIT in ps, MAX_SPLIT in ns | - | 11 R505 | 0 disabled (DESIGN CHOICE, log 16) -/
  conf : Nat × Nat × Bool × Nat × Nat := (0, 0, false, 0, 1)
  /-- waiting start | 61 | 11 R505 | none (DESIGN CHOICE, log 16) -/
  start : Option FineTime := none
  /-- a step edge has passed since the waiting start | 1 | 11 R506 | 0 (DESIGN CHOICE, log 16) -/
  spans : Bool := false
  /-- count, sum, sum of squares in fine units | 32 + 128 + 128 | 11 R506 | 0 (DESIGN CHOICE, log 16) -/
  acc : Nat × Int × Int := (0, 0, 0)
  /-- minimum and maximum in fine units | 2 x 64 | 11 R506 | none (DESIGN CHOICE, log 16) -/
  range : Option (Int × Int) := none
  /-- last 1,024 splits, newest first | 1,024 x 64 | 11 R506 | empty (DESIGN CHOICE, log 16) -/
  last : List Int := []
  /-- unpaired, discarded | 2 x 32 | 11 R506 | 0 (DESIGN CHOICE, log 16) -/
  counts : Nat × Nat := (0, 0)
  deriving DecidableEq, Repr

/-- The time core and the interval inputs (chapter 11). -/
structure TcState where
  /-- epoch and tick count, the value its replicas agree on | 64 | 11 R476 | 0 (DESIGN CHOICE, log 16) -/
  now : Stamp := 0
  /-- the strobe runs | 1 | 01 R26, 11 R499 | 0 (R80) -/
  strobe : Bool := false
  /-- steering y in 1e-12 | 41 | 11 R478 | 0 (R485) -/
  y : Int := 0
  /-- y over the last 1.01 s, newest first, with its time in 25 ns units: what the holdover value is taken from | - | 11 R484 | none (DESIGN CHOICE, log 16) -/
  yHist : List (Nat × Int) := []
  /-- the part of y that steers a phase out, in 1e-12 | 41 | 11 R488 | 0 (DESIGN CHOICE, log 16) -/
  yPhase : Int := 0
  /-- moment of the frequency loop's last check, in 25 ns units | - | 11 R485 | 0 (DESIGN CHOICE, log 16) -/
  loopAt : Nat := 0
  /-- moment from which each source by code has been usable without a break, in 25 ns units | 4 x 48 | 11 R484 | none (DESIGN CHOICE, log 16) -/
  usable : Table (Option Nat) := []
  /-- moment from which OCXO_IN has been present with OCXO_RDY high without a break, in 25 ns units | 48 | 11 R482 | none (DESIGN CHOICE, log 16) -/
  ocxoSince : Option Nat := none
  /-- FREQ_SRC | 3 | 11 R479 | 0 (R479) -/
  freqSrc : Nat := 0
  /-- FREQ_STATE | 2 | 11 R479 | FREERUN (R479) -/
  freqState : FreqState := .freerun
  /-- some source has been usable since power-on reset | 1 | 11 R485 | 0 (DESIGN CHOICE, log 16) -/
  everUsable : Bool := false
  /-- TIME_STATE | 3 | 11 R479 | UNSYNC (R479) -/
  timeState : TimeState := .unsync
  /-- end of the 1 s for which TMR_FAULT is set, in 25 ns units: TMR_FAULT is set before it | 1 | 11 R477, R479 | 0: TMR_FAULT reads 0 (R479) -/
  tmrUntil : Nat := 0
  /-- sources REF_IN, OCXO_IN, LN0_RX by code 1 to 3 | - | 11 R481 | as each field -/
  src : Table FreqSource := []
  /-- OCXO_RDY after filtering | 1 | 11 R479 | 0 (R479) -/
  ocxoRdy : Bool := false
  /-- OCXO_IN has passed WARM_HOLD | 1 | 11 R482 | 0 (DESIGN CHOICE, log 16) -/
  ocxoWarm : Bool := false
  /-- PPS_PRESENT | 1 | 11 R479 | 0 (R479) -/
  ppsPresent : Bool := false
  /-- a measurement has been taken in the present ACQUIRING or COARSE | 1 | 11 R495, R499 | 0 (DESIGN CHOICE, log 16) -/
  heard : Bool := false
  /-- consecutive offsets within SYNC_THR, and consecutive offsets beyond STEP_THR in SYNC | - | 11 R486 | 0 (DESIGN CHOICE, log 16) -/
  runs : Nat × Nat := (0, 0)
  /-- last theta in ps, last D in ps | 32 + 32 | 11 R511 | 0 (DESIGN CHOICE, log 16) -/
  theta : Int × Nat := (0, 0)
  /-- phase still to be steered out, in ps | - | 11 R488 | 0 (DESIGN CHOICE, log 16) -/
  steerPs : Int := 0
  /-- moment up to which it has been steered out, in 25 ns units | - | 11 R488 | 0 (DESIGN CHOICE, log 16) -/
  steerAt : Nat := 0
  /-- time of the last valid measurement, in 25 ns units | - | 11 R511 | none (R511) -/
  lastValid : Option Nat := none
  /-- moment of the last accepted PPS_IN edge, in 25 ns units | - | 11 R495 | 0 (DESIGN CHOICE, log 16) -/
  ppsAt : Nat := 0
  /-- LOG_INTERVAL of the last SYNC of the followed master | 8 | 11 R486, R490 | 0 (DESIGN CHOICE, log 16) -/
  logInt : Int := 0
  /-- the master followed last | 32 | 11 R491 | none (DESIGN CHOICE, log 16) -/
  former : Option Master := none
  /-- followed master: identity, group | 32 | 11 R491 | none (DESIGN CHOICE, log 16) -/
  master : Option Master := none
  /-- masters heard within 3 s | - | 11 R491 | none (DESIGN CHOICE, log 16) -/
  masters : List Master := []
  /-- exchanges in progress | - | 11 R492 | none (DESIGN CHOICE, log 16) -/
  exch : List Exchange := []
  /-- a DELAY_REQ has been sent within the last 15.625 ms: time in 25 ns units | - | 11 R491 | none (DESIGN CHOICE, log 16) -/
  lastReq : Option Nat := none
  /-- PTP Delay_Req messages sent, newest first: lane group and Ethernet frame | - | 11 R493 | none (DESIGN CHOICE, log 16) -/
  ptpReq : List (Nat × List Byte) := []
  /-- pending step | - | 11 R489, R703 | none (DESIGN CHOICE, log 16) -/
  step : Option Step489 := none
  /-- TIME_SET with TIME_SRC none: RESYNC set from acceptance through the step edge | 1 | 11 R501 | 0 (DESIGN CHOICE, log 16) -/
  setting : Bool := false
  /-- tick and elapsed time latched at HOLD entry | 64 | 11 R498 | none (DESIGN CHOICE, log 16) -/
  holdAt : Option (Stamp × Nat) := none
  /-- 32.768 kHz cycles of this HOLD by which a wake timer has fired | - | 11 R498, 12 R521 | 0 (DESIGN CHOICE, log 16) -/
  holdMin : Nat := 0
  /-- ratio R of ticks per 32.768 kHz cycle, in units of 1e-9 | - | 11 R498 | 1220.703125 (R498, nominal) -/
  ratio : Nat := 1220703125000
  /-- length of the last HOLD in ms, while COARSE | - | 11 R500 | 0 (DESIGN CHOICE, log 16) -/
  holdMs : Nat := 0
  /-- PPS_OUT level | 1 | 11 R496 | 0 (DESIGN CHOICE, log 16) -/
  ppsOut : Bool := false
  /-- inputs TI_0 to TI_3 | - | 11 R502 | as each field -/
  ti : Table TiInput := []
  /-- split channels SP_0 to SP_3 | - | 11 R505 | as each field -/
  split : Table SplitChan := []
  /-- TIME_STATS counts, by place in the result | 7 x 32 | 11 R511 | 0 (DESIGN CHOICE, log 16) -/
  stats : Table Nat := []
  /-- TIME_STATS saturation bits | 32 | 11 R511 | 0 (DESIGN CHOICE, log 16) -/
  statSat : Nat := 0
  deriving DecidableEq, Repr

/-- A change of power state in progress (R515 to R519). -/
structure Change where
  /-- target, as POWER_STATE numbers it, 1 to 4 -/
  target : Nat
  /-- cause: 0 call, 1 AUTO, 2 timer, 3 thermal, 4 wake source -/
  cause : Nat
  /-- mailbox that waits for the answer -/
  mb : Option Nat
  /-- state before the request, for the answer -/
  prev : Nat
  /-- 0 between EASY, PADDLE and DRIVE; 1 HOLD entry decided; 2 queues saved; 3 leaving HOLD; 4 memories restored -/
  phase : Nat
  /-- time it began, in 25 ns units -/
  began : Nat
  /-- source and timer of a wake (EV_033) -/
  wake : Nat × Nat := (0, 0xFF)
  /-- a target above EASY that a wake timer asked for, to follow once EASY is entered -/
  follow : Option Nat := none
  /-- RST_N asked for it: a warm reset follows once the strobe runs -/
  warm : Bool := false
  deriving DecidableEq, Repr

/-- Power states, the rate governor and the thermal scanner (chapter 12). -/
structure PwState where
  /-- change of state in progress | - | 12 R515 | none (DESIGN CHOICE, log 17) -/
  change : Option Change := none
  /-- cause of the last change | 3 | 12 R538 | 0 (DESIGN CHOICE, log 17) -/
  lastCause : Nat := 0
  /-- measurements of P in 0.01 W, newest first, at most 10,000 | 10,000 x 16 | 12 R523 | none (DESIGN CHOICE, log 17) -/
  samples : List Nat := []
  /-- moment of the latest measurement, in 25 ns units | - | 12 R523 | 0 (DESIGN CHOICE, log 17) -/
  evalAt : Nat := 0
  /-- tick of the latest governor evaluation | 64 | 12 R526 | 0 (DESIGN CHOICE, log 17) -/
  evalTick : Stamp := 0
  /-- engaged steps, bit k - 1 for step k | 3 | 12 R524 | 0 (DESIGN CHOICE, log 17) -/
  steps : BitVec 3 := 0
  /-- time step 3 engaged, in 25 ns units | - | 12 R529 | 0 (DESIGN CHOICE, log 17) -/
  step3At : Nat := 0
  /-- EV_038 has been raised in this engagement | 1 | 12 R529 | 0 (DESIGN CHOICE, log 17) -/
  unreachable : Bool := false
  /-- queues whose loss policy step 3 forces | 16 | 12 R528 | 0 (DESIGN CHOICE, log 17) -/
  forced : BitVec 16 := 0
  /-- codes lowered by step 2 and not yet restored: group of each, newest first | - | 12 R527 | none (DESIGN CHOICE, log 17) -/
  lowered : List Nat := []
  /-- groups passed over after a refused lowering | 4 | 12 R527 | 0 (DESIGN CHOICE, log 17) -/
  refused : BitVec 4 := 0
  /-- groups whose restore was refused, and waits a second | 4 | 12 R527 | 0 (DESIGN CHOICE, log 17) -/
  retry : BitVec 4 := 0
  /-- moment from which the 10 ms to step 2's next action count, in 25 ns units | - | 12 R527 | 0 (DESIGN CHOICE, log 17) -/
  step2At : Nat := 0
  /-- moment of the latest refusal of each group's restore, in 25 ns units | 4 | 12 R527 | 0 (DESIGN CHOICE, log 17) -/
  retryAt : Table Nat := []
  /-- throttle is in force, with the periods of 10 ms of it that have passed | 1 + 2 | 12 R533 | none (DESIGN CHOICE, log 17) -/
  throttle : Option Nat := none
  /-- moment at which throttling began, in 25 ns units | - | 12 R533 | 0 (DESIGN CHOICE, log 17) -/
  throttleAt : Nat := 0
  /-- time since which T_hot has stayed below 93 C | - | 12 R533 | none (DESIGN CHOICE, log 17) -/
  coolSince : Option Nat := none
  /-- moment of the latest scan, in 25 ns units | - | 12 R530 | 0 (DESIGN CHOICE, log 17) -/
  scanAt : Nat := 0
  /-- moment at which a wake's firmware ran and polls began again, in 25 ns units | - | 16 R650 | none (DESIGN CHOICE, log 17) -/
  wokeAt : Option Nat := none
  /-- die sensor readings in 0.1 C | 24 x 16 | 12 R530 | 0 (DESIGN CHOICE, log 17) -/
  temp : Table Int := []
  /-- faulted sensors | 24 | 12 R536 | 0 (DESIGN CHOICE, log 17) -/
  faulted : BitVec 24 := 0
  /-- consecutive readings at 110 C or more of each sensor | 24 x 2 | 12 R531 | 0 (DESIGN CHOICE, log 17) -/
  hot : Table Nat := []
  /-- the warning is in force | 1 | 12 R531 | 0 (DESIGN CHOICE, log 17) -/
  warning : Bool := false
  /-- thermal latch | 1 | 12 R535 | 0 (DESIGN CHOICE, log 17) -/
  latch : Bool := false
  /-- time since which every valid sensor has read below 85 C | - | 12 R535 | none (DESIGN CHOICE, log 17) -/
  below85 : Option Nat := none
  /-- wake timers: target state and tick | 4 x 67 | 12 R521 | none (R521: cleared by power-on reset) -/
  wake : Table (Option (Nat × Stamp)) := []
  /-- consecutive 1 ms windows above RATE_UP, and below RATE_DOWN | 2 x 16 | 12 R522 | 0 (DESIGN CHOICE, log 17) -/
  autoRuns : Nat × Nat := (0, 0)
  /-- moment at which AUTO's present 1 ms window began, in 25 ns units | - | 12 R522 | 0 (DESIGN CHOICE, log 17) -/
  winAt : Nat := 0
  /-- hits into the cluster engines in AUTO's present window | - | 12 R522 | 0 (DESIGN CHOICE, log 17) -/
  winHits : Nat := 0
  /-- cluster engines gated after 1 ms idle | 16 | 12 R513 | 0 (DESIGN CHOICE, log 17) -/
  enginesGated : BitVec 16 := 0
  /-- time up to which the times of PW_STATS go, in 25 ns units | - | 12 R538 | 0 (DESIGN CHOICE, log 17) -/
  since : Nat := 0
  /-- time spent in HOLD, EASY, PADDLE, DRIVE and with step 3 engaged, in 25 ns units | 5 | 12 R538 | 0 (DESIGN CHOICE, log 17) -/
  dwell : Table Nat := []
  /-- PW_STATS counts, by place in the result: wakes 4, engagements of steps 1, 2, 3 at 5 to 7, throttle entries 9, shutdowns 10 | 6 x 32 | 12 R538 | 0 (DESIGN CHOICE, log 17) -/
  stats : Table Nat := []
  /-- PW_STATS saturation bits | 32 | 12 R538 | 0 (DESIGN CHOICE, log 17) -/
  statSat : Nat := 0
  deriving DecidableEq, Repr

/-- What the slow-control converter converts for (R550, R551). -/
inductive ConvFor where
  /-- the regular sequence -/
  | regular
  /-- a host injected request, by number -/
  | host (req : Nat)
  /-- a safety-partition request -/
  | safety
  deriving DecidableEq, Repr

/-- A conversion in progress (R545). -/
structure Conv where
  /-- channel -/
  ch : Nat
  /-- for whom -/
  why : ConvFor
  /-- tick at which it began -/
  start : Stamp
  /-- time at which it began, in 25 ns units -/
  begun : Nat
  /-- SETTLE is skipped -/
  skip : Bool
  deriving DecidableEq, Repr

/-- An injected host request (R551, R567). -/
structure InjReq where
  /-- request number -/
  num : Nat
  /-- channel -/
  ch : Nat
  /-- 0 queued, 1 running, 2 done -/
  state : Nat
  /-- result record -/
  result : List Byte
  deriving DecidableEq, Repr

/-- A calibration accepted (R552, R553). -/
structure CalJob where
  /-- gains still to do, k for G = 2^k, the first in hand -/
  gains : List Nat
  /-- job number, none for automatic -/
  job : Option Nat
  /-- host requests it waits for, by number -/
  waits : List Nat
  /-- its first step has begun -/
  begun : Bool
  deriving DecidableEq, Repr

/-- A measurement channel MC_n as it runs (R546 to R563). -/
structure ScChannel where
  /-- latest result record | 128 | 13 R548, R549 | zero with UNCAL set (R549) -/
  result : List Byte := [0x20, 0, 0, 0]
  /-- BREAK | 1 | 13 R558 | 0 (R549) -/
  brk : Bool := false
  /-- failing pin | 8 | 13 R566 | 0xFF (R566 none) -/
  pin : Nat := 0xFF
  /-- consecutive conversions with every pin inside while BREAK is set | 2 | 13 R558 | 0 (DESIGN CHOICE, log 18) -/
  inside : Nat := 0
  /-- EXC_FAULT of its source | 1 | 13 R559 | 0 (R549) -/
  excFault : Bool := false
  /-- monitor class | 8 | 13 R559 | 0xFF never checked (R566) -/
  cls : Nat := 0xFF
  /-- gain code in use, none the configured one | 3 | 13 R546 | none (DESIGN CHOICE, log 18) -/
  gain : Option Nat := none
  /-- lead resistance in mOhm | 32 | 13 R555 | 0 (DESIGN CHOICE, log 18) -/
  lead : Nat := 0
  /-- excitation current in nA | 32 | 13 R554 | 0 (DESIGN CHOICE, log 18) -/
  exc : Nat := 0
  /-- conversions | 32 | 13 R566 | 0 (DESIGN CHOICE, log 18) -/
  conversions : Nat := 0
  /-- a limit has been raised and the channel has not yet been inside for two conversions | 1 + 2 | 13 R563 | 0 (DESIGN CHOICE, log 18) -/
  limited : Option Nat := none
  deriving DecidableEq, Repr

/-- Slow control (chapter 13). -/
structure ScState where
  /-- PD_32 converts: powered since boot step 8 or the wake | 1 | 12 R513, 13 R560 | 0 (DESIGN CHOICE, log 18) -/
  on : Bool := false
  /-- SC_CHANNELS in force | 16 x 256 | 13 R547 | all zero (R565) -/
  chans : List Byte := []
  /-- SC_SEQUENCE in force | 31 bytes | 13 R550 | none: the default of R565 -/
  seq : Option (List Byte) := none
  /-- channels | 25 | 13 R540 | as each field -/
  ch : Table ScChannel := []
  /-- conversion in progress | - | 13 R545 | none (DESIGN CHOICE, log 18) -/
  conv : Option Conv := none
  /-- a regular pass is running | 1 | 13 R550 | 0 (DESIGN CHOICE, log 18) -/
  inPass : Bool := false
  /-- place in the sequence of the next regular channel | 5 | 13 R550 | 0 (DESIGN CHOICE, log 18) -/
  pos : Nat := 0
  /-- time at which the pass began, and length of the last one, in 25 ns units | - | 13 R550, R566 | 0 (DESIGN CHOICE, log 18) -/
  passAt : Nat × Nat := (0, 0)
  /-- host injected requests waiting, by number, in order, at most 4 | 4 x 16 | 13 R551 | empty (DESIGN CHOICE, log 18) -/
  hostQ : List Nat := []
  /-- safety-partition requests waiting, at most 2 | 2 | 13 R551 | 0 (DESIGN CHOICE, log 18) -/
  safeQ : Nat := 0
  /-- last 16 host requests, newest first | - | 13 R551 | none (DESIGN CHOICE, log 18) -/
  reqs : List InjReq := []
  /-- next request number | 16 | 13 R551 | 1 (DESIGN CHOICE, log 18) -/
  nextReq : Nat := 1
  /-- calibrations accepted, oldest first; the first may be running | - | 13 R552 | none (DESIGN CHOICE, log 18) -/
  cals : List CalJob := []
  /-- a calibration step is in progress | 1 | 13 R553 | 0 (DESIGN CHOICE, log 18) -/
  calStep : Bool := false
  /-- coefficients of each gain: offset in nV, gain error in ppm | 8 x 64 | 13 R552 | none: UNCAL (R552) -/
  coef : Table (Option (Int × Int)) := []
  /-- time of the last calibration in 25 ns units, and the MC_21 reading then | - | 13 R552 | none (DESIGN CHOICE, log 18) -/
  lastCal : Option (Nat × Int) := none
  /-- RTD channels whose monitor check is due in the next gap, as a mask | 25 | 13 R560 | 0 (DESIGN CHOICE, log 18) -/
  checks : Nat := 0
  /-- of those and the ones of SC_DIAG_RUN, the channels whose check a safety request abandoned: due in the gap after this one | 16 | 13 R551 | 0 (DESIGN CHOICE, log 18) -/
  later : Nat := 0
  /-- excitation-monitor check in progress: channel, time at which it began in 25 ns units | - | 13 R559 | none (DESIGN CHOICE, log 18) -/
  check : Option (Nat × Nat) := none
  /-- a regular pass has run since the converter came up | 1 | 13 R560 | 0 (DESIGN CHOICE, log 18) -/
  passed : Bool := false
  /-- time at which the sequence gap began, in 25 ns units | - | 13 R550 | 0 (DESIGN CHOICE, log 18) -/
  gapAt : Nat := 0
  /-- time at which the calibration step in progress began, in 25 ns units | - | 13 R552 | 0 (DESIGN CHOICE, log 18) -/
  calAt : Nat := 0
  /-- excitation source switched on (1 EXC_0, 2 EXC_1, 0 none) and its current in uA | 2 + 10 | 13 R545, R554 | 0, 0 (DESIGN CHOICE, log 18) -/
  exc : Nat × Nat := (0, 0)
  /-- of each source: the current in uA it was calibrated at, and the measured one in nA | 2 x 42 | 13 R554 | none (DESIGN CHOICE, log 18) -/
  excMeas : Table (Option (Nat × Nat)) := []
  /-- twice the voltage GRD_0 and GRD_1 hold, in nV | 2 x 33 | 13 R556 | 0 (DESIGN CHOICE, log 18) -/
  guard : Table Int := []
  /-- SC_DIAG_RUN jobs: job, channels left | - | 13 R560 | none (DESIGN CHOICE, log 18) -/
  diags : List (Nat × Nat) := []
  /-- SC_STATS counts, by place in the result | 8 x 32 | 13 R566 | 0 (DESIGN CHOICE, log 18) -/
  stats : Table Nat := []
  /-- SC_STATS saturation bits | 32 | 13 R566 | 0 (DESIGN CHOICE, log 18) -/
  statSat : Nat := 0
  deriving DecidableEq, Repr

/-- A lamp chain LAMP_c (R571 to R576, R594). -/
structure Chain where
  /-- state: 0 DISABLED, 1 READY, 2 ABSENT, 3 MISWIRED, 4 TOO_LONG, 5 FAULT | 3 | 14 R575, R596 | 0 DISABLED (DESIGN CHOICE, log 19) -/
  state : Nat := 0
  /-- last status words, board 0 first; their number is the chain length | 16 x 32 | 14 R573 | none (DESIGN CHOICE, log 19) -/
  words : List Word := []
  /-- TYPE bytes of the previous discovery, none before the first | 16 x 8 | 14 R575 | none (DESIGN CHOICE, log 19) -/
  types : Option (List Nat) := none
  /-- words the stages hold, board 0 first | 16 x 32 | 14 R572, R574 | none: not known (DESIGN CHOICE, log 19) -/
  stage : Option (List Word) := none
  /-- flash instant for which the stages have been loaded, and the instant from which they hold its words, in 1/32 tick | - | 14 R582 | none (DESIGN CHOICE, log 19) -/
  prep : Option (Nat × Nat) := none
  /-- moment of the latest capture cycle, in 25 ns units | - | 14 R576 | 0 (DESIGN CHOICE, log 19) -/
  capAt : Nat := 0
  /-- a capture cycle has been retried after a bad CRC | 1 | 14 R576 | 0 (DESIGN CHOICE, log 19) -/
  retried : Bool := false
  /-- outputs are high-impedance after a line fault | 1 | 14 R594 | 0 (DESIGN CHOICE, log 19) -/
  lineFault : Bool := false
  /-- boards whose last pulse was long enough to be diagnosed and whose report is due | 16 | 14 R587 | 0 (DESIGN CHOICE, log 19) -/
  due : Nat := 0
  /-- instant of its last flash, in 25/32 ns units since tick 0, with the words of it | - | 14 R583 | none (DESIGN CHOICE, log 19) -/
  lastFlash : Option (Nat × List Word) := none
  deriving DecidableEq, Repr

/-- An emitter (R569, R588 to R591, R596). -/
structure Emitter where
  /-- AMP in use under colour hold, none: the configured AMP | 12 | 14 R590 | none (DESIGN CHOICE, log 19) -/
  amp : Option Nat := none
  /-- loop state: 0 OFF, 1 RUNNING, 2 HELD, 3 LIMITED | 2 | 14 R596 | 0 (DESIGN CHOICE, log 19) -/
  loop : Nat := 0
  /-- consecutive updates at AMP_MIN or AMP_MAX | 4 | 14 R591 | 0 (DESIGN CHOICE, log 19) -/
  atLimit : Nat := 0
  /-- tick of its last change of schedule | 64 | 14 R590 | 0 (DESIGN CHOICE, log 19) -/
  changed : Stamp := 0
  /-- diagnosis status | 2 | 14 R588 | 0 NOT_DIAGNOSED (R588) -/
  diag : Nat := 0
  /-- disabled by a SHORT diagnosis until reconfigured | 1 | 14 R588 | 0 (DESIGN CHOICE, log 19) -/
  shorted : Bool := false
  /-- last diagnosis by proof, its tick, current in 12.5 uA units | 1 + 64 + 16 | 14 R596 | 0 (DESIGN CHOICE, log 19) -/
  last : Bool × Stamp × Nat := (false, 0, 0)
  /-- a proof pulse is due | 1 | 14 R589 | 0 (DESIGN CHOICE, log 19) -/
  proofDue : Bool := false
  /-- job waiting for its proof pulse | 16 | 14 R589 | none (DESIGN CHOICE, log 19) -/
  proofJob : Option Nat := none
  /-- a proof pulse of its board has been made, and the board's report is due | 1 | 14 R587, R589 | 0 (DESIGN CHOICE, log 19) -/
  proofOut : Bool := false
  /-- moment from which PROOF_PERIOD counts, in 25 ns units | - | 14 R589 | 0 (DESIGN CHOICE, log 19) -/
  proofAt : Nat := 0
  /-- moment of its last diagnosis, in 25 ns units | - | 14 R588 | 0 (DESIGN CHOICE, log 19) -/
  diagAt : Nat := 0
  /-- LD_STATS counts: flashes, skipped, diagnosed, proof pulses, loop updates | 5 x 32 | 14 R596 | 0 (DESIGN CHOICE, log 19) -/
  stats : Table Nat := []
  /-- LD_STATS saturation bits | 32 | 14 R596 | 0 (DESIGN CHOICE, log 19) -/
  statSat : Nat := 0
  deriving DecidableEq, Repr

/-- A direct sink LED_k (R577 to R579, R593). -/
structure Sink where
  /-- the sink is on: AMP delivered, WIDTH in ns, the moment it switched on in 25 ns units | 12 + 14 | 14 R577 | off (DESIGN CHOICE, log 19) -/
  pulse : Option (Nat × Nat × Nat) := none
  /-- T_LED in 0.001 C of the last update | 32 | 14 R578 | none (DESIGN CHOICE, log 19) -/
  temp : Option Int := none
  /-- limiting is in force | 1 | 14 R578 | 0 (DESIGN CHOICE, log 19) -/
  derated : Bool := false
  /-- the die-sensor fallback is in use | 1 | 14 R579 | 0 (DESIGN CHOICE, log 19) -/
  fallback : Bool := false
  /-- pulses of the last ms: start in ns, WIDTH | - | 14 R593 | none (DESIGN CHOICE, log 19) -/
  recent : List (Nat × Nat) := []
  deriving DecidableEq, Repr

/-- A schedule entry (R580, R584). -/
structure SchedEntry where
  /-- sink mask -/
  sinks : Nat
  /-- board masks by chain -/
  boards : List Nat
  /-- T_0 -/
  first : Stamp
  /-- period in ticks -/
  period : Nat
  /-- count, 0 endless -/
  count : Nat
  /-- phase 0 to 31 -/
  phase : Nat
  /-- flashes that have taken place or been skipped -/
  i : Nat := 0
  /-- flashes done -/
  done : Nat := 0
  /-- flashes skipped -/
  skipped : Nat := 0
  deriving DecidableEq, Repr

/-- The calibration light drive (chapter 14). -/
structure LdState where
  /-- PD_33 is awake | 1 | 12 R513, 14 R582 | 0 (DESIGN CHOICE, log 19) -/
  awake : Bool := false
  /-- chains | 4 | 14 R575 | as each field -/
  chain : Table Chain := []
  /-- emitters | 68 | 14 R569 | as each field -/
  em : Table Emitter := []
  /-- sinks | 4 | 14 R577 | as each field -/
  sink : Table Sink := []
  /-- schedule entries | 16 | 14 R580 | free (DESIGN CHOICE, log 19) -/
  entry : Table (Option SchedEntry) := []
  /-- moment of the wake or of the last flash or proof pulse after it, in 25 ns units | - | 14 R582 | 0 (DESIGN CHOICE, log 19) -/
  flashUp : Nat := 0
  /-- moment of the sinks' latest temperature reading, in 25 ns units | - | 14 R578 | 0 (DESIGN CHOICE, log 19) -/
  tempAt : Nat := 0
  /-- flash windows of this module, newest first: first and last tick; the open one is first | - | 14 R585 | none (DESIGN CHOICE, log 19) -/
  windows : List (Stamp × Stamp) := []
  /-- the flash window is open | 1 | 14 R585, R596 | 0 (DESIGN CHOICE, log 19) -/
  winOpen : Bool := false
  /-- time of the last EV_537, in 25 ns units | - | 14 R583 | none (DESIGN CHOICE, log 19) -/
  skipEv : Option Nat := none
  /-- chain discoveries in progress: job (0: by the boot or the wake), chains | - | 14 R575, R596 | none (DESIGN CHOICE, log 19) -/
  jobs : List (Nat × Nat) := []
  deriving DecidableEq, Repr

/-- An interlock ILK_n (R607 to R609). -/
structure Interlock where
  /-- channel A closed | 1 | 15 R608 | 0 (R629) -/
  a : Bool := false
  /-- channel B closed | 1 | 15 R608 | 0 (R629) -/
  b : Bool := false
  /-- discrepancy fault latched | 1 | 15 R609 | 0 (R629) -/
  disc : Bool := false
  /-- the channels differ: the discrepancy time runs | 1 | 15 R609 | 0 (DESIGN CHOICE, log 20) -/
  running : Bool := false
  /-- moment from which the discrepancy time runs, in 25 ns units | - | 15 R609 | 0 (DESIGN CHOICE, log 20) -/
  runAt : Nat := 0
  /-- time at which both became open together, in 25 ns units | - | 15 R609 | none (DESIGN CHOICE, log 20) -/
  openAt : Option Nat := none
  /-- both have been open together for 100 ms and the closing has begun | 1 | 15 R609 | 0 (DESIGN CHOICE, log 20) -/
  closing : Bool := false
  deriving DecidableEq, Repr

/-- A trip-log entry (R631). -/
structure Trip where
  /-- function: 0 HV, 1 shutter -/
  fn : Nat
  /-- FIRST cause -/
  first : Nat
  /-- HV_CAUSES -/
  causes : Nat
  /-- epoch and tick -/
  stamp : Stamp
  /-- partition ms since power-on reset -/
  ms : Nat
  deriving DecidableEq, Repr

/-- The safety partition (chapter 15). -/
structure SfState where
  /-- it runs from its ROM: step 1 of R602 has passed | 1 | 15 R602 | 0 (DESIGN CHOICE, log 20) -/
  started : Bool := false
  /-- time of the release of POR_N, in 25 ns units | - | 15 R631 | 0 (DESIGN CHOICE, log 20) -/
  porAt : Nat := 0
  /-- PART_STATE: 0 START, 1 RUN, 2 LOCKOUT | 4 | 15 R629 | 0 (R629) -/
  part : Nat := 0
  /-- LOCKOUT_CAUSE | 4 | 15 R629 | 0 (R629) -/
  cause : Nat := 0
  /-- HV_STATE | 4 | 15 R629 | 0 (R629) -/
  hv : Nat := 0
  /-- SHUTTER_STATE | 4 | 15 R629 | 2 (R629) -/
  shutter : Nat := 2
  /-- HV_REQ | 1 | 15 R629 | 0 (R629) -/
  hvReq : Bool := false
  /-- RESET_NEEDED of the HV function | 1 | 15 R629 | 1 (R629) -/
  resetHv : Bool := true
  /-- RESET_NEEDED of the shutter function | 1 | 15 R602, R618 | 1 (R602) -/
  resetSh : Bool := true
  /-- a discrepancy latch has cleared since the last reset: the HV function needs a reset whatever SEAL_5 says | 1 | 15 R609 | 0 (DESIGN CHOICE, log 20) -/
  discReset : Bool := false
  /-- the same of ILK_1 and the shutter function | 1 | 15 R609, R617 | 0 (DESIGN CHOICE, log 20) -/
  discSh : Bool := false
  /-- moment of the latest logic cycle, in 25 ns units | - | 15 R600 | 0 (DESIGN CHOICE, log 20) -/
  cycleAt : Nat := 0
  /-- moment of the latest reading of the sealed switches, in 25 ns units | - | 15 R606 | 0 (DESIGN CHOICE, log 20) -/
  sealAt : Nat := 0
  /-- COOLING_FAULT | 1 | 15 R629 | 0 (R629) -/
  cooling : Bool := false
  /-- HOST_CLOSE | 1 | 15 R629 | 0 (R629) -/
  hostClose : Bool := false
  /-- interlocks ILK_0 to ILK_3 | 4 | 15 R607 | as each field -/
  ilk : Table Interlock := []
  /-- SO_FAULT of SO_0, SO_1 | 2 | 15 R629 | 0 (R629) -/
  soFault : BitVec 2 := 0
  /-- SO_CURRENT | 2 | 15 R629 | 0 (R629) -/
  soCurrent : BitVec 2 := 0
  /-- SO_CMD | 2 | 15 R629 | 0 (R629) -/
  soCmd : BitVec 2 := 0
  /-- moment of the latest readback of the outputs, in 25 ns units | - | 15 R612 | 0 (DESIGN CHOICE, log 20) -/
  readAt : Nat := 0
  /-- moment since which each output reads as a short, in 25 ns units | 2 | 15 R612 | none (DESIGN CHOICE, log 20) -/
  shortAt : Table (Option Nat) := []
  /-- moment of each output's switch-on, in 25 ns units | 2 | 15 R613 | 0 (DESIGN CHOICE, log 20) -/
  onAt : Table Nat := []
  /-- FIRST | 4 | 15 R629 | 0xF (R629) -/
  first : Nat := 0xF
  /-- HVMON trip: cause 6 | 1 | 15 R616, R620 | 0 (DESIGN CHOICE, log 20) -/
  hvmon : Bool := false
  /-- consecutive MC_24 results above HV_TRIP | 2 | 15 R620 | 0 (DESIGN CHOICE, log 20) -/
  overs : Nat := 0
  /-- moment of the latest request of MC_24, in 25 ns units | - | 15 R620 | 0 (DESIGN CHOICE, log 20) -/
  pollAt : Nat := 0
  /-- HV causes at the last evaluation | 12 | 15 R616 | 0x200 (DESIGN CHOICE, log 20) -/
  seenHv : Nat := 0x200
  /-- close conditions at the last evaluation: ILK_1 open, its discrepancy, cooling, host, SO_1 fault | 5 | 15 R617 | 0 (DESIGN CHOICE, log 20) -/
  seenSh : Nat := 0
  /-- a trip in HOLD has requested a wake | 1 | 15 R621 | 0 (DESIGN CHOICE, log 20) -/
  wakeReq : Bool := false
  /-- SEAL_RAW of start-up | 12 | 15 R629 | 0 (R629) -/
  sealRaw : BitVec 12 := 0
  /-- the seals have been read | 1 | 15 R602 | 0 (R629 SEAL_VALID) -/
  sealsRead : Bool := false
  /-- the settings hand-over has been accepted | 1 | 15 R603 | 0 (DESIGN CHOICE, log 20) -/
  handed : Bool := false
  /-- PEER_ID | 32 | 15 R629 | 0 (R629) -/
  peer : Nat := 0
  /-- HV_TRIP in nA | 32 | 15 R630 | 0 (R630) -/
  hvTrip : Nat := 0
  /-- SAFE_WAKE | 8 | 15 R630 | 1 (R630) -/
  safeWake : Nat := 1
  /-- CONN: the connection is live | 1 | 15 R629 | 0 (R629) -/
  conn : Bool := false
  /-- PERMIT_HV of the last COMMAND | 1 | 15 R616 | 0 (DESIGN CHOICE, log 20) -/
  permit : Bool := false
  /-- expiry latch of R628 | 1 | 15 R628 | 0 (DESIGN CHOICE, log 20) -/
  expiry : Bool := false
  /-- WATCHDOG in force, ms | 16 | 15 R623 | 0 (DESIGN CHOICE, log 20) -/
  watchdog : Nat := 0
  /-- moment of the last accepted COMMAND, in 25 ns units | - | 15 R625 | 0 (DESIGN CHOICE, log 20) -/
  cmdAt : Nat := 0
  /-- the STATUS of an accepted COMMAND is still to be sent | 1 | 15 R626 | 0 (DESIGN CHOICE, log 20) -/
  owe : Bool := false
  /-- last accepted SEQ, none after power-on reset or an expiry | 16 | 15 R625 | none (R625) -/
  lastSeq : Option Nat := none
  /-- ECHO_SEQ | 16 | 15 R623 | 0 (DESIGN CHOICE, log 20) -/
  echo : Nat := 0
  /-- next SEQ of STATUS frames | 16 | 15 R623 | 0 (DESIGN CHOICE, log 20) -/
  txSeq : Nat := 0
  /-- SF_STATE and SF_CAUSES as last sent | 2 x 32 | 15 R626 | none (DESIGN CHOICE, log 20) -/
  sent : Option (Nat × Nat) := none
  /-- times of STATUS frames in the last ms, in 25 ns units | - | 15 R626 | none (DESIGN CHOICE, log 20) -/
  sentAt : List Nat := []
  /-- the read-only mirror: SF_STATE, SF_IO, SF_CAUSES, SF_CONFIG, SF_PEER | 5 x 32 | 15 R629 | 0x220, 0, 0xF0200, 0, 0 (R629) -/
  mirror : List Nat := [0x220, 0, 0xF0200, 0, 0]
  /-- a dark test by SF_DARK_TEST: mailbox, outputs still to test, results | - | 15 R613 | none (DESIGN CHOICE, log 20) -/
  dark : Option (Nat × BitVec 2 × List Nat) := none
  /-- last dark test of each output: moment in 25 ns units, tick, passed | 2 | 15 R613, R631 | none (DESIGN CHOICE, log 20) -/
  darkAt : Table (Option (Nat × Stamp × Bool)) := []
  /-- trip log, newest first, 16 | 16 | 15 R631 | none (DESIGN CHOICE, log 20) -/
  trips : List Trip := []
  /-- SF_STATS counts, by place in the result | 9 x 32 | 15 R631 | 0 (DESIGN CHOICE, log 20) -/
  stats : Table Nat := []
  /-- SF_STATS saturation bits | 32 | 15 R631 | 0 (DESIGN CHOICE, log 20) -/
  statSat : Nat := 0
  deriving DecidableEq, Repr

/-- What the arbiter and the crosslink know of one half (R635 to R639, R651). -/
structure HalfView where
  /-- STATE: 0 BOOT, 1 ACTIVE, 2 STANDBY, 3 FAILED | 2 | 16 R644 | 0 (R644) -/
  state : Nat := 0
  /-- the crosslink is up as this half sees it | 1 | 16 R635, R644 | 0 (R644) -/
  xlink : Bool := false
  /-- the half has declared the crosslink lost and not yet restored | 1 | 16 R635 | 0 (DESIGN CHOICE, log 21) -/
  lost : Bool := false
  /-- the last loss of the crosslink was one of block lock | 1 | 16 R635, R648 | 0 (DESIGN CHOICE, log 21) -/
  noLock : Bool := false
  /-- moment of the latest heartbeat sent, in 25 ns units | - | 16 R635 | 0 (DESIGN CHOICE, log 21) -/
  sentAt : Nat := 0
  /-- moment of the latest heartbeat received with lock, in 25 ns units | - | 16 R635 | 0 (DESIGN CHOICE, log 21) -/
  beatAt : Nat := 0
  /-- consecutive heartbeats received with lock | 2 | 16 R635 | 0 (DESIGN CHOICE, log 21) -/
  beats : Nat := 0
  /-- heartbeats missed | 32 | 16 R667 | 0 (DESIGN CHOICE, log 21) -/
  missed : Nat := 0
  /-- consecutive polls missed | 2 | 16 R637 | 0 (DESIGN CHOICE, log 21) -/
  misses : Nat := 0
  /-- polls missed | 32 | 16 R667 | 0 (DESIGN CHOICE, log 21) -/
  polls : Nat := 0
  /-- the arbiter waits for the answer to its last poll | 1 | 16 R636 | 0 (DESIGN CHOICE, log 21) -/
  asked : Bool := false
  /-- moment of the arbiter's last poll, in 25 ns units | - | 16 R636 | 0 (DESIGN CHOICE, log 21) -/
  askedAt : Nat := 0
  /-- that poll has reached the half | 1 | 16 R636 | 0 (DESIGN CHOICE, log 21) -/
  heard : Bool := false
  /-- latest answer: sees the other half's heartbeat, declares itself failed | 2 | 16 R636, R638 | none (DESIGN CHOICE, log 21) -/
  answer : Option (Bool × Bool) := none
  /-- EV_594 has been raised for this loss of its arbiter path | 1 | 16 R637 | 0 (DESIGN CHOICE, log 21) -/
  pathLost : Bool := false
  /-- EV_598 has been raised for this failure | 1 | 16 R638 | 0 (DESIGN CHOICE, log 21) -/
  impossible : Bool := false
  /-- ARB_LOST | 1 | 16 R639 | 0 (R644) -/
  arbLost : Bool := false
  /-- moment of the latest poll received, in 25 ns units | - | 16 R639 | 0 (DESIGN CHOICE, log 21) -/
  polledAt : Nat := 0
  /-- consecutive polls received | 2 | 16 R639 | 0 (DESIGN CHOICE, log 21) -/
  polled : Nat := 0
  /-- the half is isolated | 1 | 16 R651 | 0 (R644) -/
  isolated : Bool := false
  /-- level of its ARB_REQ ball | 1 | 16 R640 | 0 (DESIGN CHOICE, log 21) -/
  req : Bool := false
  /-- level of its ARB_GNT ball | 1 | 16 R640 | 0 (DESIGN CHOICE, log 21) -/
  gnt : Bool := false
  deriving DecidableEq, Repr

/-- A rejoin in progress (R648). -/
structure Rejoin where
  /-- the half -/
  half : Half
  /-- tick of step 4 -/
  tick : Stamp
  /-- job number -/
  job : Nat
  /-- the half has become STANDBY -/
  standby : Bool
  deriving DecidableEq, Repr

/-- The two halves, the arbiter and the claims (chapter 16). -/
structure RedState where
  /-- the two halves | - | 16 R634 | as each field -/
  half : Two HalfView := ⟨{}, {}⟩
  /-- the arbiter has started (boot step 3) | 1 | 16 R644 | 0 (R644: the word reads zero until then) -/
  started : Bool := false
  /-- claim numbers of resource r (bit order of CLAIMS [17:0]), half S at 2r, half B at 2r + 1 | 36 x 16 | 16 R642 | 0 (DESIGN CHOICE, log 21) -/
  claim : Table Nat := []
  /-- ARB_EXT | 1 | 16 R640 | 0 (DESIGN CHOICE, log 21; sampled at POR_N) -/
  ext : Bool := false
  /-- the arbiter has no majority | 1 | 16 R652 | 0 (DESIGN CHOICE, log 21) -/
  noMajority : Bool := false
  /-- a takeover in progress: failed half, cause code of its CLAIM record | - | 16 R645 | none (DESIGN CHOICE, log 21) -/
  takeover : Option (Half × Nat) := none
  /-- a rejoin in progress | - | 16 R648 | none (DESIGN CHOICE, log 21) -/
  rejoin : Option Rejoin := none
  /-- crosslink and arbiter statistics at their largest value: heartbeats missed S, B, polls missed S, B, takeovers | 5 | 16 R667 | 0 (DESIGN CHOICE, log 21) -/
  statSat : Nat := 0
  /-- takeovers | 32 | 16 R667 | 0 (DESIGN CHOICE, log 21) -/
  takeovers : Nat := 0
  /-- tick of the last takeover | 64 | 16 R667 | 0 (DESIGN CHOICE, log 21) -/
  last : Stamp := 0
  /-- first tick at which merging across rows 7 and 8 resumes | 64 | 16 R635 | none (DESIGN CHOICE, log 21) -/
  resume : Option Stamp := none
  deriving DecidableEq, Repr

/-- The supply sequencer (chapter 17). -/
structure SeqState where
  /-- SEQ_EN_0 to SEQ_EN_3 | 4 | 17 R675 | 0 (R679) -/
  en : BitVec 4 := 0
  /-- PWR_GOOD | 1 | 17 R674 | 0 (DESIGN CHOICE, log 22) -/
  good : Bool := false
  /-- the power-up table waits for PWR_GOOD after an enable | 1 | 17 R675 | 0 (DESIGN CHOICE, log 22) -/
  waiting : Bool := false
  /-- the power-up table has ended: all rails are up | 1 | 17 R675 | 0 (DESIGN CHOICE, log 22) -/
  up : Bool := false
  /-- waiting 1 s after a sequencing failure | 1 | 17 R676 | 0 (DESIGN CHOICE, log 22) -/
  retry : Bool := false
  /-- waiting 10 ms after a loss of PWR_GOOD | 1 | 17 R677 | 0 (DESIGN CHOICE, log 22) -/
  lost : Bool := false
  /-- moment of the latest enable, failure or loss, from which the sequencer's times count, in 25 ns units | - | 17 R675, R676, R677 | 0 (DESIGN CHOICE, log 22) -/
  at_ : Nat := 0
  deriving DecidableEq, Repr

/-- The whole block. -/
structure State where
  /-- host window, mailboxes, jobs, identity, boot and settings (chapter 02) -/
  sys : SysState := {}
  /-- event map and trouble record (chapter 16) -/
  ev : EvState := {}
  /-- pixel front end (chapter 03) -/
  fe : FeState := {}
  /-- event timing (chapter 04) -/
  tm : TmState := {}
  /-- hit path (chapter 05) -/
  hp : HpState := {}
  /-- trigger and acquisition (chapter 06) -/
  tr : TrState := {}
  /-- waveform engine (chapter 07) -/
  we : WeState := {}
  /-- burst buffer and memory (chapter 08) -/
  bb : BbState := {}
  /-- compression (chapter 09) -/
  cx : CxState := {}
  /-- links (chapter 10) -/
  lk : LkState := {}
  /-- time core and interval inputs (chapter 11) -/
  tc : TcState := {}
  /-- power and the governor (chapter 12) -/
  pw : PwState := {}
  /-- slow control (chapter 13) -/
  sc : ScState := {}
  /-- calibration light (chapter 14) -/
  ld : LdState := {}
  /-- safety partition (chapter 15) -/
  sf : SfState := {}
  /-- redundancy (chapter 16) -/
  red : RedState := {}
  /-- supply sequencer (chapter 17) -/
  seq : SeqState := {}
  /-- elapsed time in 25 ns units, the model's own clock | - | 04 R148, 16 R645 | 0 (DESIGN CHOICE, log 1) -/
  up : Nat := 0
  /-- the model's own counter of free values drawn | - | log 23 | 0 (DESIGN CHOICE, log 23) -/
  freeCtr : Nat := 0
  /-- commands that wait, first in, first out | - | the block's queue | empty (DESIGN CHOICE, log 1) -/
  pending : List Instr := []
  deriving DecidableEq, Repr

/-- Reasons a step could stop with a fault. No meaning of this model raises one: the spec gives every command
an effect. -/
inductive Fault where
  /-- raised by nobody; it stands so that the type is inhabited; safe -/
  | none
  deriving DecidableEq, Repr

/-- Reasons a command could be refused. -/
inductive Refusal where
  /-- raised by an arm of the dispatch whose command has no meaning in the model yet; safe: the model stops -/
  | notModelled (mnemonic : String)
  deriving DecidableEq, Repr

/-- The block right after power-on reset has begun: POR_N is low (R679, R696) and every field holds the value the
spec states for reset or the value its log entry names. -/
def State.reset : State := {}

end Sys2Proof.Machine
end

