-- ==== Sys2Proof/Machine/Ops.lean ====
section
/-! DEFINITION. The named operations on the parts of the state: the update of each part, of each numbered unit in
a part, the event form of a command, the passing of time and the drawing of a free value. -/
namespace Sys2Proof.Machine

/-- The outcome of a step. -/
abbrev Out := Host.Outcome State Fault Refusal

/-- The state with its `sys` part changed. -/
def onSys (f : SysState → SysState) (s : State) : State := { s with sys := f s.sys }

/-- The state with its `ev` part changed. -/
def onEv (f : EvState → EvState) (s : State) : State := { s with ev := f s.ev }

/-- The state with its `fe` part changed. -/
def onFe (f : FeState → FeState) (s : State) : State := { s with fe := f s.fe }

/-- The state with its `tm` part changed. -/
def onTm (f : TmState → TmState) (s : State) : State := { s with tm := f s.tm }

/-- The state with its `hp` part changed. -/
def onHp (f : HpState → HpState) (s : State) : State := { s with hp := f s.hp }

/-- The state with its `tr` part changed. -/
def onTr (f : TrState → TrState) (s : State) : State := { s with tr := f s.tr }

/-- The state with its `we` part changed. -/
def onWe (f : WeState → WeState) (s : State) : State := { s with we := f s.we }

/-- The state with its `bb` part changed. -/
def onBb (f : BbState → BbState) (s : State) : State := { s with bb := f s.bb }

/-- The state with its `cx` part changed. -/
def onCx (f : CxState → CxState) (s : State) : State := { s with cx := f s.cx }

/-- The state with its `lk` part changed. -/
def onLk (f : LkState → LkState) (s : State) : State := { s with lk := f s.lk }

/-- The state with its `tc` part changed. -/
def onTc (f : TcState → TcState) (s : State) : State := { s with tc := f s.tc }

/-- The state with its `pw` part changed. -/
def onPw (f : PwState → PwState) (s : State) : State := { s with pw := f s.pw }

/-- The state with its `sc` part changed. -/
def onSc (f : ScState → ScState) (s : State) : State := { s with sc := f s.sc }

/-- The state with its `ld` part changed. -/
def onLd (f : LdState → LdState) (s : State) : State := { s with ld := f s.ld }

/-- The state with its `sf` part changed. -/
def onSf (f : SfState → SfState) (s : State) : State := { s with sf := f s.sf }

/-- The state with its `red` part changed. -/
def onRed (f : RedState → RedState) (s : State) : State := { s with red := f s.red }

/-- The state with its `seq` part changed. -/
def onSeq (f : SeqState → SeqState) (s : State) : State := { s with seq := f s.seq }

/-- The mailbox with a number. -/
def mbAt (s : State) (i : Nat) : Mailbox := tget {} s.sys.mb i

/-- The state with the mailbox of a number changed. -/
def modMb (i : Nat) (f : Mailbox → Mailbox) (s : State) : State :=
  onSys (fun x => { x with mb := tmod {} i f x.mb }) s

/-- The front-end block with a number. -/
def blockAt (s : State) (i : Nat) : FeBlock := tget {} s.fe.block i

/-- The state with the front-end block of a number changed. -/
def modBlock (i : Nat) (f : FeBlock → FeBlock) (s : State) : State :=
  onFe (fun x => { x with block := tmod {} i f x.block }) s

/-- The cluster engine with a number. -/
def engineAt (s : State) (i : Nat) : Engine := tget {} s.hp.engine i

/-- The state with the cluster engine of a number changed. -/
def modEngine (i : Nat) (f : Engine → Engine) (s : State) : State :=
  onHp (fun x => { x with engine := tmod {} i f x.engine }) s

/-- The loss policy of queue with a number. -/
def lossQAt (s : State) (i : Nat) : LossState := tget {} s.hp.loss i

/-- The state with the loss policy of queue of a number changed. -/
def modLossQ (i : Nat) (f : LossState → LossState) (s : State) : State :=
  onHp (fun x => { x with loss := tmod {} i f x.loss }) s

/-- The merge side with a number. -/
def msideAt (s : State) (i : Nat) : MergeSide := tget {} s.hp.side i

/-- The state with the merge side of a number changed. -/
def modMside (i : Nat) (f : MergeSide → MergeSide) (s : State) : State :=
  onHp (fun x => { x with side := tmod {} i f x.side }) s

/-- The trigger unit with a number. -/
def unitAt (s : State) (i : Nat) : TrigUnit := tget {} s.tr.unit i

/-- The state with the trigger unit of a number changed. -/
def modUnit (i : Nat) (f : TrigUnit → TrigUnit) (s : State) : State :=
  onTr (fun x => { x with unit := tmod {} i f x.unit }) s

/-- The converter with a number. -/
def adcAt (s : State) (i : Nat) : Adc := tget {} s.tr.adc i

/-- The state with the converter of a number changed. -/
def modAdc (i : Nat) (f : Adc → Adc) (s : State) : State :=
  onTr (fun x => { x with adc := tmod {} i f x.adc }) s

/-- The waveform core with a number. -/
def coreAt (s : State) (i : Nat) : WeCore := tget {} s.we.core i

/-- The state with the waveform core of a number changed. -/
def modCore (i : Nat) (f : WeCore → WeCore) (s : State) : State :=
  onWe (fun x => { x with core := tmod {} i f x.core }) s

/-- The queue with a number. -/
def queueAt (s : State) (i : Nat) : BurstQueue := tget {} s.bb.q i

/-- The state with the queue of a number changed. -/
def modQueue (i : Nat) (f : BurstQueue → BurstQueue) (s : State) : State :=
  onBb (fun x => { x with q := tmod {} i f x.q }) s

/-- The compressing queue with a number. -/
def cxqAt (s : State) (i : Nat) : CxQueue := tget {} s.cx.q i

/-- The state with the compressing queue of a number changed. -/
def modCxq (i : Nat) (f : CxQueue → CxQueue) (s : State) : State :=
  onCx (fun x => { x with q := tmod {} i f x.q }) s

/-- The lane with a number. -/
def laneAt (s : State) (i : Nat) : Lane := tget {} s.lk.lane i

/-- The state with the lane of a number changed. -/
def modLane (i : Nat) (f : Lane → Lane) (s : State) : State :=
  onLk (fun x => { x with lane := tmod {} i f x.lane }) s

/-- The lane group with a number. -/
def groupAt (s : State) (i : Nat) : LaneGroup := tget {} s.lk.group i

/-- The state with the lane group of a number changed. -/
def modGroup (i : Nat) (f : LaneGroup → LaneGroup) (s : State) : State :=
  onLk (fun x => { x with group := tmod {} i f x.group }) s

/-- The side link with a number. -/
def slinkAt (s : State) (i : Nat) : SideLink := tget {} s.lk.side i

/-- The state with the side link of a number changed. -/
def modSlink (i : Nat) (f : SideLink → SideLink) (s : State) : State :=
  onLk (fun x => { x with side := tmod {} i f x.side }) s

/-- The interval input with a number. -/
def tiAt (s : State) (i : Nat) : TiInput := tget {} s.tc.ti i

/-- The state with the interval input of a number changed. -/
def modTi (i : Nat) (f : TiInput → TiInput) (s : State) : State :=
  onTc (fun x => { x with ti := tmod {} i f x.ti }) s

/-- The split channel with a number. -/
def splitAt (s : State) (i : Nat) : SplitChan := tget {} s.tc.split i

/-- The state with the split channel of a number changed. -/
def modSplit (i : Nat) (f : SplitChan → SplitChan) (s : State) : State :=
  onTc (fun x => { x with split := tmod {} i f x.split }) s

/-- The measurement channel with a number. -/
def chanAt (s : State) (i : Nat) : ScChannel := tget {} s.sc.ch i

/-- The state with the measurement channel of a number changed. -/
def modChan (i : Nat) (f : ScChannel → ScChannel) (s : State) : State :=
  onSc (fun x => { x with ch := tmod {} i f x.ch }) s

/-- The lamp chain with a number. -/
def chainAt (s : State) (i : Nat) : Chain := tget {} s.ld.chain i

/-- The state with the lamp chain of a number changed. -/
def modChain (i : Nat) (f : Chain → Chain) (s : State) : State :=
  onLd (fun x => { x with chain := tmod {} i f x.chain }) s

/-- The emitter with a number. -/
def emAt (s : State) (i : Nat) : Emitter := tget {} s.ld.em i

/-- The state with the emitter of a number changed. -/
def modEm (i : Nat) (f : Emitter → Emitter) (s : State) : State :=
  onLd (fun x => { x with em := tmod {} i f x.em }) s

/-- The sink with a number. -/
def sinkAt (s : State) (i : Nat) : Sink := tget {} s.ld.sink i

/-- The state with the sink of a number changed. -/
def modSink (i : Nat) (f : Sink → Sink) (s : State) : State :=
  onLd (fun x => { x with sink := tmod {} i f x.sink }) s

/-- The interlock with a number. -/
def ilkAt (s : State) (i : Nat) : Interlock := tget {} s.sf.ilk i

/-- The state with the interlock of a number changed. -/
def modIlk (i : Nat) (f : Interlock → Interlock) (s : State) : State :=
  onSf (fun x => { x with ilk := tmod {} i f x.ilk }) s

/-- What a half's view holds. -/
def viewAt (s : State) (h : Half) : HalfView := twoGet s.red.half h

/-- The state with one half's view changed. -/
def modView (h : Half) (f : HalfView → HalfView) (s : State) : State :=
  onRed (fun r => { r with half := twoPut r.half h (f (twoGet r.half h)) }) s

/-- The effect of an event: where its condition does not hold, the event does not occur and nothing changes
(log 24). -/
def event (guard : Bool) (eff : State → State) (s : State) : Out := .next (if guard then eff s else s)

/-- An effect for each element of a list, in order. -/
def forAll {α : Type} (xs : List α) (f : α → State → State) (s : State) : State := xs.foldl (fun s x => f x s) s

/-- An effect under a condition. -/
def when (c : Bool) (f : State → State) (s : State) : State := if c then f s else s

/-- The next free Boolean (log 23), and the state with it drawn. -/
def drawBool (s : State) : Bool × State := (Config.freeBool s.freeCtr, { s with freeCtr := s.freeCtr + 1 })

/-- The next free number (log 23), and the state with it drawn. -/
def drawNat (s : State) : Nat × State := (Config.freeNat s.freeCtr, { s with freeCtr := s.freeCtr + 1 })

/-- The time of the time core. -/
def now (s : State) : Stamp := s.tc.now

/-- Elapsed time units of 25 ns in a number of microseconds. -/
def us (n : Nat) : Nat := 40 * n

/-- Elapsed time units of 25 ns in a number of milliseconds. -/
def ms (n : Nat) : Nat := 40000 * n

/-- A tick lies at or before the time core's time. -/
def reached (s : State) (t : Stamp) : Bool := decide (0 ≤ tickAfter (now s) t)

/-- A tick lies a number of ticks ahead of the time core's time or further (R497). -/
def aheadBy (s : State) (n : Nat) (t : Stamp) : Bool := decide ((n : Int) ≤ tickAfter t (now s))

/-- The time core's time in SYNC or not: the UNSYNC mark of records (R657). -/
def unsync (s : State) : Bool := decide (s.tc.timeState ≠ .sync)

/-- HOLD entry has been decided and HOLD is not reached (R367, R518). -/
def enteringHold (s : State) : Bool := match s.pw.change with
  | some c => decide (c.phase = 1 ∨ c.phase = 2)
  | none => false

/-- The state is one of EASY, PADDLE, DRIVE. -/
def awake (s : State) : Bool :=
  match s.sys.power with
  | .easy | .paddle | .drive => true
  | _ => false

/-- The state is PADDLE or DRIVE. -/
def busyState (s : State) : Bool :=
  match s.sys.power with
  | .paddle | .drive => true
  | _ => false

/-- POWER_STATE as a number (R44). -/
def powerCode : PowerState → Nat
  | .boot => 0 | .hold => 1 | .easy => 2 | .paddle => 3 | .drive => 4

/-- The power state a number names. -/
def powerOf : Nat → PowerState
  | 0 => .boot | 1 => .hold | 2 => .easy | 3 => .paddle | _ => .drive

/-- The lead half. -/
def lead (s : State) : Half := s.sys.lead

/-- The claim of a half on a resource; resources are numbered as the bits of CLAIMS [17:0] (R644). -/
def claimOf (s : State) (r : Nat) (h : Half) : Nat := tget 0 s.red.claim (2 * r + h.code)

/-- Signed 16-bit difference of two claims (R642). -/
def claimDiff (a b : Nat) : Int := signed 16 ((a + 0x10000 - b % 0x10000) % 0x10000)

/-- A half's claim on a resource is the higher one (R457). -/
def holds (s : State) (r : Nat) (h : Half) : Bool :=
  decide (0 < claimDiff (claimOf s r h) (claimOf s r h.other))

/-- Who holds a resource; none with equal claims. -/
def holder (s : State) (r : Nat) : Option Half :=
  if holds s r .s then some .s else if holds s r .b then some .b else none

/-- The half an output stage takes packets and commands from: the holder, where it is not FAILED and off (R17, R457). -/
def server (s : State) (r : Nat) : Option Half :=
  match holder s r with
  | some h => if (viewAt s h).state = 3 then none else some h
  | none => none

/-- A half is alive: its cox runs and it is neither failed nor off (R44). -/
def alive (s : State) (h : Half) : Bool := twoGet s.sys.halfOk h

end Sys2Proof.Machine
end

