-- ==== Sys2Proof/Machine/Events.lean ====
section
/-! DEFINITION. Raising an event (R653, R656 to R663): the sticky bit and count, alarms and their folding, the TC3
ring, the fault log and the incident; statistics that saturate; and placing a message in the TC0 source queue. -/
namespace Sys2Proof.Machine

/-- What a raise takes from the rest of the block. -/
structure RaiseCtx where
  /-- tick with epoch -/
  now : Stamp
  /-- time not in SYNC -/
  unsync : Bool
  /-- ORIGIN -/
  origin : Nat
  /-- some RUNNING group allows TC0 (R448) -/
  path : Bool
  /-- moment in 25 ns units -/
  up : Nat

/-- The class of a source in force (R655). -/
def evClass (e : EvState) (n : Nat) : Nat :=
  match tget none e.cfg n with
  | some (c, _) => c
  | none => defaultClass n

/-- A statistic of a table increased: the table, the saturation bits, and whether it has just saturated. -/
def statBump (t : Table Nat) (sat i k : Nat) : Table Nat × Nat × Bool :=
  let v := statAdd (tget 0 t i) k
  let new := decide (v = stat32) && !bit sat i
  (tput 0 i v t, if new then sat + 2 ^ i else sat, new)

/-- The FLAGS of a record: HELD and UNSYNC (R657). -/
def recFlags (held unsync : Bool) : BitVec 8 := BitVec.ofNat 8 (2 * bitNat held + 4 * bitNat unsync)

/-- Ticks between two stamps, saturating at 32 bits (R657). -/
def deltaTicks (first last : Stamp) : Nat := min stat32 (stampDiff last first).toNat

/-- The incident number a record carries (R657). -/
def incNumber (e : EvState) : Nat := if e.incident.isOpen then e.incident.number else 0

/-- A record enters the fault log: the first 64 kept, then a ring of 960 (R663). -/
def flogAdd (r : EvRec) (e : EvState) : EvState :=
  if e.flogFirst.length < 64 then { e with flogFirst := e.flogFirst ++ [r] }
  else { e with
    flogRing := (if e.flogRing.length < 960 then e.flogRing else e.flogRing.drop 1) ++ [r], flogPos := (e.flogPos + 1) % 960 }

/-- Whether a record may take a new one of the same kind in (R660 step 1). -/
def sameKind (r x : EvRec) : Bool :=
  decide (x.type = r.type ∧ x.source = r.source ∧ padTo 8 x.arg = padTo 8 r.arg)

/-- The first unsent record of the same kind takes the new one in; none if there is none. -/
def coalesce (r : EvRec) : List EvRec → Option (List EvRec)
  | [] => none
  | x :: xs =>
    if sameKind r x then
      some ({ x with repeats := min 0xFFFF (x.repeats + r.repeats), lastDelta := deltaTicks x.stamp r.stamp,
                     arg := r.arg, flags := x.flags ||| 1 } :: xs)
    else (coalesce r xs).map (x :: ·)

/-- The oldest record that is not a SUMMARY left out; none if there is none (R660 step 2). -/
def dropOldest : List EvRec → Option (List EvRec)
  | [] => none
  | x :: xs => if x.type = 3 then (dropOldest xs).map (x :: ·) else some xs

/-- A statistic of EVT_STATS increased; saturation raises EV_612, which the caller does. -/
def evStat (i k : Nat) (e : EvState) : EvState × Bool :=
  let r := statBump e.stats e.statSat i k
  ({ e with stats := r.1, statSat := r.2.1 }, r.2.2)

/-- A record meets the TC3 ring (R660): the new state, and the event that this raises (606 coalesced, 607 dropped). -/
def tc3Push (r : EvRec) (e : EvState) : EvState × Option Nat :=
  if e.tc3.length < 4096 then ({ e with tc3 := e.tc3 ++ [r] }, none)
  else
    match coalesce r e.tc3 with
    | some t =>
      ({ (evStat 5 1 e).1 with
          tc3 := t, incident := { e.incident with
            coalesced := e.incident.coalesced + bitNat e.incident.isOpen } }, some 606)
    | none =>
      let e1 := { (evStat 6 1 e).1 with
        tc3Dropped := satAdd stat32 e.tc3Dropped 1
        incident := { e.incident with dropped := e.incident.dropped + bitNat e.incident.isOpen } }
      match dropOldest e.tc3 with
      | some t => ({ e1 with tc3 := t ++ [r] }, some 607)
      | none => if r.type = 3 then ({ e1 with tc3 := e.tc3.drop 1 ++ [r] }, some 607) else (e1, some 607)

/-- The raise of a source counts in the open incident (R662). -/
def incCount (n : Nat) (i : Incident) : Incident :=
  if i.isOpen then
    { i with raises := min stat32 (i.raises + 1),
             sources := if i.sources.contains n then i.sources else i.sources ++ [n] }
  else i

/-- A TC0 message is committed: the load of the last second (R452). The level is that of a bucket filled by one a message
and drained by one a microsecond, as R30 states the load (log 45). -/
def tc0Note (t : Stamp) (e : EvState) : EvState :=
  let past := e.tc0Load.filter (fun x => decide (stampDiff t x.1 < 40000000))
  let level := match e.tc0Load with
    | x :: _ => x.2.1 - (stampDiff t x.1).toNat
    | [] => 0
  { e with tc0Load := (t, level + 40, e.tc0.length) :: past }

/-- An alarm of a source is committed: the TC0 message, the fault-log and TC3 copies, the guard of 100 us from `at_` (R658,
R659). The event the TC3 ring raises comes with it. -/
def commitAlarm (c : RaiseCtx) (at_ n : Nat) (p : PendingAlarm) (e : EvState) : EvState × Option Nat :=
  let r : EvRec := {
    type := 1, flags := recFlags p.held p.unsync, source := n, repeats := min 0xFFFF p.raises,
    count := tget 0 e.count n, stamp := p.first, lastDelta := deltaTicks p.first p.last,
    incident := incNumber e, origin := p.origin, arg := p.arg }
  let e1 := (evStat 1 1 e).1
  let e2 := { e1 with
    tc0 := e1.tc0 ++ [{ stream := 16, kind := 0x10, payload := [],
                        alarm := some { r with flags := if c.path then r.flags else r.flags ||| 2 } }]
    pending := tput none n none e1.pending
    recent := tput none n (some at_) e1.recent
    incident := { e1.incident with alarms := e1.incident.alarms + bitNat e1.incident.isOpen } }
  tc3Push r (flogAdd r (tc0Note c.now e2))

/-- A raise folded into the pending alarm of its source (R658). -/
def foldAlarm (c : RaiseCtx) (n : Nat) (arg : List Byte) (held : Bool) (e : EvState) : EvState :=
  let p : PendingAlarm :=
    match tget none e.pending n with
    | some q => { q with raises := q.raises + 1, last := c.now, arg := arg, held := q.held || held }
    | none => { raises := 1, first := c.now, last := c.now, arg := arg, held := held, unsync := c.unsync,
                origin := c.origin }
  { e with pending := tput none n (some p) e.pending }

/-- The sticky bit, count, tick and argument of a raise, whatever the enable (R653). -/
def markRaise (c : RaiseCtx) (n : Nat) (arg : List Byte) (e : EvState) : EvState :=
  { e with
    sticky := e.sticky ||| BitVec.ofNat 640 (2 ^ n)
    count := tmod 0 n (satAdd 0xFFFF 1) e.count
    last := tput 0 n c.now e.last
    arg := tput [] n (arg.take 32) e.arg }

/-- An alarm of the source was committed within the last 100 us (R658). -/
def guarded (c : RaiseCtx) (n : Nat) (e : EvState) : Bool := match tget none e.recent n with
  | some t => decide (c.up < t + 4000)
  | none => false

/-- A pending alarm of the source whose 100 us have passed, and the moment they did (R658). -/
def overdue (c : RaiseCtx) (n : Nat) (e : EvState) : Option (Nat × PendingAlarm) :=
  match tget none e.recent n, tget none e.pending n with
  | some t, some p => if t + 4000 ≤ c.up ∧ e.tc0.length < 64 ∧ p.held = false then some (t + 4000, p) else none
  | _, _ => none

/-- An event source is raised (R653). The raises that a raise itself causes (EV_605 to EV_608, EV_402 and EV_403)
are raised within it, to a depth that bounds them (log 25). -/
def evRaise : Nat → RaiseCtx → Nat → List Byte → EvState → EvState
  | 0, _, _, _, e => e
  | d + 1, c, n, arg, e =>
    if !isDefined n then e else
    let arg := arg.take 32
    let e : EvState := markRaise c n arg (evStat 0 1 e).1
    let on := bit e.en.toNat n
    let cls := evClass e n
    let opens := on && decide (cls = 2) && !e.incident.isOpen
    let e : EvState := if opens then
        let k := if e.incident.number ≥ 0xFFFF then 1 else e.incident.number + 1
        { (evStat 8 1 e).1 with incident := { isOpen := true, number := k, source := n, first := c.now, last := c.now, lastUp := c.up } }
      else e
    let e : EvState := if n = 608 then e else { e with incident := incCount n e.incident }
    let e : EvState := if opens then evRaise d c 608 [] e else e
    if !on then e else
    if cls = 0 then e
    else if cls = 1 then
      let r : EvRec := {
        type := 1, flags := recFlags false c.unsync, source := n, repeats := 1,
        count := tget 0 e.count n, stamp := c.now, incident := incNumber e, origin := c.origin, arg := arg }
      match tc3Push r e with
      | (e, none) => e
      | (e, some m) => evRaise d c m [] e
    else
      let e : EvState := { e with incident := { e.incident with last := c.now, lastUp := c.up } }
      let e : EvState := match overdue c n e with
        | some (t, p) => (match commitAlarm c t n p e with
          | (e, none) => e
          | (e, some m) => evRaise d c m [] e)
        | none => e
      let full := decide (64 ≤ e.tc0.length)
      if guarded c n e || (tget none e.pending n).isSome then
        { (foldAlarm c n arg false (evStat 2 1 e).1) with
            incident := { e.incident with folded := e.incident.folded + bitNat e.incident.isOpen } }
      else if full then
        let e : EvState := foldAlarm c n arg true (evStat 3 1 e).1
        let e : EvState := if e.holdSeen then e else evRaise d c 605 [] { e with holdSeen := true }
        if n = 403 then e else evRaise d c 403 [] e
      else
        let p : PendingAlarm := {
          raises := 1, first := c.now, last := c.now, arg := arg, held := false,
          unsync := c.unsync, origin := c.origin }
        let e : EvState := match commitAlarm c c.up n p e with
          | (e, none) => e
          | (e, some m) => evRaise d c m [] e
        if !c.path && decide (n ≠ 402) then evRaise d c 402 [] e else e

/-- Some RUNNING group allows TC0 (R448). -/
def tc0Path (s : State) : Bool :=
  (List.range 4).any (fun g => (groupAt s g).running && bit (groupAt s g).classes.toNat 0)

/-- The context of a raise with an ORIGIN (R657). -/
def raiseCtx (origin : Nat) (s : State) : RaiseCtx :=
  { now := s.tc.now, unsync := unsync s, origin := origin, path := tc0Path s, up := s.up }

/-- ORIGIN of a source that belongs to no half: 3 for the safety partition's, else 2 (log 25). -/
def originOf (n : Nat) : Nat := if 576 ≤ n ∧ n ≤ 590 then 3 else 2

/-- The depth to which a raise's own raises are followed. -/
def raiseDepth : Nat := 4

/-- An event source is raised with an ORIGIN. -/
def raiseFrom (origin n : Nat) (arg : List Byte) (s : State) : State :=
  onEv (evRaise raiseDepth (raiseCtx origin s) n arg) s

/-- A change of the event state; a statistic of EVT_STATS that saturates in it raises EV_612 (R668). -/
def evChange (f : State → State) (s : State) : State :=
  let t := f s
  if t.ev.statSat = s.ev.statSat then t else raiseFrom 2 612 [] t

/-- An event source is raised with its argument. -/
def raise (n : Nat) (arg : List Byte) (s : State) : State := evChange (raiseFrom (originOf n) n arg) s

/-- An event source is raised by one half. -/
def raiseBy (h : Half) (n : Nat) (arg : List Byte) (s : State) : State := evChange (raiseFrom h.code n arg) s

/-- A source raised under a condition. -/
def raiseIf (c : Bool) (n : Nat) (arg : List Byte) (s : State) : State := if c then raise n arg s else s

/-- A record of trouble other than an event (SUMMARY, CLAIM) enters the TC3 ring. -/
def logRecord (r : EvRec) (s : State) : State :=
  evChange (fun s => match tc3Push r s.ev with
    | (e, none) => { s with ev := e }
    | (e, some m) => raise m [] { s with ev := e }) s

/-- A message enters the TC0 source queue; a full queue takes none and raises EV_403, and with no RUNNING group
that allows TC0 the message waits and EV_402 is raised (R32, R448, log 26). -/
def tc0Send (m : Tc0Msg) (s : State) : State :=
  if 64 ≤ s.ev.tc0.length then raise 403 [] s
  else
    let s := onEv (fun e => tc0Note s.tc.now { e with tc0 := e.tc0 ++ [m] }) s
    if tc0Path s then s else raise 402 [] s

/-- Ticks pass: the time core counts them while the strobe runs, and its wrap raises EV_465 (R476). -/
def advance (n : Nat) (s : State) : State :=
  let s := { s with up := s.up + n }
  if s.tc.strobe then
    let t := s.tc.now + BitVec.ofNat 64 n
    let s' := onTc (fun x => { x with now := t }) s
    if epochOf t = epochOf s.tc.now then s' else raise 465 [] s'
  else s

/-- The block's clock is brought to a moment from which on an event can come, where it lies ahead (log 24). -/
def reachUp (t : Nat) (s : State) : State := if s.up < t then advance (t - s.up) s else s

/-- The block's time is brought to a tick that an event belongs to, where it lies ahead (log 24). -/
def reachTick (t : Stamp) (s : State) : State :=
  if s.tc.strobe ∧ 0 < tickAfter t s.tc.now then advance (tickAfter t s.tc.now).toNat s else s

end Sys2Proof.Machine
end

