-- ==== Sys2Proof/Machine/Settings.lean ====
section
/-! DEFINITION. The settings tags of every chapter, their lengths and defaults, and the running value of those that
are held as bytes (R75 to R78, R143, R190, R248, R295, R340, R387, R420, R473, R510, R537, R565, R595, R630, R666). -/
namespace Sys2Proof.Machine

/-- A byte string repeated. -/
def rep : Nat → List Byte → List Byte
  | 0, _ => []
  | n + 1, bs => bs ++ rep n bs

/-- One byte. -/
def b1 (v : Nat) : List Byte := leBytes 1 v

/-- Two bytes, lowest first. -/
def b2 (v : Nat) : List Byte := leBytes 2 v

/-- Four bytes, lowest first. -/
def b4 (v : Nat) : List Byte := leBytes 4 v

/-- Eight bytes, lowest first. -/
def b8 (v : Nat) : List Byte := leBytes 8 v

/-- A queue-map entry of R19: source mask, lane-group mask, enable. -/
def defaultMap (q : Nat) : Nat × Nat × Nat :=
  if q < 4 then (3 * 4 ^ q, 3, 1)
  else if q < 8 then (3 * 4 ^ q, 12, 1)
  else if q < 10 then (2 ^ (q + 8), 3, 1)
  else if q < 12 then (2 ^ (q + 8), 12, 1)
  else if q = 12 then (2 ^ 20, 1, 1)
  else if q = 13 then (2 ^ 21, 4, 1)
  else (0, 0, 0)

/-- A queue-map entry as bytes (R387). -/
def mapBytes (e : Nat × Nat × Nat) : List Byte := b4 e.1 ++ b1 e.2.1 ++ b1 e.2.2 ++ b2 0

/-- The default of an LD_EMITTERS entry (R595). -/
def emitterDefault : List Byte :=
  b1 0 ++ b1 0 ++ b2 80 ++ b2 100 ++ b2 80 ++ b1 0xFF ++ b1 64 ++ b2 80 ++ b2 4000 ++ b4 0

/-- The default of an LK_LANES group entry (R473). -/
def laneGroupDefault (g : Nat) : List Byte := [1, 3, 0, 1, 1, BitVec.ofNat 8 g, 0, 1]

/-- The default of an LK_ETH group entry (R473). -/
def ethDefault : List Byte :=
  leBytes 6 0 ++ b4 0 ++ b4 0 ++ leBytes 6 0 ++ b2 47100 ++ b2 47100 ++ b2 0 ++ b2 9000

/-- The default of a TI_INPUTS entry (R510). -/
def tiDefault : List Byte := [0, 0] ++ b2 1755 ++ [1, 0] ++ b2 0 ++ b4 1

/-- The default value of each settings tag; none for a number that is no tag. -/
def settingDefault (tag : Nat) : Option (List Byte) :=
  match tag with
  | 0x0101 => some [0]
  | 0x0102 => some (b2 500)
  | 0x0103 => some [0xFF]
  | 0x0104 => some [0]
  | 0x0201 => some [0, 0]
  | 0x0202 => some (List.replicate 256 0x30)
  | 0x0203 => some (rep 256 (b2 150))
  | 0x0204 => some (b2 100 ++ b2 25 ++ b2 20 ++ b2 12 ++ b2 16)
  | 0x0205 => some (b4 2441)
  | 0x0206 => some (b4 100000 ++ b1 16 ++ b2 10 ++ b4 60)
  | 0x0207 => some (rep 256 [0, 0, 0, 0, 0, 0xFF])
  | 0x0208 => some (b1 0 ++ b2 1500)
  | 0x0209 => some (b2 48)
  | 0x0301 => some (b2 785 ++ b2 770 ++ b2 755 ++ b1 3)
  | 0x0302 => some (b1 1 ++ b2 1024 ++ b1 16)
  | 0x0303 => some (rep 256 ([0xFF, 0] ++ b2 400))
  | 0x0304 => some (b2 200 ++ b2 24)
  | 0x0305 => some (b2 150)
  | 0x0401 => some (b2 50 ++ b1 1 ++ b1 20)
  | 0x0402 => some (List.replicate 16 0)
  | 0x0403 => some (rep 16 ([0, 90, 80, 0] ++ List.replicate 8 0xFF))
  | 0x0404 => some (List.replicate 64 0)
  | 0x0405 => some (b1 0x0F ++ b1 36 ++ b2 500)
  | 0x0406 => some (b2 1000)
  | 0x0501 => some (List.replicate 1024 0)
  | 0x0502 => some (List.replicate 64 1)
  | 0x0503 => some ([0, 0, 0x0F, 0] ++ b2 400 ++ b2 1)
  | 0x0504 => some ([0, 0] ++ b2 100)
  | 0x0601 => some [0, 0, 0, 0]
  | 0x0701 => some (rep 16 (b2 32))
  | 0x0702 => some ((List.range 16).flatMap (fun q => mapBytes (defaultMap q)))
  | 0x0703 => some (b2 64 ++ b1 1)
  | 0x0704 => some [3]
  | 0x0705 => some []
  | 0x0801 => some ((List.range 16).flatMap (fun q => [0, BitVec.ofNat 8 (q / 2 % 2), 4, 1]))
  | 0x0901 => some ((List.range 4).flatMap laneGroupDefault ++ b4 0)
  | 0x0902 => some (List.replicate 4 0x0F)
  | 0x0903 => some (List.replicate 16 1)
  | 0x0904 => some (b4 2000)
  | 0x0905 => some ([0x0F, 0] ++ b2 100)
  | 0x0906 => some (rep 4 ethDefault)
  | 0x0907 => some [0x0F]
  | 0x0908 => some (List.replicate 16 3)
  | 0x0A01 => some ([1, 2, 4, 0, 0, 0, 1, 0] ++ b2 10 ++ b2 10 ++ b2 100 ++ b2 100)
  | 0x0A02 => some ([1, 0x0F] ++ b2 100 ++ b2 10 ++ b2 10 ++ List.replicate 16 0)
  | 0x0A03 => some (List.replicate 16 0)
  | 0x0A04 => some (b4 0 ++ b2 100 ++ [0, 0] ++ b4 0 ++ b4 4000)
  | 0x0A05 => some (rep 4 tiDefault)
  | 0x0B01 => some (b2 2400 ++ b2 100 ++ [0, 0, 1, 1, 1, 1] ++ b2 0x00FF)
  | 0x0B02 => some (b2 900 ++ b2 1000)
  | 0x0B03 => some ([0, 3] ++ b4 10000000 ++ b2 1 ++ b4 1000000 ++ b2 100)
  | 0x0C01 => some (List.replicate 512 0)
  | 0x0C02 => some ([8, 16, 17, 18, 19, 20, 21, 22, 23] ++ List.replicate 17 0 ++ [0] ++ b4 1000)
  | 0x0C03 => some ([3, 0] ++ b2 16 ++ b4 0 ++ b4 100000 ++ b4 (unsigned 32 (-2000000)) ++ b4 2000000)
  | 0x0C04 => some (b2 3600)
  | 0x0D01 => some (rep 68 emitterDefault)
  | 0x0D02 => some (rep 4 ([0xFF, 0] ++ b2 600 ++ b2 200))
  | 0x0D03 => some [0]
  | 0x0D04 => some (b2 40 ++ b2 600 ++ b2 3600)
  | 0x0E01 => some (b4 0)
  | 0x0E02 => some (b4 0)
  | 0x0E03 => some [1]
  | 0x0F01 => some []
  | 0x0F02 => some (leBytes 80 definedSources.toNat)
  | 0x0F03 => some (b2 100 ++ b2 0 ++ b4 0)
  | _ => none

/-- The tags whose value is held as bytes in the state's settings table. -/
def cfg (s : State) (tag : Nat) : List Byte :=
  match tget none s.sys.cfg tag with
  | some v => v
  | none => (settingDefault tag).getD []

/-- The running value of a byte-held tag replaced; the default is left out of the table. -/
def setCfg (tag : Nat) (v : List Byte) (s : State) : State :=
  onSys (fun x => { x with cfg := tput none tag (if settingDefault tag = some v then none else some v) x.cfg }) s

/-- One entry of `n` bytes of a tag's value replaced. -/
def setCfgEntry (tag n i : Nat) (v : List Byte) (s : State) : State := setCfg tag (bytesPut (cfg s tag) (n * i) v) s

/-- A byte of a tag's value. -/
def cfg8 (s : State) (tag i : Nat) : Nat := byteAt (cfg s tag) i

/-- A 16-bit number of a tag's value. -/
def cfg16 (s : State) (tag i : Nat) : Nat := u16At (cfg s tag) i

/-- A 32-bit number of a tag's value. -/
def cfg32 (s : State) (tag i : Nat) : Nat := u32At (cfg s tag) i

/-- The tile identity in force: TILE_ID_OVERRIDE or the TILE_ID balls (R78). -/
def tileIdentity (s : State) : Nat := if cfg8 s 0x0103 0 = 0xFF then s.sys.tileId.toNat else cfg8 s 0x0103 0

end Sys2Proof.Machine
end

