-- ==== Sys2Proof/Machine/Calls.lean ====
section
/-! DEFINITION. Mailboxes, the answering of calls, and jobs (R48 to R59, R697 to R699). -/
namespace Sys2Proof.Machine

/-- Where a call is allowed, as the last column of its catalogue row says. -/
structure Allowed where
  /-- EASY -/
  e : Bool
  /-- PADDLE -/
  p : Bool
  /-- DRIVE -/
  d : Bool
  /-- boot hold -/
  bh : Bool
  /-- allowed in MB_0 and MB_1 -/
  pri : Bool

/-- E P D. -/
def epd : Allowed := ⟨true, true, true, false, false⟩
/-- E P D; pri. -/
def epdPri : Allowed := ⟨true, true, true, false, true⟩
/-- E P D BH. -/
def epdBh : Allowed := ⟨true, true, true, true, false⟩
/-- E P D BH; pri. -/
def epdBhPri : Allowed := ⟨true, true, true, true, true⟩
/-- P D. -/
def pOrD : Allowed := ⟨false, true, true, false, false⟩
/-- P D; pri. -/
def pOrDPri : Allowed := ⟨false, true, true, false, true⟩
/-- The state allows the call. -/
def allowedNow (a : Allowed) (s : State) : Bool :=
  if s.sys.bootHold then a.bh
  else match s.sys.power with
    | .easy => a.e
    | .paddle => a.p
    | .drive => a.d
    | _ => false

/-- The request payload of a mailbox: REQ_LEN bytes (R48). -/
def request (m : Mailbox) : List Byte := tslice 0 m.payload 0 m.reqLen

/-- The call code of a mailbox's request: bits [15:0] of payload word 0 (R48). -/
def reqCode (m : Mailbox) : Nat := (tget 0 m.payload 0).toNat + 256 * (tget 0 m.payload 1).toNat

/-- Bits [31:16] of payload word 0 are zero (R48). -/
def reservedZero (m : Mailbox) : Bool := decide (tget 0 m.payload 2 = 0 ∧ tget 0 m.payload 3 = 0)

/-- The parameters of a request, from payload byte 4 (R48). -/
def params (m : Mailbox) : List Byte := (request m).drop 4

/-- The calls are served now: by the lead's firmware in EASY, PADDLE and DRIVE, or by the boot ROM of the lead in
boot hold (R56, R86, R697). -/
def serving (s : State) : Bool :=
  !s.sys.por && (s.sys.bootHold || (awake s && twoGet s.sys.firmware (lead s)))

/-- A request waits in MB_0 or MB_1. -/
def priorityWaits (s : State) : Bool :=
  ((mbAt s 0).busy && !(mbAt s 0).taken) || ((mbAt s 1).busy && !(mbAt s 1).taken)

/-- It is the mailbox's turn: MB_0 and MB_1 at any time, MB_2 to MB_7 in the order rung, interrupted by a request in MB_0
or MB_1 (R53, R54, R697). -/
def itsTurn (s : State) (n : Nat) : Bool :=
  decide (n < 2) || (decide (s.sys.waitQ.head? = some n) && !priorityWaits s)

/-- A response is placed: the payload, RSP_LEN, RSP_SEQ and CODE, then DONE, BUSY and RING, and EV_(8 + n) (R49). -/
def respond (n status : Nat) (bytes : List Byte) (s : State) : State :=
  let m := mbAt s n
  let code := reqCode m
  let pay := b2 code ++ [BitVec.ofNat 8 status, 0] ++ bytes
  let s := modMb n (fun m => { m with
    payload := tfill 0 0 pay m.payload, rspLen := pay.length, rspSeq := m.reqSeq, code := status,
    done := true, busy := false, taken := false }) s
  let s := onSys (fun x => { x with waitQ := x.waitQ.filter (fun k => decide (k ≠ n)) }) s
  raise (8 + n) [] s

/-- What a call does: it answers with a status and result bytes, or its answer comes with a later event. -/
inductive Reply where
  /-- answered now -/
  | done (status : Nat) (bytes : List Byte) (s : State)
  /-- taken; a later event answers -/
  | later (s : State)

/-- Status codes of R58. -/
def stOk : Nat := 0
/-- BUSY. -/
def stBusy : Nat := 1
/-- BAD_CALL. -/
def stBadCall : Nat := 2
/-- BAD_PARAM. -/
def stBadParam : Nat := 3
/-- STATE. -/
def stState : Nat := 4
/-- DENIED. -/
def stDenied : Nat := 5
/-- TIMEOUT. -/
def stTimeout : Nat := 6
/-- DEFERRED. -/
def stDeferred : Nat := 7
/-- HW_FAULT. -/
def stHwFault : Nat := 8

/-- OK with result bytes. -/
def okBytes (bs : List Byte) (s : State) : Reply := .done stOk bs s
/-- OK without result. -/
def ok (s : State) : Reply := .done stOk [] s
/-- A status, and nothing done. -/
def refuse (status : Nat) (s : State) : Reply := .done status [] s

/-- BAD_PARAM unless a condition on the parameters holds. -/
def need (c : Bool) (k : State → Reply) (s : State) : Reply := if c then k s else refuse stBadParam s

/-- STATE unless a condition holds. -/
def needState (c : Bool) (k : State → Reply) (s : State) : Reply := if c then k s else refuse stState s

/-- DENIED unless a condition holds. -/
def needClaim (c : Bool) (k : State → Reply) (s : State) : Reply := if c then k s else refuse stDenied s

/-- A mailbox has a request that this call row takes up: rung, not yet taken, its turn, served now, and the call
code is this call's (and, where several rows share a code, the parameters are this row's). -/
def callReady (n code : Nat) (sel : List Byte → Bool) (s : State) : Bool :=
  let m := mbAt s n
  m.busy && !m.taken && serving s && itsTurn s n && decide (reqCode m = code) && sel (params m)

/-- The lead half is isolated (R651). -/
def leadIsolated (s : State) : Bool := (viewAt s (lead s)).isolated

/-- The checks before a call is carried out, in the order of log 27, and then the call (R48, R52, R53, R58, R651,
R85). -/
def checkCall (n code : Nat) (a : Allowed) (len : Nat) (act : List Byte → State → Reply) (s : State) : Reply :=
  let m := mbAt s n
  if leadIsolated s && decide (code ≠ 0x0100 ∧ code ≠ 0x0101) then refuse stDenied s
  else if m.reqLen < 4 ∨ 240 < m.reqLen then refuse stBadParam s
  else if !reservedZero m then refuse stBadParam s
  else if n < 2 && !a.pri then refuse stBadCall s
  else if s.sys.bootHold && decide (s.sys.bootResult = 0x13) && !([0x0100, 0x0101, 0x0104].contains code) then
    refuse stState s
  else if !allowedNow a s then refuse stState s
  else if (params m).length < len then refuse stBadParam s
  else act (params m) s

/-- What a reply does to the mailbox: the response is placed, or the request is marked taken. -/
def settle (n : Nat) : Reply → State
  | .done st bs s => respond n st bs s
  | .later s => modMb n (fun m => { m with taken := true }) s

/-- A call row with a condition on the parameters that tells it from the other rows of its code. -/
def callSel (n code : Nat) (sel : List Byte → Bool) (a : Allowed) (len : Nat) (act : List Byte → State → Reply)
    (s : State) : Out :=
  event (callReady n code sel s) (fun s => settle n (checkCall n code a len act s)) s

/-- A call row: the request waiting in the mailbox is checked, carried out and answered (R49). -/
def call (n code : Nat) (a : Allowed) (len : Nat) (act : List Byte → State → Reply) (s : State) : Out :=
  callSel n code (fun _ => true) a len act s

/-- The open jobs that have begun. -/
def runningJobs (s : State) : List Job := s.sys.jobs.filter (fun j => decide (j.state = 1))

/-- A job with a number is open. -/
def openJob (s : State) (num : Nat) : Option Job := s.sys.jobs.find? (fun j => decide (j.num = num))

/-- The number after a job number: 1 after 0xFFFF (R698). -/
def nextJobNumber (n : Nat) : Nat := if n ≥ 0xFFFF then 1 else n + 1

/-- The half that carries out a job: for one that reads or writes the flash the half that holds the flash claims, else the
lead (R83). -/
def jobHalf (s : State) (code : Nat) : Half :=
  if [0x0107, 0x010A, 0x010C, 0x0F09].contains code then (holder s 16).getD (lead s) else lead s

/-- A job is entered in the job table with a state: 0 queued, 1 running (R55, R698). -/
def addJob (code : Nat) (par : List Byte) (state : Nat) (start : Stamp) (s : State) : Nat × State :=
  let n := s.sys.nextJob
  let h := jobHalf s code
  (n, onSys (fun x => { x with
    jobs := x.jobs ++ [{ num := n, code := code, params := par, state := state, half := h, start := start }]
    nextJob := nextJobNumber n }) s)

/-- A job call is answered: BUSY with eight open jobs, else OK with the job number (R55). -/
def startJob (code : Nat) (par : List Byte) (begin_ : Nat → State → State) (s : State) : Reply :=
  if 8 ≤ s.sys.jobs.length then refuse stBusy s
  else
    let (n, s) := addJob code par 1 0 s
    okBytes (b2 n) (begin_ n s)

/-- A LOW job that the governor defers is answered DEFERRED with its expected start and number (R58, R526). -/
def deferJob (code : Nat) (par : List Byte) (start : Stamp) (s : State) : Reply :=
  if 8 ≤ s.sys.jobs.length then refuse stBusy s
  else
    let (n, s) := addJob code par 0 start s
    .done stDeferred (b8 start.toNat ++ b2 n) s

/-- An open job ends: it leaves the open jobs, its outcome is kept among the last sixteen, and EV_022 is raised
(R55, R698, R699). -/
def endJob (num state status reason : Nat) (s : State) : State :=
  match openJob s num with
  | none => s
  | some j =>
    let j' : Job := { j with state := state, percent := if state = 2 then 100 else j.percent, status := status, reason := reason }
    let s := onSys (fun x => { x with
      jobs := x.jobs.filter (fun k => decide (k.num ≠ num)), ended := (j' :: x.ended).take 16 }) s
    raise 22 [] s

/-- A job ends done. -/
def jobDone (num : Nat) (s : State) : State := endJob num 2 stOk 0 s

/-- A job ends failed with reason OTHER (R699). -/
def jobFail (num : Nat) (s : State) : State := endJob num 3 stHwFault 0xFF s

/-- A statistic saturates: the event of its chapter is raised (R144 and the chapters' statistics). -/
def satEvent (ev : Nat) (sat : Bool) (s : State) : State := raiseIf sat ev [] s

/-- A statistics result: the counts in order and the saturation bits, as 32-bit words. -/
def statBytes (n : Nat) (t : Table Nat) (sat : Nat) : List Byte := (tslice 0 t 0 n).flatMap b4 ++ b4 sat

/-- A parameter byte. -/
def p8 (p : List Byte) (i : Nat) : Nat := byteAt p i
/-- A 16-bit parameter. -/
def p16 (p : List Byte) (i : Nat) : Nat := u16At p i
/-- A 32-bit parameter. -/
def p32 (p : List Byte) (i : Nat) : Nat := u32At p i

end Sys2Proof.Machine
end

