-- ==== Sys2Proof/Machine/Flags.lean ====
section
/-! DEFINITION. The words the host window shows (R40 to R44, R48, R439, R479, R629, R644, R654) and the levels of
IRQ_N and ALERT_N (R93, R665). -/
namespace Sys2Proof.Machine

/-- A number with fields laid from their lowest bit. -/
def word (fs : List (Nat × Nat)) : Nat := fs.foldl (fun a f => a + f.2 * 2 ^ f.1) 0

/-- The claims on some resource are equal (R644). -/
def anyEqual (s : State) : Bool := (List.range 18).any (fun r => decide (claimOf s r .s = claimOf s r .b))

/-- The claims resources have after boot: who holds each, by BOOT_SEL (R17, R643). -/
def bootHolder (bootSel r : Nat) : Half :=
  if r < 4 then (if r < 2 then .s else .b)
  else if r < 8 then (if r = 4 ∨ r = 7 then .s else .b)
  else if r < 12 then (if r < 10 then .s else .b)
  else if r < 16 then (if r < 14 then .s else .b)
  else if bootSel = 1 then .b else .s

/-- A half is isolated (R651). -/
def anyIsolated (s : State) : Bool := (viewAt s .s).isolated || (viewAt s .b).isolated

/-- CLAIMS (R644). -/
def claimsWord (s : State) : Nat :=
  if !s.red.started then 0
  else word [(30, (viewAt s .s).state), (28, (viewAt s .b).state), (27, bitNat (viewAt s (lead s)).xlink),
    (26, bitNat s.red.ext), (25, bitNat (viewAt s .s).arbLost), (24, bitNat (viewAt s .b).arbLost),
    (23, bitNat (anyIsolated s)), (21, bitNat (anyEqual s)), (0, maskOf 18 (fun r => holds s r .b))]

/-- SYS_STATE (R44). -/
def sysStateWord (s : State) : Nat :=
  word [(11, bitNat s.sys.bootHold), (10, bitNat s.sys.halfOk.b), (9, bitNat s.sys.halfOk.s), (8, (lead s).code),
    (0, powerCode s.sys.power)]

/-- FREQ_STATE as a number (R479). -/
def freqCode : FreqState → Nat
  | .freerun => 0 | .acquiring => 1 | .locked => 2 | .holdover => 3

/-- TIME_STATE as a number (R479). -/
def timeCode : TimeState → Nat
  | .unsync => 0 | .acquiring => 1 | .sync => 2 | .holdover => 3 | .coarse => 4

/-- RESYNC: packets are formed with it while TIME_STATE is ACQUIRING or COARSE, and from the acceptance of a TIME_SET
with no time source through its step edge (R27, R487, R501). -/
def resync (s : State) : Bool :=
  decide (s.tc.timeState = .acquiring ∨ s.tc.timeState = .coarse) || s.tc.setting

/-- A frequency source REF_IN, OCXO_IN, LN0_RX by code 1 to 3. -/
def freqSource (s : State) (c : Nat) : FreqSource := tget {} s.tc.src c

/-- TIME_STATE (R479). -/
def timeStateWord (s : State) : Nat :=
  word [(26, s.tc.freqSrc), (24, freqCode s.tc.freqState), (20, timeCode s.tc.timeState), (18, if s.sys.settingsDone then cfg8 s 0x0A02 0 else 0),
    (17, bitNat (resync s)), (16, bitNat (decide (s.up < s.tc.tmrUntil))), (15, bitNat (freqSource s 1).present),
    (14, bitNat (freqSource s 2).present), (13, bitNat s.tc.ocxoRdy), (12, bitNat (laneAt s 0).lock),
    (11, bitNat s.tc.ppsPresent)]

/-- The lanes of a group. -/
def groupLanes (g : Nat) : List Nat := [4 * g, 4 * g + 1, 4 * g + 2, 4 * g + 3]

/-- The mode of a group in LK_LANES: 0 off, 1 native, 2 Ethernet (R473). -/
def groupMode (s : State) (g : Nat) : Nat := cfg8 s 0x0901 (8 * g)

/-- The group byte of LINK_STATE (R439; what counts as NEGOTIATING is log 28). -/
def groupByte (s : State) (g : Nat) : Nat :=
  let x := groupAt s g
  let ls := groupLanes g
  let st := if x.running then 2
    else if ls.any (fun l => decide ((laneAt s l).state = .test)) then 3
    else if ls.any (fun l => match (laneAt s l).state with
        | .rate | .fec | .group | .align | .map => true
        | _ => false) then 1
    else 0
  word [(6, st), (4, x.rate), (2, if x.width = 4 then 3 else x.width),
    (1, bitNat (ls.any (fun l => (laneAt s l).fecOn))), (0, bitNat (decide (groupMode s g = 2)))]

/-- LINK_STATE (R439). -/
def linkStateWord (s : State) : Nat :=
  word [(24, groupByte s 3), (16, groupByte s 2), (8, groupByte s 1), (0, groupByte s 0)]

/-- BOOT_STATUS (R43). -/
def bootStatusWord (s : State) : Nat :=
  word [(16, s.sys.bootResult.toNat), (10, s.sys.readMode), (9, s.sys.bootCs), (8, s.sys.bootSlot),
    (4, s.sys.attempts), (0, (lead s).code)]

/-- A word of the identity block (R43). -/
def identityWord (s : State) (off : Nat) : Nat :=
  match off with
  | 0x00 => s.sys.partNum.toNat
  | 0x04 => word [(16, s.sys.stepping.toNat), (8, s.sys.screen.toNat), (0, s.sys.romVer.toNat)]
  | 0x08 => s.sys.serial.toNat % 2 ^ 32
  | 0x0C => s.sys.serial.toNat / 2 ^ 32
  | 0x10 => s.sys.lc.toNat
  | 0x14 => s.sys.fwVersion.toNat
  | 0x18 => word [(8, s.sys.keyRevoked.toNat), (0, s.sys.rbCount)]
  | 0x1C => word [(8, s.sys.bootSel.toNat), (0, s.sys.tileId.toNat)]
  | 0x20 => bootStatusWord s
  | _ => 0

/-- A word of mailbox `n` (chapter 02, Mailboxes). -/
def mailboxWord (m : Mailbox) (off : Nat) : Nat :=
  if off = 0 then bitNat m.busy
  else if off = 4 then word [(8, m.code), (1, bitNat m.done), (0, bitNat m.busy)]
  else if off = 8 then word [(16, m.rspSeq), (0, m.reqSeq)]
  else if off = 12 then word [(16, m.rspLen), (0, m.reqLen)]
  else leNat (tslice 0 m.payload (off - 16) 4)

/-- Word `k` of a 640-bit map (R41). -/
def evWord (v : BitVec 640) (k : Nat) : Nat := (v.toNat / 2 ^ (32 * k)) % 2 ^ 32

/-- What a read of the window returns at an aligned address; an unlisted address reads zero (R40). -/
def windowRead (s : State) (addr : Nat) : Word :=
  BitVec.ofNat 32 (
    if addr % 4 ≠ 0 then 0
    else if addr < 0x100 then identityWord s addr
    else if addr < 0x900 then mailboxWord (mbAt s ((addr - 0x100) / 0x100)) (addr % 0x100)
    else if 0x1000 ≤ addr ∧ addr < 0x1050 then evWord s.ev.sticky ((addr - 0x1000) / 4)
    else if 0x1100 ≤ addr ∧ addr < 0x1150 then evWord s.ev.en ((addr - 0x1100) / 4)
    else if addr = 0x2000 then sysStateWord s
    else if addr = 0x2004 then timeStateWord s
    else if addr = 0x2008 then linkStateWord s
    else if addr = 0x200C then claimsWord s
    else if 0x3000 ≤ addr ∧ addr < 0x3014 then s.sf.mirror.getD ((addr - 0x3000) / 4) 0
    else 0)

/-- The delivery of a source includes IRQ_N: the host's setting, else MB_IRQ_MASK for EV_008 to EV_015, else the
default of R655 (R78, R93, R655). -/
def irqFlag (s : State) (n : Nat) : Bool :=
  match tget none s.ev.cfg n with
  | some (_, f) => f
  | none => if 8 ≤ n ∧ n ≤ 15 then bit (cfg8 s 0x0104 0) (n - 8) else alarmDefaults.contains n

/-- IRQ_N is asserted (low): some enabled source that delivers to it has its sticky bit set (R93). -/
def irqAsserted (s : State) : Bool :=
  (maskList 640 (s.ev.sticky &&& s.ev.en).toNat).any (irqFlag s)

/-- ALERT_N is asserted (low): from power-on reset or a warm reset until the boot ends in EASY, in boot hold and in
a stopped boot (R93), and while the module runs degraded (R665). -/
def alertAsserted (s : State) : Bool :=
  decide (s.sys.bootResult = 0x01) || s.sys.bootHold || s.sys.noCox || s.sys.por
    || decide ((viewAt s .s).state ≠ 1) || decide ((viewAt s .b).state ≠ 1)
    || (viewAt s .s).arbLost || (viewAt s .b).arbLost || anyIsolated s || anyEqual s
    || s.red.noMajority || decide (s.sf.part = 2) || s.pw.latch

end Sys2Proof.Machine
end

