-- ==== Sys2Proof/Machine/SafetyOps.lean ====
section
/-! DEFINITION. The safety partition's own logic (chapter 15): causes, the two functions, trips, lockout, the mirror
words and STATUS frames; and its start (R602) with the arbiter's boot claims (R643). -/
namespace Sys2Proof.Machine

/-- Value of sealed switch n as read at start-up: tying B low gives 1 (R604). -/
def sealOf (s : State) (n : Nat) : Bool := s.sf.sealsRead && bit s.sf.sealRaw.toNat (2 * n + 1)

/-- Every pair of a raw reading has exactly one ball low (R604). -/
def sealsValid (raw : BitVec 12) : Bool :=
  (List.range 6).all (fun n => bit raw.toNat (2 * n) != bit raw.toNat (2 * n + 1))

/-- ILK_n is closed: both of its channels are (R608). -/
def ilkClosed (s : State) (n : Nat) : Bool := (ilkAt s n).a && (ilkAt s n).b

/-- The causes of R616 present now, bit k for cause k. -/
def hvCauses (s : State) : Nat :=
  word ((List.range 4).map (fun n => (n, bitNat (!ilkClosed s n))) ++
    [(4, bitNat ((List.range 4).any (fun n => (ilkAt s n).disc))), (5, bitNat s.sf.cooling), (6, bitNat s.sf.hvmon),
     (7, bitNat (if sealOf s 3 then !s.sf.conn else s.sf.expiry)), (8, bitNat (s.sf.conn && !s.sf.permit)),
     (9, bitNat (!s.sf.hvReq)), (10, bitNat (bit s.sf.soFault.toNat 0 || (!sealOf s 2 && bit s.sf.soFault.toNat 1))),
     (11, bitNat (sealOf s 4 && decide (s.sys.power = .hold)))])

/-- The close conditions of R617: ILK_1 open, its discrepancy, cooling fault, host, output fault on SO_1. -/
def closeSet (s : State) : Nat :=
  word [(0, bitNat (!ilkClosed s 1)), (1, bitNat (ilkAt s 1).disc), (2, bitNat s.sf.cooling),
    (3, bitNat s.sf.hostClose), (4, bitNat (bit s.sf.soFault.toNat 1))]

/-- The lowest bit set of a number below 16, 15 if none. -/
def lowBit (v : Nat) : Nat := ((List.range 16).find? (fun k => bit v k)).getD 15

/-- Cause numbers of R616 for the close conditions, 15 for the host's own. -/
def closeCause (k : Nat) : Nat := [1, 4, 5, 15, 10].getD k 15

/-- A safety statistic increased (R632). -/
def sfStat (i : Nat) (s : State) : State :=
  let r := statBump s.sf.stats s.sf.statSat i 1
  satEvent 590 r.2.2 (onSf (fun x => { x with stats := r.1, statSat := r.2.1 }) s)

/-- A trip-log entry is added, newest first, sixteen kept (R631). -/
def logTrip (fn first : Nat) (s : State) : State :=
  onSf (fun x => { x with trips := ({
    fn := fn, first := first, causes := hvCauses s, stamp := now s, ms := (s.up - x.porAt) / 40000 } :: x.trips).take 16 }) s

/-- Outputs of a dark test by call that are no longer on read 3, aborted by trip; with none left the call is answered
(R613, R631). -/
def settleDark (s : State) : State :=
  match s.sf.dark with
  | none => s
  | some (n, left, res) =>
    let cut := left &&& ~~~ s.sf.soCmd
    let res := (List.range 2).map (fun k => if bit cut.toNat k then 3 else res.getD k 2)
    let left := left &&& s.sf.soCmd
    if left = 0 then respond n stOk (res.map (BitVec.ofNat 8)) (onSf (fun x => { x with dark := none }) s)
    else onSf (fun x => { x with dark := some (n, left, res) }) s

/-- The causes that trip: all but the missing host request (R618). -/
def tripCauses (s : State) : Nat := maskOf 12 (fun k => bit (hvCauses s) k && decide (k ≠ 9))

/-- The close conditions that need a reset to leave: all but the host's own (log 31). -/
def hardClose (s : State) : Nat := maskOf 5 (fun k => bit (closeSet s) k && decide (k ≠ 3))

/-- The HV function is in LOCKOUT: the partition is, or an output it drives is faulty (R614). -/
def hvLocked (s : State) : Bool := decide (s.sf.part = 2) || bit (hvCauses s) 10

/-- A function's reset is needed: set while a condition is missing under manual restart, cleared under automatic
restart when every condition holds (R618), unless a cleared discrepancy latch (`disc`) needs it (R609). -/
def resetNext (s : State) (missing : Nat) (disc old : Bool) : Bool :=
  if !sealOf s 5 && decide (missing ≠ 0) then true
  else if sealOf s 5 && !disc && decide (missing = 0) then false
  else old

/-- HV_STATE by the conditions (R616, R618, R629; TRIPPED for a function with a request and a cause is log 31). -/
def hvNext (s : State) : Nat :=
  if hvLocked s then 4 else if !s.sf.hvReq then 0 else if tripCauses s ≠ 0 then 3
  else if resetNext s (tripCauses s) s.sf.discReset s.sf.resetHv then 1 else 2

/-- SHUTTER_STATE by the conditions (R617, R629). -/
def shutterNext (s : State) : Nat :=
  if s.sf.part = 2 then 4 else if !sealOf s 2 then 0 else if bit (closeSet s) 4 then 4
  else if closeSet s ≠ 0 ∨ resetNext s (hardClose s) s.sf.discSh s.sf.resetSh = true then 2 else 1

/-- The cause that starts a trip: the lowest new one, else the lowest present (R629). -/
def firstCause (s : State) : Nat :=
  let fresh := maskOf 12 (fun k => bit (tripCauses s) k && !bit s.sf.seenHv k)
  if fresh ≠ 0 then lowBit fresh else if tripCauses s ≠ 0 then lowBit (tripCauses s) else 10

/-- A trip of the HV permission: FIRST, the log, the count, EV_576, and in HOLD a wake request, but not for the trip by the
entry to HOLD (R618, R621, log 31). -/
def tripHv (s : State) : State :=
  let f := firstCause s
  let s := sfStat 0 (logTrip 0 f s)
  raise 576 [] (onSf (fun x => { x with
    first := f, wakeReq := x.wakeReq || decide (s.sys.power = .hold ∧ x.safeWake = 1 ∧ f ≠ 11) }) s)

/-- New close conditions each raise EV_587 and count; the shutter's own trip is logged (R617). -/
def tripShutter (s : State) : State :=
  let fresh := maskOf 5 (fun k => bit (closeSet s) k && !bit s.sf.seenSh k)
  let s := forAll (maskList 5 fresh) (fun _ s => raise 587 [] (sfStat 1 s)) s
  when (decide (s.sf.shutter = 1) && decide (closeSet s ≠ 0)) (logTrip 1 (closeCause (lowBit (closeSet s)))) s

/-- The outputs commanded on: SO_0 by the HV permission, SO_1 by it or by the shutter function (R605, R616, R617). -/
def outputsOn (s : State) (hv sh : Nat) : BitVec 2 :=
  BitVec.ofNat 2 (bitNat (decide (hv = 2)) + 2 * bitNat (if sealOf s 2 then decide (sh = 1) else decide (hv = 2)))

/-- The functions take their states, and their outputs the commands that follow (R616, R617); the switch-on of an output is
noted (R613). -/
def setFunctions (s : State) : State :=
  let hv := hvNext s
  let sh := shutterNext s
  onSf (fun x => { x with
    hv := hv
    shutter := sh
    resetHv := resetNext s (tripCauses s) x.discReset x.resetHv
    resetSh := resetNext s (hardClose s) x.discSh x.resetSh
    seenHv := hvCauses s
    seenSh := closeSet s
    soCmd := outputsOn s hv sh
    onAt := (List.range 2).foldl (fun t n =>
      if bit (outputsOn s hv sh).toNat n && !bit x.soCmd.toNat n then tput 0 n s.up t else t) x.onAt }) s

/-- The functions are evaluated (R616 to R618): trips with their log and events, the states, the outputs' commands. -/
def sfEval (s : State) : State :=
  if s.sf.part = 0 then s else
  let lock := decide (s.sf.part = 2)
  let s := when (decide (s.sf.hv = 2) && (decide (tripCauses s ≠ 0) || hvLocked s)) tripHv s
  let s := tripShutter s
  let t := setFunctions s
  let t := raiseIf (!lock && (decide (t.sf.hv = 4 ∧ s.sf.hv ≠ 4) || decide (t.sf.shutter = 4 ∧ s.sf.shutter ≠ 4))) 582 [] t
  settleDark (raiseIf (decide (t.sf.hv = 2 ∧ s.sf.hv ≠ 2)) 577 [] t)

/-- The partition enters LOCKOUT with a cause (R600, R602, R606, R629). -/
def lockout (cause : Nat) (s : State) : State :=
  if s.sf.part = 2 then s
  else sfEval (raise 582 [] (raiseIf (decide (cause = 1 ∨ cause = 2)) 581 []
    (onSf (fun x => { x with part := 2, cause := cause }) s)))

/-- An output fault: its latch, its event, and the evaluation that sends its function to LOCKOUT (R614). -/
def outputFault (n ev : Nat) (s : State) : State :=
  if bit s.sf.soFault.toNat n then s
  else sfEval (raise ev [] (onSf (fun x => { x with soFault := x.soFault ||| BitVec.ofNat 2 (2 ^ n) }) s))

/-- A reset request, by call or by COMMAND (a removed host request is no cause, log 31): refused while a cause is present, except the one of R628; answered
whether it was carried out (R609, R618, R628). -/
def sfReset (s : State) : Bool × State :=
  let c := hvCauses s
  let c := c - (if bit c 9 then 2 ^ 9 else 0)
  if decide (s.sf.part = 1) && (decide (c = 0) || (decide (c = 2 ^ 7) && !sealOf s 3 && s.sf.expiry)) then
    (true, sfEval (onSf (fun x => { x with expiry := false, resetHv := false, resetSh := false, discReset := false, discSh := false }) s))
  else (false, sfStat 7 s)

/-- SF_STATE (R629). -/
def sfStateWord (s : State) : Nat :=
  word [(20, s.sf.part), (16, s.sf.cause), (12, s.sf.hv), (8, s.sf.shutter), (7, bitNat s.sf.conn),
    (6, bitNat s.sf.hvReq), (5, bitNat (s.sf.resetHv || s.sf.resetSh)), (4, bitNat s.sf.cooling),
    (3, bitNat s.sf.hostClose)]

/-- SF_IO (R629). -/
def sfIoWord (s : State) : Nat :=
  word ((List.range 4).map (fun n => (16 + 2 * n, bitNat (ilkAt s n).a)) ++
    (List.range 4).map (fun n => (17 + 2 * n, bitNat (ilkAt s n).b)) ++
    (List.range 4).map (fun n => (12 + n, bitNat (ilkAt s n).disc)) ++
    (List.range 4).map (fun n => (8 + n, bitNat (ilkClosed s n))) ++
    [(6, s.sf.soFault.toNat), (4, s.sf.soCurrent.toNat), (2, s.sf.soCmd.toNat)])

/-- SF_CAUSES (R629). -/
def sfCausesWord (s : State) : Nat := word [(16, s.sf.first), (0, hvCauses s)]

/-- SF_CONFIG (R629). -/
def sfConfigWord (s : State) : Nat :=
  word [(18, bitNat (s.sf.sealsRead && sealsValid s.sf.sealRaw)), (12, maskOf 6 (sealOf s)), (0, s.sf.sealRaw.toNat)]

/-- The five mirror words (R629). -/
def mirrorWords (s : State) : List Nat :=
  [sfStateWord s, sfIoWord s, sfCausesWord s, sfConfigWord s, s.sf.peer]

/-- The mirror is copied (R629). -/
def copyMirror (s : State) : State := onSf (fun x => { x with mirror := mirrorWords s }) s

/-- The safety CRC (R624). -/
def safetyCrc (bs : List Byte) : Nat := (crcMsb 32 0x741B8CD7 0xFFFFFFFF bs) ^^^ 0xFFFFFFFF

/-- A STATUS frame (R623). -/
def statusFrame (s : State) : List Byte :=
  let body := b1 2 ++ b1 1 ++ b2 s.sf.txSeq ++ b4 (s.sys.serial.toNat % 2 ^ 32) ++ b4 s.sf.peer ++
    b2 s.sf.watchdog ++ b2 s.sf.echo ++ b4 (sfStateWord s) ++ b4 (sfCausesWord s) ++
    b4 (u32At (chanAt s 24).result 4)
  body ++ b4 (safetyCrc body)

/-- A STATUS frame goes to the TC0 source queue, two in a millisecond at most and later where two have gone, to a known
controller only (R626, log 31). -/
def sendStatus (s : State) : State :=
  let recent := s.sf.sentAt.filter (fun t => decide (s.up < t + ms 1))
  if s.sf.peer = 0 then s
  else if 2 ≤ recent.length then onSf (fun x => { x with owe := true }) s
  else
    let f := statusFrame s
    let s := onSf (fun x => { x with
      txSeq := (x.txSeq + 1) % 2 ^ 16, sentAt := s.up :: recent, sent := some (sfStateWord s, sfCausesWord s), owe := false }) s
    tc0Send { stream := 18, kind := 0x13, payload := f } s

/-- The arbiter sets the claims at boot step 3 (R640, R643): the holder 1, the other half 0. -/
def bootClaims (s : State) : State :=
  onRed (fun r => { r with
    started := true
    claim := (List.range 18).foldl (fun t k => tput 0 (2 * k + (bootHolder s.sys.bootSel.toNat k).code) 1 t) [] }) s

/-- The cooling report of the rate governor sets the cooling fault (R619). -/
def coolingReport (s : State) : State :=
  if s.sf.cooling then s else sfEval (raise 589 [] (onSf (fun x => { x with cooling := true }) s))

/-- The latch of R535 clears the cooling fault (R619). -/
def coolingClear (s : State) : State := sfEval (onSf (fun x => { x with cooling := false }) s)

/-- The settings hand-over of R603: accepted once after each power-on reset. -/
def handOver (s : State) : State :=
  if s.sf.handed || !s.sf.started then s
  else onSf (fun x => { x with
    handed := true, peer := cfg32 s 0x0E01 0, hvTrip := cfg32 s 0x0E02 0, safeWake := cfg8 s 0x0E03 0 }) s

/-- An MC_24 result reaches the partition (R620): a result of its own request above HV_TRIP twice in a row, or with
BREAK, trips; a good result clears the cause (log 31). -/
def hvmonResult (own : Bool) (value : Int) (brk : Bool) (s : State) : State :=
  if !sealOf s 4 || decide (s.sf.part ≠ 1) then s else
  let high := decide (s.sf.hvTrip ≠ 0) && decide ((s.sf.hvTrip : Int) < value)
  if brk || high then
    if !own || decide (s.sf.hv ≠ 2) then onSf (fun x => { x with overs := 0 }) s
    else if brk || decide (1 ≤ s.sf.overs) then
      sfEval (raise 588 [] (onSf (fun x => { x with hvmon := true, overs := 0 }) s))
    else onSf (fun x => { x with overs := 1 }) s
  else sfEval (onSf (fun x => { x with hvmon := false, overs := 0 }) s)

end Sys2Proof.Machine
end

