-- ==== Sys2Proof/Machine/ScOps.lean ====
section
/-! DEFINITION. The slow-control converter's own logic (chapter 13): configurations in force, what is converted next,
result records, limits, breaks, calibration; and the temperatures its consumers read (R561, R578). -/
namespace Sys2Proof.Machine

/-- The configuration in force of a channel, 32 bytes (R540, R547, R562; the fixed ones are log 32). -/
def chanConf (s : State) (ch : Nat) : List Byte :=
  if ch < 16 then padTo 32 (bytesAt s.sc.chans (32 * ch) 32)
  else if ch = 24 then
    [3, 0, 0xFF, 0xFF, 0xFF, 0, BitVec.ofNat 8 (cfg8 s 0x0C03 0), 0] ++ b2 (cfg16 s 0x0C03 2) ++ [0, 0, 0, 0, 0, 0] ++
      bytesAt (cfg s 0x0C03) 12 8 ++ List.replicate 8 0
  else [1, 0, 0xFF, 0xFF, 0xFF, 0, 3, 0] ++ b2 16 ++ [0, 0, 0, 0, 0, 0] ++ b4 0x80000000 ++ b4 0x7FFFFFFF ++ List.replicate 8 0

/-- A channel is enabled. -/
def chanOn (s : State) (ch : Nat) : Bool := bit (byteAt (chanConf s ch) 0) 0

/-- KIND of a channel. -/
def chanKind (s : State) (ch : Nat) : Nat := byteAt (chanConf s ch) 1

/-- A channel is an RTD (RTD4 or RTD3). -/
def chanRtd (s : State) (ch : Nat) : Bool := decide (ch < 16) && decide (2 ≤ chanKind s ch)

/-- Gain code in use of a channel (R546). -/
def chanGain (s : State) (ch : Nat) : Nat := (chanAt s ch).gain.getD (byteAt (chanConf s ch) 5)

/-- The regular sequence in force: its channels (R550). -/
def sequence (s : State) : List Nat :=
  let v := s.sc.seq.getD ((settingDefault 0x0C02).getD [])
  ((v.drop 1).take (byteAt v 0)).map (·.toNat)

/-- The AIN pins a channel converts; 16 and 17 are HVMON_P and HVMON_N (R547, R562, log 32). -/
def chanPins (s : State) (ch : Nat) : List Nat :=
  let c := chanConf s ch
  if ch = 24 then [16, 17]
  else match byteAt c 1 with
    | 1 => [byteAt c 2]
    | 3 => [byteAt c 2, byteAt c 3, byteAt c 4]
    | _ => [byteAt c 2, byteAt c 3]

/-- The excitation source a channel names (1 EXC_0, 2 EXC_1) and its current in uA; (0, 0) with none (R547). -/
def chanExc (s : State) (ch : Nat) : Nat × Nat :=
  let c := chanConf s ch
  if byteAt c 7 = 0 then (0, 0) else (byteAt c 7, u16At c 10)

/-- Half ticks from the selection of a channel to the start of its first sinc output: SETTLE unless skipped, and 8
modulator clocks (R545). -/
def convLead (s : State) (ch : Nat) (skip : Bool) : Nat := (if skip then 0 else 80 * u16At (chanConf s ch) 14) + 625

/-- Half ticks of ORDER output periods of a channel (R542, R545). -/
def convSinc (s : State) (ch : Nat) : Nat := 5000 * byteAt (chanConf s ch) 6 * u16At (chanConf s ch) 8

/-- The duration of a conversion in half ticks (R545). -/
def convHalfTicks (s : State) (ch : Nat) (skip : Bool) : Nat :=
  let c := chanConf s ch
  convLead s ch skip + convSinc s ch + (if byteAt c 1 = 3 then 625 + convSinc s ch else 0) + (if bit (byteAt c 0) 3 then 8000000 else 0)

/-- The moment at which a conversion ends (R545). -/
def convEnd (s : State) (c : Conv) : Nat := c.begun + divUp (convHalfTicks s c.ch c.skip) 2

/-- The next output-period boundary of a conversion in progress (R542, R551). -/
def outBoundary (s : State) (c : Conv) : Nat :=
  let gone := 2 * (s.up - c.begun)
  let first := convLead s c.ch c.skip
  let base := if byteAt (chanConf s c.ch) 1 = 3 ∧ first + convSinc s c.ch < gone then first + convSinc s c.ch + 625 else first
  let period := 5000 * u16At (chanConf s c.ch) 8
  c.begun + divUp (base + divUp (gone - base) period * period) 2

/-- Length of a calibration step: four settling times at ORDER 3 and M = 16, 12.03 ms (R552). -/
def calStepTicks : Nat := 481250

/-- The moment at which an excitation-monitor check ends: SETTLE + 200 us (R559). -/
def checkEnd (s : State) (c : Nat × Nat) : Nat := c.2 + us (u16At (chanConf s c.1) 14 + 200)

/-- The moment from which a queued host request may be served, as far as what is in progress tells (R551, R553). -/
def hostFrom (s : State) : Nat :=
  if s.sc.calStep then s.sc.calAt + calStepTicks
  else match s.sc.check, s.sc.conv with
    | some c, _ => checkEnd s c
    | none, some c => match c.why with
      | .regular => outBoundary s c
      | _ => convEnd s c
    | none, none => s.up

/-- Ticks until the injected conversions now queued or running have ended, from their full durations; 0 with none
(log 32). -/
def injectedTicks (s : State) : Nat :=
  let running := match s.sc.conv with
    | some { why := .regular, .. } => false
    | some _ => true
    | none => false
  let queued := (s.sc.hostQ.map (fun n => match s.sc.reqs.find? (fun r => decide (r.num = n)) with
    | some r => convHalfTicks s r.ch false
    | none => 0)).foldl (· + ·) 0 + s.sc.safeQ * convHalfTicks s 24 false
  if running || decide (queued ≠ 0) then (hostFrom s - s.up) + divUp queued 2 else 0

/-- A slow-control statistic increased (R566). -/
def scStat (i : Nat) (s : State) : State :=
  let r := statBump s.sc.stats s.sc.statSat i 1
  satEvent 523 r.2.2 (onSc (fun x => { x with stats := r.1, statSat := r.2.1 }) s)

/-- The converter takes up a conversion; the channel's excitation source is on for it, and SETTLE is skipped where source
and current are as they were (R545, R554). -/
def beginConv (ch : Nat) (why : ConvFor) (s : State) : State :=
  let e := chanExc s ch
  onSc (fun x => { x with
    conv := some { ch := ch, why := why, start := s.tc.now, begun := s.up, skip := decide (x.exc = e) }, exc := e }) s

/-- The guard driver a channel names, 0 or 1 (R547, R556). -/
def chanGuard (s : State) (ch : Nat) : Option Nat :=
  match byteAt (chanConf s ch) 12 with
  | 1 => some 0
  | 2 => some 1
  | _ => none

/-- Twice the voltage on GRD_n in nV, with the pins of the channel in conversion at vp and vn: the sum of the two while that
channel names the guard, else what the guard holds (R556). -/
def guardDrive (s : State) (n : Nat) (vp vn : Int) : Int :=
  match s.sc.conv with
  | some c => if chanGuard s c.ch = some n then vp + vn else tget 0 s.sc.guard n
  | none => tget 0 s.sc.guard n

/-- A conversion with its pins at vp and vn ends: the guard its channel names holds their mean from here on (R556). -/
def holdGuard (ch : Nat) (vp vn : Int) (s : State) : State :=
  match chanGuard s ch with
  | some n => onSc (fun x => { x with guard := tput 0 n (vp + vn) x.guard }) s
  | none => s

/-- An abandoned conversion used its guard too; what the pins had then is open (R556, log 32). -/
def holdGuardOpen (ch : Nat) (s : State) : State :=
  match chanGuard s ch with
  | some _ =>
    let (n, s) := drawNat s
    holdGuard ch (n % 6600000001 : Nat) 0 s
  | none => s

/-- A host request changes its state, and its result where it has one. -/
def setReq (n st : Nat) (res : Option (List Byte)) (s : State) : State :=
  onSc (fun x => { x with reqs := x.reqs.map (fun r =>
    if r.num = n then { r with state := st, result := res.getD r.result } else r) }) s

/-- The next enabled channel of the sequence from a place: the place and the channel. -/
def nextRegular (s : State) : List Nat → Nat → Option (Nat × Nat)
  | [], _ => none
  | c :: cs, i => if chanOn s c then some (i, c) else nextRegular s cs (i + 1)

/-- The job a calibration carries runs. -/
def jobRuns (num : Nat) (s : State) : State :=
  onSys (fun x => { x with jobs := x.jobs.map (fun j => if j.num = num then { j with state := 1 } else j) }) s

/-- A host request has ended. -/
def reqDone (s : State) (n : Nat) : Bool := !s.sc.reqs.any (fun r => decide (r.num = n ∧ r.state ≠ 2))

/-- A calibration step begins; its job runs (R553). -/
def calBegin (s : State) : State :=
  match s.sc.cals with
  | [] => s
  | c :: cs =>
    let s := onSc (fun x => { x with cals := { c with begun := true } :: cs, calStep := true, calAt := s.up, conv := none }) s
    match c.job with
    | some j => jobRuns j s
    | none => s

/-- The first calibration may begin: the requests it waits for have ended, and an automatic one only in a gap
(R552, R553). -/
def calMayBegin (s : State) : Bool :=
  match s.sc.cals with
  | [] => false
  | c :: _ => !c.begun && c.waits.all (reqDone s) && (c.job.isSome || !s.sc.inPass)

/-- A calibration is between its steps. -/
def calBegun (s : State) : Bool :=
  match s.sc.cals with
  | [] => false
  | c :: _ => c.begun

/-- The converter is in a gap, doing nothing. -/
def inGap (s : State) : Bool := s.sc.on && !s.sc.inPass && s.sc.conv.isNone && !s.sc.calStep && s.sc.check.isNone

/-- The channels whose excitation-monitor check is due in the present gap, lowest first (R560, log 32). -/
def dueChecks (s : State) : List Nat :=
  (List.range 16).filter (fun c => (bit s.sc.checks c || s.sc.diags.any (fun d => bit d.2 c)) && !bit s.sc.later c)

/-- An idle gap takes up the work due in it: the checks, then an automatic calibration (R550, R552, R560). -/
def gapWork (s : State) : State :=
  if !inGap s then s
  else match dueChecks s with
    | c :: _ => onSc (fun x => { x with check := some (c, s.up), exc := chanExc s c }) s
    | [] => if calMayBegin s then calBegin s else s

/-- The regular sequence goes on with its next enabled channel, or its pass ends and the gap begins with the work due in it
(R550, R552). -/
def regularNext (s : State) : State :=
  if !s.sc.inPass then gapWork (onSc (fun x => { x with conv := none }) s)
  else match nextRegular s ((sequence s).drop s.sc.pos) s.sc.pos with
    | some (i, c) => beginConv c .regular (onSc (fun x => { x with pos := i + 1 }) s)
    | none =>
      gapWork (scStat 0 (onSc (fun x => { x with
        conv := none, inPass := false, passAt := (x.passAt.1, s.up - x.passAt.1), gapAt := s.up }) s))

/-- The converter, free, takes up what comes next: safety requests, a calibration whose wait is over, host requests,
the next step of a calibration, the regular sequence (R550, R551, R553). -/
def scNext (s : State) : State :=
  if s.sc.safeQ ≠ 0 then beginConv 24 .safety (onSc (fun x => { x with safeQ := x.safeQ - 1 }) s)
  else if calMayBegin s then calBegin s
  else match s.sc.hostQ with
    | n :: q =>
      let ch := ((s.sc.reqs.find? (fun r => decide (r.num = n))).map (·.ch)).getD 0
      beginConv ch (.host n) (setReq n 1 none (onSc (fun x => { x with hostQ := q }) s))
    | [] => if calBegun s then calBegin s else regularNext s

/-- What the converter does is abandoned for a safety request or a calibration (R551, R553): a regular conversion is
repeated later, a host one returns to the head of its queue, a calibration step restarts, and a check runs again in the next
gap (before the first pass in the present one, R560). -/
def abandon (s : State) : State :=
  if s.sc.calStep then scStat 6 (onSc (fun x => { x with calStep := false }) s)
  else match s.sc.check, s.sc.conv with
    | some c, _ => onSc (fun x => { x with check := none, later := if x.passed then x.later ||| 2 ^ c.1 else x.later }) s
    | none, none => s
    | none, some c =>
      let s := holdGuardOpen c.ch (scStat 2 (onSc (fun x => { x with conv := none }) s))
      match c.why with
      | .regular => onSc (fun x => { x with pos := x.pos - 1 }) s
      | .host n => setReq n 0 none (onSc (fun x => { x with hostQ := n :: x.hostQ }) s)
      | .safety => s

/-- R/R0 of IEC 60751 at t in 0.001 C, scaled by 10^27 (R555; the coefficients are PRESUMED, log 33). -/
def iecRatio (t : Int) : Int :=
  let base := (10 : Int) ^ 27 + 39083 * t * 10 ^ 17 - 5775 * t * t * 10 ^ 11
  if 0 ≤ t then base else base - 4183 * (t - 100000) * t * t * t

/-- The highest t, counted up from `lo` in steps of 2^k, whose ratio does not pass the target; `num / den` is the
target. -/
def iecSearch (num : Int) (den : Nat) : Nat → Int → Int
  | 0, lo => lo
  | k + 1, lo =>
    let t := lo + 2 ^ k
    iecSearch num den k (if t ≤ 850000 ∧ iecRatio t * den ≤ num then t else lo)

/-- Temperature in 0.001 C at a resistance ratio num / den scaled by 10^27, to the nearest (R555), between -200 and
+850 C; none elsewhere, or with no current (log 33). -/
def iecTemp (num : Int) (den : Nat) : Option Int :=
  if den = 0 ∨ num < iecRatio (-200000) * den ∨ iecRatio 850000 * den < num then none
  else
    let t := iecSearch num den 21 (-200000)
    some (if t < 850000 ∧ (iecRatio t + iecRatio (t + 1)) * den ≤ 2 * num then t + 1 else t)

/-- A code between the limits, and whether it clipped (R541). -/
def clipCode (c : Int) : Int × Bool :=
  if c ≤ -0x800000 then (-0x7FFFFF, true) else if 0x7FFFFF < c then (0x7FFFFF, true) else (c, false)

/-- The excitation current of a channel in nA: as the last calibration measured its source at that current, else as
programmed (R554, log 32). -/
def excNow (s : State) (ch : Nat) : Nat :=
  let e := chanExc s ch
  match tget none s.sc.excMeas e.1 with
  | some (i, n) => if i = e.2 then n else 1000 * e.2
  | none => 1000 * e.2

/-- The current in nA that the break-bias resistors of 10 MOhm feed into a channel's circuit, from the pin voltages: in at
PIN_P and PIN_L from VDD_SC (3.3 V, R672), out at PIN_N (R555, R557, log 33). -/
def biasNow (s : State) (ch : Nat) (r : Conversion) : Int :=
  let c := chanConf s ch
  if !bit (byteAt c 0) 1 then 0
  else divRound ((3300000000 - r.vp) + (if byteAt c 1 = 3 then 3300000000 - r.vl else 0) - r.vn) 10000000

/-- VALUE of a conversion in the unit of its kind (R541, R548, R555, R562), rounded halves up; none where the equations of
R555 give no temperature. -/
def convValue (s : State) (ch : Nat) (r : Conversion) (code : Int) : Option Int :=
  let g := 2 ^ chanGain s ch
  let c := chanConf s ch
  let v : Option Int :=
    if 21 ≤ ch ∧ ch ≤ 23 then some r.temp
    else if ch = 24 then
      some (divRound ((code * 500000 - i32At (cfg s 0x0C03) 4 * 2 ^ 24) * (u32At (cfg s 0x0C03) 8 : Nat)) (2 ^ 24 * 100000))
    else if chanRtd s ch then
      let i := (excNow s ch : Int) - biasNow s ch r
      let dv := if byteAt c 1 = 3 then code - r.code2 else code
      let den := g * 2 ^ 24 * i.toNat * (if byteAt c 13 = 1 then 1000 else 100)
      iecTemp (dv * 5 * 10 ^ 9 * 10 ^ 27) den
    else some (divRound (code * 500000000 * (if ch = 20 then 2 else 1)) (g * 2 ^ 24))
  v.map (clampInt (-0x80000000) 0x7FFFFFFF)

/-- VALUE of a conversion; where R555 states none it is open (log 33). -/
def valueOf (s : State) (ch : Nat) (r : Conversion) (code : Int) : Int × State :=
  match convValue s ch r code with
  | some v => (v, s)
  | none =>
    let (n, s) := drawNat s
    (signed 32 (n % 2 ^ 32), s)

/-- The gain code of the channel's next conversion (R546). -/
def nextGain (s : State) (ch : Nat) (code : Int) (ovr : Bool) : Nat :=
  let g := chanGain s ch
  if !bit (byteAt (chanConf s ch) 0) 2 then g
  else if ovr || decide (9 * 2 ^ 23 < 10 * code.natAbs) then g - 1
  else if code.natAbs * 5 < 2 ^ 23 then min (g + 1) (byteAt (chanConf s ch) 5)
  else g

/-- A result record (R548). -/
def resultRecord (code : Int) (status : Nat) (value : Int) (t : Stamp) : List Byte :=
  b1 status ++ leBytes 3 (unsigned 24 code) ++ b4 (unsigned 32 value) ++ stampBytes t

/-- VALUE of the latest result of a channel. -/
def chanValue (s : State) (ch : Nat) : Int := i32At (chanAt s ch).result 4

/-- A supply channel's nominal in 10 nV (R563, R672). -/
def supplyNominal (ch : Nat) : Option Int :=
  if ch = 17 then some 75000000 else if ch = 18 then some 120000000 else if ch = 19 then some 90000000
  else if ch = 20 then some 330000000 else none

/-- Limits, over-range and supply range of a good result (R563, R568). -/
def checkLimits (ch : Nat) (value : Int) (ovr out : Bool) (s : State) : State :=
  let low := decide (value < i32At (chanConf s ch) 16)
  let s :=
    if out then
      let was := (chanAt s ch).limited
      raiseIf was.isNone (if low then 516 else 517) [] (modChan ch (fun x => { x with limited := some 0 }) s)
    else modChan ch (fun x => { x with limited := match x.limited with
      | some n => if n + 1 ≥ 2 then none else some (n + 1)
      | none => none }) s
  let s := raiseIf ovr 518 [] s
  match supplyNominal ch with
  | some n => raiseIf (decide (n < 20 * (value - n).natAbs)) 522 [] s
  | none => s

/-- A conversion's result is stored (R546, R548, R549, R555, R558): the new state, VALUE, and whether it reads BREAK,
EXC_FAULT or OVR. -/
def storeResult (c : Conv) (r : Conversion) (s : State) : State :=
  let x := chanAt s c.ch
  let injected := match c.why with
    | .regular => false
    | _ => true
  let ins := if r.inside then x.inside + 1 else 0
  let clears := x.brk && decide (2 ≤ ins)
  let brk := x.brk && !clears
  let common := 32 * bitNat (tget none s.sc.coef (chanGain s c.ch)).isNone + 16 * bitNat injected + 2 * bitNat x.excFault
  if brk then
    modChan c.ch (fun x => { x with
      inside := ins, conversions := satAdd stat32 x.conversions 1
      result := resultRecord (-0x800000) (common + 1) (-0x80000000) s.tc.now }) s
  else
    let k := clipCode r.code
    let (value, s) := valueOf s c.ch r k.1
    let conf := chanConf s c.ch
    let out := decide (value < i32At conf 16 ∨ i32At conf 20 < value)
    let g := nextGain s c.ch k.1 k.2
    let ranged := decide (g ≠ chanGain s c.ch)
    let i := excNow s c.ch
    let lead := if byteAt conf 1 = 3 ∧ i ≠ 0 ∧ c.ch < 16 then
      (divRound (r.code2 * 5 * 10 ^ 12) (2 ^ chanGain s c.ch * 2 ^ 24 * i)).toNat else 0
    let st := common + 64 * bitNat out + 8 * bitNat ranged + 4 * bitNat k.2
    let s := modChan c.ch (fun x => { x with
      brk := false, inside := 0, pin := if clears then 0xFF else x.pin, gain := if ranged then some g else x.gain
      conversions := satAdd stat32 x.conversions 1, lead := lead, exc := i
      result := resultRecord k.1 st value s.tc.now }) s
    checkLimits c.ch value k.2 out (raiseIf clears 513 [] s)

/-- A channel's latest result may be used as a temperature: enabled, an RTD, and neither BREAK nor EXC_FAULT (R561). -/
def tempUsable (s : State) (ch : Nat) : Bool :=
  chanOn s ch && chanRtd s ch && !bit (byteAt (chanAt s ch).result 0) 0 && !bit (byteAt (chanAt s ch).result 0) 1

/-- The dies of the sensors (R530): 0 GRN-F, 1 GRN-M, 2 GRN-C. -/
def sensorDie (n : Nat) : Nat := if n < 16 then 0 else if n < 20 then 1 else 2

/-- The nearest valid sensor of the same die to a faulted one, by number (R536, log 34). -/
def validSensor (s : State) (n : Nat) : Nat :=
  if !bit s.pw.faulted.toNat n then n
  else
    let ok := (List.range 24).filter (fun k => decide (sensorDie k = sensorDie n) && !bit s.pw.faulted.toNat k)
    ok.foldl (fun (best k : Nat) => if ((k : Int) - n).natAbs < ((best : Int) - n).natAbs ∨ best = n then k else best) n

/-- A die sensor's reading in 0.01 C, the nearest valid one where it is faulted (R536). -/
def dieTemp (s : State) (n : Nat) : Int := 10 * tget 0 s.pw.temp (validSensor s n)

/-- A configuration is acceptable (R544, R547); an all-zero one is a disabled channel (log 32). -/
def chanConfOk (c : List Byte) : Bool :=
  decide (c = List.replicate 32 0) ||
  (let kind := byteAt c 1
   let pins := [byteAt c 2] ++ (if kind = 1 then [] else [byteAt c 3]) ++ (if kind = 3 then [byteAt c 4] else [])
   decide (byteAt c 0 < 16 ∧ kind ≤ 3) && pins.all (fun p => decide (p < 16)) && decide (pins.Nodup)
    && (decide (kind ≠ 1) || decide (byteAt c 3 = 0xFF)) && (decide (kind = 3) || decide (byteAt c 4 = 0xFF))
    && decide (byteAt c 5 ≤ 7 ∧ 1 ≤ byteAt c 6 ∧ byteAt c 6 ≤ 4 ∧ byteAt c 7 ≤ 2)
    && decide (1 ≤ u16At c 8 ∧ u16At c 8 ≤ 1024)
    && (decide (byteAt c 7 = 0) || decide (10 ≤ u16At c 10 ∧ u16At c 10 ≤ 1000))
    && decide (byteAt c 12 ≤ 2 ∧ byteAt c 13 ≤ 1)
    && (decide (kind < 2) || decide (byteAt c 7 ≠ 0))
    && (!bit (byteAt c 0) 3 || decide (1600 % u16At c 8 = 0))
    && decide (i32At c 16 ≤ i32At c 20) && decide (bytesAt c 24 8 = List.replicate 8 0))

/-- No two channels name one excitation source with different currents (R547). -/
def excAgree (all : List Byte) : Bool :=
  (List.range 16).all (fun a => (List.range 16).all (fun b =>
    let x := bytesAt all (32 * a) 32
    let y := bytesAt all (32 * b) 32
    decide (byteAt x 7 = 0 ∨ byteAt x 7 ≠ byteAt y 7 ∨ u16At x 10 = u16At y 10)))

/-- The channels due for the excitation monitor before a first pass: the enabled RTDs (R560). -/
def rtdMask (s : State) : Nat := maskOf 16 (fun n => chanOn s n && chanRtd s n)

/-- PD_32 comes up: the configurations come into force and the RTD channels are due for the monitor (R560, R80). -/
def scPowerUp (s : State) : State :=
  let s := onSc (fun x => { x with on := true, chans := cfg s 0x0C01, seq := some (cfg s 0x0C02), inPass := false, pos := 0
                                   conv := none, calStep := false, check := none, later := 0, passed := false
                                   gapAt := s.up, exc := (0, 0) }) s
  gapWork (onSc (fun x => { x with checks := rtdMask s }) s)

/-- PD_32 goes off: what it does is abandoned and the sources are off (R621). -/
def scPowerDown (s : State) : State :=
  onSc (fun x => { x with on := false, conv := none, inPass := false, calStep := false, check := none, exc := (0, 0), safeQ := 0, hostQ := [], cals := [], diags := [] }) s

/-- A calibration of gains is accepted; it waits for the host requests now queued or running (R553). -/
def addCal (gains : List Nat) (job : Option Nat) (s : State) : State :=
  let running := match s.sc.conv with
    | some { why := .host n, .. } => [n]
    | _ => []
  onSc (fun x => { x with cals := x.cals ++ [{ gains := gains, job := job, waits := running ++ x.hostQ, begun := false }] }) s

/-- An SC_SEQUENCE value is acceptable (R550, R565). -/
def sequenceOk (v : List Byte) : Bool :=
  decide (1 ≤ byteAt v 0 ∧ byteAt v 0 ≤ 25 ∧ u32At v 27 ≤ 60000) && ((v.drop 1).take (byteAt v 0)).all (fun c => decide (c.toNat ≤ 24))

/-- An SC_HVMON value is acceptable (R547, R565). -/
def hvmonOk (v : List Byte) : Bool :=
  decide (1 ≤ byteAt v 0 ∧ byteAt v 0 ≤ 4 ∧ 1 ≤ u16At v 2 ∧ u16At v 2 ≤ 1024 ∧ i32At v 12 ≤ i32At v 16)

/-- The excitation current a channel is configured for, in nA. -/
def excNominal (s : State) (ch : Nat) : Nat := 1000 * u16At (chanConf s ch) 10

/-- The class of an excitation check; none where no row of R559's table applies (log 32). -/
def excClass (i : Nat) (m : ExcMonitor) : Option Nat :=
  let within := decide (100 * ((m.current : Int) - i).natAbs ≤ 2 * i)
  let outLow := decide (m.out ≠ 0) && m.low
  if decide (100 * m.current < 2 * i) && decide (2700 ≤ m.excMv) && outLow then some 2
  else if !within && decide (m.excMv < 2700) then some 3
  else if within && decide (m.excMv < 100) && outLow then some 4
  else if within && decide (m.excMv < 2700 ∧ m.out = 0) then some 0
  else if within && decide (m.excMv < 2700 ∧ m.out = 1) then some 1
  else none

/-- A job's channel has been checked; a job with none left is done (R560). -/
def diagDone (ch : Nat) (s : State) : State :=
  let ended := (s.sc.diags.filter (fun d => decide (d.2 = 2 ^ ch))).map (·.1)
  let left := (s.sc.diags.map (fun d => (d.1, if bit d.2 ch then d.2 - 2 ^ ch else d.2))).filter (fun d => decide (d.2 ≠ 0))
  forAll ended jobDone (onSc (fun x => { x with diags := left }) s)

/-- A channel's class is stored; class 3 sets EXC_FAULT on every channel of its source, another class clears it
(R559, log 32). -/
def classify (ch k : Nat) (s : State) : State :=
  let src := byteAt (chanConf s ch) 7
  let s := modChan ch (fun x => { x with cls := k }) s
  let s := forAll ((List.range 16).filter (fun c => decide (byteAt (chanConf s c) 7 = src ∧ src ≠ 0)))
    (fun c => modChan c (fun x => { x with excFault := decide (k = 3) })) s
  raiseIf (decide (k = 3)) 515 [] (raiseIf (decide (k = 1 ∨ k = 2 ∨ k = 4)) 514 [] s)

end Sys2Proof.Machine
end

