-- ==== Sys2Proof/Machine/LdOps.lean ====
section
/-! DEFINITION. The light drive's own logic (chapter 14): emitter configurations, the words of a chain flash, skips,
windows, diagnosis, colour hold and discovery. -/
namespace Sys2Proof.Machine

/-- One LD_EMITTERS entry (R595). -/
def emConf (s : State) (e : Nat) : List Byte := bytesAt (cfg s 0x0D01) (18 * e) 18

/-- An emitter is enabled. -/
def emOn (s : State) (e : Nat) : Bool := decide (byteAt (emConf s e) 0 = 1)

/-- AMP in use of an emitter: the configured one, or colour hold's (R590). -/
def emAmp (s : State) (e : Nat) : Nat := (emAt s e).amp.getD (u16At (emConf s e) 2)

/-- WIDTH of an emitter in ns. -/
def emWidth (s : State) (e : Nat) : Nat := u16At (emConf s e) 4

/-- The resource an emitter belongs to: LED_k or LAMP_c (R17, R569). -/
def emResource (e : Nat) : Nat := if e < 4 then 12 + e else 8 + (e - 4) / 16

/-- The emitters a sink mask and board masks name (R569). -/
def emittersOf (sinks : Nat) (boards : List Nat) : List Nat :=
  maskList 4 sinks ++ (List.range 4).flatMap (fun c => (maskList 16 (boards.getD c 0)).map (fun b => 4 + 16 * c + b))

/-- Chains enabled in LD_CHAINS. -/
def chainOn (s : State) (c : Nat) : Bool := bit (cfg8 s 0x0D03 0) c

/-- PD_33 is powered: woken for a flash or proof pulse, or on in PADDLE and DRIVE with a chain or sink enabled
(R513, R582). -/
def ldOn (s : State) : Bool :=
  s.ld.awake || (busyState s && ((List.range 4).any (fun k => chainOn s k || emOn s k)))

/-- A light statistic of an emitter increased (R596). -/
def ldStat (e i : Nat) (s : State) : State :=
  let r := statBump (emAt s e).stats (emAt s e).statSat i 1
  satEvent 540 r.2.2 (modEm e (fun x => { x with stats := r.1, statSat := r.2.1 }) s)

/-- T_LED above the knee, times K_D, in 1e-7 (R578). -/
def derating (s : State) (k : Nat) : Int :=
  let v := bytesAt (cfg s 0x0D02) (6 * k) 6
  match (sinkAt s k).temp with
  | none => 0
  | some t => max 0 (((u16At v 4 : Nat) : Int) * (t - 100 * i16At v 2))

/-- The amplitude a sink delivers at a set AMP: the lesser of it and I_max, in 12.5 uA units (R578, log 35). -/
def sinkAmp (s : State) (k amp : Nat) : Nat := ((amp : Int) * (10000000 - derating s k) / 10000000).toNat

/-- The on-time of a sink in the 1 ms that ends with a pulse from `at_` ns of WIDTH `w`, that pulse included (R593). -/
def dutyTime (x : Sink) (at_ w : Nat) : Nat :=
  let lo := at_ + w - 1000000
  x.recent.foldl (fun a p => a + (p.1 + p.2 - max p.1 lo)) w

/-- The instant of the next flash of an entry, in 1/32 tick since tick 0 (R580). -/
def entryInstant (e : SchedEntry) : Nat := (e.first.toNat + e.i * e.period) * 32 + e.phase

/-- The active entries by number. -/
def entries (s : State) : List (Nat × SchedEntry) :=
  (List.range 16).filterMap (fun n => (tget none s.ld.entry n).map (fun e => (n, e)))

/-- The earliest instant among entries that satisfy a test. -/
def nextInstant (s : State) (p : SchedEntry → Bool) : Option Nat :=
  ((entries s).filter (fun e => p e.2)).foldl (fun a e => match a with
    | none => some (entryInstant e.2)
    | some t => some (min t (entryInstant e.2))) none

/-- The next flash instant of the schedule. -/
def nextFlash (s : State) : Option Nat := nextInstant s (fun _ => true)

/-- The next flash instant of a chain. -/
def nextChainFlash (s : State) (c : Nat) : Option Nat := nextInstant s (fun e => decide (e.boards.getD c 0 ≠ 0))

/-- The entries that flash at an instant. -/
def dueEntries (s : State) (t : Nat) : List (Nat × SchedEntry) := (entries s).filter (fun e => decide (entryInstant e.2 = t))

/-- The joined masks of entries (R583). -/
def joinSinks (es : List (Nat × SchedEntry)) : Nat := es.foldl (fun a e => a ||| e.2.sinks) 0

/-- The joined board mask of a chain (R583). -/
def joinBoards (es : List (Nat × SchedEntry)) (c : Nat) : Nat := es.foldl (fun a e => a ||| e.2.boards.getD c 0) 0

/-- A discovery runs on a chain (R575). -/
def discovering (s : State) (c : Nat) : Bool := s.ld.jobs.any (fun j => bit j.2 c)

/-- The number of boards of a chain. -/
def boardsOf (s : State) (c : Nat) : Nat := (chainAt s c).words.length

/-- A board reports HOT (R573). -/
def boardHot (s : State) (c b : Nat) : Bool := bit ((chainAt s c).words.getD b 0).toNat 21

/-- A board takes part in a flash: enabled, present and not HOT (R583; enable is log 35). -/
def boardFires (s : State) (c b : Nat) : Bool := emOn s (4 + 16 * c + b) && decide (b < boardsOf s c) && !boardHot s c b

/-- The word of a board for a flash: FIRE with its AMP and WIDTH where it fires, else zero (R572, R582). -/
def boardWord (s : State) (c mask b : Nat) : Word :=
  if bit mask b && boardFires s c b then
    BitVec.ofNat 32 (2 ^ 31 + emAmp s (4 + 16 * c + b) % 4096 * 2 ^ 16 + emWidth s (4 + 16 * c + b))
  else 0

/-- The words a chain's stages must hold for a flash of a mask, board 0 first (R582). -/
def flashWords (s : State) (c mask : Nat) : List Word := (List.range (boardsOf s c)).map (boardWord s c mask)

/-- The bits of a shift of words into a chain, board 0's word last, each word most significant bit first (R571). -/
def serialBits (ws : List Word) : List Bool :=
  ws.reverse.flatMap (fun w => (List.range 32).map (fun i => w.getLsbD (31 - i)))

/-- The stages of a chain as one shift register, board 0's stage lowest (R571, R572). -/
def stageNum (ws : List Word) : Nat := ws.foldr (fun w a => a * 2 ^ 32 + w.toNat) 0

/-- The stages of n boards after rising CLK edges with these bits on DATA, the first bit shifted first (R571). -/
def shiftStages (n : Nat) (old : List Word) (bits : List Bool) : List Word :=
  let v := bits.foldl (fun v b => (2 * v + bitNat b) % 2 ^ (32 * n)) (stageNum old)
  (List.range n).map (fun b => BitVec.ofNat 32 (v / 2 ^ (32 * b)))

/-- The words of a chain's stages that a LATCH edge would make commands: those of a shift made for the instant, or the
ones it already holds where they are exactly those of the flash (R574, R582). -/
def heldWords (s : State) (c mask t : Nat) : Option (List Word) :=
  let x := chainAt s c
  match x.prep with
  | some (u, ready) => if u = t ∧ ready ≤ t then x.stage else if x.stage = some (flashWords s c mask) then x.stage else none
  | none => if x.stage = some (flashWords s c mask) then x.stage else none

/-- A chain takes the flash of an instant (R575, R582, R583). -/
def chainFires (s : State) (c mask t : Nat) : Bool :=
  let x := chainAt s c
  match heldWords s c mask t with
  | none => false
  | some w =>
    decide (x.state = 1) && !discovering s c && (server s (8 + c)).isSome
      && (match x.lastFlash with
          | none => true
          | some (u, v) => decide (u + 2048 * boardsOf s c + 2560 ≤ t) || decide (v = w))

/-- The boards whose stage holds FIRE (R572). -/
def firedBoards (s : State) (c : Nat) : List Nat :=
  (List.range (boardsOf s c)).filter (fun b => bit ((((chainAt s c).stage).getD []).getD b 0).toNat 31)

/-- A sink takes the flash of an instant (R583). -/
def sinkFires (s : State) (k t : Nat) : Bool :=
  let w := emWidth s k
  emOn s k && !(emAt s k).shorted && decide (sinkAmp s k (emAmp s k) ≠ 0) && (server s (12 + k)).isSome
    && decide (dutyTime (sinkAt s k) (t * 25 / 32) w ≤ 500000)

/-- An emitter is skipped: counted, EV_537 at most once per ms (R583). -/
def skipFlash (e : Nat) (s : State) : State :=
  let s := ldStat e 1 s
  let fresh := match s.ld.skipEv with
    | none => true
    | some t => decide (t + ms 1 ≤ s.up)
  if fresh then raise 537 [] (onLd (fun x => { x with skipEv := some s.up }) s) else s

/-- A flash opens a window of CAL_WIN ticks; overlapping windows are one (R585). -/
def openWindow (t : Stamp) (s : State) : State :=
  let last := t + BitVec.ofNat 64 (cfg16 s 0x0D04 0 - 1)
  onLd (fun x => { x with
    winOpen := true
    windows := match x.windows with
      | (a, b) :: ws => if 0 ≤ stampDiff b t then (a, if 0 ≤ stampDiff b last then b else last) :: ws
        else (t, last) :: x.windows
      | [] => [(t, last)] }) s

/-- A tick lies in a flash window (R586). -/
def inWindow (s : State) (t : Stamp) : Bool :=
  s.ld.windows.any (fun w => decide (0 ≤ stampDiff t w.1 ∧ 0 ≤ stampDiff w.2 t))

/-- A flash window overlaps a span of ticks (R586). -/
def windowOverlaps (s : State) (a b : Stamp) : Bool :=
  s.ld.windows.any (fun w => decide (0 ≤ stampDiff b w.1 ∧ 0 ≤ stampDiff w.2 a))

/-- A sink fires (R577): it switches on, its pulse counts. -/
def fireSink (k t : Nat) (s : State) : State :=
  let amp := sinkAmp s k (emAmp s k)
  let w := emWidth s k
  ldStat k 0 (modSink k (fun x => { x with
    pulse := some (amp, w, s.up)
    recent := (t * 25 / 32, w) :: x.recent.filter (fun p => decide (t * 25 / 32 < p.1 + p.2 + 1000000)) }) s)

/-- A chain fires (R572, R581, R587): its boards of the mask flash, those with a long pulse are due a report. -/
def fireChain (c t : Nat) (s : State) : State :=
  let fired := firedBoards s c
  let w := ((chainAt s c).stage).getD []
  let long := maskOf 16 (fun b => fired.contains b && decide (500 ≤ (w.getD b 0).toNat % 2 ^ 16))
  let s := modChain c (fun x => { x with lastFlash := some (t, w), due := x.due ||| long }) s
  forAll fired (fun b => ldStat (4 + 16 * c + b) 0) s

/-- A diagnosis of an emitter is stored (R588): status, by proof or not, tick, current. -/
def diagnose (e status : Nat) (proof : Bool) (current : Nat) (s : State) : State :=
  let s := modEm e (fun x => { x with
    diag := status, diagAt := s.up, last := (proof, s.tc.now, min 0xFFFF current), shorted := x.shorted || decide (status = 3) }) s
  let s := ldStat e 2 s
  raiseIf (decide (status = 3)) 531 [] (raiseIf (decide (status = 2)) 530 [] s)

/-- The status a sink's sample gives: current in 12.5 uA units, pin in mV, set current (R588); none where no row of
the table applies. -/
def sinkStatus (current pinMv set : Nat) : Option Nat :=
  if current * 2 < set then some 2
  else if 3000 ≤ pinMv then some 3
  else if current * 2 ≤ 3 * set then some 1
  else none

/-- Proof pulses due are PROOF enabled emitters (R589). -/
def emProof (s : State) (e : Nat) : Bool := emOn s e && decide (byteAt (emConf s e) 1 = 1)

/-- The step of a colour loop before its limits: G_L * (target - VALUE) / target of AMP, at most 2 % (R590). -/
def loopStep (amp gain : Nat) (target value : Int) : Int :=
  let n := (gain : Int) * (target - value) * (if target < 0 then -1 else 1)
  let d := 256 * target.natAbs
  if 2 * (d : Int) < 100 * n then divRound (2 * amp) 100
  else if 100 * n < -(2 * (d : Int)) then -divRound (2 * amp) 100
  else divRound (n * amp) d

/-- AMP after an update; a target of 0 gives no quotient and a free value within the limits (R590, log 23). -/
def loopAmp (amp gain lo hi : Nat) (target value : Int) (s : State) : Nat × State :=
  if target = 0 then
    let d := drawNat s
    let a := max lo (amp - amp / 50)
    let b := min hi (amp + amp / 50)
    (clampNat lo hi (a + d.1 % (b - a + 1)), d.2)
  else (clampNat lo hi (((amp : Int) + loopStep amp gain target value).toNat), s)

/-- One emitter's colour loop takes a result (R590, R591). -/
def loopUpdate (e : Nat) (bad : Bool) (value : Int) (s : State) : State :=
  let c := emConf s e
  let x := emAt s e
  if bad then
    raiseIf (decide (x.loop ≠ 2)) 538 [] (modEm e (fun x => { x with loop := 2 }) s)
  else
    let r := loopAmp (emAmp s e) (byteAt c 9) (u16At c 10) (u16At c 12) (i32At c 14) value s
    let atLimit := if r.1 = u16At c 10 ∨ r.1 = u16At c 12 then min 10 (x.atLimit + 1) else 0
    let limited := decide (10 ≤ atLimit) || (decide (e < 4) && (sinkAt r.2 e).derated)
    let s := modEm e (fun x => { x with amp := some r.1, loop := if limited then 3 else 1, atLimit := atLimit }) r.2
    raiseIf (limited && decide (x.loop ≠ 3)) 538 [] (ldStat e 4 s)

/-- A result of channel `ch` whose conversion began at a tick reaches the colour loops that name it (R590, R591). -/
def colourUpdate (ch : Nat) (start : Stamp) (bad : Bool) (value : Int) (s : State) : State :=
  let named := (List.range 68).filter (fun e => emOn s e && decide (byteAt (emConf s e) 8 = ch)
    && decide (0 ≤ stampDiff start (emAt s e).changed))
  forAll named (fun e => loopUpdate e bad value) s

/-- The CRC of a status word is good (R573). -/
def statusCrcOk (w : Word) : Bool :=
  let n := w.toNat
  decide (crcMsb 8 0x07 0 [BitVec.ofNat 8 (n / 2 ^ 24), BitVec.ofNat 8 (n / 2 ^ 16), BitVec.ofNat 8 (n / 2 ^ 8)] = n % 256)

/-- TYPE of a status word. -/
def boardType (w : Word) : Nat := w.toNat / 2 ^ 24

/-- Status words as they arrive on RET, that of the board farthest from the module first, by board (R575). -/
def arrived (ws : List Word) : List Word := ws.reverse

/-- A discovery's result on a chain (R575): `k` is the shift count at which RET rose, and the status words, board 0
first. -/
def chainFound (c : Nat) (k : Option Nat) (ws : List Word) (s : State) : State :=
  let st := match k with
    | none => 2
    | some k => if k % 32 ≠ 0 then 3 else if 16 < k / 32 then 4 else
        if ws.all (fun w => statusCrcOk w && decide (boardType w ≠ 0 ∧ boardType w ≠ 0xFF)) then 1 else 5
  let n := match k with
    | some k => if k % 32 = 0 ∧ k / 32 ≤ 16 then k / 32 else 0
    | none => 0
  let words := ((ws ++ List.replicate n 0).take n)
  let types := words.map boardType
  let changed := match (chainAt s c).types with
    | none => false
    | some t => decide (t ≠ types)
  let s := modChain c (fun x => { x with
    state := st, words := words, types := some types, stage := none, prep := none, retried := false, lineFault := false, due := 0 }) s
  raiseIf changed 529 [] (raise 528 (b1 c ++ b1 st ++ b1 n) s)

/-- The chains found in turn: the shift counts at which RET rose, by chain, and the status words, chain after chain, in
the order of their arrival (R575). -/
def chainsFound (ks : List (Nat × Int)) : List Nat → List Word → State → State
  | [], _, s => s
  | c :: cs, ws, s =>
    let k := (ks.find? (fun v => decide (v.1 = c ∧ v.2 ≤ 544))).map (·.2.toNat)
    chainsFound ks cs (ws.drop (k.getD 0 / 32)) (chainFound c k (arrived (ws.take (k.getD 0 / 32))) s)

/-- A discovery ends on its chains (R575). -/
def discoverEnds (job : Nat) (out : JobOutcome) (s : State) : State :=
  match s.ld.jobs.find? (fun j => decide (j.1 = job)) with
  | none => s
  | some j =>
    let s := onLd (fun x => { x with jobs := x.jobs.filter (fun e => decide (e.1 ≠ job)) }) s
    jobDone job (chainsFound out.values (maskList 4 j.2) out.words s)

/-- The enabled chains that a discovery takes; one by the boot or the wake (job 0) leaves out those that a line fault has
switched off (R575, R594, log 35). -/
def discoverMask (s : State) (mask job : Nat) : Nat :=
  maskOf 4 (fun c => bit mask c && chainOn s c && (decide (job ≠ 0) || !(chainAt s c).lineFault))

/-- The discovery of the enabled chains begins, for a job or (job 0) by the boot and the wake (R575, log 35). -/
def discoverChains (mask job : Nat) (s : State) : State :=
  let on := discoverMask s mask job
  if on = 0 then s else onLd (fun x => { x with jobs := x.jobs ++ [(job, on)] }) s

/-- Boards that now report HOT raise EV_536 (R576). -/
def hotEvents (old new : List Word) (s : State) : State :=
  forAll (List.range new.length) (fun b s =>
    raiseIf (bit (new.getD b 0).toNat 21 && !bit (old.getD b 0).toNat 21) 536 [] s) s

/-- A proof pulse's result is in: EV_533, the job that waited for it is done (R589). -/
def proofDone (e : Nat) (s : State) : State :=
  let job := (emAt s e).proofJob
  let s := modEm e (fun x => { x with proofDue := false, proofJob := none, proofOut := false }) s
  let s := raise 533 [] s
  match job with
  | some n => jobDone n s
  | none => s

/-- The boards due a report take it from their status words (R587, R588, R589). -/
def boardReports (c : Nat) (ws : List Word) (s : State) : State :=
  let due := (chainAt s c).due
  let s := modChain c (fun x => { x with due := 0 }) s
  forAll (maskList 16 due) (fun b s =>
    let w := (ws.getD b 0).toNat
    let e := 4 + 16 * c + b
    let proof := (emAt s e).proofOut
    let s := if bit w 22 && decide (b < ws.length) then diagnose e (if bit w 23 then 2 else 1) proof 0 s else s
    if proof then proofDone e s else s) s

/-- Every schedule entry is cancelled (R584). -/
def cancelAll (s : State) : State := onLd (fun x => { x with entry := [] }) s

/-- The schedule of an emitter changes now (R590). -/
def scheduleTouched (es : List Nat) (s : State) : State :=
  forAll es (fun e => modEm e (fun x => { x with changed := s.tc.now })) s

/-- An LD_EMITTERS entry is acceptable (R570, R595). -/
def emitterOk (e : Nat) (v : List Byte) : Bool :=
  decide (byteAt v 0 ≤ 1 ∧ byteAt v 1 ≤ 1 ∧ 2 ≤ u16At v 4 ∧ u16At v 4 ≤ 10000 ∧ u16At v 6 ≤ 4095)
    && (if e < 4 then decide (80 ≤ u16At v 2 ∧ u16At v 2 ≤ 4000 ∧ 80 ≤ u16At v 10 ∧ u16At v 12 ≤ 4000)
        else decide (u16At v 2 ≤ 4095 ∧ u16At v 12 ≤ 4095))
    && decide (byteAt v 8 ≤ 15 ∨ byteAt v 8 = 0xFF) && decide (u16At v 10 ≤ u16At v 12)

/-- A temperature source is valid: a channel, a die sensor, or the nearest (R190, R595). -/
def tempSourceOk (b : Nat) : Bool := decide (b ≤ 15 ∨ (0x80 ≤ b ∧ b < 0x98) ∨ b = 0xFF)

/-- The temperature of a sink in 0.001 C and whether the fallback is used (R578, R579). -/
def sinkTemp (s : State) (k : Nat) : Int × Bool :=
  let src := byteAt (cfg s 0x0D02) (6 * k)
  let die := if k < 2 then 20 else 21
  if src ≤ 15 then if tempUsable s src then (chanValue s src, false) else (10 * dieTemp s die, true)
  else if src = 0xFF then (10 * dieTemp s die, false)
  else (10 * dieTemp s (src - 0x80), false)

/-- MODE of a block: 0 OFF, 1 EVENT, 2 FRAME (R118). -/
def blockMode (s : State) (b : Nat) : Nat := (blockAt s b).conf.mode.toNat % 4

/-- A block row has a block that is not OFF, or that mode bytes waiting for their effect tick set out of OFF: it has power
(R123). -/
def rowOn (s : State) (r : Nat) : Bool :=
  (List.range 16).any (fun k => decide (blockMode s (16 * r + k) ≠ 0))
    || s.fe.pendingMode.any (fun e => e.2.1.zipIdx.any (fun b => decide ((e.1 + b.2) / 16 = r ∧ b.1.toNat % 4 ≠ 0)))

/-- The block rows an engine serves, as a mask (R15, R221). -/
def servedRows (s : State) (n : Nat) : Nat := (engineAt s n).moved.getD (2 ^ n)

/-- A hit-path setting in force: a change acts from its effect tick (R248). -/
def hpCfg (s : State) (tag : Nat) : List Byte :=
  match (s.hp.pending.filter (fun e => decide (e.tag = tag) && reached s e.tick)).getLast? with
  | some e => e.value
  | none => cfg s tag

/-- Gate mode of an engine is DISCARD_OUTSIDE (R230). -/
def gateDiscards (s : State) (n : Nat) : Bool := decide (byteAt (hpCfg s 0x0404) (4 * n) = 1)

/-- REORDER in ns (R233). -/
def reorderNs (s : State) : Nat := u16At (hpCfg s 0x0406) 0

/-- The present time in ns. -/
def nowNs (s : State) : Nat := 25 * s.tc.now.toNat

/-- The unexpired gates an engine holds: those of the units its mask names, still needed by records that wait REORDER
(R230, R271). -/
def heldGates (s : State) (n : Nat) : List (Int × Int) :=
  ((List.range 16).filter (bit (u16At (hpCfg s 0x0404) (4 * n + 2)))).flatMap (fun u =>
    (unitAt s u).gates.filter (fun g => decide ((nowNs s : Int) ≤ g.2 + reorderNs s)))

/-- Gating lets a proof pulse run now (R589). -/
def proofAllowed (s : State) : Bool :=
  let last : Int := nowNs s + 25 * cfg16 s 0x0D04 0
  match s.sys.power with
  | .paddle | .drive => (List.range 16).all (fun n =>
      ((maskList 16 (servedRows s n)).all (fun r => !rowOn s r) || gateDiscards s n)
        && (heldGates s n).all (fun g => decide (g.2 < (nowNs s : Int) ∨ last ≤ g.1)))
  | .easy => (List.range 16).all (fun n => (heldGates s n).isEmpty)
  | _ => false

/-- No scheduled flash of an emitter's sink or chain lies within 2 us ahead, nor is the next one of a chain so near that the
words of the proof pulse would displace it (R582, R589). -/
def proofClear (s : State) (e : Nat) : Bool :=
  let now := 32 * s.tc.now.toNat
  if e < 4 then
    (match nextInstant s (fun x => bit x.sinks e) with
      | none => true
      | some t => decide (2560 ≤ ((t : Int) - now).natAbs))
  else
    let c := (e - 4) / 16
    (match nextChainFlash s c with
      | none => true
      | some t => decide (2048 * boardsOf s c + 2560 ≤ ((t : Int) - now).natAbs))

/-- The tick from which an emitter is clear of the last flash of its sink or chain (R589). -/
def clearTick (s : State) (e : Nat) : Stamp :=
  BitVec.ofNat 64 (if e < 4 then (sinkAt s e).recent.foldl (fun a p => max a (divUp (p.1 + 2000) 25)) 0
    else match (chainAt s ((e - 4) / 16)).lastFlash with
      | some (u, _) => divUp (u + 2560) 32
      | none => 0)

/-- The loop state of an emitter (R591, R596): a loop that has had no update yet runs. -/
def loopCode (s : State) (e : Nat) : Nat :=
  if (emAt s e).loop = 0 ∧ emOn s e ∧ byteAt (emConf s e) 8 ≠ 0xFF then 1 else (emAt s e).loop

end Sys2Proof.Machine
end

