-- ==== Sys2Proof/Machine/PwOps.lean ====
section
/-! DEFINITION. The rate governor's quantities (chapter 12): T_hot, P_eff, the level, and the deferral of LOW jobs. -/
namespace Sys2Proof.Machine

/-- The sensors of each die (R530). -/
def dies : List (List Nat) := [List.range 16, [16, 17, 18, 19], [20, 21, 22, 23]]

/-- A sensor is valid (R536). -/
def sensorValid (s : State) (n : Nat) : Bool := !bit s.pw.faulted.toNat n

/-- The highest valid reading and its sensor, in 0.1 C. -/
def hottest (s : State) : Option (Int × Nat) :=
  ((List.range 24).filter (sensorValid s)).foldl (fun b n => match b with
    | none => some (tget 0 s.pw.temp n, n)
    | some v => if v.1 < tget 0 s.pw.temp n then some (tget 0 s.pw.temp n, n) else some v) none

/-- T_hot in 0.1 C: the highest valid reading, 95 C where every sensor of a die is faulted (R530, R536). -/
def tHot (s : State) : Int :=
  if dies.any (fun d => d.all (fun n => !sensorValid s n)) then 950 else ((hottest s).map (·.1)).getD 950

/-- 100 P_eff in 0.01 W (R532). -/
def pEff100 (s : State) : Nat :=
  let cap := 100 * cfg16 s 0x0B01 0
  let d := tHot s - i16At (cfg s 0x0B02) 0
  if d ≤ 0 then cap else max 60000 (cap - (cfg16 s 0x0B02 2 * d.toNat))

/-- tau in ms (R523). -/
def tauMs (s : State) : Nat := cfg16 s 0x0B01 2

/-- The measurements the mean covers (R523). -/
def meanSamples (s : State) : List Nat := s.pw.samples.take (10 * tauMs s)

/-- Sum of a list. -/
def total (xs : List Nat) : Nat := xs.foldl (· + ·) 0

/-- The level has reached x per cent (R523, R524). -/
def levelReached (s : State) (x : Nat) : Bool :=
  let m := meanSamples s
  decide (m ≠ [] ∧ x * pEff100 s * m.length ≤ 10000 * total m)

/-- The mean would be below 85 % of P_eff after `k` more measurements at the mean of the last 1 ms (R526). -/
def belowAfter (s : State) (k : Nat) : Bool :=
  let last := s.pw.samples.take 10
  let n := 10 * tauMs s
  let old := s.pw.samples.take (n - k)
  decide (10000 * (k * total last + last.length * total old) < 85 * pEff100 s * last.length * (k + old.length))

/-- The expected start of a LOW job called now: the tick of the measurement with which the mean falls below, tau ahead at
most (R526). -/
def expectedStart (s : State) : Stamp :=
  let d := match (List.range (10 * tauMs s)).find? (fun k => belowAfter s (k + 1)) with
    | some k => s.pw.evalAt + us 100 * (k + 1) - s.up
    | none => ms (tauMs s)
  s.tc.now + BitVec.ofNat 64 (min d (ms (tauMs s)))

/-- Step 1 is engaged: LOW work is deferred (R525). -/
def lowDeferred (s : State) : Bool := bit s.pw.steps.toNat 0

/-- A LOW job call: deferred while step 1 is engaged, else started (R526). -/
def lowJob (code : Nat) (par : List Byte) (begin_ : Nat → State → State) (s : State) : Reply :=
  if lowDeferred s then deferJob code par (expectedStart s) s else startJob code par begin_ s

/-- A PW_BUDGET value is acceptable (R537). -/
def budgetOk (v : List Byte) : Bool :=
  decide (600 ≤ u16At v 0 ∧ u16At v 0 ≤ 2600 ∧ 1 ≤ u16At v 2 ∧ u16At v 2 ≤ 1000 ∧ byteAt v 4 < 16)
    && ((v.drop 6).take 4).all (fun b => decide (b.toNat ≤ 3))

/-- A PW_THERMAL value is acceptable (R537). -/
def thermalOk (v : List Byte) : Bool := decide (600 ≤ i16At v 0 ∧ i16At v 0 ≤ 940 ∧ u16At v 2 ≤ 5000)

/-- A PW_AUTO value is acceptable (R537). -/
def autoOk (v : List Byte) : Bool :=
  decide (byteAt v 0 ≤ 1 ∧ (byteAt v 1 = 3 ∨ byteAt v 1 = 4) ∧ 1 ≤ u16At v 6 ∧ u16At v 6 ≤ 1000 ∧ 1 ≤ u16At v 12 ∧ u16At v 12 ≤ 60000)

/-- The policy of a queue is forced by step 3 (R528). -/
def lossForced (s : State) (q : Nat) : Bool := bit s.pw.forced.toNat q

/-- The kind in which a queue's active policy acts: a forced DROP_OLDEST discards as DROP_NEW (R528). -/
def lossKind (s : State) (q : Nat) : Nat :=
  if lossForced s q ∧ (lossQAt s q).kind = 1 then 0 else (lossQAt s q).kind

/-- Arriving records are discarded by the policy of a queue. -/
def dropsNew (s : State) (q : Nat) : Bool := (lossQAt s q).active && decide (lossKind s q = 0)

/-- A PW_STATS count increased, by its place in the result; saturation raises EV_045 (R538). -/
def pwStat (i k : Nat) (s : State) : State :=
  let r := statBump s.pw.stats s.pw.statSat i k
  satEvent 45 r.2.2 (onPw (fun x => { x with stats := r.1, statSat := r.2.1 }) s)

/-- Time added to a PW_STATS time, by its place in `dwell`; in the result the time with step 3 engaged has place 8
(R538). -/
def pwTime (i t : Nat) (s : State) : State :=
  let v := min (ms stat32) (tget 0 s.pw.dwell i + t)
  let place := if i = 4 then 8 else i
  let new := decide (v = ms stat32) && !bit s.pw.statSat place
  satEvent 45 new (onPw (fun x => { x with
    dwell := tput 0 i v x.dwell, statSat := if new then x.statSat + 2 ^ place else x.statSat }) s)

/-- The times of PW_STATS are brought up to the present (R538). -/
def pwAccount (s : State) : State :=
  let t := s.up - s.pw.since
  let s := match s.sys.power with
    | .hold => pwTime 0 t s
    | .easy => pwTime 1 t s
    | .paddle => pwTime 2 t s
    | .drive => pwTime 3 t s
    | .boot => s
  let s := if bit s.pw.steps.toNat 2 then pwTime 4 t s else s
  onPw (fun x => { x with since := s.up }) s

end Sys2Proof.Machine
end

