-- ==== Sys2Proof/Machine/BbOps.lean ====
section
/-! DEFINITION. The queues and the memory layer's own logic (chapter 08), with the loss policies and loss records
that act on them (chapter 05, R236 to R241). -/
namespace Sys2Proof.Machine

/-- A queue-map entry in force (R19, R388); a change acts from its effect tick (R390). -/
def mapOf (s : State) (q : Nat) : Nat × Nat × Nat :=
  match s.bb.mapPending.find? (fun m => decide (m.1 = q) && reached s m.2.2) with
  | some m => m.2.1
  | none => (tget none s.bb.map q).getD (defaultMap q)

/-- A queue is enabled in the map. -/
def queueEnabled (s : State) (q : Nat) : Bool := decide ((mapOf s q).2.2 = 1)

/-- The enabled queue a source bit is mapped to (R388). -/
def queueOf (s : State) (src : Nat) : Option Nat :=
  (List.range 16).find? (fun q => queueEnabled s q && bit (mapOf s q).1 src)

/-- Size of a region in units of 16 MiB (R347). -/
def regionUnits (s : State) (q : Nat) : Nat := tget 32 s.bb.region q

/-- Pages in one unit of 16 MiB. -/
def unitPages : Nat := 4096

/-- First page of a region (R347). -/
def regionStart (s : State) (q : Nat) : Nat := unitPages * ((List.range q).foldl (fun a k => a + regionUnits s k) 0)

/-- Pages of a region. -/
def regionPages (s : State) (q : Nat) : Nat := unitPages * regionUnits s q

/-- The region a page lies in. -/
def regionOf (s : State) (page : Nat) : Option Nat :=
  (List.range 16).find? (fun q => decide (regionStart s q ≤ page ∧ page < regionStart s q + regionPages s q))

/-- Retired pages of a region. -/
def retiredIn (s : State) (q : Nat) : Nat := (s.bb.retired.filter (fun p => decide (regionOf s p = some q))).length

/-- SRAM_ONLY of a queue: the memory layer out of use, or region size 0 (R349, R357). -/
def sramOnly (s : State) (q : Nat) : Bool := !s.bb.layer || decide (regionUnits s q = 0)

/-- Capacity of a queue in bytes (R349, R355). -/
def capacity (s : State) (q : Nat) : Nat :=
  524288 + (if s.bb.layer then 4096 * (regionPages s q - retiredIn s q) else 0)

/-- A length rounded up to a multiple of 32 (R352). -/
def pad32 (n : Nat) : Nat := 32 * divUp n 32

/-- Bytes a frame with a payload of `n` bytes takes (R352). -/
def frameSize (n : Nat) : Nat := 32 + pad32 n

/-- Bytes of the open frames. -/
def openBytes (x : BurstQueue) : Nat := x.opens.foldl (fun a o => a + frameSize o.payload.length) 0

/-- Fill of a queue in bytes (R355). -/
def fill (x : BurstQueue) : Nat := x.w - x.r + openBytes x

/-- Fill of queue `q` in per cent (R355). -/
def fillPct (s : State) (q : Nat) : Nat := 100 * fill (queueAt s q) / capacity s q

/-- A queue is FULL, or `n` more bytes would make it so (R355). -/
def noRoom (s : State) (q n : Nat) : Bool := decide (capacity s q - 4096 ≤ fill (queueAt s q) + n - 1)

/-- A queue statistic increased (R389). -/
def bbStat (q i k : Nat) (s : State) : State :=
  let r := statBump (queueAt s q).stats (queueAt s q).statSat i k
  satEvent 342 r.2.2 (modQueue q (fun x => { x with stats := r.1, statSat := r.2.1 }) s)

/-- KiB in (statistic 2) or out (3): whole KiB of the bytes so far. -/
def bbBytes (q : Nat) (out : Bool) (n : Nat) (s : State) : State :=
  let p := (queueAt s q).part
  let v := (if out then p.2 else p.1) + n
  let s := modQueue q (fun x => { x with part := if out then (p.1, v % 1024) else (v % 1024, p.2) }) s
  bbStat q (if out then 3 else 2) (v / 1024) s

/-- The peak fill statistic follows the fill (R389). -/
def peakFill (q : Nat) (s : State) : State :=
  modQueue q (fun x => { x with stats := tmod 0 11 (max (fillPct s q)) x.stats }) s

/-- The weight-3 columns of data and address bits in order (R369). -/
def weight3 : List Nat :=
  (List.range 14).flatMap (fun a => (List.range a).flatMap (fun b => (List.range b).map (fun c => 2 ^ a + 2 ^ b + 2 ^ c)))

/-- XOR of the columns of a set of bits. -/
def columnsOf : List Nat → Nat → Nat → Nat
  | [], _, _ => 0
  | c :: cs, i, v => (if bit v i then c else 0) ^^^ columnsOf cs (i + 1) v

/-- The clean check bits of a word at a line address (R369). -/
def cleanCheck (data addr : Nat) : Nat := columnsOf weight3 0 (data + addr % 2 ^ 28 * 2 ^ 256)

/-- The syndrome of a word that differs from the clean one (R371). -/
def syndrome (e : LineErr) : Nat := cleanCheck e.data.toNat e.addr.toNat ^^^ e.check.toNat

/-- Result of R371: 0 CLEAN, 1 CORRECTED, 2 ADDRESS, 3 POISONED, 4 UNCORRECTABLE. -/
def checkResult (syn : Nat) : Nat :=
  if syn = 0 then 0
  else if (weight3.take 256).contains syn || (List.range 16).any (fun k => decide (syn = 2 ^ k)) then 1
  else if ((weight3.drop 256).take 28).contains syn then 2
  else if 10 ≤ (maskList 16 syn).length then 3 else 4

/-- The poison code of a word (R370). -/
def poisonErr (e : LineErr) : LineErr := { data := e.data, check := 0xFFFF, addr := 0 }

/-- The difference of a word upset once more. -/
def upsetErr (e : LineErr) (data : BitVec 256) (check : BitVec 16) (addr : BitVec 28) : LineErr :=
  { data := e.data ^^^ data, check := e.check ^^^ check, addr := e.addr ^^^ addr }

/-- A page leaves use: its valid bit is cleared, and a page waiting to be retired is (R372, R384). -/
def releasePage (p : Nat) (s : State) : State :=
  let s := onBb (fun x => { x with valid := tput false p false x.valid, loose := x.loose.filter (fun e => decide (e.1 / 128 ≠ p)) }) s
  if s.bb.retiring.contains p then
    raise 334 [] (onBb (fun x => { x with
      retiring := x.retiring.filter (fun k => decide (k ≠ p)), retired := x.retired ++ [p] }) s)
  else s

/-- Pages leave use. -/
def releasePages (ps : List Nat) (s : State) : State := forAll ps releasePage s

/-- A word holds a poison code (R371). -/
def isPoison (e : LineErr) : Bool := decide (checkResult (syndrome e) = 3)

/-- The words of a range of positions lose their errors; poison codes gone unread count as poison discarded (R375). -/
def dropErrs (q a b : Nat) (s : State) : State :=
  let gone := ((queueAt s q).errs.filter (fun e => decide (a ≤ 32 * e.1 ∧ 32 * e.1 < b) && isPoison e.2)).length
  let s := modQueue q (fun x => { x with errs := x.errs.filter (fun e => decide (32 * e.1 < a ∨ b ≤ 32 * e.1)) }) s
  if gone = 0 then s else bbStat q 7 gone s

/-- The head takes positions up to here: 256 KiB from R (R350, R351); where the queue can spill, to the last boundary of 64
KiB in them, from which the next chunk can be spilled whole (log 37). -/
def headLimit (s : State) (q : Nat) : Nat :=
  let e := (queueAt s q).r + 262144
  if sramOnly s q then e else e / 65536 * 65536

/-- A drain: with the middle empty, positions pass from the tail to the head (R351). -/
def drainQueue (q : Nat) (s : State) : State :=
  let e := headLimit s q
  modQueue q (fun x =>
    if x.chunks = [] ∧ x.refill = x.spill then { x with refill := max x.refill (min x.w e), spill := max x.spill (min x.w e) } else x) s

/-- A drain can move something. -/
def canDrain (s : State) (q : Nat) : Bool :=
  let x := queueAt s q
  decide (x.chunks = [] ∧ x.refill = x.spill ∧ x.refill < min x.w (headLimit s q))

/-- A word on a demand read or move: corrected with EV_328, made poison with EV_329 (R373, R379). -/
def moveWord (q : Nat) (w : Nat × LineErr) (s : State) : State :=
  match checkResult (syndrome w.2) with
  | 1 => raise 328 [] (modQueue q (fun x => { x with errs := tput {} w.1 {} x.errs }) s)
  | 2 | 4 => raise 329 [] (modQueue q (fun x => { x with errs := tput {} w.1 (poisonErr w.2) x.errs }) s)
  | _ => s

/-- The oldest chunk is read into the head and its pages are released (R351, R372). -/
def takeChunk (q : Nat) (ps : List Nat) (rest : List (List Nat)) (s : State) : State :=
  let x := queueAt s q
  let moved := x.errs.filter (fun e => decide (x.refill ≤ 32 * e.1 ∧ 32 * e.1 < x.refill + 65536))
  let s := forAll moved (moveWord q) s
  let s := modQueue q (fun x => { x with refill := x.refill + 65536, chunks := rest }) s
  releasePages ps (bbStat q 5 1 (onBb (fun x => { x with selfRefresh := false, movedAt := s.up }) s))

/-- After R has moved over what was discarded: chunks that lie wholly below R are released unread, one that R stands in is
refilled into the empty head, and with the middle empty the pointers follow R (R351, R360, R362). -/
def dropChunks (q : Nat) : List (List Nat) → State → State
  | [], s => drainQueue q (modQueue q (fun x => if x.refill < x.r then { x with refill := x.r, spill := x.r } else x) s)
  | ps :: rest, s =>
    if (queueAt s q).r ≤ (queueAt s q).refill then s
    else if (queueAt s q).r < (queueAt s q).refill + 65536 then takeChunk q ps rest s
    else dropChunks q rest (releasePages ps (modQueue q (fun x => { x with refill := x.refill + 65536, chunks := rest }) s))

/-- The next 16 non-retired pages of the region's ring from a place, and the place after them (R351). -/
def ringPages (s : State) (start pages : Nat) : Nat → Nat → Nat → List Nat → List Nat × Nat
  | 0, at_, _, acc => (acc, at_)
  | fuel + 1, at_, left, acc =>
    if left = 0 then (acc, at_)
    else
      let p := start + at_ % pages
      if s.bb.retired.contains p then ringPages s start pages fuel ((at_ + 1) % pages) left acc
      else ringPages s start pages fuel ((at_ + 1) % pages) (left - 1) (acc ++ [p])

/-- The pages the next spill of a queue takes. -/
def spillPages (s : State) (q : Nat) : List Nat × Nat :=
  ringPages s (regionStart s q) (regionPages s q) (16 + s.bb.retired.length) (queueAt s q).ring 16 []

/-- A complete chunk of the tail cannot drain and the region can take it (R351). -/
def canSpill (s : State) (q : Nat) : Bool :=
  let x := queueAt s q
  !sramOnly s q && !canDrain s q && decide (x.spill % 65536 = 0 ∧ x.spill + 65536 ≤ x.w)
    && decide (16 * (x.chunks.length + 1) ≤ regionPages s q - retiredIn s q)

/-- A spill (R351, R372). -/
def spillChunk (q : Nat) (s : State) : State :=
  let ps := spillPages s q
  let s := modQueue q (fun x => { x with spill := x.spill + 65536, chunks := x.chunks ++ [ps.1], ring := ps.2 }) s
  let s := onBb (fun x => { x with
    valid := ps.1.foldl (fun t p => tput false p true t) x.valid, selfRefresh := false, movedAt := s.up
    loose := x.loose.filter (fun e => !ps.1.contains (e.1 / 128)) }) s
  bbStat q 4 1 s

/-- A tail longer than its 256 KiB makes room for itself, by a drain or spills (R350, R351). -/
def relieveTail (q : Nat) (s : State) : State :=
  forAll (List.range 4) (fun _ s =>
    let x := queueAt s q
    if x.w - x.spill ≤ 262144 then s
    else if canDrain s q then drainQueue q s else if canSpill s q then spillChunk q s else s) s

/-- The configuration of a queue as an entry of CX_QUEUES: mode, unit, predictor, index enable (R420). -/
def cxConf (s : State) (q : Nat) : Nat × Nat × Nat × Nat := ((cxqAt s q).conf).getD (0, q / 2 % 2, 4, 1)

/-- The queue is consumed by a compression unit (R393). -/
def compressing (s : State) (q : Nat) : Bool := decide ((cxConf s q).1 ≠ 0)

/-- In EASY the first frame closed in a compressing queue wakes PD_25 (R417). -/
def wakeUnits (q : Nat) (s : State) : State :=
  when (decide (s.sys.power = .easy) && compressing s q && !s.cx.awake)
    (onCx (fun x => { x with awake := true, workAt := tput 0 1 s.up (tput 0 0 s.up x.workAt) })) s

/-- A closed frame is placed at W (R352, R354). What goes into an empty tail and middle goes straight to the head. -/
def placeFrame (q : Nat) (f : BqFrame) (s : State) : State :=
  let x := queueAt s q
  let n := frameSize f.payload.length
  let straight := decide (x.chunks = [] ∧ x.refill = x.spill ∧ x.spill = x.w)
  let s := modQueue q (fun x => { x with w := x.w + n, frames := x.frames ++ [{ f with pos := x.w, closed := s.tc.now }] }) s
  let s := if straight then drainQueue q s else s
  relieveTail q (peakFill q (bbBytes q false n (bbStat q 0 1 (wakeUnits q s))))

/-- FLAGS of a frame (R353). -/
def frameFlags (cal resync loss : Bool) : BitVec 8 := BitVec.ofNat 8 (bitNat cal + 2 * bitNat resync + 4 * bitNat loss)

/-- An open frame becomes closed and visible (R354). -/
def closeFrame (q : Nat) (o : OpenFrame) (s : State) : State :=
  let s := modQueue q (fun x => { x with
    opens := x.opens.filter (fun p => decide (p.source ≠ o.source ∨ p.kind ≠ o.kind)) }) s
  placeFrame q {
    pos := 0, kind := o.kind, flags := frameFlags o.cal o.resync false, base := o.base, lastOff := o.lastOff
    records := o.records, source := o.source, payload := o.payload } s

/-- The open frame of a producer and kind. -/
def openFrame (s : State) (q source kind : Nat) : Option OpenFrame :=
  (queueAt s q).opens.find? (fun o => decide (o.source = source ∧ o.kind = kind))

/-- Every open frame of a queue closes, oldest first. -/
def closeAll (q : Nat) (s : State) : State := forAll (queueAt s q).opens (closeFrame q) s

/-- The 24 bytes of a loss record (R238). -/
def lossBytes (l : Loss) : List Byte :=
  b1 l.cause ++ b1 l.unit ++ b2 l.source ++ b4 (min stat32 l.count) ++ stampBytes l.first ++ leBytes 6 (tickOf l.last) ++ [0, 0]

/-- The frame of a loss record (R239, R353). -/
def lossFrame (s : State) (producer : Nat) (l : Loss) : BqFrame := {
  pos := 0, kind := 4, flags := frameFlags false (resync s) true, base := l.first, lastOff := 0, records := 1
  source := producer, payload := lossBytes l }

/-- A loss record of a cause below 7 counts in the queue's totals (R247). -/
def lossTotal (q : Nat) (l : Loss) (s : State) : State :=
  if l.cause < 7 then modLossQ q (fun x => { x with totals := tmod 0 l.cause (statAdd l.count) x.totals }) s else s

/-- A loss record is written at the tail: the frames open before it close first (R239, R241, log 37); EV_193. -/
def writeLoss (q producer : Nat) (l : Loss) (s : State) : State :=
  let x := queueAt s q
  if x.state = 3 ∨ x.state = 4 then modQueue q (fun x => { x with discarded := x.discarded + 64 }) s
  else
    let s := closeAll q s
    raise 193 [] (lossTotal q l (placeFrame q (lossFrame s producer l) s))

/-- A loss is added to those not yet written (R240). -/
def addLoss (l : Loss) : List Loss → List Loss
  | [] => [l]
  | x :: xs =>
    if x.cause = l.cause ∧ x.unit = l.unit ∧ x.source = l.source then
      { x with
        count := satAdd stat32 x.count l.count
        first := if stampDiff l.first x.first < 0 then l.first else x.first
        last := if 0 < stampDiff l.last x.last then l.last else x.last } :: xs
    else x :: addLoss l xs

/-- A loss of the policy or of a full queue waits for its record (R239, R240). -/
def noteLoss (q : Nat) (l : Loss) (s : State) : State := modLossQ q (fun x => { x with losses := addLoss l x.losses }) s

/-- The losses that wait are written (R239). -/
def flushLosses (q : Nat) (s : State) : State :=
  let ls := (lossQAt s q).losses
  let s := modLossQ q (fun x => { x with losses := [] }) s
  forAll ls (writeLoss q 0x30) s

/-- The loss policy configured for a queue: policy, HIGH, LOW, block mask (R248). -/
def lossConf (s : State) (q : Nat) : Nat × Nat × Nat × Nat :=
  let v := bytesAt (cfg s 0x0403) (12 * q) 12
  (byteAt v 0, byteAt v 1, byteAt v 2, uAt 8 v 4)

/-- The blocks of the block rows that feed a queue, in ascending number (R237). -/
def feedingBlocks (s : State) (q : Nat) : List Nat :=
  (maskList 16 ((mapOf s q).1 % 65536)).flatMap (fun r => (List.range 16).map (fun k => 16 * r + k))

/-- The blocks of the block rows whose FRAME data feed a queue, in ascending number (R388). -/
def frameFeeding (s : State) (q : Nat) : List Nat :=
  ((List.range 4).filter (fun k => bit (mapOf s q).1 (16 + k))).flatMap (fun k => (List.range 64).map (fun i => 64 * k + i))

/-- The blocks a block mask names (R237). -/
def maskedBlocks (s : State) (q mask : Nat) : List Nat :=
  ((feedingBlocks s q).zipIdx.filter (fun p => bit mask p.2)).map (·.1)

/-- The first `n` frames of a queue are discarded: a loss frame takes the last 64 bytes of their range, R moves to it.
Loss frames that are kept stand before it (R361, R366, R704; kept ones are R241, log 37). -/
def replaceFrames (q n : Nat) (kept : List BqFrame) (l : Nat → Loss) (s : State) : State :=
  let x := queueAt s q
  let gone := x.frames.take n
  match gone.getLast? with
  | none => s
  | some z =>
    let e := z.pos + frameSize z.payload.length
    let r := e - 64 * (kept.length + 1)
    let l := l (e - x.r - 64 * (kept.length + 1))
    let front := (kept.zipIdx.map (fun f => { f.1 with pos := r + 64 * f.2 })) ++ [{ lossFrame s 0x30 l with pos := e - 64, closed := s.tc.now }]
    let s := dropErrs q x.r e s
    let s := modQueue q (fun x => { x with frames := front ++ x.frames.drop n, r := r }) s
    raise 193 [] (lossTotal q l (dropChunks q (queueAt s q).chunks s))

/-- A loss frame: no loss policy discards it (R241). -/
def keptLoss (f : BqFrame) : Bool := decide (f.kind = 4)

/-- The number of the oldest frames a DROP_OLDEST step passes: those it discards among them, which are no loss frames, make
64 KiB and take the fill below HIGH, or are all there are; none where the closed frames do not make 64 KiB (R241, R360). -/
def dropCount (target : Nat) : List BqFrame → Nat → Nat → Option Nat
  | [], got, n => if 65536 ≤ got then some n else none
  | f :: fs, got, n =>
    let got := if keptLoss f then got else got + frameSize f.payload.length
    if 65536 ≤ got ∧ target ≤ got then some (n + 1) else dropCount target fs got (n + 1)

/-- A step of DROP_OLDEST (R360, R361). -/
def dropOldestStep (q : Nat) (s : State) : State :=
  let x := queueAt s q
  let high := 100 * fill x + 100 - (lossConf s q).2.1 * capacity s q
  let need := divUp high 100 + 64
  match dropCount need x.frames 0 0 with
  | none => s
  | some n =>
    let gone := x.frames.take n
    let lost := gone.filter (fun f => !keptLoss f)
    match lost.head?, lost.getLast? with
    | some a, some z => replaceFrames q n (gone.filter keptLoss) (fun c => {
        cause := 1, unit := 3, source := 0xFFFF, count := c, first := a.base, last := z.base + BitVec.ofNat 64 z.lastOff }) s
    | _, _ => s

/-- The fill has reached HIGH. -/
def atHigh (s : State) (q : Nat) : Bool := decide ((lossConf s q).2.1 * capacity s q ≤ 100 * fill (queueAt s q))

/-- The fill has fallen to LOW. -/
def atLow (s : State) (q : Nat) : Bool := decide (100 * fill (queueAt s q) ≤ (lossConf s q).2.2.1 * capacity s q)

/-- The policy becomes active (R236, R237). -/
def lossStart (q : Nat) (s : State) : State :=
  let c := lossConf s q
  let s := modLossQ q (fun x => { x with active := true, kind := c.1, mask := c.2.2.2, since := s.tc.now }) s
  let s := raise 192 [] s
  if c.1 = 2 then forAll (maskedBlocks s q c.2.2.2) (fun b => modBlock b (fun x => { x with held := true })) s else s

/-- The policy ends: what was lost is written; the blocks it held are released 2 ticks later (R236, R237, R239). -/
def lossEnd (q : Nat) (s : State) : State :=
  let x := lossQAt s q
  let s := modLossQ q (fun x => { x with active := false }) s
  let s := if x.kind = 2 then
      let last := s.tc.now + 2
      let bs := maskedBlocks s q x.mask
      noteLoss q { cause := 2, unit := 4, source := 0xFFFF
                   count := bs.length * (stampDiff last x.since).toNat, first := x.since, last := last }
        (modLossQ q (fun x => { x with releasing := some (last, (((x.releasing.map (·.2)).getD []) ++ bs).eraseDups) }) s)
    else s
  flushLosses q s

/-- The loss policy of a queue follows its fill (R236, R237, R360). -/
def lossEval (q : Nat) (s : State) : State :=
  let st := (queueAt s q).state
  if st = 0 ∨ st = 3 ∨ st = 4 then s
  else
    let s := if !(lossQAt s q).active && atHigh s q then lossStart q s else s
    let s := if (lossQAt s q).active && decide (lossKind s q = 1) && atHigh s q then dropOldestStep q s else s
    if (lossQAt s q).active && !lossForced s q && atLow s q then lossEnd q s else s

/-- What a producer brings to a queue: a record, or a whole frame. -/
structure Put where
  /-- bit of the source mask (R388) -/
  src : Nat
  /-- SOURCE (R353) -/
  source : Nat
  /-- KIND -/
  kind : Nat
  /-- its tick with epoch -/
  tick : Stamp
  /-- CAL -/
  cal : Bool
  /-- it must open a new frame: a late record (R234) -/
  fresh : Bool
  /-- its bytes for a tick offset -/
  bytes : Nat → List Byte
  /-- UNIT of its loss -/
  unit : Nat
  /-- amount of its loss -/
  amount : Nat

/-- A record joins an open frame (R354). -/
def joins (p : Put) (o : OpenFrame) : Bool :=
  !p.fresh && decide (o.cal = p.cal) && decide (0 ≤ stampDiff p.tick o.base ∧ stampDiff p.tick o.base ≤ 0xFFFF)
    && decide (o.payload.length + (p.bytes 0).length ≤ 8192)

/-- The bytes a record adds to the queue's fill. -/
def addedBytes (s : State) (q : Nat) (p : Put) : Nat :=
  match openFrame s q p.source p.kind with
  | some o => if joins p o then frameSize (o.payload.length + (p.bytes 0).length) - frameSize o.payload.length
    else frameSize (p.bytes 0).length
  | none => frameSize (p.bytes 0).length

/-- The moment at which what is opened now has waited the packet-close time (R21, R461). -/
def packetCloses (s : State) : Nat := s.up + divUp (cfg32 s 0x0904 0) 25

/-- A record is appended to its open frame, or opens one (R354). -/
def appendRecord (q : Nat) (p : Put) (s : State) : State :=
  let fresh (s : State) : State := modQueue q (fun x => { x with opens := x.opens ++ [{
    kind := p.kind, source := p.source, cal := p.cal, resync := resync s, base := p.tick, lastOff := 0, records := 1
    payload := p.bytes 0, closes := packetCloses s }] }) s
  let s := match openFrame s q p.source p.kind with
    | some o =>
      if joins p o then
        let off := (stampDiff p.tick o.base).toNat
        modQueue q (fun x => { x with opens := x.opens.map (fun y =>
          if y.source = o.source ∧ y.kind = o.kind then
            { y with lastOff := max y.lastOff off, records := y.records + 1, payload := y.payload ++ p.bytes off }
          else y) }) s
      else fresh (closeFrame q o s)
    | none => fresh s
  let s := peakFill q s
  match openFrame s q p.source p.kind with
  | some o => if 8192 ≤ o.payload.length then closeFrame q o s else s
  | none => s

/-- The queue of a put cannot take it and its producer must wait (R358: engines and cores stall). -/
def putStalls (s : State) (p : Put) : Bool :=
  match queueOf s p.src with
  | none => false
  | some q =>
    let st := (queueAt s q).state
    decide (st ≠ 3 ∧ st ≠ 4) && !dropsNew s q && noRoom s q (addedBytes s q p)

/-- The loss a discarded record makes. -/
def putLoss (p : Put) : Loss :=
  { cause := 0, unit := p.unit, source := 0xFFFF, count := p.amount, first := p.tick, last := p.tick }

/-- A record comes to a queue: unmapped, discarded by a reset, by the policy or for want of room, or accepted after
the losses before it (R237, R239, R356, R358, R388). From the decision to enter HOLD producers are stopped (R367; what
they would still bring is lost, log 37). `write` is how it is accepted. -/
def putWith (p : Put) (size : State → Nat → Nat) (write : Nat → State → State) (s : State) : State :=
  if enteringHold s then s
  else match queueOf s p.src with
  | none => bbStat 0 10 1 s
  | some q =>
    let x := queueAt s q
    if x.state = 3 ∨ x.state = 4 then
      modQueue q (fun x => { x with discarded := x.discarded + (p.bytes 0).length }) s
    else if dropsNew s q || noRoom s q (size s q) then noteLoss q (putLoss p) s
    else
      let s := if (lossQAt s q).losses = [] then s else flushLosses q s
      lossEval q (write q s)

/-- A record comes to a queue. -/
def putRecord (p : Put) (s : State) : State := putWith p (fun s q => addedBytes s q p) (fun q => appendRecord q p) s

/-- A whole frame comes to a queue (R354: a FRAME unit is one frame of its own); `poison` marks its first payload word
(R244). -/
def putFrame (p : Put) (records : Nat) (poison : Bool) (s : State) : State :=
  putWith p (fun _ _ => frameSize (p.bytes 0).length) (fun q s =>
    let at_ := (queueAt s q).w
    let s := placeFrame q {
      pos := 0, kind := p.kind, flags := frameFlags p.cal (resync s) false, base := p.tick, lastOff := 0
      records := records, source := p.source, payload := p.bytes 0 } s
    if poison then modQueue q (fun x => { x with errs := tput {} (at_ / 32 + 1) (poisonErr {}) x.errs }) s else s) s

/-- A loss record that comes through the reorder stage or from a takeover (R239, R646). -/
def putLossRecord (src producer : Nat) (l : Loss) (s : State) : State :=
  match queueOf s src with
  | none => bbStat 0 10 1 s
  | some q => lossEval q (writeLoss q producer l s)

/-- Every queue's capacity or contents may have changed: the policies follow. -/
def lossEvalAll (s : State) : State := forAll (List.range 16) lossEval s

/-- A group a queue may send on is RUNNING (R356). -/
def groupUp (s : State) (q : Nat) : Bool :=
  (List.range 4).any (fun g => bit (mapOf s q).2.1 g && (groupAt s g).running)

/-- The state of a queue that neither resets nor is at fault (R356). -/
def queueState (s : State) (q : Nat) : Nat :=
  let x := queueAt s q
  if !queueEnabled s q then 0 else if groupUp s q && !x.hostHold && !x.failHold then 1 else 2

/-- A queue takes the state that its map, its groups and its holds give; EV_324 where it enters HELD for want of a
RUNNING group (R356, R392). -/
def updateQueue (q : Nat) (s : State) : State :=
  let x := queueAt s q
  if x.state = 3 ∨ x.state = 4 then s
  else
    let st := queueState s q
    let s := modQueue q (fun x => { x with state := st }) s
    raiseIf (decide (st = 2 ∧ x.state ≠ 2) && !groupUp s q) 324 [] s

/-- Every queue takes its state. -/
def updateQueues (s : State) : State := forAll (List.range 16) updateQueue s

/-- A queue-reset sequence starts (R364, R365). -/
def startReset (q : Nat) (s : State) : State :=
  let x := queueAt s q
  if x.state = 3 then s
  else
    let fault := decide (x.state = 4)
    let times := if fault then [] else s.up :: x.resetTimes.filter (fun t => decide (s.up < t + ms 1000))
    modQueue q (fun x => { x with
      state := 3, resetHeld := fill x, discarded := if fault then x.discarded else 0
      resetFirst := (x.frames.head?.map (·.base)).getD s.tc.now, resetTimes := times.take 3
      toFault := decide (3 ≤ times.length) }) s

/-- A queue reset ends: everything is released, the pointers meet, the loss frame is written, the queue resumes or is at
fault (R364, R365). -/
def finishReset (q : Nat) (s : State) : State :=
  let x := queueAt s q
  let l : Loss := { cause := 7, unit := 3, source := 0, count := min stat32 (x.resetHeld + x.discarded), first := x.resetFirst, last := s.tc.now }
  let s := releasePages x.chunks.flatten (dropErrs q x.r x.w s)
  let s := modQueue q (fun x => { x with
    frames := [], opens := [], chunks := [], errs := [], copy := [], r := x.w, spill := x.w, refill := x.w, lastRead := none
    discarded := 0, state := 2 }) s
  let s := lossEval q (writeLoss q 0x30 l s)
  let s := modQueue q (fun y => { y with state := if x.toFault then 4 else 0, toFault := false }) s
  let s := raise 320 [] (bbStat q 9 1 s)
  if x.toFault then raise 322 [] s else updateQueue q s

/-- A queue may give a frame: it is in RUN and its oldest frame lies whole in the head (R350, R356). -/
def frameReady (s : State) (q : Nat) : Option BqFrame :=
  let x := queueAt s q
  if x.state ≠ 1 then none
  else match x.frames with
    | f :: _ => if f.pos + frameSize f.payload.length ≤ x.refill then some f else none
    | [] => none

/-- The errors of the words of a frame's payload and descriptor. -/
def frameErrs (x : BurstQueue) (f : BqFrame) : List (Nat × LineErr) :=
  x.errs.filter (fun e => decide (f.pos ≤ 32 * e.1 ∧ 32 * e.1 < f.pos + frameSize f.payload.length))

/-- A word's result leaves its data unreliable (R371). -/
def badWord (e : LineErr) : Bool := decide (2 ≤ checkResult (syndrome e))

/-- A payload as it is delivered: bits of unreliable words as stored (R371, R374). -/
def deliver (f : BqFrame) (es : List (Nat × LineErr)) : List Byte :=
  es.foldl (fun bs e =>
    if badWord e.2 ∧ f.pos + 32 ≤ 32 * e.1 then
      let at_ := 32 * e.1 - (f.pos + 32)
      let old := leNat (bytesAt bs at_ 32)
      let n := min 32 (bs.length - at_)
      bytesPut bs at_ ((leBytes 32 (old ^^^ e.2.data.toNat)).take n)
    else bs) f.payload

/-- Words from a position on are found upset by a read (R371). -/
def upsetWords (q at_ : Nat) (ups : List WordUpset) (s : State) : State :=
  modQueue q (fun x => { x with errs := ups.foldl (fun t u =>
    tmod {} (at_ / 32 + u.word) (fun e => upsetErr e u.up.data u.up.check u.up.addr) t) x.errs }) s

/-- A word that a demand read delivers corrected, or cannot correct (R379). -/
def demandWord (w : Nat × LineErr) (s : State) : State :=
  match checkResult (syndrome w.2) with
  | 1 => raise 328 [] s
  | 2 | 4 => raise 329 [] s
  | _ => s

/-- The consumer skips an unreadable descriptor (R366): to the first frame starting in the next chunk, or a reset. -/
def skipDescriptor (q : Nat) (s : State) : State :=
  let x := queueAt s q
  match (x.frames.zipIdx).find? (fun f => decide (x.r / 65536 < f.1.pos / 65536)) with
  | none => startReset q s
  | some (g, n) =>
    let l (c : Nat) : Loss := { cause := 7, unit := 3, source := 2, count := c, first := x.lastRead.getD s.tc.now, last := g.base }
    lossEval q (raise 323 [] (bbStat q 8 1 (replaceFrames q n [] l s)))

/-- A consumer takes the oldest frame whole (R359, R366, R374, R379): the frame as delivered with its poison, or none where
its descriptor could not be read. -/
def takeFrame (q : Nat) (f : BqFrame) (s : State) : Option (BqFrame × Bool) × State :=
  let x := queueAt s q
  let es := frameErrs x f
  let s := forAll es demandWord s
  if es.any (fun e => decide (32 * e.1 < f.pos + 32) && badWord e.2) then (none, skipDescriptor q s)
  else
    let poison := es.any (fun e => badWord e.2)
    let e := f.pos + frameSize f.payload.length
    let s := modQueue q (fun x => { x with
      frames := x.frames.drop 1, r := e, lastRead := some (f.base + BitVec.ofNat 64 f.lastOff)
      errs := x.errs.filter (fun w => decide (32 * w.1 < f.pos ∨ e ≤ 32 * w.1)) }) s
    let s := bbBytes q true (frameSize f.payload.length) (bbStat q 1 1 s)
    let s := if poison then raise 332 (b1 q ++ stampBytes f.base) (bbStat q 6 1 s) else s
    (some ({ f with payload := deliver f es }, poison), lossEval q s)

/-- The lines a spare budget is counted by: 64 Ki lines, 2 MiB (R383). -/
def spareBudget (s : State) (q : Nat) : Nat := 8 * regionUnits s q

/-- Remapped lines of a region. -/
def remappedIn (s : State) (q : Nat) : Nat :=
  (s.bb.remap.filter (fun e => decide (regionOf s (e.1 / 128) = some q))).length

/-- The least spare line not in use (R383). -/
def freeSpare (s : State) : Option Nat :=
  (List.range 4096).find? (fun k => !s.bb.remap.any (fun e => decide (e.2 = some k)))

/-- A physical line's region and byte offset in it, as EV_331 and EV_333 name them (R656). -/
def lineArg (s : State) (line : Nat) : List Byte :=
  match regionOf s (line / 128) with
  | some q => b1 q ++ leBytes 5 (32 * line - 4096 * regionStart s q)
  | none => b1 0xFF ++ leBytes 5 0

/-- A page that is held by a chunk of some queue. -/
def pageHeld (s : State) (p : Nat) : Bool := (List.range 16).any (fun q => (queueAt s q).chunks.any (fun c => c.contains p))

/-- A page is retired at once, or when it is released (R384). -/
def retirePage (p : Nat) (s : State) : State :=
  if s.bb.retired.contains p || s.bb.retiring.contains p then s
  else if pageHeld s p then onBb (fun x => { x with retiring := x.retiring ++ [p] }) s
  else lossEvalAll (raise 334 [] (onBb (fun x => { x with retired := x.retired ++ [p], valid := tput false p false x.valid }) s))

/-- A weak line is remapped to a spare of its region, or its page retired (R383, R384). -/
def weakLine (line : Nat) (s : State) : State :=
  let s := onBb (fun x => { x with watch := x.watch.filter (fun w => decide (w.line ≠ line)) }) s
  match regionOf s (line / 128) with
  | none => s
  | some q =>
    let budget := spareBudget s q
    match freeSpare s with
    | some k =>
      if budget ≤ remappedIn s q ∨ (tget none s.bb.remap line).isSome then retirePage (line / 128) s
      else
        let s := onBb (fun x => { x with remap := tput none line (some k) x.remap }) s
        let s := raise 333 (lineArg s line) s
        raiseIf (decide (budget - remappedIn s q = divUp budget 10)) 335 [] s
    | none => retirePage (line / 128) s

/-- The watch-list entry that a full list drops: fewest repeats, oldest first (R382). -/
def dropWatch (ws : List Watch) : List Watch :=
  match ws.foldl (fun (b : Option Watch) w => match b with
    | none => some w
    | some v => if w.repeats < v.repeats then some w else some v) none with
  | none => ws
  | some v => ws.erase v

/-- A line has been corrected and written back (R382). -/
def watchCorrected (line : Nat) (s : State) : State :=
  match s.bb.watch.find? (fun w => decide (w.line = line)) with
  | some w =>
    if cfg8 s 0x0704 0 ≤ w.repeats + 1 then weakLine line s
    else onBb (fun x => { x with watch := x.watch.map (fun v => if v.line = line then { v with repeats := v.repeats + 1 } else v) }) s
  | none =>
    if 1024 ≤ s.bb.watch.length then
      raise 336 [] (onBb (fun x => { x with watch := dropWatch x.watch ++ [{ line := line, repeats := 0 }] }) s)
    else onBb (fun x => { x with watch := x.watch ++ [{ line := line, repeats := 0 }] }) s

/-- The queue and position of a physical line held in a middle (R351). -/
def linePosition (s : State) (line : Nat) : Option (Nat × Nat) :=
  (List.range 16).findSome? (fun q =>
    let x := queueAt s q
    (x.chunks.zipIdx).findSome? (fun c => match c.1.findIdx? (· == line / 128) with
      | some j => some (q, x.refill + 65536 * c.2 + 4096 * j + 32 * (line % 128))
      | none => none))

/-- The next valid page at or above a page. -/
def nextValid (s : State) (p : Nat) : Option Nat :=
  ((s.bb.valid.filter (fun e => decide (p ≤ e.1) && e.2)).head?).map (·.1)

/-- The pages a range scrub covers: first and past the last (R389). -/
def scrubRange (s : State) (par : List Byte) : Nat × Nat :=
  let r := byteAt par 0
  let a := u32At par 4
  let n := u32At par 8
  let lo := if r < 16 then regionStart s r else 0
  let size := if r < 16 then regionPages s r else 2097152
  (lo + a, if n = 0 then lo + size else lo + a + n)

/-- The line a range job visits next, its valid pages in ascending order; none with its range done (R380, log 37). -/
def rangeLine (s : State) (j : Job) : Option Nat :=
  let r := scrubRange s j.params
  let next := max (128 * r.1) ((tget none s.bb.ranges j.num).getD {}).next
  match nextValid s (next / 128) with
  | some p => if p < r.2 then some (max next (128 * p)) else none
  | none => none

/-- Training ends: the layer is in use if every channel trained, else every queue runs SRAM_ONLY with EV_327 (R349). -/
def trained (mask : BitVec 16) (s : State) : State :=
  let good := decide (mask = 0xFFFF)
  let s := onBb (fun x => { x with training := if good then 1 else 2, layer := good, trainedMask := mask }) s
  if good then s else raise 327 [] s

/-- A queue-map entry is acceptable (R387, R388). -/
def mapEntryOk (e : Nat × Nat × Nat) : Bool := decide (e.1 < 2 ^ 22 ∧ e.2.1 < 16 ∧ e.2.2 ≤ 1)

/-- A queue-map entry from its 8 bytes (R387). -/
def mapEntry (v : List Byte) : Nat × Nat × Nat := (u32At v 0, byteAt v 4, byteAt v 5)

/-- The source-mask bit of a producer (R353, R388). -/
def sourceBit (source : Nat) : Nat :=
  if source < 0x14 then source else if source = 0x20 then 20 else if source < 0x25 then 21 else 22

/-- A queue-map change takes effect (R390): open frames of moved sources close. -/
def mapEffect (q : Nat) (e : Nat × Nat × Nat) (s : State) : State :=
  let s := forAll ((queueAt s q).opens.filter (fun o => !(decide (e.2.2 = 1) && bit e.1 (sourceBit o.source)))) (closeFrame q) s
  let s := onBb (fun x => { x with map := tput none q (if e = defaultMap q then none else some e) x.map }) s
  raise 326 [] (updateQueue q s)

/-- Region sizes from BB_REGIONS bytes. -/
def regionSizes (v : List Byte) : List Nat := (List.range 16).map (fun q => u16At v (2 * q))

/-- A resize takes effect (R372, R391): pages whose region changes lose their valid bit. -/
def resize (sizes : List Nat) (s : State) : State :=
  let old := s
  let s := onBb (fun x => { x with region := (List.range 16).foldl (fun t q => tput 32 q (sizes.getD q 32) t) [] }) s
  let s := onBb (fun x => { x with valid := x.valid.filter (fun p => decide (regionOf s p.1 = regionOf old p.1)) }) s
  let s := forAll (List.range 16) (fun q => modQueue q (fun x =>
    if regionStart s q = regionStart old q ∧ regionUnits s q = regionUnits old q then x else { x with ring := 0 })) s
  lossEvalAll (raise 326 [] s)

end Sys2Proof.Machine
end

