-- ==== Sys2Proof/Machine/Buffer.lean ====
section
/-! DEFINITION. The queue and memory-layer commands (chapter 08). -/
namespace Sys2Proof.Machine

/-- A frame's oldest record has waited the packet-close time (R21, R354). -/
def execFrameCloseTimeout (q : Fin 16) (source kind : Nat) (s : State) : Out :=
  match openFrame s q source kind with
  | none => .next s
  | some o => event (decide ((queueAt s q).state ≠ 3 ∧ (queueAt s q).state ≠ 4)) (fun s => closeFrame q o (reachUp o.closes s)) s

/-- Positions pass from the tail to the head (R351). -/
def execDrain (q : Fin 16) (s : State) : Out := event (canDrain s q) (drainQueue q) s

/-- A complete tail chunk is written to the region (R351). -/
def execSpill (q : Fin 16) (s : State) : Out := event (canSpill s q) (spillChunk q) s

/-- A refill of the oldest chunk (R351, R384). -/
def refillChunk (q : Nat) (s : State) : State :=
  match (queueAt s q).chunks with
  | [] => s
  | ps :: rest => lossEval q (takeChunk q ps rest s)

/-- A refill: the middle is not empty and 64 KiB of the head are free (R351); a word of the chunk that the read
finds upset is corrected or poisoned (R373, R379). -/
def execRefill (q : Fin 16) (ups : List WordUpset) (s : State) : Out :=
  event (s.bb.layer && decide ((queueAt s q).chunks ≠ [] ∧ (queueAt s q).refill + 65536 ≤ (queueAt s q).r + 262144))
    (fun s => refillChunk q (upsetWords q (queueAt s q).refill (ups.filter (fun u => decide (u.word < 2048))) s)) s

/-- The order R <= refill <= spill <= W and the capacity hold (R362). -/
def pointersOk (s : State) (q : Nat) : Bool :=
  let x := queueAt s q
  decide (x.r ≤ x.refill ∧ x.refill ≤ x.spill ∧ x.spill ≤ x.w ∧ x.w - x.r ≤ capacity s q)

/-- The pointer at fault: one whose copies differ, or one out of order (R362). -/
def faultPointer (s : State) (q : Nat) : Option Nat :=
  let x := queueAt s q
  match (List.range 4).find? (fun k => decide (tget 0 x.copy k ≠ 0)) with
  | some k => some k
  | none =>
    if pointersOk s q then none
    else some (if x.refill < x.r then 1 else if x.spill < x.refill then 3 else if x.w < x.spill then 2 else 0)

/-- The pointer copies are compared, one of them perhaps upset: a mismatch or a broken order is a pointer fault (R362). -/
def execPointerCheck (q : Fin 16) (upset : Option PointerUpset) (s : State) : Out :=
  event (decide ((queueAt s q).state ≠ 3)) (fun s =>
    let s := match upset with
      | some u => modQueue q (fun x => { x with copy := tmod 0 (u.which % 4) (fun b => b ^^^ u.bits % 2 ^ 48) x.copy }) s
      | none => s
    match faultPointer s q with
    | some k => startReset q (raise 321 (b1 q ++ b1 k) s)
    | none => s) s

/-- The range scrubs of some regions end aborted (R380, R699). -/
def abortScrubs (hit : Nat → Bool) (s : State) : State :=
  let js := s.sys.jobs.filter (fun j => decide (j.code = 0x070C) && (decide (16 ≤ byteAt j.params 0) || hit (byteAt j.params 0)))
  forAll js (fun j s => endJob j.num 3 stState 0x11 (onBb (fun x => { x with
    ranges := tmod none j.num (fun r => some { (r.getD {}) with result := 1 }) x.ranges }) s)) s

/-- The reset sequence ends; a range scrub of the region ends with it (R364, R365, R380). -/
def execQueueResetComplete (q : Fin 16) (s : State) : Out :=
  event (decide ((queueAt s q).state = 3)) (fun s => abortScrubs (fun k => decide (k = q.val)) (finishReset q s)) s

/-- The line the patrol visits next: in ascending order over the valid pages, then from the start (R376). -/
def patrolLine (s : State) : Option Nat :=
  match nextValid s (s.bb.patrolNext / 128) with
  | some p => some (max s.bb.patrolNext (128 * p))
  | none => (nextValid s 0).map (128 * ·)

/-- A patrol pass begins. -/
def beginPass (s : State) : State :=
  onBb (fun x => { x with patrol := { start := s.tc.now }, patrolUp := s.up, patrolNext := 0 }) s

/-- A patrol pass ends (R381): EV_337, and its summary is kept. -/
def endPass (s : State) : State :=
  let sum : ScrubSum := { s.bb.patrol with duration := (s.up - s.bb.patrolUp) / ms 1, skipped := 2097152 - s.bb.patrol.pages }
  beginPass (raise 337 [] (onBb (fun x => { x with lastPatrol := some sum, passes := satAdd stat32 x.passes 1 }) s))

/-- What a scrub visit adds to a summary: result of R371, region and offset. -/
def sumVisit (line result : Nat) (at_ : Option (Nat × Nat)) (x : ScrubSum) : ScrubSum :=
  let x := { x with pages := x.pages + bitNat (decide (line % 128 = 0)) }
  match result with
  | 1 => { x with corrected := x.corrected + 1 }
  | 2 => { x with poisonedNew := x.poisonedNew + 1, address := x.address + 1, first := x.first.or at_ }
  | 3 => { x with poisonedFound := x.poisonedFound + 1 }
  | 4 => { x with poisonedNew := x.poisonedNew + 1, first := x.first.or at_ }
  | _ => x

/-- The running range job whose next line this is. -/
def rangeJob (s : State) (line : Nat) : Option Job :=
  (runningJobs s).find? (fun j => decide (j.code = 0x070C ∧ rangeLine s j = some line))

/-- What a scrub visit does to the line (R377, R382). -/
def scrubLine (line result : Nat) (pos : Option (Nat × Nat)) (e : LineErr) (s : State) : State :=
  let put (e : LineErr) (s : State) : State := match pos with
    | some (q, p) => modQueue q (fun x => { x with errs := tput {} (p / 32) e x.errs }) s
    | none => onBb (fun x => { x with loose := tput none line (some e) x.loose }) s
  match result with
  | 0 => onBb (fun x => { x with watch := x.watch.filter (fun w => decide (w.line ≠ line)) }) (put {} s)
  | 1 => watchCorrected line (raise 330 [] (put {} s))
  | 3 => put e s
  | _ =>
    let q := match pos with
      | some (q, _) => q
      | none => ((regionOf s (line / 128)).getD 0xFF)
    raise 331 (lineArg s line ++ b1 q) (put (poisonErr e) s)

/-- The stored word of a line of a valid page, as it differs from a clean one; one that was never written, in a page an
error of the bitmap made valid, reads with check errors of no stated kind (R372, log 37). -/
def storedLine (pos : Option (Nat × Nat)) (line : Nat) (s : State) : LineErr × State :=
  match pos with
  | some (q, p) => (tget {} (queueAt s q).errs (p / 32), s)
  | none => match tget none s.bb.loose line with
    | some e => (e, s)
    | none =>
      let (n, s) := drawNat s
      ({ check := BitVec.ofNat 16 (1 + n % 65535) }, s)

/-- A scrub visit counted: in the sum of its range job, which goes on with the next line, or in the patrol's. -/
def countVisit (line : Nat) (job : Option Job) (sum : ScrubSum → ScrubSum) (s : State) : State :=
  match job with
  | some j => onBb (fun x => { x with ranges := tmod none j.num (fun r => some { sum (r.getD {}) with next := line + 1 }) x.ranges }) s
  | none => onBb (fun x => { x with patrol := sum x.patrol, patrolNext := line + 1 }) s

/-- What the visit's read gives: the stored errors, with those of an upset since. -/
def visitErr (upset : Option LineUpset) (old : LineErr) : LineErr :=
  match upset with
  | some u => upsetErr old u.data u.check u.addr
  | none => old

/-- Where a line of the layer lies: its region and the offset in it. -/
def lineOffset (s : State) (line : Nat) : Option (Nat × Nat) :=
  (regionOf s (line / 128)).map (fun r => (r, 32 * line - 4096 * regionStart s r))

/-- What a visit adds to a summary, with the pages remapped and retired from a state to the next. -/
def visitSum (line result : Nat) (s t : State) (x : ScrubSum) : ScrubSum :=
  { sumVisit line result (lineOffset s line) x with
    remapped := x.remapped + (t.bb.remap.length - s.bb.remap.length)
    retired := x.retired + (t.bb.retired.length - s.bb.retired.length) }

/-- A visit of the scrubber to a line with what it finds there (R376 to R382). -/
def scrubVisit (line : Nat) (upset : Option LineUpset) (s : State) : State :=
  let r := storedLine (linePosition s line) line s
  let e := visitErr upset r.1
  let result := checkResult (syndrome e)
  let t := scrubLine line result (linePosition s line) e r.2
  countVisit line (rangeJob s line) (visitSum line result r.2 t) t

/-- The moment of the next patrol visit: 32 bytes at the patrol rate of 1 MB per us and unit (R376). -/
def patrolDue (s : State) : Nat := s.bb.patrolAt + 1280 / cfg16 s 0x0703 0

/-- The scrubber visits a line of a valid page: the next of a range job, or the next of the patrol at its rate (R376,
R380). -/
def execScrubLineVisit (line : Nat) (upset : Option LineUpset) (s : State) : Out :=
  let range := (rangeJob s line).isSome
  event (s.bb.layer && !s.bb.selfRefresh && awake s && tget false s.bb.valid (line / 128)
      && (range || (decide (cfg16 s 0x0703 0 ≠ 0 ∧ patrolLine s = some line) && !lowDeferred s))) (fun s =>
    let s := if range then s else
      let s := reachUp (patrolDue s) s
      onBb (fun x => { x with patrolAt := s.up }) s
    let s := if range || s.bb.patrol.start ≠ 0 then s else beginPass s
    let s := if !range && decide (line < s.bb.patrolNext) then endPass s else s
    let s := scrubVisit line upset s
    if !range && (nextValid s ((s.bb.patrolNext) / 128)).isNone then endPass s else s) s

/-- The valid bits of the 256 pages from a first are set. -/
def setValid (first : Nat) (t : Table Bool) : Table Bool :=
  (List.range 256).foldl (fun t k => tput false (first + k) true t) t

/-- The ring word of an SRAM upset holds bytes of the queue, or a refilled copy of them. -/
def sramHeld (x : BurstQueue) (u : SramUpset) : Bool :=
  decide (u.memory = 0) && decide (x.r ≤ 32 * u.word ∧ 32 * u.word < x.w ∧ (32 * u.word < x.refill ∨ x.spill ≤ 32 * u.word))

/-- The bits in error of a ring word of the queue. -/
def putSramErr (held : Bool) (q word : Nat) (e : LineErr) (s : State) : State :=
  when held (modQueue q (fun x => { x with errs := tput {} word e x.errs })) s

/-- An uncorrectable word of an SRAM: EV_339, the word poisoned; the pages of a word of the valid bitmap count as valid, with EV_341. -/
def sramLost (held : Bool) (q : Nat) (u : SramUpset) (e : LineErr) (s : State) : State :=
  let s := raise 339 [] (putSramErr held q u.word (poisonErr e) s)
  when (decide (u.memory = 1)) (fun s =>
    raise 341 [] (onBb (fun x => { x with valid := setValid (256 * (u.word % 8192)) x.valid }) s)) s

/-- One word found by the SRAM scrub (R372, R376, R392). -/
def sramWord (u : SramUpset) (s : State) : State :=
  let q := u.q % 16
  let x := queueAt s q
  let held := sramHeld x u
  let e := upsetErr (if held then tget {} x.errs u.word else {}) u.data u.check 0
  match checkResult (syndrome e) with
  | 0 => putSramErr held q u.word {} s
  | 1 => raise 338 [] (putSramErr held q u.word {} s)
  | 3 => putSramErr held q u.word e s
  | _ => sramLost held q u e s

/-- The head and tail SRAMs, the valid bitmap and the chunk index are scrubbed, once every SRAM period (R376). -/
def execSramScrub (found : List SramUpset) (s : State) : Out :=
  event (awake s) (fun s =>
    let s := reachUp (s.bb.sramAt + ms (1000 * cfg8 s 0x0703 2)) s
    forAll found sramWord (onBb (fun x => { x with sramAt := s.up }) s)) s

/-- EASY: the memory layer returns to self-refresh after 1 ms without a spill or refill (R513). -/
def execMemLayerIdleSelfRefresh (s : State) : Out :=
  event (decide (s.sys.power = .easy) && s.bb.layer && !s.bb.selfRefresh)
    (fun s => onBb (fun x => { x with selfRefresh := true }) (reachUp (s.bb.movedAt + ms 1) s)) s

/-- QSTAT (R357). -/
def qstat (s : State) (q : Nat) : Nat :=
  let x := queueAt s q
  let set := decide (s.bb.training ≠ 0)
  word [(24, min 255 (fillPct s q)), (16, x.state), (8, bitNat (x.errs.any (fun e => isPoison e.2))), (7, bitNat x.hostHold), (6, bitNat (set && sramOnly s q)),
    (5, bitNat (decide (capacity s q - 4096 ≤ fill x))), (4, bitNat (lossQAt s q).active), (3, bitNat (!x.chunks.isEmpty)),
    (2, bitNat (!x.opens.isEmpty)), (1, bitNat x.frames.isEmpty), (0, bitNat (set && queueEnabled s q))]

/-- BB_STATUS, 0x0700 (R357, R389). -/
def execBbStatus (mb : Fin 8) (s : State) : Out :=
  call mb 0x0700 epdPri 1 (fun p => need (decide (p8 p 0 < 16)) (fun s =>
    let x := queueAt s (p8 p 0)
    okBytes (b4 (qstat s (p8 p 0)) ++ b4 (fill x / 1024) ++ b4 (capacity s (p8 p 0) / 1024) ++ b2 x.chunks.length ++ [0, 0] ++
      stampBytes ((x.frames.head?.map (·.base)).getD 0)) s)) s

/-- The map change of BB_QUEUE_MAP_SET is allowed (R388, R390). -/
def mapChangeOk (s : State) (q : Nat) (e : Nat × Nat × Nat) : Bool :=
  let other (k : Nat) : Nat := match s.bb.mapPending.find? (fun m => decide (m.1 = k)) with
    | some m => m.2.1.1
    | none => (mapOf s k).1
  mapEntryOk e
    && (List.range 16).all (fun k => decide (k = q) || decide (other k &&& e.1 = 0))
    && !(decide ((lossConf s q).1 = 2) && decide (e.1 % 65536 = 0))
    && !(decide (e.2.2 = 0) && queueEnabled s q && decide ((queueAt s q).frames ≠ [] ∨ (queueAt s q).opens ≠ []))

/-- BB_QUEUE_MAP_SET, 0x0701 (R390). -/
def execBbQueueMapSet (mb : Fin 8) (s : State) : Out :=
  call mb 0x0701 epd 12 (fun p s =>
    let q := p8 p 0
    let e := mapEntry (bytesAt p 4 8)
    need (decide (q < 16) && mapChangeOk s q e) (fun s =>
      let t := s.tc.now + 400
      okBytes (stampBytes t) (onBb (fun x => { x with
        mapPending := x.mapPending.filter (fun m => decide (m.1 ≠ q)) ++ [(q, e, t)] }) s)) s) s

/-- BB_QUEUE_MAP_GET, 0x0702 (R389). -/
def execBbQueueMapGet (mb : Fin 8) (s : State) : Out :=
  call mb 0x0702 epd 0 (fun _ s => okBytes ((List.range 16).flatMap (fun q => mapBytes (mapOf s q))) s) s

/-- BB_REGIONS bytes are acceptable (R347, R387). -/
def regionsOk (v : List Byte) : Bool := decide (total (regionSizes v) ≤ 512)

/-- A resize moves or resizes only regions with an empty middle (R391). -/
def resizeFree (s : State) (sizes : List Nat) : Bool :=
  let t := onBb (fun x => { x with region := (List.range 16).foldl (fun t q => tput 32 q (sizes.getD q 32) t) [] }) s
  (List.range 16).all (fun q => decide (regionStart t q = regionStart s q ∧ regionUnits t q = regionUnits s q)
    || decide ((queueAt s q).chunks = []))

/-- No region would keep more remapped lines than its budget (R385). -/
def resizeSpares (s : State) (sizes : List Nat) : Bool :=
  let t := onBb (fun x => { x with region := (List.range 16).foldl (fun t q => tput 32 q (sizes.getD q 32) t) [] }) s
  (List.range 16).all (fun q => decide (remappedIn t q ≤ spareBudget t q))

/-- BB_REGION_SET, 0x0703 (R385, R391). -/
def execBbRegionSet (mb : Fin 8) (s : State) : Out :=
  call mb 0x0703 epd 32 (fun p => need (regionsOk p) (fun s =>
    let sizes := regionSizes p
    needState (resizeFree s sizes) (need (resizeSpares s sizes) (fun s =>
      let t := resize sizes s
      ok (abortScrubs (fun q => decide (regionStart t q ≠ regionStart s q ∨ regionUnits t q ≠ regionUnits s q)) t))) s)) s

/-- BB_REGION_GET, 0x0704 (R389). -/
def execBbRegionGet (mb : Fin 8) (s : State) : Out :=
  call mb 0x0704 epd 0 (fun _ s => okBytes ((List.range 16).flatMap (fun q =>
    b2 (regionUnits s q) ++ b2 (spareBudget s q) ++ b2 (remappedIn s q) ++ b2 (retiredIn s q))) s) s

/-- BB_HOLD_OUTPUT, 0x0705 (R356, R389): the release mask acts after the hold mask (log 37). -/
def execBbHoldOutput (mb : Fin 8) (s : State) : Out :=
  call mb 0x0705 epdPri 4 (fun p s =>
    let s := forAll (List.range 16) (fun q => modQueue q (fun x => { x with
      hostHold := (x.hostHold || bit (p16 p 0) q) && !bit (p16 p 2) q })) s
    okBytes (b2 (maskOf 16 (fun q => (queueAt s q).hostHold))) (updateQueues s)) s

/-- The bytes a flush of a queue discards (R704). -/
def flushCount (s : State) (q : Nat) : Nat :=
  let x := queueAt s q
  match x.frames.getLast? with
  | some z => z.pos + frameSize z.payload.length - x.r - 64
  | none => 0

/-- One queue is flushed (R704). -/
def flushQueue (q : Nat) (s : State) : State :=
  let x := queueAt s q
  match x.frames.head?, x.frames.getLast? with
  | some a, some z => lossEval q (replaceFrames q x.frames.length [] (fun c =>
      { cause := 7, unit := 3, source := 1, count := c, first := a.base, last := z.base + BitVec.ofNat 64 z.lastOff }) s)
  | _, _ => s

/-- BB_FLUSH, 0x0706 (R704). -/
def execBbFlush (mb : Fin 8) (s : State) : Out :=
  call mb 0x0706 epd 2 (fun p s =>
    let qs := (maskList 16 (p16 p 0)).filter (fun q => decide ((queueAt s q).state ≠ 3))
    okBytes (b4 (min stat32 (total (qs.map (flushCount s))))) (forAll qs flushQueue s)) s

/-- BB_RESET, 0x0707 (R364, R365). -/
def execBbReset (mb : Fin 8) (s : State) : Out :=
  call mb 0x0707 epd 1 (fun p => need (decide (p8 p 0 < 16)) (fun s =>
    ok (abortScrubs (fun q => decide (q = p8 p 0)) (startReset (p8 p 0) s)))) s

/-- A frame descriptor (R353). -/
def descriptor (f : BqFrame) : List Byte :=
  b2 f.payload.length ++ b1 f.kind ++ [f.flags] ++ stampBytes f.base ++ b4 f.lastOff ++ b2 f.records ++ b1 f.source ++ List.replicate 13 0

/-- BB_PEEK, 0x0708 (R358, R389). -/
def execBbPeek (mb : Fin 8) (s : State) : Out :=
  call mb 0x0708 epd 4 (fun p => need (decide (p8 p 0 < 16)) (fun s =>
    okBytes (match (queueAt s (p8 p 0)).frames with
      | f :: _ => [0, 0, 0, 0] ++ descriptor f ++ bytesAt (deliver f (frameErrs (queueAt s (p8 p 0)) f)) (p16 p 2) 192
      | [] => [1, 0, 0, 0]) s)) s

/-- BB_STATS, 0x0709 (R389). -/
def execBbStats (mb : Fin 8) (s : State) : Out :=
  call mb 0x0709 epd 2 (fun p => need (decide (p8 p 0 < 16)) (fun s =>
    okBytes (statBytes 12 (queueAt s (p8 p 0)).stats (queueAt s (p8 p 0)).statSat)
      (when (decide (p8 p 1 = 1)) (modQueue (p8 p 0) (fun x => { x with stats := [], statSat := 0 })) s))) s

/-- MEM_STATUS, 0x070A (R389). -/
def execMemStatus (mb : Fin 8) (s : State) : Out :=
  call mb 0x070A epdPri 0 (fun _ s => okBytes
    (b1 s.bb.training ++ b1 (if cfg16 s 0x0703 0 = 0 then 0 else if lowDeferred s then 2 else 1) ++ b2 s.bb.trainedMask.toNat ++
      b4 (s.bb.valid.filter (·.2)).length ++ b2 s.bb.remap.length ++ b2 s.bb.retired.length ++ b2 (4096 - s.bb.remap.length) ++
      b2 s.bb.watch.length ++ b4 s.bb.passes) s) s

/-- MEM_PATROL is acceptable (R376, R387). -/
def patrolOk (v : List Byte) : Bool := decide (u16At v 0 ≤ 4096 ∧ 1 ≤ byteAt v 2 ∧ byteAt v 2 ≤ 60)

/-- MEM_SCRUB_CONFIG, 0x070B (R376). -/
def execMemScrubConfig (mb : Fin 8) (s : State) : Out :=
  call mb 0x070B epd 3 (fun p => need (patrolOk p) (fun s => ok (setCfg 0x0703 (p.take 3) s))) s

/-- A range scrub begins: its summary (R380, R381). -/
def scrubBegin (n : Nat) (s : State) : State :=
  onBb (fun x => { x with ranges := tput none n (some { job := n, kind := 1, start := s.tc.now }) x.ranges }) s

/-- MEM_SCRUB_RANGE, 0x070C (R380, R389). -/
def execMemScrubRange (mb : Fin 8) (s : State) : Out :=
  call mb 0x070C epd 12 (fun p s =>
    let r := p8 p 0
    let size := if r < 16 then regionPages s r else 2097152
    need (decide ((r < 16 ∨ r = 0xFF) ∧ p32 p 4 < size ∧ p32 p 4 + p32 p 8 ≤ size))
      (lowJob 0x070C (p.take 12) scrubBegin) s) s

/-- A summary as its 64 bytes (R381). -/
def summaryBytes (x : ScrubSum) : List Byte :=
  b2 x.job ++ b1 x.kind ++ b1 x.result ++ stampBytes x.start ++ b4 x.duration ++ b4 x.pages ++ b4 x.skipped ++ b4 x.corrected ++
    b4 x.poisonedNew ++ b4 x.poisonedFound ++ b4 x.address ++ b2 x.remapped ++ b2 x.retired ++
    b1 ((x.first.map (·.1)).getD 0xFF) ++ [0, 0, 0] ++ b8 ((x.first.map (·.2)).getD 0xFFFFFFFFFFFFFFFF) ++ List.replicate 8 0

/-- MEM_SCRUB_SUMMARY, 0x070D (R381); STATE before the first patrol pass has ended (log 37). -/
def execMemScrubSummary (mb : Fin 8) (s : State) : Out :=
  call mb 0x070D epd 2 (fun p s =>
    if p16 p 0 = 0xFFFF then match s.bb.lastPatrol with
      | some x => okBytes (summaryBytes x) s
      | none => refuse stState s
    else match tget none s.bb.ranges (p16 p 0) with
      | some x => okBytes (summaryBytes x) s
      | none => refuse stBadParam s) s

/-- The MEM_DEFECTS entries of the remapped lines and retired pages (R385, R387). -/
def defects (s : State) : List Nat := s.bb.remap.map (·.1) ++ s.bb.retired.map (fun p => 2 ^ 31 + p)

/-- MEM_DEFECT_READ, 0x070E (R385). -/
def execMemDefectRead (mb : Fin 8) (s : State) : Out :=
  call mb 0x070E epd 2 (fun p s =>
    okBytes (b2 (defects s).length ++ (((defects s).drop (p16 p 0)).take 58).flatMap b4) s) s

/-- A checker word is stored: data, and what its check bits differ by from the clean ones (R386). -/
def checkerPut (target index : Nat) (v : BitVec 256 × BitVec 16) (s : State) : State :=
  onBb (fun x => if target = 0 then { x with testPage := tput (0, 0) index v x.testPage }
    else { x with headWords := tput (0, 0) (8192 * (target - 1) + index) v x.headWords }) s

/-- A checker word (R386). -/
def checkerGet (s : State) (target index : Nat) : BitVec 256 × BitVec 16 :=
  if target = 0 then tget (0, 0) s.bb.testPage index else tget (0, 0) s.bb.headWords (8192 * (target - 1) + index)

/-- Target and index of a checker call are in range (R386). -/
def checkerOk (target index : Nat) : Bool := decide (target ≤ 16 ∧ index < (if target = 0 then 128 else 8192))

/-- MEM_CHECKER_WRITE, 0x070F (R386). -/
def execMemCheckerWrite (mb : Fin 8) (s : State) : Out :=
  call mb 0x070F epd 40 (fun p s =>
    let target := p8 p 0
    let data := leNat (bytesAt p 8 32)
    let clean := cleanCheck data (p16 p 2)
    need (checkerOk target (p16 p 2) && decide (p8 p 1 ≤ 1))
      (needState (decide (target = 0 ∨ (queueAt s (target - 1)).state = 0)) (fun s =>
        ok (checkerPut target (p16 p 2) (BitVec.ofNat 256 data,
          BitVec.ofNat 16 (if p8 p 1 = 0 then p16 p 4 ^^^ clean else p16 p 4)) s))) s) s

/-- The data a read delivers: one data bit restored where the result is CORRECTED (R371). -/
def delivered (data syn : Nat) : Nat :=
  match (weight3.take 256).findIdx? (· == syn) with
  | some i => data ^^^ 2 ^ i
  | none => data

/-- MEM_CHECKER_READ, 0x0710 (R371, R386). -/
def execMemCheckerRead (mb : Fin 8) (s : State) : Out :=
  call mb 0x0710 epd 4 (fun p => need (checkerOk (p8 p 0) (p16 p 2) && decide (p8 p 1 ≤ 1)) (fun s =>
    let v := checkerGet s (p8 p 0) (p16 p 2)
    let data := v.1.toNat
    let syn := v.2.toNat
    let r := checkResult syn
    let s := raiseIf (decide (p8 p 1 = 1 ∧ r = 1)) 328 [] (raiseIf (decide (p8 p 1 = 1 ∧ (r = 2 ∨ r = 4))) 329 [] s)
    okBytes (leBytes 32 data ++ b2 (cleanCheck data (p16 p 2) ^^^ syn) ++ b2 syn ++ b1 r ++ [0, 0, 0] ++
      leBytes 32 (if r = 1 then delivered data syn else data)) s)) s

/-- MEM_TRAIN, 0x0711: a LOW job (R349, R391, R525). -/
def execMemTrain (mb : Fin 8) (s : State) : Out :=
  call mb 0x0711 epd 0 (fun _ => fun s => needState ((List.range 16).all (fun q => decide ((queueAt s q).chunks = [])))
    (lowJob 0x0711 [] (fun _ s => s)) s) s

end Sys2Proof.Machine
end

