-- ==== Sys2Proof/Machine/TmOps.lean ====
section
/-! DEFINITION. The timing and charge arithmetic of a hit, the calibration tables and their upkeep (chapter 04, R132,
R198 to R200). -/
namespace Sys2Proof.Machine

/-- Super-pixel of a pixel (R95). -/
def spOf (row col : Nat) : Nat := 256 * (row / 4) + col / 4

/-- Block of a pixel (R95). -/
def blockOf (row col : Nat) : Nat := 16 * (row / 64) + col / 64

/-- Block of a pixel address (R95). -/
def pixBlock (pix : Nat) : Nat := blockOf (pix / 1024) (pix % 1024)

/-- Super-pixel of a pixel address (R95). -/
def pixSp (pix : Nat) : Nat := spOf (pix / 1024) (pix % 1024)

/-- The row of a super-pixel within its block, 0 to 15 (R95, R171). -/
def spRow (sp : Nat) : Nat := sp / 256 % 16

/-- Pattern number of a pixel address: its position in its super-pixel (R95). -/
def patternOf (pix : Nat) : Nat := 4 * (pix / 1024 % 4) + pix % 4

/-- Patch of a pixel address (R95). -/
def patchOf (pix : Nat) : Nat := 8 * (pix / 1024 / 128) + pix % 1024 / 128

/-- Block of a super-pixel (R95). -/
def spBlock (sp : Nat) : Nat := 16 * (sp / 256 / 16) + sp % 256 / 16

/-- The super-pixels of a block, in block order (R188). -/
def blockSps (k : Nat) : List Nat :=
  (List.range 256).map (fun i => 256 * (16 * (k / 16) + i / 16) + 16 * (k % 16) + i % 16)

/-- PER[s][b] in 1/128 ps, zero where missing (R174). -/
def perOf (s : State) (sp b : Nat) : Nat := tget 0 s.tm.per (4 * sp + b)

/-- The droop reading of a block in mV (R163). -/
def droopMv (s : State) (k : Nat) : Nat := 650 + tget 150 s.tm.dm k

/-- Band of a block (R164). -/
def bandOf (s : State) (k : Nat) : Nat := tget 0 s.tm.band k

/-- A threshold of TM_BANDS in mV. -/
def bandThr (s : State) (i : Nat) : Nat := cfg16 s 0x0301 (2 * i)

/-- The band a reading gives with each threshold raised by `up` mV (R164). -/
def rawBand (s : State) (mv up : Nat) : Nat :=
  ((List.range 3).filter (fun i => decide (mv < bandThr s i + up))).length

/-- The band that follows a reading: higher at once, lower only with the hysteresis (R164). -/
def nextBand (s : State) (cur mv : Nat) : Nat :=
  if cur < rawBand s mv 0 then rawBand s mv 0 else min cur (rawBand s mv (cfg8 s 0x0301 6))

/-- Band and DM of a block now. -/
def bandDm (s : State) (k : Nat) : Nat × Nat := (bandOf s k, tget 150 s.tm.dm k)

/-- A pulse of a block keeps the band and DM that held on its stop edge, where that edge has passed (R163, R165). -/
def sealPulse (s : State) (k : Nat) (e : Nat × Option Pulse) : Nat × Option Pulse :=
  match e.2 with
  | none => e
  | some p => if pixBlock e.1 = k ∧ p.seen.isNone ∧ 0 < stampDiff s.tc.now p.stop then (e.1, some { p with seen := some (bandDm s k) }) else e

/-- So does a HIT frame of a port. -/
def sealFrame (s : State) (k : Nat) (f : PortFrame) : PortFrame :=
  match f with
  | .hit h => if h.seen.isNone ∧ 0 < stampDiff s.tc.now h.stop then .hit { h with seen := some (bandDm s k) } else f
  | .control _ _ _ _ _ => f

/-- Before the reading or the band of a block changes, what held on past stop edges is kept (R163, R165). -/
def sealStops (k : Nat) (s : State) : State :=
  modBlock k (fun x => { x with port := x.port.map (sealFrame s k) })
    (onFe (fun x => { x with pulse := x.pulse.map (sealPulse s k) }) s)

/-- A block's band follows its reading; its calibration runs in progress note a change (R164, R169). -/
def bandUpdate (k : Nat) (s : State) : State :=
  let new := nextBand s (bandOf s k) (droopMv s k)
  if new = bandOf s k then s
  else onTm (fun x => { x with
    band := tput 0 k new x.band
    running := tmod [] k (fun l => l.map (fun r => { r with left := true })) x.running }) (sealStops k s)

/-- Every block's band follows its reading, where thresholds have changed (R164). -/
def bandsFollow (s : State) : State := forAll (List.range 256) bandUpdate s

/-- The droop reading of four samples: V - 650 mV, V their mean with halves rounded up, held in 8 bits (R163). -/
def droopCode (x : Nat × Nat × Nat × Nat) : Nat := min 255 ((x.1 + x.2.1 + x.2.2.1 + x.2.2.2 + 2) / 4 - 650)

/-- The last four samples of a block. -/
def samplesOf (s : State) (k : Nat) : Nat × Nat × Nat × Nat := tget (800, 800, 800, 800) s.tm.samples k

/-- A sample of a block's supply in mV on a strobe edge: the reading is the mean of the last four, the band follows, and a
reading below 720 mV raises EV_130 (R163 to R165). -/
def droopSample (k mv : Nat) (s : State) : State :=
  let old := samplesOf s k
  let new := (mv, old.1, old.2.1, old.2.2.1)
  let s := onTm (fun x => { x with samples := tput (800, 800, 800, 800) k new x.samples }) s
  let s := if droopCode new = tget 150 s.tm.dm k then s
    else onTm (fun x => { x with dm := tput 150 k (droopCode new) x.dm }) (sealStops k s)
  raiseIf (decide (droopCode new < 70)) 130 (b1 k) (bandUpdate k s)

/-- A TM_STATS count of a block increased (R187, R191). -/
def tmStat (k i : Nat) (s : State) : State :=
  let v := statAdd (tget 0 s.tm.stats (6 * k + i)) 1
  let sat := tget 0 s.tm.statSat k
  let new := decide (v = stat32) && !bit sat i
  let s := onTm (fun x => { x with
    stats := tput 0 (6 * k + i) v x.stats, statSat := tput 0 k (if new then sat + 2 ^ i else sat) x.statSat }) s
  satEvent 140 new s

/-- Valid super-pixels of a band of a block. -/
def validSps (s : State) (k b : Nat) : Nat := ((blockSps k).filter (fun sp => decide (perOf s sp b ≠ 0))).length

/-- Sum of the periods of a band of a block. -/
def perSum (s : State) (k b : Nat) : Nat := (blockSps k).foldl (fun a sp => a + perOf s sp b) 0

/-- The DM request mask bit of a band: set while a period is missing, cleared when every one is valid (R199). -/
def dmMaskUpdate (k b : Nat) (s : State) : State :=
  let m := tget 0 s.tm.dmMask k
  let bitB : BitVec 4 := BitVec.ofNat 4 (2 ^ b)
  onTm (fun x => { x with dmMask := tput 0 k (if validSps s k b = 256 then m &&& ~~~bitB else m ||| bitB) x.dmMask }) s

/-- K[k] in 0.001 ps/mV, as numerator and denominator: derived, else of the TM_CAL record, else TM_DROOP_SLOPE (R175). -/
def slopeOf (s : State) (k : Nat) : Int × Nat :=
  match tget none s.tm.k k with
  | some v => v
  | none => ((tget none s.tm.kLoaded k).getD (i16At (cfg s 0x0305) 0), 1)

/-- The better of two bands: more valid super-pixels, then the lower number. -/
def betterBand (a b : Nat × Nat) : Nat × Nat := if a.1 < b.1 then b else a

/-- K[k] derived from the two bands with the most valid super-pixels, exact; none where it is not possible (R175,
log 38). -/
def deriveK (s : State) (k : Nat) : Option (Int × Nat) :=
  let all := (List.range 4).map (fun b => (validSps s k b, b))
  let x := all.foldl betterBand (0, 0)
  let y := (all.filter (fun a => decide (a.2 ≠ x.2))).foldl betterBand (0, 0)
  let v (b : Nat) : Int := ((tget 0 s.tm.v (4 * k + b) : Nat) : Int)
  let dv := v x.2 - v y.2
  if x.1 < 128 ∨ y.1 < 128 ∨ dv = 0 then none
  else
    let num : Int := ((perSum s k y.2 * x.1 : Nat) : Int) - ((perSum s k x.2 * y.1 : Nat) : Int)
    let den : Int := 128 * ((x.1 * y.1 : Nat) : Int) * dv
    some (if 0 < den then (1000 * num, den.toNat) else (-1000 * num, (-den).toNat))

/-- K[k] derived anew (R175). -/
def updateK (k : Nat) (s : State) : State := onTm (fun x => { x with k := tput none k (deriveK s k) x.k }) s

/-- Units of time of the exact arithmetic in one picosecond: 2^14 times 10^11. -/
def psUnit : Nat := 2 ^ 14 * 10 ^ 11

/-- How a period is found: its exact value with the temperature correction, and whether it is extrapolated (R155, R174,
R176). -/
structure Period where
  /-- numerator of the period in 1/(128 x 10^11) ps -/
  p : Int
  /-- its denominator -/
  d : Nat
  /-- CALB_EXTRAP -/
  extrap : Bool

/-- The temperature factor of a block for a period taken from a band, times 10^8 (R155, R166). -/
def tempFactor (s : State) (k b : Nat) : Int :=
  10 ^ 8 + tget 0 s.tm.tc k * (tget 0 s.tm.temp k - tget 0 s.tm.tcal (4 * k + b))

/-- The nearest valid band of a super-pixel, the lower-numbered of two (R174). -/
def nearBand (s : State) (sp b : Nat) : Option Nat :=
  ((List.range 4).filter (fun x => decide (perOf s sp x ≠ 0))).foldl (fun (best : Option Nat) x => match best with
    | none => some x
    | some y => if ((x : Int) - b).natAbs < ((y : Int) - b).natAbs then some x else some y) none

/-- The period of a super-pixel in a band with a droop reading in mV (R155, R174, R176). -/
def period (s : State) (sp k b mv : Nat) : Period :=
  match nearBand s sp b with
  | none => { p := 50000 * 1000 * 10 ^ 8, d := 1, extrap := true }
  | some y =>
    if y = b then { p := ((perOf s sp b * 1000 : Nat) : Int) * tempFactor s k b, d := 1, extrap := false }
    else
      let dv : Int := ((tget 0 s.tm.v (4 * k + y) : Nat) : Int) - mv
      let m := slopeOf s k
      { p := (((perOf s sp y * 1000 * m.2 : Nat) : Int) + 128 * m.1 * dv) * tempFactor s k y, d := m.2, extrap := true }

/-- A number of ring phases as ToT units of 1,562.5 ps, rounded (R160). -/
def phaseUnits (n : Nat) (p : Period) : Nat := (divRound (n * p.p) (2 ^ 13 * 10 ^ 11 * 3125 * p.d)).toNat

/-- A number of ring periods as units of 1,562.5 ps, rounded (R198). -/
def periodUnits (n : Nat) (p : Period) : Nat := (divRound (n * p.p) (2 ^ 6 * 10 ^ 11 * 3125 * p.d)).toNat

/-- WLK[k][i] in 0.1 ps. -/
def wlkOf (s : State) (k i : Nat) : Nat := tget 0 s.tm.wlk (64 * k + i)

/-- WSW[k][i] in 0.1 ps. -/
def wswOf (s : State) (k i : Nat) : Nat := tget 0 s.tm.wsw (16 * k + i)

/-- Walk of a ToT in 1/160 ps (R180). -/
def walk160 (s : State) (k tot : Nat) : Int :=
  if 560 ≤ tot then 16 * wlkOf s k 63
  else
    let i := if tot < 64 then tot / 2 else 32 + (tot - 64) / 16
    let k0 := if tot < 64 then 2 * i else 64 + 16 * (i - 32)
    let per := if tot < 64 then 8 else 1
    let d : Int := ((wlkOf s k (i + 1) : Nat) : Int) - wlkOf s k i
    16 * wlkOf s k i + d * ((tot - k0 : Nat) : Int) * per

/-- WALK_TICKS of a block (R214). -/
def walkTicks (s : State) (k : Nat) : Nat :=
  let m := (tslice 0 s.tm.wlk (64 * k) 64 ++ tslice 0 s.tm.wsw (16 * k) 16).foldl max 0
  max 1 (divUp m 250000)

/-- One e- in the unit of charge. -/
def qUnit : Nat := 20480

/-- The charge table the engines use for a block: the one a calibration has stored from the tick after (R133). -/
def chargeNow (s : State) (k : Nat) : Option (List Nat) :=
  match (blockAt s k).chargeNew with
  | some (t, from_) => if reached s from_ then some t else (blockAt s k).charge
  | none => (blockAt s k).charge

/-- HG_b at a ToT in 1/20480 e- (R132, R133): the stored knots, or the line from the block threshold. -/
def hgAt (s : State) (k tot : Nat) : Int :=
  match chargeNow s k with
  | none => ((6 * (blockAt s k).conf.dacs.getD 0 0 * qUnit + 602112 * tot : Nat) : Int)
  | some t =>
    let i := min 30 (tot / 16)
    let a : Int := ((t.getD i 0 : Nat) : Int)
    let b : Int := ((t.getD (i + 1) 0 : Nat) : Int)
    a * qUnit + (b - a) * (((tot : Nat) : Int) - 16 * i) * (qUnit / 16)

/-- GR_b in 1/256 (R132, R133). -/
def grOf (s : State) (k : Nat) : Nat :=
  match chargeNow s k with
  | none => 0x1000
  | some t => t.getD 32 0

/-- Q_SW in 1/20480 e- (R103). -/
def qSwitch : Nat := 10800 * qUnit

/-- The rebuilt charge of a hit in 1/20480 e-, none below zero (chapter 03, Range switching; log 40). -/
def chargeOf (s : State) (k : Nat) (range ambig : Bool) (tot : Nat) : Nat :=
  if !range then (hgAt s k tot).toNat
  else if ambig then qSwitch
  else max qSwitch (grOf s k * (hgAt s k tot).toNat / 256)

/-- The full tick of a 16-bit tick: the one within the 65,536 ticks that end now (R152). -/
def extendTick (s : State) (lo : Nat) : Stamp :=
  s.tc.now - BitVec.ofNat 64 ((s.tc.now.toNat + 65536 - lo % 65536) % 65536)

/-- A hit needs a period: it is timed, or its ToT or SW_TIME came as ring phases. -/
def needsPeriod (f : HitFrame) : Bool := decide (f.n ≠ 0) || f.bridged

/-- The reading that a hit in a missing band is converted with: its own, the last one received within 65,536 ticks, or the
band's threshold (R174, R200). -/
def hitDroop (s : State) (k : Nat) (f : HitFrame) : Nat :=
  if f.dmValid then 650 + f.dm
  else match tget none s.hp.lastDm k with
    | some (v, t) =>
      if 0 ≤ stampDiff s.tc.now t ∧ stampDiff s.tc.now t ≤ 65536 then 650 + v else bandThr s (min f.band 2)
    | none => bandThr s (min f.band 2)

/-- A hit is converted with a substitute reading (R200). -/
def substituted (s : State) (sp : Nat) (f : HitFrame) : Bool :=
  needsPeriod f && !f.dmValid && decide (perOf s sp f.band = 0)

/-- The bridged ToT of a hit (R160, R162). -/
def bridgedTot (f : HitFrame) (p : Period) : Nat :=
  if f.nb ≥ 131071 then 0xFFF
  else if f.hand then min 0xFFF (phaseUnits f.nb p + f.c)
  else min 0xFFF (phaseUnits f.nb p)

/-- SW_TIME of a switched hit (R161, R198). -/
def switchTime (f : HitFrame) (p : Period) : Nat :=
  if !f.bridged then f.swTime
  else if f.swClk then min 255 (phaseUnits f.nb p + f.swTime)
  else min 255 (periodUnits f.nswp p)

/-- The ToT, or ToT_AFTER of a switched hit (R105, R160, R198). -/
def hitTot (f : HitFrame) (p : Period) : Nat :=
  if !f.bridged then f.tot
  else if !f.range then bridgedTot f p
  else if f.ambig then 0
  else if f.swClk then min 0xFFF f.c
  else if bridgedTot f p = 0xFFF then 0xFFF
  else bridgedTot f p - switchTime f p - 1

/-- The tick and fine code of a timed hit: R155, exact. -/
def hitTime (s : State) (sp k : Nat) (f : HitFrame) (p : Period) : Stamp × Nat :=
  let w : Int := if f.range then 16 * wswOf s k (min (switchTime f p) 15) else walk160 s k (hitTot f p)
  let c : Int := (tget 0 s.tm.skew sp - tget 0 s.tm.inl (128 * k + f.n % 128)) * (2 ^ 14 * 10 ^ 10) - w * (2 ^ 10 * 10 ^ 10)
  let t : Int := c * p.d - f.n * p.p
  let tickUnits : Int := 25000 * psUnit * p.d
  let off := t.fdiv tickUnits
  let fine := (divRound ((t - off * tickUnits) * 8192) (25000 * psUnit * p.d)).toNat
  let stop := (extendTick s f.tickLo).toNat
  let tick : Int := (stop : Int) + off + (if fine = 8192 then 1 else 0)
  (BitVec.ofInt 64 tick, if fine = 8192 then 0 else fine)

/-- A HIT frame of a block converted (R155, R198, R206). -/
def convert (s : State) (k : Nat) (f : HitFrame) : Hit :=
  let row := 64 * (k / 16) + f.prow
  let col := 64 * (k % 16) + f.pcol
  let sp := spOf row col
  let r := period s sp k f.band (hitDroop s k f)
  let tot := hitTot f r
  let untimed := decide (f.n = 0)
  let time := if untimed then (extendTick s f.tickLo - 1, 0) else hitTime s sp k f r
  { row := row, col := col, tick := time.1, fine := time.2, tot := tot, range := f.range, ambig := f.ambig && f.range
    sat := decide (tot = 0xFFF), extrap := untimed || r.extrap || f.droopLow, untimed := untimed
    q := chargeOf s k f.range f.ambig tot }

/-- A hit's N enters the INL bins; a bin that reaches 0xFFFF halves all (R185). -/
def countBin (k n : Nat) (s : State) : State :=
  let j := 128 * k + n % 128
  let v := tget 0 s.tm.bins j + 1
  onTm (fun x =>
    let t := tput 0 j v x.bins
    { x with bins := if 0xFFFF ≤ v then
        (List.range 128).foldl (fun t i => tput 0 (128 * k + i) (tget 0 t (128 * k + i) / 2) t) t else t }) s

/-- In-flight filling of missing bands is enabled (R177). -/
def inflightOn (s : State) : Bool := decide (cfg8 s 0x0302 0 = 1)

/-- The filling of a band of a block (R177, R193). -/
def fillingOf (s : State) (k b : Nat) : Option Filling :=
  (tget [] s.tm.filling k).find? (fun f => decide (f.band = b))

/-- A band of a block begins to fill, or a fill in progress is joined (R177, R193). -/
def beginFill (k b : Nat) (force : Bool) (jobs : List Nat) (s : State) : State :=
  match fillingOf s k b with
  | some _ => onTm (fun x => { x with filling := tmod [] k (fun l => l.map (fun f =>
      if f.band = b then { f with force := f.force || force, jobs := f.jobs ++ jobs } else f)) x.filling }) s
  | none => onTm (fun x => { x with filling := tmod [] k (fun l => l ++ [{
      band := b, force := force, oldSum := perSum s k b, oldN := validSps s k b
      oldT := tget 0 s.tm.tcal (4 * k + b), jobs := jobs }]) x.filling }) s

/-- M of TM_INFLIGHT (R169, R190). -/
def runsM (s : State) : Nat := cfg16 s 0x0302 1

/-- A super-pixel's calibration in a band. -/
def runOf (s : State) (sp b : Nat) : CalRun := (tget none s.tm.run (4 * sp + b)).getD {}

/-- A super-pixel needs no more runs for a filling. -/
def spDone (s : State) (f : Filling) (sp : Nat) : Bool :=
  decide (perOf s sp f.band ≠ 0) && (!f.force || decide (runsM s ≤ (runOf s sp f.band).m))

/-- The band's filling has covered every super-pixel. -/
def fillDone (s : State) (k : Nat) (f : Filling) : Bool := (blockSps k).all (spDone s f)

/-- TC[k] after a recalibration that changed the block temperature by 1 K or more (R168). -/
def updateTc (k : Nat) (f : Filling) (s : State) : State :=
  let dT := tget 0 s.tm.tcal (4 * k + f.band) - f.oldT
  if f.oldN = 0 ∨ f.oldSum = 0 ∨ dT.natAbs < 100 then s
  else
    let num : Int := ((perSum s k f.band * f.oldN : Nat) : Int) - ((f.oldSum * 256 : Nat) : Int)
    let den : Nat := f.oldSum * 256 * dT.natAbs
    let v := divRound (num * 100000000 * (if 0 < dT then 1 else -1)) den
    onTm (fun x => { x with tc := tput 0 k (clampInt 0 1500 v) x.tc }) s

/-- A job that calibration serves ends when no band waits for it (R193). -/
def fillJobEnds (num : Nat) (s : State) : State :=
  if (List.range 256).any (fun k => (tget [] s.tm.filling k).any (fun f => f.jobs.contains num)) then s
  else jobDone num s

/-- Every super-pixel of a band has been calibrated in its filling. -/
def allRecalibrated (s : State) (k b : Nat) : Bool := (blockSps k).all (fun sp => decide (runsM s ≤ (runOf s sp b).m))

/-- A band's filling is complete (R168, R175, R177, R199); a band whose every super-pixel it has calibrated is no longer
stale (R172). -/
def finishFill (k : Nat) (f : Filling) (s : State) : State :=
  let b := f.band
  let clear (m : BitVec 4) : BitVec 4 := m &&& ~~~(BitVec.ofNat 4 (2 ^ b))
  let fresh (m : BitVec 4) : BitVec 4 := if allRecalibrated s k b then clear m else m
  let s := updateTc k f s
  let s := onTm (fun x => { x with
    filling := tmod [] k (fun l => l.filter (fun g => decide (g.band ≠ b))) x.filling
    running := tmod [] k (fun l => l.filter (fun r => decide (r.band ≠ b))) x.running
    run := (blockSps k).foldl (fun t sp => tput none (4 * sp + b) none t) x.run
    stale := tmod 0 k fresh x.stale, aged := tmod 0 k fresh x.aged, missed := tmod 0 k clear x.missed }) s
  let s := updateK k (dmMaskUpdate k b s)
  let s := raiseIf (decide (f.oldN < 256)) 129 [] s
  forAll f.jobs fillJobEnds s

/-- The band's filling ends where it has covered every super-pixel. -/
def fillCheck (k b : Nat) (s : State) : State :=
  match fillingOf s k b with
  | none => s
  | some f => if fillDone s k f then finishFill k f s else s

/-- Stale bands may be recalibrated in flight now: PADDLE or DRIVE, and LOW work not deferred (R172, R178, R525). -/
def recalMayRun (s : State) : Bool := busyState s && !lowDeferred s

/-- A stale band of a block may begin its recalibration now (R172, R178). -/
def staleMayRun (s : State) (k b : Nat) : Bool := recalMayRun s && bit (tget 0 s.tm.stale k).toNat b

/-- A super-pixel is wanted for a run in its block's band: a filling still needs it, or the band is stale and may be
recalibrated now (R172, R173, R177, R178). -/
def runWanted (s : State) (sp : Nat) : Bool :=
  let k := spBlock sp
  let b := bandOf s k
  match fillingOf s k b with
  | some f => !spDone s f sp && (decide (perOf s sp b = 0) || decide (f.jobs ≠ []) || recalMayRun s)
  | none => staleMayRun s k b

/-- A super-pixel has been idle for 64 ticks: no discriminator of it high, no ring running, no rise since (R169). -/
def spIdle (s : State) (sp : Nat) : Bool :=
  (match tget none s.fe.spRise sp with
    | some t => decide (64 ≤ stampDiff s.tc.now t)
    | none => true)
    && s.fe.pulse.all (fun e => decide (pixSp e.1 ≠ sp) || match e.2 with
      | some p => !p.high
      | none => true)

/-- The calibration runs in progress in a block. -/
def runsOf (s : State) (k : Nat) : List CalNow := tget [] s.tm.running k

/-- A run starts on the next strobe edge for the first wanted idle super-pixel of a row of a block, where the row has none
in progress and fewer than TM_INFLIGHT allows run in the block (R169, R171, R190). -/
def startRun (k row : Nat) (s : State) : State :=
  let l := runsOf s k
  if l.any (fun r => decide (spRow r.sp = row)) ∨ min 16 (cfg8 s 0x0302 3) ≤ l.length then s
  else
    match ((List.range 16).map (fun i => 256 * (16 * (k / 16) + row) + 16 * (k % 16) + i)).find? (fun sp => runWanted s sp && spIdle s sp) with
    | none => s
    | some sp => onTm (fun x => { x with
        running := tmod [] k (fun l => l ++ [{ sp := sp, start := s.tc.now + 1, band := bandOf s k }]) x.running }) s

/-- Runs start in every row of a block that may take one (R171). -/
def startRuns (k : Nat) (s : State) : State :=
  if awake s ∧ s.tc.strobe then forAll (List.range 16) (startRun k) s else s

/-- The engine that serves a block row (R15, R221). -/
def engineOf (s : State) (row : Nat) : Nat := ((List.range 16).find? (fun n => bit (servedRows s n) row)).getD row

/-- A cluster engine wakes: by a hit, or for the calibration of a block of its rows (R173, R513). -/
def wakeEngine (n : Nat) (s : State) : State :=
  onPw (fun x => { x with enginesGated := x.enginesGated &&& ~~~(BitVec.ofNat 16 (2 ^ n)) }) s

/-- The first CALB_EXTRAP hit of a block in a band raises EV_128 and starts the filling of the band where a period is
missing (R177, R194). -/
def bandMissed (k b : Nat) (s : State) : State :=
  let m := tget 0 s.tm.missed k
  if inflightOn s && !bit m.toNat b then
    let s := raise 128 [] (onTm (fun x => { x with missed := tput 0 k (m ||| BitVec.ofNat 4 (2 ^ b)) x.missed }) s)
    if validSps s k b = 256 then s else startRuns k (beginFill k b false [] s)
  else s

/-- A temperature source in use: an AIN channel or 0x80 plus a die sensor, its reading in 0.01 C, and whether it stands in
for a mapped channel (R166, R167, R561). -/
def tempOf (s : State) (src row : Nat) : Nat × Int × Bool :=
  if src ≤ 15 then
    if tempUsable s src then (src, divRound (chanValue s src) 10, false)
    else (0x80 + validSensor s row, dieTemp s row, true)
  else if 0x80 ≤ src ∧ src < 0x98 then (0x80 + validSensor s (src - 0x80), dieTemp s (src - 0x80), false)
  else (0x80 + validSensor s row, dieTemp s row, false)

/-- TEMP_RECAL is exceeded in a band that holds valid periods (R172). -/
def tempStale (s : State) (k b : Nat) : Bool :=
  decide (cfg16 s 0x0304 0 < (tget 0 s.tm.temp k - tget 0 s.tm.tcal (4 * k + b)).natAbs)
    && decide (validSps s k b ≠ 0)

/-- The stale bands of a block follow its temperature; EV_134 for a band that becomes stale (R172). -/
def staleUpdate (k : Nat) (s : State) : State :=
  let old := (tget 0 s.tm.stale k).toNat
  let new := maskOf 4 (fun b => bit (tget 0 s.tm.aged k).toNat b || tempStale s k b)
  let s := onTm (fun x => { x with stale := tput 0 k (BitVec.ofNat 4 new) x.stale }) s
  forAll ((List.range 4).filter (fun b => bit new b && !bit old b)) (fun _ => raise 134 []) s

/-- The TM_BANDS value is acceptable (R164). -/
def bandsOk (v : List Byte) : Bool :=
  let h := byteAt v 6
  decide (u16At v 2 < u16At v 0 ∧ u16At v 4 < u16At v 2 ∧ 700 ≤ u16At v 4 ∧ u16At v 2 + 2 * h ≤ u16At v 0
    ∧ u16At v 4 + 2 * h ≤ u16At v 2)

/-- A TM_TEMP source code is acceptable (R190). -/
def tempSrcOk (src : Nat) : Bool := decide (src ≤ 15 ∨ (0x80 ≤ src ∧ src < 0x98) ∨ src = 0xFF)

/-- The flash tick of the window a tick lies in (R184, R585). -/
def flashTick (s : State) (t : Stamp) : Option Stamp :=
  (s.ld.windows.find? (fun w => decide (0 ≤ stampDiff t w.1 ∧ 0 ≤ stampDiff w.2 t))).map (·.1)

/-- A TM_SKEW_CAL takes a converted hit of a block (R184). -/
def skewTakes (s : State) (k : Nat) (h : Hit) (r : SkewRun) : Bool :=
  decide (r.first ≤ k ∧ k < r.first + r.count) && !h.untimed && decide (0 ≤ stampDiff r.last s.tc.now)

/-- A converted hit that carries CAL enters the TM_SKEW_CAL of its block: its time less its flash tick (R184). -/
def skewAdd (k : Nat) (h : Hit) (s : State) : State :=
  match flashTick s h.tick with
  | none => s
  | some t =>
    if s.tm.skewRuns.any (skewTakes s k h) then
      onTm (fun x => { x with skewRuns := x.skewRuns.map (fun r => if skewTakes s k h r then
        { r with sums := tmod (0, 0) (spOf h.row h.col) (fun v => (v.1 + stampDiff h.tick t * 8192 + h.fine, v.2 + 1)) r.sums }
        else r) }) s
    else s

/-- A mean in 0.1 ps and a count, from a sum in fine codes and a count (R184). -/
def skewMean (e : Int × Nat) : Int × Nat :=
  (clampInt (-32768) 32767 (divRound (e.1 * 250000) (8192 * max 1 e.2)), min 0xFFFF e.2)

/-- A TM_SKEW_CAL ends: means and counts of the super-pixels of its blocks (R184). -/
def skewFinish (num : Nat) (s : State) : State :=
  match s.tm.skewRuns.find? (fun r => decide (r.job = num)) with
  | none => s
  | some r =>
    onTm (fun x => { x with
      skewCal := (r.sums).foldl (fun t e => tput (0, 0) e.1 (skewMean e.2) t)
        (x.skewCal.filter (fun e => decide (spBlock e.1 < r.first ∨ r.first + r.count ≤ spBlock e.1)))
      skewRuns := x.skewRuns.filter (fun q => decide (q.job ≠ num)) }) s

/-- INL[k][j] rebuilt from the bins (R185): sum of the bins below, the bin, the total, and the mean period as sum over
count. -/
def inlValue (pre h total perSum_ n j : Nat) : Int :=
  let frac : Int := (((2 * pre + h) * 128 : Nat) : Int) - (((2 * j + 1) * total : Nat) : Int)
  clampInt (-128) 127 (divRound (10 * ((perSum_ : Nat) : Int) * frac) (128 * n * 256 * total))

/-- INL rebuilt (R185). -/
def inlRebuild (k : Nat) (s : State) : State :=
  let h := tslice 0 s.tm.bins (128 * k) 128
  let total := h.foldl (· + ·) 0
  let b := bandOf s k
  let n := validSps s k b
  let sum := if n = 0 then 50000 else perSum s k b
  let vals := (List.range 128).map (fun j => inlValue ((h.take j).foldl (· + ·) 0) (h.getD j 0) total sum (max 1 n) j)
  raise 135 [] (onTm (fun x => { x with
    inl := tfill 0 (128 * k) vals x.inl, bins := tfill 0 (128 * k) (List.replicate 128 0) x.bins }) s)

end Sys2Proof.Machine
end

