-- ==== Sys2Proof/Machine/FeOps.lean ====
section
/-! DEFINITION. The pixel front end's own logic (chapter 03, R151 to R162, R195 to R205): which pixels give hits, pulses
and rings, the block ports, frame schedules, mode changes and crabs. -/
namespace Sys2Proof.Machine

/-- A pixel's configuration byte as written: TP_EN, MASK, TRIM (R102). -/
def pixelConf (s : State) (pix : Nat) : BitVec 8 := tget 0x10 s.fe.pixel pix

/-- A pixel is masked by the host (R102). -/
def hostMasked (s : State) (pix : Nat) : Bool := bit (pixelConf s pix).toNat 5

/-- The crab entry of a pixel (R129). -/
def crabOf (s : State) (pix : Nat) : Option Crab := s.fe.crabs.find? (fun c => decide (c.pix = pix))

/-- A pixel is masked as a crab: listed, from the tick after it was found, and not in its retest window (R129, R130). -/
def crabMasked (s : State) (pix : Nat) : Bool :=
  match crabOf s pix with
  | some c => c.test.isNone && decide (c.since < s.up)
  | none => false

/-- A pixel is in its retest window (R130). -/
def crabTesting (s : State) (pix : Nat) : Bool :=
  match crabOf s pix with
  | some c => c.test.isSome
  | none => false

/-- Neither masked by the host nor as a crab. -/
def unmasked (s : State) (pix : Nat) : Bool := !hostMasked s pix && !crabMasked s pix

/-- The block row of a block has power (R123, R513). -/
def rowPowered (s : State) (k : Nat) : Bool := awake s && rowOn s (k / 16)

/-- A pixel's discriminator is watched: its block is biased and not held, and it is unmasked (R119, R237). -/
def pixelLive (s : State) (pix : Nat) : Bool :=
  let k := pixBlock pix
  decide (pix < 1048576) && awake s && decide (blockMode s k = 1 ∨ blockMode s k = 2) && !(blockAt s k).held && unmasked s pix

/-- The block clock runs continuously: DRIVE, or PADDLE with PADDLE_FULL (R158). -/
def clockAlways (s : State) (k : Nat) : Bool :=
  decide (blockMode s k ≠ 0) &&
    (match s.sys.power with
     | .drive => true
     | .paddle => bit (blockAt s k).conf.mode.toNat 3
     | _ => false)

/-- The block clock is ready (R157, R158). -/
def clockReady (s : State) (k : Nat) : Bool := clockAlways s k || (blockAt s k).clock

/-- The pulse of a pixel. -/
def pulseAt (s : State) (pix : Nat) : Option Pulse := tget none s.fe.pulse pix

/-- The pulse of a pixel replaced. -/
def setPulse (pix : Nat) (p : Option Pulse) (s : State) : State := onFe (fun x => { x with pulse := tput none pix p x.pulse }) s

/-- An event of the front end `ps` picoseconds into the present tick or later: the ticks pass, and the rest is its place in
its tick (log 39). -/
def atPs (ps : Nat) (s : State) : State := advance (ps / 25000) s

/-- Half picoseconds from the start of a pulse's rise tick to the start of a tick. -/
def halfTo (p : Pulse) (t : Stamp) : Nat := 50000 * (stampDiff t p.rise).toNat

/-- Half picoseconds from the start of a pulse's rise tick to `ps` into the present tick. -/
def halfPs (s : State) (p : Pulse) (ps : Nat) : Nat := halfTo p s.tc.now + 2 * (ps % 25000)

/-- An instant in half picoseconds from the start of a pulse's rise tick is reached. -/
def reachHalf (p : Pulse) (h : Nat) (s : State) : State := reachTick (p.rise + BitVec.ofNat 64 (h / 50000)) s

/-- Ring phases from a pulse's rise to an instant, 128 to a period (R151, R159). -/
def ringPhases (p : Pulse) (h : Nat) : Nat := (h - 2 * p.ps) * 8192 / p.per

/-- N: the phases from the rise to the stop edge, in 14 bits (R151, R205). -/
def ringN (p : Pulse) : Nat := min 16383 (ringPhases p (halfTo p p.stop))

/-- N_FALL or N_HAND: the phases from the rise to an instant, in 17 bits (R159). -/
def bridgeN (p : Pulse) (h : Nat) : Nat := min 131071 (ringPhases p h)

/-- Block-clock edges up to an instant in half picoseconds, an edge every 1,562.5 ps (R157). -/
def clockEdges (h : Nat) : Nat := h / 3125

/-- Block-clock edges from one instant to another. -/
def edgesBetween (a b : Nat) : Nat := clockEdges b - clockEdges a

/-- The start, in half picoseconds, of a pulse's block-clock count: its rise, or the edge at which a started clock became
ready; none while the clock is not ready. -/
def countStart (p : Pulse) : Option Nat :=
  if !p.bridged then some (2 * p.ps)
  else p.hand.map (fun h => halfTo p h.2)

/-- TICK_LO of a tick in a block: its local counter (R149, R196). -/
def localTick (s : State) (k : Nat) (t : Stamp) : Nat := (t.toNat + (blockAt s k).counterOff.toNat) % 65536

/-- The four 16-bit words of an IDLE frame (R195). -/
def idleWords : List Nat := [0, 0, 0, 0]

/-- The words of a HIT frame and of its extension (R196, R197). -/
def hitWords (f : HitFrame) : List Nat :=
  [word [(14, 1), (12, f.band % 4), (6, f.prow % 64), (0, f.pcol % 64)],
   f.tickLo % 65536,
   word [(15, bitNat f.ext), (14, bitNat f.tp), (0, f.n % 2 ^ 14)],
   word [(15, bitNat f.range), (14, bitNat f.ambig), (13, bitNat f.bridged), (12, bitNat f.droopLow), (0, f.tot % 4096)]]
  ++ if f.ext then
    [word [(8, f.dm % 256), (0, f.swTime % 256)],
     word [(15, bitNat f.dmValid), (14, bitNat f.hand), (0, f.c % 4096)],
     f.nb % 65536,
     word [(6, f.nswp % 1024), (1, bitNat f.swClk), (0, f.nb / 65536 % 2)]]
  else []

/-- The words of a CONTROL frame (R195, R202). -/
def controlWords (code arg w1 w2 w3 : Nat) : List Nat :=
  [word [(14, 3), (8, code % 64), (0, arg % 256)], w1 % 65536, w2 % 65536, w3 % 65536]

/-- TYPE of a frame by its first word: 0 IDLE, 1 HIT, 3 CONTROL; 2 is never sent (R195). -/
def frameType (w : Nat) : Nat := w / 2 ^ 14 % 4

/-- What the cluster engine reads of a HIT frame from its words (R196, R197). -/
def heardHit (f : HitFrame) : HitFrame :=
  let w := hitWords f
  let a (i : Nat) : Nat := w.getD i 0
  { f with
    band := field (a 0) 13 12, prow := field (a 0) 11 6, pcol := field (a 0) 5 0, tickLo := a 1
    ext := bit (a 2) 15, tp := bit (a 2) 14, n := field (a 2) 13 0
    range := bit (a 3) 15, ambig := bit (a 3) 14, bridged := bit (a 3) 13, droopLow := bit (a 3) 12, tot := field (a 3) 11 0
    dm := field (a 4) 15 8, swTime := field (a 4) 7 0, dmValid := bit (a 5) 15, hand := bit (a 5) 14, c := field (a 5) 11 0
    nb := a 6 + 65536 * (a 7 % 2), nswp := field (a 7) 15 6, swClk := bit (a 7) 1 }

/-- HIT frames waiting in a port buffer. -/
def portHits (x : FeBlock) : Nat := (x.port.filter (fun f => match f with
  | .hit _ => true
  | _ => false)).length

/-- A discard of a cause is added to those not yet reported, with the TICK_LO of its hit (R202, R204). -/
def noteDiscard (k cause lo : Nat) (s : State) : State :=
  modBlock k (fun x => { x with
    discards := tmod none cause (fun d => match d with
      | none => some (1, lo, lo)
      | some (n, a, _) => some (n + 1, a, lo)) x.discards }) s

/-- A HIT frame meets the port buffer: 512 frames, then a discard of cause 3 (R204). -/
def pushHit (k : Nat) (f : HitFrame) (s : State) : State :=
  if 512 ≤ portHits (blockAt s k) then noteDiscard k 3 f.tickLo s
  else modBlock k (fun x => { x with port := x.port ++ [.hit f] }) s

/-- Control frames go out ahead of the hits that wait (R203, R204). -/
def pushControl (f : PortFrame) : List PortFrame → List PortFrame
  | [] => [f]
  | .hit h :: r => f :: .hit h :: r
  | x :: r => x :: pushControl f r

/-- The frame a pulse gives: its ToT in block-clock edges and its bridge count (R196, R197); band, DM and EXT are set as it
leaves (`leaving`). -/
def frameOf (s : State) (k pix : Nat) (p : Pulse) (ambig : Bool) (tot nb : Nat) : HitFrame :=
  let ring := decide (p.timing = .ring)
  let bridged := ring && p.bridged
  let hand := bridged && p.hand.isSome
  let swClk := hand && p.switched && !p.swBridge
  { band := 0, prow := pix / 1024 % 64, pcol := pix % 1024 % 64, tickLo := localTick s k p.stop
    tp := p.tp, n := if p.timing = .untimed then 0 else ringN p, range := p.switched, ambig := ambig, bridged := bridged
    droopLow := false, tot := if bridged then 0 else tot
    ext := false, dm := 0, dmValid := false
    swTime := if bridged && !swClk then 0 else p.swTime
    hand := hand, c := if hand then tot else 0, nb := if bridged then nb else 0
    nswp := if bridged && p.swBridge then p.nswp else 0, swClk := swClk, second := decide (p.timing = .second)
    rise := p.rise, stop := p.stop, seen := p.seen, entered := s.tc.now }

/-- A HIT frame as it leaves its block: the band and the reading of its stop edge, and EXT (R163, R165, R196, R199). -/
def leaving (s : State) (k : Nat) (f : HitFrame) : HitFrame :=
  let (b, d) := f.seen.getD (bandDm s k)
  let want := bit (tget 0 s.tm.dmMask k).toNat b
  { f with
    band := b, droopLow := decide (d < 70), ext := f.bridged || f.range || want, dm := if want then d else 0, dmValid := want }

/-- The ToT of a pulse at an instant in half picoseconds, in block-clock edges (R104, R157, R159). -/
def totAt (p : Pulse) (h : Nat) : Nat :=
  match countStart p with
  | none => 0
  | some a => min 0xFFF (edgesBetween (if p.switched then max a p.blankEnd else a) (min h (p.gatedAt.getD h)))

/-- The ring of a super-pixel no longer runs as a bridge. -/
def endBridge (pix : Nat) (s : State) : State :=
  onFe (fun x => { x with
    ring := tmod none (pixSp pix) (fun r => r.map (fun v => if v.1 = pix then (v.1, v.2.1, false) else v)) x.ring }) s

/-- A pulse delivers its hit (R201). -/
def deliverPulse (pix : Nat) (p : Pulse) (ambig : Bool) (h nb : Nat) (s : State) : State :=
  pushHit (pixBlock pix) (frameOf s (pixBlock pix) pix p ambig (if ambig then 0 else totAt p h) nb) s

/-- The period in 1/128 ps of the ring that times a rise, 360 ps to 420 ps (R154): the ring's own, or that of the ring the
first hit has started. -/
def ringPeriod (s : State) (pix per : Nat) : Nat :=
  let own := clampNat 46080 53760 per
  match tget none s.fe.ring (pixSp pix) with
  | some (w, st, _) => if stampDiff s.tc.now st < 0 then ((pulseAt s w).map (·.per)).getD own else own
  | none => own

/-- How a rise is timed (R151, R205): the timing, its stop edge, the first strobe edge that is not in the ring's first
period, and the ring and spare latch after it. -/
def arbitrate (s : State) (pix ps per : Nat) (bridge : Bool) : Timing × Stamp × Option (Nat × Stamp × Bool) × Bool :=
  let sp := pixSp pix
  let ring := tget none s.fe.ring sp
  let spare := tget false s.fe.spare sp
  let stop := s.tc.now + (if 128 * (25000 - ps) < per then 2 else 1)
  match ring with
  | some (w, st, br) =>
    if stampDiff s.tc.now st < 0 then
      if spare then (.untimed, s.tc.now + 1, ring, spare) else (.second, st, some (w, st, br), true)
    else if br then (.untimed, s.tc.now + 1, ring, spare)
    else (.ring, stop, some (pix, stop, bridge), false)
  | none => (.ring, stop, some (pix, stop, bridge), false)

/-- A pixel rises within 4 ticks after a step that a stream-0 injection has given its block (R113, R245). -/
def nearStep (s : State) (pix : Nat) : Bool :=
  match s.fe.lastTp with
  | some (_, stream, t, b) =>
    decide (stream = 0 ∧ (b = 0xFF ∨ b = pixBlock pix) ∧ 0 ≤ stampDiff s.tc.now t ∧ stampDiff s.tc.now t ≤ 4)
  | none => false

/-- A pulse that begins now. -/
def newPulse (s : State) (ps per : Nat) (stop : Stamp) (timing : Timing) (bridged tp sent : Bool) : Pulse :=
  { high := true, rise := s.tc.now, ps := ps, stop := stop, timing := timing, bridged := bridged, hand := none
    switched := false, swTime := 0, nswp := 0, blankEnd := 0, blank := false, swBridge := false, gatedAt := none
    sent := sent, tp := tp, per := per, fell := none, seen := none }

/-- What any rise does in its block and super-pixel: a gated clock is asked to start, a calibration run of the super-pixel is
disturbed (R158, R169, R170). -/
def riseSeen (k sp ps : Nat) (s : State) : State :=
  let ready := clockReady s k
  let s := modBlock k (fun x => { x with
    lastEdge := s.tc.now, clockReq := if ready then x.clockReq else some (x.clockReq.getD (s.tc.now, ps)) }) s
  let s := onFe (fun x => { x with spRise := tput none sp (some s.tc.now) x.spRise }) s
  if (runsOf s k).any (fun r => decide (r.sp = sp)) then
    onTm (fun x => { x with running := tmod [] k (fun l => l.map (fun r =>
      if r.sp = sp ∧ 0 ≤ stampDiff s.tc.now r.start then { r with hit := true } else r)) x.running }) s
  else s

/-- The rise of a discriminator in a block in EVENT (R151, R158, R205). -/
def eventRise (pix ps per : Nat) (s : State) : State :=
  let k := pixBlock pix
  let ready := clockReady s k
  let per := ringPeriod s pix per
  let (timing, stop, ring, spare) := arbitrate s pix ps per (!ready)
  let s := riseSeen k (pixSp pix) ps (onFe (fun x => { x with
    ring := tput none (pixSp pix) ring x.ring, spare := tput false (pixSp pix) spare x.spare }) s)
  setPulse pix (some (newPulse s ps per stop timing (!ready) (bit (pixelConf s pix).toNat 6 && nearStep s pix) false)) s

/-- The rise of a discriminator in a block in FRAME: its counter counts (R119, R126, R158). -/
def countRise (pix ps per : Nat) (s : State) : State :=
  let i := 64 * (pix / 1024 % 64) + pix % 64
  let s := riseSeen (pixBlock pix) (pixSp pix) ps s
  let s := modBlock (pixBlock pix) (fun x => { x with counts := tmod 0 i (satAdd 0xFFFF 1) x.counts }) s
  setPulse pix (some (newPulse s ps (clampNat 46080 53760 per) (s.tc.now + 1) .untimed false false true)) s

/-- The earliest pending discriminator of a block: a pulse whose frame has not been sent, or a frame that waits (R203). -/
def earliestPending (s : State) (k : Nat) : Option Stamp :=
  let ps := (s.fe.pulse.filter (fun e => decide (pixBlock e.1 = k))).filterMap (fun e => match e.2 with
    | some p => if p.high && !p.sent then some p.rise else none
    | none => none)
  let fs := (blockAt s k).port.filterMap (fun f => match f with
    | .hit h => some h.rise
    | _ => none)
  (ps ++ fs).foldl (fun (b : Option Stamp) t => match b with
    | none => some t
    | some u => if stampDiff t u < 0 then some t else some u) none

/-- The watermark of a block formed now (R203). -/
def watermark (s : State) (k : Nat) : Stamp := (earliestPending s k).getD s.tc.now

/-- A block that counts as having an unlimited watermark: OFF, held, or in FRAME (R203). -/
def unlimited (s : State) (k : Nat) : Bool := decide (blockMode s k ≠ 1) || (blockAt s k).held

/-- The smallest boundary of a schedule at or after a tick (R125). -/
def boundaryFrom (start : Stamp) (period : Nat) (t : Stamp) : Stamp :=
  let d := tickAfter t start
  if d ≤ 0 then start else start + BitVec.ofNat 64 (period * divUp d.toNat period)

/-- The tick the next boundary is looked for from: after the latest one, and not more than a period ago. -/
def boundaryFloor (s : State) : Stamp :=
  let recent := BitVec.ofNat 64 (s.tc.now.toNat - (s.fe.framePeriod - 1))
  match s.fe.nextMin with
  | some m => if 0 ≤ tickAfter m recent ∧ tickAfter m s.tc.now ≤ (2 * s.fe.framePeriod : Nat) + 4000 then m else recent
  | none => recent

/-- The first boundary at or after a tick under a schedule and the changes that wait (R125, R127). -/
def schedFrom (start : Stamp) (period : Nat) : List (Nat × Stamp × Stamp × Stamp) → Stamp → Stamp
  | [], t => boundaryFrom start period t
  | (p, st, b0, first) :: r, t =>
    let b := boundaryFrom start period t
    if tickAfter b b0 ≤ 0 then b else schedFrom st p r (if tickAfter t first < 0 then first else t)

/-- The first boundary at or after a tick (R125, R127): after a change, none before the first of the new schedule. -/
def boundaryAfter (s : State) (t : Stamp) : Stamp :=
  let t := match s.fe.nextMin with
    | some m => if 0 < tickAfter m t ∧ tickAfter m s.tc.now ≤ (2 * s.fe.framePeriod : Nat) + 4000 then m else t
    | none => t
  schedFrom s.fe.frameStart s.fe.framePeriod s.fe.pendingFrame t

/-- The next frame boundary (R125, R127). -/
def nextBoundary (s : State) : Stamp :=
  schedFrom s.fe.frameStart s.fe.framePeriod s.fe.pendingFrame (boundaryFloor s)

/-- A block reads out a bank at a boundary: it was in FRAME, or completes its last frame (R121). -/
def readsOut (s : State) (k : Nat) (b : Stamp) : Bool :=
  let x := blockAt s k
  x.lastFrame || (decide (blockMode s k = 2) && decide (0 < stampDiff b x.frameFrom))

/-- The pixel of a block with a counter index. -/
def counterPix (k i : Nat) : Nat := 1024 * (64 * (k / 16) + i / 64) + 64 * (k % 16) + i % 64

/-- The bank of a block is swapped at a boundary (R24, R126, R243): masked pixels, and those in a retest (R130), read zero. -/
def swapBank (b start : Stamp) (k : Nat) (s : State) : State :=
  modBlock k (fun x => { x with
    readout := some {
      start := if 0 < stampDiff x.frameFrom start then x.frameFrom else start
      boundary := b, bank := x.bank, count := x.frames % 65536
      counts := x.counts.filter (fun c => unmasked s (counterPix k c.1) && !crabTesting s (counterPix k c.1)), bad := false }
    bank := 1 - x.bank, counts := [], frames := (x.frames + 1) % 65536, lastFrame := false }) s

/-- A scan job of a code runs on a block. -/
def scanRuns (s : State) (k code : Nat) : Bool :=
  match (blockAt s k).scan with
  | some n => ((openJob s n).map (·.code)) = some code
  | none => false

/-- Crab detection judges a pixel (R109, R119, R128). -/
def crabWatched (s : State) (pix : Nat) : Bool :=
  let k := pixBlock pix
  decide (pix < 1048576) && decide (blockMode s k ≠ 0) && bit (blockAt s k).conf.mode.toNat 4 && !scanRuns s k 0x0206

/-- Hits of a pixel, in EVENT, or its FRAME count, enter its crab window, or its retest (R119, R128, R130). -/
def crabSeen (pix n : Nat) (s : State) : State :=
  if crabTesting s pix then
    onFe (fun x => { x with crabs := x.crabs.map (fun c => if c.pix = pix then { c with hits := c.hits + n } else c) }) s
  else if crabWatched s pix && unmasked s pix then onFe (fun x => { x with crabHits := tmod 0 pix (· + n) x.crabHits }) s
  else s

/-- The counts of a block's bank enter the crab windows (R119). -/
def crabCounts (k : Nat) (s : State) : State :=
  forAll (blockAt s k).counts (fun c => crabSeen (counterPix k c.1) c.2) s

/-- The schedules whose B0 has come are in force; the next boundary is the first of the new one (R127). -/
def takeSchedules (b : Stamp) : List (Nat × Stamp × Stamp × Stamp) → FeState → FeState
  | [], x => x
  | (p, st, b0, first) :: r, x =>
    if 0 ≤ tickAfter b b0 then
      takeSchedules b r { x with
        framePeriod := p, frameStart := st, pendingFrame := r, nextMin := some (if b = b0 then first else b + 1) }
    else x

/-- A boundary (R24, R125, R127, R243). -/
def frameBoundary (s : State) : State :=
  let b := nextBoundary s
  let s := reachTick b s
  let start := s.fe.lastBoundary.getD (b - BitVec.ofNat 64 s.fe.framePeriod)
  let s := forAll ((List.range 256).filter (fun k => readsOut s k b)) (fun k s => swapBank b start k (crabCounts k s)) s
  onFe (fun x => takeSchedules b x.pendingFrame { x with lastBoundary := some b, nextMin := some (b + 1) }) s

/-- The header of a FRAME unit (R401): LEN, SAT, METHOD, PRED, POISON, CONT, MORE, block and frame number. -/
def unitHeader (len sat method pred poison cont more block frame : Nat) : Nat :=
  word [(50, len), (37, sat), (35, method), (33, pred), (32, poison), (31, cont), (30, more), (22, block), (6, frame)]

/-- What a block loses when it leaves EVENT: its pulses and its rings; its port too when it is switched OFF (log 39). -/
def dropPulses (k : Nat) (off : Bool) (s : State) : State :=
  let s := onFe (fun x => { x with
    pulse := x.pulse.filter (fun e => decide (pixBlock e.1 ≠ k))
    ring := x.ring.filter (fun e => decide (spBlock e.1 ≠ k))
    spare := x.spare.filter (fun e => decide (spBlock e.1 ≠ k)) }) s
  if off then modBlock k (fun x => { x with port := [], clock := false, clockReq := none, counts := [] }) s else s

/-- The pixel bytes of the golden copy in the blocks a test names, those of the blocks themselves elsewhere (R135). -/
def reloaded (p : Nat → Bool) (x : FeState) : Table Byte :=
  (x.goldPixel.filter (fun e => p (pixBlock e.1))).foldl (fun t e => tput 0x10 e.1 e.2 t) (x.pixel.filter (fun e => !p (pixBlock e.1)))

/-- Blocks are loaded from the golden copy (R123, R135, R145). -/
def reloadBlocks (p : Nat → Bool) (s : State) : State :=
  let s := onFe (fun x => { x with pixel := reloaded p x }) s
  forAll ((List.range 256).filter p) (fun k => modBlock k (fun x => { x with conf := x.gold })) s

/-- A block row's power follows its blocks (R123); a row that powers up is loaded from the golden copy and loads its
counters (R149). -/
def rowUpdate (r : Nat) (s : State) : State :=
  let on := rowOn s r
  if bit s.fe.rows.toNat r = on then s
  else
    let s := onFe (fun x => { x with
      rows := if on then x.rows ||| BitVec.ofNat 16 (2 ^ r) else x.rows &&& ~~~(BitVec.ofNat 16 (2 ^ r)) }) s
    let s := if on then
        forAll (List.range 16) (fun c => modBlock (16 * r + c) (fun x => { x with counterOff := 0, reload := false }))
          (reloadBlocks (fun k => decide (k / 16 = r)) s)
      else s
    raise 72 [1, BitVec.ofNat 8 r, BitVec.ofNat 8 (bitNat on)] s

/-- A configuration write of a block: the golden copy first, the block second (R135). -/
def writeConf (k : Nat) (f : FeConf → FeConf) (s : State) : State :=
  modBlock k (fun x => { x with conf := f x.conf }) (modBlock k (fun x => { x with gold := f x.gold }) s)

/-- A configuration write of pixels: the golden copy first, the block second (R135). -/
def writePixels (f : Table Byte → Table Byte) (s : State) : State :=
  onFe (fun x => { x with pixel := f x.pixel }) (onFe (fun x => { x with goldPixel := f x.goldPixel }) s)

/-- A block takes a mode byte at a tick (R118, R121). -/
def takeMode (k : Nat) (v : Byte) (t : Stamp) (s : State) : State :=
  let old := blockMode s k
  let new := v.toNat % 4
  let last := decide (old = 2 ∧ new ≠ 2) && decide (0 ≤ stampDiff t (nextBoundary s)) && readsOut s k (nextBoundary s)
  let s := if old ≠ new then dropPulses k (decide (new = 0) && !last) s else s
  writeConf k (fun c => { c with mode := v &&& 0x3F }) (modBlock k (fun x => { x with
    lastFrame := x.lastFrame || last, frameFrom := if old ≠ 2 ∧ new = 2 then t else x.frameFrom }) s)

/-- Mode bytes of consecutive blocks take effect (R121, R123). -/
def modesEffect (first : Nat) (bytes : List Byte) (t : Stamp) (s : State) : State :=
  let s := forAll bytes.zipIdx (fun e => takeMode (first + e.2) e.1 t) s
  let s := forAll (List.range 16) rowUpdate s
  raise 72 [0, BitVec.ofNat 8 first, BitVec.ofNat 8 bytes.length] s

/-- Mode bytes that may be set (R118). -/
def modeByteOk (v : Byte) : Bool := decide (v.toNat % 4 ≠ 3 ∧ v.toNat < 64)

/-- The crabs of a block. -/
def crabCount (s : State) (k : Nat) : Nat := (s.fe.crabs.filter (fun c => decide (pixBlock c.pix = k))).length

/-- The neighbours of a pixel within the module (R128). -/
def neighbours (pix : Nat) : List Nat :=
  let r := pix / 1024
  let c := pix % 1024
  (List.range 9).filterMap (fun i =>
    if i = 4 ∨ r + i / 3 = 0 ∨ 1024 < r + i / 3 ∨ c + i % 3 = 0 ∨ 1024 < c + i % 3 then none
    else some (1024 * (r + i / 3 - 1) + (c + i % 3 - 1)))

/-- CRAB_RATE, CRAB_FACTOR, window in ms, CRAB_RETEST (R143). -/
def crabConf (s : State) : Nat × Nat × Nat × Nat :=
  let v := cfg s 0x0206
  (u32At v 0, byteAt v 4, u16At v 5, u32At v 7)

/-- Hits of a pixel in the running window. -/
def crabHitsOf (s : State) (pix : Nat) : Nat := tget 0 s.fe.crabHits pix

/-- NOISY (R128). -/
def noisy (s : State) (pix : Nat) : Bool :=
  let (rate, factor, win, _) := crabConf s
  let ns := (neighbours pix).filter (unmasked s)
  decide (rate * win < 1000 * crabHitsOf s pix)
    && (ns.isEmpty || decide (factor * (ns.foldl (fun a p => a + crabHitsOf s p) 0) < crabHitsOf s pix * ns.length))

/-- A pulse has been high for two ToT saturations, at least 12.8 us: 512 ticks (R128). -/
def longHigh (s : State) (p : Pulse) : Bool := p.high && decide (512 ≤ stampDiff s.tc.now p.rise)

/-- A pixel's discriminator stays high through two ToT saturations now (R128). -/
def highNow (s : State) (pix : Nat) : Bool := ((pulseAt s pix).map (longHigh s)).getD false

/-- STUCK in the running window (R128). -/
def stuckIn (s : State) (pix : Nat) : Bool := tget false s.fe.crabStuck pix || highNow s pix

/-- A STUCK condition enters the pixel's window, or its retest (R128, R130). -/
def markStuck (pix : Nat) (s : State) : State :=
  onFe (fun x => { x with
    crabStuck := tput false pix true x.crabStuck
    crabs := x.crabs.map (fun c => if c.pix = pix ∧ c.test.isSome then { c with stuck := true } else c) }) s

/-- A new crab is masked (R129, R131). -/
def maskCrab (pix reason : Nat) (s : State) : State :=
  let k := pixBlock pix
  let n := crabCount s k
  if 256 ≤ n then s
  else
    let s := onFe (fun x => { x with
      crabs := x.crabs ++ [{ pix := pix, reason := reason, masked := s.tc.now, since := s.up, interval := (crabConf s).2.2.2 }] }) s
    raiseIf (decide (n + 1 = 64)) 69 [] (raise 67 [] s)

/-- A retested crab is released or masked again (R130). -/
def judgeRetest (c : Crab) (s : State) : State :=
  let (rate, _, win, _) := crabConf s
  if 2000 * c.hits < rate * win ∧ !(c.stuck || highNow s c.pix) then
    raise 68 [] (onFe (fun x => { x with crabs := x.crabs.filter (fun d => decide (d.pix ≠ c.pix)) }) s)
  else
    onFe (fun x => { x with crabs := x.crabs.map (fun d => if d.pix = c.pix then
      { d with test := none, retests := min 255 (d.retests + 1), interval := min 3600 (2 * d.interval), masked := s.tc.now, since := s.up }
      else d) }) s

/-- A window that began at a moment ends, in 25 ns units (R128, R143). -/
def crabEnd (s : State) (from_ : Nat) : Nat := from_ + ms (crabConf s).2.2.1

/-- The end of the window that ends first: the module's, or that of a retest (R128, R130). -/
def crabDue (s : State) : Nat :=
  s.fe.crabs.foldl (fun a c => match c.test with
    | some t => min a (crabEnd s t)
    | none => a) (crabEnd s s.fe.crabFrom)

/-- The pixels a window may find to be crabs. -/
def crabSuspects (s : State) : List Nat :=
  (s.fe.crabHits.map (·.1) ++ s.fe.crabStuck.map (·.1) ++ (s.fe.pulse.map (·.1)).filter (highNow s)).eraseDups

/-- The module's crab window ends: the pixels that are NOISY or STUCK are masked, and a new window begins (R128, R129,
R131). -/
def crabJudge (s : State) : State :=
  let new := (crabSuspects s).filter (fun p => crabWatched s p && (crabOf s p).isNone && !hostMasked s p && (noisy s p || stuckIn s p))
  let found := new.map (fun p => (p, if noisy s p then 0 else 1))
  let s := forAll found (fun f => maskCrab f.1 f.2) s
  onFe (fun x => { x with crabHits := [], crabStuck := [], crabFrom := s.up }) s

/-- The crab windows that have ended are judged (R128 to R131). -/
def crabWindow (s : State) : State :=
  let due := s.fe.crabs.filter (fun c => match c.test with
    | some t => decide (crabEnd s t ≤ s.up)
    | none => false)
  let s := if crabEnd s s.fe.crabFrom ≤ s.up then crabJudge s else s
  forAll due judgeRetest s

/-- D of a sensor type in 0.001 K; none where it is fixed (R110). -/
def doubling (kind : Nat) : Option Nat :=
  match kind with
  | 0 | 1 => some 7000
  | 2 => some 9000
  | 3 => some 10000
  | _ => none

/-- a times 2 to the n over d is at least b, for numbers a and b (R110). -/
def expAtLeast (a b : Nat) (n : Int) (d : Nat) : Bool :=
  if 0 ≤ n then decide (b ^ d ≤ a ^ d * 2 ^ n.toNat) else decide (b ^ d * 2 ^ (-n).toNat ≤ a ^ d)

/-- LEAK_MAX code for a block (R110): margin in 1/16, I_ref in pA, temperature less T_ref in 0.001 K, sensor type. The code
is the nearest to 63 I / 20 nA, at most 63. -/
def leakCode (margin iref : Nat) (dt : Int) (kind : Nat) : Nat :=
  let a := 2 * margin * iref * 63
  let den := 16 * 20000
  ((List.range 63).filter (fun c => match doubling kind with
    | none => decide ((2 * c + 1) * den ≤ a)
    | some d => expAtLeast a ((2 * c + 1) * den) dt d)).length

/-- The FE_LEAK entry of a block. -/
def leakEntry (s : State) (k : Nat) : List Byte := bytesAt (cfg s 0x0207) (6 * k) 6

/-- The width in bits of each DAC (R100). -/
def dacBits (d : Nat) : Nat := [10, 8, 8, 6, 8, 6, 12].getD d 0

/-- A DAC code. -/
def dacOf (c : FeConf) (d : Nat) : Nat := c.dacs.getD d 0

/-- A DAC code set. -/
def setDac (d v : Nat) (c : FeConf) : FeConf := { c with dacs := c.dacs.set d v }

/-- LEAK_MAX of a block follows its temperature (R110, R111). -/
def leakBlock (k : Nat) (s : State) : State :=
  let e := leakEntry s k
  let ch := byteAt e 5
  if ch = 0xFF then s
  else
    let (_, t, back) := tempOf s ch (k / 16)
    let t3 := if back then 10 * t else chanValue s ch
    let new := back && !(blockAt s k).leakFallback
    let s := writeConf k (setDac 5 (leakCode (byteAt e 4) (u16At e 0) (t3 - 10 * i16At e 2) (cfg8 s 0x0201 0)))
      (modBlock k (fun x => { x with leakFallback := back }) s)
    raiseIf new 71 [] s

/-- LEAK_SAT pixels of a block. -/
def leakCount (s : State) (k : Nat) : Nat := (s.fe.leakSat.filter (fun e => decide (pixBlock e.1 = k) && e.2)).length

/-- The LEAK_SAT bits are these; EV_070 for each block whose count rises from zero (R112). -/
def leakBits (sat : List Nat) (s : State) : State :=
  let old := (List.range 256).map (leakCount s)
  let s := onFe (fun x => { x with
    leakSat := (sat.filter (fun p => decide (p < 1048576))).foldl (fun t p => tput false p true t) [] }) s
  forAll ((List.range 256).filter (fun k => decide (old.getD k 0 = 0 ∧ leakCount s k ≠ 0))) (fun _ => raise 70 []) s

/-- A scrub count of a block increased. -/
def scrubAdd (k i n : Nat) (s : State) : State :=
  modBlock k (fun x => { x with scrub := tmod 0 i (fun v => statAdd v n) x.scrub }) s

/-- A register of a block: 0 the mode byte, 1 to 7 the DACs. -/
def confReg (c : FeConf) (i : Nat) : Nat := if i = 0 then c.mode.toNat else dacOf c (i - 1)

/-- The pixels and the number of registers that a readback finds to differ from the golden copy (R136). -/
def scrubDiffs (s : State) (k : Nat) (d : FeDiff) : List Nat × Nat :=
  ((d.pixels.filter (fun e => decide (e.1 < 1048576 ∧ pixBlock e.1 = k ∧ (e.2 &&& 0x7F) ≠ tget 0x10 s.fe.goldPixel e.1))).map (·.1),
   (d.regs.filter (fun e => decide (e.1 < 8 ∧ e.2 ≠ confReg (blockAt s k).gold e.1))).length)

/-- A scrub pass reads back a block, compares it with the golden copy and rewrites what differs (R136); the address of a
differing register is not stated (log 39). -/
def scrubBlock (diffs : List FeDiff) (k : Nat) (s : State) : State :=
  let s := scrubAdd k 0 1 s
  let (pix, regs) := match diffs.find? (fun d => decide (d.block = k)) with
    | some d => scrubDiffs s k d
    | none => ([], 0)
  if pix = [] ∧ regs = 0 then modBlock k (fun x => { x with scrubFails := 0 }) s
  else
    let s := scrubAdd k 2 regs (scrubAdd k 1 pix.length s)
    let (v, s) := drawNat s
    let first := if 0 < regs then v % 2 ^ 24 else pix.foldl min 0xFFFFF
    let s := raise 64 (b1 k ++ leBytes 3 first) s
    let n := (blockAt s k).scrubFails + 1
    if n < 3 then modBlock k (fun x => { x with scrubFails := n }) s
    else
      let s := modBlock k (fun x => { x with scrubFails := 0 }) s
      let s := takeMode k ((blockAt s k).conf.mode &&& 0xFC) s.tc.now s
      raise 66 [] (rowUpdate (k / 16) s)

/-- The blocks a block parameter names: one, or all for 0xFF (R144). -/
def blocksNamed (b : Nat) : List Nat := if b = 0xFF then List.range 256 else [b]

/-- The charge record of a block: 33 values, the default line rounded (R133, R140, log 40). -/
def chargeRecord (s : State) (k : Nat) : List Nat :=
  match ((blockAt s k).chargeNew.map (·.1)).or (blockAt s k).charge with
  | some t => t
  | none => (List.range 32).map (fun i => min 0xFFFF (divRoundNat (hgAt s k (16 * i)).toNat qUnit)) ++ [0x1000]

/-- Bias of a block: 0 off, 1 low, 2 full (R120). -/
def biasOf (s : State) (k : Nat) : Nat :=
  if blockMode s k = 0 then 0
  else match s.sys.power with
    | .drive => 2
    | .paddle => if bit (blockAt s k).conf.mode.toNat 3 then 2 else 1
    | .easy => 1
    | _ => 0

/-- The blocks a scan call names. -/
def scanBlocks (first count : Nat) : List Nat := (List.range count).map (first + ·)

/-- FE_TRIM_RUN sets the block threshold to the target, the step to the target and every trim to 16, in the blocks alone:
the golden copy keeps what is restored at the end (R109, R145). -/
def trimStart (k q : Nat) (s : State) : State :=
  let s := modBlock k (fun x => { x with conf := setDac 0 (divRoundNat q 6) (setDac 6 (divRoundNat (1000 * q) 5486) x.conf) }) s
  onFe (fun x => { x with pixel := tmap 0x10 id (x.pixel.map (fun e => if pixBlock e.1 = k then (e.1, (e.2 &&& 0xE0) ||| 16) else e)) }) s

/-- A scan job begins on its blocks; it fails where one of them has become OFF or busy since the call (R145). -/
def scanBegin (code : Nat) (p : List Byte) (num : Nat) (s : State) : State :=
  let ks := scanBlocks (p8 p 0) (p8 p 1)
  if ks.any (fun k => decide (blockMode s k = 0) || (blockAt s k).scan.isSome) then jobFail num s
  else
    let s := forAll ks (fun k => modBlock k (fun x => { x with scan := some num })) s
    if code = 0x0206 then forAll ks (fun k => trimStart k (p16 p 2)) s else s

/-- A scan job leaves its blocks: their configuration is that of the golden copy (R109, R124, R145). -/
def scanRelease (num : Nat) (s : State) : State :=
  let ks := (List.range 256).filter (fun k => decide ((blockAt s k).scan = some num))
  if ks = [] then s else forAll ks (fun k => modBlock k (fun x => { x with scan := none })) (reloadBlocks ks.contains s)

/-- The calls whose jobs work on a range of blocks. -/
def blockJobs : List Nat := [0x0206, 0x0207, 0x0209, 0x0210, 0x0302, 0x030A, 0x030B]

/-- A block is in an open job (R145). -/
def inBlockJob (s : State) (k : Nat) : Bool :=
  (blockAt s k).scan.isSome
    || s.sys.jobs.any (fun j => blockJobs.contains j.code && decide (p8 j.params 0 ≤ k ∧ k < p8 j.params 0 + p8 j.params 1))

/-- The checks of a call on blocks that must not be OFF or busy (R145, R192), then a LOW job (R525). -/
def blockJob (code : Nat) (p : List Byte) (more : Bool) (busy : Nat → Bool) (begin_ : Nat → State → State) (s : State) : Reply :=
  let ks := scanBlocks (p8 p 0) (p8 p 1)
  need (decide (0 < p8 p 1 ∧ p8 p 0 + p8 p 1 ≤ 256) && more) (fun s =>
    if ks.any (fun k => decide (blockMode s k = 0)) then refuse stState s
    else if ks.any busy then refuse stBusy s
    else lowJob code p begin_ s) s

/-- A scan call (R145). -/
def scanCall (code : Nat) (p : List Byte) (more : Bool) (s : State) : Reply :=
  blockJob code p more (inBlockJob s) (scanBegin code p) s

end Sys2Proof.Machine
end

