-- ==== Sys2Proof/Machine/CxOps.lean ====
section
/-! DEFINITION. The compression units' own logic (chapter 09): prediction, the Rice code, the coding of frames, output
buffers, the frame index and the queues' configuration. -/
namespace Sys2Proof.Machine

/-- The Rice parameter for a running sum and count (R398). -/
def riceK (a n : Nat) : Nat := ((List.range 15).find? (fun k => decide (a ≤ n * 2 ^ k))).getD 15

/-- code(u, k) as a value and its number of bits (R399). -/
def riceCode (esc u k : Nat) : Nat × Nat :=
  let q := u / 2 ^ k
  if q < 16 then ((2 ^ q - 1) * 2 * 2 ^ k + u % 2 ^ k, q + 1 + k) else (0xFFFF * 2 ^ esc + u % 2 ^ esc, 16 + esc)

/-- The codes of values from a running sum and count (R398). -/
def riceCodes (esc : Nat) : List Nat → Nat → Nat → List (Nat × Nat)
  | [], _, _ => []
  | u :: us, a, n =>
    let c := riceCode esc u (riceK a n)
    c :: (if n + 1 = 32 then riceCodes esc us ((a + u) / 2) 16 else riceCodes esc us (a + u) (n + 1))

/-- The codes of a section, with A and N reset. -/
def codesOf (esc : Nat) (us : List Nat) : List (Nat × Nat) := riceCodes esc us 16 4

/-- Bits of a list of codes. -/
def codeBits (cs : List (Nat × Nat)) : Nat := cs.foldl (fun a c => a + c.2) 0

/-- Codes packed from bit 7 downwards, with zero bits up to a multiple of 64 (R400). -/
def packCodes (cs : List (Nat × Nat)) : List Byte :=
  let n := codeBits cs
  let w := 64 * divUp n 64
  let v := cs.foldl (fun a c => a * 2 ^ c.2 + c.1) 0
  (leBytes (w / 8) (v * 2 ^ (w - n))).reverse

/-- Escapes among the codes. -/
def escapesOf (esc : Nat) (cs : List (Nat × Nat)) : Nat := (cs.filter (fun c => decide (0xFFFF * 2 ^ esc ≤ c.1 ∧ c.2 = 16 + esc))).length

/-- A residue as an unsigned value (R397). -/
def zigzag (e : Int) : Nat := if 0 ≤ e then (2 * e).toNat else (-2 * e - 1).toNat

/-- The median of three. -/
def median3 (a b c : Int) : Int := max (min a b) (min (max a b) c)

/-- The prediction of an interior counter (R395). -/
def predictInner (p : Nat) (a b c : Int) : Int :=
  clampInt 0 65535 (match p with
    | 0 => a
    | 1 => b
    | 2 => a + b - c
    | _ => median3 a b (a + b - c))

/-- The residues of one row: the row before where there is one, the counter to the left where there is one, and the one
above it (R395, R397). -/
def rowResidues (p : Nat) : Option (List Nat) → Option Int → Int → List Nat → List Nat
  | _, _, _, [] => []
  | none, left, c, v :: vs => zigzag (v - left.getD 0) :: rowResidues p none (some v) c vs
  | some up, left, c, v :: vs =>
    let b : Int := up.headD 0
    let pr := match left with
      | some a => predictInner p a b c
      | none => b
    zigzag (v - pr) :: rowResidues p (some (up.drop 1)) (some v) b vs

/-- The residues of rows of a width, in port order (R395). -/
def blockResidues (p width : Nat) : Nat → Option (List Nat) → List Nat → List Nat
  | 0, _, _ => []
  | f + 1, up, vs =>
    if vs = [] then []
    else rowResidues p up none 0 (vs.take width) ++ blockResidues p width f (some (vs.take width)) (vs.drop width)

/-- The choice of a predictor among some: the shortest output, on a tie the lowest number (R396). -/
def shortest (form : Nat → List (Nat × Nat)) : List Nat → Nat × List (Nat × Nat)
  | [] => (0, [])
  | [p] => (p, form p)
  | p :: ps => let r := shortest form ps
    let c := form p
    if codeBits c ≤ codeBits r.2 then (p, c) else r

/-- An entry of CX_QUEUES as bytes. -/
def cxConfBytes (c : Nat × Nat × Nat × Nat) : List Byte := b1 c.1 ++ b1 c.2.1 ++ b1 c.2.2.1 ++ b1 c.2.2.2

/-- An entry of CX_QUEUES from its bytes. -/
def cxEntry (v : List Byte) : Nat × Nat × Nat × Nat := (byteAt v 0, byteAt v 1, byteAt v 2, byteAt v 3)

/-- An entry of CX_QUEUES is acceptable (R394, R420). -/
def cxEntryOk (c : Nat × Nat × Nat × Nat) : Bool := decide (c.1 ≤ 3 ∧ c.2.1 ≤ 1 ∧ c.2.2.1 ≤ 4 ∧ c.2.2.2 ≤ 1)

/-- FRAME_LO of a FRAME unit's payload (R401). -/
def frameLo (payload : List Byte) : Nat := field (uAt 8 payload 0) 21 6

/-- A queue's configuration in force replaced. -/
def setCx (q : Nat) (c : Nat × Nat × Nat × Nat) (s : State) : State :=
  modCxq q (fun x => { x with conf := if c = (0, q / 2 % 2, 4, 1) then none else some c, pending := none }) s

/-- A statistic of a compressing queue increased; saturation raises EV_391 (R421). -/
def cxStat (q i k : Nat) (s : State) : State :=
  let r := statBump (cxqAt s q).stats (cxqAt s q).statSat i k
  satEvent 391 r.2.2 (modCxq q (fun x => { x with stats := r.1, statSat := r.2.1 }) s)

/-- KiB in (6) or out (7): whole KiB of the bytes so far. -/
def cxBytes (q : Nat) (out : Bool) (n : Nat) (s : State) : State :=
  let p := (cxqAt s q).part
  let v := (if out then p.2 else p.1) + n
  let s := modCxq q (fun x => { x with part := if out then (p.1, v % 1024) else (v % 1024, p.2) }) s
  cxStat q (if out then 7 else 6) (v / 1024) s

/-- The buffers a unit has in use. -/
def unitBufs (s : State) (unit : Nat) : List CxBuf := tget [] s.cx.bufs unit

/-- The buffers a unit has in use, changed; the moment from which none is free is kept (R407, R423). -/
def modBufs (unit : Nat) (f : List CxBuf → List CxBuf) (s : State) : State :=
  let was := decide (64 ≤ (unitBufs s unit).length)
  let s := onCx (fun x => { x with bufs := tmod [] unit f x.bufs }) s
  let full := decide (64 ≤ (unitBufs s unit).length)
  if full = was then s else onCx (fun x => { x with fullAt := tput none unit (if full then some s.up else none) x.fullAt }) s

/-- The least free descriptor (R403). -/
def freeBuf (bs : List CxBuf) : Nat := ((List.range 64).find? (fun n => !bs.any (fun b => decide (b.num = n)))).getD 64

/-- The queue's buffer that is being written. -/
def openBuf (bs : List CxBuf) (q : Nat) : Option CxBuf := bs.find? (fun b => decide (b.q = q) && !b.ready)

/-- The queue's buffer that is being written becomes READY (R403). -/
def closeBuf (q : Nat) (bs : List CxBuf) : List CxBuf := bs.map (fun b => if b.q = q then { b with ready := true } else b)

/-- What a unit writes of one frame, as it goes into buffers. -/
structure CxOut where
  /-- queue -/
  q : Nat
  /-- KIND -/
  kind : Nat
  /-- CAL, RESYNC, LOSS -/
  flags : BitVec 8
  /-- its TIME_BASE -/
  base : Stamp
  /-- its LAST_OFF -/
  lastOff : Nat
  /-- its records -/
  records : Nat
  /-- poisoned -/
  poison : Bool
  /-- moment at which its first byte has waited the packet-close time -/
  closes : Nat

/-- A new buffer with bytes in it. -/
def newBuf (o : CxOut) (bs : List CxBuf) (bytes : List Byte) (records : Nat) (contIn : Bool) : CxBuf :=
  { num := freeBuf bs, q := o.q, kind := o.kind, ready := false, contIn := contIn, moreOut := false, poison := o.poison
    flags := o.flags, base := o.base, lastOff := o.lastOff, records := records, bytes := bytes, closes := o.closes }

/-- The queue's open buffer may take more of the same kind and flags. -/
def takesMore (o : CxOut) (b : CxBuf) : Bool := decide (b.kind = o.kind ∧ b.flags = o.flags)

/-- Bytes appended to an open buffer; a full one is READY (R403). -/
def appendBuf (o : CxOut) (b : CxBuf) (bytes : List Byte) (records : Nat) (more : Bool) (bs : List CxBuf) : List CxBuf :=
  let off := (stampDiff o.base b.base).toNat + o.lastOff
  let b' := { b with
    bytes := b.bytes ++ bytes, records := b.records + records, moreOut := more, poison := b.poison || o.poison
    lastOff := max b.lastOff off, ready := decide (8192 ≤ b.bytes.length + bytes.length) }
  bs.map (fun x => if x.num = b.num then b' else x)

/-- A frame, or a whole coded frame, that is written in one piece: into a buffer of its own, or behind others of its kind
that it fits with (R394, R403). -/
def writeWhole (o : CxOut) (own : Bool) (bytes : List Byte) (bs : List CxBuf) : List CxBuf :=
  let bytes := padTo (8 * divUp bytes.length 8) bytes
  match openBuf bs o.q with
  | some b =>
    if !own && takesMore o b && decide (b.bytes.length + bytes.length ≤ 8192) then appendBuf o b bytes o.records false bs
    else
      let bs := closeBuf o.q bs
      bs ++ [{ newBuf o bs bytes o.records false with ready := own }]
  | none => bs ++ [{ newBuf o bs bytes o.records false with ready := own }]

/-- A compression block's header with its piece fields (R401, R404). -/
def pieceHeader (h : Nat) (len : Nat) (cont more : Bool) : List Byte :=
  b8 (h % 2 ^ 30 + 2 ^ 30 * bitNat more + 2 ^ 31 * bitNat cont + field h 49 32 * 2 ^ 32 + len * 2 ^ 50)

/-- The further pieces of a block, each at the start of a buffer of its own (R404): the buffers, and the bytes written. -/
def furtherPieces (o : CxOut) (h : Nat) : Nat → List Byte → List CxBuf → List CxBuf × Nat
  | 0, _, bs => (bs, 0)
  | f + 1, data, bs =>
    if data = [] then (bs, 0)
    else
      let here := data.take 8184
      let rest := data.drop 8184
      let bytes := pieceHeader h here.length true (decide (rest ≠ [])) ++ here
      let bs := closeBuf o.q bs
      let b := { newBuf o bs bytes 1 true with moreOut := decide (rest ≠ []), ready := decide (8192 ≤ bytes.length) }
      let r := furtherPieces o h f rest (bs ++ [b])
      (r.1, r.2 + bytes.length)

/-- A compression block written into the queue's buffers (R403, R404): the buffers, the bytes written, and whether it was
split. -/
def writeBlock (o : CxOut) (h : Nat) (data : List Byte) (bs : List CxBuf) : List CxBuf × Nat × Bool :=
  let fits (b : CxBuf) : Bool := takesMore o b && decide (b.bytes.length + 64 ≤ 8192)
  let room := match openBuf bs o.q with
    | some b => if fits b then 8192 - b.bytes.length else 8192
    | none => 8192
  let here := data.take (room - 8)
  let rest := data.drop (room - 8)
  let bytes := pieceHeader h here.length false (decide (rest ≠ [])) ++ here
  let bs := match openBuf bs o.q with
    | some b => if fits b then appendBuf o b bytes 1 (decide (rest ≠ [])) bs
      else
        let bs := closeBuf o.q bs
        bs ++ [{ newBuf o bs bytes 1 false with moreOut := decide (rest ≠ []), ready := decide (8192 ≤ bytes.length) }]
    | none => bs ++ [{ newBuf o bs bytes 1 false with moreOut := decide (rest ≠ []), ready := decide (8192 ≤ bytes.length) }]
  let r := furtherPieces o h 3 rest bs
  (r.1, bytes.length + r.2, decide (rest ≠ []))

/-- The counters of a raw FRAME unit (R401). -/
def countersOf (payload : List Byte) : List Nat := (List.range 4096).map (fun i => u16At payload (8 + 2 * i))

/-- How a FRAME unit is coded: METHOD, predictor, the bytes after the header, and its codes (R402). -/
def codeBlock (pred : Nat) (payload : List Byte) : Nat × Nat × List Byte × List (Nat × Nat) :=
  let vs := countersOf payload
  if vs.all (· = 0) then (2, 0, [], [])
  else
    let r := shortest (fun p => codesOf 17 (blockResidues p 64 64 none vs)) (if pred = 4 then [0, 1, 2, 3] else [pred])
    if 64 * divUp (codeBits r.2) 64 ≤ 8 * 8184 then (1, r.1, packCodes r.2, r.2) else (0, 0, bytesAt payload 8 8192, [])

/-- The residues of a segment's samples (R410). -/
def waveResidues (p : Nat) : Option Int → Option Int → List Int → List Nat
  | _, _, [] => []
  | none, _, v :: vs => zigzag v :: waveResidues p (some v) none vs
  | some a, b, v :: vs =>
    let pr := match p, b with
      | 2, some z => clampInt (-32768) 32767 (2 * a - z)
      | _, _ => a
    zigzag (v - pr) :: waveResidues p (some v) (some a) vs

/-- The length of a waveform segment (R280). -/
def segmentLen (bs : List Byte) : Nat := 16 + (if byteAt bs 3 % 4 = 0 then 2 else 4) * u16At bs 8

/-- A coded waveform segment, or the segment as it is; and its codes (R410, R411). -/
def codeSegment (pred : Nat) (bs : List Byte) : List Byte × List (Nat × Nat) :=
  if byteAt bs 3 % 4 ≠ 0 then (bs, [])
  else
    let n := u16At bs 8
    let vs := (List.range n).map (fun i => i16At bs (16 + 2 * i))
    let r := shortest (fun p => codesOf 17 (waveResidues p none none vs))
      (if pred = 4 then [0, 2] else if pred = 2 then [2] else [0])
    let sec := packCodes r.2
    if 2 * n < sec.length then (bs, [])
    else (bs.take 3 ++ b1 (byteAt bs 3 + 2) ++ bytesAt bs 4 10 ++ b1 r.1 ++ [0] ++ sec, r.2)

/-- The segments of a waveform frame. -/
def segmentsOf : Nat → List Byte → List (List Byte)
  | 0, _ => []
  | f + 1, bs => if bs.length < 16 then [] else bs.take (segmentLen bs) :: segmentsOf f (bs.drop (segmentLen bs))

/-- A coded cluster frame, or none where it would be longer (R412); with its codes. -/
def codeCluster (bs : List Byte) : Option (List Byte × List (Nat × Nat)) :=
  let n := bs.length / 16
  let w0 := (List.range n).map (fun i => uAt 8 bs (16 * i))
  let w1 := (List.range n).flatMap (fun i => bytesAt bs (16 * i + 8) 8)
  let packed := packCodes (w0.map (fun w => (field w 63 36 * 128 + field w 6 0, 35)))
  let ts := w0.map (fun w => field w 35 20 * 8192 + field w 19 7)
  let codes := codesOf 29 ((ts.zip (0 :: ts)).map (fun p => p.1 - p.2))
  let time := packCodes codes
  let out := b2 n ++ b2 0 ++ b4 packed.length ++ b4 time.length ++ b4 0 ++ w1 ++ packed ++ time
  if 16 * n < out.length then none else some (out, codes)

/-- The blocks in FRAME mode of the block rows that feed a queue with FRAME data (R388, R408). -/
def frameBlocks (s : State) (q : Nat) : List Nat := (frameFeeding s q).filter (fun b => decide (blockMode s b = 2))

/-- The index record of a frame (R409). -/
def indexBytes (x : CxIndex) : List Byte :=
  let offs := (List.range 256).map (fun b => (tget none x.offsets b).getD stat32)
  b2 (x.frame.getD 0) ++ b2 ((offs.filter (fun o => decide (o ≠ stat32))).length) ++ stampBytes x.base ++ b4 x.total ++ offs.flatMap b4

/-- The index of the frame in hand is written in a packet of its own, where index output is enabled (R408). -/
def writeIndex (q unit : Nat) (s : State) : State :=
  let x := (cxqAt s q).index
  let s' := modCxq q (fun x => { x with index := {} }) s
  if x.frame.isNone ∨ (cxConf s q).2.2.2 = 0 then s'
  else
    let o : CxOut := { q := q, kind := 8, flags := BitVec.ofNat 8 (2 * bitNat (resync s)), base := x.base, lastOff := 0, records := 1, poison := false, closes := packetCloses s }
    modBufs unit (fun bs => writeWhole o true (indexBytes x) (closeBuf q bs)) s'

/-- A waiting configuration takes effect at a frame: a FRAME unit past its tick and of another frame than the last one
handled; in a queue that does not code FRAME units a frame closed from its tick on (R419). -/
def cxTakesEffect (s : State) (q : Nat) (f : BqFrame) (t : Stamp) : Bool :=
  if f.kind = 3 then reached s t && decide (some (frameLo f.payload) ≠ (cxqAt s q).lastFrame)
  else decide ((cxConf s q).1 ≠ 1 ∧ 0 ≤ stampDiff f.closed t)

/-- A waiting configuration takes effect at the next frame of its queue (R419): the index of a frame partly coded is
written; EV_390. -/
def cxSettle (q : Nat) (f : BqFrame) (s : State) : State :=
  match (cxqAt s q).pending with
  | some (c, t) => if cxTakesEffect s q f t then raise 390 [] (setCx q c (writeIndex q (cxConf s q).2.1 s)) else s
  | none => s

/-- The unit has the buffers for what it wrote (R403, R407, log 44). -/
def bufsFit (s : State) (unit : Nat) : Bool :=
  let bs := unitBufs s unit
  decide (bs.length ≤ 64) && bs.all (fun b => decide ((bs.filter (fun c => decide (c.q = b.q))).length ≤ 32))

/-- What a unit has coded is counted (R421). -/
def countCoded (q esc : Nat) (cs : List (Nat × Nat)) (s : State) : State :=
  if cs = [] then s else cxStat q 8 (escapesOf esc cs) (cxStat q 1 1 s)

/-- Half cycles of 1.1 GHz in some samples, 8 a cycle (R416). -/
def sampleCycles (n : Nat) : Nat := 2 * divUp n 8

/-- The work of a unit in the last second, and the half cycles for which it is taken (R416, R421). -/
def cxWork (unit samples bytes half : Nat) (s : State) : State :=
  onCx (fun x => { x with
    workAt := tput 0 unit s.up x.workAt
    freeAt := tmod 0 unit (fun t => max t (55 * s.up) + half) x.freeAt
    work := tmod [] unit (fun w =>
    (s.up, samples, bytes) :: w.filter (fun e => decide (s.up < e.1 + ms 1000))) x.work }) s

/-- What a frame gives a buffer. -/
def cxOutOf (s : State) (q : Nat) (f : BqFrame) (kind : Nat) (poison : Bool) : CxOut :=
  { q := q, kind := kind, flags := f.flags, base := f.base, lastOff := f.lastOff, records := f.records, poison := poison
    closes := packetCloses s }

/-- A FRAME unit is coded, or copied where it holds poison (R402, R404, R408, R413). -/
def codeFrameUnit (q unit : Nat) (f : BqFrame) (poison : Bool) (s : State) : State :=
  let lo := frameLo f.payload
  let raw := uAt 8 f.payload 0
  let s := if (cxqAt s q).index.frame.isSome ∧ (cxqAt s q).index.frame ≠ some lo then writeIndex q unit s else s
  let c : Nat × Nat × List Byte × List (Nat × Nat) :=
    if poison then (0, 0, f.payload.drop 8, []) else codeBlock (cxConf s q).2.2.1 f.payload
  let h := if poison then raw % 2 ^ 32 + 2 ^ 32 + field raw 63 33 * 2 ^ 33
    else unitHeader 0 (field raw 49 37) c.1 c.2.1 0 0 0 (field raw 29 22) lo
  let w := writeBlock (cxOutOf s q f 3 poison) h c.2.2.1 (unitBufs s unit)
  let at_ := (cxqAt s q).index.total
  let block := field raw 29 22
  let s := modBufs unit (fun _ => w.1) s
  let s := modCxq q (fun x => { x with
    lastFrame := some lo
    index := { x.index with
      frame := some lo, base := f.base, total := at_ + w.2.1, offsets := tput none block (some at_) x.index.offsets
      handled := if x.index.handled.contains block then x.index.handled else x.index.handled ++ [block] } }) s
  let s := if poison then raise 386 [] (cxStat q 4 1 s)
    else if c.1 = 2 then cxStat q 2 1 s
    else if c.1 = 0 then cxStat q 3 1 s
    else cxStat q (9 + c.2.1) 1 (countCoded q 17 c.2.2.2 s)
  let s := when w.2.2 (cxStat q 5 1) s
  let s := cxWork unit 4096 w.2.1 (sampleCycles 4096) (cxBytes q true w.2.1 s)
  if (frameBlocks s q).all (fun b => (cxqAt s q).index.handled.contains b) then writeIndex q unit s else s

/-- A waveform frame is coded segment by segment (R410, R411, R414). -/
def codeWave (q unit : Nat) (f : BqFrame) (s : State) : State :=
  let rs := (segmentsOf 600 f.payload).map (codeSegment (cxConf s q).2.2.1)
  let out := (rs.map (·.1)).flatten
  let s := modBufs unit (writeWhole (cxOutOf s q f 6 false) false out) s
  let s := forAll rs (fun r s =>
    if r.2 ≠ [] then cxStat q (9 + byteAt r.1 14) 1 (countCoded q 17 r.2 s)
    else when (decide (byteAt r.1 3 % 4 = 0)) (cxStat q 3 1) s) s
  let n := (rs.map (fun r => r.2.length)).foldl (· + ·) 0
  cxWork unit n out.length (sampleCycles n) (cxBytes q true out.length s)

/-- A frame is copied into a buffer of its own (R394, R414). -/
def copyFrame (q unit : Nat) (f : BqFrame) (poison : Bool) (s : State) : State :=
  let s := modBufs unit (fun bs => writeWhole (cxOutOf s q f f.kind poison) true f.payload (closeBuf q bs)) s
  let s := when poison (cxStat q 4 1) s
  cxWork unit 0 f.payload.length 0 (cxBytes q true f.payload.length s)

/-- A cluster frame is coded, or copied where that is longer (R412). -/
def codeClusters (q unit : Nat) (f : BqFrame) (s : State) : State :=
  match codeCluster f.payload with
  | none => cxStat q 3 1 (copyFrame q unit f false s)
  | some (out, cs) =>
    let s := modBufs unit (fun bs => writeWhole (cxOutOf s q f 0x0A false) true out (closeBuf q bs)) s
    countCoded q 29 cs (cxWork unit f.records out.length (2 * f.records) (cxBytes q true out.length s))

/-- A unit codes or copies a frame it has taken (R394). -/
def codeFrame (q unit : Nat) (f : BqFrame) (poison : Bool) (s : State) : State :=
  let s := cxBytes q false f.payload.length (cxStat q 0 1 s)
  match (cxConf s q).1, f.kind with
  | 1, 3 => codeFrameUnit q unit f poison s
  | 2, 6 => if poison then copyFrame q unit f true s else codeWave q unit f s
  | 3, 2 => if poison then copyFrame q unit f true s else codeClusters q unit f s
  | _, _ => copyFrame q unit f poison s

/-- Coding of FRAME-mode queues is deferred (R418). -/
def cxDefer (s : State) : State :=
  if s.cx.deferred then s
  else
    let some_ := (List.range 16).any (fun q => decide ((cxConf s q).1 = 1))
    raiseIf some_ 384 [] (onCx (fun x => { x with deferred := true, deferAt := s.up }) s)

/-- The deferral ends: its length counts for each FRAME-mode queue (R418, R421). -/
def cxResume (s : State) : State :=
  if !s.cx.deferred then s
  else
    let qs := (List.range 16).filter (fun q => decide ((cxConf s q).1 = 1))
    let s := forAll qs (fun q s => cxStat q 13 ((s.up - s.cx.deferAt) / ms 1) s) s
    raiseIf (decide (qs ≠ [])) 385 [] (onCx (fun x => { x with deferred := false }) s)

end Sys2Proof.Machine
end

