-- ==== Sys2Proof/Machine/Compression.lean ====
section
/-! DEFINITION. The compression commands (chapter 09). -/
namespace Sys2Proof.Machine

/-- A unit may serve a queue's frame now: PD_25 has power or is woken, and FRAME-mode coding is not deferred (R393, R417,
R418). -/
def serves (s : State) (unit q : Nat) : Bool :=
  awake s && compressing s q && decide ((cxConf s q).2.1 = unit) && !(s.cx.deferred && decide ((cxConf s q).1 = 1))

/-- A compression unit takes the oldest closed frame of a queue and codes or copies it (R393 to R414). -/
def execCxUnitCode (unit : Fin 2) (q : Fin 16) (s : State) : Out :=
  match frameReady s q.val with
  | none => .next s
  | some f =>
    let s1 := cxSettle q.val f (reachUp (divUp (tget 0 s.cx.freeAt unit.val) 55) s)
    if !serves s1 unit.val q.val then .next s
    else
      let s2 := when (decide (s1.sys.power = .easy)) (onCx (fun x => { x with awake := true })) s1
      match takeFrame q.val f s2 with
      | (none, s3) => .next s3
      | (some (g, poison), s3) =>
        let s4 := codeFrame q.val unit.val g poison s3
        event (bufsFit s4 unit.val) (fun _ => s4) s

/-- An output buffer's first byte has waited the packet-close time (R403). -/
def execCxBufferCloseTimeout (unit : Fin 2) (q : Fin 16) (s : State) : Out :=
  match openBuf (unitBufs s unit.val) q.val with
  | none => .next s
  | some b => event (awake s) (fun s => modBufs unit.val (closeBuf q.val) (reachUp b.closes s)) s

/-- In EASY, PD_25 is gated after 1 ms without work (R417). -/
def execCxIdleGate (s : State) : Out :=
  event (decide (s.sys.power = .easy) && s.cx.awake) (fun s =>
    onCx (fun x => { x with awake := false }) (reachUp (max (tget 0 s.cx.workAt 0) (tget 0 s.cx.workAt 1) + ms 1) s)) s

/-- A unit has had no free buffer for 100 us (R407, R423). -/
def execCxStalled (unit : Fin 2) (s : State) : Out :=
  match tget none s.cx.fullAt unit.val with
  | none => .next s
  | some t => event (awake s && decide (64 ≤ (unitBufs s unit.val).length)) (fun s =>
      raise 389 [] (onCx (fun x => { x with fullAt := tput none unit.val none x.fullAt }) (reachUp (t + us 100) s))) s

/-- The state of a unit as `CX_STATUS` numbers it (R421). -/
def cxState (s : State) (unit : Nat) : Nat :=
  let served := (List.range 16).filter (fun q => compressing s q && decide ((cxConf s q).2.1 = unit))
  if !busyState s && !s.cx.awake then 0
  else if 64 ≤ (unitBufs s unit).length then 4
  else if s.cx.deferred && served.any (fun q => decide ((cxConf s q).1 = 1)) then 3
  else if served.any (fun q => (frameReady s q).isSome) then 2 else 1

/-- `CX_STATUS` (R421). -/
def execCxStatus (mb : Fin 8) (s : State) : Out :=
  call mb.val 0x0800 epdPri 1 (fun p s =>
    let u := p8 p 0
    let w := (tget [] s.cx.work u).filter (fun e => decide (s.up < e.1 + ms 1000))
    need (decide (u ≤ 1)) (okBytes (b1 (cxState s u) ++ b1 (64 - (unitBufs s u).length)
      ++ b2 (maskOf 16 (fun q => compressing s q && decide ((cxConf s q).2.1 = u)))
      ++ b4 (min stat32 ((w.map (·.2.1)).foldl (· + ·) 0)) ++ b4 (min stat32 ((w.map (·.2.2)).foldl (· + ·) 0)))) s) s

/-- `CX_QUEUE_CONFIG` (R419, R420, R421). -/
def execCxQueueConfig (mb : Fin 8) (s : State) : Out :=
  call mb.val 0x0801 epd 5 (fun p s =>
    let c := cxEntry (p.drop 1)
    need (decide (p8 p 0 < 16) && cxEntryOk c)
      (fun s => ok (modCxq (p8 p 0) (fun x => { x with pending := some (c, s.tc.now + 400) }) s)) s) s

/-- `CX_QUEUE_GET` (R421): the entries in force. -/
def execCxQueueGet (mb : Fin 8) (s : State) : Out :=
  call mb.val 0x0802 epd 0 (fun _ s => okBytes ((List.range 16).flatMap (fun q => cxConfBytes (cxConf s q))) s) s

/-- A buffer's descriptor (R406); a free one's fields but ADDR, SIZE, QUEUE and NEXT are zero. -/
def bufDescriptor (bs : List CxBuf) (n : Nat) : List Byte :=
  match bs.find? (fun b => decide (b.num = n)) with
  | none => b4 (8192 * n) ++ b2 8192 ++ b2 0 ++ b1 0xFF ++ b1 0 ++ b1 0 ++ b1 0xFF ++ List.replicate 20 0
  | some b =>
    let next := ((bs.filter (fun c => decide (c.q = b.q))).dropWhile (fun c => decide (c.num ≠ n))).drop 1
    let flags := bitNat b.ready + 2 * bitNat b.contIn + 4 * bitNat b.moreOut + 8 * bitNat b.poison + 16 * (b.flags.toNat % 8)
    b4 (8192 * n) ++ b2 8192 ++ b2 b.bytes.length ++ b1 b.q ++ b1 b.kind ++ b1 flags
      ++ b1 ((next.head?.map (·.num)).getD 0xFF) ++ stampBytes b.base ++ b4 b.lastOff ++ b2 b.records ++ List.replicate 6 0

/-- `CX_CHAIN_READ` (R406, R421). -/
def execCxChainRead (mb : Fin 8) (s : State) : Out :=
  call mb.val 0x0803 epd 3 (fun p s =>
    need (decide (p8 p 0 ≤ 1 ∧ 1 ≤ p8 p 2 ∧ p8 p 2 ≤ 7 ∧ p8 p 1 + p8 p 2 ≤ 64)) (okBytes
      ((List.range (p8 p 2)).flatMap (fun k => bufDescriptor (unitBufs s (p8 p 0)) (p8 p 1 + k)))) s) s

/-- `CX_STATS` (R421). -/
def execCxStats (mb : Fin 8) (s : State) : Out :=
  call mb.val 0x0804 epd 2 (fun p s =>
    let q := p8 p 0
    need (decide (q < 16)) (fun s =>
      okBytes (statBytes 14 (cxqAt s q).stats (cxqAt s q).statSat)
        (when (decide (p8 p 1 = 1)) (modCxq q (fun x => { x with stats := [], statSat := 0 })) s)) s) s

/-- `CX_CODE_TEST` (R421, R422). -/
def execCxCodeTest (mb : Fin 8) (s : State) : Out :=
  call mb.val 0x0805 epd 4 (fun p s =>
    let n := p16 p 2
    let vs := (List.range n).map (fun i => u16At p (4 + 2 * i))
    need (decide (p8 p 0 ≤ 3 ∧ 1 ≤ p8 p 1 ∧ p8 p 1 ≤ 64 ∧ 1 ≤ n ∧ n ≤ 48 ∧ 4 + 2 * n ≤ p.length)) (fun s =>
      let cs := codesOf 17 (blockResidues (p8 p 0) (p8 p 1) 48 none vs)
      okBytes (b2 (codeBits cs) ++ b1 (p8 p 0) ++ b1 0 ++ packCodes cs) s) s) s

end Sys2Proof.Machine
end

