-- ==== Sys2Proof/Machine/Crypto.lean ====
section
/-! DEFINITION. SHA-256 and the verification of an ECDSA signature on the curve P-256, which R71 and R73 name and do
not spell out: taken from FIPS 180-4 and FIPS 186-4 (PRESUMED, log 50). -/
namespace Sys2Proof.Machine

/-- A 32-bit word rotated right. -/
def rotr32 (n x : Nat) : Nat := (x / 2 ^ n + x * 2 ^ (32 - n)) % 2 ^ 32

/-- The largest root: the greatest `a` below 2 to the number of bits, over a first part, with `a ^ k` at most `n`. -/
def rootBits (k n : Nat) : Nat → Nat → Nat
  | 0, a => a
  | b + 1, a => rootBits k n b (if (a + 2 ^ b) ^ k ≤ n then a + 2 ^ b else a)

/-- The first 32 bits after the point of the k-th root of a prime of two or three digits (FIPS 180-4 takes its constants so). -/
def rootWord (k p : Nat) : Nat := rootBits k (p * 2 ^ (32 * k)) 37 0 % 2 ^ 32

/-- The primes up to 311, the 64 that SHA-256 takes. -/
def shaPrimes : List Nat := (List.range 312).filter (fun n => decide (2 ≤ n) && (List.range 18).all (fun d => decide (d < 2 ∨ n = d ∨ n % d ≠ 0)))

/-- The constant of each round of SHA-256: from the cube root of its prime. -/
def shaK : List Nat := shaPrimes.map (rootWord 3)

/-- The starting words of SHA-256: from the square roots of the first eight primes. -/
def shaInit : List Nat := (shaPrimes.take 8).map (rootWord 2)

/-- The value of bytes with the first byte highest. -/
def beNat (bs : List Byte) : Nat := bs.foldl (fun a b => 256 * a + b.toNat) 0

/-- The `n` bytes of a value, highest first. -/
def beBytes (n v : Nat) : List Byte := (leBytes n v).reverse

/-- The sixteen words of a 64-byte block. -/
def shaWords (block : List Byte) : List Nat := (List.range 16).map (fun i => beNat (bytesAt block (4 * i) 4))

/-- The message schedule as it runs: the word of a round, and the window of the last sixteen words after it. -/
def shaNext (w : List Nat) : List Nat :=
  let x := w.getD 1 0
  let y := w.getD 14 0
  let s0 := rotr32 7 x ^^^ rotr32 18 x ^^^ (x / 8)
  let s1 := rotr32 17 y ^^^ rotr32 19 y ^^^ (y / 1024)
  w.drop 1 ++ [(w.getD 0 0 + s0 + w.getD 9 0 + s1) % 2 ^ 32]

/-- One round on the eight working words. -/
def shaRound (k w : Nat) (v : List Nat) : List Nat :=
  let a := v.getD 0 0
  let b := v.getD 1 0
  let c := v.getD 2 0
  let e := v.getD 4 0
  let s1 := rotr32 6 e ^^^ rotr32 11 e ^^^ rotr32 25 e
  let ch := (e &&& v.getD 5 0) ^^^ ((0xFFFFFFFF - e) &&& v.getD 6 0)
  let t1 := v.getD 7 0 + s1 + ch + k + w
  let s0 := rotr32 2 a ^^^ rotr32 13 a ^^^ rotr32 22 a
  let mj := (a &&& b) ^^^ (a &&& c) ^^^ (b &&& c)
  [(t1 + s0 + mj) % 2 ^ 32, a, b, c, (v.getD 3 0 + t1) % 2 ^ 32, e, v.getD 5 0, v.getD 6 0]

/-- The rounds of a block. -/
def shaRounds : List Nat → List Nat → List Nat → List Nat
  | [], _, v => v
  | k :: ks, w, v => shaRounds ks (shaNext w) (shaRound k (w.getD 0 0) v)

/-- One block taken in. -/
def shaBlock (h : List Nat) (block : List Byte) : List Nat :=
  (shaRounds shaK (shaWords block) h).zipWith (fun a b => (a + b) % 2 ^ 32) h

/-- A number of 64-byte blocks taken in, in order. -/
def shaBlocks : Nat → List Nat → List Byte → List Nat
  | 0, h, _ => h
  | n + 1, h, bs => shaBlocks n (shaBlock h (bs.take 64)) (bs.drop 64)

/-- A message with its padding: a one bit, zeros and the length in bits. -/
def shaPad (m : List Byte) : List Byte :=
  m ++ [0x80] ++ List.replicate ((119 - m.length % 64) % 64) 0 ++ beBytes 8 (8 * m.length)

/-- SHA-256 of a message. -/
def sha256 (m : List Byte) : Nat :=
  let p := shaPad m
  (shaBlocks (p.length / 64) shaInit p).foldl (fun a w => 2 ^ 32 * a + w) 0

/-- The prime of P-256. -/
def ecP : Nat := 0xffffffff00000001000000000000000000000000ffffffffffffffffffffffff
/-- The order of its base point. -/
def ecN : Nat := 0xffffffff00000000ffffffffffffffffbce6faada7179e84f3b9cac2fc632551
/-- Its coefficient b; a is -3. -/
def ecB : Nat := 0x5ac635d8aa3a93e7b3ebbd55769886bc651d06b0cc53b0f63bce3c3e27d2604b
/-- Its base point. -/
def ecG : Nat × Nat :=
  (0x6b17d1f2e12c4247f8bce6e563a440f277037d812deb33a0f4a13945d898c296,
   0x4fe342e2fe1a7f9b8ee7eb4a7c0f9e162bce33576b315ececbb6406837bf51f5)

/-- A power modulo `m`, of an exponent below 2 to the first argument. -/
def powMod (m : Nat) : Nat → Nat → Nat → Nat
  | 0, _, _ => 1
  | n + 1, b, e =>
    let r := powMod m n (b * b % m) (e / 2)
    if e % 2 = 1 then r * b % m else r

/-- The inverse modulo a prime of 256 bits. -/
def invMod (m a : Nat) : Nat := powMod m 256 (a % m) (m - 2)

/-- The sum of two points; none is the point at infinity. -/
def ecAdd : Option (Nat × Nat) → Option (Nat × Nat) → Option (Nat × Nat)
  | none, q => q
  | p, none => p
  | some p, some q =>
    if p.1 = q.1 ∧ (p.2 + q.2) % ecP = 0 then none
    else
      let l := if p.1 = q.1 then (3 * p.1 * p.1 + (ecP - 3)) * invMod ecP (2 * p.2) % ecP
        else (q.2 + ecP - p.2) * invMod ecP (q.1 + ecP - p.1) % ecP
      let x := (l * l + 2 * ecP - p.1 - q.1) % ecP
      some (x, (l * (p.1 + ecP - x) + ecP - p.2) % ecP)

/-- A multiple of a point, of a factor below 2 to the first argument. -/
def ecMul : Nat → Nat → Option (Nat × Nat) → Option (Nat × Nat)
  | 0, _, _ => none
  | n + 1, k, p =>
    let r := ecMul n (k / 2) (ecAdd p p)
    if k % 2 = 1 then ecAdd p r else r

/-- A point lies on the curve. -/
def onCurve (p : Nat × Nat) : Bool :=
  decide (p.1 < ecP ∧ p.2 < ecP ∧ p.2 * p.2 % ecP = (p.1 * p.1 * p.1 + (ecP - 3) * p.1 + ecB) % ecP)

/-- A signature r, s over a digest verifies under a public key (R71). -/
def ecdsaVerifies (digest : Nat) (key : Nat × Nat) (r s : Nat) : Bool :=
  onCurve key && decide (1 ≤ r ∧ r < ecN ∧ 1 ≤ s ∧ s < ecN) &&
    (let w := invMod ecN s
     match ecAdd (ecMul 256 (digest % ecN * w % ecN) (some ecG)) (ecMul 256 (r * w % ecN) (some key)) with
     | none => false
     | some p => decide (p.1 % ecN = r))

end Sys2Proof.Machine
end

