-- ==== Sys2Proof/Machine/FrontEnd.lean ====
section
/-! DEFINITION. The front-end commands: pulses, ports, FRAME mode, block upkeep and the calls of chapter 03. -/
namespace Sys2Proof.Machine

/-- A discriminator rises `ps` into the tick; `per` is the period in 1/128 ps of the ring it starts (R126, R151, R205). -/
def execDiscriminatorRise (pix ps per : Nat) (s : State) : Out :=
  event (pixelLive s pix && s.tc.strobe && (pulseAt s pix).isNone) (fun s =>
    let s := atPs ps s
    if blockMode s (pixBlock pix) = 2 then countRise pix (ps % 25000) per s else eventRise pix (ps % 25000) per s) s

/-- The frames of a port without the HIT frame of a pulse. -/
def withoutFrame (pix : Nat) (p : Pulse) (port : List PortFrame) : List PortFrame :=
  port.filter (fun f => match f with
    | .hit h => decide (h.rise ≠ p.rise ∨ h.prow ≠ pix / 1024 % 64 ∨ h.pcol ≠ pix % 1024 % 64)
    | .control _ _ _ _ _ => true)

/-- A ring has had no stop edge in 16,383 phases: the hit is discarded (R154, R204). -/
def execRingCountSaturated (pix : Nat) (s : State) : Out :=
  match pulseAt s pix with
  | none => .next s
  | some p => event (decide (p.timing ≠ .untimed) && p.seen.isNone && decide (stampDiff s.tc.now p.stop ≤ 0 ∨ !p.sent)) (fun s =>
      let k := pixBlock pix
      let s := reachHalf p (2 * p.ps + 16383 * p.per / 8192) s
      let s := modBlock k (fun x => { x with port := withoutFrame pix p x.port }) s
      let s := setPulse pix (some { p with sent := true }) (noteDiscard k 6 (localTick s k p.stop) s)
      let s := onFe (fun x => { x with ring := tput none (pixSp pix) none x.ring }) s
      raise 132 [] (tmStat k 5 s)) s

/-- A pulse after a range switch `ps` into the tick: before the clock is ready the ring count is latched, after it the
block-clock edges since the rise or since the hand-off (R103, R104, R161). -/
def switchPulse (s : State) (p : Pulse) (ps : Nat) : Pulse :=
  let h := halfPs s p ps
  let bridge := p.bridged && decide (p.timing = .ring) && p.hand.isNone
  { p with
    switched := true, blank := true, blankEnd := h + 3125, swBridge := bridge
    swTime := if bridge then 0 else match countStart p with
      | some a => min 255 (edgesBetween a h)
      | none => 0
    nswp := if bridge then min 1023 (ringPhases p h / 128) else 0 }

/-- The range of a pixel switches (R103). -/
def execRangeSwitch (pix ps : Nat) (s : State) : Out :=
  match pulseAt s pix with
  | none => .next s
  | some p => event (p.high && !p.switched && !p.sent && bit (blockAt s (pixBlock pix)).conf.mode.toNat 5) (fun s =>
      let s := atPs ps s
      setPulse pix (some (switchPulse s p ps)) s) s

/-- The blank after a range switch ends (R104). -/
def execRangeBlankEnd (pix : Nat) (s : State) : Out :=
  match pulseAt s pix with
  | none => .next s
  | some p => event p.blank (fun s => setPulse pix (some { p with blank := false }) (reachHalf p p.blankEnd s)) s

/-- A discriminator falls `ps` into the tick: its frame goes to the port (R105, R159, R201); a fall after two ToT saturations
is a STUCK condition (R128). -/
def execDiscriminatorFall (pix ps : Nat) (s : State) : Out :=
  match pulseAt s pix with
  | none => .next s
  | some p => event p.high (fun s =>
      let s := atPs ps s
      let h := halfPs s p ps
      let ambig := p.switched && decide (h < p.blankEnd)
      let nb := (p.hand.map (·.1)).getD (bridgeN p h)
      let s := if p.sent then s else deliverPulse pix p ambig h nb s
      let s := if longHigh s p then markStuck pix s else s
      let s := modBlock (pixBlock pix) (fun x => { x with lastEdge := s.tc.now }) s
      endBridge pix (setPulse pix (some { p with
        high := false, blank := false, sent := true, fell := some (ps % 25000, s.tc.now) }) s)) s

/-- When the ToT of a pulse reaches 0xFFF, in half picoseconds from the start of its rise tick (R157). -/
def totFull (p : Pulse) : Option Nat :=
  (countStart p).map (fun a => 3125 * (clockEdges (if p.switched then max a p.blankEnd else a) + 0xFFF))

/-- A ToT count reaches 0xFFF: the frame is sent (R157, R201). -/
def execTotSaturated (pix : Nat) (s : State) : Out :=
  match pulseAt s pix with
  | none => .next s
  | some p =>
    match totFull p with
    | none => .next s
    | some h => event (p.high && !p.sent && decide (h ≤ p.gatedAt.getD h)) (fun s =>
        let s := reachHalf p h s
        let f := frameOf s (pixBlock pix) pix p false 0xFFF ((p.hand.map (·.1)).getD 0)
        setPulse pix (some { p with sent := true }) (pushHit (pixBlock pix) f s)) s

/-- A pixel's dead time ends, 50 ns after its fall (R142). -/
def execPixelDeadTimeEnd (pix : Nat) (s : State) : Out :=
  match pulseAt s pix with
  | none => .next s
  | some p => event (!p.high) (fun s =>
      let s := match p.fell with
        | some (ps, t) => reachTick (t + BitVec.ofNat 64 ((ps + 50000) / 25000)) s
        | none => s
      setPulse pix none s) s

/-- A pulse that meets the clock-ready edge of its block: its ring hands off, its ToT count begins (R159, R206). -/
def handOff (s : State) (block : Nat) (e : Nat × Option Pulse) : Nat × Option Pulse :=
  match e.2 with
  | none => e
  | some p =>
    if pixBlock e.1 = block ∧ p.high ∧ p.bridged ∧ p.hand.isNone ∧ !p.sent then
      (e.1, some { p with hand := some (bridgeN p (halfTo p s.tc.now), s.tc.now) })
    else e

/-- A block clock that was started becomes ready on the next strobe edge, within 200 ns of the edge that has asked for it
(R158, R159). -/
def execBlockClockReady (block : Nat) (s : State) : Out :=
  match (blockAt s block).clockReq with
  | none => .next s
  | some (t, ps) => event (decide (blockMode s block ≠ 0) && decide (25000 * (stampDiff s.tc.now t + 1) ≤ 200000 + ps)) (fun s =>
      let s := advance 1 s
      let pix := (s.fe.pulse.filter (fun e => decide (pixBlock e.1 = block))).map (·.1)
      let s := onFe (fun x => { x with pulse := x.pulse.map (handOff s block) }) s
      let s := forAll pix endBridge s
      modBlock block (fun x => { x with clock := true, clockReq := none }) s) s

/-- A pulse whose block clock is gated: its count ends (R158). -/
def gatePulse (s : State) (block : Nat) (e : Nat × Option Pulse) : Nat × Option Pulse :=
  match e.2 with
  | none => e
  | some p => if pixBlock e.1 = block ∧ p.high then (e.1, some { p with gatedAt := some (halfTo p s.tc.now) }) else e

/-- A block clock is gated after 256 ticks without a discriminator edge in the block (R158). -/
def execBlockClockIdleGate (block : Nat) (s : State) : Out :=
  event ((blockAt s block).clock && !clockAlways s block) (fun s =>
    let s := reachTick ((blockAt s block).lastEdge + 256) s
    modBlock block (fun x => { x with clock := false }) (onFe (fun x => { x with pulse := x.pulse.map (gatePulse s block) }) s)) s

/-- A bridge saturates after 131,071 phases: the hit is delivered with ToT 0xFFF (R162). -/
def execBridgeSaturated (pix : Nat) (s : State) : Out :=
  match pulseAt s pix with
  | none => .next s
  | some p => event (p.high && !p.sent && p.bridged && p.hand.isNone && decide (p.timing = .ring)) (fun s =>
      let s := reachHalf p (2 * p.ps + 131071 * p.per / 8192 + 1) s
      let f := frameOf s (pixBlock pix) pix p false 0 131071
      let s := setPulse pix (some { p with sent := true }) (pushHit (pixBlock pix) f s)
      raise 133 (b1 (pixBlock pix)) (endBridge pix s)) s

/-- The oldest HIT frame of a port, and the port without it. -/
def popHit : List PortFrame → Option (HitFrame × List PortFrame)
  | [] => none
  | .hit h :: r => some (h, r)
  | f :: r => (popHit r).map (fun x => (x.1, f :: x.2))

/-- A record held more than 32,768 ticks in its block is discarded (R153, R204). -/
def execPortRecordAgeOut (block : Nat) (s : State) : Out :=
  match popHit (blockAt s block).port with
  | none => .next s
  | some (h, rest) => event (awake s) (fun s =>
      let s := reachTick (h.entered + 32769) s
      noteDiscard block 4 h.tickLo (modBlock block (fun x => { x with port := rest }) s)) s

/-- A PORT_LOSS frame covers the discards of one cause; a count that saturates leaves the rest to a further frame (R202,
R204); a held port is stopped (R237). -/
def execPortLossSend (block cause : Nat) (s : State) : Out :=
  match tget none (blockAt s block).discards cause with
  | none => .next s
  | some (n, a, b) => event (decide (portHits (blockAt s block) < 512) && [3, 4, 6].contains cause && !(blockAt s block).held) (fun s =>
      modBlock block (fun x => { x with
        port := pushControl (.control 4 cause (min 0xFFFF n) a b) x.port
        discards := tput none cause (if n ≤ 0xFFFF then none else some (n - 0xFFFF, a, b)) x.discards }) s) s

/-- A WATERMARK frame is sent: from an idle port whose watermark has advanced, or among hits (R202, R203). -/
def execWatermarkSend (block : Nat) (s : State) : Out :=
  let w := watermark s block
  let advanced := match (blockAt s block).lastMark with
    | none => true
    | some v => decide (0 < stampDiff w v)
  event (awake s && decide (block < 256) && !unlimited s block && (advanced || decide (0 < portHits (blockAt s block)))) (fun s =>
    modBlock block (fun x => { x with
      port := pushControl (.control 1 0 (localTick s block w) 0 0) x.port, lastMark := some w, sinceMark := 0 }) s) s

/-- A frame boundary (R24, R125, R127). -/
def execFrameBoundary (s : State) : Out :=
  event (awake s && s.tc.strobe && (List.range 256).all (fun k => (blockAt s k).readout.isNone)) frameBoundary s

/-- No bank waits that leaves the queue of a block's FRAME units before the block's own: by boundary, then by block number
(R235). -/
def frameIsNext (s : State) (block : Nat) (r : FrameBank) : Bool :=
  (List.range 256).all (fun k => match (blockAt s k).readout with
    | none => true
    | some x => decide (queueOf s (16 + k / 64) ≠ queueOf s (16 + block / 64)) || decide (tickAfter r.boundary x.boundary < 0)
      || (decide (r.boundary = x.boundary) && decide (block ≤ k)))

/-- The CRC-16 of a bank: 0x1021, initial value 0xFFFF, each word high byte first (R243). -/
def bankCrc (ws : List Nat) : Nat := crcMsb 16 0x1021 0xFFFF (ws.flatMap (fun w => [BitVec.ofNat 8 (w / 256), BitVec.ofNat 8 w]))

/-- A word of the port with bits flipped on the way. -/
def flipped (flips : List (Nat × BitVec 16)) (i w : Nat) : Nat :=
  flips.foldl (fun v f => if f.1 = i then (BitVec.ofNat 16 v ^^^ f.2).toNat else v) w

/-- What the assembler receives of a bank: words 1 and 2 of FRAME_END, the saturated counters and the CRC-16, and the
counters (R202, R243). Flip i below 4,096 strikes a counter, 4,096 the CRC of FRAME_END. -/
def bankReceived (flips : List (Nat × BitVec 16)) (r : FrameBank) : Nat × Nat × List Nat :=
  let vals := tslice 0 r.counts 0 4096
  let end_ := controlWords 3 0 ((vals.filter (fun v => decide (v = 0xFFFF))).length) (bankCrc vals) 0
  (end_.getD 1 0, flipped flips 4096 (end_.getD 2 0), vals.zipIdx.map (fun e => flipped flips e.2 e.1))

/-- The block frame count and the boundary's TICK_LO as FRAME_BEGIN carries them (R202, R243). -/
def bankBegin (s : State) (block : Nat) (r : FrameBank) : List Nat := controlWords 2 r.bank (localTick s block r.boundary) r.count 0

/-- A FRAME unit of a block is written into its queue (R235, R244, R401, R586). -/
def writeUnit (block : Nat) (r : FrameBank) (sat : Nat) (vals : List Nat) (poison : Bool) (s : State) : State :=
  let bytes := leBytes 8 (unitHeader 8192 sat 0 0 0 0 0 block ((bankBegin s block r).getD 2 0)) ++ vals.flatMap b2
  putFrame {
    src := 16 + block / 64, source := 0x10 + block / 64, kind := 3, tick := r.boundary
    cal := windowOverlaps s r.start (r.boundary - 1), fresh := true, bytes := fun _ => bytes, unit := 2, amount := 1 }
    1 poison s

/-- A bank becomes a FRAME unit in its queue after its readout of 16.4 us, poisoned on a CRC mismatch, or with its counters
open where it was discarded (R125, R235, R243, R244); a block that is being trimmed delivers none (R109). -/
def execFrameUnitAssemble (block : Nat) (flips : List (Nat × BitVec 16)) (s : State) : Out :=
  match (blockAt s block).readout with
  | none => .next s
  | some r => event (frameIsNext s block r) (fun s =>
      let s := modBlock block (fun x => { x with readout := none }) (reachTick (r.boundary + 656) s)
      if scanRuns s block 0x0206 then s
      else if r.bad then
        let (v, s) := drawNat s
        writeUnit block r (v % 4097) ((List.range 4096).map (fun i => v / 2 ^ (16 * i) % 65536)) true s
      else
        let (sat, crc, vals) := bankReceived flips r
        let poison := decide (bankCrc vals ≠ crc)
        writeUnit block r sat vals poison (raiseIf poison 201 [] s)) s

/-- The earliest effect tick of the waiting mode changes. -/
def modeEffectTick (s : State) : Option Stamp :=
  s.fe.pendingMode.foldl (fun (b : Option Stamp) e => match b with
    | none => some e.2.2
    | some t => if tickAfter e.2.2 t < 0 then some e.2.2 else some t) none

/-- The effect tick of a mode change (R121, R123). -/
def execFeModeEffect (s : State) : Out :=
  match modeEffectTick s with
  | none => .next s
  | some t => event (awake s) (fun s =>
      let s := reachTick t s
      let due := s.fe.pendingMode.filter (fun e => decide (e.2.2 = t))
      let s := onFe (fun x => { x with pendingMode := x.pendingMode.filter (fun e => decide (e.2.2 ≠ t)) }) s
      forAll due (fun e => modesEffect e.1 e.2.1 t) s) s

/-- The crab window that ends first ends: the module's, or that of a retest (R128 to R131). -/
def execCrabWindowEnd (s : State) : Out := event (awake s) (fun s => crabWindow (reachUp (crabDue s) s)) s

/-- A crab is unmasked for a retest window, its interval after its masking (R130). -/
def execCrabRetest (pix : Nat) (s : State) : Out :=
  match crabOf s pix with
  | none => .next s
  | some c => event (awake s && c.test.isNone) (fun s =>
      let s := reachUp (c.since + c.interval * ms 1000) s
      onFe (fun x => { x with crabs := x.crabs.map (fun c => if c.pix = pix then
        { c with test := some s.up, hits := 0, stuck := false } else c) }) s) s

/-- The lead cox sets LEAK_MAX of each block; the LEAK_SAT bits follow (R110 to R112). -/
def execLeakUpdate (sat : List Nat) (s : State) : Out :=
  event (awake s) (fun s => leakBits sat (forAll (List.range 256) leakBlock s)) s

/-- The configuration scrub (R136). -/
def execFeScrub (diffs : List FeDiff) (s : State) : Out :=
  event (awake s) (fun s => forAll ((List.range 256).filter (rowPowered s)) (scrubBlock diffs) s) s

/-- A sample of each block that is not OFF: those listed in mV, the others as before (R163). -/
def droopSamples (droop : List (Nat × Nat)) (s : State) : State :=
  forAll ((List.range 256).filter (fun k => decide (blockMode s k ≠ 0))) (fun k s =>
    droopSample k (((droop.find? (fun d => decide (d.1 = k))).map (·.2)).getD (samplesOf s k).1) s) s

/-- The next tick: the block registers are voted and rewritten, each correction counted and reported (R134); the droop
monitors take their samples on the strobe edge (R163 to R165). -/
def execFeTmrVote (upset : List TmrUpset) (droop : List (Nat × Nat)) (s : State) : Out :=
  event (awake s && s.tc.strobe) (fun s =>
    let s := advance 1 s
    let s := forAll (upset.filter (fun u => decide (u.block < 256) && rowPowered s u.block)) (fun u s =>
      forAll (List.range u.count) (fun _ => raise 65 []) (scrubAdd u.block 3 u.count s)) s
    droopSamples droop s) s

/-- A test-pulse step into the TP_EN pixels of the selected blocks (R113). -/
def execTpStep (s : State) : Out :=
  match s.fe.tp with
  | none => .next s
  | some j => event (awake s) (fun s =>
      let s := reachTick j.next s
      onFe (fun x => { x with
        lastTp := some (j.first, j.stream, j.next, j.block)
        tp := if j.left ≤ 1 then none
          else some { j with left := j.left - 1, next := j.next + BitVec.ofNat 64 j.period } }) s) s

/-- The effect tick of a mode change (R121, R123): 10 us ahead, or 100 us if a block leaves OFF, 1 ms more if a row powers
up, then the next frame boundary if a block enters or leaves FRAME. -/
def modeTick (s : State) (first : Nat) (bytes : List Byte) : Stamp :=
  let new := bytes.zipIdx.map (fun e => (first + e.2, e.1.toNat % 4))
  let leaves := new.any (fun e => decide (blockMode s e.1 = 0 ∧ e.2 ≠ 0))
  let powers := new.any (fun e => decide (e.2 ≠ 0) && !rowOn s (e.1 / 16))
  let frame := new.any (fun e => decide ((blockMode s e.1 = 2) ≠ (e.2 = 2)))
  let t := s.tc.now + BitVec.ofNat 64 ((if leaves then 4000 else 400) + (if powers then 40000 else 0))
  if frame then boundaryAfter s t else t

/-- FE_MODE_SET (R118, R121 to R124): a row that it sets out of OFF powers up at once. -/
def execFeModeSet (mb : Fin 8) (s : State) : Out :=
  call mb 0x0200 epd 3 (fun p s =>
    let first := p8 p 0
    let n := p8 p 1
    let bytes := bytesAt p 2 n
    let old := bytes.zipIdx.map (fun e => (first + e.2, (blockAt s (first + e.2)).conf.mode.toNat, e.1.toNat))
    need (decide (1 ≤ n ∧ n ≤ 224 ∧ first + n ≤ 256 ∧ bytes.length = n) && bytes.all modeByteOk) (fun s =>
      if old.any (fun e => (blockAt s e.1).scan.isSome) then refuse stBusy s
      else if old.any (fun e => decide (bit e.2.1 2 ≠ bit e.2.2 2 ∧ e.2.1 % 4 ≠ 0 ∧ e.2.2 % 4 ≠ 0)) then refuse stState s
      else
        let t := modeTick s first bytes
        okBytes (stampBytes t) (forAll (List.range 16) rowUpdate
          (onFe (fun x => { x with pendingMode := x.pendingMode ++ [(first, bytes, t)] }) s))) s) s

/-- FE_MODE_GET (R144). -/
def execFeModeGet (mb : Fin 8) (s : State) : Out :=
  call mb 0x0201 epd 2 (fun p s =>
    need (decide (1 ≤ p8 p 1 ∧ p8 p 1 ≤ 224 ∧ p8 p 0 + p8 p 1 ≤ 256)) (fun s =>
      okBytes ((List.range (p8 p 1)).map (fun i => (blockAt s (p8 p 0 + i)).conf.mode)) s) s) s

/-- FE_DAC_SET (R100, R135, R144). -/
def execFeDacSet (mb : Fin 8) (s : State) : Out :=
  call mb 0x0202 epd 4 (fun p s =>
    let bs := blocksNamed (p8 p 0)
    let d := p8 p 1
    need (decide (d ≤ 6 ∧ p16 p 2 < 2 ^ dacBits d)) (fun s =>
      let old := dacOf (blockAt s (bs.headD 0)).conf d
      okBytes (b2 old) (forAll bs (fun k => writeConf k (setDac d (p16 p 2))) s)) s) s

/-- FE_DAC_GET (R144). -/
def execFeDacGet (mb : Fin 8) (s : State) : Out :=
  call mb 0x0203 epd 1 (fun p s =>
    okBytes ((List.range 7).flatMap (fun d => b2 (dacOf (blockAt s (p8 p 0)).conf d))) s) s

/-- FE_PIXEL_WRITE (R102, R135): bit 7 is ignored. -/
def execFePixelWrite (mb : Fin 8) (s : State) : Out :=
  call mb 0x0204 epd 8 (fun p s =>
    let n := p16 p 4
    need (decide (1 ≤ n ∧ n ≤ 224 ∧ p32 p 0 + n ≤ 1048576 ∧ (bytesAt p 8 n).length = n)) (fun s =>
      okBytes [] (writePixels (tfill 0x10 (p32 p 0) ((bytesAt p 8 n).map (fun v => v &&& 0x7F))) s)) s) s

/-- FE_PIXEL_READ (R102, R144). -/
def execFePixelRead (mb : Fin 8) (s : State) : Out :=
  call mb 0x0205 epd 6 (fun p s =>
    let n := p16 p 4
    need (decide (1 ≤ n ∧ n ≤ 224 ∧ p32 p 0 + n ≤ 1048576)) (fun s =>
      okBytes ((List.range n).map (fun i =>
        pixelConf s (p32 p 0 + i) ||| (if tget false s.fe.leakSat (p32 p 0 + i) then 0x80 else 0))) s) s) s

/-- FE_TRIM_RUN (R109, R145). -/
def execFeTrimRun (mb : Fin 8) (s : State) : Out :=
  call mb 0x0206 pOrD 6 (fun p s =>
    scanCall 0x0206 p (decide (500 ≤ p16 p 2 ∧ p16 p 2 ≤ 6000 ∧ 10 ≤ p16 p 4 ∧ p16 p 4 ≤ 1000)) s) s

/-- FE_SCURVE (R115, R145): every amplitude of the sweep is a TP_AMP code. -/
def execFeScurve (mb : Fin 8) (s : State) : Out :=
  call mb 0x0207 pOrD 9 (fun p s =>
    scanCall 0x0207 p (decide (5 ≤ p8 p 6 ∧ p8 p 6 ≤ 64 ∧ p16 p 2 + (p8 p 6 - 1) * p16 p 4 < 4096 ∧ 1 ≤ p16 p 7)) s) s

/-- FE_SCAN_RESULT (R115, R144). -/
def execFeScanResult (mb : Fin 8) (s : State) : Out :=
  call mb 0x0208 epd 8 (fun p s =>
    let n := p16 p 6
    need (decide (1 ≤ n ∧ n ≤ 56 ∧ p32 p 2 + n ≤ 1048576 ∧ p16 p 0 ≠ 0 ∧ p16 p 0 = s.fe.scanJob)) (fun s =>
      okBytes ((tslice (0, 0) s.fe.scanRes (p32 p 2) n).flatMap (fun v => b2 v.1 ++ b2 v.2)) s) s) s

/-- FE_BUMP_TEST (R116, R145). -/
def execFeBumpTest (mb : Fin 8) (s : State) : Out :=
  call mb 0x0209 pOrD 2 (fun p s => scanCall 0x0209 p true s) s

/-- FE_BUMP_RESULT (R116). -/
def execFeBumpResult (mb : Fin 8) (s : State) : Out :=
  call mb 0x020A epd 6 (fun p s =>
    let n := p16 p 4
    need (decide (1 ≤ n ∧ n ≤ 224 ∧ p32 p 0 + n ≤ 1048576)) (fun s =>
      okBytes ((tslice 3 s.fe.bump (p32 p 0) n).flatMap b1) s) s) s

/-- FE_TP_INJECT (R113, R114): the first step is on the first tick at least 10 us later. -/
def execFeTpInject (mb : Fin 8) (s : State) : Out :=
  call mb 0x020B pOrD 9 (fun p s =>
    need (decide (p16 p 1 < 4096 ∧ p8 p 3 ≤ 31 ∧ 1 ≤ p16 p 4 ∧ 40 ≤ p16 p 6 ∧ p8 p 8 ≤ 1)) (fun s =>
      if s.fe.tp.isSome then refuse stBusy s
      else
        let t := s.tc.now + 400
        let s := forAll (blocksNamed (p8 p 0)) (fun k => writeConf k (setDac 6 (p16 p 1))) s
        let s := onHp (fun x => { x with tpFull := false }) s
        okBytes (stampBytes t) (onFe (fun x => { x with tp := some {
          block := p8 p 0, amp := p16 p 1, phase := p8 p 3, left := p16 p 4, period := p16 p 6, stream := p8 p 8
          first := t, next := t } }) s)) s) s

/-- An FE_CRAB value is acceptable (R143). -/
def crabConfOk (v : List Byte) : Bool :=
  decide (1 ≤ u16At v 5 ∧ u16At v 5 ≤ 1000 ∧ 1 ≤ u32At v 7 ∧ u32At v 7 ≤ 3600)

/-- FE_CRAB_CONFIG (R143). -/
def execFeCrabConfig (mb : Fin 8) (s : State) : Out :=
  call mb 0x020C epd 11 (fun p s => need (crabConfOk p) (fun s => ok (setCfg 0x0206 (bytesAt p 0 11) s)) s) s

/-- FE_CRAB_LIST (R146). -/
def execFeCrabList (mb : Fin 8) (s : State) : Out :=
  call mb 0x020D epd 2 (fun p s =>
    okBytes (b2 s.fe.crabs.length ++ ((s.fe.crabs.drop (p16 p 0)).take 19).flatMap (fun c =>
      b4 c.pix ++ b1 c.reason ++ b1 c.retests ++ b2 (epochOf c.masked % 65536) ++ b4 (tickOf c.masked % 2 ^ 32))) s) s

/-- An FE_LEAK entry is acceptable (R143). -/
def leakEntryOk (v : List Byte) : Bool := decide (byteAt v 5 ≤ 15 ∨ byteAt v 5 = 0xFF)

/-- FE_LEAK_CONFIG (R143). -/
def execFeLeakConfig (mb : Fin 8) (s : State) : Out :=
  call mb 0x020E epd 7 (fun p s =>
    need (leakEntryOk (bytesAt p 1 6)) (fun s => ok (setCfgEntry 0x0207 6 (p8 p 0) (bytesAt p 1 6) s)) s) s

/-- FE_FRAME_CONFIG (R125, R127). -/
def execFeFrameConfig (mb : Fin 8) (s : State) : Out :=
  call mb 0x020F epd 12 (fun p s =>
    let period := p32 p 0
    let start := stampAt p 4
    need (decide (657 ≤ period)) (fun s =>
      let b0 := boundaryAfter s (s.tc.now + 400)
      let first := boundaryFrom start period (b0 + 657)
      okBytes (stampBytes first) (onFe (fun x => { x with
        pendingFrame := x.pendingFrame.filter (fun e => decide (tickAfter e.2.2.1 b0 < 0)) ++ [(period, start, b0, first)] }) s)) s) s

/-- FE_CHARGE_CAL (R133, R145). -/
def execFeChargeCal (mb : Fin 8) (s : State) : Out :=
  call mb 0x0210 pOrD 2 (fun p s => scanCall 0x0210 p true s) s

/-- FE_CHARGE_READ (R140). -/
def execFeChargeRead (mb : Fin 8) (s : State) : Out :=
  call mb 0x0211 epd 1 (fun p s => okBytes ((chargeRecord s (p8 p 0)).flatMap b2) s) s

/-- FE_CHARGE_WRITE (R140). -/
def execFeChargeWrite (mb : Fin 8) (s : State) : Out :=
  call mb 0x0212 epd 67 (fun p s =>
    ok (modBlock (p8 p 0) (fun x => { x with
      charge := some ((List.range 33).map (fun i => p16 p (1 + 2 * i))), chargeNew := none }) s)) s

/-- FE_SCRUB_STATUS (R144): for all blocks, the passes of the most scrubbed block and the sums of the corrections. -/
def execFeScrubStatus (mb : Fin 8) (s : State) : Out :=
  call mb 0x0213 epdPri 1 (fun p s =>
    let bs := (blocksNamed (p8 p 0)).map (blockAt s)
    let sum (i : Nat) : Nat := bs.foldl (fun a x => statAdd a (tget 0 x.scrub i)) 0
    okBytes (b4 (bs.foldl (fun a x => max a (tget 0 x.scrub 0)) 0) ++ b4 (sum 1) ++ b4 (sum 2) ++ b4 (sum 3)) s) s

/-- FE_STATUS (R112, R144). -/
def execFeStatus (mb : Fin 8) (s : State) : Out :=
  call mb 0x0214 epdPri 1 (fun p s =>
    let k := p8 p 0
    let masks := (s.fe.pixel.filter (fun e => decide (pixBlock e.1 = k) && bit e.2.toNat 5)).length
    okBytes ([(blockAt s k).conf.mode] ++ b1 (biasOf s k) ++ b2 masks ++ b2 (crabCount s k) ++ b2 (leakCount s k)
      ++ b1 (bitNat (inBlockJob s k))) s) s

end Sys2Proof.Machine
end

