-- ==== Sys2Proof/Machine/HpOps.lean ====
section
/-! DEFINITION. The hit path's own logic: clusters, their borders and merging, gates, and the reorder stage (R208 to
R234). -/
namespace Sys2Proof.Machine

/-- The difference of two times in fine codes of 25 ns / 8192 (R148). -/
def fineDiff (a b : Stamp × Nat) : Int := stampDiff a.1 b.1 * 8192 + a.2 - b.2

/-- Two times lie within a number of ns. -/
def withinNs (w : Nat) (a b : Stamp × Nat) : Bool := decide ((fineDiff a b).natAbs * 25 ≤ w * 8192)

/-- Two times lie within a number of ps. -/
def withinPs (w : Nat) (a b : Stamp × Nat) : Bool := decide ((fineDiff a b).natAbs * 25000 ≤ w * 8192)

/-- The earlier of two times. -/
def earlier (a b : Stamp × Nat) : Stamp × Nat := if fineDiff b a < 0 then b else a

/-- The earliest of a list of times. -/
def earliest : List (Stamp × Nat) → Option (Stamp × Nat)
  | [] => none
  | t :: r => some (r.foldl earlier t)

/-- The time of a hit. -/
def hitAt (h : Hit) : Stamp × Nat := (h.tick, h.fine)

/-- The earliest ToA of members: of the timed ones, or of all where none is timed (R211). -/
def earliestToa (hs : List Hit) : Stamp × Nat :=
  match earliest ((hs.filter (fun h => !h.untimed)).map hitAt) with
  | some t => t
  | none => (earliest (hs.map hitAt)).getD (0, 0)

/-- A hit-path statistic of an engine increased (R247, R248). -/
def hpStat (n i : Nat) (s : State) : State :=
  let r := statBump (engineAt s n).stats (engineAt s n).statSat i 1
  satEvent 202 r.2.2 (modEngine n (fun x => { x with stats := r.1, statSat := r.2.1 }) s)

/-- WINDOW in ns, ENTRY_EN, ENTRY_TIE in ps (R246). -/
def clusterRules (s : State) : Nat × Bool × Nat := (u16At (hpCfg s 0x0401) 0, decide (byteAt (hpCfg s 0x0401) 2 = 1), byteAt (hpCfg s 0x0401) 3)

/-- Output setting of an engine: 0 CLUSTERS, 1 HITS, 2 BOTH (R246). -/
def outputOf (s : State) (n : Nat) : Nat := byteAt (hpCfg s 0x0402) n

/-- Two pixels are 8-adjacent. -/
def adjacent (a b : Nat × Nat) : Bool :=
  decide (((a.1 : Int) - b.1).natAbs ≤ 1 ∧ ((a.2 : Int) - b.2).natAbs ≤ 1 ∧ a ≠ b)

/-- The pixels of members. -/
def pixelsOf (hs : List Hit) : List (Nat × Nat) := hs.map (fun h => (h.row, h.col))

/-- A hit qualifies for a cluster of these pixels, earliest ToA and WINDOW (R212). -/
def qualifies (h : Hit) (pix : List (Nat × Nat)) (toa : Stamp × Nat) (w : Nat) : Bool :=
  pix.any (adjacent (h.row, h.col)) && withinNs w (hitAt h) toa

/-- The pixels of a cluster that its engine knows: its members', and those in the first row of the parts that EDGE_FRAGs
have brought. -/
def clusterPixels (c : Cluster) : List (Nat × Nat) := pixelsOf c.hits ++ c.parts.flatMap (·.2)

/-- The pixels of a cluster and its parts, counted (R210, R229). -/
def clusterSize (c : Cluster) : Nat := c.parts.foldl (fun a p => a + p.1.size) c.hits.length

/-- The earliest ToA of a cluster and its parts: a timed one before an untimed one (R211). -/
def clusterToa (c : Cluster) : Stamp × Nat :=
  let timed := c.hits.any (fun h => !h.untimed)
  let start := (earliestToa c.hits, timed)
  (c.parts.foldl (fun (a : (Stamp × Nat) × Bool) p =>
    let pt := !p.1.timed.isEmpty
    if a.2 = pt then (earlier a.1 p.1.toa, a.2) else if pt then (p.1.toa, true) else a) start).1

/-- A hit qualifies for an open cluster. -/
def joinsCluster (h : Hit) (c : Cluster) : Bool := qualifies h (clusterPixels c) (clusterToa c) c.rules.1

/-- A cluster with one more hit at a moment; SIZE_CAP from 64 pixels (R210). -/
def withHit (h : Hit) (at_ : Nat) (split : Bool) (c : Cluster) : Cluster :=
  { c with hits := c.hits ++ [h], joined := at_, split := c.split || split, sizeCap := c.sizeCap || decide (63 ≤ clusterSize c) }

/-- The cluster with the earlier ToA of two. -/
def earlierCluster (a b : Cluster) : Cluster := if fineDiff (clusterToa b) (clusterToa a) < 0 then b else a

/-- The cluster with the earliest ToA. -/
def earliestCluster : List Cluster → Option Cluster
  | [] => none
  | c :: r => some (r.foldl earlierCluster c)

/-- Clusters become one (R213). -/
def uniteClusters (c : Cluster) (ds : List Cluster) : Cluster :=
  ds.foldl (fun a d => { a with
    hits := a.hits ++ d.hits, parts := a.parts ++ d.parts, sizeCap := a.sizeCap || d.sizeCap, split := a.split || d.split
    frag := a.frag || d.frag }) c

/-- What a hit does to the open clusters (R212, R213): the list after it, and whether it opens a cluster, capped or not. -/
def joinClusters (h : Hit) (at_ : Nat) (split : Bool) (cs : List Cluster) : List Cluster × Option Bool :=
  let qs := cs.filter (joinsCluster h)
  match qs with
  | [] => (cs, some false)
  | c :: rest =>
    if rest ≠ [] ∧ (qs.foldl (fun a d => a + clusterSize d) 0) + 1 ≤ 64 then
      let u := withHit h at_ split (uniteClusters c rest)
      (cs.filterMap (fun d => if d = c then some u else if rest.contains d then none else some d), none)
    else
      let t := (earliestCluster qs).getD c
      let full := decide (64 ≤ clusterSize t)
      let capped := decide (rest ≠ []) || full
      (cs.map (fun d =>
        if d = t ∧ !full then { withHit h at_ split d with sizeCap := (withHit h at_ split d).sizeCap || capped }
        else if qs.contains d then { d with sizeCap := d.sizeCap || capped } else d),
       if full then some true else none)

/-- The words of a hit record with TICK_OFF zero (R209). -/
def hitWord (h : Hit) : Nat :=
  word [(54, h.row), (44, h.col), (15, h.fine), (3, h.tot), (2, bitNat h.range),
    (1, bitNat (if h.range then h.ambig else h.sat)), (0, bitNat h.extrap)]

/-- The gates let a record of an engine pass: OFF, or its time lies in a gate of a unit of the mask (R230). -/
def gatePasses (s : State) (n : Nat) (t : Stamp × Nat) : Bool :=
  if !gateDiscards s n then true
  else
    let x : Int := (t.1.toNat * 25 * 8192 + t.2 * 25 : Nat)
    (maskList 16 (u16At (hpCfg s 0x0404) (4 * n + 2))).any (fun u =>
      (unitAt s u).gates.any (fun g => decide (g.1 * 8192 ≤ x ∧ x ≤ g.2 * 8192)))

/-- The place of TICK_OFF in the first word of a record kind (R209, R210). -/
def offShift (kind : Nat) : Nat := if kind = 1 then 28 else 20

/-- A held record as a queue takes it (R354, R586). -/
def heldPut (s : State) (h : Held) (kind : Nat) (ws : List Nat) (late : Bool) : Put := {
  src := h.row, source := h.engine, kind := kind, tick := h.tick, cal := inWindow s h.tick, fresh := late
  bytes := fun off => leBytes 8 (ws.headD 0 + off * 2 ^ offShift kind) ++ (ws.drop 1).flatMap (leBytes 8)
  unit := if kind = 1 then 0 else 1, amount := 1 }

/-- A record leaves the reorder stage for its queue (R230, R231, R234, R239, R646). -/
def passHeld (q : Nat) (late : Bool) (h : Held) (s : State) : State :=
  match h.body with
  | .loss l => putLossRecord h.row h.engine l (modLossQ q (fun x => { x with lastPassed := some h.tick }) s)
  | .words kind ws =>
    if gatePasses s h.engine (h.tick, h.fine) then
      putRecord (heldPut s h kind ws late) (onHp (fun x => { x with released := tput none h.row (some h.tick) x.released })
        (modLossQ q (fun x => { x with lastPassed := some h.tick }) s))
    else hpStat h.engine 7 s

/-- The moment at which what enters a reorder stage now has been held REORDER (R233). -/
def reorderDue (s : State) : Nat := s.up + divUp (reorderNs s) 25

/-- A record enters the list of held ones, after those not later than it. -/
def insertHeld (h : Held) : List Held → List Held
  | [] => [h]
  | x :: r => if fineDiff (h.tick, h.fine) (x.tick, x.fine) < 0 then h :: x :: r else x :: insertHeld h r

/-- A record comes to the reorder stage of its queue; a late one is released at once (R233, R234). -/
def offer (h : Held) (s : State) : State :=
  match queueOf s h.row with
  | none => bbStat 0 10 1 s
  | some q =>
    match (lossQAt s q).lastPassed with
    | some t =>
      if stampDiff h.tick t < 0 then passHeld q true h (raise 200 (b1 q) (hpStat h.engine 6 s))
      else modLossQ q (fun x => { x with held := insertHeld h x.held }) s
    | none => modLossQ q (fun x => { x with held := insertHeld h x.held }) s

/-- A loss comes to the reorder stage: one of its cause, source and unit that is held there is added to it (R239, R240). -/
def offerLoss (row engine : Nat) (l : Loss) (s : State) : State :=
  let same (h : Held) : Bool := match h.body with
    | .loss x => decide (x.cause = l.cause ∧ x.unit = l.unit ∧ x.source = l.source)
    | .words _ _ => false
  let q := (queueOf s row).getD 16
  let old := (lossQAt s q).held.filterMap (fun h => match h.body with
    | .loss x => if same h then some x else none
    | .words _ _ => none)
  let l := old.foldl (fun l x => (addLoss l [x]).headD l) l
  let s := if old = [] then s else modLossQ q (fun x => { x with held := x.held.filter (fun h => !same h) }) s
  offer { row := row, engine := engine, tick := l.first, fine := 0, body := .loss l, due := reorderDue s } s

/-- The earliest held record of a queue is due and cannot go on: its engine must wait for room (R233, R242, R358). -/
def headStalls (s : State) (q : Nat) : Bool :=
  match (lossQAt s q).held with
  | [] => false
  | h :: _ => decide (h.due ≤ s.up) && match h.body with
    | .words kind ws => gatePasses s h.engine (h.tick, h.fine) && putStalls s (heldPut s h kind ws false)
    | .loss _ => false

/-- The processing of an engine that serves a block row is stalled by the queue the row feeds (R242). -/
def engineStalls (s : State) (row : Nat) : Bool :=
  match queueOf s row with
  | some q => headStalls s q
  | none => false

/-- The processing of an engine is stalled by a queue that a row it serves feeds (R242). -/
def engineStalled (s : State) (n : Nat) : Bool := (List.range 16).any (fun r => bit (servedRows s n) r && engineStalls s r)

/-- The input buffer of the engine of a block row is full: it reads no port (R242). -/
def inBufFull (s : State) (row : Nat) : Bool := decide (4096 ≤ (engineAt s (engineOf s row)).inBuf.length)

/-- The tile sides pixels lie on, with their along-edge coordinates (R222). -/
def edgePixels (pix : List (Nat × Nat)) : List (Nat × Nat) :=
  pix.flatMap (fun p =>
    (if p.1 = 0 then [(0, p.2)] else []) ++ (if p.2 = 1023 then [(1, p.1)] else []) ++
    (if p.1 = 1023 then [(2, p.2)] else []) ++ (if p.2 = 0 then [(3, p.1)] else []))

/-- The own members of a cluster as it closes (R211, R217). -/
def ownForm (n : Nat) (c : Cluster) : Closed :=
  let hs := c.hits
  let timed := hs.filter (fun h => !h.untimed)
  let sum (f : Hit → Int) : Int := hs.foldl (fun a h => a + f h) 0
  let r (h : Hit) : Int := 16 * h.row + 8
  let k (h : Hit) : Int := 16 * h.col + 8
  let any (f : Hit → Bool) (i : Nat) : Nat := bitNat (hs.any f) * 2 ^ i
  { row := (hs.map (fun h => h.row / 64)).foldl min 15
    engine := n, size := hs.length, n := hs.length
    q := hs.foldl (fun a h => a + h.q) 0
    qr := sum (fun h => h.q * r h), qc := sum (fun h => h.q * k h), ur := sum r, uc := sum k
    toa := earliestToa hs
    timed := timed.map (fun h => (h.row, h.col, h.tick, h.fine))
    flags := BitVec.ofNat 6 (any (·.range) 0 + any (·.ambig) 1 + any (·.sat) 2
      + bitNat (timed.isEmpty || timed.any (·.extrap)) * 8 + bitNat c.sizeCap * 16 + bitNat c.split * 32)
    frag := c.frag, edges := edgePixels (pixelsOf hs), rules := c.rules, out := c.out }

/-- Two parts of a cluster joined (R211, R227): the first part's row, engine and rules. -/
def joinClosed (a b : Closed) : Closed :=
  let at_ := !a.timed.isEmpty
  let bt := !b.timed.isEmpty
  let extrap := (at_ && bit a.flags.toNat 3) || (bt && bit b.flags.toNat 3) || (!at_ && !bt)
  let rest := (a.flags ||| b.flags) &&& 0x37
  { a with
    size := a.size + b.size, n := a.n + b.n, q := a.q + b.q, qr := a.qr + b.qr, qc := a.qc + b.qc
    ur := a.ur + b.ur, uc := a.uc + b.uc
    toa := if at_ = bt then earlier a.toa b.toa else if at_ then a.toa else b.toa
    timed := a.timed ++ b.timed
    flags := if extrap then rest ||| 8 else rest
    frag := a.frag || b.frag }

/-- A cluster as it closes: its members and the parts it has been joined with (R211, R217, R219). -/
def closeForm (n : Nat) (c : Cluster) : Closed :=
  let j := c.parts.foldl (fun a p => joinClosed a p.1) (ownForm n c)
  { j with edges := edgePixels (clusterPixels c) }

/-- The centroid in 1/16 pixel: row and column, halves rounded up (R211). -/
def centroid (c : Closed) : Int × Int :=
  if c.q = 0 then (divRound c.ur (max 1 c.n), divRound c.uc (max 1 c.n)) else (divRound c.qr c.q, divRound c.qc c.q)

/-- How far a centroid coordinate lies beyond the tile (R227). -/
def beyond (v : Int) : Nat := if v < 0 then (-v).toNat else (v - 16383).toNat

/-- The squared distance of a pixel from a centroid in 1/16 pixel. -/
def distance2 (cr cc : Int) (p : Int × Int) : Int :=
  let a := 16 * p.1 + 8 - cr
  let b := 16 * p.2 + 8 - cc
  a * a + b * b

/-- The farther of two pixels from the centroid, then the lower address (R217). -/
def fartherPixel (cr cc : Int) (a b : Int × Int) : Int × Int :=
  let da := distance2 cr cc a
  let db := distance2 cr cc b
  if da < db ∨ (da = db ∧ 1024 * b.1 + b.2 < 1024 * a.1 + a.2) then b else a

/-- The entry pixel: the timed member with the earliest time, or the farthest from the centroid of those within ENTRY_TIE
of it (R217). -/
def entryPixel (c : Closed) : Option (Int × Int) :=
  match c.rules.2.1, earliest (c.timed.map (fun t => t.2.2)) with
  | true, some t0 =>
    let near := (c.timed.filter (fun t => withinPs c.rules.2.2 t.2.2 t0)).map (fun t => (t.1, t.2.1))
    match near with
    | [] => none
    | p :: r => some (r.foldl (fartherPixel (centroid c).1 (centroid c).2) p)
  | _, _ => none

/-- The two words of a cluster record with TICK_OFF zero (R210). -/
def clusterWords (c : Closed) : List Nat :=
  let (r, k) := centroid c
  let cr := clampInt 0 16383 r
  let cc := clampInt 0 16383 k
  let gap := if c.merged then min 2047 (max (beyond r) (beyond k)) else 0
  let entry := (entryPixel c).map (fun p => (p.1 - cr / 16, p.2 - cc / 16))
  let valid := match entry with
    | some d => decide (-64 ≤ d.1 ∧ d.1 ≤ 63 ∧ -64 ≤ d.2 ∧ d.2 ≤ 63)
    | none => false
  let d := if valid then entry.getD (0, 0) else (0, 0)
  let f := c.flags.toNat
  [word [(50, cr.toNat), (36, cc.toNat), (7, c.toa.2), (1, min 63 (c.size - 1)), (0, bitNat valid)],
   word [(44, min 0xFFFFF (divRoundNat c.q (16 * qUnit))), (37, unsigned 7 d.1), (30, unsigned 7 d.2), (29, bitNat c.frag),
    (28, bitNat (bit f 0)), (27, bitNat (bit f 1)), (26, bitNat (bit f 2)), (25, bitNat (bit f 3)), (24, bitNat (bit f 4)),
    (23, bitNat (bit f 5)), (22, bitNat c.merged), (18, c.edge.toNat), (17, bitNat c.half), (6, gap)]]

/-- A count of a tile side increased (R247). -/
def sideCount (sd i : Nat) (s : State) : State := modMside sd (fun x => { x with counts := tmod 0 i (satAdd stat32 1) x.counts }) s

/-- A closed cluster is emitted by its engine (R208, R218). -/
def emitCluster (c : Closed) (s : State) : State :=
  if c.out = 1 then s
  else
    let n := c.engine
    let s := hpStat n 3 s
    let s := when (bit c.flags.toNat 4) (hpStat n 4) s
    let s := when (bit c.flags.toNat 5) (hpStat n 5) s
    let s := when c.frag (fun s => forAll (maskList 4 c.edge.toNat) (fun sd => sideCount sd 3) s) s
    offer { row := c.row, engine := n, tick := c.toa.1, fine := c.toa.2, body := .words 2 (clusterWords c), due := reorderDue s } s

/-- A cluster with SIZE_CAP. -/
def capped (c : Closed) : Closed := { c with flags := c.flags ||| 16 }

/-- A cluster with FRAG and the EDGE bits of sides. -/
def fragged (sides : Nat) (c : Closed) : Closed := { c with frag := true, edge := c.edge ||| BitVec.ofNat 4 sides }

/-- Two clusters match across an edge: along-edge coordinates that differ by at most 1, ToAs within WINDOW (R224). -/
def edgesMatch (a b : List Nat) (ta tb : Stamp × Nat) (w : Nat) : Bool :=
  a.any (fun x => b.any (fun y => decide (((x : Int) - y).natAbs ≤ 1))) && withinNs w ta tb

/-- The along-edge coordinates of a closed cluster on a side. -/
def alongEdge (c : Closed) (sd : Nat) : List Nat := (c.edges.filter (fun e => decide (e.1 = sd))).map (·.2)

/-- An EDGE_FRAG as bytes (R229). -/
def edgeFragBytes (id sd : Nat) (c : Closed) : List Byte :=
  let es := alongEdge c sd
  let first := es.foldl min 0xFFFF
  let pix := match earliest (c.timed.map (fun t => t.2.2)) with
    | some t0 => match c.timed.find? (fun t => decide (t.2.2 = t0)) with
      | some t => (1024 * t.1 + t.2.1).toNat
      | none => 0xFFFFFFFF
    | none => 0xFFFFFFFF
  [0x21] ++ b1 c.flags.toNat ++ b2 id ++ b1 c.size ++ b1 sd ++ b2 first ++ b8 (maskOf 64 (fun k => es.contains (first + k)))
    ++ stampBytes c.toa.1 ++ b2 c.toa.2 ++ b4 pix ++ b2 0 ++ b4 (min stat32 (divRoundNat c.q qUnit))
    ++ leBytes 6 (divRound c.qr qUnit).toNat ++ leBytes 6 (divRound c.qc qUnit).toNat

/-- A MERGE_REPLY as bytes (R229). -/
def mergeReplyBytes (id result : Nat) : List Byte := [0x22] ++ b1 result ++ b2 id ++ b4 0

/-- A merge message goes to the partner of a side, in TC2 (R229, R471). -/
def sendMerge (sd : Nat) (m : List Byte) (s : State) : State := modSlink sd (fun x => { x with out := x.out ++ [(2, 0x20, m)] }) s

/-- A packet received on a side link is counted (R474). -/
def slPacketIn (sd : Nat) (s : State) : State := modSlink sd (fun x => { x with counts := tmod 0 1 (satAdd stat32 1) x.counts }) s

/-- GAP in pixels (R246). -/
def gapPixels (s : State) : Nat := cfg8 s 0x0405 1

/-- Where a side's partner lies in the own frame: rows and columns added to its pixels (R224). -/
def partnerOffset (s : State) (sd : Nat) : Int × Int :=
  let d : Int := 1024 + gapPixels s
  match sd with
  | 0 => (-d, 0)
  | 1 => (0, d)
  | 2 => (d, 0)
  | _ => (0, -d)

/-- What an EDGE_FRAG says of a cluster whose sender's frame lies at an offset (R224, R229). -/
def fragAt (o : Int × Int) (f : EdgeFrag) : Closed :=
  let q := f.q * qUnit
  { row := 0, engine := 0, size := f.size, n := 0, q := q
    qr := f.qr * qUnit + 16 * o.1 * q, qc := f.qc * qUnit + 16 * o.2 * q, ur := 0, uc := 0
    toa := (f.toa, f.fine)
    timed := if 1048576 ≤ f.pixel then [] else [((f.pixel / 1024 : Nat) + o.1, (f.pixel % 1024 : Nat) + o.2, f.toa, f.fine)]
    flags := f.flags }

/-- The along-edge coordinates of an EDGE_FRAG (R229). -/
def fragEdge (f : EdgeFrag) : List Nat := (maskList 64 f.edgeMask.toNat).map (fun k => f.edgeFirst + k)

/-- A fragment received over a side, in the own frame (R224, R229). -/
def fragClosed (s : State) (sd : Nat) (f : EdgeFrag) : Closed :=
  { fragAt (partnerOffset s sd) f with edges := (fragEdge f).map (fun e => (sd, e)) }

/-- An EDGE_FRAG read from its bytes (R229). -/
def readFrag (v : List Byte) : EdgeFrag := {
  flags := BitVec.ofNat 6 (byteAt v 1), fragId := u16At v 2, size := byteAt v 4, side := byteAt v 5, edgeFirst := u16At v 6
  edgeMask := BitVec.ofNat 64 (uAt 8 v 8), toa := stampAt v 16, fine := u16At v 24 % 8192, pixel := u32At v 26
  q := u32At v 32, qr := uAt 6 v 36, qc := uAt 6 v 42 }

/-- A fragment and a kept cluster of a side match (R224). -/
def fragMatches (sd : Nat) (f c : Closed) : Bool := edgesMatch (alongEdge c sd) (alongEdge f sd) c.toa f.toa c.rules.1

/-- The kept cluster with the earliest ToA that a fragment matches (R224). -/
def matchKept (sd : Nat) (f : Closed) (ks : List Merge) : Option Merge :=
  (ks.filter (fun k => fragMatches sd f k.cluster)).foldl (fun (b : Option Merge) k => match b with
    | none => some k
    | some m => if fineDiff k.cluster.toa m.cluster.toa < 0 then some k else some m) none

/-- A fragment meets a kept cluster: MERGED, or REFUSED_SIZE above 64 pixels (R225 to R227). -/
def meetFragment (sd id : Nat) (f : Closed) (k : Merge) (s : State) : State :=
  if k.cluster.size + f.size ≤ 64 then
    let j := { joinClosed k.cluster f with merged := true, edge := k.cluster.edge ||| BitVec.ofNat 4 (2 ^ sd) }
    let j := if 64 ≤ j.size then capped j else j
    let s := modMside sd (fun x => { x with kept := x.kept.map (fun m => if m = k then { m with cluster := j } else m) }) s
    sendMerge sd (mergeReplyBytes id 0) (sideCount sd 2 s)
  else
    let s := modMside sd (fun x => { x with kept := x.kept.filter (fun m => decide (m ≠ k)) }) s
    sendMerge sd (mergeReplyBytes id 2) (emitCluster (fragged (2 ^ sd) (capped k.cluster)) s)

/-- A fragment arrives at the owner of a side (R225). -/
def fragArrives (sd id : Nat) (f : Closed) (s : State) : State :=
  let s := sideCount sd 1 s
  match matchKept sd f (msideAt s sd).kept with
  | some k => meetFragment sd id f k s
  | none => modMside sd (fun x => { x with
      waiting := x.waiting ++ [{ id := id, cluster := f, order := x.order, since := s.up }], order := x.order + 1 }) s

/-- A closed edge cluster is kept by the owner of a side; fragments that wait are matched with it (R225). -/
def keepCluster (sd : Nat) (c : Closed) (s : State) : State :=
  let x := msideAt s sd
  let s := modMside sd (fun x => { x with
    kept := x.kept ++ [{ id := x.nextId, cluster := c, order := x.order, since := s.up }]
    nextId := (x.nextId + 1) % 65536, order := x.order + 1 }) s
  forAll (x.waiting.filter (fun w => fragMatches sd w.cluster c)) (fun w s =>
    match matchKept sd w.cluster (msideAt s sd).kept with
    | none => s
    | some k =>
      meetFragment sd w.id w.cluster k (modMside sd (fun x => { x with waiting := x.waiting.filter (fun m => decide (m ≠ w)) }) s)) s

/-- A closed edge cluster is sent to the owner of a side as an EDGE_FRAG and held (R225). -/
def sendFragment (sd : Nat) (c : Closed) (s : State) : State :=
  let id := (msideAt s sd).nextId
  let s := modMside sd (fun x => { x with
    sent := x.sent ++ [{ id := id, cluster := c, order := x.order, since := s.up }], nextId := (x.nextId + 1) % 65536, order := x.order + 1 }) s
  sendMerge sd (edgeFragBytes id sd c) (sideCount sd 0 s)

/-- The halves emit fragments across rows 7 and 8 (R220) until the tick from which merging resumes (R635). -/
def fragHalf (s : State) : Bool :=
  s.hp.halfFrag && !(match s.red.resume with
    | some t => reached s t
    | none => false)

/-- The merge state of a side for an engine: LOST for the engines of the other half while the crosslink is lost with both
halves healthy (R222, R472). -/
def sideStateFor (s : State) (sd n : Nat) : Nat :=
  let st := (msideAt s sd).state
  if fragHalf s ∧ st = 2 ∧ holder s (4 + sd) ≠ some (Half.ofCode (n / 8)) then 3 else st

/-- A closed cluster goes to the tile sides it touches, or out (R222, R225, R228). -/
def routeClosed (c : Closed) (s : State) : State :=
  let sides := (List.range 4).filter (fun sd => !(alongEdge c sd).isEmpty)
  let st (sd : Nat) : Nat := sideStateFor s sd c.engine
  let cut := sides.any (fun sd => decide (st sd = 3 ∧ (msideAt s sd).state = 2))
  let s := raiseIf cut 416 [] s
  match sides with
  | [] => emitCluster c s
  | [sd] =>
    if st sd = 3 then emitCluster (fragged (2 ^ sd) c) s
    else if st sd = 2 then (if (msideAt s sd).owner then keepCluster sd c s else sendFragment sd c s)
    else emitCluster c s
  | _ =>
    if sides.any (fun sd => decide (st sd = 2 ∨ st sd = 3)) then emitCluster (fragged (maskOf 4 (fun sd => sides.contains sd)) c) s
    else emitCluster c s

/-- The lowest block row of a cluster. -/
def clusterRow (c : Cluster) : Nat := (c.hits.map (fun h => h.row / 64)).foldl min 15

/-- The engine above that owns a cluster with a pixel in its first row, and that border row (R219 to R221); none across
rows 7 and 8 while the crosslink is lost. -/
def ownerAbove (s : State) (n : Nat) (c : Cluster) : Option (Nat × Nat) :=
  let r := clusterRow c
  if r = 0 ∨ !(c.hits.any (fun h => decide (h.row = 64 * r))) then none
  else
    let o := engineOf s (r - 1)
    if o = n ∨ (fragHalf s ∧ r = 8) then none else some (o, r)

/-- The columns of a cluster in a pixel row. -/
def columnsIn (c : Cluster) (row : Nat) : List Nat := (c.hits.filter (fun h => decide (h.row = row))).map (·.col)

/-- Two open clusters match across the border above block row `r` (R219, R224). -/
def borderMatch (r : Nat) (above below : Cluster) : Bool :=
  edgesMatch (columnsIn above (64 * r - 1)) (columnsIn below (64 * r)) (clusterToa above) (clusterToa below) above.rules.1

/-- A cluster is cut at block rows 7 and 8 while the crosslink is lost (R220, log 41). -/
def halfCut (s : State) (c : Cluster) : Bool :=
  fragHalf s && c.hits.any (fun h => decide (h.row = 511 ∨ h.row = 512))

/-- Footprints older than REORDER are forgotten (R216). -/
def pruneprints (s : State) (ps : List Print) : List Print := ps.filter (fun p => decide (25 * (s.up - p.closed) ≤ reorderNs s))

/-- A cluster leaves the open ones of its engine and its footprint is kept (R216). -/
def takeCluster (n : Nat) (c : Cluster) (s : State) : State :=
  modEngine n (fun x => { x with
    clusters := x.clusters.erase c
    prints := { pixels := clusterPixels c, toa := clusterToa c, window := c.rules.1, closed := s.up } :: pruneprints s x.prints }) s

/-- The EDGE_FRAG that the engine below the border of block row `r` sends for a cluster: its edge is the row's first pixel
row, SIDE north (R219, R229). -/
def borderFrag (n r id : Nat) (c : Cluster) : List Byte :=
  edgeFragBytes id 0 { closeForm n c with edges := (columnsIn c (64 * r)).map (fun k => (0, k)) }

/-- The part an EDGE_FRAG from below the border of block row `r` brings, with its pixels in that row (R219, R229). -/
def borderPart (r : Nat) (f : EdgeFrag) : Closed × List (Nat × Nat) :=
  (fragAt (0, 0) f, (fragEdge f).map (fun k => (64 * r, k)))

/-- An open cluster of the owner matches an EDGE_FRAG from below the border of block row `r` (R219, R224). -/
def takesFrag (r : Nat) (f : EdgeFrag) (d : Cluster) : Bool :=
  edgesMatch (columnsIn d (64 * r - 1)) (fragEdge f) (clusterToa d) (f.toa, f.fine) d.rules.1

/-- An open cluster with the part of an EDGE_FRAG. -/
def withPart (r : Nat) (f : EdgeFrag) (now : Nat) (d : Cluster) : Cluster :=
  { d with
    parts := d.parts ++ [borderPart r f], joined := now
    sizeCap := d.sizeCap || bit f.flags.toNat 4 || decide (64 ≤ clusterSize d + f.size), split := d.split || bit f.flags.toNat 5 }

/-- The owner takes an EDGE_FRAG that came over an engine link or the crosslink, and answers it with a MERGE_REPLY: MERGED
with the matching cluster of the earliest ToA, REFUSED_SIZE above 64 pixels, else NO_MATCH (R219, R220, R224, R226, R229). -/
def ownerTakes (o r : Nat) (msg : List Byte) (s : State) : List Byte × State :=
  let f := readFrag msg
  match earliestCluster ((engineAt s o).clusters.filter (takesFrag r f)) with
  | none => (mergeReplyBytes f.fragId 1, s)
  | some d =>
    let (res, u) := if clusterSize d + f.size ≤ 64 then (0, withPart r f s.up d) else (2, { d with frag := true, sizeCap := true })
    (mergeReplyBytes f.fragId res, modEngine o (fun x => { x with clusters := x.clusters.map (fun e => if e = d then u else e) }) s)

/-- A closed cluster is emitted, or goes to a tile side; one cut at block rows 7 and 8 carries FRAG and HALF, with EV_199
(R220, R225). -/
def emitClosed (n : Nat) (c : Cluster) (s : State) : State :=
  if halfCut s c then routeClosed { closeForm n c with frag := true, half := true } (raise 199 [] s)
  else routeClosed (closeForm n c) s

/-- A cluster closes: where it has a pixel in its first row its engine sends the owner above an EDGE_FRAG and follows the
reply, MERGED discarding it; else it is emitted (R214, R219, R220, R226, R229). One that a merge has refused for its size
is emitted and offered no more (R226). -/
def closeCluster (n : Nat) (c : Cluster) (s : State) : State :=
  let s := takeCluster n c s
  match if c.frag then none else ownerAbove s n c with
  | none => emitClosed n c s
  | some (o, r) =>
    let id := (engineAt s n).nextFrag
    let s := modEngine n (fun x => { x with nextFrag := (x.nextFrag + 1) % 65536 }) s
    let (reply, s) := ownerTakes o r (borderFrag n r id c) s
    match byteAt reply 1 with
    | 0 => s
    | 1 => emitClosed n c s
    | _ => emitClosed n { c with frag := true, sizeCap := true } s

/-- The blocks that hold a member or are 8-adjacent to one (R214); the own half's only while the crosslink is lost
(R220). -/
def clusterBlocks (s : State) (n : Nat) (c : Cluster) : List Nat :=
  let all := (clusterPixels c).flatMap (fun p => blockOf p.1 p.2 :: (neighbours (1024 * p.1 + p.2)).map pixBlock)
  let own := if fragHalf s then all.filter (fun b => decide (b / 128 = n / 8)) else all
  own.eraseDups

/-- tick(t0 + WINDOW) + 1 (R214). -/
def closeTick (c : Cluster) : Stamp :=
  let t := clusterToa c
  t.1 + BitVec.ofNat 64 ((t.2 * 25 + c.rules.1 * 8192) / (25 * 8192) + 1)

/-- The watermarks let a cluster close (R203, R214). -/
def watermarksMet (s : State) (n : Nat) (c : Cluster) : Bool :=
  (clusterBlocks s n c).all (fun b => unlimited s b || match tget none s.hp.mark b with
    | none => false
    | some w => decide (0 ≤ stampDiff w (closeTick c + BitVec.ofNat 64 (walkTicks s b))))

/-- No open cluster of the engine below waits to join this one (R219). -/
def nothingBelow (s : State) (n : Nat) (c : Cluster) : Bool :=
  (List.range 16).all (fun m => decide (m = n) || (engineAt s m).clusters.all (fun d =>
    match ownerAbove s m d with
    | some (o, r) => !(decide (o = n) && borderMatch r c d)
    | none => true))

/-- A hit joins or opens a cluster; the 257th closes the one with the earliest ToA first (R212 to R216). -/
def joinHit (n : Nat) (h : Hit) (s : State) : State :=
  let s := modEngine n (fun x => { x with prints := pruneprints s x.prints }) s
  let split := (engineAt s n).prints.any (fun p => qualifies h p.pixels p.toa p.window)
  let (cs, opens) := joinClusters h s.up split (engineAt s n).clusters
  let s := modEngine n (fun x => { x with clusters := cs }) s
  match opens with
  | none => s
  | some cap =>
    let s := if 256 ≤ cs.length then
        match earliestCluster cs with
        | some c => closeCluster n c s
        | none => s
      else s
    modEngine n (fun x => { x with clusters := x.clusters ++ [{
      hits := [h], sizeCap := cap, split := split, rules := clusterRules s, out := outputOf s n, joined := s.up }] }) s

/-- The state of a side from its setting and its link (R222): OFF, LOST for a refused partner, ACTIVE with a partner that
offers merging, else NONE. -/
def sideFrom (s : State) (sd : Nat) : Nat :=
  let l := slinkAt s sd
  if !bit (cfg8 s 0x0405 0) sd then 0
  else if l.refused then 3
  else if l.state = 4 then (if bit l.hello.1 8 then 2 else 1)
  else if (msideAt s sd).state = 3 then 3 else 1

/-- What a merge side holds when it is no longer ACTIVE: held and kept clusters go out with FRAG and its EDGE bit
(R222). -/
def sideEnds (sd : Nat) (s : State) : State :=
  let x := msideAt s sd
  let s := modMside sd (fun x => { x with sent := [], kept := [], waiting := [] }) s
  forAll (x.sent ++ x.kept) (fun m => emitCluster (fragged (2 ^ sd) m.cluster)) s

/-- A side takes a state; a loss of ACTIVE raises EV_197 (R222, R223). -/
def setSide (sd st : Nat) (s : State) : State :=
  let old := (msideAt s sd).state
  let s := modMside sd (fun x => { x with state := st }) s
  if old = 2 ∧ st ≠ 2 then raise 197 [] (sideEnds sd s) else s

/-- An HP_CLUSTER value is acceptable (R246). -/
def clusterConfOk (v : List Byte) : Bool := decide (1 ≤ u16At v 0 ∧ u16At v 0 ≤ 200 ∧ byteAt v 2 ≤ 1)

/-- An HP_LOSS entry is acceptable for a queue (R236, R237, R246). -/
def lossConfOk (s : State) (q : Nat) (v : List Byte) : Bool :=
  decide (byteAt v 0 ≤ 2 ∧ 50 ≤ byteAt v 1 ∧ byteAt v 1 ≤ 99 ∧ 10 ≤ byteAt v 2 ∧ byteAt v 2 + 5 ≤ byteAt v 1)
    && (decide (byteAt v 0 ≠ 2) || decide ((mapOf s q).1 % 65536 ≠ 0))

/-- An HP_GATE entry is acceptable (R246). -/
def gateConfOk (v : List Byte) : Bool := decide (byteAt v 0 ≤ 1)

/-- An HP_MERGE value is acceptable (R246). -/
def mergeConfOk (v : List Byte) : Bool :=
  decide (byteAt v 0 < 16 ∧ byteAt v 1 ≤ 200 ∧ 100 ≤ u16At v 2 ∧ u16At v 2 ≤ 5000)

/-- An HP_REORDER value is acceptable (R246). -/
def reorderConfOk (v : List Byte) : Bool := decide (1000 ≤ u16At v 0 ∧ u16At v 0 ≤ 8000)

/-- The value a setting of the hit path has or is about to have. -/
def hpLatest (s : State) (tag : Nat) : List Byte :=
  match (s.hp.pending.filter (fun e => decide (e.tag = tag))).getLast? with
  | some e => e.value
  | none => cfg s tag

/-- A hit-path setting changes on the first tick at least 10 us ahead (R248). -/
def hpChange (tag : Nat) (v : List Byte) (s : State) : State :=
  onHp (fun x => { x with pending := x.pending ++ [{ tag := tag, value := v, tick := s.tc.now + 400 }] }) s

/-- The hit-path changes whose effect tick has come (R248). -/
def hpDue (s : State) : State :=
  let due := s.hp.pending.filter (fun e => reached s e.tick)
  forAll due (fun e => setCfg e.tag e.value) (onHp (fun x => { x with pending := x.pending.filter (fun e => !reached s e.tick) }) s)

/-- Merge settings take effect at once; the sides follow (R222). -/
def mergeSet (v : List Byte) (s : State) : State :=
  let s := setCfg 0x0405 v s
  forAll (List.range 4) (fun sd s => setSide sd (sideFrom s sd) s) s

end Sys2Proof.Machine
end

