-- ==== Sys2Proof/Machine/TrOps.lean ====
section
/-! DEFINITION. The trigger engine's own logic (chapter 06): sample histories, comparators and conditions, fires and their
actions, measurements, the arming domain and the power of PD_31. -/
namespace Sys2Proof.Machine

/-- The sample index of the first sample of a tick: g = 25 T + n (R253). -/
def sampleOf (t : Stamp) : Nat := 25 * t.toNat

/-- The stamp of a sample on the scale it was taken on: its index less what the time has been stepped by since (R489). -/
def stampOf (g : Nat) (off : Int) : Stamp := BitVec.ofInt 64 ((g - off) / 25)

/-- The tick of a sample. -/
def tickOfSample (g : Nat) : Stamp := BitVec.ofNat 64 (g / 25)

/-- The configuration in force of a unit, 64 bytes (R293). -/
def unitConf (s : State) (u : Nat) : List Byte := padTo 64 (unitAt s u).conf

/-- ENABLE. -/
def cfEnable (c : List Byte) : Bool := bit (byteAt c 0) 0
/-- POL is NEG. -/
def cfNeg (c : List Byte) : Bool := bit (byteAt c 0) 1
/-- COMBINE is SUM. -/
def cfSum (c : List Byte) : Bool := bit (byteAt c 0) 2
/-- CAL_BLOCK. -/
def cfCalBlock (c : List Byte) : Bool := bit (byteAt c 0) 3
/-- Condition. -/
def cfCond (c : List Byte) : Nat := field (byteAt c 1) 2 0
/-- Submode. -/
def cfSub (c : List Byte) : Nat := field (byteAt c 1) 4 3
/-- SOURCE. -/
def cfSource (c : List Byte) : Nat := byteAt c 2
/-- An action bit (R269). -/
def cfAct (c : List Byte) (i : Nat) : Bool := bit (byteAt c 3) i
/-- The patches of PATCH_MASK, ascending. -/
def cfPatches (c : List Byte) : List Nat := maskList 64 (uAt 8 c 4)
/-- L1, L2 and HYST in force: the RAW ones on fallback (R259). -/
def cfLevels (raw : Bool) (c : List Byte) : Int × Int × Int :=
  if raw then (i16At c 18, i16At c 20, i16At c 22) else (i16At c 12, i16At c 14, i16At c 16)
/-- T_MIN. -/
def cfTMin (c : List Byte) : Nat := uAt 3 c 24
/-- T_MAX. -/
def cfTMax (c : List Byte) : Nat := uAt 3 c 28
/-- HOLDOFF. -/
def cfHoldoff (c : List Byte) : Nat := uAt 3 c 32
/-- MEAS_POST. -/
def cfMeasPost (c : List Byte) : Nat := u16At c 58

/-- One set of levels is acceptable: HYST not negative, and L2 above L1 where the condition uses it (R265). -/
def levelsOk (c : List Byte) (l : Int × Int × Int) : Bool :=
  decide (0 ≤ l.2.2) && (decide (cfCond c ≠ 2 ∧ cfCond c ≠ 4) || decide (l.1 < l.2.1))

/-- The largest submode of a condition (R264). -/
def subMax : Nat → Nat
  | 0 => 2 | 1 => 1 | 2 => 0 | 3 => 2 | _ => 1

/-- A unit configuration is acceptable (R265, R293); the ranges of an enabled unit's fields apply to it alone (log 42). -/
def unitConfOk (c : List Byte) : Bool :=
  let useRaw := decide (1 ≤ cfSource c ∧ cfSource c ≤ 4)
  decide (byteAt c 0 < 16 ∧ byteAt c 1 < 32 ∧ cfCond c ≤ 4 ∧ cfSub c ≤ subMax (cfCond c) ∧ cfSource c ≤ 5)
    && decide (byteAt c 3 < 64 ∧ byteAt c 27 = 0 ∧ byteAt c 31 = 0 ∧ byteAt c 35 = 0 ∧ uAt 4 c 60 = 0)
    && levelsOk c (cfLevels false c) && decide (0 ≤ i16At c 22) && (!useRaw || levelsOk c (cfLevels true c))
    && decide (cfTMin c ≤ cfTMax c) && decide (cfCond c ≠ 3 ∨ cfTMax c ≠ 0)
    && (!cfEnable c ||
      decide (u16At c 36 ≤ 4000 ∧ u16At c 38 ≤ 16000 ∧ u16At c 40 ≤ 4000 ∧ u16At c 42 ≤ 16000 ∧ byteAt c 52 ≤ 1
        ∧ 4 ≤ byteAt c 53 ∧ byteAt c 53 ≤ 10 ∧ u16At c 54 ≤ 32767 ∧ u16At c 56 ≤ 1000 ∧ 16 ≤ u16At c 58 ∧ u16At c 58 ≤ 16000))

/-- A byte of a core's kernel header (R339). -/
def hdr8 (x : WeCore) (i : Nat) : Nat := (tget 0 x.header i).toNat

/-- A 16-bit field of the header. -/
def hdr16 (x : WeCore) (i : Nat) : Nat := hdr8 x i + 256 * hdr8 x (i + 1)

/-- A 32-bit field of the header. -/
def hdr32 (x : WeCore) (i : Nat) : Nat := hdr16 x i + 65536 * hdr16 x (i + 2)

/-- LATENCY of the kernel. -/
def weLatency (x : WeCore) : Nat := hdr16 x 10

/-- A core reports running: RUNNING with every bound output channel live (R303). -/
def coreReports (s : State) (n : Nat) : Bool := decide ((coreAt s n).state = .running) && (coreAt s n).reported

/-- The units of a core need not evaluate RAW: it reports running, or is deferred, which never moves a unit (R303,
R341). -/
def coreFeeds (s : State) (n : Nat) : Bool := coreReports s n || decide ((coreAt s n).state = .deferred)

/-- The units of a core take its stream at a sample: a switch acts from the first sample of the next tick (R259). -/
def coreFeedsAt (s : State) (n g : Nat) : Bool := if g < (coreAt s n).switchAt then (coreAt s n).fedWas else coreFeeds s n

/-- SOURCE is a core. -/
def onCore (c : List Byte) : Bool := decide (1 ≤ cfSource c ∧ cfSource c ≤ 4)

/-- A unit whose SOURCE is a core that does not feed it evaluates a sample on RAW (R259, R303). -/
def fallbackAt (s : State) (u g : Nat) : Bool :=
  let c := unitConf s u
  onCore c && !coreFeedsAt s (cfSource c - 1) g

/-- A unit is on RAW fallback at the present tick. -/
def inFallback (s : State) (u : Nat) : Bool := fallbackAt s u (sampleOf s.tc.now)

/-- Units whose SOURCE is a core. -/
def unitsOf (s : State) (core : Nat) : List Nat :=
  (List.range 16).filter (fun u => cfEnable (unitConf s u) && decide (cfSource (unitConf s u) = core + 1))

/-- A unit statistic increased (R296, R297). -/
def trStat (u i : Nat) (s : State) : State :=
  let r := statBump (unitAt s u).stats (unitAt s u).statSat i 1
  satEvent 222 r.2.2 (modUnit u (fun x => { x with stats := r.1, statSat := r.2.1 }) s)

/-- A converter sample limited to 10 bits (R253). -/
def clipSample (x : Int) : Int := clampInt (-512) 511 x

/-- A sample lies beyond either end of the code range (R253). -/
def isClipped (x : Int) : Bool := decide (x < -512 ∨ 511 < x)

/-- The history of a patch. -/
def histAt (s : State) (p : Nat) : History := tget {} s.tr.hist p

/-- A sample of a patch that is held. -/
def histSample (s : State) (p g : Nat) : Option Int :=
  let h := histAt s p
  if g ≤ h.newest then h.samples[h.newest - g]? else none

/-- The oldest sample in the history of a patch, of 8,192 samples (R279). -/
def histOldest (s : State) (p : Nat) : Nat :=
  let h := histAt s p
  if h.samples = [] then sampleOf s.tc.now else h.newest + 1 - min 8192 h.samples.length

/-- A sample joins a history; after a gap it starts anew, its clipped samples kept (R279, log 42). -/
def histAdd (g : Nat) (x : Int) (h : History) : History := {
  newest := g
  samples := clipSample x :: (if g = h.newest + 1 then h.samples.take (2 ^ 25 - 1) else [])
  ovr := h.ovr.filter (fun i => decide (g < i + 2 ^ 25)) ++ (if isClipped x then [g] else []) }

/-- A sample of a patch is taken: it joins the history, and one that is clipped is counted (R253, R279, R296); a patch in
FAULT reads 0 (R255). -/
def recordSample (g p : Nat) (x : Int) (s : State) : State :=
  let x := if (adcAt s p).state = .fault then 0 else x
  let s := onTr (fun y => { y with hist := tput {} p (histAdd g x (histAt s p)) y.hist }) s
  when (isClipped x) (modAdc p (fun a => { a with clipped := statAdd a.clipped 1 })) s

/-- Full scale of a patch in elementary charges (R252). -/
def fullScale (s : State) (p : Nat) : Nat := 50000 * 2 ^ (cfg8 s 0x0502 p)

/-- A pixel contributes to its patch sum: its block is in EVENT or FRAME mode, and it is masked neither by the host nor as a
crab (R250). -/
def contributes (s : State) (pix : Nat) : Bool :=
  decide (pix < 1048576) && decide (blockMode s (pixBlock pix) = 1 ∨ blockMode s (pixBlock pix) = 2) && unmasked s pix

/-- The value of a list, whose last belongs to sample `g`, at a sample. -/
def endAt (g i : Nat) (l : List Int) : Int := if g - i < l.length then l.getD (l.length - 1 - (g - i)) 0 else 0

/-- The patch sum in elementary charges, each contribution normalised by the POL of its block (R250, R251). -/
def patchSum (s : State) (x : PatchIn) (g i : Nat) : Int :=
  ((x.pixels.filter (fun q => decide (patchOf q.1 = x.patch) && contributes s q.1)).map (fun q =>
    if bit (blockAt s (pixBlock q.1)).conf.mode.toNat 2 then endAt g i q.2 else -endAt g i q.2)).foldl (· + ·) 0

/-- What the converter of a patch makes of a sample, before clipping: codes of FS / 512 (R252, R253). -/
def convertSample (s : State) (xs : List PatchIn) (g i p : Nat) : Int :=
  match xs.find? (fun x => decide (x.patch = p)) with
  | some x => divRound (512 * patchSum s x g i) (fullScale s p) + endAt g i x.noise
  | none => 0

/-- FRAC of a rising transition across a level (R263). -/
def fracRise (l y yp : Int) : Nat := (clampInt 0 63 (divRound (64 * (y - l)) (y - yp).toNat)).toNat

/-- FRAC of a falling transition across a level (R263). -/
def fracFall (l y yp : Int) : Nat := (clampInt 0 63 (divRound (64 * (l - y)) (yp - y).toNat)).toNat

/-- A comparator stream at its first sample after a configuration takes effect (R262): no transition; what is open then
fires no condition but TIMEOUT (R264, log 42). -/
def startStream (c : List Byte) (l : Int × Int × Int) (n : Nat) (y : Int) : CmpStream := {
  high := decide (l.1 ≤ y), high2 := decide (l.2.1 ≤ y), started := true, last := y, index := n, a := (n, 0), b := (n, 0)
  reached := decide (l.2.1 ≤ y), done := decide (cfCond c ≠ 3 ∧ l.1 ≤ y) }

/-- The comparators of a stream at a sample: the new state before the condition is judged, with rising and falling
transition (R262, R263). -/
def compare (l : Int × Int × Int) (n : Nat) (y : Int) (c : CmpStream) : CmpStream × Bool × Bool :=
  let rise := !c.high && decide (l.1 ≤ y)
  let fall := c.high && decide (y < l.1 - l.2.2)
  let high := if rise then true else if fall then false else c.high
  ({ c with
      high := high, last := y, index := n
      high2 := if c.high2 then !decide (y < l.2.1 - l.2.2) else decide (l.2.1 ≤ y)
      a := if rise then (n, fracRise l.1 y c.last) else c.a
      b := if fall then (n, fracFall (l.1 - l.2.2) y c.last) else c.b
      reached := if rise then decide (l.2.1 ≤ y) else c.reached || (high && decide (l.2.1 ≤ y))
      done := if rise then false else c.done }, rise, fall)

/-- PULSE_WIDTH (R264). -/
def pulseWidth (sub tMin tMax n : Nat) (fall : Bool) (c : CmpStream) : Bool :=
  let w := n - c.a.1
  if c.done then false
  else if sub = 0 then fall && decide (tMin ≤ w ∧ w ≤ tMax)
  else (fall && decide (w < tMin)) || (c.high && decide (c.a.1 + tMax + 1 ≤ n))

/-- TIMEOUT (R264): whether it fires, and on a LOW stay. -/
def timeoutFires (sub tMax n : Nat) (rise fall : Bool) (c : CmpStream) : Bool :=
  if c.done then false
  else if c.high then !rise && decide (sub ≠ 1 ∧ c.a.1 + tMax ≤ n)
  else !fall && decide (sub ≠ 0 ∧ c.b.1 + tMax ≤ n)

/-- SLEW (R264): `first` says that this sample is s. -/
def slew (sub tMin tMax n : Nat) (first : Bool) (fs : Nat) (c : CmpStream) : Bool :=
  let tau : Int := 64 * ((n : Int) - c.a.1) + c.a.2 - fs
  if c.done then false
  else if sub = 0 then first && decide ((tMin : Int) ≤ tau ∧ tau ≤ tMax)
  else (first && decide (tau < tMin)) || (c.high && !c.reached && decide (tMax + 64 ≤ 64 * (n - c.a.1)))

/-- A stream takes a sample: its new state, and the index and FRAC of the reference crossing if the condition is met
(R262 to R264). -/
def stepStream (c : List Byte) (raw : Bool) (n : Nat) (y : Int) (st : CmpStream) : CmpStream × Option (Nat × Nat) :=
  let l := cfLevels raw c
  if !st.started then (startStream c l n y, none)
  else
    let (x, rise, fall) := compare l n y st
    let first := x.high && x.reached && (rise || !st.reached)
    let x : CmpStream := if cfCond c = 3 ∧ fall then { x with done := false } else x
    let (met, ref) := match cfCond c with
      | 0 => ((rise && decide (cfSub c ≠ 1)) || (fall && decide (cfSub c ≠ 0)), if rise then x.a else x.b)
      | 1 => (pulseWidth (cfSub c) (cfTMin c) (cfTMax c) n fall x, x.a)
      | 2 => (fall && !x.done && !x.reached && decide (cfTMin c ≤ n - x.a.1), x.a)
      | 3 => (timeoutFires (cfSub c) (cfTMax c) n rise fall x, if x.high then x.a else x.b)
      | _ => (slew (cfSub c) (cfTMin c) (cfTMax c) n first (fracRise l.2.1 y st.last) x, x.a)
    (if met ∧ cfCond c ≠ 0 then { x with done := true } else x, if met then some ref else none)

/-- A unit's evaluated sample: POL applied, saturating (R261). -/
def polSample (c : List Byte) (x : Int) : Int := if cfNeg c then min 32767 (-x) else x

/-- A condition met on a sample, or a fire asked for. -/
structure UnitFire where
  /-- unit -/
  u : Nat
  /-- PATCH -/
  patch : Nat
  /-- reference sample -/
  ref : Nat
  /-- FRAC -/
  frac : Nat

/-- The stream inputs of a unit on a sample: by patch, or the saturating sum under number 64 (R260); patches in FAULT read
0 (R255). -/
def unitInputs (s : State) (c : List Byte) (row : Nat → Option Int) : List (Nat × Int) :=
  let value (p : Nat) : Option Int := if (adcAt s p).state = .fault then some 0 else row p
  let vs := (cfPatches c).map (fun p => (p, value p))
  if cfSum c then
    if vs ≠ [] ∧ vs.all (fun v => v.2.isSome) then
      [(64, clampInt (-32768) 32767 ((vs.map (fun v => v.2.getD 0)).foldl (· + ·) 0))]
    else []
  else vs.filterMap (fun v => v.2.map (fun x => (v.1, x)))

/-- One stream of a unit takes a sample, unless it has had it: the hits found so far grow by the condition it meets. -/
def stepUnit (u n : Nat) (c : List Byte) (raw : Bool) (v : Nat × Int) (a : List UnitFire × State) : List UnitFire × State :=
  let st := tget {} (unitAt a.2 u).streams v.1
  if st.started ∧ n ≤ st.index then a
  else
    let r := stepStream c raw n (polSample c v.2) st
    let s := modUnit u (fun x => { x with streams := tput {} v.1 r.1 x.streams }) a.2
    match r.2 with
    | some (ref, frac) => (a.1 ++ [{ u := u, patch := if v.1 = 64 then 0xFF else v.1, ref := ref, frac := frac }], s)
    | none => (a.1, s)

/-- A unit evaluates a sample: the conditions met, lowest patch first. -/
def evalUnit (u n : Nat) (raw : Bool) (vs : List (Nat × Int)) (s : State) : List UnitFire × State :=
  vs.foldl (fun a v => stepUnit u n (unitConf s u) raw v a) ([], s)

/-- This module has fired its domain on a sample (R267). -/
def domainFired (s : State) (g : Nat) : Bool := s.tr.domain.seen.contains (tileIdentity s, tickOfSample g, g % 25)

/-- The domain allows a unit to fire on a sample: ARMED, or FIRED by another unit on the same sample (R267, R269, R283). -/
def domainAllows (s : State) (g : Nat) (c : List Byte) : Bool :=
  !cfAct c 3 || decide (s.tr.domain.state = .armed) || (decide (s.tr.domain.state = .fired) && domainFired s g)

/-- A sample lies in a hold-off of a unit: fire + 1 to fire + HOLDOFF (R268). -/
def heldOff (s : State) (u n : Nat) : Bool := (unitAt s u).holds.any (fun h => decide (h.1 < n ∧ n ≤ h.2))

/-- The conditions a unit met on sample `n` become at most one fire: none with DOMAIN unless ARMED, none in a flash window
with CAL_BLOCK, none in hold-off, where they are counted (R268, R269). -/
def letFire (n : Nat) (hits : List UnitFire) (s : State) : Option UnitFire × State :=
  match hits with
  | [] => (none, s)
  | f :: _ =>
    let c := unitConf s f.u
    if !domainAllows s n c || (cfCalBlock c && inWindow s (tickOfSample n)) then (none, s)
    else if heldOff s f.u n then
      (none, forAll hits (fun f s => trStat f.u 1 s) (modUnit f.u (fun x => { x with suppressed := true }) s))
    else (some f, s)

/-- A gate is needed as long as records of its span may wait (R271). -/
def gateLive (s : State) (g : Int × Int) : Bool := decide ((nowNs s : Int) ≤ g.2 + reorderNs s)

/-- The place of the latest end among gates. -/
def latestGate : List (Int × Int) → Option (Int × Int)
  | [] => none
  | g :: gs => match latestGate gs with
    | some h => some (if g.2 < h.2 then h else g)
    | none => some g

/-- A gate opens for a unit at a fire time in ns: a new one, or with 64 unexpired merged into the one that ends last
(R269 to R271). -/
def openGate (u : Nat) (t : Nat) (c : List Byte) (s : State) : State :=
  let g : Int × Int := ((t : Int) - u16At c 36, (t : Int) + u16At c 38)
  let live := (unitAt s u).gates.filter (gateLive s)
  match (if live.length < 64 then none else latestGate live) with
  | none => modUnit u (fun x => { x with gates := live ++ [g] }) s
  | some m =>
    let merged := (min m.1 g.1, max m.2 g.2)
    raise 214 [] (modUnit u (fun x => { x with gates := merged :: live.erase m }) s)

/-- Pulses of TRIG_OUT that overlap merge (R291). -/
def joinPulse (p : Nat × Nat) : List (Nat × Nat) → List (Nat × Nat)
  | [] => [p]
  | q :: qs => if p.1 ≤ q.2 + 1 ∧ q.1 ≤ p.2 + 1 then joinPulse (min p.1 q.1, max p.2 q.2) qs else q :: joinPulse p qs

/-- How much later than a RAW unit a unit acts: LATENCY of its core (R272, R331). -/
def unitLatency (s : State) (u g : Nat) : Nat :=
  let c := unitConf s u
  if onCore c && !fallbackAt s u g then weLatency (coreAt s (cfSource c - 1)) else 0

/-- A TRIG_OUT pulse in LEVEL mode from a time in ns, for its width (R291). -/
def pulseFrom (t : Nat) (s : State) : State :=
  if cfg8 s 0x0504 1 ≠ 2 then s
  else onTr (fun x => { x with trigOut := joinPulse (t, t + cfg16 s 0x0504 2 - 1) x.trigOut }) s

/-- The TRIG_OUT pulses of the units that fired on a sample: 64 ns after it, later by LATENCY on a core (R272, R291, R331). -/
def pulseOut (g : Nat) (us : List Nat) (s : State) : State :=
  forAll (us.filter (fun u => cfAct (unitConf s u) 5)) (fun u => pulseFrom (g + 64 + unitLatency s u g)) s

/-- The capture engine at work for a WAVE_ID. -/
def captureOf (s : State) (id : Nat) : Option (Nat × Capture) :=
  (List.range 4).findSome? (fun e => match tget none s.tr.capture e with
    | some c => if c.waveId = id then some (e, c) else none
    | none => none)

/-- The least free capture engine (R278). -/
def freeEngine (s : State) : Option Nat := (List.range 4).find? (fun e => (tget none s.tr.capture e).isNone)

/-- What the units with WAVE ask for (R278): patches, largest WAVE_PRE and WAVE_POST, form and deadband of the lowest. -/
def askCapture (s : State) (g id : Nat) (us : List Nat) : Capture :=
  let cs := us.map (unitConf s)
  let c := unitConf s (us.headD 0)
  { waveId := id, g := g, off := 0
    patches := (List.range 64).filter (fun p => cs.any (fun c => bit (uAt 8 c 44) p))
    pre := (cs.map (fun c => u16At c 40)).foldl max 0, post := (cs.map (fun c => u16At c 42)).foldl max 0
    form := byteAt c 52, deadband := u16At c 54, cal := inWindow s (tickOfSample g), unit := us.headD 0
    units := (us.map (fun u => 2 ^ u)).foldl (· + ·) 0 }

/-- Two requests for one fire are one capture (R278). -/
def joinCapture (a b : Capture) : Capture :=
  { (if b.unit < a.unit then b else a) with
    patches := (List.range 64).filter (fun p => a.patches.contains p || b.patches.contains p)
    pre := max a.pre b.pre, post := max a.post b.post, units := a.units ||| b.units, waveId := a.waveId }

/-- A capture whose first samples are no longer in the history starts at the oldest held, or at its fire where that is lost
too (R279, log 42): the capture, and whether it was cut. -/
def cutCapture (s : State) (c : Capture) : Capture × Bool :=
  let oldest := (c.patches.map (histOldest s)).foldl max 0
  if c.g < oldest + c.pre then ({ c with pre := c.g - oldest }, true) else (c, false)

/-- A fire with WAVE claims a capture engine, or joins the one of its fire: WAVE_ID and FLAGS (R278, R279). -/
def claimCapture (g : Nat) (us : List Nat) (old : Option Nat) (s : State) : (Nat × Nat) × State :=
  let place (e : Nat) (c : Capture) (s : State) : (Nat × Nat) × State :=
    let r := cutCapture s c
    let s := onTr (fun x => { x with capture := tput none e (some r.1) x.capture }) s
    ((c.waveId, if r.2 then 64 else 0), raiseIf r.2 213 [] s)
  match old.bind (captureOf s) with
  | some (e, c) => place e (joinCapture c (askCapture s g c.waveId us)) s
  | none =>
    match freeEngine s with
    | some e =>
      let id := s.tr.waveId
      place e (askCapture s g id us) (onTr (fun x => { x with waveId := (id + 1) % 65536 }) s)
    | none => ((0xFFFF, 32), raise 212 [] (forAll us (fun u s => trStat u 4 s) s))

/-- The mask of a list of numbers. -/
def maskFrom (us : List Nat) : Nat := maskOf 16 (fun u => us.contains u)

/-- The patches a record measures on (R273). -/
def measPatches (c : List Byte) (patch : Nat) : List Nat := if patch = 0xFF then cfPatches c else [patch]

/-- FLAGS that a record's first unit and patch give at the fire (R276). -/
def fireFlags (s : State) (g : Nat) (c : List Byte) (patch : Nat) : Nat :=
  bitNat (inWindow s (tickOfSample g))
    + 4 * bitNat ((measPatches c patch).any (fun p => decide ((adcAt s p).state = .converging)))

/-- PERIOD: the time since the unit's previous reference crossing in 1/16 ns (R273). -/
def periodOf (x : TrigUnit) (ref frac : Nat) : Option Nat :=
  match x.lastRef with
  | none => none
  | some p =>
    let v := divRound (64 * (ref : Int) - frac - p) 4
    if 0 ≤ v ∧ v ≤ stat32 then some v.toNat else none

/-- The module is armed, or has fired, after arming late: LATE_ARM (R276). -/
def lateArmed (s : State) : Bool := s.tr.domain.late && decide (s.tr.domain.state = .armed ∨ s.tr.domain.state = .fired)

/-- The record builder's entry of a group of fires on one sample (R266, R273). -/
def newFire (s : State) (g : Nat) (fs : List UnitFire) (f : UnitFire) (origin flags : Nat) : Fire :=
  let us := fs.map (·.u)
  let any (p : Nat → Bool) : Nat := bitNat (us.any p)
  { g := g, off := 0, mask := maskFrom us, first := f.u, patch := f.patch, ref := f.ref, frac := f.frac
    units := maskFrom us, origin := origin
    flags := fireFlags s g (unitConf s f.u) f.patch + flags + 2 * any (fun u => cfAct (unitConf s u) 3)
      + 16 * any (fun u => fallbackAt s u g) + 128 * bitNat (lateArmed s)
      + 256 * any (fun u => (unitAt s u).suppressed)
    period := periodOf (unitAt s f.u) f.ref f.frac
    wants := us.any (fun u => cfAct (unitConf s u) 0 || cfAct (unitConf s u) 1)
    waveId := 0xFFFF, conf := unitConf s f.u, raw := fallbackAt s f.u g
    since := (unitAt s f.u).since }

/-- Two groups of fires on one sample are one record; ADC_UNCONV is that of the patch it is about (R266, R267, R276). -/
def joinFire (a b : Fire) : Fire :=
  let c := if b.first < a.first then b else a
  { c with
    mask := a.mask ||| b.mask, units := a.units ||| b.units, flags := ((a.flags ||| b.flags) &&& 0xFFFB) ||| (c.flags &&& 4), origin := a.origin ||| b.origin
    wants := a.wants || b.wants, waveId := if b.waveId = 0xFFFF then a.waveId else b.waveId }

/-- The pending local fire of a sample. -/
def localFire (s : State) (g : Nat) : Option Fire := s.tr.fires.find? (fun f => decide (f.g = g) && !bit f.origin 6)

/-- A fire enters the record builder, joining the one of its sample (R267); entries that want no record leave it once
no unit can still fire on their sample (log 42). -/
def addFire (f : Fire) (s : State) : State :=
  onTr (fun x =>
    let fs := x.fires.filter (fun y => y.wants || decide (f.g < y.g + 8192))
    { x with fires := if !bit f.origin 6 ∧ fs.any (fun y => decide (y.g = f.g) && !bit y.origin 6)
        then fs.map (fun y => if y.g = f.g ∧ !bit y.origin 6 then joinFire y f else y)
        else fs ++ [f] }) s

/-- A path of the arming domain is up: a side link in UP, or the TRIG pair with TRIG_OUT in LINK mode (R286, R291). -/
def pathUp (s : State) (p : Nat) : Bool :=
  awake s && (if p < 4 then decide ((slinkAt s p).state = 4) else decide (p = 4 ∧ cfg8 s 0x0504 1 = 1))

/-- The paths of the path mask. -/
def domainPaths (s : State) : List Nat := maskList 5 (cfg8 s 0x0503 2)

/-- A domain message (R284). -/
def domainWord (type seq origin tick payload : Nat) : BitVec 64 :=
  let v := type * 2 ^ 60 + seq % 256 * 2 ^ 52 + origin % 64 * 2 ^ 46 + tick % 65536 * 2 ^ 30 + payload * 2 ^ 8
  BitVec.ofNat 64 (v + crcMsb 8 7 0 (leBytes 7 (v / 256)).reverse)

/-- The CRC of a domain message is good (R284). -/
def domainCrcOk (w : BitVec 64) : Bool := decide (crcMsb 8 7 0 (leBytes 7 (w.toNat / 256)).reverse = w.toNat % 256)

/-- A word goes out on a path that is up (R471, R291). -/
def sendOn (w : BitVec 64) (p : Nat) (s : State) : State :=
  if !pathUp s p then s
  else if p < 4 then modSlink p (fun x => { x with out := x.out ++ [(1, 0x1A, b8 w.toNat)] }) s
  else onTr (fun x => { x with domain := { x.domain with out := x.domain.out ++ [(p, w)] } }) s

/-- A copy of a word goes to every RUNNING group that allows TC1 (R442). -/
def copyWord (w : BitVec 64) (s : State) : State :=
  forAll (List.range 4) (fun g s =>
    when ((groupAt s g).running && bit (groupAt s g).classes.toNat 1)
      (modGroup g (fun x => { x with out := x.out ++ [(1, 22, 0x1A, b8 w.toNat)] })) s) s

/-- The domain's part changed. -/
def onDomain (f : ArmDomain → ArmDomain) (s : State) : State := onTr (fun x => { x with domain := f x.domain }) s

/-- A domain count increased. -/
def domainCount (i : Nat) (s : State) : State := onDomain (fun d => { d with counts := tmod 0 i (satAdd stat32 1) d.counts }) s

/-- A word of this module is sent on every path of the mask (R285). -/
def sendWord (w : BitVec 64) (s : State) : State := copyWord w (forAll (domainPaths s) (sendOn w) s)

/-- A received word is forwarded on every path of the mask but its own, and remembered; none of the last 64 is forwarded
again (R286). -/
def forwardWord (w : BitVec 64) (but : Nat) (s : State) : State :=
  if s.tr.domain.forwarded.contains w then s
  else
    let s := forAll ((domainPaths s).filter (fun p => decide (p ≠ but))) (sendOn w) s
    copyWord w (onDomain (fun d => { d with forwarded := (w :: d.forwarded).take 64 }) s)

/-- The earlier of two fire ticks. -/
def earlierTick (a : Option Stamp) (t : Stamp) : Option Stamp :=
  match a with
  | some x => some (if stampDiff t x < 0 then t else x)
  | none => some t

/-- A local fire of DOMAIN units: FIRE on every path; the state is FIRED (R285). -/
def domainFire (g mask : Nat) (s : State) : State :=
  let d := s.tr.domain
  let t := tickOfSample g
  let w := domainWord 3 d.seq (tileIdentity s) (g / 25) (g % 25 * 2 ^ 17 + mask * 2)
  domainCount 1 (onDomain (fun d => { d with
    state := .fired, earliest := earlierTick d.earliest t, seen := (tileIdentity s, t, g % 25) :: d.seen }) (sendWord w s))

/-- What a fire does to its unit: the count, hold-off, the reference crossing kept for PERIOD, and its gate; `rec` says
that a record carries its SUPPRESSED (R266, R268, R269). -/
def fireUnit (g : Nat) (rec : Bool) (f : UnitFire) (s : State) : State :=
  let c := unitConf s f.u
  let s := trStat f.u 0 s
  let s := modUnit f.u (fun x => { x with
    holds := if cfHoldoff c = 0 then x.holds else x.holds ++ [(g, g + cfHoldoff c)], suppressed := x.suppressed && !rec
    lastRef := some (64 * (f.ref : Int) - f.frac) }) s
  when (cfAct c 2) (openGate f.u g c) s

/-- The units that fire on sample `g` act together (R266, R269, R272). -/
def fireGroup (g origin flags : Nat) (fs : List UnitFire) (s : State) : State :=
  match fs with
  | [] => s
  | f :: _ =>
    let us := fs.map (·.u)
    let fire := newFire s g fs f (tileIdentity s + origin) flags
    let waves := us.filter (fun u => cfAct (unitConf s u) 1)
    let old := (localFire s g).map (·.waveId)
    let (w, s) := if waves = [] then ((0xFFFF, 0), s) else claimCapture g waves old s
    let domain := us.any (fun u => cfAct (unitConf s u) 3) && !domainFired s g
    let s := addFire { fire with waveId := w.1, flags := fire.flags + w.2 } s
    let s := forAll fs (fireUnit g fire.wants) s
    pulseOut g us (when domain (domainFire g fire.mask) s)

/-- The fires that units' conditions make on one sample are admitted together (R266). -/
def admitAll (g : Nat) (hits : List (List UnitFire)) (s : State) : List UnitFire × State :=
  hits.foldl (fun a h => match letFire g h a.2 with
    | (some f, s) => (a.1 ++ [f], s)
    | (none, s) => (a.1, s)) ([], s)

/-- The output channel of a core bound to a patch; a core that is OFF has none (R330). -/
def outChannel (x : WeCore) (patch : Nat) : Option Nat :=
  if x.state = .off then none
  else (List.range 16).find? (fun k => decide ((tget 0 x.header (112 + 4 * k)).toNat = patch ∧ patch < 64))

/-- A unit on a core that binds none of its patches: it is presented 0 (R330). -/
def isUnbound (s : State) (c : List Byte) : Bool :=
  onCore c && ((cfPatches c).all (fun p => (outChannel (coreAt s (cfSource c - 1)) p).isNone))

/-- Every unit on RAW, and every one that is presented nothing but 0, evaluates sample `g`, and those that fire act (R258,
R259, R266, R330); none evaluates samples from before its configuration took effect (R294). -/
def evalRaw (g : Nat) (s : State) : State :=
  let us := (List.range 16).filter (fun u =>
    let c := unitConf s u
    cfEnable c && decide ((unitAt s u).since ≤ g) && (decide (cfSource c = 0) || fallbackAt s u g || isUnbound s c))
  let r := us.foldl (fun (a : List (List UnitFire) × State) u =>
    let c := unitConf s u
    let raw := fallbackAt s u g
    let row (p : Nat) : Option Int := if cfSource c = 0 ∨ raw then histSample s p g else some 0
    let x := evalUnit u g raw (unitInputs s c row) a.2
    (a.1 ++ [x.1], x.2)) ([], s)
  let a := admitAll g r.1 r.2
  fireGroup g 0 0 a.1 a.2

/-- The units named fire on a sample of themselves: a soft fire or a TRIG_IN edge (R277, R291). -/
def fireNamed (g origin flags : Nat) (us : List Nat) (s : State) : State :=
  let hits := us.map (fun u =>
    let c := unitConf s u
    [{ u := u, patch := if cfSum c then 0xFF else (cfPatches c).headD 0, ref := g, frac := 0 : UnitFire }])
  let a := admitAll g hits s
  fireGroup g origin flags a.1 a.2

/-- The value of an output channel's expanded stream at an index: an output, or interpolated between two (R331). -/
def expanded : List (Nat × Int) → Nat → Option Int
  | [], _ => none
  | (a, y) :: rest, g =>
    if g = a then some y
    else if a < g then none
    else match rest with
      | (b, z) :: _ => if b < g then some (z + divRound ((y - z) * (g - b : Nat)) (a - b)) else expanded rest g
      | [] => none

/-- The expanded stream of a patch from a core; a patch without a channel presents 0 (R330). -/
def streamAt (x : WeCore) (patch g : Nat) : Option Int :=
  match outChannel x patch with
  | some k => expanded (tget [] x.outs k) g
  | none => some 0

/-- A unit on a core evaluates the indices its channels have newly reached, those at which the core feeds it (R258, R259,
R331). -/
def evalCoreUnit (core u : Nat) (s : State) : State :=
  let x := coreAt s core
  let c := unitConf s u
  let chans := (cfPatches c).filterMap (outChannel x)
  let newest := chans.map (fun k => ((tget [] x.outs k).headD (0, 0)).1)
  let hi := newest.foldl max 0
  let started := (unitAt s u).streams.filter (fun t => t.2.started)
  let lo := if started = [] then hi else started.foldl (fun a t => min a (t.2.index + 1)) hi
  if chans = [] then s
  else forAll (((List.range (hi + 1 - lo)).map (· + lo)).filter (fun g => decide ((unitAt s u).since ≤ g) && coreFeedsAt s core g))
    (fun g s =>
      let r := evalUnit u g false (unitInputs s c (fun p => streamAt x p g)) s
      let a := admitAll g [r.1] r.2
      fireGroup g 0 0 a.1 a.2) s

/-- The units on a core evaluate what it has delivered. -/
def evalCore (core : Nat) (s : State) : State := forAll (unitsOf s core) (evalCoreUnit core) s

/-- The place, before a sample, where a stream crosses a level upwards, searched backwards: samples newest first with the
index of the first; the sample at or above the level, and the part of a sample before it as a fraction. -/
def crossBack (level : Int) : List Int → Nat → Option (Nat × Int × Int)
  | x :: y :: rest, j => if y < level ∧ level ≤ x then some (j, x - level, x - y) else crossBack level (y :: rest) (j - 1)
  | _, _ => none

/-- The place where it falls below a level, searched forwards: samples oldest first with the index of the first; the
sample before, and the part of a sample after it. -/
def crossForward (level : Int) : List Int → Nat → Option (Nat × Int × Int)
  | x :: y :: rest, j => if y < level ∧ level ≤ x then some (j, x - level, x - y) else crossForward level (y :: rest) (j + 1)
  | _, _ => none

/-- A time of whole samples and two fractions a / b and c / d in 1/16 ns, rounded. -/
def sixteenths (n a b c d : Int) : Nat := (divRound (16 * (n * (b * d) + a * d + c * b)) (b * d).toNat).toNat

/-- The measurements of R273: MEAS_VALID without PERIOD, MEAS_TRUNC, BASELINE, PEAK, AREA, RISE, WIDTH. -/
structure Meas where
  /-- MEAS_VALID -/
  valid : Nat := 0
  /-- MEAS_TRUNC -/
  trunc : Bool := true
  /-- BASELINE -/
  base : Int := 0
  /-- PEAK -/
  peak : Int := 0
  /-- AREA -/
  area : Int := 0
  /-- RISE -/
  rise : Nat := 0
  /-- WIDTH -/
  width : Nat := 0

/-- An i32 at its limits. -/
def sat32 (x : Int) : Int := clampInt (-(2 ^ 31)) (2 ^ 31 - 1) x

/-- The index and value of the first largest of a list. -/
def firstMax : List Int → Nat → Option (Nat × Int)
  | [], _ => none
  | x :: xs, i => match firstMax xs (i + 1) with
    | some (j, y) => some (if x < y then (j, y) else (i, x))
    | none => some (i, x)

/-- RISE and WIDTH about a peak: the samples before it newest first, those from it on oldest first, all less B and scaled
by 10 `n` (R273). -/
def edgesOf (amp : Int) (before after : List Int) (pk : Nat) : Option Nat × Option Nat :=
  let back (l : Int) := crossBack l (after.headD 0 :: before) pk
  let rise := match back amp, back (9 * amp) with
    | some (i, a, b), some (j, c, d) => some (min 0xFFFF (sixteenths ((j : Int) - i) a b (-c) d))
    | _, _ => none
  let width := match back (5 * amp), crossForward (5 * amp) after pk with
    | some (i, a, b), some (j, c, d) => some (min stat32 (sixteenths ((j : Int) - i) a b c d))
    | _, _ => none
  (rise, width)

/-- The comparator of a stream after its samples, newest first: HIGH or LOW by the last of them that sets it (R262). -/
def comparatorHigh (l : Int × Int × Int) : List Int → Bool
  | [] => false
  | [y] => decide (l.1 ≤ y)
  | y :: ys => if l.1 ≤ y then true else if y < l.1 - l.2.2 then false else comparatorHigh l ys

/-- How many samples come before the next falling transition of a comparator (R262). -/
def untilFall (l : Int × Int × Int) : Bool → List Int → Nat
  | _, [] => 0
  | high, y :: ys => if high && decide (y < l.1 - l.2.2) then 0 else untilFall l (high || decide (l.1 ≤ y)) ys + 1

/-- The measurements on samples `ys` whose first has index `lo`, for a reference sample and a window end (R273, R274,
log 42). -/
def measure (f : Fire) (ys : List Int) (lo end_ : Nat) : Meas :=
  let n := 2 ^ byteAt f.conf 53
  let last := f.ref - 1 - u16At f.conf 56
  if last + 1 < n + max lo f.since ∨ f.ref < lo ∨ end_ + 1 ≠ lo + ys.length then {}
  else
    let b : Int := ((ys.drop (last + 1 - n - lo)).take n).foldl (· + ·) 0
    let zs : List Int := ys.map (fun y => y * (n : Int) - b)
    let win := zs.drop (f.ref - lo)
    match firstMax win f.ref with
    | none => {}
    | some (pk, amp) =>
      let l := cfLevels f.raw f.conf
      let high := comparatorHigh l ((ys.take (f.ref + 1 - lo)).drop (f.since - lo)).reverse
      let stop := 1 + untilFall l high (ys.drop (f.ref + 1 - lo))
      let e := if amp ≤ 0 then (none, none)
        else edgesOf amp ((zs.take (pk - lo)).reverse.map (10 * ·)) ((zs.drop (pk - lo)).map (10 * ·)) pk
      { valid := 7 + 8 * bitNat e.1.isSome + 16 * bitNat e.2.isSome
        trunc := decide (0 < amp) && (e.1.isNone || e.2.isNone)
        base := sat32 (divRound (16 * b) n), peak := sat32 (divRound (16 * amp) n)
        area := sat32 (divRound ((win.take stop).foldl (· + ·) 0) n)
        rise := e.1.getD 0, width := e.2.getD 0 }

/-- A trigger record, 48 bytes (R275). -/
def recordBytes (s : State) (f : Fire) (m : Meas) (ovr : Bool) : List Byte :=
  let flags := f.flags ||| (8 * bitNat ovr + 512 * bitNat m.trunc)
  b2 f.mask ++ b1 f.first ++ b1 f.origin ++ stampBytes (stampOf f.g f.off) ++ b1 ((f.g - f.off) % 25).toNat ++ b1 f.frac ++ b2 flags
    ++ leBytes 3 (f.g - f.ref) ++ b1 s.tr.domain.seq ++ b2 s.tr.trigSeq ++ b1 f.patch
    ++ b1 (m.valid + 32 * bitNat f.period.isSome) ++ b4 (unsigned 32 m.base) ++ b4 (unsigned 32 m.peak)
    ++ b4 (unsigned 32 m.area) ++ b2 m.rise ++ b2 f.waveId ++ b4 m.width ++ b4 (f.period.getD 0)

/-- A FIRE of another module is acted on by the units with ACCEPT (R266, R289, R290). -/
def remoteFire (origin g mask : Nat) (s : State) : State :=
  let us := (List.range 16).filter (fun u => cfEnable (unitConf s u) && cfAct (unitConf s u) 4)
  match us with
  | [] => s
  | u :: _ =>
    let c := unitConf s u
    let waves := us.filter (fun u => cfAct (unitConf s u) 1)
    let (w, s) := if waves = [] then ((0xFFFF, 0), s) else claimCapture g waves none s
    let patch := (cfPatches c).headD 0
    let fire : Fire := {
      g := g, off := 0, mask := mask, first := (maskList 16 mask).headD 0, patch := patch, ref := g, frac := 0
      units := maskFrom us, origin := origin + 64
      flags := fireFlags s g c patch + 2 + 16 * bitNat (fallbackAt s u g) + 128 * bitNat (lateArmed s) + w.2
      period := none, wants := us.any (fun u => cfAct (unitConf s u) 0 || cfAct (unitConf s u) 1)
      waveId := w.1, conf := c, raw := fallbackAt s u g, since := (unitAt s u).since }
    let s := addFire fire s
    let s := forAll us (fun u s => when (cfAct (unitConf s u) 2) (openGate u g (unitConf s u)) s) s
    when (us.any (fun u => cfAct (unitConf s u) 5)) (pulseFrom (max (g + 64) (sampleOf s.tc.now))) s

/-- The master role of TR_DOMAIN, enabled (R283, R295). -/
def isMaster (s : State) : Bool := decide (cfg8 s 0x0503 0 = 1 ∧ cfg8 s 0x0503 1 = 1)

/-- The module leaves the domain: DETACHED, with EV_218 (R283). -/
def domainDetach (s : State) : State :=
  match s.tr.domain.state with
  | .off | .detached => s
  | _ => raise 218 [] (onDomain (fun d => { d with state := .detached, armAt := none, disarmAt := none }) s)

/-- A DETACHED module in PADDLE or DRIVE joins on a BEAT: DISARMED, with EV_219 (R283). -/
def domainJoin (s : State) : State :=
  if s.tr.domain.state = .detached ∧ busyState s then raise 219 [] (onDomain (fun d => { d with state := .disarmed }) s) else s

/-- A unit takes a configuration: comparators, hold-off and PERIOD start anew (R262, R294). -/
def placeUnit (u : Nat) (c : List Byte) (s : State) : State :=
  modUnit u (fun x => { x with
    conf := if c.all (· = 0) then [] else c, streams := [], holds := [], lastRef := none, since := sampleOf s.tc.now }) s

/-- A configuration of a unit takes effect (R294); a patch of its mask that its core has no channel for raises EV_269
(R330). -/
def installUnit (u : Nat) (c : List Byte) (s : State) : State :=
  let src := cfSource c
  let bare := onCore c && cfEnable c && (cfPatches c).any (fun p => (outChannel (coreAt s (src - 1)) p).isNone)
  raiseIf bare 269 (b1 (src - 1)) (placeUnit u c s)

/-- The configurations whose tick has come take effect, in order (R294). -/
def applyUnits (s : State) : State :=
  let due := s.tr.pending.filter (fun p => reached s p.2.2)
  forAll due (fun p => installUnit p.1 p.2.1) (onTr (fun x => { x with pending := x.pending.filter (fun p => !reached s p.2.2) }) s)

/-- The configuration last accepted for a unit. -/
def latestConf (s : State) (u : Nat) : List Byte :=
  match (s.tr.pending.filter (fun p => decide (p.1 = u))).getLast? with
  | some p => p.2.1
  | none => unitConf s u

/-- A value of TR_DOMAIN takes effect: OFF, or DETACHED until the next BEAT (R283, R296). -/
def setDomain (v : List Byte) (s : State) : State :=
  let s := setCfg 0x0503 v s
  if byteAt v 0 = 0 then onDomain (fun d => { d with state := .off, armAt := none, disarmAt := none }) s
  else raiseIf (decide (s.tr.domain.state ≠ .detached)) 218 []
    (onDomain (fun d => { d with state := .detached, armAt := none, disarmAt := none, beatAt := s.up }) s)

/-- A value of TR_TRIGIO takes effect (R291). -/
def setTrigio (v : List Byte) (s : State) : State :=
  when (decide (byteAt v 1 ≠ 2)) (onTr (fun x => { x with trigOut := [] })) (setCfg 0x0504 v s)

/-- A setting of the trigger takes effect. -/
def setTrigger (v : Nat × List Byte) (s : State) : State :=
  if v.1 = 0x0503 then setDomain v.2 s else if v.1 = 0x0504 then setTrigio v.2 s else setCfg v.1 v.2 s

/-- The value last accepted for a trigger setting. -/
def latestTrigger (s : State) (tag : Nat) : List Byte :=
  match s.tr.waiting.find? (fun w => decide (w.1 = tag)) with
  | some w => w.2
  | none => cfg s tag

/-- A trigger setting is accepted: it takes effect at once, or in EASY when PD_31 next powers up (R296). -/
def acceptTrigger (tag : Nat) (v : List Byte) (s : State) : State :=
  if busyState s then setTrigger (tag, v) s
  else onTr (fun x => { x with waiting := x.waiting.filter (fun w => decide (w.1 ≠ tag)) ++ [(tag, v)] }) s

/-- PD_31 powers up: the converters converge, what was accepted meanwhile takes effect, the units start (R255, R256, R296). -/
def trPowerUp (s : State) : State :=
  let s := onTr (fun x => { x with allConverged := false, poweredAt := s.up, calAt := s.up }) s
  let s := forAll (List.range 64) (fun p => modAdc p (fun a => { a with state := .converging })) s
  let waiting := s.tr.waiting
  let s := forAll waiting setTrigger (onTr (fun x => { x with waiting := [] }) s)
  let units := (List.range 16).map (fun u => (u, latestConf s u))
  forAll units (fun p => installUnit p.1 p.2) (onTr (fun x => { x with pending := [] }) s)

/-- PD_31 powers down: samples, pending fires and captures are lost, the domain is left; entering EASY keeps the
coefficients (R256, R283, log 42). -/
def trPowerDown (keep : Bool) (s : State) : State :=
  let s := forAll (List.range 64) (fun p => modAdc p (fun a => { a with
    state := .off, before := .off, slices := if keep then a.slices else [] })) s
  domainDetach (onTr (fun x => { x with hist := [], fires := [], capture := [], soft := [] }) s)

/-- An index moved with a step of the time (R489). -/
def moved (d : Int) (g : Nat) : Nat := ((g : Int) + d).toNat

/-- A comparator stream's indices moved. -/
def movedStream (d : Int) (c : CmpStream) : CmpStream :=
  { c with index := moved d c.index, a := (moved d c.a.1, c.a.2), b := (moved d c.b.1, c.b.2) }

/-- A core's clock and the tags of its streams moved. -/
def movedCore (d : Int) (x : WeCore) : WeCore :=
  { x with
    base := x.base + d, switchAt := moved d x.switchAt
    fifo := x.fifo.map (fun f => (f.1, f.2.map (fun y => (y.1, moved d y.2.1, moved d y.2.2))))
    popped := x.popped.map (fun f => (f.1, f.2.map (moved d)))
    outs := x.outs.map (fun f => (f.1, f.2.map (fun y => (moved d y.1, y.2))))
    entries := x.entries.map (fun e => { e with start := moved d e.start }) }

/-- The time steps by a number of samples: what is held by sample index keeps its place on the new scale, and fires and
captures keep the stamps of the old (R489, log 46). -/
def shiftSamples (d : Int) (s : State) : State :=
  let s := onTr (fun x => { x with
    hist := x.hist.map (fun h => (h.1, { h.2 with newest := moved d h.2.newest, ovr := h.2.ovr.map (moved d) }))
    unit := x.unit.map (fun u => (u.1, { u.2 with
      streams := u.2.streams.map (fun c => (c.1, movedStream d c.2)), since := moved d u.2.since
      holds := u.2.holds.map (fun h => (moved d h.1, moved d h.2)), lastRef := u.2.lastRef.map (· + 64 * d) }))
    fires := x.fires.map (fun f => { f with g := moved d f.g, ref := moved d f.ref, since := moved d f.since, off := f.off + d })
    capture := x.capture.map (fun c => (c.1, c.2.map (fun c => { c with g := moved d c.g, off := c.off + d })))
    trigOut := x.trigOut.map (fun p => (moved d p.1, moved d p.2)) }) s
  onWe (fun x => { x with core := x.core.map (fun c => (c.1, movedCore d c.2)) }) s

end Sys2Proof.Machine
end

