-- ==== Sys2Proof/Machine/TcOps.lean ====
section
/-! DEFINITION. The time core's own logic (chapter 11): fine times, the selection of a frequency source, the time states
and steps, exchanges with a master, and the splits and gates of the interval inputs. -/
namespace Sys2Proof.Machine

/-- A TIME_STATS count increased; saturation raises EV_470 (R511). -/
def timeStat (i k : Nat) (s : State) : State :=
  let r := statBump s.tc.stats s.tc.statSat i k
  satEvent 470 r.2.2 (onTc (fun x => { x with stats := r.1, statSat := r.2.1 }) s)

/-- Eight bytes for each of a number of free values drawn (log 23). -/
def drawWords : Nat → State → List Byte × State
  | 0, s => ([], s)
  | n + 1, s =>
    let (v, s) := drawNat s
    let (r, s) := drawWords n s
    (b8 v ++ r, s)

/-- Signed 48-bit difference of two ticks (R187). -/
def tickDiff48 (a b : Stamp) : Int := signed 48 ((tickOf a + 2 ^ 48 - tickOf b) % 2 ^ 48)

/-- Difference of two fine times in units of a tick over 8,192 (R187). -/
def timeDiff (a b : FineTime) : Int := 8192 * tickDiff48 a.tick b.tick + (a.fine : Int) - (b.fine : Int)

/-- A fine time from units of a tick over 8,192. -/
def fineOf (u : Int) : FineTime := { tick := BitVec.ofInt 64 (Int.fdiv u 8192), fine := (u % 8192).toNat }

/-- A TIMEFINE value (R504). -/
def timeFine (t : FineTime) : Nat := tickOf t.tick * 8192 + t.fine % 8192

/-- The priority list of TIME_FREQ (R484, R510). -/
def freqList (s : State) : List Nat := ((cfg s 0x0A01).take 4).takeWhile (fun b => decide (b ≠ 0)) |>.map (·.toNat)

/-- OCXO_RDY use of TIME_FREQ. -/
def ocxoUse (s : State) : Bool := decide (cfg8 s 0x0A01 6 = 1)

/-- A frequency source is usable (R481 to R483). -/
def freqUsable (s : State) (c : Nat) : Bool :=
  match c with
  | 1 => (freqSource s 1).present
  | 2 => (freqSource s 2).present && (!ocxoUse s || (s.tc.ocxoRdy && s.tc.ocxoWarm))
  | 3 => (freqSource s 3).present && (laneAt s 0).lock
  | 4 => decide (s.tc.timeState = .sync)
  | _ => false

/-- The first usable source of the list; 0 if there is none (R484). -/
def firstUsable (s : State) : Nat := ((freqList s).find? (freqUsable s)).getD 0

/-- The holdover value: the mean of y over the 1 s that ended 10 ms before now (R484, log 46). -/
def holdoverY (s : State) : Int :=
  let ys := (s.tc.yHist.filter (fun e => decide (e.1 + ms 10 ≤ s.up ∧ s.up ≤ e.1 + ms 1010))).map (·.2)
  if ys = [] then s.tc.y else divRound (ys.foldl (· + ·) 0) ys.length

/-- A source is selected and acquired (R484, R485). -/
def selectFreq (c : Nat) (s : State) : State :=
  raise 455 [] (timeStat 4 1 (onTc (fun x => { x with
    freqSrc := c, freqState := .acquiring, everUsable := true, loopAt := s.up }) s))

/-- The moments from which the sources have been usable follow what is usable (R484). -/
def trackUsable (s : State) : State :=
  onTc (fun x => { x with
    usable := [1, 2, 3, 4].foldl (fun t c => tmod none c (fun u => if freqUsable s c then some (u.getD s.up) else none) t) x.usable }) s

/-- The selection follows a change of what is usable (R484). -/
def freqRefresh (s : State) : State :=
  if !s.tc.strobe then s
  else
    let s := trackUsable s
    let cur := s.tc.freqSrc
    let lost := decide (cur ≠ 0) && (!freqUsable s cur || !(freqList s).contains cur)
    let s := if lost then
        raise 456 [] (onTc (fun x => { x with y := holdoverY s, yPhase := 0, freqSrc := 0, freqState := .holdover }) s)
      else s
    if s.tc.freqSrc = 0 ∧ firstUsable s ≠ 0 then selectFreq (firstUsable s) s else s

/-- A frequency source's monitor changed. -/
def modFreqSrc (c : Nat) (f : FreqSource → FreqSource) (s : State) : State :=
  onTc (fun x => { x with src := tmod {} c f x.src }) s

/-- The moment from which OCXO_IN has been present and OCXO_RDY high (R482). -/
def trackOcxo (s : State) : State :=
  onTc (fun x => { x with ocxoSince := if x.ocxoRdy && (freqSource s 2).present then some (x.ocxoSince.getD s.up) else none }) s

/-- A source is lost (R481): EV_451; OCXO_IN starts its warm hold anew when it returns (R482). -/
def freqLost (c : Nat) (s : State) : State :=
  let was := (freqSource s c).present
  let s := modFreqSrc c (fun x => { winAt := x.winAt }) s
  let s := if c = 2 then trackOcxo (onTc (fun x => { x with ocxoWarm := false }) s) else s
  freqRefresh (raiseIf was 451 [] s)

/-- The presence monitors start with the strobe (R481, R499). -/
def startMonitors (s : State) : State := forAll [1, 2, 3] (fun c s => modFreqSrc c (fun _ => { winAt := s.up }) s) s

/-- A source is counted good in one window (R481). -/
def freqGood (c : Nat) (s : State) : State :=
  let s := modFreqSrc c (fun x => { x with good := min 3 (x.good + 1) }) s
  let x := freqSource s c
  if 3 ≤ x.good ∧ !x.present then
    freqRefresh (trackOcxo (raise 450 [] (modFreqSrc c (fun x => { x with present := true }) s)))
  else s

/-- TIME_SRC (R510). -/
def timeSrc (s : State) : Nat := cfg8 s 0x0A02 0

/-- STEP_THR in ps. -/
def stepThr (s : State) : Nat := 1000 * cfg16 s 0x0A02 2

/-- SYNC_THR in ps. -/
def syncThr (s : State) : Nat := 1000 * cfg16 s 0x0A02 4

/-- TIME_STATE changes: SYNC raises EV_458, and the frequency source TIME follows (R483, R487). -/
def setTime (st : TimeState) (s : State) : State :=
  let old := s.tc.timeState
  let s := onTc (fun x => { x with timeState := st, runs := (0, 0), heard := if st = .sync then x.heard else false }) s
  freqRefresh (raiseIf (decide (st = .sync ∧ old ≠ .sync)) 458 [] s)

/-- y is limited to 200 ppm (R478). -/
def clampY (y : Int) : Int := clampInt (-200000000) 200000000 y

/-- What is still to be steered out, brought up to now at PHASE_SLEW; done, its term leaves y (R488). -/
def steerOn (s : State) : State :=
  if s.tc.yPhase = 0 then s
  else
    let gone := cfg16 s 0x0A02 6 * (s.up - s.tc.steerAt) / 4000
    let left := if s.tc.steerPs.natAbs ≤ gone then 0 else s.tc.steerPs - s.tc.steerPs.sign * gone
    onTc (fun x => { x with
      steerPs := left, steerAt := s.up, y := if left = 0 then clampY (x.y - x.yPhase) else x.y
      yPhase := if left = 0 then 0 else x.yPhase }) s

/-- A step is decided: its edge 1,000 ticks ahead, and the count it sets there (R488, R489, log 46). -/
def decideStep (theta : Int) (s : State) : State :=
  let e := s.tc.now + 1000
  let v := e - BitVec.ofInt 64 (divRound theta 25000)
  onTc (fun x => { x with step := some { edge := e, value := v, byCall := false }, runs := (0, 0), steerPs := 0, y := clampY (x.y - x.yPhase), yPhase := 0 }) s

/-- An offset is steered out by a term of PHASE_SLEW in F, against it; with TIME as the frequency source the servo steers F
itself (R488). -/
def steer (theta : Int) (s : State) : State :=
  let s := steerOn s
  let term : Int := if s.tc.freqSrc = 4 then 0 else -(theta.sign * (10000 * cfg16 s 0x0A02 6 : Nat))
  onTc (fun x => { x with
    steerPs := theta, steerAt := s.up, y := clampY (x.y - x.yPhase + term), yPhase := term }) s

/-- COARSE may end in SYNC: with PPS_IN only after a short HOLD, with no source never (R500). -/
def coarseEnds (s : State) : Bool :=
  match timeSrc s with
  | 0 => false
  | 3 => decide (5 * s.tc.holdMs < 40000000)
  | _ => true

/-- A measurement in ACQUIRING or COARSE (R486, R488, R499): a large offset is stepped, eight small ones in a row reach
SYNC. -/
def acquire (theta : Int) (s : State) : State :=
  let coarse := decide (s.tc.timeState = .coarse)
  let first := !s.tc.heard
  let s := onTc (fun x => { x with heard := true }) s
  if stepThr s < theta.natAbs then decideStep theta s
  else
    let s := steer theta s
    let n := if theta.natAbs ≤ syncThr s then (if coarse && first then 0 else s.tc.runs.1 + 1) else 0
    if 8 ≤ n ∧ (!coarse ∨ coarseEnds s) then setTime .sync s
    else onTc (fun x => { x with runs := (min 8 n, 0) }) s

/-- A measurement in SYNC: every offset is steered; the fourth in a row beyond STEP_THR goes to ACQUIRING (R486,
R488). -/
def trackSync (theta : Int) (s : State) : State :=
  let s := steer theta s
  if stepThr s < theta.natAbs then
    if 4 ≤ s.tc.runs.2 + 1 then raise 462 [] (setTime .acquiring s)
    else onTc (fun x => { x with runs := (x.runs.1, x.runs.2 + 1) }) s
  else onTc (fun x => { x with runs := (x.runs.1, 0) }) s

/-- A valid measurement of the time source (R486 to R488); none is acted on while a step is pending (R703). -/
def timeMeasure (theta : Int) (d : Nat) (s : State) : State :=
  let s := onTc (fun x => { x with theta := (theta, d), lastValid := some s.up }) s
  if s.tc.step.isSome then s
  else match s.tc.timeState with
    | .unsync => acquire theta (setTime .acquiring s)
    | .acquiring | .coarse => acquire theta s
    | .sync => trackSync theta s
    | .holdover => if theta.natAbs ≤ stepThr s then setTime .sync (steer theta s) else acquire theta (setTime .acquiring s)

/-- SERIAL_LO of the module (R43). -/
def serialLo (s : State) : Nat := s.sys.serial.toNat % 2 ^ 32

/-- A TIME payload keeps the layout of R490. -/
def timeLayout (p : List Byte) : Bool :=
  let m := byteAt p 0
  decide (p.length = 32 ∧ 1 ≤ m ∧ m ≤ 5 ∧ u32At p 4 ≠ 0 ∧ byteAt p 19 = 0 ∧ uAt 8 p 24 = 0 ∧ u16At p 16 < 8192)
    && decide (byteAt p 1 ≤ (if m = 1 then 1 else 0))
    && decide (-6 ≤ signed 8 (byteAt p 18) ∧ signed 8 (byteAt p 18) ≤ 4)
    && (decide (m = 4) || decide (u32At p 20 = 0))

/-- The timestamp of a TIME payload (R490). -/
def timeStampOf (p : List Byte) : FineTime := { tick := stampAt p 8, fine := u16At p 16 }

/-- DELAY_REQ (R490). -/
def delayReq (s : State) (seq master : Nat) : List Byte :=
  b1 3 ++ b1 0 ++ b2 seq ++ b4 master ++ List.replicate 12 0 ++ b4 (serialLo s) ++ List.replicate 8 0

/-- A group takes part in the exchange of the time source: in the mask and in the mode the source needs (R491, R493). -/
def timeGroup (s : State) (src mode g : Nat) : Bool :=
  decide (timeSrc s = src) && bit (cfg8 s 0x0A02 1) g && decide (groupMode s g = mode) && s.tc.strobe

/-- The best of the masters heard (R491, R493). -/
def bestMaster : List Master → Option Master
  | [] => none
  | m :: ms => match bestMaster ms with
    | none => some m
    | some b => if m.id ≤ b.id then some m else some b

/-- The followed master follows the masters heard; a change of it raises EV_461 and goes to ACQUIRING (R491). -/
def followMaster (s : State) : State :=
  let old := s.tc.master
  let new := bestMaster s.tc.masters
  let s := onTc (fun x => { x with master := new }) s
  match old, new with
  | some a, none => onTc (fun x => { x with exch := [], former := some a }) s
  | none, none => s
  | _, some b =>
    match old.or s.tc.former with
    | some a =>
      let s := onTc (fun x => { x with former := some b }) s
      if a.sender = b.sender then s
      else raise 461 [] (setTime .acquiring (onTc (fun x => { x with exch := [] }) s))
    | none => onTc (fun x => { x with former := some b }) s

/-- A master announces itself (R491). -/
def announce (m : Master) (s : State) : State :=
  followMaster (onTc (fun x => { x with masters := x.masters.filter (fun k => decide (k.sender ≠ m.sender)) ++ [m] }) s)

/-- A DELAY_REQ may be sent: none within 15.625 ms (R491). -/
def mayRequest (s : State) : Bool :=
  match s.tc.lastReq with
  | some t => decide (t + 625000 ≤ s.up)
  | none => true

/-- An exchange is opened by a SYNC. -/
def openExchange (e : Exchange) (s : State) : State :=
  onTc (fun x => { x with lastReq := some s.up, exch := x.exch ++ [e] }) s

/-- Path asymmetry of a group in ps (R492). -/
def asymmetry (s : State) (g : Nat) : Int := i32At (cfg s 0x0A02) (8 + 4 * g)

/-- theta in ps, rounded, from the two differences in fine units and A (R492, log 46). -/
def thetaOf (d21 d43 a : Int) : Int := divRound ((d21 - d43) * 25000 - a * 8192) 16384

/-- D in ps, rounded (R492, log 46). -/
def delayOf (d21 d43 : Int) : Int := divRound ((d21 + d43) * 25000) 16384

/-- A complete exchange is valid and yields its measurement (R492). -/
def completeExchange (e : Exchange) (s : State) : State :=
  match e.t1, e.t3, e.t4 with
  | some t1, some t3, some t4 =>
    let d21 := timeDiff e.t2 t1
    let d43 := timeDiff t4 t3
    let s := onTc (fun x => { x with exch := x.exch.filter (fun k => decide (k ≠ e)) }) s
    timeMeasure (thetaOf d21 d43 (asymmetry s e.group)) (delayOf d21 d43).toNat (timeStat 0 1 s)
  | _, _, _ => s

/-- The exchange with a sequence on a group takes a change, and is completed where it can be (R492). -/
def onExchange (g seq : Nat) (f : Exchange → Exchange) (s : State) : State :=
  match s.tc.exch.find? (fun e => decide (e.group = g ∧ e.seq = seq ∧ s.up ≤ e.opened + ms 1000)) with
  | none => s
  | some e =>
    let e' := f e
    completeExchange e' (onTc (fun x => { x with exch := x.exch.map (fun k => if k = e then e' else k) }) s)

/-- A number of some bytes of a message, the highest byte first. -/
def beAt (n : Nat) (bs : List Byte) (at_ : Nat) : Nat := leNat (bytesAt bs at_ n).reverse

/-- messageType of a PTP message (R493; the layout of IEEE 1588-2019, log 46). -/
def ptpType (m : List Byte) : Nat := byteAt m 0 % 16

/-- Length of a PTP message of a type: Sync, Delay_Req and Follow_Up 44, Delay_Resp 54, Announce 64. -/
def ptpLen (type : Nat) : Nat := if type = 9 then 54 else if type = 11 then 64 else 44

/-- A PTP message is well formed: version 2, its length, nanoseconds below one second (R493, log 46). -/
def ptpFormed (m : List Byte) : Bool :=
  decide (34 ≤ m.length ∧ byteAt m 1 % 16 = 2 ∧ beAt 2 m 2 ≤ m.length ∧ ptpLen (ptpType m) ≤ beAt 2 m 2 ∧ beAt 4 m 40 < 1000000000)

/-- Peer-delay, signalling and management messages (R493). -/
def ptpOther (m : List Byte) : Bool := [2, 3, 10, 12, 13].contains (ptpType m)

/-- domainNumber of a PTP message. -/
def ptpDomain (m : List Byte) : Nat := byteAt m 4

/-- sequenceId of a PTP message. -/
def ptpSeq (m : List Byte) : Nat := beAt 2 m 30

/-- correctionField of a PTP message in 1/65,536 ns. -/
def ptpCorr (m : List Byte) : Int := signed 64 (beAt 8 m 8)

/-- sourcePortIdentity of a PTP message. -/
def ptpSender (m : List Byte) : Nat := beAt 10 m 20

/-- The data set of an Announce in the order of the default comparison, smaller is better: priority1, class, accuracy,
variance, priority2, grandmaster, stepsRemoved, sender (R493, log 46). -/
def ptpRank (m : List Byte) : Nat := leNat (bytesAt m 47 6 ++ bytesAt m 53 8 ++ bytesAt m 61 2 ++ bytesAt m 20 10).reverse

/-- A PTP timestamp with a correction in 1/65,536 ns, as a fine time (R494). -/
def ptpTime (s : State) (m : List Byte) (corr : Int) : FineTime :=
  let origin := uAt 8 (cfg s 0x0A03) 8
  let t : Int := (((beAt 6 m 34 : Int) - (origin : Int)) * 1000000000 + (beAt 4 m 40 : Int)) * 65536 + corr
  fineOf (divRound t 200)

/-- A stamp of an event that comes now: its tick does not lie before the time core's. -/
def stampNow (t : FineTime) (s : State) : FineTime × State :=
  let s := reachTick t.tick s
  ({ tick := s.tc.now, fine := t.fine % 8192 }, s)

/-- The entry of TI_INPUTS of an input. -/
def tiConf (s : State) (i : Nat) : List Byte := bytesAt (cfg s 0x0A05) (12 * i) 12

/-- A TI_INPUTS entry is acceptable (R502, R510). -/
def tiConfOk (v : List Byte) : Bool :=
  decide (byteAt v 0 ≤ 2 ∧ byteAt v 1 ≤ 2 ∧ u16At v 2 ≤ 4095 ∧ byteAt v 4 ≤ 3 ∧ byteAt v 5 ≤ 1 ∧ 1 ≤ u32At v 8 ∧ u32At v 8 ≤ 1048576)

/-- Prescaler of an input. -/
def tiPrescale (s : State) (i : Nat) : Nat := u32At (tiConf s i) 8

/-- A channel's split is counted in (R506). -/
def splitAdd (c : Nat) (d : Int) (s : State) : State :=
  let n := (splitAt s c).acc.1
  let s := modSplit c (fun x => { x with
    acc := (min stat32 (x.acc.1 + 1), x.acc.2.1 + d, x.acc.2.2 + d * d)
    range := match x.range with
      | none => some (d, d)
      | some (a, b) => some (min a d, max b d)
    last := (d :: x.last).take 1024 }) s
  raiseIf (decide (n + 1 = stat32)) 470 [] s

/-- An unpaired stop (0) or a discarded split (1) is counted (R505, R506). -/
def splitCount (c i : Nat) (s : State) : State :=
  let old := (splitAt s c).counts
  let n := if i = 0 then old.1 else old.2
  let s := modSplit c (fun x => { x with
    counts := if i = 0 then (min stat32 (x.counts.1 + 1), x.counts.2) else (x.counts.1, min stat32 (x.counts.2 + 1)) }) s
  raiseIf (decide (n + 1 = stat32)) 470 [] s

/-- An interval in fine units lies between MIN_SPLIT in ps and MAX_SPLIT in ns (R505). -/
def splitInRange (x : SplitChan) (d : Int) : Bool :=
  decide ((x.conf.2.2.2.1 : Int) * 8192 ≤ d * 25000 ∧ d * 25000 ≤ (x.conf.2.2.2.2 : Int) * 1000 * 8192)

/-- A stop stamp meets the waiting start of a channel (R505, R506). -/
def splitStop (c : Nat) (t : FineTime) (s : State) : State :=
  let x := splitAt s c
  match x.start with
  | none => splitCount c 0 s
  | some a =>
    let d := timeDiff t a
    let free := modSplit c (fun x => { x with start := none, spans := false })
    if x.spans then splitCount c 1 (free s)
    else if splitInRange x d then splitAdd c d (free s)
    else s

/-- A start stamp waits, in place of one that waits (R505). -/
def splitStart (c : Nat) (t : FineTime) (s : State) : State := modSplit c (fun x => { x with start := some t, spans := false }) s

/-- A stamp of an input meets a split channel (R505): with the same input for both it closes and starts. -/
def splitStamp (i : Nat) (t : FineTime) (c : Nat) (s : State) : State :=
  let x := splitAt s c
  if !x.conf.2.2.1 then s
  else if x.conf.1 = i ∧ x.conf.2.1 = i then
    splitStart c t (if x.start.isSome then splitStop c t s else s)
  else if x.conf.1 = i then splitStart c t s
  else if x.conf.2.1 = i then splitStop c t s
  else s

/-- A gate is open at a tick (R507). -/
def inGate (x : FreqGate) (t : Stamp) : Bool := decide (0 ≤ stampDiff t x.start ∧ stampDiff t x.start < 40000 * x.ms)

/-- Sums over the stamps of a gate: N, Σn, Σt, Σn², Σnt, Σt², relative to the first stamp (R507). -/
def gateSums (xs : List (Nat × Int)) : Int × Int × Int × Int × Int × Int :=
  match xs with
  | [] => (0, 0, 0, 0, 0, 0)
  | (n0, t0) :: _ => xs.foldl (fun a e =>
      let n : Int := (e.1 : Int) - n0
      let t : Int := e.2 - t0
      (a.1 + 1, a.2.1 + n, a.2.2.1 + t, a.2.2.2.1 + n * n, a.2.2.2.2.1 + n * t, a.2.2.2.2.2 + t * t)) (0, 0, 0, 0, 0, 0)

/-- The square root of a number rounded to the nearest integer. -/
def sqrtRound (v : Nat) : Nat := (sqrtBits (4 * v) 128 0 + 1) / 2

/-- FREQ in µHz and RESID in 0.01 ps of a gate with at least 3 stamps (R507, R508). -/
def regression (xs : List (Nat × Int)) : Nat × Nat :=
  let (n, sn, st, snn, snt, stt) := gateSums xs
  let num := n * snt - sn * st
  let den := n * snn - sn * sn
  let f := divRoundNat (10 ^ 18 * 8192 * den.toNat) (25000 * num.toNat)
  let rss := (n * stt - st * st) * den - num * num
  let ms := divRoundNat (rss.toNat * 2500000 ^ 2) (den.toNat * n.toNat * n.toNat * 8192 ^ 2)
  (f, sqrtRound ms)

/-- The record of a gate (R508). -/
def gateRecord (g : FreqGate) (result : Nat) (y : Int) : List Byte :=
  let r := if result = 0 then regression g.stamps else (0, 0)
  let y := if g.steer.2 = 0 then y else divRound g.steer.1 g.steer.2
  stampBytes g.start ++ b4 g.ms ++ b1 result ++ [0, 0, 0] ++ b8 g.edges ++ b4 (min stat32 g.stamps.length)
    ++ b4 (min stat32 r.2) ++ b8 r.1 ++ b4 (unsigned 32 y) ++ b4 0

/-- A gate ends with a result: 0 OK, 1 STEP, 2 HOLD, 3 TOO_FEW, 4 STOPPED (R508). Its job ends unless gates follow back
to back; after a step the next one opens at the step edge (log 46). -/
def endGate (i result : Nat) (s : State) : State :=
  match (tiAt s i).gate with
  | none => s
  | some g =>
    let result := if result = 0 ∧ g.stamps.length < 3 then 3 else result
    let again := g.continuous && decide (result = 0 ∨ result = 1 ∨ result = 3)
    let start := if result = 1 then s.tc.now else g.start + BitVec.ofNat 64 (40000 * g.ms)
    let next : Option FreqGate := if again then some { g with start := start, stamps := [], edges := 0, steer := (0, 0) } else none
    let s := modTi i (fun x => { x with gate := next, results := (gateRecord g result s.tc.y :: x.results).take 16 }) s
    let s := raise (if result = 0 then 468 else 469) [] s
    if again then s
    else if result = 0 then jobDone g.job s
    else if result = 2 then endJob g.job 3 stState 0x10 s
    else jobFail g.job s

/-- The step edge (R489, R501, R506, R508): frames close on the old scale, then the count and the blocks' local
counters are set; gates and splits that
span it end. -/
def takeStep (st : Step489) (s : State) : State :=
  let s := reachTick st.edge s
  let s := forAll (List.range 16) closeAll s
  let old := s.tc.now
  let s := shiftSamples (25 * stampDiff st.value old) (onTc (fun x => { x with now := st.value, step := none }) s)
  let s := forAll (List.range 256) (fun k => modBlock k (fun x => { x with counterOff := 0, reload := false })) s
  let s := forAll ((List.range 4).filter (fun i => match (tiAt s i).gate with
    | some g => decide (0 ≤ stampDiff old g.start)
    | none => false)) (fun i => endGate i 1) s
  let s := forAll (List.range 4) (fun c => modSplit c (fun x => { x with spans := x.start.isSome })) s
  let s := timeStat 3 1 s
  let s := if st.byCall then
      let s := onTc (fun x => { x with setting := false }) s
      if timeSrc s = 0 then setTime .unsync s else setTime .acquiring s
    else s
  raise 459 (stampBytes old ++ stampBytes st.value) (advance 1 s)

/-- A TIME_FREQ value is acceptable (R510). -/
def freqConfOk (v : List Byte) : Bool :=
  (v.take 4).all (fun b => decide (b.toNat ≤ 4))
    && decide (byteAt v 4 ≤ 2 ∧ byteAt v 5 ≤ 1 ∧ byteAt v 6 ≤ 1 ∧ 10 ≤ u16At v 12 ∧ u16At v 12 ≤ 1000 ∧ 1 ≤ u16At v 14 ∧ u16At v 14 ≤ 10000)

/-- A TIME_SERVO value is acceptable; LINK and PTP need a group of the mask in their mode (R510). -/
def servoConfOk (s : State) (v : List Byte) : Bool :=
  let src := byteAt v 0
  decide (src ≤ 3 ∧ byteAt v 1 < 16 ∧ 20 ≤ u16At v 2 ∧ 1 ≤ u16At v 4 ∧ u16At v 4 ≤ 1000 ∧ 1 ≤ u16At v 6 ∧ u16At v 6 ≤ 1000)
    && (decide (src = 0 ∨ src = 3) || (List.range 4).any (fun g => bit (byteAt v 1) g && decide (groupMode s g = src)))

/-- A TIME_PTP value is acceptable (R493, R510). -/
def ptpConfOk (v : List Byte) : Bool := decide (byteAt v 0 ≤ 127)

/-- A TIME_PPS value is acceptable (R510). -/
def ppsConfOk (v : List Byte) : Bool := decide (byteAt v 6 ≤ 1 ∧ 40 ≤ u32At v 12 ∧ u32At v 12 ≤ 4000000)

end Sys2Proof.Machine
end

