-- ==== Sys2Proof/Machine/TroubleRecord.lean ====
section
/-! DEFINITION. The commands of the event map, the alarms, the incident and the fault log (chapter 16). -/
namespace Sys2Proof.Machine

/-- A record as its 64 bytes (R657). -/
def recBytes (r : EvRec) : List Byte :=
  b1 r.type ++ [r.flags] ++ b2 r.source ++ b2 r.repeats ++ b2 r.count ++ stampBytes r.stamp ++ b4 r.lastDelta ++
    b4 r.dropped ++ b2 r.incident ++ b1 r.origin ++ [0, 0, 0, 0, 0] ++ padTo 32 r.arg

/-- The ARG of a SUMMARY (R662). -/
def summaryArg (i : Incident) : List Byte :=
  stampBytes i.last ++ b4 i.raises ++ b4 i.alarms ++ b4 i.folded ++ b4 i.coalesced ++ b4 i.dropped ++ b2 i.sources.length ++ [0, 0]

/-- The SUMMARY record of an incident (R657, R661). -/
def summaryOf (s : State) : EvRec :=
  let i := s.ev.incident
  if i.number = 0 then { type := 3, repeats := 0, origin := 0 }
  else {
    type := 3, flags := recFlags false (unsync s), source := i.source, repeats := min 0xFFFF i.raises
    count := tget 0 s.ev.count i.source, stamp := i.first, lastDelta := deltaTicks i.first i.last
    incident := i.number, origin := originOf i.source, arg := summaryArg i }

/-- A pending alarm of a source is committed (R658, R659). -/
def commitPending (n : Nat) (s : State) : State :=
  match tget none s.ev.pending n with
  | none => s
  | some p =>
    let s := evChange (fun s => match commitAlarm (raiseCtx 2 s) s.up n p s.ev with
      | (e, none) => { s with ev := e }
      | (e, some m) => raise m [] { s with ev := e }) s
    raiseIf (!tc0Path s) 402 [] s

/-- A pending alarm meets a full TC0 source queue and stays pending, held; EV_605 once for each hold (R658). -/
def holdPending (n : Nat) (p : PendingAlarm) (s : State) : State :=
  let s := when (!p.held) (evChange (onEv (fun e => (evStat 3 1 e).1))) s
  let s := onEv (fun e => { e with
    pending := tput none n (some { p with held := true }) e.pending, recent := tput none n none e.recent }) s
  if s.ev.holdSeen then s else raise 605 [] (onEv (fun e => { e with holdSeen := true }) s)

/-- 100 us have passed since an alarm of a source was committed: what was folded is committed, or the guard ends
(R658). -/
def execAlarmPendingCommit (src : Nat) (s : State) : Out :=
  event (tget none s.ev.recent src).isSome (fun s =>
    let s := reachUp ((tget none s.ev.recent src).getD 0 + us 100) s
    match tget none s.ev.pending src with
    | none => onEv (fun e => { e with recent := tput none src none e.recent }) s
    | some p => if 64 ≤ s.ev.tc0.length then holdPending src p s else commitPending src s) s

/-- The pending alarms that wait only for space, as source and first raise. -/
def waitingAlarms (s : State) : List (Nat × Stamp) :=
  s.ev.pending.filterMap (fun k => match k.2 with
    | some p => if (tget none s.ev.recent k.1).isSome then none else some (k.1, p.first)
    | none => none)

/-- The waiting alarm whose first raise is earliest. -/
def earliestAlarm (xs : List (Nat × Stamp)) : Option (Nat × Stamp) :=
  xs.foldl (fun b x => match b with
    | none => some x
    | some y => if stampDiff x.2 y.2 < 0 then some x else some y) none

/-- Space has returned in the TC0 source queue: a waiting alarm is committed, the earliest first (R658, log 36). -/
def releaseOne (s : State) : State :=
  match earliestAlarm (waitingAlarms s) with
  | none => s
  | some (n, _) => if 64 ≤ s.ev.tc0.length then s else commitPending n s

/-- Alarms held for want of space go out while there is space (R32, R658). -/
def execAlarmHeldRelease (s : State) : Out :=
  event (decide (s.ev.tc0.length < 64) && !(waitingAlarms s).isEmpty) (fun s =>
    let s := forAll (waitingAlarms s) (fun _ => releaseOne) s
    onEv (fun e => { e with holdSeen := !(waitingAlarms s).isEmpty }) s) s

/-- The incident closes: the SUMMARY goes to TC0, the fault log and the TC3 ring, EV_609 (R661). -/
def closeIncident (s : State) : State :=
  let r := summaryOf s
  let s := evChange (onEv (fun e => { (evStat 1 1 e).1 with incident := { e.incident with isOpen := false } })) s
  let held := { r with flags := if tc0Path s then r.flags else r.flags ||| 2 }
  let s := onEv (flogAdd r) s
  let s := logRecord r s
  let s := tc0Send { stream := 16, kind := 0x10, payload := [], alarm := some held } s
  raise 609 [] s

/-- INCIDENT_CALM has passed with no ALARM raise, no alarm is pending and the TC0 source queue is empty (R661). -/
def execIncidentCalmExpiry (s : State) : Out :=
  event (s.ev.incident.isOpen && s.ev.pending.isEmpty && s.ev.tc0.isEmpty) (fun s =>
    closeIncident (reachUp (s.ev.incident.lastUp + ms (cfg16 s 0x0F03 0)) s)) s

/-- The middle one of three numbers (R652). -/
def median (a b c : Nat) : Nat := max (min a b) (min (max a b) c)

/-- The value of a voted field: the majority, or by bit or median without one (R652, log 36). -/
def votedField (u : EventUpset) : Nat :=
  if u.kind = 0 then (u.a &&& u.b) ||| (u.a &&& u.c) ||| (u.b &&& u.c)
  else if u.a = u.b ∨ u.a = u.c then u.a else if u.b = u.c then u.b else median u.a u.b u.c

/-- A bit word of a 640-bit map replaced. -/
def putWord (v : BitVec 640) (k w : Nat) : BitVec 640 :=
  BitVec.ofNat 640 (v.toNat - evWord v k * 2 ^ (32 * k) + w % 2 ^ 32 * 2 ^ (32 * k))

/-- The fault-log ring read from another place (R652, log 36). -/
def movePointer (p : Nat) (e : EvState) : EvState :=
  if e.flogRing.length < 960 then { e with flogRing := e.flogRing.take p, flogPos := min p e.flogRing.length }
  else
    let k := (p + 960 - e.flogPos) % 960
    { e with flogRing := e.flogRing.drop k ++ e.flogRing.take k, flogPos := p % 960 }

/-- One voted field of the event state is reloaded (R652). -/
def eventVote (u : EventUpset) (s : State) : State :=
  if u.a = u.b ∧ u.b = u.c then s
  else
    let v := votedField u
    let major := decide (u.a = u.b ∨ u.a = u.c ∨ u.b = u.c)
    let s := onEv (fun e =>
      if u.kind = 0 then { e with sticky := putWord e.sticky (u.k % 20) v &&& definedSources }
      else if u.kind = 1 then (if isDefined u.k then { e with count := tput 0 u.k (v % 2 ^ 16) e.count } else e)
      else if v = e.flogPos then e else movePointer v e) s
    raise (if major then 603 else 604) [] s

/-- The event state is voted (R652). -/
def execEventStateTmrVote (upset : List EventUpset) (s : State) : Out := event (!s.sys.por) (forAll upset eventVote) s

/-- A source as EVT_READ gives it (R667). -/
def sourceBytes (s : State) (n : Nat) : List Byte :=
  if isDefined n then
    b1 (word [(0, evClass s.ev n), (2, bitNat (irqFlag s n)), (3, bitNat (bit s.ev.en.toNat n)), (4, bitNat (bit s.ev.sticky.toNat n))])
      ++ [0] ++ b2 (tget 0 s.ev.count n) ++ stampBytes (tget 0 s.ev.last n)
  else List.replicate 12 0

/-- EVT_READ, 0x0F03 (R667). -/
def execEvtRead (mb : Fin 8) (s : State) : Out :=
  call mb 0x0F03 epdPri 3 (fun p => need (decide (1 ≤ p8 p 2 ∧ p8 p 2 ≤ 19 ∧ p16 p 0 + p8 p 2 ≤ 640)) (fun s =>
    okBytes ((List.range (p8 p 2)).flatMap (fun i => sourceBytes s (p16 p 0 + i))) s)) s

/-- The entries of a table from `a` to below `b` removed. -/
def clearRange {α : Type} (a b : Nat) (t : Table α) : Table α := t.filter (fun k => decide (k.1 < a ∨ b ≤ k.1))

/-- EVT_CLEAR, 0x0F04 (R654, R667). -/
def execEvtClear (mb : Fin 8) (s : State) : Out :=
  call mb 0x0F04 epdPri 5 (fun p =>
    let a := p16 p 0
    let b := p16 p 0 + p16 p 2
    need (decide (1 ≤ p16 p 2 ∧ p16 p 2 ≤ 640 ∧ b ≤ 640 ∧ p8 p 4 < 4)) (fun s =>
      let s := when (bit (p8 p 4) 0) (onEv (fun e => { e with
        sticky := e.sticky &&& ~~~ BitVec.ofNat 640 (2 ^ b - 2 ^ a) })) s
      ok (when (bit (p8 p 4) 1) (onEv (fun e => { e with
        count := clearRange a b e.count, last := clearRange a b e.last, arg := clearRange a b e.arg })) s))) s

/-- EVT_CONFIG, 0x0F05 (R655, R667). -/
def execEvtConfig (mb : Fin 8) (s : State) : Out :=
  call mb 0x0F05 epd 5 (fun p =>
    let n := p16 p 0
    need (isDefined n && decide (p8 p 2 ≤ 2 ∧ p8 p 3 ≤ 1 ∧ p8 p 4 ≤ 1)) (fun s =>
      ok (onEv (fun e => { e with
        cfg := tput none n (some (p8 p 2, decide (p8 p 3 = 1))) e.cfg
        en := if p8 p 4 = 1 then e.en ||| BitVec.ofNat 640 (2 ^ n) else e.en &&& ~~~ BitVec.ofNat 640 (2 ^ n) }) s))) s

/-- EVT_SUMMARY, 0x0F06 (R661). -/
def execEvtSummary (mb : Fin 8) (s : State) : Out :=
  call mb 0x0F06 epdPri 0 (fun _ s => okBytes (recBytes (summaryOf s)) s) s

/-- The fault log, oldest first (R663). -/
def faultLog (s : State) : List EvRec := s.ev.flogFirst ++ s.ev.flogRing

/-- FLOG_READ, 0x0F07; records past the end are left out (R667, log 36). -/
def execFlogRead (mb : Fin 8) (s : State) : Out :=
  call mb 0x0F07 epd 3 (fun p => need (decide (1 ≤ p8 p 2 ∧ p8 p 2 ≤ 3)) (fun s =>
    okBytes (b2 (faultLog s).length ++ [0, 0] ++ (((faultLog s).drop (p16 p 0)).take (p8 p 2)).flatMap recBytes) s)) s

/-- FLOG_CLEAR, 0x0F08 (R663). -/
def execFlogClear (mb : Fin 8) (s : State) : Out :=
  call mb 0x0F08 epd 0 (fun _ s => ok (onEv (fun e => { e with flogFirst := [], flogRing := [], flogPos := 0 }) s)) s

/-- EVT_STATS, 0x0F0B (R667). -/
def execEvtStats (mb : Fin 8) (s : State) : Out :=
  call mb 0x0F0B epd 1 (fun p s => okBytes (statBytes 9 s.ev.stats s.ev.statSat)
    (when (decide (p8 p 0 = 1)) (onEv (fun e => { e with stats := [], statSat := 0 })) s)) s

/-- EVT_TRACE_CONFIG, 0x0F0C (R660, R667). -/
def execEvtTraceConfig (mb : Fin 8) (s : State) : Out :=
  call mb 0x0F0C epd 4 (fun p s => ok (setCfgEntry 0x0F03 4 1 (p.take 4) s)) s

end Sys2Proof.Machine
end

