-- ==== Sys2Proof/Machine/Window.lean ====
section
/-! DEFINITION. The host window and its two paths: sideband transactions, control packets and word writes
(R40 to R51, R445, R446, R654, R695 to R697). -/
namespace Sys2Proof.Machine

/-- RING is written 1 in an idle mailbox: BUSY, DONE clear, and the request waits its turn (R49, R54, R697); in a boot
stopped for want of a cox it has no effect (R85). -/
def ring (n : Nat) (s : State) : State :=
  if s.sys.noCox then s else
    let s := modMb n (fun m => { m with busy := true, done := false, taken := false }) s
    when (2 ≤ n) (onSys (fun x => { x with waitQ := x.waitQ ++ [n] })) s

/-- A write to a mailbox word; while BUSY, a write to payload, LEN, SEQ or RING is ignored and raises EV_016
(R51). A RING write has no effect in a boot stopped for want of a cox (R697). -/
def mailboxWrite (n off : Nat) (w : Word) (s : State) : State :=
  let m := mbAt s n
  if off = 4 then s
  else if off = 0 ∧ (!bit w.toNat 0 ∨ s.sys.noCox) then s
  else if m.busy then raise 16 [] s
  else if off = 0 then ring n s
  else if off = 8 then modMb n (fun m => { m with reqSeq := w.toNat % 2 ^ 16 }) s
  else if off = 12 then modMb n (fun m => { m with reqLen := w.toNat % 2 ^ 8 }) s
  else modMb n (fun m => { m with payload := tfill 0 (off - 16) (leBytes 4 w.toNat) m.payload }) s

/-- A W1C write to EVENT_STICKY_k: the chosen sticky bits clear, the counts stay (R654). -/
def stickyClear (k : Nat) (w : Word) (s : State) : State :=
  onEv (fun e => { e with sticky := e.sticky &&& ~~~ (BitVec.ofNat 640 (w.toNat * 2 ^ (32 * k))) }) s

/-- A write to EVENT_EN_k: the enables of defined sources (R654). -/
def enableWrite (k : Nat) (w : Word) (s : State) : State :=
  onEv (fun e =>
    let sel := BitVec.ofNat 640 ((2 ^ 32 - 1) * 2 ^ (32 * k))
    { e with en := (e.en &&& ~~~ sel) ||| (BitVec.ofNat 640 (w.toNat * 2 ^ (32 * k)) &&& definedSources) }) s

/-- A word written to the window at an aligned address; an unlisted address and every read-only word ignore it
(R40). -/
def windowWrite (addr : Nat) (w : Word) (s : State) : State :=
  if addr % 4 ≠ 0 then s
  else if 0x100 ≤ addr ∧ addr < 0x900 then mailboxWrite ((addr - 0x100) / 0x100) (addr % 0x100) w s
  else if 0x1000 ≤ addr ∧ addr < 0x1050 then stickyClear ((addr - 0x1000) / 4) w s
  else if 0x1100 ≤ addr ∧ addr < 0x1150 then enableWrite ((addr - 0x1100) / 4) w s
  else s

/-- Words written at ascending addresses. -/
def windowWrites : Nat → List Word → State → State
  | _, [], s => s
  | addr, w :: ws, s => windowWrites (addr + 4) ws (windowWrite (addr % 2 ^ 32) w s)

/-- Words read from ascending addresses, each sent byte 0 first (R46). -/
def windowReads (s : State) (addr n : Nat) : List Byte :=
  (List.range n).flatMap (fun i => b4 (windowRead s ((addr + 4 * i) % 2 ^ 32)).toNat)

/-- The complete 32-bit words of a byte string; an incomplete final word is discarded (R46). -/
def wordsOf : List Byte → List Word
  | a :: b :: c :: d :: r => BitVec.ofNat 32 (leNat [a, b, c, d]) :: wordsOf r
  | _ => []

/-- Sideband READ (R46): window words, or zero bytes where the address is not aligned (R695) or the window is not
ready (R696); ignored with POR_N low. -/
def execSbRead (addr : Word) (words : Nat) (s : State) : Out :=
  event (!s.sys.por) (fun s =>
    onSys (fun x => { x with sbOut := some (
      if s.sys.windowReady ∧ addr.toNat % 4 = 0 then windowReads s addr.toNat words
      else List.replicate (4 * words) 0) }) s) s

/-- Sideband WRITE (R46): each complete word; a misaligned address (R695), a window not ready (R696) or an incomplete
final word leaves STATUS bit 2 set (log 29). -/
def execSbWrite (addr : Word) (data : List Byte) (s : State) : Out :=
  event (!s.sys.por) (fun s =>
    if s.sys.windowReady ∧ addr.toNat % 4 = 0 then
      let s := onSys (fun x => { x with discarded := decide (data.length % 4 ≠ 0), sbOut := none }) s
      windowWrites addr.toNat (wordsOf data) s
    else onSys (fun x => { x with discarded := true, sbOut := none }) s) s

/-- Sideband STATUS (R46): window ready, boot hold, a word of the last WRITE discarded. -/
def execSbStatus (s : State) : Out :=
  event (!s.sys.por) (fun s =>
    onSys (fun x => { x with sbOut := some (b1 (word [(0, bitNat x.windowReady), (1, bitNat x.bootHold),
      (2, bitNat x.discarded)])) }) s) s

/-- Any other sideband command is ignored and SB_SDO stays high-impedance (R46). -/
def execSbUnknownCommand (cmd : Byte) (s : State) : Out :=
  event (!s.sys.por && decide (cmd ≠ 0x0B ∧ cmd ≠ 0x02 ∧ cmd ≠ 0x05))
    (onSys (fun x => { x with sbOut := none })) s

/-- A word write reaches the window (R40, R47, R51, R696). -/
def execWindowWrite (addr w : Word) (s : State) : Out :=
  event (!s.sys.por && s.sys.windowReady) (windowWrite addr.toNat w) s

/-- A write of ones clears sticky bits of EVENT_STICKY_k (R654). -/
def execEventStickyClear (k : Nat) (w : Word) (s : State) : Out :=
  event (!s.sys.por && s.sys.windowReady && decide (k < 20)) (stickyClear k w) s

/-- A LK_STATS count of a group increased; saturation raises EV_418 (R474). -/
def lkStat (g i k : Nat) (s : State) : State :=
  let r := statBump (groupAt s g).stats (groupAt s g).statSat i k
  satEvent 418 r.2.2 (modGroup g (fun x => { x with stats := r.1, statSat := r.2.1 }) s)

/-- The TC0 rank of a group, 0 highest (R473). -/
def tc0Rank (s : State) (g : Nat) : Nat := cfg8 s 0x0901 (8 * g + 5)

/-- The best of a list of groups by TC0 rank; equal ranks go to the lower group. -/
def bestRank (s : State) : List Nat → Option Nat
  | [] => none
  | g :: gs =>
    match bestRank s gs with
    | none => some g
    | some h => if tc0Rank s g ≤ tc0Rank s h then some g else some h

/-- The group a TC0 packet of the module goes out on (R448): by rank among the RUNNING groups that allow TC0, those at
16.0 Gb/s or faster first. -/
def tc0Group (s : State) : Option Nat :=
  let ok := (List.range 4).filter (fun g => (groupAt s g).running && bit (groupAt s g).classes.toNat 0)
  match bestRank s (ok.filter (fun g => decide (1 ≤ (groupAt s g).rate))) with
  | some g => some g
  | none => bestRank s ok

/-- A control answer leaves in the class of its request, on the group it arrived on when that group allows the class,
else on the path of R448 (R445, R446). -/
def ctrlAnswer (rq : CtrlReq) (payload : List Byte) (s : State) : State :=
  let own := (groupAt s rq.group).running && bit (groupAt s rq.group).classes.toNat rq.cls
  if rq.cls = 0 then
    tc0Send { stream := 17, kind := 0x12, payload := payload, group := if own then some rq.group else none } s
  else
    match (if own then some rq.group else tc0Group s) with
    | some g => modGroup g (fun x => { x with out := x.out ++ [(rq.cls, 17, 0x12, payload)] }) s
    | none => s

/-- RESULT of a control request: 3 CLASS, 1 ALIGN, 2 COUNT, 0 OK (R445; the order among them is log 30). -/
def ctrlResult (rq : CtrlReq) : Nat :=
  if rq.cls = 1 ∨ rq.cls = 3 then 3
  else if rq.addr % 4 ≠ 0 then 1
  else if rq.count < 1 ∨ (if rq.cls = 0 then 13 else 60) < rq.count then 2
  else 0

/-- The fixed part of a CTRL_RSP (R445). -/
def ctrlHead (rq : CtrlReq) (op : Nat) : List Byte :=
  b2 rq.tag ++ b1 (op + 0x80) ++ b1 rq.count ++ b4 rq.addr ++ [BitVec.ofNat 8 (ctrlResult rq), 0, 0, 0]

/-- A control request reaches the window: the group is RUNNING, the packet is good and the window is ready. -/
def ctrlArrives (rq : CtrlReq) (s : State) : Bool :=
  !s.sys.por && s.sys.windowReady && rq.crcOk && decide (rq.group < 4 ∧ rq.cls < 4) && (groupAt s rq.group).running

/-- CTRL_REQ with OP READ (R445). -/
def execCtrlRead (rq : CtrlReq) (s : State) : Out :=
  event (ctrlArrives rq s) (fun s =>
    let s := lkStat rq.group 6 1 s
    ctrlAnswer rq (ctrlHead rq 0 ++ (if ctrlResult rq = 0 then windowReads s rq.addr rq.count else [])) s) s

/-- CTRL_REQ with OP WRITE (R445); a request whose DATA is shorter than COUNT words breaks R445 and raises EV_417. -/
def execCtrlWrite (rq : CtrlReq) (s : State) : Out :=
  event (ctrlArrives rq s) (fun s =>
    let s := lkStat rq.group 6 1 s
    if ctrlResult rq = 0 then
      if rq.data.length < rq.count then raise 417 [] s
      else ctrlAnswer rq (ctrlHead rq 1) (windowWrites rq.addr (rq.data.take rq.count) s)
    else ctrlAnswer rq (ctrlHead rq 1) s) s

end Sys2Proof.Machine
end

