-- ==== Sys2Proof/Machine/LkOps.lean ====
section
/-! DEFINITION. The link stage's own logic (chapter 10): rates and widths, the group's way to RUNNING and out of it, the
forming and choice of packets, repechage, and the side links. -/
namespace Sys2Proof.Machine

/-- Signalled rate of a rate code in 1/100 Mb/s (R425). -/
def rateOf : Nat → Nat
  | 0 => 800000 | 1 => 1600000 | 2 => 2578125 | _ => 3200000

/-- A byte of a group's LK_LANES entry (R473). -/
def laneCfg (s : State) (g i : Nat) : Nat := cfg8 s 0x0901 (8 * g + i)

/-- The rate code that R513 gives a group in the present module state (log 45). -/
def stateRate (s : State) (g : Nat) : Nat :=
  match s.sys.power with
  | .drive => laneCfg s g 1
  | .paddle => laneCfg s g 7
  | _ => laneCfg s g 6

/-- The top rate a group negotiates with (R705). -/
def topRate (s : State) (g : Nat) : Nat :=
  let t := min (laneCfg s g 1) (stateRate s g)
  match (groupAt s g).cap with
  | some c => min t c
  | none => t

/-- The lane group of a lane. -/
def groupOfLane (l : Nat) : Nat := l / 4

/-- A lane's candidate when it enters RATE from DETECT: the group's top rate, or its own lower one (R430, R432, R705). -/
def candidate (s : State) (l : Nat) : Nat :=
  match (laneAt s l).top with
  | some t => min t (topRate s (groupOfLane l))
  | none => topRate s (groupOfLane l)

/-- A lane with what negotiation has found out forgotten. -/
def freshLane (l : Lane) (st : LaneState) (rate : Nat) : Lane :=
  { l with state := st, rate := rate, lock := false, neg := (0, 0, 0), fecOn := false, ready := false, logical := 0
           markers := (0, 0), missed := 0, bad := [] }

/-- A lane enters a state, at the present time. -/
def enterLane (l : Nat) (f : Lane → Lane) (s : State) : State := modLane l (fun x => { f x with since := s.up }) s

/-- A lane starts again at DETECT, where its group is native (R430). -/
def toDetect (l : Nat) (s : State) : State :=
  enterLane l (fun x => { freshLane x .detect (topRate s (groupOfLane l)) with top := none }) s

/-- A lane enters RATE with a candidate (R430). -/
def toRate (l c : Nat) (s : State) : State := enterLane l (fun x => freshLane x .rate c) s

/-- The next lower code, or the transmitter off for 1 ms (R430). -/
def stepDown (l : Nat) (s : State) : State :=
  let r := (laneAt s l).rate
  if r = 0 ∨ r - 1 < laneCfg s (groupOfLane l) 2 then enterLane l (fun x => freshLane x .txOff r) s else toRate l (r - 1) s

/-- The lanes of a group that are not in TEST. -/
def freeLanes (s : State) (g : Nat) : List Nat := (groupLanes g).filter (fun l => decide ((laneAt s l).state ≠ .test))

/-- The lanes a group uses. -/
def usedLanes (s : State) (g : Nat) : List Nat := (groupLanes g).filter (fun l => bit (groupAt s g).lanes.toNat (l - 4 * g))

/-- A control block of a type with the value of its other 56 bits (R428). -/
def ctrlBlock (type rest : Nat) : WireBlock := { ctrl := true, bits := BitVec.ofNat 64 (type + 256 * rest) }

/-- An idle block: type 0x1E and eight idle characters (R428; their codes are those of Clause 49, log 45). -/
def idleBlock : WireBlock := ctrlBlock 0x1E 0

/-- The error block: type 0x1E filled with error characters (R428). -/
def errorBlock : WireBlock := ctrlBlock 0x1E ((List.range 8).foldl (fun a i => a + 0x1E * 128 ^ i) 0)

/-- An ordered set of type 0x4B with an O code and D1 to D3, D1 highest (R428, R429). -/
def orderedSet (o d : Nat) : WireBlock := ctrlBlock 0x4B (d / 65536 % 256 + 256 * (d / 256 % 256) + 65536 * (d % 256) + 2 ^ 24 * o)

/-- The type of a terminate block with some data bytes (R428). -/
def terminateType (n : Nat) : Nat := [0x87, 0x99, 0xAA, 0xB4, 0xCC, 0xD2, 0xE1, 0xFF].getD n 0x87

/-- The blocks after a packet's start block: data blocks, then a terminate block with the last 0 to 7 bytes (R428, R440). -/
def tailBlocks : Nat → List Byte → List WireBlock
  | 0, _ => []
  | f + 1, bs =>
    if 8 ≤ bs.length then { ctrl := false, bits := BitVec.ofNat 64 (uAt 8 bs 0) } :: tailBlocks f (bs.drop 8)
    else [ctrlBlock (terminateType bs.length) (leNat bs)]

/-- The blocks of a packet: a start block with seven bytes, and the rest (R428, R440). -/
def packetBlocks (bytes : List Byte) : List WireBlock :=
  ctrlBlock 0x78 (leNat (bytes.take 7)) :: tailBlocks (bytes.length + 1) (bytes.drop 7)

/-- Blocks of a group's stream go out: block k on logical lane k mod W (R433). -/
def putBlocks (g : Nat) (bs : List WireBlock) (s : State) : State :=
  modGroup g (fun x => { x with
    wire := (bs.zipIdx.map (fun b => ((x.pos + b.2) % max 1 x.width, b.1))).reverse ++ x.wire
    pos := x.pos + bs.length, sinceIdle := x.sinceIdle + bs.length, lastLen := bs.length }) s

/-- A block of each lane goes out at one group position, outside the stream (R433). -/
def putOnAll (g : Nat) (f : Nat → WireBlock) (s : State) : State :=
  modGroup g (fun x => { x with wire := ((List.range x.width).map (fun l => (l, f l))).reverse ++ x.wire, lastLen := 0 }) s

/-- Before a packet that would pass 2,048 blocks without one, an idle block goes out on every lane (R427, R433). -/
def idleGap (g n : Nat) (s : State) : State :=
  if 2047 < (groupAt s g).sinceIdle + n then
    modGroup g (fun x => { x with sinceIdle := 0 }) (putOnAll g (fun _ => idleBlock) s)
  else s

/-- The last blocks of the packet sent last are taken back, as those that had not been sent yet: how many is open
(log 45). -/
def takeBack (g : Nat) (s : State) : List WireBlock × State :=
  let (v, s) := drawNat s
  let n := if (groupAt s g).lastLen < 2 then 0 else 1 + v % ((groupAt s g).lastLen - 1)
  ((((groupAt s g).wire.take n).map (·.2)).reverse,
    modGroup g (fun x => { x with wire := x.wire.drop n, pos := x.pos - n, sinceIdle := x.sinceIdle - n }) s)

/-- A packet on the wire may be cut by an error block: whether one was in flight is open (R436, R458, log 45). -/
def cutFlight (g : Nat) (s : State) : State :=
  let (b, s) := drawBool s
  let s := when b (fun s => putBlocks g [errorBlock] (takeBack g s).2) s
  modGroup g (fun x => { x with sent := match x.sent with
    | p :: ps => { p with cut := p.cut || b } :: ps
    | [] => [] }) s

/-- With no group left that allows TC0, what waits in the source queue waits for a path: alarms go out with HELD, and
EV_402 is raised (R448, R659). -/
def pathLost (s : State) : State :=
  if tc0Path s || s.ev.tc0.isEmpty then s
  else raise 402 [] (onEv (fun e => { e with tc0 := e.tc0.map (fun m => { m with
    alarm := m.alarm.map (fun r => { r with flags := r.flags ||| 2 }) }) }) s)

/-- A group leaves RUNNING: its lanes are taken to a state, EV_393 for each; queues and TC0 follow. -/
def leaveRunning (g : Nat) (st : LaneState) (s : State) : State :=
  let ls := (usedLanes s g).filter (fun l => decide ((laneAt s l).state = .running))
  let s := modGroup g (fun x => { x with running := false, width := 0, lanes := 0, fixed := none }) (cutFlight g s)
  let s := forAll ls (fun l s => raise 393 [] (enterLane l (fun x => { x with
    state := st, ready := false, markers := (0, 0), missed := 0, bad := [], neg := (0, 0, 0) }) s)) s
  pathLost (updateQueues s)

/-- A RUNNING group re-enters GROUP (R436). -/
def groupDown (g : Nat) (s : State) : State :=
  if (groupAt s g).running then
    if groupMode s g = 2 then
      raise 395 [] (pathLost (updateQueues (modGroup g (fun x => { x with running := false, width := 0, lanes := 0 }) (cutFlight g s))))
    else raise 395 [] (leaveRunning g .group s)
  else s

/-- Step 2's lowering or restoring of a group by a code has been answered (R527). -/
def governorAnswer (g code result : Nat) (up : Bool) (s : State) : State :=
  match up, result with
  | false, 0 => onPw (fun x => { x with lowered := g :: x.lowered }) (modGroup g (fun x => { x with cap := some code }) s)
  | false, _ => onPw (fun x => { x with refused := x.refused ||| BitVec.ofNat 4 (2 ^ g) }) s
  | true, 0 =>
    let left := s.pw.lowered.erase g
    onPw (fun x => { x with lowered := left, retry := x.retry &&& ~~~(BitVec.ofNat 4 (2 ^ g)) })
      (modGroup g (fun x => { x with cap := if left.contains g then some code else none }) s)
  | true, _ => onPw (fun x => { x with retry := x.retry ||| BitVec.ofNat 4 (2 ^ g), retryAt := tput 0 g s.up x.retryAt }) s

/-- What follows the answer to a RATE_REQ: the caller is answered, a failure raises EV_412 (R437, R474, R527). -/
def rateAnswer (g result : Nat) (s : State) : State :=
  match (groupAt s g).rateReq with
  | none => s
  | some (code, who) =>
    let s := modGroup g (fun x => { x with rateReq := none }) s
    let s := raiseIf (decide (result ≠ 0)) 412 [] s
    match who with
    | .call mb => respond mb stOk (b1 result) s
    | .state => s
    | .lower => governorAnswer g code result false s
    | .restore => governorAnswer g code result true s

/-- RATE_REQ is sent on every lane of a RUNNING group (R437). -/
def requestRate (g code : Nat) (who : RateBy) (s : State) : State :=
  modGroup g (fun x => { x with rateReq := some (code, who), reqAt := s.up }) s

/-- A group's lanes start again as its mode sets (R424, R430). -/
def restartGroup (g : Nat) (s : State) : State :=
  let s := rateAnswer g 2 (groupDown g s)
  let s := modGroup g (fun x => { x with fixed := none }) s
  forAll (freeLanes s g) (fun l s =>
    match groupMode s g with
    | 0 => enterLane l (fun x => freshLane x .disabled 0) s
    | 1 => toDetect l s
    | _ => enterLane l (fun x => freshLane x .eth 2) s) s

/-- FEC as this module offers and requires it at a rate (R431). -/
def fecOffer (s : State) (g rate : Nat) : Bool × Bool :=
  match rate with
  | 3 => (true, true)
  | 2 => (decide (1 ≤ laneCfg s g 3), decide (laneCfg s g 3 = 2))
  | _ => (false, false)

/-- The result of R431 with the partner's offer and requirement: on, off, or none where the pair is incompatible. -/
def fecResult (own partner : Bool × Bool) : Option Bool :=
  if own.1 && partner.1 then some true
  else if (own.2 && !partner.1) || (partner.2 && !own.1) then none
  else some false

/-- The lanes of a group that wait in GROUP with lock. -/
def groupReady (s : State) (g : Nat) : List Nat :=
  (groupLanes g).filter (fun l => decide ((laneAt s l).state = .group) && (laneAt s l).lock)

/-- The choices of width and rate that some lanes allow, with at least a minimum width: product, width, rate. -/
def widthChoices (s : State) (ls : List Nat) (minW : Nat) : List (Nat × Nat × Nat) :=
  [4, 2, 1].flatMap (fun w => [3, 2, 1, 0].filterMap (fun r =>
    if minW ≤ w ∧ w ≤ (ls.filter (fun l => decide ((laneAt s l).rate = r))).length then some (w * rateOf r, w, r) else none))

/-- The width and rate of R432: the largest product, on a tie the larger width. -/
def chooseWidth (s : State) (g : Nat) : Option (List Nat × Nat) :=
  let ls := groupReady s g
  let best := (widthChoices s ls (laneCfg s g 4)).foldl (fun (b : Option (Nat × Nat × Nat)) c => match b with
    | none => some c
    | some d => if d.1 < c.1 then some c else some d) none
  best.map (fun c => ((ls.filter (fun l => decide ((laneAt s l).rate = c.2.2))).take c.2.1, c.2.2))

/-- R432 fixes the width: a lane left out returns to RATE; where no width is possible all lanes go to DETECT. -/
def fixWidth (g : Nat) (s : State) : State :=
  match chooseWidth s g with
  | none => forAll (freeLanes s g) toDetect s
  | some (ls, r) =>
    let out := (groupReady s g).filter (fun l => !ls.contains l)
    let s := forAll out (fun l s => toRate l r (modLane l (fun x => { x with top := some r }) s)) s
    modGroup g (fun x => { x with fixed := some (ls, r) }) s

/-- The partner's GROUP on the chosen lanes agrees: matching sets with the same width, and the lanes among its own
(R430, R432). -/
def groupAgrees (s : State) (ls : List Nat) : Bool :=
  ls.all (fun l => let n := (laneAt s l).neg
    decide (n.1 = 3 ∧ 3 ≤ n.2.2 ∧ field n.2.1 6 4 = ls.length) && bit n.2.1 (l % 4))

/-- With the width fixed and the partner in agreement the lanes enter ALIGN, numbered in ascending order (R430, R432). -/
def tryAlign (g : Nat) (s : State) : State :=
  match (groupAt s g).fixed with
  | none => s
  | some (ls, r) =>
    if groupAgrees s ls then
      let s := forAll ls.zipIdx (fun p => enterLane p.1 (fun x => { x with
        state := .align, logical := p.2, markers := (0, 0), neg := (0, 0, 0) })) s
      modGroup g (fun x => { x with
        fixed := none, rate := r, width := ls.length, markerAt := s.up
        lanes := BitVec.ofNat 4 (maskOf 4 (fun k => ls.contains (4 * g + k))) }) s
    else s

/-- The class mask of LK_CLASS_MAP for a group. -/
def classMask (s : State) (g : Nat) : BitVec 4 := BitVec.ofNat 4 (cfg8 s 0x0902 g)

/-- The lanes of a group with ALIGN complete enter MAP (R430, R435). -/
def tryMap (g : Nat) (s : State) : State :=
  let ls := usedLanes s g
  let sk := ls.map (fun l => (laneAt s l).skew)
  let near := ls.all (fun l => sk.all (fun k => decide (((laneAt s l).skew - k).natAbs ≤ 800)))
  if ls ≠ [] ∧ ls.all (fun l => decide ((laneAt s l).state = .align ∧ 3 ≤ (laneAt s l).markers.1)) ∧ near then
    let s := forAll ls (fun l => enterLane l (fun x => { x with state := .map, ready := false, neg := (0, 0, 0) })) s
    modGroup g (fun x => { x with proposed := classMask s g, classes := classMask s g }) s
  else s

/-- Waiting entries of a NAK go to the resends when their group is RUNNING (R455). -/
def wakeNaks (g : Nat) (s : State) : State :=
  modGroup g (fun x => { x with resend := x.resend ++ x.nakWait.map (fun e => (e.1, e.2.1)), nakWait := [] }) s

/-- A group enters RUNNING: EV_394, EV_396 below its top rate, EV_397 with fewer than four lanes (R475). -/
def enterRunning (g : Nat) (s : State) : State :=
  let s := modGroup g (fun x => { x with running := true, tailAt := s.up }) s
  let x := groupAt s g
  let s := raise 394 [] s
  let s := raiseIf (decide (groupMode s g = 1 ∧ x.rate < topRate s g)) 396 [] s
  let s := raiseIf (decide (x.width < 4)) 397 [] s
  updateQueues (wakeNaks g s)

/-- A lane enters RUNNING once READY has been sent and received; with the last one its group does (R430). -/
def laneRunning (l : Nat) (s : State) : State :=
  let x := laneAt s l
  if x.state = .map ∧ x.ready ∧ x.neg.1 = 5 then
    let g := groupOfLane l
    let s := raise 392 [] (enterLane l (fun x => { x with state := .running, missed := 0 }) s)
    if (usedLanes s g).all (fun k => decide ((laneAt s k).state = .running)) then enterRunning g s else s
  else s

/-- A NEG set is received on a lane: its type, value and how often in a row (R430). -/
def noteNeg (l type value : Nat) (s : State) : State :=
  modLane l (fun x => { x with
    neg := (type, value, if x.neg.1 = type ∧ x.neg.2.1 = value then x.neg.2.2 + 1 else 1) }) s

/-- The last NEG set is matching: three identical ones in a row. -/
def matching (s : State) (l : Nat) : Bool := decide (3 ≤ (laneAt s l).neg.2.2)

/-- RATE is left for FEC on block lock and matching ADV with the same candidate (R430). -/
def tryFec (l : Nat) (s : State) : State :=
  let x := laneAt s l
  if x.state = .rate ∧ x.lock ∧ x.neg.1 = 1 ∧ 3 ≤ x.neg.2.2 ∧ x.neg.2.1 % 4 = x.rate then
    enterLane l (fun x => { x with state := .fec, neg := (0, 0, 0) }) s
  else s

/-- A rate change is agreed: every lane of the group enters RATE with the code (R437). LN0_RX is lost during it (R481). -/
def rateAgreed (g code : Nat) (s : State) : State :=
  let ls := usedLanes s g
  let s := leaveRunning g .rate s
  let s := forAll ls (fun l => toRate l code) s
  if g = 0 then freqLost 3 s else s

/-- An Ethernet port is RUNNING after lock and alignment on its four lanes and once its destination is resolved (R462,
R465). -/
def ethCheck (g : Nat) (s : State) : State :=
  if groupMode s g = 2 ∧ !(groupAt s g).running ∧ (groupAt s g).mac.isSome
      ∧ (groupLanes g).all (fun l => (laneAt s l).lock && decide ((laneAt s l).state = .eth ∧ 3 ≤ (laneAt s l).markers.1)) then
    let s := forAll (groupLanes g) (fun l => modLane l (fun x => { x with fecOn := true, rate := 2, logical := l % 4 })) s
    enterRunning g (modGroup g (fun x => { x with width := 4, lanes := 0xF, rate := 2, classes := classMask s g }) s)
  else s

/-- The entry of LK_ETH of a group: 28 bytes (R473). -/
def ethConf (s : State) (g : Nat) : List Byte := bytesAt (cfg s 0x0906) (28 * g) 28

/-- Own IPv4 address of a group. -/
def ownIp (s : State) (g : Nat) : Nat := u32At (ethConf s g) 6

/-- Destination IPv4 address of a group. -/
def destIp (s : State) (g : Nat) : Nat := u32At (ethConf s g) 10

/-- The static destination MAC of a group; none where ARP resolves it (R465). -/
def staticMac (s : State) (g : Nat) : Option (BitVec 48) :=
  let m := uAt 6 (ethConf s g) 14
  if m = 0 then none else some (BitVec.ofNat 48 m)

/-- The destination of an Ethernet group is resolved anew. -/
def resolveMac (g : Nat) (s : State) : State :=
  ethCheck g (modGroup g (fun x => { x with mac := staticMac s g, arpAt := s.up, lostAt := s.up }) s)

/-- An Ethernet count increased, saturating (R474): frames out 0, in 1, discarded 2, pauses 3. -/
def ethCount (g i : Nat) (s : State) : State :=
  if groupMode s g = 2 then modGroup g (fun x => { x with eth := tmod 0 i (satAdd stat32 1) x.eth }) s else s

/-- Header, payload, padding and CRC of a stream packet (R440, R441, R443). -/
def packetBytes (cls stream kind flags seq tile g : Nat) (base : Stamp) (payload : List Byte) : List Byte :=
  let body := b1 (0x40 + 16 * cls) ++ b1 stream ++ b1 kind ++ b1 flags ++ b2 seq ++ leBytes 6 (tickOf base)
    ++ b2 payload.length ++ b1 (epochOf base) ++ b1 (tile % 64 + 64 * g) ++ padTo (4 * divUp payload.length 4) payload
  body ++ b4 (crc32c body)

/-- Bytes of the packets in a window. -/
def windowBytes (w : List SentPacket) : Nat := w.foldl (fun a p => a + p.bytes.length) 0

/-- The oldest packets of a window beyond 2 MiB are dropped (R453). -/
def trimWindow : Nat → List SentPacket → List SentPacket
  | _, [] => []
  | n, p :: ps => if n ≤ 2097152 then p :: ps else trimWindow (n - p.bytes.length) ps

/-- The DSCP of a class (R463). -/
def dscpOf : Nat → Nat
  | 0 => 46 | 1 => 34 | 2 => 0 | _ => 8

/-- The source MAC of a group: its setting, or where that is zero the derived address (R465). -/
def sourceMac (s : State) (g : Nat) : List Byte :=
  let m := bytesAt (ethConf s g) 0 6
  let n := s.sys.serial.toNat
  if uAt 6 m 0 = 0 then [0x02, 0xD0] ++ b1 (n / 65536) ++ b1 (n / 256) ++ b1 n ++ b1 g else m

/-- An IPv4 header without options: DF, TTL 64, identification 0, UDP, with its checksum (R463). -/
def ipHeader (dscp len src dst : Nat) : List Byte :=
  let words := [0x4500 + 4 * dscp, len, 0, 0x4000, 0x4011, src / 65536, src % 65536, dst / 65536, dst % 65536]
  let t := words.foldl (· + ·) 0
  let u := t % 65536 + t / 65536
  let sum := 65535 - (u % 65536 + u / 65536) % 65536
  ((words.take 5) ++ [sum] ++ words.drop 5).flatMap (beBytes 2)

/-- The CRC-32 of IEEE 802.3 (log 45). -/
def crc32 (bs : List Byte) : Nat := (crcRefl 0xEDB88320 0xFFFFFFFF bs) ^^^ 0xFFFFFFFF

/-- An Ethernet II frame of a group with preamble and FCS: destination, the tag where one is set, type and data padded to the
shortest frame (R463). -/
def ethII (s : State) (g : Nat) (dest : List Byte) (type : Nat) (data : List Byte) : List Byte :=
  let tag := u16At (ethConf s g) 24
  let body := dest ++ sourceMac s g ++ (if tag = 0 then [] else beBytes 2 0x8100 ++ beBytes 2 tag) ++ beBytes 2 type
    ++ (if data.length < 46 then padTo 46 data else data)
  List.replicate 7 0x55 ++ [0xD5] ++ body ++ b4 (crc32 body)

/-- The Ethernet frame that carries one stream packet as a datagram, without a UDP checksum (R463, R465). -/
def ethFrame (s : State) (g : Nat) (bytes : List Byte) : List Byte :=
  let v := ethConf s g
  let mac : BitVec 48 := (groupAt s g).mac.getD 0
  ethII s g (leBytes 6 mac.toNat) 0x0800 (ipHeader (dscpOf (field (byteAt bytes 0) 5 4)) (28 + bytes.length) (ownIp s g) (destIp s g)
    ++ beBytes 2 (u16At v 20) ++ beBytes 2 (u16At v 22) ++ beBytes 2 (8 + bytes.length) ++ [0, 0] ++ bytes)

/-- An ARP frame of a group: request 1 or answer 2, with the target's addresses (R465). -/
def arpFrame (s : State) (g op : Nat) (dest : List Byte) (mac : List Byte) (ip : Nat) : List Byte :=
  ethII s g dest 0x0806 (beBytes 2 1 ++ beBytes 2 0x0800 ++ [6, 4] ++ beBytes 2 op ++ sourceMac s g ++ beBytes 4 (ownIp s g)
    ++ mac ++ beBytes 4 ip)

/-- A packet goes on the wire of a group: as blocks in native mode, inside a suspension of the packet in flight where it is
so (R440, R449), else as a frame. -/
def putWire (g : Nat) (bytes : List Byte) (len : Nat) (inside : Bool) (s : State) : State :=
  let eth := decide (groupMode s g = 2)
  let bs := packetBlocks bytes
  let frame := if eth then ethFrame s g bytes else []
  let s :=
    if eth then s
    else if inside then
      let (rest, s) := takeBack g s
      putBlocks g rest (putBlocks g ([orderedSet 0xB 0] ++ bs ++ [orderedSet 0xD 0]) s)
    else putBlocks g bs (idleGap g bs.length s)
  let s := modGroup g (fun x => { x with
    sent := { bytes := bytes, frame := frame } :: x.sent
    rateBytes := (s.up, len) :: x.rateBytes.filter (fun e => decide (s.up < e.1 + ms 1000)) }) s
  ethCount g 0 (lkStat g 0 1 s)

/-- A packet is formed and sent on a group: SEQ, copy in the repechage window, TAIL (R444, R453, R456). -/
def sendPacket (g cls stream kind flags : Nat) (base : Stamp) (payload : List Byte) (inside : Bool) (s : State) : State :=
  let seq := tget 0 s.lk.seq stream
  let bytes := packetBytes cls stream kind flags seq (tileIdentity s) g base payload
  let s := onLk (fun x => { x with seq := tput 0 stream ((seq + 1) % 65536) x.seq }) s
  let keep := decide (cls = 0 ∨ cls = 2)
  let s := if keep then modGroup g (fun x => { x with
      tail := tput none stream (some seq) x.tail
      window := if bit (cfg8 s 0x0905 0) g then
          let w := x.window ++ [{ cls := cls, stream := stream, seq := seq, bytes := bytes }]
          trimWindow (windowBytes w) w
        else x.window }) s
    else s
  putWire g bytes payload.length inside s

/-- RESYNC of the header of a packet of streams 16 to 23 (R444). -/
def resyncFlag (s : State) : Nat := 4 * bitNat (resync s)

/-- A packet of streams 16 to 23 (R444). -/
def sendOwn (g cls stream kind : Nat) (payload : List Byte) (s : State) : State :=
  sendPacket g cls stream kind (resyncFlag s) s.tc.now payload false s

/-- The group a TC0 message goes out on: the one its request came on where that allows TC0, else the path of R448. -/
def messageGroup (s : State) (m : Tc0Msg) : Option Nat :=
  match m.group with
  | some g => if (groupAt s g).running && bit (groupAt s g).classes.toNat 0 then some g
    else if m.kind = 0x14 then none else tc0Group s
  | none => tc0Group s

/-- The payload of a TC0 message. -/
def messageBytes (m : Tc0Msg) : List Byte :=
  match m.alarm with
  | some r => recBytes r
  | none => m.payload

/-- A DELAY_REQ leaves on a group: t3 is stamped; its fine code is open (R468, R491). -/
def stampRequest (g : Nat) (m : Tc0Msg) (s : State) : State :=
  if m.kind ≠ 0x14 then s
  else
    let (n, s) := drawNat s
    onExchange g (u16At m.payload 2) (fun e => { e with t3 := some { tick := s.tc.now, fine := n % 8192 } }) s

/-- A TC0 message is sent; it may suspend a packet of another class in flight, which is open (R449, log 45). -/
def sendTc0 (g : Nat) (m : Tc0Msg) (s : State) : State :=
  let s := onEv (fun e => { e with tc0 := e.tc0.erase m }) s
  let (b, s) := drawBool s
  let other := match (groupAt s g).sent with
    | p :: _ => decide (field (byteAt p.bytes 0) 5 4 ≠ 0)
    | [] => false
  let inside := b && other && decide (groupMode s g = 1 ∧ 2 ≤ (groupAt s g).lastLen)
  let s := when inside (lkStat g 1 1) s
  stampRequest g m (sendPacket g 0 m.stream m.kind (resyncFlag s) s.tc.now (messageBytes m) inside s)

/-- A copy with RETX set, and the CRC that belongs to it (R455, log 45). -/
def retxBytes (bytes : List Byte) : List Byte :=
  let body := bytesPut (bytes.take (bytes.length - 4)) 3 (b1 (byteAt bytes 3 ||| 16))
  body ++ b4 (crc32c body)

/-- The packet of a window with a stream and SEQ. -/
def inWindowOf (s : State) (g stream seq : Nat) : Option SentPacket :=
  (groupAt s g).window.find? (fun p => decide (p.stream = stream ∧ p.seq = seq))

/-- The first resend of a class in a group's list (R447, R455). -/
def nextResend (s : State) (g cls : Nat) : Option SentPacket :=
  (groupAt s g).resend.findSome? (fun e => (inWindowOf s g e.1 e.2).filter (fun p => decide (p.cls = cls)))

/-- Runs of missing packets: stream, first SEQ, number, at most 256 (R454). -/
def addRun (stream seq : Nat) : List (Nat × Nat × Nat) → List (Nat × Nat × Nat)
  | [] => [(stream, seq, 1)]
  | [r] => if r.1 = stream ∧ (r.2.1 + r.2.2) % 65536 = seq ∧ r.2.2 < 256 then [(r.1, r.2.1, r.2.2 + 1)] else [r, (stream, seq, 1)]
  | r :: rs => r :: addRun stream seq rs

/-- GONE packets for runs, 32 to a packet (R455). -/
def gonePackets : Nat → List (Nat × Nat × Nat) → List (List Byte)
  | 0, _ => []
  | f + 1, rs =>
    if rs = [] then []
    else
      let part := rs.take 32
      (b2 part.length ++ b2 0 ++ part.flatMap (fun r => b1 r.1 ++ b1 0 ++ b2 r.2.1 ++ b2 r.2.2)) :: gonePackets f (rs.drop 32)

/-- Packets are reported gone on a group (R455): EV_405. -/
def reportGone (g : Nat) (xs : List (Nat × Nat)) (s : State) : State :=
  if xs = [] then s
  else
    let runs := xs.foldl (fun a e => addRun e.1 e.2 a) []
    let s := modGroup g (fun x => { x with out := x.out ++ (gonePackets 300 runs).map (fun p => (1, 23, 0x16, p)) }) s
    raise 405 [] (lkStat g 4 runs.length s)

/-- Resends whose copy has left the window are reported gone (R455). -/
def dropGone (g : Nat) (s : State) : State :=
  let gone := (groupAt s g).resend.filter (fun e => (inWindowOf s g e.1 e.2).isNone)
  if gone = [] then s
  else reportGone g gone (modGroup g (fun x => { x with resend := x.resend.filter (fun e => !gone.contains e) }) s)

/-- The oldest waiting packet of a class among a group's own: answers, TAIL, GONE, domain copies. -/
def ownPacket (s : State) (g cls : Nat) : Option (Nat × Nat × Nat × List Byte) :=
  (groupAt s g).out.find? (fun p => decide (p.1 = cls))

/-- One of a group's own packets is sent. -/
def sendOut (g : Nat) (p : Nat × Nat × Nat × List Byte) (s : State) : State :=
  sendOwn g p.1 p.2.1 p.2.2.1 p.2.2.2 (modGroup g (fun x => { x with out := x.out.erase p }) s)

/-- A kept packet is sent again; a copy that reads uncorrectable is reported gone, and what then comes first among the TC1
packets is sent (R447, R455). -/
def sendAgain (g : Nat) (p : SentPacket) (out : WordCheck) (s : State) : State :=
  let s := modGroup g (fun x => { x with resend := x.resend.erase (p.stream, p.seq) }) s
  if out = .uncorrectable then
    let s := reportGone g [(p.stream, p.seq)] s
    match ownPacket s g 1 with
    | some q => sendOut g q s
    | none => s
  else putWire g (retxBytes p.bytes) (u16At p.bytes 12 % 16384) false (lkStat g 3 1 s)

/-- What a queue has for the link stage: a READY buffer, or its oldest frame where nothing of it waits in buffers (R444,
log 45). -/
inductive Ready where
  /-- buffer of a compression unit -/
  | buf (unit : Nat) (b : CxBuf)
  /-- frame of the queue -/
  | frame (f : BqFrame)

/-- The oldest buffer of a queue in the units: what the unit it has left still holds comes first (R393, R419). -/
def queueBuf (s : State) (q : Nat) : Option (Nat × CxBuf) :=
  [1 - (cxConf s q).2.1, (cxConf s q).2.1].findSome? (fun u => ((unitBufs s u).find? (fun b => decide (b.q = q))).map (fun b => (u, b)))

/-- What a queue has ready for the link stage (R356, R393, R419, R444). -/
def queueReady (s : State) (q : Nat) : Option Ready :=
  if (queueAt s q).state ≠ 1 then none
  else match queueBuf s q with
    | some (u, b) => if b.ready then some (.buf u b) else none
    | none => match frameReady s q with
      | some f => if compressing (cxSettle q f s) q || !bufsFit (cxSettle q f s) (cxConf s q).2.1 then none else some (.frame f)
      | none => none

/-- Payload bytes of what is ready. -/
def readyLen : Ready → Nat
  | .buf _ b => b.bytes.length
  | .frame f => f.payload.length

/-- The round robin of R450 from a queue on: the queue that sends and the deficits then; each queue met anew gets its
quantum, an empty one loses what it has. -/
def roundRobin (s : State) (g : Nat) : Nat → Nat → Table Int → Option (Nat × Ready × Table Int)
  | 0, _, _ => none
  | n + 1, q, def_ =>
    let next := (q + 1) % 16
    let give (t : Table Int) : Table Int := tmod 0 next (· + (8192 * cfg8 s 0x0903 next : Nat)) t
    match (if bit (mapOf s q).2.1 g then queueReady s q else none) with
    | none => roundRobin s g n next (give (tput 0 q 0 def_))
    | some r =>
      if (min 8192 (readyLen r) : Int) ≤ tget 0 def_ q then some (q, r, tmod 0 q (· - (min 8192 (readyLen r) : Nat)) def_)
      else roundRobin s g n next (give def_)

/-- Header FLAGS from a frame's or buffer's flags and poison (R441, R444). -/
def packetFlags (flags : BitVec 8) (poison : Bool) : Nat := bitNat poison + 2 * (flags.toNat % 8)

/-- A FRAME unit that is not compressed leaves as two pieces (R405). -/
def framePieces (payload : List Byte) : List (List Byte) :=
  let h := uAt 8 payload 0
  let data := payload.drop 8
  if data.length ≤ 8184 then [payload]
  else [pieceHeader h 8184 false true ++ data.take 8184, pieceHeader h (data.length - 8184) true false ++ data.drop 8184]

/-- A queue's READY buffer is taken and sent; a word of it that reads uncorrectable marks it POISON (R404, R415, R444). -/
def sendBuf (g unit : Nat) (b : CxBuf) (out : WordCheck) (s : State) : State :=
  let s := raiseIf (decide (out = .uncorrectable)) 388 [] (raiseIf (decide (out = .corrected)) 387 [] s)
  let s := modBufs unit (fun bs => bs.filter (fun x => decide (x.num ≠ b.num))) s
  sendPacket g 2 b.q b.kind (packetFlags b.flags (b.poison || decide (out = .uncorrectable))) b.base b.bytes false s

/-- A queue's frame is taken and sent, after the index that a change of
configuration leaves before it, with the words of it that the read finds upset (R359, R371, R405, R419, R444). -/
def sendFrame (g q : Nat) (f : BqFrame) (ups : List WordUpset) (s : State) : State :=
  let s := cxSettle q f s
  match queueBuf s q with
  | some (u, b) => sendBuf g u b .good s
  | none =>
    match takeFrame q f (upsetWords q f.pos (ups.filter (fun u => decide (32 * u.word < frameSize f.payload.length))) s) with
    | (none, s) => s
    | (some (f, poison), s) =>
      let ps := if f.kind = 3 ∧ 8192 < f.payload.length then framePieces f.payload else [f.payload]
      forAll ps (fun p => sendPacket g 2 q f.kind (packetFlags f.flags poison) f.base p false) s

/-- The queue that the round robin of a group chooses (R450). -/
def nextQueue (s : State) (g : Nat) : Option (Nat × Ready × Table Int) :=
  if enteringHold s then none else roundRobin s g 34 (groupAt s g).turn (groupAt s g).deficit

/-- The chosen queue's packet is sent (R450). -/
def sendQueue (g : Nat) (c : Nat × Ready × Table Int) (out : WordCheck) (ups : List WordUpset) (s : State) : State :=
  let s := modGroup g (fun x => { x with turn := c.1, deficit := c.2.2 }) s
  match c.2.1 with
  | .buf u b => sendBuf g u b out s
  | .frame f => sendFrame g c.1 f ups s

/-- Bytes a group's TC3 bucket gains in some 25 ns units: 3 % of the block rate of its lanes (R451, log 45). -/
def tokenGain (s : State) (g n : Nat) : Nat :=
  let x := groupAt s g
  n * x.width * rateOf x.rate * 64 * 3 / (66 * 8 * 400000)

/-- The TC3 bucket brought up to now (R451). -/
def fillTokens (g : Nat) (s : State) : State :=
  modGroup g (fun x => { x with tokens := min 16384 (x.tokens + tokenGain s g (s.up - x.tokenAt)), tokenAt := s.up }) s

/-- The group TC3 goes out on: the RUNNING group of highest TC0 rank that allows it (R660). -/
def tc3Group (s : State) : Option Nat :=
  bestRank s ((List.range 4).filter (fun g => (groupAt s g).running && bit (groupAt s g).classes.toNat 3))

/-- A LOG packet of up to 128 records, within the cap; what does not fit waits (R451, R660). -/
def sendLog (g : Nat) (s : State) : State :=
  if tc3Group s ≠ some g ∨ s.ev.tc3 = [] then s
  else
    let s := fillTokens g s
    let rs := s.ev.tc3.take 128
    let size := 20 + 64 * rs.length
    if (groupAt s g).tokens < size then lkStat g 8 1 s
    else
      let rs := match rs with
        | r :: rest => { r with dropped := s.ev.tc3Dropped } :: rest
        | [] => []
      let s := modGroup g (fun x => { x with tokens := x.tokens - size }) s
      let s := evChange (onEv (fun e => { (evStat 4 rs.length e).1 with tc3 := e.tc3.drop 128, tc3Dropped := 0 })) s
      sendOwn g 3 20 0x18 (rs.flatMap recBytes) s

/-- The next packet of a RUNNING group, in the order of R447; `out` is what a buffer's or a kept
copy's words read as (R415, R455), `ups` what a frame's words read as (R379). -/
def sendNext (g : Nat) (out : WordCheck) (ups : List WordUpset) (s : State) : State :=
  let s := dropGone g s
  let classes := (groupAt s g).classes.toNat
  match (if bit classes 0 then s.ev.tc0.find? (fun m => decide (messageGroup s m = some g)) else none) with
  | some m => sendTc0 g m s
  | none =>
    match ownPacket s g 1 with
    | some p => sendOut g p s
    | none =>
      match nextResend s g 0 with
      | some p => sendAgain g p out s
      | none =>
        match nextResend s g 2 with
        | some p => sendAgain g p out s
        | none =>
          match ownPacket s g 2 with
          | some p => sendOut g p s
          | none =>
            match (if bit classes 2 then nextQueue s g else none) with
            | some c => sendQueue g c out ups s
            | none => sendLog g s

/-- Blocks go out on a side link. -/
def slBlocks (sd : Nat) (bs : List WireBlock) (s : State) : State :=
  modSlink sd (fun x => { x with wire := bs.reverse ++ x.wire, lastLen := bs.length }) s

/-- A packet of a side link: a domain word is of stream 22; the STREAM of a merge message, and SOURCE [7:6], which names a
lane group, are open (R441, R442, R471, log 45). -/
def slBytes (sd : Nat) (p : Nat × Nat × List Byte) (s : State) : List Byte × State :=
  let (v, s) := drawNat s
  let stream := if p.1 = 1 then 22 else v / 4 % 32
  let seq := tget 0 (slinkAt s sd).seq stream
  (packetBytes p.1 stream p.2.1 (resyncFlag s) seq (tileIdentity s) (v % 4) s.tc.now p.2.2,
    modSlink sd (fun x => { x with seq := tput 0 stream ((seq + 1) % 65536) x.seq }) s)

/-- A packet goes out on a side link; a TC1 packet may suspend a TC2 packet in flight, which is open (R471, log 45). -/
def slSend (sd : Nat) (p : Nat × Nat × List Byte) (s : State) : State :=
  let (bytes, s) := slBytes sd p (modSlink sd (fun x => { x with out := x.out.erase p }) s)
  let (b, s) := drawBool s
  let (v, s) := drawNat s
  let x := slinkAt s sd
  let tc2 := match x.sent with
    | q :: _ => decide (q.1 = 2)
    | [] => false
  let n := if b && tc2 && decide (p.1 = 1 ∧ 2 ≤ x.lastLen) then 1 + v % (x.lastLen - 1) else 0
  let bs := packetBlocks bytes
  let s := if n = 0 then slBlocks sd bs s
    else
      let rest := (x.wire.take n).reverse
      slBlocks sd rest (slBlocks sd ([orderedSet 0xB 0] ++ bs ++ [orderedSet 0xD 0]) (modSlink sd (fun x => { x with wire := x.wire.drop n }) s))
  modSlink sd (fun x => { x with sent := (p.1, p.2.1, bytes) :: x.sent, counts := tmod 0 0 (satAdd stat32 1) x.counts }) s

/-- A side link's next packet: TC1 before TC2; TC2 only for the half that holds it (R457, R471). -/
def sendSide (sd : Nat) (s : State) : State :=
  let x := slinkAt s sd
  if x.state ≠ 4 then s
  else match x.out.find? (fun p => decide (p.1 = 1)) with
    | some p => slSend sd p s
    | none =>
      match x.out with
      | [] => s
      | p :: _ =>
        if (holder s (4 + sd)).isNone then raise 407 [] s
        else if (server s (4 + sd)).isNone then s else slSend sd p s

/-- D1 to D3 of a NEG set, D1 highest (R429). -/
def negBits (type lane value : Nat) : Nat := type * 2 ^ 20 + lane % 16 * 65536 + value % 65536

/-- What a lane in negotiation repeats in its idle gaps: TYPE and VALUE of a NEG set; none where it sends idle blocks (R429,
R430, R437). -/
def negSent (s : State) (l : Nat) : Option (Nat × Nat) :=
  let x := laneAt s l
  let g := groupOfLane l
  let y := groupAt s g
  match x.state with
  | .rate => some (1, x.rate + 16 * maskOf 4 (fun r => decide (laneCfg s g 2 ≤ r ∧ r ≤ topRate s g)))
  | .fec => let o := fecOffer s g x.rate; some (2, bitNat o.1 + 2 * bitNat o.2)
  | .group =>
    let held := maskOf 4 (fun k => decide ((laneAt s (4 * g + k)).state = .group ∧ (laneAt s (4 * g + k)).rate = x.rate))
    let width := match y.fixed, chooseWidth s g with
      | some f, _ => f.1.length
      | none, some c => c.1.length
      | none, none => 0
    some (3, held + 16 * width)
  | .map => if x.ready then some (5, 0) else some (4, y.proposed.toNat)
  | .running => match y.rateReq, x.ack with
    | some (code, _), _ => some (6, code)
    | none, some a => some (7, bitNat a)
    | none, none => none
  | _ => none

/-- The block a lane sends where it has nothing of the group's stream (R427 to R430). -/
def gapBlock (s : State) (l : Nat) : WireBlock :=
  match negSent s l with
  | some n => orderedSet 0xA (negBits n.1 (l % 4) n.2)
  | none => idleBlock

/-- The marker of a lane of a group (R434). -/
def markerBlock (s : State) (g logical : Nat) : WireBlock :=
  let y := groupAt s g
  let width := if y.width = 4 then 3 else y.width
  let physical := ((usedLanes s g).find? (fun l => decide ((laneAt s l).logical = logical))).getD 0
  orderedSet 0xC ((logical * 16 + width * 4) * 65536 + physical * 256 + y.marker)

/-- HELLO VALUE of a side: identity, side, offers of merging and of the arming domain, lower-identity role (R470). -/
def helloValue (s : State) (sd : Nat) : Nat :=
  let p := msideAt s sd
  word [(0, tileIdentity s), (6, sd), (8, bitNat (bit (cfg8 s 0x0405 0) sd)), (9, bitNat (bit (cfg8 s 0x0503 2) sd)), (10, bitNat p.owner)]

/-- A partner's HELLO is accepted: the opposite side and another identity (R223). -/
def helloAccepted (s : State) (sd v : Nat) : Bool :=
  decide (field v 7 6 = (sd + 2) % 4 ∧ field v 5 0 ≠ tileIdentity s)

/-- Every path of the domain's mask is down (R283). -/
def domainPathsDown (s : State) : Bool := (domainPaths s).all (fun p => !pathUp s p)

/-- A side link goes down: to DETECT or OFF; EV_414 where it was UP, the merge state LOST where it was ACTIVE, the domain
path down (R222, R283, R470). -/
def slDown (sd st : Nat) (s : State) : State :=
  let x := slinkAt s sd
  let s := modSlink sd (fun x => { x with state := st, hello := (0, 0), refused := false, out := [] }) s
  let ms := if (msideAt s sd).state = 2 ∨ x.refused then 3 else (msideAt s sd).state
  let s := setSide sd (if ms = 3 then (if bit (cfg8 s 0x0405 0) sd then 3 else 0) else sideFrom s sd) s
  let s := raiseIf (decide (x.state = 4)) 414 [] s
  if domainPathsDown s then domainDetach s else s

/-- The side links that LK_SIDE enables start at DETECT, the others are OFF (R469, R473). -/
def startSides (s : State) : State :=
  forAll (List.range 4) (fun sd s =>
    if bit (cfg8 s 0x0907 0) sd then (if (slinkAt s sd).state = 0 then modSlink sd (fun x => { x with state := 1 }) s else s)
    else if (slinkAt s sd).state = 0 then s else slDown sd 0 s) s

/-- The lane groups and side links start to negotiate (R80 step 10, R519). -/
def lkPowerUp (s : State) : State :=
  let s := forAll (List.range 4) (fun g s => resolveMac g (restartGroup g s)) s
  startSides s

/-- The lane groups and side links lose their power; HOLD also clears the repechage windows (R453, R513). -/
def lkPowerDown (s : State) : State :=
  let s := forAll (List.range 4) (fun g s =>
    let s := rateAnswer g 2 (if (groupAt s g).running then leaveRunning g .disabled s else s)
    let s := forAll (groupLanes g) (fun l => enterLane l (fun x => { freshLane x .disabled 0 with top := none, prbs := (0, false), prbsLock := false, inject := (none, 0) })) s
    modGroup g (fun x => { x with
      window := [], resend := [], nakWait := [], out := [], tail := [], fixed := none
      running := false, lanes := 0, width := 0, mac := none, pause := 0 }) s) s
  forAll (List.range 4) (fun sd s => if (slinkAt s sd).state = 0 then s else slDown sd 0 s) s

/-- The exponents of a PRBS pattern 1 to 4 (R459). -/
def prbsTaps : Nat → Nat × Nat
  | 1 => (7, 6) | 2 => (15, 14) | 3 => (23, 18) | _ => (31, 28)

/-- The next bit a PRBS generator sends and its register then, the newest bit lowest (R459). -/
def prbsNext (pattern : Nat) (invert : Bool) (r : Nat) : Bool × Nat :=
  let t := prbsTaps pattern
  let b := bit r (t.1 - 1) != bit r (t.2 - 1)
  (b != invert, (r * 2 + bitNat b) % 2 ^ t.1)

/-- 1,024 received bits, the last one lowest, follow a pattern: each is the sum of the two before it that the pattern names
(R459, R460). -/
def prbsFollows (pattern : Nat) (invert : Bool) (rx : BitVec 1024) : Bool :=
  let t := prbsTaps pattern
  let x := if invert then ~~~rx else rx
  decide (((x >>> t.1) ^^^ (x >>> t.2) ^^^ x).extractLsb' 0 992 = 0) && decide (x ≠ 0)

/-- A LK_LANES group entry is acceptable (R473). -/
def laneEntryOk (v : List Byte) : Bool :=
  decide (byteAt v 0 ≤ 2 ∧ byteAt v 1 ≤ 3 ∧ byteAt v 2 ≤ byteAt v 1 ∧ byteAt v 3 ≤ 2 ∧ byteAt v 6 ≤ 3 ∧ byteAt v 7 ≤ 3)
    && [1, 2, 4].contains (byteAt v 4)

/-- A LK_CLASS_MAP value is acceptable (R473). -/
def classMapOk (v : List Byte) : Bool := (v.take 4).all (fun b => decide (b.toNat < 16))

/-- A LK_TC2_WEIGHTS value is acceptable (R450). -/
def weightsOk (v : List Byte) : Bool := (v.take 16).all (fun b => decide (1 ≤ b.toNat))

/-- A LK_PACKET_CLOSE value is acceptable (R473). -/
def packetCloseOk (v : List Byte) : Bool := decide (250 ≤ u32At v 0 ∧ u32At v 0 ≤ 1000000)

/-- A LK_REPECHAGE value is acceptable (R473). -/
def repechageOk (v : List Byte) : Bool := decide (byteAt v 0 < 16 ∧ 10 ≤ u16At v 2 ∧ u16At v 2 ≤ 10000)

/-- A LK_ETH group entry is acceptable (R463, R473). -/
def ethEntryOk (v : List Byte) : Bool := decide (8240 ≤ u16At v 26 ∧ u16At v 26 ≤ 9000) && !bit (u16At v 24) 12

/-- A LK_TXEQ value is acceptable (R473). -/
def txeqOk (v : List Byte) : Bool := (v.take 16).all (fun b => decide (b.toNat ≤ 7))

end Sys2Proof.Machine
end

