-- ==== Sys2Proof/Machine/Links.lean ====
section
/-! DEFINITION. The commands of the lanes, lane groups and side links (chapter 10). A lane number 16 + n of a lock command
is side link SL_n's lane. -/
namespace Sys2Proof.Machine

/-- A lane takes part in native negotiation. -/
def nativeLane (s : State) (l : Nat) : Bool := decide (groupMode s (groupOfLane l) = 1)

/-- A lane is in a state. -/
def laneIn (s : State) (l : Nat) (st : LaneState) : Bool := decide ((laneAt s l).state = st)

/-- The amplitude has been above threshold for 100 us: RATE (R430, R705). -/
def execLaneSignalDetect (lane : Fin 16) (s : State) : Out :=
  event (nativeLane s lane && laneIn s lane .detect) (fun s =>
    let s := reachUp ((laneAt s lane).since + us 100) s
    toRate lane (candidate s lane) s) s

/-- Block lock on a lane (R428): RATE may be left, an Ethernet port may come up, a side link goes to LOCK (R469). -/
def execLaneBlockLock (lane : Fin 20) (s : State) : Out :=
  event true (fun s =>
    if 16 ≤ lane.val then
      let sd := lane.val - 16
      when (decide ((slinkAt s sd).state = 1)) (modSlink sd (fun x => { x with state := 2, hello := (0, 0) })) s
    else
      let l := lane.val
      match (laneAt s l).state with
      | .disabled | .detect | .txOff | .test => s
      | _ =>
        let s := modLane l (fun x => { x with lock := true }) s
        ethCheck (groupOfLane l) (tryFec l s)) s

/-- A lane loses block lock (R428, R436): its RUNNING group leaves RUNNING, LN0_RX is lost with LN_0's lock (R481), a side
link goes to DETECT (R470). -/
def execLaneLockLost (lane : Fin 20) (s : State) : Out :=
  event true (fun s =>
    if 16 ≤ lane.val then
      let sd := lane.val - 16
      when (decide (2 ≤ (slinkAt s sd).state)) (slDown sd 1) s
    else
      let l := lane.val
      if !(laneAt s l).lock then s
      else
        let s := modLane l (fun x => { x with
          lock := false, counts := tmod 0 2 (satAdd stat32 1) x.counts
          markers := if x.state = .eth then (0, 0) else x.markers }) s
        let s := when (decide (l = 0)) (freqLost 3) s
        let g := groupOfLane l
        when ((usedLanes s g).contains l) (groupDown g) s) s

/-- An ADV set (R430). -/
def execNegAdvRx (lane : Fin 16) (v : BitVec 16) (s : State) : Out :=
  event (nativeLane s lane && laneIn s lane .rate) (fun s => tryFec lane (noteNeg lane 1 v.toNat s)) s

/-- A FEC set: where R431 gives a result the lane goes to GROUP (R430, R431). -/
def execNegFecRx (lane : Fin 16) (v : BitVec 16) (s : State) : Out :=
  event (nativeLane s lane && laneIn s lane .fec) (fun s =>
    let s := noteNeg lane 2 v.toNat s
    match fecResult (fecOffer s (groupOfLane lane) (laneAt s lane).rate) (bit v.toNat 0, bit v.toNat 1) with
    | some on => enterLane lane (fun x => { x with state := .group, fecOn := on, neg := (0, 0, 0) }) s
    | none => s) s

/-- A GROUP set: with all lanes of the group present R432 fixes the width, and the lanes enter ALIGN once the partner
agrees (R430, R432). -/
def execNegGroupRx (lane : Fin 16) (v : BitVec 16) (s : State) : Out :=
  event (nativeLane s lane && laneIn s lane .group) (fun s =>
    let g := groupOfLane lane
    let s := noteNeg lane 3 v.toNat s
    let all := decide (groupReady s g = freeLanes s g) && (groupAt s g).fixed.isNone
    tryAlign g (when all (fixWidth g) s)) s

/-- A MAP set: the classes in force are those both accept; EV_401 where the partner removes one; READY is sent (R430). -/
def execNegMapRx (lane : Fin 16) (v : BitVec 16) (s : State) : Out :=
  event (nativeLane s lane && laneIn s lane .map) (fun s =>
    let g := groupOfLane lane
    let s := modLane lane (fun x => { x with ready := true }) (noteNeg lane 4 v.toNat s)
    let old := (groupAt s g).classes
    let new := old &&& BitVec.ofNat 4 v.toNat
    raiseIf (decide (new ≠ old)) 401 [] (modGroup g (fun x => { x with classes := new }) s)) s

/-- A READY set: RUNNING, once READY has been sent (R430). -/
def execNegReadyRx (lane : Fin 16) (s : State) : Out :=
  event (nativeLane s lane && laneIn s lane .map) (fun s => laneRunning lane (noteNeg lane 5 0 s)) s

/-- The module accepts a partner's rate where its own settings allow it (R437, log 45). -/
def acceptsRate (s : State) (g code : Nat) : Bool := decide (laneCfg s g 2 ≤ code ∧ code ≤ topRate s g)

/-- A RATE_REQ on a RUNNING group is answered with RATE_ACK; where that accepts, the group enters RATE with the code
(R437). -/
def execNegRateReqRx (lane : Fin 16) (v : BitVec 16) (s : State) : Out :=
  let g := groupOfLane lane
  event (nativeLane s lane && (groupAt s g).running && laneIn s lane .running) (fun s =>
    let code := v.toNat % 4
    let yes := acceptsRate s g code
    let s := modLane lane (fun x => { x with ack := some yes }) s
    if yes then rateAgreed g code s else s) s

/-- A matching RATE_ACK to the module's RATE_REQ (R437). -/
def execNegRateAckRx (lane : Fin 16) (v : BitVec 16) (s : State) : Out :=
  let g := groupOfLane lane
  event (nativeLane s lane && (groupAt s g).running && (groupAt s g).rateReq.isSome) (fun s =>
    let s := noteNeg lane 7 v.toNat s
    if !matching s lane then s
    else match (groupAt s g).rateReq with
      | some (code, _) => if bit v.toNat 0 then rateAnswer g 0 (rateAgreed g code s) else rateAnswer g 1 s
      | none => s) s

/-- An alignment marker is received: D1 to D3, and the lane's skew in 0.1 ns (R434, R435). Three in a row on every lane
complete ALIGN. -/
def execAlignMarkerRx (lane : Fin 16) (d : BitVec 24) (skew : Int) (s : State) : Out :=
  event (laneIn s lane .align || laneIn s lane .running || laneIn s lane .eth) (fun s =>
    let g := groupOfLane lane
    let x := laneAt s lane
    let count := d.toNat % 256
    let width := if (groupAt s g).width = 4 then 3 else (groupAt s g).width
    let good := decide (x.state = .eth) ||
      decide (field d.toNat 23 20 = x.logical ∧ field d.toNat 19 18 = width ∧ field d.toNat 17 16 = 0)
    let n := if !good then 0 else if x.markers.1 = 0 ∨ count = (x.markers.2 + 1) % 256 then min 3 (x.markers.1 + 1) else 1
    let s := modLane lane (fun x => { x with markers := (n, count), skew := skew, missed := if good then 0 else x.missed }) s
    match x.state with
    | .align => tryMap g s
    | .eth => ethCheck g s
    | _ => s) s

/-- The time of some blocks on a lane, in 25 ns units (R425). -/
def blockTime (rate n : Nat) : Nat := divUp (66 * n * 4000) (rateOf rate)

/-- Each lane of a group sends an alignment marker with the same count, every 16,384 blocks (R433, R434). -/
def execAlignMarkerSend (g : Fin 4) (s : State) : Out :=
  event (decide (groupMode s g = 1 ∧ usedLanes s g ≠ [])) (fun s =>
    let s := reachUp ((groupAt s g).markerAt + blockTime (groupAt s g).rate 16384) s
    let s := putOnAll g (markerBlock s g) s
    modGroup g (fun x => { x with marker := (x.marker + 1) % 256, markerAt := s.up }) s) s

/-- A marker is missed; the second in a row takes the group out of RUNNING (R436). -/
def execMarkerMissed (lane : Fin 16) (s : State) : Out :=
  event (laneIn s lane .running) (fun s =>
    let s := modLane lane (fun x => { x with missed := x.missed + 1 }) s
    when (decide (2 ≤ (laneAt s lane).missed)) (groupDown (groupOfLane lane)) s) s

/-- An uncorrectable codeword: counted, EV_398; more than 16 within 1 ms take the group out of RUNNING (R436, R475). -/
def execFecCodewordUncorrectable (lane : Fin 16) (s : State) : Out :=
  event (laneAt s lane).fecOn (fun s =>
    let s := modLane lane (fun x => { x with
      counts := tmod 0 1 (satAdd stat32 1) x.counts
      bad := s.up :: x.bad.filter (fun t => decide (s.up < t + ms 1)) }) s
    let s := raise 398 [] s
    when (decide (16 < (laneAt s lane).bad.length) && (usedLanes s (groupOfLane lane)).contains lane.val) (groupDown (groupOfLane lane)) s) s

/-- 20 ms in RATE without a match: the next lower code, or the transmitter off (R430). -/
def execLaneRateDwellTimeout (lane : Fin 16) (s : State) : Out := event (laneIn s lane .rate) (fun s => stepDown lane (reachUp ((laneAt s lane).since + ms 20) s)) s

/-- 1 ms with the transmitter off: DETECT (R430). -/
def execLaneTxOffEnd (lane : Fin 16) (s : State) : Out := event (laneIn s lane .txOff) (fun s => toDetect lane (reachUp ((laneAt s lane).since + ms 1) s)) s

/-- 2 ms in FEC without a result: RATE at the next lower code (R430, R431). -/
def execLaneFecTimeout (lane : Fin 16) (s : State) : Out := event (laneIn s lane .fec) (fun s => stepDown lane (reachUp ((laneAt s lane).since + ms 2) s)) s

/-- When the first of some lanes entered its state. -/
def firstSince (s : State) (ls : List Nat) : Nat :=
  ls.foldl (fun a l => min a (laneAt s l).since) ((laneAt s (ls.headD 0)).since)

/-- 10 ms after the first lane entered GROUP: R432 with the lanes present (R430). -/
def execGroupTimeout (g : Fin 4) (s : State) : Out :=
  let ls := (groupLanes g).filter (fun l => laneIn s l .group)
  event (decide (groupMode s g = 1 ∧ ls ≠ []) && !(groupAt s g).running)
    (fun s => tryAlign g (fixWidth g (reachUp (firstSince s ls + ms 10) s))) s

/-- A lane is late in ALIGN: without its three markers, or beyond the deskew range of the lowest (R430, R435). -/
def lateLane (s : State) (ls : List Nat) (l : Nat) : Bool :=
  let good := ls.filter (fun k => decide (3 ≤ (laneAt s k).markers.1))
  let least := good.foldl (fun (a : Option Int) k => match a with
    | none => some (laneAt s k).skew
    | some b => some (min b (laneAt s k).skew)) none
  !good.contains l || (match least with
    | some b => decide (800 < (laneAt s l).skew - b)
    | none => true)

/-- The lanes of a group in ALIGN or MAP return to GROUP (R430, R436). -/
def regroup (g : Nat) (s : State) : State :=
  let ls := (usedLanes s g).filter (fun l => laneIn s l .align || laneIn s l .map)
  let s := modGroup g (fun x => { x with lanes := 0, width := 0, fixed := none }) s
  forAll ls (fun l => enterLane l (fun x => { x with state := .group, ready := false, neg := (0, 0, 0), markers := (0, 0) })) s

/-- 2 ms in ALIGN: GROUP without the late lanes, which return to RATE; EV_400 (R430, R432, log 45). -/
def execAlignTimeout (g : Fin 4) (s : State) : Out :=
  let ls := usedLanes s g
  event (ls.any (fun l => laneIn s l .align)) (fun s =>
    let s := reachUp (firstSince s (ls.filter (fun l => laneIn s l .align)) + ms 2) s
    let late := ls.filter (lateLane s ls)
    let r := (groupAt s g).rate
    let s := regroup g s
    let s := forAll late (fun l s => toRate l r (modLane l (fun x => { x with top := some r }) s)) s
    raise 400 [] s) s

/-- 2 ms without MAP: the proposed mask is taken as accepted, and READY is sent (R430). -/
def execMapTimeout (g : Fin 4) (s : State) : Out :=
  let ls := (usedLanes s g).filter (fun l => laneIn s l .map && !(laneAt s l).ready)
  event (decide (ls ≠ [])) (fun s =>
    forAll ls (fun l s => laneRunning l (modLane l (fun x => { x with ready := true }) s)) (reachUp (firstSince s ls + ms 2) s)) s

/-- No RATE_ACK within 100 us (R437). -/
def execRateReqTimeout (g : Fin 4) (s : State) : Out := event (groupAt s g).rateReq.isSome (fun s => rateAnswer g 2 (reachUp ((groupAt s g).reqAt + us 100) s)) s

/-- A lane has not regrouped within 10 ms (R436). -/
def execRegroupTimeout (lane : Fin 16) (s : State) : Out := event (laneIn s lane .group) (fun s => toDetect lane (reachUp ((laneAt s lane).since + ms 10) s)) s

/-- A RUNNING group, and the side link of its number, send their next packets, in the order of R447; with equal claims a
group sends nothing, counts it and raises EV_407 (R379, R415, R457, log 45). -/
def execPacketSend (g : Fin 4) (out : WordCheck) (ups : List WordUpset) (s : State) : Out :=
  event (!s.sys.por) (fun s =>
    let s := sendSide g s
    if !(groupAt s g).running || decide ((groupAt s g).pause ≠ 0) then s
    else if (holder s g).isNone then raise 407 [] (lkStat g 7 1 s)
    else if (server s g).isNone then s
    else sendNext g out ups s) s

/-- A packet with a bad CRC or ended by an error block is discarded and counted (R443). -/
def execRxPacketBad (g : Fin 4) (s : State) : Out :=
  event (groupAt s g).running (fun s => raise 406 [] (lkStat g 5 1 s)) s

/-- A packet of a reserved stream is discarded (R442). -/
def execRxReservedStream (g : Fin 4) (stream : Nat) (s : State) : Out :=
  event ((groupAt s g).running && decide (24 ≤ stream ∧ stream < 32)) (ethCount g 1) s

/-- The entries of a NAK payload, or none where it breaks R454. -/
def nakEntries (p : List Byte) : Option (List (Nat × Nat × Nat)) :=
  let n := u16At p 0
  let es := (List.range n).map (fun i => (byteAt p (4 + 6 * i), u16At p (6 + 6 * i), u16At p (8 + 6 * i)))
  let zeros := (List.range n).all (fun i => decide (byteAt p (5 + 6 * i) = 0))
  if 1 ≤ n ∧ n ≤ 32 ∧ u16At p 2 = 0 ∧ p.length = 4 + 6 * n ∧ zeros ∧ es.all (fun e => decide (1 ≤ e.2.2 ∧ e.2.2 ≤ 256)) then some es
  else none

/-- The stream and SEQ of every packet a NAK asks for. -/
def nakPackets (es : List (Nat × Nat × Nat)) : List (Nat × Nat) :=
  es.flatMap (fun e => (List.range e.2.2).map (fun i => (e.1, (e.2.1 + i) % 65536)))

/-- The group whose window holds a packet; with repechage disabled on it, none (R453, R455). -/
def windowGroup (s : State) (e : Nat × Nat) : Option Nat :=
  (List.range 4).find? (fun g => bit (cfg8 s 0x0905 0) g && (inWindowOf s g e.1 e.2).isSome)

/-- A NAK (R453 to R455): each packet is sent again on the group that sent it, waits for that group, or is reported gone. -/
def execNakRx (g : Fin 4) (payload : List Byte) (s : State) : Out :=
  event (groupAt s g).running (fun s =>
    let s := ethCount g 1 s
    match nakEntries payload with
    | none => raise 417 [] s
    | some es =>
      let ps := nakPackets es
      let s := raise 404 [] (lkStat g 2 1 s)
      let gone := ps.filter (fun e => (windowGroup s e).isNone)
      let s := forAll ps (fun e s => match windowGroup s e with
        | some h => modGroup h (fun x =>
            if x.running then { x with resend := x.resend ++ [e] } else { x with nakWait := x.nakWait ++ [(e.1, e.2, g.val, s.up)] }) s
        | none => s) s
      reportGone g gone s) s

/-- A group has not been RUNNING for 1 ms after a NAK for packets it sent (R455). -/
def execNakGroupWaitExpiry (g : Fin 4) (s : State) : Out :=
  match (groupAt s g).nakWait with
  | [] => .next s
  | w :: _ => event (!(groupAt s g).running) (fun s =>
      let s := reachUp (w.2.2.2 + ms 1) s
      let due (w : Nat × Nat × Nat × Nat) : Bool := decide (w.2.2.2 + ms 1 ≤ s.up)
      let ws := (groupAt s g).nakWait.filter due
      let s := modGroup g (fun x => { x with nakWait := x.nakWait.filter (fun w => !due w) }) s
      forAll (List.range 4) (fun h => reportGone h ((ws.filter (fun w => decide (w.2.2.1 = h))).map (fun w => (w.1, w.2.1)))) s) s

/-- A TAIL, a TAIL interval after the last (R456). -/
def execTailSend (g : Fin 4) (s : State) : Out :=
  event (groupAt s g).running (fun s =>
    let s := reachUp ((groupAt s g).tailAt + us (cfg16 s 0x0905 2)) s
    modGroup g (fun x => { x with
      out := x.out ++ [(1, 23, 0x17, x.tail.flatMap (fun e => match e.2 with
        | some q => b1 e.1 ++ b1 0 ++ b2 q
        | none => []))]
      tail := [], tailAt := s.up }) s) s

/-- An ARP request for the module's own address on a group is answered (R465). -/
def execArpRequestRx (g : Fin 4) (targetIp : Word) (senderMac : BitVec 48) (senderIp : Word) (s : State) : Out :=
  event (decide (groupMode s g = 2)) (fun s =>
    let s := ethCount g 1 s
    if targetIp.toNat = ownIp s g then
      ethCount g 0 (modGroup g (fun x => { x with
        arp := arpFrame s g 2 (leBytes 6 senderMac.toNat) (leBytes 6 senderMac.toNat) senderIp.toNat :: x.arp }) s)
    else s) s

/-- An ARP reply for the destination resolves it (R462, R465). -/
def execArpReplyRx (g : Fin 4) (senderIp : Word) (mac : BitVec 48) (s : State) : Out :=
  event (decide (groupMode s g = 2)) (fun s =>
    let s := ethCount g 1 s
    if senderIp.toNat = destIp s g ∧ (staticMac s g).isNone then ethCheck g (modGroup g (fun x => { x with mac := some mac }) s)
    else s) s

/-- A group without a static destination asks for it: 1 s after it last asked, or 60 s where it has been answered (R465). -/
def execArpRetry (g : Fin 4) (s : State) : Out :=
  event (decide (groupMode s g = 2) && (staticMac s g).isNone) (fun s =>
    let s := reachUp ((groupAt s g).arpAt + ms (if (groupAt s g).mac.isSome then 60000 else 1000)) s
    ethCount g 0 (modGroup g (fun x => { x with
      arp := arpFrame s g 1 (List.replicate 6 0xFF) (List.replicate 6 0) (destIp s g) :: x.arp, arpAt := s.up }) s)) s

/-- 5 s without resolution (R465). -/
def execArpFailTimeout (g : Fin 4) (s : State) : Out :=
  event (decide (groupMode s g = 2) && (groupAt s g).mac.isNone) (fun s =>
    raise 411 [] (reachUp ((groupAt s g).lostAt + ms 5000) s)) s

/-- A PAUSE: transmission stops for its quanta, or resumes; EV_410 at the start of each pause (R466). -/
def execPauseRx (g : Fin 4) (quanta : BitVec 16) (s : State) : Out :=
  event (decide (groupMode s g = 2)) (fun s =>
    let was := (groupAt s g).pause
    let s := modGroup g (fun x => { x with pause := quanta.toNat, pauseAt := s.up }) (ethCount g 1 s)
    if was = 0 ∧ quanta.toNat ≠ 0 then raise 410 [] (ethCount g 3 s) else s) s

/-- The pause time has passed: 512 bits of 100 Gb/s for each of its quanta (R462, R466, log 45). -/
def execPauseExpiry (g : Fin 4) (s : State) : Out :=
  event (decide ((groupAt s g).pause ≠ 0)) (fun s =>
    modGroup g (fun x => { x with pause := 0 }) (reachUp ((groupAt s g).pauseAt + divUp (512 * (groupAt s g).pause) 2500) s)) s

/-- A received Ethernet frame is discarded and counted (R464). -/
def execEthFrameDiscard (g : Fin 4) (s : State) : Out := event (decide (groupMode s g = 2)) (ethCount g 2) s

/-- A partner is accepted: UP, its identity, the owner's role and the merge state (R223, R469, R470). -/
def slUp (sd v : Nat) (s : State) : State :=
  let was := (slinkAt s sd).state
  let s := modSlink sd (fun x => { x with state := 4, refused := false }) s
  let s := modMside sd (fun x => { x with partner := field v 5 0, owner := decide (tileIdentity s < field v 5 0) }) s
  raiseIf (decide (was ≠ 4)) 413 [] (setSide sd (sideFrom s sd) s)

/-- A partner is refused: EV_415, EV_198 and the merge state LOST (R222, R223, R470). -/
def slRefuse (sd : Nat) (s : State) : State :=
  let x := slinkAt s sd
  let s := if x.state = 4 then slDown sd 3 s else s
  let s := modSlink sd (fun y => { y with state := 3, refused := true, hello := x.hello }) s
  let s := setSide sd (sideFrom s sd) s
  if x.refused then s else raise 198 [] (raise 415 [] s)

/-- A HELLO set: the second matching one whose content is accepted takes the link UP (R469, R470). -/
def execSlHelloRx (side : Fin 4) (v : BitVec 16) (s : State) : Out :=
  event (decide (2 ≤ (slinkAt s side).state)) (fun s =>
    let s := modSlink side (fun x => { x with
      state := max 3 x.state, heardAt := s.up, hello := (v.toNat, if x.hello.1 = v.toNat then min 2 (x.hello.2 + 1) else 1) }) s
    if (slinkAt s side).hello.2 < 2 then s
    else if helloAccepted s side v.toNat then slUp side v.toNat s else slRefuse side s) s

/-- HELLO is sent every 1 ms while UP (R429, R470). -/
def execSlHelloSend (side : Fin 4) (s : State) : Out :=
  event (decide ((slinkAt s side).state = 4)) (fun s =>
    let s := reachUp ((slinkAt s side).helloAt + ms 1) s
    modSlink side (fun x => { x with
      helloAt := s.up, wire := orderedSet 0xA (negBits 8 0 (helloValue s side)) :: x.wire, lastLen := 0 }) s) s

/-- Three HELLOs missed: none for 3 ms (R470). -/
def execSlHelloTimeout (side : Fin 4) (s : State) : Out :=
  event (decide (3 ≤ (slinkAt s side).state)) (fun s =>
    let s := reachUp ((slinkAt s side).heardAt + ms 3) s
    slDown side 1 (modSlink side (fun x => { x with counts := tmod 0 3 (satAdd stat32 1) x.counts }) s)) s

/-- LK_STATUS, 0x0900 (R474). -/
def execLkStatus (mb : Fin 8) (s : State) : Out :=
  call mb 0x0900 epdPri 1 (fun p => need (decide (p8 p 0 < 4)) (fun s =>
    let g := p8 p 0
    let x := groupAt s g
    let h := match holder s g with
      | some h => h.code
      | none => 2
    let rate := ((x.rateBytes.filter (fun e => decide (s.up < e.1 + ms 1000))).map (·.2)).foldl (· + ·) 0
    okBytes (b1 (groupByte s g) ++ b1 x.lanes.toNat ++ b1 x.classes.toNat ++ b1 h ++ b4 (min stat32 rate)) s)) s

/-- A lane's state as LK_LANE_STATUS numbers it (R474). -/
def laneCode : LaneState → Nat
  | .disabled => 0 | .detect => 1 | .rate => 2 | .fec => 3 | .group => 4 | .align => 5 | .map => 6 | .running => 7
  | .test => 8 | .eth => 9 | .txOff => 2

/-- A lane's count of corrected codewords brought up to now: how many FEC has corrected is open (R426, R474, log 45). -/
def fecCatchUp (l : Nat) (s : State) : State :=
  if !(laneAt s l).fecOn then s
  else
    let (n, s) := drawNat s
    modLane l (fun x => { x with counts := tmod 0 0 (satAdd stat32 n) x.counts }) s

/-- LK_LANE_STATUS, 0x0901 (R474). -/
def execLkLaneStatus (mb : Fin 8) (s : State) : Out :=
  call mb 0x0901 epd 1 (fun p => need (decide (p8 p 0 < 16)) (fun s =>
    let s := fecCatchUp (p8 p 0) s
    let x := laneAt s (p8 p 0)
    okBytes (b1 (laneCode x.state) ++ b1 x.rate ++ b1 x.logical ++ [0] ++ b2 (unsigned 16 x.skew) ++ [0, 0]
      ++ (tslice 0 x.counts 0 3).flatMap b4) s)) s

/-- LK_CONFIG, 0x0902: the group renegotiates from DETECT (R436, R474). -/
def execLkConfig (mb : Fin 8) (s : State) : Out :=
  call mb 0x0902 epd 9 (fun p =>
    let v := bytesAt p 1 8
    need (decide (p8 p 0 < 4) && laneEntryOk v) (fun s =>
      let g := p8 p 0
      let s := groupDown g s
      ok (resolveMac g (restartGroup g (setCfgEntry 0x0901 8 g v s))))) s

/-- LK_RENEGOTIATE, 0x0903 (R474). -/
def execLkRenegotiate (mb : Fin 8) (s : State) : Out :=
  call mb 0x0903 epd 1 (fun p => need (decide (p8 p 0 < 16)) (fun s =>
    ok (forAll (maskList 4 (p8 p 0)) (fun g s => ethCheck g (restartGroup g s)) s))) s

/-- LK_RATE_SET, 0x0904: answered when RATE_ACK comes or fails to (R437, R474, R705). -/
def execLkRateSet (mb : Fin 8) (s : State) : Out :=
  call mb 0x0904 pOrD 2 (fun p => need (decide (p8 p 0 < 4 ∧ p8 p 1 ≤ 3)) (needState
    ((groupAt s (p8 p 0)).running && decide (groupMode s (p8 p 0) = 1)) (fun s =>
      if (groupAt s (p8 p 0)).rateReq.isSome then refuse stBusy s
      else .later (requestRate (p8 p 0) (p8 p 1) (.call mb.val) s)))) s

/-- LK_CLASS_CONFIG, 0x0905: in force at each group's next MAP (R474). -/
def execLkClassConfig (mb : Fin 8) (s : State) : Out :=
  call mb 0x0905 epd 4 (fun p => need (classMapOk p) (fun s => ok (setCfg 0x0902 (p.take 4) s))) s

/-- LK_TC2_WEIGHT_SET, 0x0906 (R450). -/
def execLkTc2WeightSet (mb : Fin 8) (s : State) : Out :=
  call mb 0x0906 epd 16 (fun p => need (weightsOk p) (fun s => ok (setCfg 0x0903 (p.take 16) s))) s

/-- LK_PACKET_CLOSE_SET, 0x0907 (R21, R474). -/
def execLkPacketCloseSet (mb : Fin 8) (s : State) : Out :=
  call mb 0x0907 epd 4 (fun p => need (packetCloseOk p) (fun s => ok (setCfg 0x0904 (p.take 4) s))) s

/-- LK_REPECHAGE_CLEAR, 0x0908 (R453). -/
def execLkRepechageClear (mb : Fin 8) (s : State) : Out :=
  call mb 0x0908 epd 1 (fun p => need (decide (p8 p 0 < 16)) (fun s =>
    ok (forAll (maskList 4 (p8 p 0)) (fun g => modGroup g (fun x => { x with window := [] })) s))) s

/-- LK_PRBS_CONFIG, 0x0909: a lane enters TEST, or leaves it for DETECT; a group that loses a lane re-forms (R436, R459). -/
def execLkPrbsConfig (mb : Fin 8) (s : State) : Out :=
  call mb 0x0909 epd 4 (fun p => need (decide (p8 p 0 < 16 ∧ p8 p 1 ≤ 4 ∧ p8 p 2 ≤ 3 ∧ p8 p 3 ≤ 1)) (fun s =>
    let l := p8 p 0
    let g := groupOfLane l
    if p8 p 1 ≠ 0 then
      let s := when ((usedLanes s g).contains l) (fun s => if (groupAt s g).running then groupDown g s else regroup g s) s
      ok (enterLane l (fun x => { freshLane x .test (p8 p 2) with
        prbs := (p8 p 1, decide (p8 p 3 = 1)), prbsLock := false }) s)
    else if laneIn s l .test then
      let s := enterLane l (fun x => { freshLane x .disabled 0 with prbs := (0, false), prbsLock := false }) s
      ok (if groupMode s g = 1 then toDetect l s
        else if groupMode s g = 2 then enterLane l (fun x => freshLane x .eth 2) s else s)
    else ok s)) s

/-- LK_PRBS_INJECT, 0x090A, of some kinds: in TEST or RUNNING (R461). -/
def prbsInject (mb : Fin 8) (sel : Nat → Bool) (limit : Nat → Bool) (f : Nat → Option Nat × Nat → Option Nat × Nat) (s : State) : Out :=
  callSel mb 0x090A (fun p => sel (p8 p 1)) epd 4 (fun p =>
    need (decide (p8 p 0 < 16 ∧ p8 p 1 ≤ 3) && limit (p16 p 2)) (needState
      (laneIn s (p8 p 0) .test || laneIn s (p8 p 0) .running) (fun s =>
        ok (modLane (p8 p 0) (fun x => { x with inject := f (p16 p 2) x.inject }) s)))) s

/-- LK_PRBS_INJECT SINGLE, and a kind that does not exist (R461). -/
def execLkPrbsInjectSingle (mb : Fin 8) (s : State) : Out :=
  prbsInject mb (fun k => decide (k = 0 ∨ 3 < k)) (fun _ => true) (fun _ i => (i.1, i.2 + 1)) s

/-- LK_PRBS_INJECT BURST (R461). -/
def execLkPrbsInjectBurst (mb : Fin 8) (s : State) : Out :=
  prbsInject mb (fun k => decide (k = 1)) (fun n => decide (1 ≤ n ∧ n ≤ 64)) (fun n i => (i.1, i.2 + n)) s

/-- LK_PRBS_INJECT RATE (R461). -/
def execLkPrbsInjectRate (mb : Fin 8) (s : State) : Out :=
  prbsInject mb (fun k => decide (k = 2)) (fun n => decide (10 ≤ n ∧ n ≤ 30)) (fun n i => (some n, i.2)) s

/-- LK_PRBS_INJECT STOP (R461). -/
def execLkPrbsInjectStop (mb : Fin 8) (s : State) : Out :=
  prbsInject mb (fun k => decide (k = 3)) (fun _ => true) (fun _ i => (none, i.2)) s

/-- Bits a lane receives in some 25 ns units (R425). -/
def laneBits (rate n : Nat) : Nat := n * rateOf rate / 4000

/-- A locked checker's counts brought up to now: bits by the lane rate; how many were in error is open (R460, log 45). -/
def prbsCatchUp (l : Nat) (s : State) : State :=
  let x := laneAt s l
  if !x.prbsLock then s
  else
    let bits := laneBits x.rate (s.up - x.prbsAt)
    let (e, s) := drawNat s
    modLane l (fun x => { x with
      prbsAt := s.up, prbsCount := (x.prbsCount.1 + bits, min stat32 (x.prbsCount.2.1 + e % (bits + 1)), x.prbsCount.2.2) }) s

/-- LK_PRBS_READ, 0x090B (R460). -/
def execLkPrbsRead (mb : Fin 8) (s : State) : Out :=
  call mb 0x090B epd 2 (fun p => need (decide (p8 p 0 < 16)) (fun s =>
    let s := prbsCatchUp (p8 p 0) s
    let x := laneAt s (p8 p 0)
    okBytes (b1 (bitNat x.prbsLock) ++ [0, 0, 0] ++ b8 x.prbsCount.1 ++ b4 x.prbsCount.2.1 ++ b4 x.prbsCount.2.2)
      (when (decide (p8 p 1 = 1)) (modLane (p8 p 0) (fun x => { x with prbsCount := (0, 0, 0) })) s))) s

/-- The PRBS checker of a lane in TEST locks on 1,024 bits that follow its pattern, the last one lowest (R459, R460). -/
def execPrbsCheckerLock (lane : Fin 16) (rx : BitVec 1024) (s : State) : Out :=
  let x := laneAt s lane
  event (laneIn s lane .test && !x.prbsLock && prbsFollows x.prbs.1 x.prbs.2 rx) (fun s =>
    modLane lane (fun x => { x with prbsLock := true, prbsAt := s.up }) s) s

/-- How many bits of a word are set. -/
def onesOf (w : Nat) : Nat → Nat
  | 0 => 0
  | n + 1 => onesOf (w / 2) n + w % 2

/-- The checker loses lock: 256 or more of the last 1,024 bits are in error; what it has compared since its counts were last
brought up to date, and the errors in it, are added (R460). -/
def execPrbsLockLost (lane : Fin 16) (errors : Nat) (bad : BitVec 1024) (s : State) : Out :=
  event (laneIn s lane .test && (laneAt s lane).prbsLock && decide (256 ≤ onesOf bad.toNat 1024)) (fun s =>
    let bits := laneBits (laneAt s lane).rate (s.up - (laneAt s lane).prbsAt)
    let errors := max (onesOf bad.toNat 1024) errors
    raise 409 [] (modLane lane (fun x => { x with
      prbsLock := false
      prbsCount := (x.prbsCount.1 + bits, min stat32 (x.prbsCount.2.1 + errors), min stat32 (x.prbsCount.2.2 + 1)) }) s)) s

/-- LK_ETH_CONFIG, 0x090C: a changed destination is resolved anew (R465, R474). -/
def execLkEthConfig (mb : Fin 8) (s : State) : Out :=
  call mb 0x090C epd 29 (fun p =>
    let v := bytesAt p 1 28
    need (decide (p8 p 0 < 4) && ethEntryOk v) (fun s =>
      let g := p8 p 0
      let same := decide (destIp s g = u32At v 10 ∧ uAt 6 (ethConf s g) 14 = uAt 6 v 14)
      let s := setCfgEntry 0x0906 28 g v s
      if same then ok s
      else
        let s := if groupMode s g = 2 ∧ (staticMac s g).isNone then groupDown g s else s
        ok (resolveMac g s))) s

/-- LK_ETH_STATUS, 0x090D (R474). -/
def execLkEthStatus (mb : Fin 8) (s : State) : Out :=
  call mb 0x090D epd 1 (fun p => need (decide (p8 p 0 < 4)) (fun s =>
    let x := groupAt s (p8 p 0)
    let mac : BitVec 48 := x.mac.getD 0
    okBytes (b1 (bitNat x.mac.isSome) ++ b1 (bitNat (decide (x.pause ≠ 0))) ++ leBytes 6 mac.toNat ++ (tslice 0 x.eth 0 4).flatMap b4) s)) s

/-- LK_SL_STATUS, 0x090E (R474). -/
def execLkSlStatus (mb : Fin 8) (s : State) : Out :=
  call mb 0x090E epdPri 1 (fun p => need (decide (p8 p 0 < 4)) (fun s =>
    let x := slinkAt s (p8 p 0)
    let v := x.hello.1
    okBytes (b1 x.state ++ b1 (field v 5 0) ++ b1 (field v 7 6) ++ b1 (field v 9 8) ++ (tslice 0 x.counts 0 4).flatMap b4) s)) s

/-- LK_SL_CONFIG, 0x090F (R474). -/
def execLkSlConfig (mb : Fin 8) (s : State) : Out :=
  call mb 0x090F epd 1 (fun p => need (decide (p8 p 0 < 16)) (fun s => ok (startSides (setCfg 0x0907 (p.take 1) s)))) s

/-- LK_STATS, 0x0910 (R474). -/
def execLkStats (mb : Fin 8) (s : State) : Out :=
  call mb 0x0910 epd 2 (fun p => need (decide (p8 p 0 < 4)) (fun s =>
    okBytes (statBytes 9 (groupAt s (p8 p 0)).stats (groupAt s (p8 p 0)).statSat)
      (when (decide (p8 p 1 = 1)) (modGroup (p8 p 0) (fun x => { x with stats := [], statSat := 0 })) s))) s

/-- LK_TC0_LOAD, 0x0911: the load of the last second, its peak burst and the source queue's peak (R452). -/
def execLkTc0Load (mb : Fin 8) (s : State) : Out :=
  call mb 0x0911 epdPri 0 (fun _ s =>
    let xs := s.ev.tc0Load.filter (fun e => decide (stampDiff s.tc.now e.1 < 40000000))
    let burst := xs.foldl (fun a e => max a (divUp e.2.1 40)) 0
    let peak := xs.foldl (fun a e => max a e.2.2) 0
    okBytes (b4 (min stat32 xs.length) ++ b2 (min 0xFFFF burst) ++ b2 (min 0xFFFF peak)) s) s

end Sys2Proof.Machine
end

