-- ==== Sys2Proof/Machine/TimeCore.lean ====
section
/-! DEFINITION. The commands of the time core, the time exchange and the interval inputs (chapter 11). -/
namespace Sys2Proof.Machine

/-- The middle one of three. -/
def middleOf (a b c : Int) : Int := max (min a b) (min (max a b) c)

/-- What a replica of the time core holds: count with epoch, frequency word, and the servo's phase and state (R476). -/
structure Replica where
  /-- count with epoch -/
  now : Stamp
  /-- steering, in 1e-12 -/
  y : Int
  /-- phase still to be steered out, in ps -/
  steerPs : Int
  /-- TIME_STATE -/
  state : Nat
  deriving DecidableEq, Repr

/-- What a replica of the time core holds before a vote. -/
def replicaOf (s : State) (upset : List TimeUpset) (r : Nat) : Replica :=
  match upset.find? (fun u => decide (u.replica = r)) with
  | some u => { now := u.value, y := u.y, steerPs := u.steerPs, state := u.state % 5 }
  | none => { now := s.tc.now, y := s.tc.y, steerPs := s.tc.steerPs, state := timeCode s.tc.timeState }

/-- What two of three replicas hold; none with no two alike. -/
def majority (a b c : Replica) : Option Replica := if a = b ∨ a = c then some a else if b = c then some b else none

/-- The median of three replicas, field by field (R477). -/
def replicaMedian (a b c : Replica) : Replica :=
  { now := mkStamp (middleOf (epochOf a.now) (epochOf b.now) (epochOf c.now)).toNat
      (middleOf (tickOf a.now) (tickOf b.now) (tickOf c.now)).toNat
    y := middleOf a.y b.y c.y, steerPs := middleOf a.steerPs b.steerPs c.steerPs
    state := (middleOf a.state b.state c.state).toNat }

/-- The time state that TIME_STATE numbers so (R479). -/
def timeOf : Nat → TimeState
  | 0 => .unsync
  | 1 => .acquiring
  | 2 => .sync
  | 3 => .holdover
  | _ => .coarse

/-- All three replicas hold this from here on. -/
def loadReplica (m : Replica) (s : State) : State :=
  onTc (fun x => { x with now := m.now, y := m.y, steerPs := m.steerPs, timeState := timeOf m.state }) s

/-- The three replicas are voted (R477): a lone disagreement is reloaded; with no two alike the median of each field goes
into all three and TMR_FAULT is set for 1 s. -/
def timeVote (a b c : Replica) (s : State) : State :=
  match majority a b c with
  | some m =>
    let s := loadReplica m s
    if a = b ∧ b = c then s else raise 448 [] (timeStat 6 1 s)
  | none =>
    raise 449 [] (onTc (fun x => { x with tmrUntil := s.up + ms 1000 }) (loadReplica (replicaMedian a b c) s))

/-- The replicas of the time core are voted (R477). -/
def execTimeTmrVote (upset : List TimeUpset) (s : State) : Out :=
  event s.tc.strobe (timeVote (replicaOf s upset 0) (replicaOf s upset 1) (replicaOf s upset 2)) s

/-- No edge from REF_IN, OCXO_IN or LN0_RX within 1 us: the source is lost (R481). -/
def execFreqSourceWatchdog (src : Fin 3) (s : State) : Out := event s.tc.strobe (freqLost (src.val + 1)) s

/-- One window of 1 ms of the frequency check, with the difference from nominal in 1e-9 (R481). -/
def execFreqWindowCheck (src : Fin 3) (ppb : Int) (s : State) : Out :=
  event (s.tc.strobe && (decide (src.val ≠ 2) || (laneAt s 0).lock)) (fun s =>
    let s := reachUp ((freqSource s (src.val + 1)).winAt + ms 1) s
    let s := modFreqSrc (src.val + 1) (fun x => { x with winAt := s.up }) s
    if ppb.natAbs ≤ 1000 * cfg16 s 0x0A01 12 then freqGood (src.val + 1) s else freqLost (src.val + 1) s) s

/-- The filtered OCXO_RDY falls (R482). -/
def execOcxoRdyFall (s : State) : Out :=
  event (s.tc.ocxoRdy && s.tc.strobe) (fun s =>
    raise 453 [] (freqRefresh (trackOcxo (onTc (fun x => { x with ocxoRdy := false, ocxoWarm := false }) s)))) s

/-- The filtered OCXO_RDY rises (R482). -/
def execOcxoRdyRise (s : State) : Out :=
  event (!s.tc.ocxoRdy && s.tc.strobe) (fun s => trackOcxo (onTc (fun x => { x with ocxoRdy := true, ocxoWarm := false }) s)) s

/-- OCXO_IN has been present with OCXO_RDY high for WARM_HOLD (R482). -/
def execOcxoWarmHoldExpiry (s : State) : Out :=
  match s.tc.ocxoSince with
  | none => .next s
  | some t => event s.tc.strobe (fun s =>
      freqRefresh (onTc (fun x => { x with ocxoWarm := true }) (reachUp (t + ms (1000 * cfg16 s 0x0A01 8)) s))) s

/-- The place of a source in the priority list. -/
def freqRank (s : State) (c : Nat) : Nat := ((freqList s).findIdx? (· == c)).getD 4

/-- A source of higher priority has stayed usable for WAIT_TO_RESTORE and is selected, unless the selection is
non-revertive (R484). -/
def execFreqRestoreTimer (src : Nat) (s : State) : Out :=
  match tget none s.tc.usable src with
  | none => .next s
  | some t => event (s.tc.strobe && freqUsable s src && decide (s.tc.freqSrc ≠ 0 ∧ freqRank s src < freqRank s s.tc.freqSrc
      ∧ cfg16 s 0x0A01 10 ≠ 0xFFFF)) (fun s => selectFreq src (reachUp (t + ms (1000 * cfg16 s 0x0A01 10)) s)) s

/-- What SLEW lets y change by in some 25 ns units, in 1e-12 (R485, R510). -/
def slewLimit (s : State) (n : Nat) : Nat := cfg16 s 0x0A01 14 * 10000 * n / 40000000

/-- What the loop steers to: the steering wanted, within SLEW of the last one (R485). -/
def slewed (s : State) (want : Int) : Int :=
  clampInt (s.tc.y - s.tc.yPhase - slewLimit s (s.up - s.tc.loopAt)) (s.tc.y - s.tc.yPhase + slewLimit s (s.up - s.tc.loopAt)) want

/-- The loop's new steering is in force, and open windows take it into their mean (R485, R506). -/
def steerTo (y : Int) (s : State) : State :=
  forAll (List.range 4) (fun i => modTi i (fun x => { x with
      gate := x.gate.map (fun g => if inGate g s.tc.now then { g with steer := (g.steer.1 + y, g.steer.2 + 1) } else g) }))
    (onTc (fun x => { x with
      y := y, loopAt := s.up, yHist := (s.up, y) :: x.yHist.filter (fun e => decide (s.up < e.1 + ms 1100)) }) s)

/-- The frequency core has locked. -/
def freqLocked (s : State) : State := raise 457 [] (onTc (fun x => { x with freqState := .locked }) s)

/-- The frequency loop over the last 100 ms: the difference from the source in 1e-12, and the steering that would meet it,
which SLEW limits; within 1e-9 and not limited the core is LOCKED (R485). -/
def execFreqLockCheck (diff : Nat) (want : Int) (s : State) : Out :=
  event (s.tc.strobe && decide (s.tc.freqSrc ≠ 0)) (fun s =>
    let s := steerOn (reachUp (s.tc.loopAt + ms 100) s)
    let new := slewed s want
    when (decide (s.tc.freqState = .acquiring ∧ diff ≤ 1000 ∧ new = want)) freqLocked (steerTo (clampY (new + s.tc.yPhase)) s)) s

/-- A TIME payload of a message arrives on a group: one that breaks R490 raises EV_471. -/
def timeMessage (g msg : Nat) (payload : List Byte) (act : State → State) (s : State) : Out :=
  event ((groupAt s g).running && s.tc.strobe) (fun s =>
    if !timeLayout payload || decide (byteAt payload 0 ≠ msg) then raise 471 [] s
    else when (timeGroup s 1 1 g) act s) s

/-- The followed master has this identity (R491). -/
def fromMaster (s : State) (sender : Nat) : Bool :=
  match s.tc.master with
  | some m => decide (m.sender = sender)
  | none => false

/-- A SYNC of the followed master: t2 is taken and one DELAY_REQ queued for the same group, at most one in 15.625 ms; the
SYNC is else unanswered. t3 is stamped when the request is sent (R491). -/
def execTimeSyncRx (g : Fin 4) (payload : List Byte) (t2 : FineTime) (s : State) : Out :=
  timeMessage g 1 payload (fun s =>
    let (t2, s) := stampNow t2 s
    if !fromMaster s (u32At payload 4) then s
    else
      let s := onTc (fun x => { x with logInt := signed 8 (byteAt payload 18) }) s
      if !mayRequest s then timeStat 2 1 s
      else
        let seq := u16At payload 2
        let t1 := if byteAt payload 1 = 1 then none else some (timeStampOf payload)
        let s := openExchange { group := g, seq := seq, opened := s.up, t1 := t1, t2 := t2, t3 := none, t4 := none, corr := (0, 0) } s
        tc0Send { stream := 19, kind := 0x14, payload := delayReq s seq (u32At payload 4), group := some g.val } s) s

/-- A FOLLOW_UP gives t1 (R492). -/
def execTimeFollowUpRx (g : Fin 4) (payload : List Byte) (s : State) : Out :=
  timeMessage g 2 payload (fun s =>
    when (fromMaster s (u32At payload 4)) (onExchange g (u16At payload 2) (fun e => { e with t1 := some (timeStampOf payload) })) s) s

/-- A DELAY_RESP that names this module gives t4 (R492). -/
def execTimeDelayRespRx (g : Fin 4) (payload : List Byte) (s : State) : Out :=
  timeMessage g 4 payload (fun s =>
    when (fromMaster s (u32At payload 4) && decide (u32At payload 20 = serialLo s))
      (onExchange g (u16At payload 2) (fun e => { e with t4 := some (timeStampOf payload) })) s) s

/-- An ANNOUNCE (R491). -/
def execTimeAnnounceRx (g : Fin 4) (payload : List Byte) (s : State) : Out :=
  timeMessage g 5 payload (fun s => announce { id := u32At payload 4, sender := u32At payload 4, heardAt := s.up } s) s

/-- The oldest exchange has not become complete within 1 s of t2: it is late (R492, R511). -/
def execTimeExchangeTimeout (s : State) : Out :=
  match s.tc.exch with
  | [] => .next s
  | e :: _ => event s.tc.strobe (fun s =>
      timeStat 1 1 (onTc (fun x => { x with exch := x.exch.drop 1 }) (reachUp (e.opened + ms 1000) s))) s

/-- A master has not announced itself for 3 s (R491). -/
def execMasterAnnounceTimeout (master : Word) (s : State) : Out :=
  match s.tc.masters.find? (fun m => decide (m.sender % 2 ^ 32 = master.toNat)) with
  | none => .next s
  | some m => event s.tc.strobe (fun s =>
      followMaster (onTc (fun x => { x with masters := x.masters.erase m }) (reachUp (m.heardAt + ms 3000) s))) s

/-- Four intervals of the time source in 25 ns units; for PPS_IN 3 s (R486, R490). -/
def holdoverAfter (s : State) : Nat :=
  if timeSrc s = 3 then ms 3000
  else if 0 ≤ s.tc.logInt then ms (4000 * 2 ^ s.tc.logInt.toNat) else ms 4000 / 2 ^ s.tc.logInt.natAbs

/-- In SYNC, no valid measurement for four intervals (R486). -/
def execTimeHoldoverTimeout (s : State) : Out :=
  event (decide (s.tc.timeState = .sync)) (fun s =>
    raise 460 [] (setTime .holdover (reachUp (s.tc.lastValid.getD 0 + holdoverAfter s) s))) s

/-- The edge of a pending step (R489, R501). -/
def execTimeStepEdge (s : State) : Out :=
  event s.tc.strobe (fun s => match s.tc.step with
    | some st => takeStep st s
    | none => s) s

/-- A PTP message arrives on a group: a malformed one raises EV_471; peer-delay, management and signalling messages and
those of another domain are discarded (R493). -/
def ptpMessage (g type : Nat) (m : List Byte) (act : State → State) (s : State) : Out :=
  event ((groupAt s g).running && timeGroup s 2 2 g) (fun s =>
    if ptpOther m then s
    else if !ptpFormed m || decide (ptpType m ≠ type) then raise 471 [] s
    else when (decide (ptpDomain m = cfg8 s 0x0A03 0)) act s) s

/-- portIdentity of a group: its source MAC expanded to EUI-64 by 0xFFFE, and port 1 (R493, log 46). -/
def portIdentity (s : State) (g : Nat) : List Byte :=
  (sourceMac s g).take 3 ++ [0xFF, 0xFE] ++ (sourceMac s g).drop 3 ++ [0, 1]

/-- A Delay_Req with a sequenceId (R493; the layout of IEEE 1588-2019, log 46). -/
def ptpDelayReq (s : State) (g seq : Nat) : List Byte :=
  [1, 2] ++ beBytes 2 44 ++ b1 (cfg8 s 0x0A03 0) ++ List.replicate 15 0 ++ portIdentity s g ++ beBytes 2 seq ++ [1, 0x7F] ++ List.replicate 10 0

/-- A PTP event message as an Ethernet frame: UDP port 319 to 224.0.1.129 (R493, log 46). -/
def ptpFrame (s : State) (g : Nat) (m : List Byte) : List Byte :=
  ethII s g [0x01, 0x00, 0x5E, 0x00, 0x01, 0x81] 0x0800 (ipHeader 46 (28 + m.length) (ownIp s g) 0xE0000181
    ++ beBytes 2 319 ++ beBytes 2 319 ++ beBytes 2 (8 + m.length) ++ [0, 0] ++ m)

/-- A Delay_Req is sent on a group: when, within the 100 us, is open, and with it t3 (R491, R493, log 46). -/
def sendDelayReq (g seq : Nat) (s : State) : State :=
  let (a, s) := drawNat s
  let (b, s) := drawNat s
  let t3 : FineTime := { tick := s.tc.now + BitVec.ofNat 64 (a % 4001), fine := b % 8192 }
  let s := onTc (fun x => { x with ptpReq := (g, ptpFrame s g (ptpDelayReq s g seq)) :: x.ptpReq }) s
  onExchange g seq (fun e => { e with t3 := some t3 }) s

/-- A PTP Sync of the followed master (R491, R493). -/
def execPtpSyncRx (g : Fin 4) (payload : List Byte) (t2 : FineTime) (s : State) : Out :=
  ptpMessage g 0 payload (fun s =>
    let (t2, s) := stampNow t2 s
    if !fromMaster s (ptpSender payload) then s
    else
      let s := onTc (fun x => { x with logInt := signed 8 (byteAt payload 33) }) s
      if !mayRequest s then timeStat 2 1 s
      else
        let corr := ptpCorr payload
        let t1 := if bit (byteAt payload 6) 1 then none else some (ptpTime s payload corr)
        sendDelayReq g (ptpSeq payload) (openExchange {
          group := g, seq := ptpSeq payload, opened := s.up, t1 := t1, t2 := t2, t3 := none, t4 := none, corr := (corr, 0) } s)) s

/-- A PTP Follow_Up of the followed master gives t1 (R493). -/
def execPtpFollowUpRx (g : Fin 4) (payload : List Byte) (s : State) : Out :=
  ptpMessage g 8 payload (fun s =>
    when (fromMaster s (ptpSender payload)) (onExchange g (ptpSeq payload) (fun e => { e with
      t1 := some (ptpTime s payload (e.corr.1 + ptpCorr payload)) })) s) s

/-- A PTP Delay_Resp to this module's port gives t4 (R493). -/
def execPtpDelayRespRx (g : Fin 4) (payload : List Byte) (s : State) : Out :=
  ptpMessage g 9 payload (fun s =>
    when (fromMaster s (ptpSender payload) && decide (bytesAt payload 44 10 = portIdentity s g))
      (onExchange g (ptpSeq payload) (fun e => { e with
        t4 := some (ptpTime s payload (-(ptpCorr payload))), corr := (e.corr.1, ptpCorr payload) })) s) s

/-- A PTP Announce (R493). -/
def execPtpAnnounceRx (g : Fin 4) (payload : List Byte) (s : State) : Out :=
  ptpMessage g 11 payload (fun s => announce { id := ptpRank payload, sender := ptpSender payload, heardAt := s.up } s) s

/-- The expected PPS edge nearest to a stamp, as a difference in fine units (R495). -/
def ppsOffset (s : State) (t : FineTime) : Int :=
  let period : Int := 40000000 * 8192
  let phase : Int := 8192 * (cfg32 s 0x0A04 0 : Int)
  let u := (8192 * (t.tick.toNat : Int) + t.fine - phase) % period
  if 2 * u ≤ period then u else u - period

/-- An edge on PPS_IN: in a fresh ACQUIRING it is taken wherever it lies, else within PPS_WINDOW (R495, log 46). -/
def execPpsInEdge (t : FineTime) (s : State) : Out :=
  event (s.tc.strobe && decide (timeSrc s = 3)) (fun s =>
    let (t, s) := stampNow t s
    let u := ppsOffset s t
    let first := match s.tc.timeState with
      | .unsync => true
      | .acquiring | .coarse => !s.tc.heard
      | _ => false
    if !first && decide ((cfg16 s 0x0A04 4 : Int) * 1000 * 8192 < u.natAbs * 25000) then raise 464 [] (timeStat 5 1 s)
    else timeMeasure (divRound (u * 25000) 8192) 0 (onTc (fun x => { x with ppsPresent := true, ppsAt := s.up }) s)) s

/-- 1.1 s without an accepted PPS edge (R495). -/
def execPpsLossTimeout (s : State) : Out :=
  event s.tc.ppsPresent (fun s => raise 463 [] (onTc (fun x => { x with ppsPresent := false }) (reachUp (s.tc.ppsAt + ms 1100) s))) s

/-- The first tick at or after now that is congruent to a phase modulo 40,000,000. -/
def nextPps (s : State) (phase : Nat) : Stamp :=
  s.tc.now + BitVec.ofNat 64 ((phase + 40000000 - s.tc.now.toNat % 40000000 + 40000000) % 40000000)

/-- PPS_OUT rises on its tick, or falls after its width (R496). -/
def execPpsOutPulse (s : State) : Out :=
  event (s.tc.strobe && (s.tc.ppsOut || decide (cfg8 s 0x0A04 6 = 1))) (fun s =>
    if s.tc.ppsOut then
      let rise := nextPps s (cfg32 s 0x0A04 8) - 40000000
      onTc (fun x => { x with ppsOut := false }) (reachTick (rise + BitVec.ofNat 64 (cfg32 s 0x0A04 12)) s)
    else onTc (fun x => { x with ppsOut := true }) (reachTick (nextPps s (cfg32 s 0x0A04 8)) s)) s

/-- A stamp too close to the last one of its input: within 40 ns (R503). -/
def tooClose (x : TiInput) (t : FineTime) : Bool :=
  match x.last with
  | some l => decide (timeDiff t l * 10 < 131072)
  | none => false

/-- A stamp enters the capture FIFO, the splits and the gate (R504, R505, R507). -/
def takeStamp (i : Nat) (t : FineTime) (s : State) : State :=
  let n := (tiAt s i).edges
  let full := decide (4096 ≤ (tiAt s i).fifo.length)
  let s := modTi i (fun x => { x with
    last := some t, fifo := if full then x.fifo else x.fifo ++ [(n, t)]
    gate := x.gate.map (fun g => if inGate g t.tick then
      { g with stamps := g.stamps ++ [(n, 8192 * stampDiff t.tick g.start + t.fine)] } else g) }) s
  forAll (List.range 4) (splitStamp i t) (raiseIf full 467 [] s)

/-- A selected edge on an interval input (R503). -/
def execTiEdge (input : Fin 4) (t : FineTime) (s : State) : Out :=
  event (s.tc.strobe && decide (byteAt (tiConf s input) 0 ≠ 0)) (fun s =>
    let (t, s) := stampNow t s
    let s := modTi input (fun x => { x with
      edges := (x.edges + 1) % 2 ^ 64
      gate := x.gate.map (fun g => if inGate g t.tick then { g with edges := g.edges + 1 } else g) }) s
    let x := tiAt s input
    if x.edges % tiPrescale s input ≠ 0 then s
    else if tooClose x t then
      let due := match x.missEv with
        | some m => decide (m + ms 1 ≤ s.up)
        | none => true
      if due then raise 466 [] (modTi input (fun x => { x with missEv := some s.up }) s) else s
    else takeStamp input t s) s

/-- A frequency gate has run its time (R507, R508). -/
def execFreqGateEnd (input : Fin 4) (s : State) : Out :=
  event (s.tc.strobe && (tiAt s input).gate.isSome) (fun s =>
    match (tiAt s input).gate with
    | some g => endGate input 0 (reachTick (g.start + BitVec.ofNat 64 (40000 * g.ms)) s)
    | none => s) s

/-- TIME_STATUS, 0x0A00 (R511). -/
def execTimeStatus (mb : Fin 8) (s : State) : Out :=
  call mb 0x0A00 epdPri 0 (fun _ s =>
    let secs := match s.tc.lastValid with
      | some t => min 0xFFFF ((s.up - t) / ms 1000)
      | none => 0xFFFF
    let id := match s.tc.master with
      | some m => m.sender % 2 ^ 32
      | none => 0
    okBytes (b4 (timeStateWord s) ++ b4 (unsigned 32 s.tc.y) ++ b4 (unsigned 32 s.tc.theta.1) ++ b4 (min stat32 s.tc.theta.2)
      ++ b4 id ++ b2 secs) s) s

/-- TIME_NOW, 0x0A01 (R511). -/
def execTimeNow (mb : Fin 8) (s : State) : Out := call mb 0x0A01 epdPri 0 (fun _ s => okBytes (stampBytes s.tc.now) s) s

/-- TIME_FREQ_CONFIG, 0x0A02: the first usable source of the new list is selected (R484, log 46). -/
def execTimeFreqConfig (mb : Fin 8) (s : State) : Out :=
  call mb 0x0A02 epd 16 (fun p => need (freqConfOk p) (fun s =>
    let s := freqRefresh (setCfg 0x0A01 (p.take 16) s)
    let c := firstUsable s
    ok (if s.tc.strobe ∧ c ≠ 0 ∧ c ≠ s.tc.freqSrc then selectFreq c s else s))) s

/-- TIME_SERVO_CONFIG, 0x0A03: TIME_STATE restarts from UNSYNC (R511). -/
def execTimeServoConfig (mb : Fin 8) (s : State) : Out :=
  call mb 0x0A03 epd 24 (fun p s => need (servoConfOk s p) (fun s =>
    let s := setCfg 0x0A02 (p.take 24) s
    ok (setTime .unsync (onTc (fun x => { x with exch := [], masters := [], master := none }) s))) s) s

/-- TIME_SET, 0x0A04 (R497, R501, R703). -/
def execTimeSet (mb : Fin 8) (s : State) : Out :=
  call mb 0x0A04 epd 16 (fun p =>
    needState (decide (timeSrc s = 0 ∨ timeSrc s = 3)) (fun s =>
      if s.tc.step.isSome then refuse stBusy s
      else need (decide (s.tc.now.toNat < (stampAt p 0).toNat)) (fun s =>
        ok (onTc (fun x => { x with step := some { edge := stampAt p 0, value := stampAt p 8, byCall := true }, setting := true }) s)) s)) s

/-- TIME_PTP_CONFIG, 0x0A05 (R494, R511). -/
def execTimePtpConfig (mb : Fin 8) (s : State) : Out :=
  call mb 0x0A05 epd 16 (fun p => need (ptpConfOk p) (fun s => ok (setCfg 0x0A03 (p.take 16) s))) s

/-- TIME_PPS_CONFIG, 0x0A06 (R496, R511). -/
def execTimePpsConfig (mb : Fin 8) (s : State) : Out :=
  call mb 0x0A06 epd 16 (fun p => need (ppsConfOk p) (fun s => ok (setCfg 0x0A04 (p.take 16) s))) s

/-- TI_CONFIG, 0x0A07 (R502, R511). -/
def execTiConfig (mb : Fin 8) (s : State) : Out :=
  call mb 0x0A07 epd 16 (fun p => need (decide (p8 p 0 < 4) && tiConfOk (bytesAt p 4 12)) (fun s =>
    ok (setCfgEntry 0x0A05 12 (p8 p 0) (bytesAt p 4 12) s))) s

/-- TI_STAMP_READ, 0x0A08: stamps leave the FIFO, oldest first (R504, R511). -/
def execTiStampRead (mb : Fin 8) (s : State) : Out :=
  call mb 0x0A08 epd 2 (fun p => need (decide (p8 p 0 < 4 ∧ 1 ≤ p8 p 1 ∧ p8 p 1 ≤ 27)) (fun s =>
    let q := (tiAt s (p8 p 0)).fifo
    let got := q.take (p8 p 1)
    let first := match got with
      | x :: _ => x.1
      | [] => 0
    okBytes (b2 got.length ++ b2 (q.length - got.length) ++ b8 first ++ got.flatMap (fun x => b8 (timeFine x.2)))
      (modTi (p8 p 0) (fun x => { x with fifo := x.fifo.drop (p8 p 1) }) s))) s

/-- SPLIT_CONFIG, 0x0A09: both inputs need P = 1 (R505, R511). -/
def execSplitConfig (mb : Fin 8) (s : State) : Out :=
  call mb 0x0A09 epd 12 (fun p =>
    need (decide (p8 p 0 < 4 ∧ p8 p 1 < 4 ∧ p8 p 2 < 4 ∧ p8 p 3 ≤ 1 ∧ 1 ≤ p32 p 8 ∧ p32 p 8 ≤ 1000000000)
      && decide (tiPrescale s (p8 p 1) = 1 ∧ tiPrescale s (p8 p 2) = 1)) (fun s =>
      ok (modSplit (p8 p 0) (fun x => { x with
        conf := (p8 p 1, p8 p 2, decide (p8 p 3 = 1), p32 p 4, p32 p 8), start := none, spans := false }) s))) s

/-- Mean and standard deviation of a channel's splits in 0.01 ps (R506, log 46). -/
def splitFigures (a : Nat × Int × Int) : Int × Nat :=
  let n : Int := a.1
  (divRound (a.2.1 * 2500000) (8192 * a.1), sqrtRound (divRoundNat ((n * a.2.2 - a.2.1 * a.2.1) * 2500000 ^ 2).toNat ((a.1 * 8192) ^ 2)))

/-- What SPLIT_READ states of a channel's splits; with none it is open (log 46). -/
def splitResult (x : SplitChan) (s : State) : List Byte × State :=
  match x.range with
  | some (a, b) =>
    let f := splitFigures x.acc
    (b8 (unsigned 64 f.1) ++ b4 (min stat32 f.2) ++ b8 (unsigned 64 a) ++ b8 (unsigned 64 b), s)
  | none =>
    let (m, s) := drawWords 3 s
    let (d, s) := drawNat s
    (m.take 8 ++ b4 d ++ m.drop 8, s)

/-- SPLIT_READ, 0x0A0A (R506, R511). -/
def execSplitRead (mb : Fin 8) (s : State) : Out :=
  call mb 0x0A0A epd 4 (fun p => need (decide (p8 p 0 < 4 ∧ p16 p 2 ≤ 24)) (fun s =>
    let x := splitAt s (p8 p 0)
    let (r, s) := splitResult x s
    okBytes (b4 x.acc.1 ++ r ++ b4 x.counts.1 ++ b4 x.counts.2 ++ (x.last.take (p16 p 2)).flatMap (fun d => b8 (unsigned 64 d)))
      (when (decide (p8 p 1 = 1)) (modSplit (p8 p 0) (fun x => { x with
        acc := (0, 0, 0), range := none, last := [], counts := (0, 0) })) s))) s

/-- FREQ_START, 0x0A0B: a gate as a job, one at a time on an input (R497, R507, log 46). -/
def execFreqStart (mb : Fin 8) (s : State) : Out :=
  call mb 0x0A0B epd 14 (fun p =>
    let t := stampAt p 2
    let next := decide (uAt 6 p 4 = 0)
    need (decide (p8 p 0 < 4 ∧ p8 p 1 ≤ 1 ∧ 1 ≤ p32 p 10 ∧ p32 p 10 ≤ 1000000) && (next || decide (s.tc.now.toNat < t.toNat)))
      (fun s =>
        if (tiAt s (p8 p 0)).gate.isSome then refuse stBusy s
        else startJob 0x0A0B p (fun n s => modTi (p8 p 0) (fun x => { x with
          gate := some {
            job := n, start := if next then s.tc.now + 400 else t, ms := p32 p 10, continuous := decide (p8 p 1 = 1)
            stamps := [], edges := 0, steer := (0, 0) } }) s) s)) s

/-- FREQ_READ, 0x0A0C; what a place of the ring without a result reads is open (R508, log 46). -/
def execFreqRead (mb : Fin 8) (s : State) : Out :=
  call mb 0x0A0C epd 2 (fun p => need (decide (p8 p 0 < 4 ∧ p8 p 1 ≤ 15)) (fun s =>
    match (tiAt s (p8 p 0)).results[p8 p 1]? with
    | some r => okBytes r s
    | none => let (r, s) := drawWords 6 s
      okBytes r s)) s

/-- FREQ_STOP, 0x0A0D (R508). -/
def execFreqStop (mb : Fin 8) (s : State) : Out :=
  call mb 0x0A0D epd 1 (fun p => need (decide (p8 p 0 < 4)) (fun s => ok (endGate (p8 p 0) 4 s))) s

/-- TIME_STATS, 0x0A0E (R511). -/
def execTimeStats (mb : Fin 8) (s : State) : Out :=
  call mb 0x0A0E epd 1 (fun p s => okBytes (statBytes 7 s.tc.stats s.tc.statSat)
    (when (decide (p8 p 0 = 1)) (onTc (fun x => { x with stats := [], statSat := 0 })) s)) s

end Sys2Proof.Machine
end

