-- ==== Sys2Proof/Machine/Timing.lean ====
section
/-! DEFINITION. The timing commands of chapter 04 that concern the block counters, the calibration of rings, the
temperatures and the tables; the conversion of a hit stands with the hit path. -/
namespace Sys2Proof.Machine

/-- A block's local tick counter is compared with the time core at a compared edge, where it reads `seen` (R149, R150). -/
def execBlockCounterCheck (block : Nat) (seen : BitVec 16) (s : State) : Out :=
  event (rowPowered s block && s.tc.strobe) (fun s =>
    let want := BitVec.ofNat 16 s.tc.now.toNat
    if (blockAt s block).reload then modBlock block (fun x => { x with counterOff := 0, reload := false }) s
    else if seen = want then modBlock block (fun x => { x with counterOff := 0 }) s
    else
      let s := modBlock block (fun x => { x with counterOff := seen - want, reload := true }) s
      raise 139 (b1 block ++ b2 (seen - want).toNat) s) s

/-- INL is rebuilt at 2^20 hits (R185). -/
def execInlUpdate (block : Nat) (s : State) : Out :=
  event (decide (2 ^ 20 ≤ (tslice 0 s.tm.bins (128 * block) 128).foldl (· + ·) 0)) (inlRebuild block) s

/-- A block's temperature is updated (R166, R167). -/
def tempUpdate (k : Nat) (s : State) : State :=
  let (used, t, back) := tempOf s (byteAt (cfg s 0x0303) (4 * k)) (k / 16)
  let new := back && (tget none s.tm.fallback k).isNone
  let s := onTm (fun x => { x with
    temp := tput 0 k t x.temp, fallback := tput none k (if back then some used else none) x.fallback }) s
  staleUpdate k (raiseIf new 131 [] s)

/-- The lead cox updates every block's temperature (R166). -/
def execTmTempUpdate (s : State) : Out := event (awake s) (forAll (List.range 256) tempUpdate) s

/-- A run of a super-pixel is valid: it counts, and the M-th sets the period, with the temperature and the mean droop
reading of its runs (R169). -/
def runCounts (sp k b n : Nat) (s : State) : State :=
  let r := runOf s sp b
  let r : CalRun := { sum := r.sum + n, m := r.m + 1, v := r.v + droopMv s k }
  let s := tmStat k 3 s
  if r.m < runsM s then onTm (fun x => { x with run := tput none (4 * sp + b) (some r) x.run }) s
  else
    let per := min 0xFFFF (divRoundNat (4 * 25000 * 128 * r.m * 128) r.sum)
    onTm (fun x => { x with
      run := tput none (4 * sp + b) (some r) x.run
      per := tput 0 (4 * sp + b) per x.per
      tcal := tput 0 (4 * k + b) (tget 0 x.temp k) x.tcal
      v := tput 0 (4 * k + b) (divRoundNat r.v r.m) x.v
      calAt := tput none (4 * k + b) (some s.up) x.calAt }) s

/-- N_CAL: the phases in four ticks of a ring of that period, in 16 bits (R169, R187). -/
def calCount (per : Nat) : Nat := min 0xFFFF (100000 * 16384 / clampNat 46080 53760 per)

/-- A calibration run that has started latches its phase count on edge E + 4 (R169, R170): counted where the block held its
band and no discriminator of the super-pixel rose. -/
def latchRun (r : CalNow) (per : Nat) (s : State) : State :=
  let k := spBlock r.sp
  let s := reachTick (r.start + 4) s
  let s := onTm (fun x => { x with running := tmod [] k (fun l => l.filter (fun q => decide (q.sp ≠ r.sp))) x.running }) s
  if r.hit then tmStat k 4 s
  else if r.left ∨ bandOf s k ≠ r.band then s
  else
    let s := if (fillingOf s k r.band).isNone then beginFill k r.band true [] s else s
    fillCheck k r.band (runCounts r.sp k r.band (calCount per) s)

/-- A calibration run of a super-pixel latches (R169 to R173, R177, R178): the runs that may start do, the one in progress on
the super-pixel ends on its edge E + 4, with a ring of period `per`, and the next ones start. -/
def execCalRunLatch (sp per : Nat) (s : State) : Out :=
  let k := spBlock sp
  event (awake s && s.tc.strobe) (fun s =>
    let s := startRuns k s
    match (runsOf s k).find? (fun r => decide (r.sp = sp)) with
    | none => s
    | some r => startRuns k (latchRun r per s)) s

/-- A band passes MAX_AGE (R172). -/
def execCalBandAgeExpiry (block : Nat) (band : Fin 4) (s : State) : Out :=
  event (awake s && decide (cfg16 s 0x0304 2 ≠ 0) && (tget none s.tm.calAt (4 * block + band)).isSome
      && !bit (tget 0 s.tm.aged block).toNat band) (fun s =>
    let since := (tget none s.tm.calAt (4 * block + band)).getD 0
    staleUpdate block (onTm (fun x => { x with
      aged := tput 0 block (tget 0 x.aged block ||| BitVec.ofNat 4 (2 ^ band.val)) x.aged })
        (reachUp (since + cfg16 s 0x0304 2 * ms 3600000) s))) s

/-- TM_STATUS (R191). -/
def execTmStatus (mb : Fin 8) (s : State) : Out :=
  call mb 0x0300 epdPri 1 (fun p s =>
    let k := p8 p 0
    let src := (tempOf s (byteAt (cfg s 0x0303) (4 * k)) (k / 16)).1
    okBytes (b1 (bandOf s k) ++ b1 (tget 150 s.tm.dm k) ++ b1 (bitNat (clockReady s k)) ++ [0]
      ++ b2 (unsigned 16 (tget 0 s.tm.temp k)) ++ b1 src ++ b1 (tget 0 s.tm.stale k).toNat) s) s

/-- One band of TM_CAL_STATUS: valid super-pixels, V, TCAL, age in minutes. -/
def calStatus (s : State) (k b : Nat) : List Byte :=
  let age := match tget none s.tm.calAt (4 * k + b) with
    | some t => min 0xFFFF ((s.up - t) / (60 * ms 1000))
    | none => 0xFFFF
  b2 (validSps s k b) ++ b2 (tget 0 s.tm.v (4 * k + b)) ++ b2 (unsigned 16 (tget 0 s.tm.tcal (4 * k + b))) ++ b2 age

/-- TM_CAL_STATUS (R191). -/
def execTmCalStatus (mb : Fin 8) (s : State) : Out :=
  call mb 0x0301 epd 2 (fun p s =>
    need (decide (1 ≤ p8 p 1 ∧ p8 p 1 ≤ 7 ∧ p8 p 0 + p8 p 1 ≤ 256)) (fun s =>
      okBytes ((List.range (p8 p 1)).flatMap (fun i => (List.range 4).flatMap (calStatus s (p8 p 0 + i)))) s) s) s

/-- TM_CAL_RUN begins (R173, R193): the band that each block held when the call was accepted fills for the job, the fillings
in flight on the block are joined, and in EASY the engine of its row wakes. The bands stand after the call's parameters. -/
def calRunBegin (p : List Byte) (num : Nat) (s : State) : State :=
  let ks := (scanBlocks (p8 p 0) (p8 p 1)).map (fun k => (k, p8 p (3 + k - p8 p 0)))
  let s := forAll ks (fun e s =>
    let s := onTm (fun x => { x with filling := tmod [] e.1 (fun l => l.map (fun f =>
      if f.band = e.2 then f else { f with jobs := f.jobs ++ [num] })) x.filling }) (wakeEngine (engineOf s (e.1 / 16)) s)
    beginFill e.1 e.2 (decide (p8 p 2 = 1)) [num] s) s
  let s := forAll ks (fun e s => fillCheck e.1 e.2 s) s
  fillJobEnds num (forAll ks (fun e => startRuns e.1) s)

/-- TM_CAL_RUN (R173, R193). -/
def execTmCalRun (mb : Fin 8) (s : State) : Out :=
  call mb 0x0302 epd 3 (fun p s =>
    let p := p.take 3 ++ (scanBlocks (p8 p 0) (p8 p 1)).flatMap (fun k => b1 (bandOf s k))
    need (decide (1 ≤ p8 p 1 ∧ p8 p 0 + p8 p 1 ≤ 256 ∧ p8 p 2 ≤ 1)) (fun s => lowJob 0x0302 p (calRunBegin p) s) s) s

/-- TM_BAND_CONFIG (R164). -/
def execTmBandConfig (mb : Fin 8) (s : State) : Out :=
  call mb 0x0303 epd 7 (fun p s => need (bandsOk p) (fun s => ok (bandsFollow (setCfg 0x0301 (bytesAt p 0 7) s))) s) s

/-- The super-pixels of a call of first, band and count (R191). -/
def periodRange (p : List Byte) : Bool :=
  decide (p8 p 2 < 4 ∧ 1 ≤ p8 p 3 ∧ p8 p 3 ≤ 112 ∧ p16 p 0 + p8 p 3 ≤ 65536)

/-- TM_PERIOD_READ (R191). -/
def execTmPeriodRead (mb : Fin 8) (s : State) : Out :=
  call mb 0x0304 epd 4 (fun p s =>
    need (periodRange p) (fun s =>
      okBytes ((List.range (p8 p 3)).flatMap (fun i => b2 (perOf s (p16 p 0 + i) (p8 p 2)))) s) s) s

/-- A band of a block after a write of its periods: the DM request mask and the report of its first CALB_EXTRAP hit follow,
and a filling that the write completes ends (R177, R193, R199). -/
def periodsWritten (b k : Nat) (s : State) : State :=
  let s := dmMaskUpdate k b s
  let s := if validSps s k b = 256 then s
    else onTm (fun x => { x with missed := tmod 0 k (fun m => m &&& ~~~(BitVec.ofNat 4 (2 ^ b))) x.missed }) s
  fillCheck k b s

/-- TM_PERIOD_WRITE (R192, R199). -/
def execTmPeriodWrite (mb : Fin 8) (s : State) : Out :=
  call mb 0x0305 epd 4 (fun p s =>
    let n := p8 p 3
    let b := p8 p 2
    need (periodRange p && decide ((bytesAt p 4 (2 * n)).length = 2 * n)) (fun s =>
      let s := onTm (fun x => { x with
        per := (List.range n).foldl (fun t i => tput 0 (4 * (p16 p 0 + i) + b) (p16 p (4 + 2 * i)) t) x.per }) s
      let ks := ((List.range n).map (fun i => spBlock (p16 p 0 + i))).eraseDups
      ok (forAll ks (periodsWritten b) s)) s) s

/-- TM_SKEW_READ (R184, R191). -/
def execTmSkewRead (mb : Fin 8) (s : State) : Out :=
  call mb 0x0306 epd 4 (fun p s =>
    let n := p8 p 2
    need (decide (1 ≤ n ∧ n ≤ 56 ∧ p16 p 0 + n ≤ 65536 ∧ p8 p 3 ≤ 1)) (fun s =>
      okBytes (if p8 p 3 = 0 then (tslice 0 s.tm.skew (p16 p 0) n).flatMap (fun v => b2 (unsigned 16 v))
        else (tslice (0, 0) s.tm.skewCal (p16 p 0) n).flatMap (fun v => b2 (unsigned 16 v.1) ++ b2 v.2)) s) s) s

/-- TM_SKEW_WRITE (R192). -/
def execTmSkewWrite (mb : Fin 8) (s : State) : Out :=
  call mb 0x0307 epd 4 (fun p s =>
    let n := p8 p 2
    need (decide (1 ≤ n ∧ n ≤ 112 ∧ p16 p 0 + n ≤ 65536 ∧ (bytesAt p 4 (2 * n)).length = 2 * n)) (fun s =>
      ok (onTm (fun x => { x with
        skew := tfill 0 (p16 p 0) ((List.range n).map (fun i => i16At p (4 + 2 * i))) x.skew }) s)) s) s

/-- TM_WALK_READ (R191). -/
def execTmWalkRead (mb : Fin 8) (s : State) : Out :=
  call mb 0x0308 epd 1 (fun p s =>
    okBytes ((List.range 64).flatMap (fun i => b2 (wlkOf s (p8 p 0) i))
      ++ (List.range 16).flatMap (fun i => b2 (wswOf s (p8 p 0) i))) s) s

/-- TM_WALK_WRITE (R192). -/
def execTmWalkWrite (mb : Fin 8) (s : State) : Out :=
  call mb 0x0309 epd 164 (fun p s =>
    let k := p8 p 0
    ok (onTm (fun x => { x with
      wlk := tfill 0 (64 * k) ((List.range 64).map (fun i => p16 p (4 + 2 * i))) x.wlk
      wsw := tfill 0 (16 * k) ((List.range 16).map (fun i => p16 p (132 + 2 * i))) x.wsw }) s)) s

/-- TM_WALK_CAL (R183, R192). -/
def execTmWalkCal (mb : Fin 8) (s : State) : Out :=
  call mb 0x030A pOrD 4 (fun p s => blockJob 0x030A p (decide (100 ≤ p16 p 2 ∧ p16 p 2 ≤ 10000))
    (fun k => (blockAt s k).scan.isSome) (fun _ s => s) s) s

/-- TM_SKEW_CAL begins (R184). -/
def skewBegin (p : List Byte) (num : Nat) (s : State) : State :=
  onTm (fun x => { x with skewRuns := x.skewRuns ++ [{
    job := num, first := p8 p 0, count := p8 p 1, last := s.tc.now + BitVec.ofNat 64 (p32 p 2), sums := [] }] }) s

/-- TM_SKEW_CAL (R184). -/
def execTmSkewCal (mb : Fin 8) (s : State) : Out :=
  call mb 0x030B pOrD 6 (fun p s =>
    need (decide (1 ≤ p8 p 1 ∧ p8 p 0 + p8 p 1 ≤ 256 ∧ 1 ≤ p32 p 2)) (fun s => lowJob 0x030B p (skewBegin p) s) s) s

/-- TM_INL_READ (R191). -/
def execTmInlRead (mb : Fin 8) (s : State) : Out :=
  call mb 0x030C epd 1 (fun p s =>
    okBytes ((tslice 0 s.tm.inl (128 * p8 p 0) 128).flatMap (fun v => b1 (unsigned 8 v))
      ++ b4 ((tslice 0 s.tm.bins (128 * p8 p 0) 128).foldl (· + ·) 0)) s) s

/-- TM_TEMP_CONFIG (R166). -/
def execTmTempConfig (mb : Fin 8) (s : State) : Out :=
  call mb 0x030D epd 5 (fun p s =>
    need (tempSrcOk (p8 p 1)) (fun s => ok (setCfgEntry 0x0303 4 (p8 p 0) (bytesAt p 1 4) s)) s) s

/-- TM_DROOP_READ (R191). -/
def execTmDroopRead (mb : Fin 8) (s : State) : Out :=
  call mb 0x030E epdPri 2 (fun p s =>
    need (decide (1 ≤ p8 p 1 ∧ p8 p 1 ≤ 224 ∧ p8 p 0 + p8 p 1 ≤ 256)) (fun s =>
      okBytes ((tslice 150 s.tm.dm (p8 p 0) (p8 p 1)).flatMap b1) s) s) s

/-- TM_STATS (R187, R191). -/
def execTmStats (mb : Fin 8) (s : State) : Out :=
  call mb 0x030F epd 2 (fun p s =>
    let k := p8 p 0
    let bytes := (tslice 0 s.tm.stats (6 * k) 6).flatMap b4 ++ b4 (tget 0 s.tm.statSat k)
    okBytes bytes (if p8 p 1 = 1 then onTm (fun x => { x with
      stats := tfill 0 (6 * k) (List.replicate 6 0) x.stats, statSat := tput 0 k 0 x.statSat }) s else s)) s

end Sys2Proof.Machine
end

