-- ==== Sys2Proof/Machine/WeOps.lean ====
section
/-! DEFINITION. The waveform cores' own logic (chapter 07): memories, registers, in-flight operations, cycles, the issue of
an instruction, loops, streams, kernel records, faults, and the starting and stopping of a core. -/
namespace Sys2Proof.Machine

/-- The kernel is LOW. -/
def isLow (x : WeCore) : Bool := decide (hdr8 x 6 = 1)

/-- An input channel: patch, k, mode, enable. -/
def inChan (x : WeCore) (ch : Nat) : Nat × Nat × Nat × Nat :=
  (hdr8 x (48 + 4 * ch), hdr8 x (49 + 4 * ch), hdr8 x (50 + 4 * ch), hdr8 x (51 + 4 * ch))

/-- An output channel: patch, attribution channel, ATTR_OFFSET. -/
def outChan (x : WeCore) (ch : Nat) : Nat × Nat × Nat := (hdr8 x (112 + 4 * ch), hdr8 x (113 + 4 * ch), hdr16 x (114 + 4 * ch))

/-- The output channels bound to a patch. -/
def boundOuts (x : WeCore) : List Nat := (List.range 16).filter (fun k => decide ((outChan x k).1 < 64))

/-- A halfword of X (2), Y (3) or C (4) memory. -/
def memHalf (x : WeCore) (space addr : Nat) : BitVec 16 :=
  tget 0 (if space = 2 then x.x else if space = 3 then x.y else x.c) (addr / 2)

/-- A halfword of X, Y or C memory written. -/
def putHalf (space addr : Nat) (v : BitVec 16) (x : WeCore) : WeCore :=
  if space = 2 then { x with x := tput 0 (addr / 2) v x.x }
  else if space = 3 then { x with y := tput 0 (addr / 2) v x.y }
  else { x with c := tput 0 (addr / 2) v x.c }

/-- A byte address of a space lies in a 32-byte word that is poisoned or uncorrectable (R305). -/
def poisoned (x : WeCore) (space addr : Nat) : Bool :=
  x.poison.contains (space, addr / 32) || x.upset.contains (space, addr / 32)

/-- The errors and the poison of 32-byte words that are wholly written over are gone (R305, R375, log 43). -/
def unpoison (space off len : Nat) (x : WeCore) : WeCore :=
  let kept (p : Nat × Nat) : Bool := decide (p.1 ≠ space ∨ 32 * p.2 < off ∨ off + len < 32 * p.2 + 32)
  { x with poison := x.poison.filter kept, upset := x.upset.filter kept }

/-- The registers of a bank. -/
def bankOf (x : WeCore) (b : Nat) : Regs := if b = 0 then x.bank0 else x.bank1

/-- The registers of a bank changed. -/
def modBank (b : Nat) (f : Regs → Regs) (x : WeCore) : WeCore :=
  if b = 0 then { x with bank0 := f x.bank0 } else { x with bank1 := f x.bank1 }

/-- The register a 6-bit code names: a G register, or the physical V register under ROTB (R306, R307). -/
def regOf (r : Regs) (code : Nat) : Bool × Nat := if code < 48 then (false, (code + r.rotb) % 48) else (true, code - 48)

/-- The value of a register. -/
def regVal (r : Regs) (k : Bool × Nat) : BitVec 32 := if k.1 then tget 0 r.g k.2 else tget 0 r.v k.2

/-- A register written. -/
def putReg (k : Bool × Nat) (v : BitVec 32) (r : Regs) : Regs :=
  if k.1 then { r with g := tput 0 k.2 v r.g } else { r with v := tput 0 k.2 v r.v }

/-- The largest accumulator value of the saturating operations (R314). -/
def accMax : Int := 2 ^ 39 - 1

/-- A value held to the accumulator's limits, and whether it was (R314). -/
def satAcc (v : Int) : Int × Bool := (clampInt (-accMax) accMax v, decide (v < -accMax ∨ accMax < v))

/-- An accumulator written with the saturation of R314; a value that is set, not added to, never needs it. -/
def putAcc (i : Nat) (v : Int) (r : Regs) : Regs :=
  { r with a := tput 0 i (satAcc v).1 r.a, ova := r.ova || (satAcc v).2 }

/-- Two halfwords as a word. -/
def wordOf (lo hi : BitVec 16) : BitVec 32 := hi ++ lo

/-- The low half of a word, signed. -/
def loS (v : BitVec 32) : Int := (v.extractLsb' 0 16).toInt

/-- The high half of a word, signed. -/
def hiS (v : BitVec 32) : Int := (v.extractLsb' 16 16).toInt

/-- Registers and accumulators retire (R316, R326). -/
def retire (x : WeCore) : Flight → WeCore
  | .reg b g i v => modBank b (putReg (g, i) v) x
  | .accAdd b i v => modBank b (fun r => putAcc i (tget 0 r.a i + v) r) x
  | .accSet b i v => modBank b (fun r => { r with a := tput 0 i v r.a }) x
  | _ => x

/-- The words a load brings, from its halfwords. -/
def loadWords (half : Bool) : List (BitVec 16) → List (BitVec 32)
  | a :: b :: rest => wordOf a b :: loadWords half rest
  | [a] => if half then [a.signExtend 32] else []
  | [] => []

/-- The four products of FTAP (R315). -/
def ftapSum (xs ys cs : List (BitVec 16)) : Int :=
  ((xs ++ ys).zip cs).foldl (fun a p => a + p.1.toInt * p.2.toInt) 0

/-- Memory reads of this cycle: what they start, and whether they met poison (R305, R315, R318). -/
def memRead (x : WeCore) : Flight → List (Nat × Flight) × Bool
  | .load sp as b dst half =>
    ((dst.zip (loadWords half (as.map (memHalf x sp)))).map (fun p => (1, Flight.reg b p.1.1 p.1.2 p.2)), as.any (poisoned x sp))
  | .ftap b acc xs ys cs px py set =>
    let hx := xs.map (memHalf x 2)
    let hy := ys.map (memHalf x 3)
    let v := ftapSum hx hy (cs.map (memHalf x 4))
    ([(1, .store 2 [(px + 2, hx.getD 0 0), (px + 4, hx.getD 1 0)]), (1, .store 3 [(py + 2, hy.getD 0 0), (py + 4, hy.getD 1 0)]),
      (2, if set then .accSet b acc v else .accAdd b acc v)],
      xs.any (poisoned x 2) || ys.any (poisoned x 3) || cs.any (poisoned x 4))
  | _ => ([], false)

/-- Memory writes of this cycle, after its reads (R318). -/
def memWrite (x : WeCore) : Flight → WeCore
  | .store sp vs => vs.foldl (fun x v => putHalf sp v.1 v.2 x) x
  | _ => x

/-- One cycle for the operations in flight: results retire in issue order, reads, writes; and whether a read met poison
(R316, R318). -/
def flightCycle (x : WeCore) : WeCore × Bool :=
  let fl := x.flight.map (fun f => (f.1 - 1, f.2))
  let due := (fl.filter (fun f => decide (f.1 = 0))).map (·.2)
  let x := { x with flight := fl.filter (fun f => decide (f.1 ≠ 0)) }
  let x := due.foldl retire x
  let rd := due.map (memRead x)
  let x := due.foldl memWrite x
  ({ x with flight := x.flight ++ (rd.map (·.1)).flatten }, rd.any (·.2))

/-- The time of a core in ns (R299). -/
def coreNs (x : WeCore) : Int := x.base + x.cyc.toNat

/-- Clock cycles are counted: CYC wraps, and the TIMER source pends at a strobe edge whose tick is a multiple of TIMER
(R308, R323). -/
def countCycles (k : Nat) (x : WeCore) : WeCore :=
  let a := coreNs x / 25
  let b := (coreNs x + k) / 25
  let t : Int := x.timer.toNat
  let fires := decide (t ≠ 0) && decide (a / t * t + t ≤ b)
  let v := x.cyc.toNat + k
  { x with
    cyc := BitVec.ofNat 32 v, base := x.base + (v / 2 ^ 32 * 2 ^ 32 : Nat)
    ipend := if fires then x.ipend ||| 1 else x.ipend }

/-- A core statistic increased; saturation raises EV_271 (R344). -/
def weStat (n i k : Nat) (s : State) : State :=
  let r := statBump (coreAt s n).stats (coreAt s n).statSat i k
  raiseIf r.2.2 271 (b1 n) (modCore n (fun x => { x with stats := r.1, statSat := r.2.1 }) s)

/-- What a core's closed kernel records bring to their queue (R334, R353; the UNIT of their losses is log 43). -/
def kernelPut (n : Nat) (t : Stamp) (bytes : List Byte) : Put := {
  src := 21, source := 0x21 + n, kind := 7, tick := t, cal := false, fresh := false, bytes := fun _ => bytes
  unit := 3, amount := bytes.length }

/-- The tick at which a core stands: that of its own cycles, or the present one where that is later (R299, R334). -/
def coreTick (x : WeCore) (s : State) : Stamp := BitVec.ofNat 64 (max s.tc.now.toNat (coreNs x / 25).toNat)

/-- A kernel record of some words, its header first (R334). -/
def kernelBytes (n : Nat) (t : Stamp) (user : Nat) (r : KernelRec) : List Byte :=
  b1 n ++ b1 (bitNat r.trunc + 2 * bitNat r.gap) ++ b2 r.words.length ++ stampBytes t ++ b4 user
    ++ r.words.flatMap (fun w => b4 w.toNat)

/-- The words of an open record leave the record buffer while the queue takes records (R335, log 43). -/
def passWords (n : Nat) (s : State) : State :=
  match (coreAt s n).krec with
  | some r =>
    let t := coreTick (coreAt s n) s
    if (coreAt s n).recQ = [] ∧ !putStalls s (kernelPut n t (kernelBytes n t 0 r)) then
      modCore n (fun x => { x with krec := some { r with taken := r.words.length } }) s
    else s
  | none => s

/-- Kernel records leave the record buffer for the queue while it can take them (R335, R358). -/
def flushRecords (n : Nat) (s : State) : State :=
  passWords n (forAll (coreAt s n).recQ (fun r s =>
    if (coreAt s n).recQ.head? = some r ∧ !putStalls s (kernelPut n r.1 r.2.1) then
      putRecord (kernelPut n r.1 r.2.1) (modCore n (fun x => { x with recQ := x.recQ.drop 1 }) s)
    else s) s)

/-- Words in a core's record buffer: those of closed records that wait, and of the open one (R335). -/
def bufferWords (x : WeCore) : Nat :=
  (x.recQ.map (·.2.2)).foldl (· + ·) 0 + (x.krec.map (fun r => r.words.length - r.taken)).getD 0

/-- The record a kernel appends to or closes. -/
def openRecord (x : WeCore) : KernelRec := x.krec.getD { words := [], trunc := false, gap := false, taken := 0 }

/-- A kernel record closes (R334, R335). -/
def closeRecord (n : Nat) (user : Nat) (trunc : Bool) (s : State) : State :=
  let r := openRecord (coreAt s n)
  let t := coreTick (coreAt s n) s
  let bytes := kernelBytes n t user { r with trunc := r.trunc || trunc }
  let s := modCore n (fun x => { x with krec := none, recQ := x.recQ ++ [(t, bytes, r.words.length - r.taken)] }) s
  flushRecords n (weStat n 5 1 (raiseIf (trunc && !r.trunc) 268 (b1 n) s))

/-- A fault, HALT or WE_STOP closes an open record with TRUNC (R335); its USER is a free value (log 43). -/
def abandonRecord (n : Nat) (s : State) : State :=
  if (coreAt s n).krec.isNone then s
  else
    let (v, s) := drawNat s
    closeRecord n (v % 2 ^ 32) true s

/-- The operations in flight complete (R336). -/
def finishFlights (n : Nat) (s : State) : State :=
  forAll (List.range 4) (fun _ s => modCore n (fun x => (flightCycle x).1) s) s

/-- The units of a core switch to RAW or back, where it feeds them other than before: from the next tick, with EV_210 or
EV_211 for each (R259). -/
def switchUnits (n : Nat) (was : Bool) (s : State) : State :=
  if coreFeeds s n = was then s
  else
    let g := sampleOf (coreTick (coreAt s n) s) + 25
    let s := modCore n (fun x => { x with fedWas := if g ≤ x.switchAt then x.fedWas else was, switchAt := g }) s
    forAll (unitsOf s n) (fun _ s => raise (if was then 210 else 211) [] s) s

/-- The core leaves RUNNING or DEFERRED for a state in which no channel is live (R259, R300). -/
def leaveCore (n : Nat) (st : CoreState) (s : State) : State :=
  switchUnits n (coreFeeds s n) (modCore n (fun x => { x with
    state := st, live := 0, reported := false, lateRun := [], stall := none }) s)

/-- The core comes to report running once every bound output channel is live: EV_260 (R303); `was` says whether it fed its
units before. -/
def coreLive (n : Nat) (was : Bool) (s : State) : State :=
  let x := coreAt s n
  if x.state = .running ∧ !x.reported ∧ (boundOuts x).all (fun k => bit x.live.toNat k) then
    switchUnits n was (raise 260 (b1 n) (modCore n (fun x => { x with reported := true }) s))
  else s

/-- A core faults (R336): what is in flight completes, cause and index are latched. -/
def weFault (n cause : Nat) (s : State) : State :=
  let s := abandonRecord n (leaveCore n .fault (finishFlights n s))
  raise 258 (b1 n) (modCore n (fun x => { x with fault := (cause, x.index) }) s)

/-- Cycles pass for a running core; a read that meets poison faults it (R305). -/
def passCycles (n : Nat) : Nat → State → State
  | 0, s => s
  | k + 1, s =>
    if (coreAt s n).state ≠ .running then s
    else
      let r := flightCycle (countCycles 1 (coreAt s n))
      let s := modCore n (fun _ => r.1) s
      if r.2 then weFault n 3 s else passCycles n k s

/-- Registers at reset values and issue from ENTRY: RUNNING (R301, R306). -/
def startCore (n : Nat) (s : State) : State :=
  let s := modCore n (fun x => { x with
    state := .running, fault := (0, 0), bank0 := {}, bank1 := {}, bank := 0, levels := [], saved := none, index := hdr16 x 8
    ien := 0, ilvl := 0, ipend := 0, base := sampleOf s.tc.now, cyc := 0, recw := 0, recr := 0, hostval := 0
    timer := BitVec.ofNat 32 (hdr32 x 36), cache := none, flight := [], stall := none, fifo := [], popped := [], outs := []
    live := 0, reported := false, entries := [], lateRun := [], krec := none }) s
  coreLive n false (raise 256 (b1 n) s)

/-- A core stops: STOPPED, with EV_257 (R301). -/
def stopCore (n : Nat) (s : State) : State :=
  raise 257 (b1 n) (abandonRecord n (leaveCore n .stopped (finishFlights n s)))

/-- The governor defers a LOW core: GAP is on a record that is open (R334, R341). -/
def deferCore (n : Nat) (s : State) : State :=
  if (coreAt s n).state = .running ∧ isLow (coreAt s n) then
    raise 265 (b1 n) (modCore n (fun x => { x with
      state := .deferred, reported := false, krec := x.krec.map (fun r => { r with gap := true }) }) s)
  else s

/-- A deferred core continues where it stopped, with GAP (R341); it enters RUNNING and reports running (R303, R345). -/
def resumeCore (n : Nat) (s : State) : State :=
  if (coreAt s n).state = .deferred then
    let s := modCore n (fun x => { x with
      state := .running, ipend := x.ipend ||| 32, bank0 := { x.bank0 with gap := true }, bank1 := { x.bank1 with gap := true }
      base := (sampleOf s.tc.now : Int) - x.cyc.toNat }) s
    coreLive n true (raise 256 (b1 n) (raise 266 (b1 n) s))
  else s

/-- The module enters EASY: running and deferred cores are SUSPENDED (R301). -/
def suspendCore (n : Nat) (s : State) : State :=
  match (coreAt s n).state with
  | .running | .deferred => modCore n (fun x => { x with krec := none }) (leaveCore n .suspended s)
  | _ => s

/-- The module enters PADDLE or DRIVE: suspended cores run from ENTRY (R301). -/
def wakeCore (n : Nat) (s : State) : State := if (coreAt s n).state = .suspended then startCore n s else s

/-- The module enters HOLD: cores are OFF and their memories lost (R301). -/
def loseCore (n : Nat) (s : State) : State :=
  switchUnits n (coreFeeds s n) (modCore n (fun x => {
    stats := x.stats, late := x.late, statSat := x.statSat, fedWas := x.fedWas, switchAt := x.switchAt }) s)

/-- A decoded instruction word (R310). -/
structure WeIns where
  /-- immediate form -/
  imm : Bool
  /-- OPC -/
  opc : Nat
  /-- STAGE -/
  stage : Nat
  /-- ACC -/
  acc : Nat
  /-- DST -/
  dst : Nat
  /-- SRC1 -/
  src1 : Nat
  /-- SRC2 -/
  src2 : Nat
  /-- bits [32:0] -/
  low : Nat

/-- The fields of an instruction word (R310). -/
def weDecode (w : BitVec 64) : WeIns :=
  let v := w.toNat
  { imm := bit v 63, opc := field v 62 57, stage := field v 56 53, acc := field v 52 51, dst := field v 50 45
    src1 := field v 44 39, src2 := field v 38 33, low := field v 32 0 }

/-- An OPC that R314 lists. -/
def opcListed (o : Nat) : Bool :=
  decide (o ≤ 0x15 ∨ (0x18 ≤ o ∧ o ≤ 0x1E) ∨ (0x20 ≤ o ∧ o ≤ 0x24) ∨ (0x28 ≤ o ∧ o ≤ 0x2B) ∨ (0x30 ≤ o ∧ o ≤ 0x3A))

/-- A move field (R311). -/
structure WeMove where
  /-- 0 none, 1 X, 2 Y, 3 C -/
  bus : Nat
  /-- store -/
  st : Bool
  /-- pointer -/
  ptr : Nat
  /-- post-modify -/
  post : Nat
  /-- 0 word, 1 halfword, 2 quad -/
  width : Nat
  /-- register code -/
  reg : Nat

/-- The fields of a move (R311). -/
def weMove (v : Nat) : WeMove :=
  { bus := field v 15 14, st := bit v 13, ptr := field v 12 10, post := field v 9 8, width := field v 7 6, reg := field v 5 0 }

/-- The moves of an instruction: none in immediate form (R310). -/
def movesOf (i : WeIns) : List WeMove :=
  if i.imm then [] else [weMove (field i.low 16 1), weMove (field i.low 32 17)].filter (fun m => decide (m.bus ≠ 0))

/-- A move is legal by itself (R311, R313). -/
def moveOk (m : WeMove) : Bool :=
  decide (m.width ≠ 3) && (!m.st || decide (m.bus ≠ 3)) && (decide (m.width ≠ 2) || (decide (m.bus = 3 ∧ m.reg % 2 = 0) && !m.st))

/-- Two moves are legal together (R313). -/
def movesOk : List WeMove → Bool
  | [a, b] => decide (a.ptr ≠ b.ptr) && !(decide (a.bus = b.bus) && decide (a.st = b.st))
  | _ => true

/-- An instruction's form is legal (R310, R311, R313). -/
def formOk (i : WeIns) : Bool :=
  if i.imm then !bit i.low 32 else !bit i.low 0 && (movesOf i).all moveOk && movesOk (movesOf i)

/-- Bytes of a width. -/
def widthSize (w : Nat) : Nat := if w = 0 then 4 else if w = 1 then 2 else 8

/-- The halfword addresses of an access of `k` halfwords at a pointer (R312): they wrap at the end of a circular buffer. -/
def accessAddrs (r : Regs) (p : Nat) : Nat → Nat → List Nat
  | 0, _ => []
  | k + 1, a =>
    let b := (tget 0 r.b p).toNat
    let l := (tget 0 r.l p).toNat
    let next := a + 2
    a :: accessAddrs r p k (if l ≠ 0 ∧ next = b + l then b else next)

/-- A pointer after its post-modify by a step (R312). -/
def postPointer (r : Regs) (p : Nat) (step : Int) : BitVec 16 :=
  let v : Int := (tget 0 r.p p).toNat
  let b : Int := (tget 0 r.b p).toNat
  let l : Int := (tget 0 r.l p).toNat
  BitVec.ofInt 16 (if l = 0 then v + step else b + (v - b + step) % l)

/-- The step of a post-modify code (R311). -/
def postStep (r : Regs) (m : WeMove) : Option Int :=
  match m.post with
  | 0 => none
  | 1 => some (tget 0 r.m m.ptr).toInt
  | 2 => some (widthSize m.width)
  | _ => some (-(widthSize m.width : Int))

/-- A move's halfword addresses. -/
def moveAddrs (r : Regs) (m : WeMove) : List Nat :=
  accessAddrs r m.ptr (widthSize m.width / 2) (tget 0 r.p m.ptr).toNat

/-- A list of addresses lies in a memory: even, inside, a quad aligned (R312, R313). -/
def addrsOk (space : Nat) (quad : Bool) (as : List Nat) : Bool :=
  as.all (fun a => decide (a % 2 = 0 ∧ a < (if space = 4 then 0x8000 else 0x10000))) && (!quad || decide (as.headD 0 % 8 = 0))

/-- A move's addresses are good. -/
def moveRange (r : Regs) (m : WeMove) : Bool := addrsOk (m.bus + 1) (decide (m.width = 2)) (moveAddrs r m)

/-- The values a pending result may already have replaced are chosen freely, one Boolean for each (R317). -/
def pickPending {α : Type} (new : List (α → α)) (v : α) (s : State) : α × State :=
  new.foldl (fun a f => let d := drawBool a.2; (if d.1 then f a.1 else a.1, d.2)) (v, s)

/-- A register read at issue: while a result for it is in flight, the old value or the new one (R316, R317). -/
def readReg (n code : Nat) (s : State) : BitVec 32 × State :=
  let x := coreAt s n
  let r := bankOf x x.bank
  let k := regOf r code
  pickPending (x.flight.filterMap (fun f => match f.2 with
    | .reg b g i v => if b = x.bank ∧ (g, i) = k then some (fun _ => v) else none
    | _ => none)) (regVal r k) s

/-- An accumulator read at issue: old or new while a result is in flight (R317). -/
def readAcc (n acc : Nat) (s : State) : Int × State :=
  let x := coreAt s n
  pickPending (x.flight.filterMap (fun f => match f.2 with
    | .accAdd b i v => if b = x.bank ∧ i = acc then some (fun a => (satAcc (a + v)).1) else none
    | .accSet b i v => if b = x.bank ∧ i = acc then some (fun _ => v) else none
    | _ => none)) (tget 0 (bankOf x x.bank).a acc) s

/-- Operand b: the register SRC2, or IMM (R310). -/
def readB (n : Nat) (i : WeIns) (s : State) : BitVec 32 × State :=
  if i.imm then (BitVec.ofNat 32 i.low, s) else readReg n i.src2 s

/-- An operation goes into flight. -/
def launch (n left : Nat) (f : Flight) (s : State) : State := modCore n (fun x => { x with flight := x.flight ++ [(left, f)] }) s

/-- A result of a latency goes into flight for the register DST, resolved now (R307, R316). -/
def launchReg (n lat : Nat) (code : Nat) (v : BitVec 32) (s : State) : State :=
  let x := coreAt s n
  let k := regOf (bankOf x x.bank) code
  launch n lat (.reg x.bank k.1 k.2 v) s

/-- SAT is set in the bank in use (R309). -/
def setSat (c : Bool) (n : Nat) (s : State) : State :=
  if c then modCore n (fun x => modBank x.bank (fun r => { r with sat := true }) x) s else s

/-- One move goes into flight: a load reads and a store writes in the next cycle (R318). -/
def launchMove (n : Nat) (s : State) (m : WeMove) : State :=
  let x := coreAt s n
  let r := bankOf x x.bank
  let as := moveAddrs r m
  if m.st then
    let (v, s) := readReg n m.reg s
    let hs := if m.width = 1 then [v.extractLsb' 0 16] else [v.extractLsb' 0 16, v.extractLsb' 16 16]
    launch n 1 (.store (m.bus + 1) (as.zip hs)) s
  else
    let dst := if m.width = 2 then [regOf r m.reg, regOf r (m.reg + 1)] else [regOf r m.reg]
    launch n 1 (.load (m.bus + 1) as x.bank dst (decide (m.width = 1))) s

/-- The pointer of a move after its post-modify. -/
def postMove (x : WeCore) (m : WeMove) : WeCore :=
  modBank x.bank (fun r => match postStep r m with
    | some d => { r with p := tput 0 m.ptr (postPointer r m.ptr d) r.p }
    | none => r) x

/-- What an instruction does once issued. -/
inductive WeAct where
  /-- go on after an index; the function acts after the moves -/
  | go (last : Nat) (late : WeCore → WeCore) (s : State)
  /-- a taken branch to an index -/
  | jump (target : Nat) (s : State)
  /-- it faults -/
  | fault (cause : Nat) (s : State)
  /-- it stalls and issues nothing -/
  | stall (k : Stall) (s : State)
  /-- after the moves it sets the index itself; cycles it takes -/
  | done (cycles : Nat) (f : State → State) (s : State)

/-- The stage predicates of a pass: those beyond its stages stay (R321). -/
def passSq (old : BitVec 16) (n stages p : Nat) : BitVec 16 :=
  BitVec.ofNat 16 (maskOf 16 (fun k => if k < stages then decide (k ≤ p ∧ (n = 0 ∨ p - k < n)) else bit old.toNat k))

/-- The cost of a back-edge, and the loop cache after it (R320). -/
def backEdge (x : WeCore) (l : LoopFrame) : WeCore × Nat :=
  if x.cache = some (l.start, l.len) then (x, 0)
  else (if l.len ≤ 32 then { x with cache := some (l.start, l.len) } else x, 2)

/-- The index after the one just passed, with the loops that end or go round there, and the cycles that costs (R319 to
R321). -/
def afterIndex : Nat → WeCore → Nat → WeCore × Nat × Nat
  | 0, x, last => (x, last + 1, 0)
  | d + 1, x, last =>
    match (bankOf x x.bank).loops with
    | [] => (x, last + 1, 0)
    | l :: ls =>
      if last + 1 ≠ l.start + l.len then (x, last + 1, 0)
      else if l.pipelined then
        let go := decide (l.count = 0 ∨ l.pass + 1 < l.count + l.stages - 1)
        let x := modBank x.bank (fun r => { r with
          rotb := (r.rotb + 47) % 48, sq := if go then passSq r.sq l.count l.stages (l.pass + 1) else 1
          loops := if go then { l with pass := l.pass + 1 } :: ls else ls }) x
        if go then
          let b := backEdge x l
          (b.1, l.start, b.2)
        else afterIndex d x last
      else if l.count = 0 then afterIndex d (modBank x.bank (fun r => { r with loops := ls }) x) last
      else
        let b := backEdge (modBank x.bank (fun r => { r with loops := { l with count := l.count - 1 } :: ls }) x) l
        (b.1, l.start, b.2)

/-- The core goes on after an index, taking one cycle and what a back-edge costs. -/
def goOn (n last : Nat) (s : State) : State :=
  let r := afterIndex 5 (coreAt s n) last
  passCycles n (1 + r.2.2) (modCore n (fun _ => { r.1 with index := r.2.1 % 8192 }) s)

/-- A target lies in the body of the innermost loop, if there is one (R319). -/
def inBody (x : WeCore) (target : Nat) : Bool :=
  match (bankOf x x.bank).loops with
  | l :: _ => decide (l.start ≤ target ∧ target < l.start + l.len)
  | [] => true

/-- The innermost loop is a PLOOP (R319). -/
def inPloop (x : WeCore) : Bool :=
  match (bankOf x x.bank).loops with
  | l :: _ => l.pipelined
  | [] => false

/-- What an instruction does to its core once its moves are in flight (R313, R316). -/
def settleAct (n : Nat) (ms : List WeMove) : WeAct → State
  | .go last late s => goOn n last (modCore n (fun x => late (ms.foldl postMove x)) s)
  | .jump t s => passCycles n 3 (modCore n (fun x => { ms.foldl postMove x with index := t % 8192 }) s)
  | .done k f s => passCycles n k (f (modCore n (fun x => ms.foldl postMove x) s))
  | .fault c s => weFault n c s
  | .stall k s => modCore n (fun x => { x with stall := some k }) s

/-- A core issues the instruction at its index (R310 to R316, R321): the fetch; an OPC that is not listed; the stage
predicate; the form; the addresses of its moves; then its moves go into flight and it does what it does. One that stalls
or faults has no move. `s` is the state with the core no longer stalled. -/
def issueNow (n opc : Nat) (legal : WeCore → WeIns → Bool) (act : WeIns → State → WeAct) (s : State) : State :=
  let x := coreAt s n
  let i := weDecode (tget 0 x.p x.index)
  let on := bit (bankOf x x.bank).sq.toNat i.stage
  if poisoned x 1 (8 * x.index) then weFault n 3 s
  else if opcListed i.opc ∧ i.opc ≠ opc then s
  else
    let s' := weStat n 0 1 s
    if !on then goOn n x.index s'
    else if !opcListed i.opc || !formOk i || !legal x i then weFault n 1 s'
    else if !(movesOf i).all (moveRange (bankOf x x.bank)) then weFault n 2 s'
    else match act i ((movesOf i).foldl (launchMove n) s') with
      | .stall k _ => modCore n (fun x => { x with stall := some k }) s
      | .fault c t => weFault n c { s' with freeCtr := t.freeCtr }
      | a => settleAct n (movesOf i) a

/-- A WE instruction row: the running core, not stalled, issues the instruction at its index if it is this one. -/
def issue (n opc : Nat) (legal : WeCore → WeIns → Bool) (act : WeIns → State → WeAct) (s : State) : Out :=
  event (decide ((coreAt s n).state = .running ∧ (coreAt s n).stall = none) && busyState s) (issueNow n opc legal act) s

/-- Go on after the present index with nothing more to do. -/
def goAct (n : Nat) (s : State) : WeAct := .go (coreAt s n).index id s

/-- A taken branch: out of the body of a loop it faults ILLEGAL (R319). -/
def branchAct (n target : Nat) (s : State) : WeAct := if inBody (coreAt s n) target then .jump target s else .fault 1 s

/-- No further condition on the form. -/
def anyForm (_ : WeCore) (_ : WeIns) : Bool := true

/-- An operation on a and b with a result of a latency, and whether it saturated. -/
def binary (n lat : Nat) (f : BitVec 32 → BitVec 32 → BitVec 32 × Bool) (i : WeIns) (s : State) : WeAct :=
  let (a, s) := readReg n i.src1 s
  let (b, s) := readB n i s
  let r := f a b
  goAct n (setSat r.2 n (launchReg n lat i.dst r.1 s))

/-- A number held to 16 bits, and whether it was. -/
def sat16 (v : Int) : Int × Bool := (clampInt (-32768) 32767 v, decide (v < -32768 ∨ 32767 < v))

/-- A number held to 32 bits, and whether it was. -/
def satW (v : Int) : BitVec 32 × Bool := (BitVec.ofInt 32 (sat32 v), decide (v ≠ sat32 v))

/-- Two halves, each with its saturation, as a word. -/
def halves (lo hi : Int × Bool) : BitVec 32 × Bool :=
  (wordOf (BitVec.ofInt 16 lo.1) (BitVec.ofInt 16 hi.1), lo.2 || hi.2)

/-- The dual product of MAC, MSU and MAC0. -/
def dualProduct (a b : BitVec 32) : Int := loS a * loS b + hiS a * hiS b

/-- A multiply-accumulate: the product goes to the accumulator three cycles later (R314, R318). -/
def macAct (n : Nat) (f : Nat → Nat → Int → Flight) (i : WeIns) (s : State) : WeAct :=
  let (a, s) := readReg n i.src1 s
  let (b, s) := readB n i s
  goAct n (launch n 3 (f (coreAt s n).bank i.acc (dualProduct a b)) s)

/-- The accumulator shifted right with rounding (R314). -/
def roundShift (a : Int) (sh : Nat) : Int := if sh = 0 then a else (a + 2 ^ (sh - 1)) / 2 ^ sh

/-- An accumulator set one cycle later, as 40 bits. -/
def setAccAct (n acc : Nat) (v : Int) (s : State) : WeAct :=
  goAct n (launch n 1 (.accSet (coreAt s n).bank acc (signed 40 (unsigned 40 v))) s)

/-- FTAP is in move form with both moves zero (R315). -/
def ftapForm (_ : WeCore) (i : WeIns) : Bool := !i.imm && decide (i.low = 0)

/-- FTAP and FTAP0 (R315). -/
def ftapAct (set : Bool) (n : Nat) (i : WeIns) (s : State) : WeAct :=
  let x := coreAt s n
  let r := bankOf x x.bank
  let px := i.dst % 8
  let py := i.src1 % 8
  let pc := i.src2 % 8
  let at_ (p : Nat) := (tget 0 r.p p).toNat
  let xs := accessAddrs r px 2 (at_ px)
  let ys := accessAddrs r py 2 (at_ py)
  let cs := accessAddrs r pc 4 (at_ pc)
  if !addrsOk 2 false (xs ++ [at_ px + 4]) || !addrsOk 3 false (ys ++ [at_ py + 4]) || !addrsOk 4 true cs then .fault 2 s
  else
    let post (x : WeCore) : WeCore := modBank x.bank (fun r => { r with
      p := [px, py, pc].eraseDups.foldl (fun t p => tput 0 p (postPointer r p (tget 0 r.m p).toInt) t) r.p }) x
    .go x.index post (launch n 1 (.ftap x.bank i.acc xs ys cs (at_ px) (at_ py) set) s)

/-- IPEND: the edge sources that pend and the level sources whose condition holds (R323). -/
def ipendOf (x : WeCore) : BitVec 8 :=
  x.ipend ||| BitVec.ofNat 8 (2 * bitNat (decide (x.recw ≠ x.recr))
    + 8 * bitNat ((List.range 16).any (fun c => decide (32 ≤ (tget [] x.fifo c).length)))
    + 16 * bitNat (decide (bufferWords x ≤ 256)))

/-- The level a core is at: 0, 1 or 2 (R309). -/
def weLevel (x : WeCore) : Nat := (x.levels.head?.map (·.1)).getD 0

/-- LC: iterations not yet started in the innermost loop (R308). -/
def loopCount (r : Regs) : Nat :=
  match r.loops with
  | l :: _ => if l.pipelined then l.count - (l.pass + 1) else l.count
  | [] => 0

/-- A special register read; reserved codes return zero (R308). -/
def specialRead (x : WeCore) (code : Nat) : BitVec 32 :=
  let r := bankOf x x.bank
  if code < 8 then (tget 0 r.p code).setWidth 32
  else if code < 16 then (tget 0 r.m (code - 8)).signExtend 32
  else if code < 24 then (tget 0 r.b (code - 16)).setWidth 32
  else if code < 32 then (tget 0 r.l (code - 24)).setWidth 32
  else match code with
    | 32 => BitVec.ofNat 32 r.rotb
    | 33 => r.sq.setWidth 32
    | 34 => BitVec.ofNat 32 (loopCount r)
    | 35 => BitVec.ofNat 32 (128 * x.bank + 32 * weLevel x + 4 * bitNat r.gap + 2 * bitNat r.ova + bitNat r.sat)
    | 36 => x.ien.setWidth 32
    | 37 => x.ilvl.setWidth 32
    | 38 => (ipendOf x).setWidth 32
    | 39 => BitVec.ofNat 32 ((x.levels.head?.map (·.2)).getD 0)
    | 40 => x.cyc
    | 41 => x.recw.setWidth 32
    | 42 => x.recr.setWidth 32
    | 43 => x.hostval
    | 44 => x.timer
    | _ => 0

/-- A special register written (R308, R309); `rot` stands for a ROTB value beyond 47, which the spec leaves open. -/
def specialWrite (code : Nat) (v : BitVec 32) (rot : Nat) (x : WeCore) : WeCore :=
  let h := v.setWidth 16
  let clear (c : Bool) (i : Nat) : Bool := c && !bit v.toNat i
  if code < 8 then modBank x.bank (fun r => { r with p := tput 0 code h r.p }) x
  else if code < 16 then modBank x.bank (fun r => { r with m := tput 0 (code - 8) h r.m }) x
  else if code < 24 then modBank x.bank (fun r => { r with b := tput 0 (code - 16) h r.b }) x
  else if code < 32 then modBank x.bank (fun r => { r with l := tput 0 (code - 24) (h &&& 0xFFFE) r.l }) x
  else match code with
    | 32 => modBank x.bank (fun r => { r with rotb := if v.toNat < 48 then v.toNat else rot % 48 }) x
    | 33 => modBank x.bank (fun r => { r with sq := h }) x
    | 35 => modBank x.bank (fun r => { r with gap := clear r.gap 2, ova := clear r.ova 1, sat := clear r.sat 0 }) x
    | 36 => { x with ien := v.setWidth 8 }
    | 37 => { x with ilvl := v.setWidth 8 }
    | 38 => { x with ipend := x.ipend &&& ~~~(v.setWidth 8) }
    | 42 => { x with recr := h }
    | 44 => { x with timer := v }
    | _ => x

/-- MOVS is legal: no reserved code, and neither ROTB nor SQ in a PLOOP body (R308). -/
def movsForm (x : WeCore) (i : WeIns) : Bool := decide (i.dst < 45) && !(inPloop x && decide (i.dst = 32 ∨ i.dst = 33))

/-- Control flow outside a PLOOP body in immediate form (R314, R319). -/
def branchForm (x : WeCore) (i : WeIns) : Bool := i.imm && !inPloop x

/-- The next sample of an input channel is popped, once it is ready (R314, R328, R330). -/
def popInput (n ch : Nat) (s : State) : Option (Int × State) :=
  match tget [] (coreAt s n).fifo ch with
  | (v, tag, ready) :: rest =>
    if coreNs (coreAt s n) < ready then none
    else some (v, modCore n (fun x => { x with
      fifo := tput [] ch rest x.fifo, popped := tput none ch (some tag) x.popped }) s)
  | [] => none

/-- IN (R314). -/
def inAct (n : Nat) (i : WeIns) (s : State) : WeAct :=
  match popInput n (i.src1 % 16) s with
  | some (v, s) => goAct n (launchReg n 2 i.dst (BitVec.ofInt 32 v) s)
  | none => .stall .input s

/-- Outputs of a channel that wait in its buffer: their index has not been evaluated yet (R331, R332). -/
def bufferedOuts (x : WeCore) (ch : Nat) : List (Nat × Int) :=
  (tget [] x.outs ch).filter (fun o => decide (coreNs x < o.1 + 30 + weLatency x))

/-- An output is late (R332). -/
def outLate (x : WeCore) (ch a : Nat) : Bool :=
  let d := 2 ^ (inChan x (outChan x ch).2.1).2.1
  let deadline : Int := (a : Int) - (d - 1 : Nat) + 30 + weLatency x
  decide (deadline < coreNs x + 1) || (match tget [] x.outs ch with
    | o :: _ => decide (a ≤ o.1)
    | [] => false)

/-- The expanded stream holds its last value at the index of an output that came too late (R332, log 43). -/
def holdLast (a : Nat) (os : List (Nat × Int)) : List (Nat × Int) :=
  match os with
  | o :: _ => if o.1 < a then (a, o.2) :: os else os
  | [] => []

/-- A late output is discarded and counted; 64 in a row fault the core (R332). -/
def lateOutput (n ch a : Nat) (s : State) : State :=
  let x := coreAt s n
  let v := statAdd (tget 0 x.late ch) 1
  let new := decide (v = stat32) && !bit x.statSat (6 + ch)
  let s := raiseIf new 271 (b1 n) (modCore n (fun x => { x with
    late := tput 0 ch v x.late, statSat := if new then x.statSat + 2 ^ (6 + ch) else x.statSat
    lateRun := tmod 0 ch (· + 1) x.lateRun, outs := tmod [] ch (holdLast a) x.outs }) s)
  let due := match x.lateEv with
    | some t => decide (t + ms 1 ≤ s.up)
    | none => true
  let s := if due then raise 259 (b1 n) (modCore n (fun x => { x with lateEv := some s.up }) s) else s
  if 64 ≤ tget 0 (coreAt s n).lateRun ch then weFault n 5 s else s

/-- An output sample reaches the fabric (R330, R332): attributed, late or taken; the first makes its channel live. -/
def pushOutput (n ch : Nat) (v : Int) (s : State) : State :=
  let x := coreAt s n
  let c := outChan x ch
  if 64 ≤ c.1 then s
  else
    let (a, s) := match tget none x.popped c.2.1 with
      | some tag => (tag - c.2.2, s)
      | none => drawNat s
    if bit x.live.toNat ch && outLate x ch a then evalCore n (lateOutput n ch a s)
    else
      let s := modCore n (fun x => { x with
        outs := tput [] ch ((a, v) :: tget [] x.outs ch) x.outs, live := x.live ||| BitVec.ofNat 16 (2 ^ ch)
        lateRun := tput 0 ch 0 x.lateRun }) s
      evalCore n (coreLive n (coreFeeds s n) s)

/-- OUT (R314, R332). -/
def outAct (n : Nat) (i : WeIns) (s : State) : WeAct :=
  let ch := i.dst % 16
  if 64 ≤ (bufferedOuts (coreAt s n) ch).length then .stall .output s
  else
    let (b, s) := readB n i s
    goAct n (pushOutput n ch (loS b) s)

/-- QPUT (R314, R335): words past 2,044 are discarded, with TRUNC and EV_268. -/
def qputAct (n : Nat) (i : WeIns) (s : State) : WeAct :=
  let s := flushRecords n s
  if 512 ≤ bufferWords (coreAt s n) then .stall .qput s
  else
    let (b, s) := readB n i s
    let r := openRecord (coreAt s n)
    if r.words.length < 2044 then
      goAct n (modCore n (fun x => { x with krec := some { r with words := r.words ++ [b] } }) s)
    else
      let s := modCore n (fun x => { x with krec := some { r with trunc := true } }) s
      goAct n (if r.trunc then s else raise 268 (b1 n) s)

/-- A stall ends: the cycles it held the pipeline are counted, and the instruction is issued (R316). -/
def endStall (n : Nat) (ns : Int) (s : State) : State :=
  let x := coreAt s n
  let k := (ns - coreNs x).toNat
  weStat n 1 k (modCore n (fun x => { countCycles k x with stall := none }) s)

/-- The lowest enabled pending source of a level: 1, or 2 (R324). -/
def irqSource (x : WeCore) (level : Nat) : Option Nat :=
  (List.range 6).find? (fun k =>
    bit (ipendOf x &&& x.ien).toNat k && decide (bit x.ilvl.toNat k = decide (level = 1)))

/-- A stalled core's cycles are counted up to the present tick (R299, R308). -/
def coreToNow (n : Nat) (s : State) : State :=
  let x := coreAt s n
  let k := ((sampleOf s.tc.now : Int) - coreNs x).toNat
  match x.stall with
  | none => s
  | some .wait => modCore n (countCycles k) s
  | some _ => weStat n 1 k (modCore n (countCycles k) s)

/-- The time comes at which an interrupt of a level can be taken by a stalled core: now, or at the next tick of TIMER
(R323, R324, log 24). -/
def irqReach (n level : Nat) (s : State) : State :=
  let s := flushRecords n (coreToNow n s)
  let x := coreAt s n
  let t := x.timer.toNat
  if (irqSource x level).isNone ∧ x.stall.isSome ∧ t ≠ 0 ∧ bit x.ien.toNat 0 ∧ bit x.ilvl.toNat 0 = decide (level = 1) then
    coreToNow n (reachTick (BitVec.ofNat 64 ((s.tc.now.toNat / t + 1) * t)) s)
  else s

/-- Bytes of a ring entry (R333). -/
def entrySize (x : WeCore) : Nat := 32 * divUp (64 + 2 * hdr16 x 32) 32

/-- The samples of a ring entry, with POL: those older than the history read 0 (R333). -/
def entrySamples (e : RingEntry) (s : State) : List Byte × State :=
  (List.range e.count).foldl (fun (a : List Byte × State) k =>
    if k < e.lost then (a.1 ++ b2 0, a.2)
    else match histSample a.2 e.patch (e.start + k) with
      | some v => (a.1 ++ b2 (unsigned 16 (if e.neg then min 32767 (-v) else v)), a.2)
      | none => let d := drawNat a.2; (a.1 ++ b2 (unsigned 16 (signed 10 (d.1 % 1024))), d.2)) ([], s)

/-- Bytes written to Y memory, an even number of them. -/
def putY (base : Nat) (bs : List Byte) (x : WeCore) : WeCore :=
  (List.range (bs.length / 2)).foldl (fun x k => putHalf 3 (base + 2 * k) (BitVec.ofNat 16 (u16At bs (2 * k))) x)
    (unpoison 3 base bs.length x)

/-- An entry's samples have all come in. -/
def entryReady (s : State) (e : RingEntry) : Bool := decide (e.count = 0 ∨ e.start + e.count ≤ (histAt s e.patch).newest + 1)

/-- The ring entries of a running core whose samples have come in are complete, in order, and RECW counts them (R333). -/
def completeEntries (n : Nat) (s : State) : State :=
  forAll ((coreAt s n).entries.takeWhile (entryReady s)) (fun e s =>
    if (coreAt s n).state ≠ .running then s
    else
      let r := entrySamples e s
      weStat n 3 1 (modCore n (fun x => { putY e.base (e.head ++ r.1) x with
        entries := x.entries.drop 1, recw := x.recw + 1 }) r.2)) s

/-- A trigger record goes to the Y rings of the cores that ask for its units (R333, R341). -/
def deliverRecord (f : Fire) (bytes : List Byte) (s : State) : State :=
  forAll (List.range 4) (fun n s =>
    let x := coreAt s n
    let wanted := decide (hdr16 x 26 &&& f.units ≠ 0)
    let drop := when wanted (fun s => raise 267 (b1 n) (weStat n 4 1 s))
    let slot := x.recw.toNat + x.entries.length
    if x.state = .deferred then drop s
    else if x.state ≠ .running ∨ !wanted then s
    else if hdr16 x 30 ≤ (x.recw - x.recr).toNat + x.entries.length then drop s
    else
      let patch := if f.patch = 0xFF then (cfPatches f.conf).headD 0 else f.patch
      let start := f.g - hdr16 x 34
      let lost := min (hdr16 x 32) (histOldest s patch - start)
      let e : RingEntry := {
        head := bytes ++ b2 (hdr16 x 32) ++ b1 (bitNat (decide (0 < lost))) ++ List.replicate 13 0
        base := hdr16 x 28 + slot % hdr16 x 30 * entrySize x, patch := patch, neg := cfNeg f.conf
        start := start, count := hdr16 x 32, lost := lost }
      completeEntries n (modCore n (fun x => { x with entries := x.entries ++ [e] }) s)) s

/-- The reason `WE_LOAD_END` rejects a kernel, checked in order; 0 where it is accepted (R339). -/
def rejectReason (x : WeCore) : Nat :=
  let len (i : Nat) := hdr16 x i
  let fits (i size : Nat) : Bool := decide (len i = 0 ∨ len (i + 2) + len i ≤ size)
  let ins := (List.range 16).filter (fun c => decide ((inChan x c).2.2.2 = 1))
  let outs := (List.range 16).filter (fun c => decide ((outChan x c).1 ≠ 0xFF))
  let patches := outs.map (fun c => (outChan x c).1)
  let ring := hdr16 x 30 * entrySize x
  let base := hdr16 x 28
  if hdr32 x 0 ≠ 0x4B475054 ∨ hdr16 x 4 ≠ 1 then 1
  else if hdr16 x 12 ≤ hdr16 x 8 ∨ hdr16 x 12 = 0 ∨ 8184 < hdr16 x 12 ∨ !fits 14 0x10000 ∨ !fits 18 0x10000 ∨ !fits 22 0x8000 then 2
  else if !ins.all (fun c => decide ((inChan x c).1 < 64 ∧ (inChan x c).2.1 ≤ 4 ∧ (inChan x c).2.2.1 ≤ 1))
    ∨ !outs.all (fun c => decide ((outChan x c).1 < 64) && ins.contains (outChan x c).2.1)
    ∨ patches.eraseDups.length ≠ patches.length then 3
  else if 16000 < (ins.map (fun c => 16000 / 2 ^ (inChan x c).2.1)).foldl (· + ·) 0 then 4
  else if hdr8 x 6 = 1 ∧ outs ≠ [] then 5
  else if 0 < ring ∧ (0x10000 < base + ring ∨ (0 < len 18 ∧ base < len 20 + len 18 ∧ len 20 < base + ring)) then 6
  else 0

end Sys2Proof.Machine
end

