-- ==== Sys2Proof/Machine/Trigger.lean ====
section
/-! DEFINITION. The trigger and acquisition commands (chapter 06): converters, fires, trigger and waveform records, the
arming domain, the TRIG pair and the calls. -/
namespace Sys2Proof.Machine

/-- A slice's coefficients move towards what is called for, by at most 0.05 ps and 0.005 % (R254). -/
def stepSlice (u : AdcUpdate) (c : Int × Int × Int) : Int × Int × Int :=
  (u.offset, c.2.1 + clampInt (-50) 50 (u.gain - c.2.1), c.2.2 + clampInt (-5) 5 (u.skew - c.2.2))

/-- A correction beyond ±16 codes, ±3 % or ±20 ps (R255). -/
def beyondLimits (u : AdcUpdate) : Bool := decide (1600 < u.offset.natAbs ∨ 30000 < u.gain.natAbs ∨ 2000 < u.skew.natAbs)

/-- The residuals found lie within the limits of R257: 0.5 code, 0.05 % and 0.5 ps. -/
def withinLimits (u : AdcUpdate) : Bool :=
  decide (u.residual.1.natAbs ≤ 50 ∧ u.residual.2.1.natAbs ≤ 500 ∧ u.residual.2.2.natAbs ≤ 50)

/-- A converter takes a set of updates of its slices (R254, R255). -/
def updateAdc (p : Nat) (us : List AdcUpdate) (s : State) : State :=
  match (adcAt s p).state with
  | .converging | .converged =>
    if us.any beyondLimits then raise 209 [] (modAdc p (fun a => { a with state := .fault }) s)
    else modAdc p (fun a => { a with
      slices := us.foldl (fun t u => tmod (0, 0, 0) u.slice (stepSlice u) t) a.slices
      state := if us ≠ [] ∧ us.all withinLimits then .converged else a.state }) s
  | _ => s

/-- The converters' background correction, 1 ms after the last or after PD_31 powered up (R254, R255). -/
def execAdcCalUpdate (upd : List AdcUpdate) (s : State) : Out :=
  event (busyState s) (fun s =>
    let s := reachUp (s.tr.calAt + ms 1) s
    let s := onTr (fun x => { x with calAt := s.up }) s
    let s := forAll (List.range 64) (fun p => updateAdc p (upd.filter (fun u => decide (u.patch = p ∧ u.slice < 4)))) s
    if !s.tr.allConverged && (List.range 64).all (fun p => decide ((adcAt s p).state = .converged)) then
      raise 208 [] (onTr (fun x => { x with allConverged := true }) s)
    else s) s

/-- A converter has not converged 200 ms after PD_31 powered up (R255). -/
def execAdcConvergeTimeout (patch : Nat) (s : State) : Out :=
  event (busyState s && decide (patch < 64 ∧ (adcAt s patch).state = .converging)) (fun s =>
    raise 209 [] (modAdc patch (fun a => { a with state := .fault }) (reachUp (s.tr.poweredAt + ms 200) s))) s

/-- A sample of every patch is taken, and the units on RAW evaluate it; one that is held already stays (R253, R258 to R268). -/
def takeSample (xs : List PatchIn) (g i : Nat) (s : State) : State :=
  if (histAt s 0).samples ≠ [] ∧ i ≤ (histAt s 0).newest then s
  else evalRaw i (forAll (List.range 64) (fun p s => recordSample i p (convertSample s xs g i p) s) s)

/-- How many samples what reaches the converters spans. -/
def spanOf (xs : List PatchIn) : Nat :=
  (xs.flatMap (fun x => x.noise.length :: x.pixels.map (fun q => q.2.length))).foldl max 0

/-- Samples up to index `g` come in: the patch sums are converted, and the units on RAW evaluate them in order; what a Y ring
waits for goes into it (R250 to R253, R258 to R268, R333). -/
def execTriggerFire (g : Nat) (xs : List PatchIn) (s : State) : Out :=
  event (busyState s && s.tc.strobe) (fun s =>
    let n := min (spanOf xs) (g + 1)
    let s := forAll (List.range n) (fun k => takeSample xs g (g + 1 - n + k)) (reachTick (tickOfSample g) s)
    forAll (List.range 4) completeEntries s) s

/-- A unit's streams have all passed a sample. -/
def unitPast (s : State) (u g : Nat) : Bool :=
  (unitAt s u).streams.all (fun t => !t.2.started || decide (g ≤ t.2.index))

/-- The oldest hold-off of a unit ends, once the unit has evaluated its samples: LATENCY later on a core (R268, R331). -/
def execHoldoffEnd (unit : Fin 16) (s : State) : Out :=
  match (unitAt s unit.val).holds with
  | [] => .next s
  | h :: rest => event (busyState s && unitPast s unit.val h.2) (fun s =>
      modUnit unit.val (fun x => { x with holds := rest })
        (reachTick (tickOfSample (h.2 + 1 + unitLatency s unit.val h.2)) s)) s

/-- The tick of the oldest soft fire comes (R277). -/
def execSoftFireTick (s : State) : Out :=
  match s.tr.soft with
  | [] => .next s
  | (_, t) :: _ => event (busyState s) (fun s =>
      let mask := (s.tr.soft.filter (fun f => decide (f.2 = t))).foldl (fun a f => a ||| f.1) 0
      let s := reachTick t (onTr (fun x => { x with soft := x.soft.filter (fun f => decide (f.2 ≠ t)) }) s)
      fireNamed (sampleOf t) 0 1024 ((maskList 16 mask).filter (fun u => cfEnable (unitConf s u))) s) s

/-- A record measures on RAW samples. -/
def measRaw (f : Fire) : Bool := f.raw || decide (cfSource f.conf = 0 ∨ cfSource f.conf = 5)

/-- The samples of a patch up to an index that are held, with the index of the first (R273). -/
def heldSamples (s : State) (p end_ : Nat) : Nat × List Int :=
  let h := histAt s p
  let xs := h.samples.drop (h.newest - end_)
  (h.newest + 1 - h.samples.length, xs.reverse)

/-- The expanded stream of a patch from a core up to an index, with the index of the first (R331); a patch that is not bound
presents 0 from `lo` (R330). -/
def heldStream (x : WeCore) (p lo end_ : Nat) : Nat × List Int :=
  match outChannel x p with
  | none => (lo, List.replicate (end_ + 1 - lo) 0)
  | some k =>
    let os := tget [] x.outs k
    let a := (os.getLast?.map (·.1)).getD 0
    let b := min end_ ((os.headD (0, 0)).1)
    (a, if os = [] then [] else (List.range (b + 1 - a)).filterMap (fun i => expanded os (a + i)))

/-- The sum of series of samples where all of them have one (R260). -/
def sumSeries (ls : List (Nat × List Int)) : Nat × List Int :=
  let lo := (ls.map (·.1)).foldl max 0
  let hi := (ls.map (fun l => l.1 + l.2.length)).foldl min ((ls.map (fun l => l.1 + l.2.length)).headD 0)
  (lo, (List.range (hi - lo)).map (fun k =>
    clampInt (-32768) 32767 ((ls.map (fun l => l.2.getD (lo + k - l.1) 0)).foldl (· + ·) 0)))

/-- The samples of a record's measured input up to an index, with POL, and the index of the first: the history or what its
core delivered (R258, R260, R261, R273); a patch in FAULT reads 0 (R255). -/
def measuredInput (s : State) (f : Fire) (end_ : Nat) : Nat × List Int :=
  let one (p : Nat) : Nat × List Int :=
    if measRaw f then heldSamples s p end_
    else
      let l := heldStream (coreAt s (cfSource f.conf - 1)) p f.since end_
      if (adcAt s p).state = .fault then (l.1, l.2.map (fun _ => 0)) else l
  let r := sumSeries ((measPatches f.conf f.patch).map one)
  (r.1, r.2.map (polSample f.conf))

/-- A sample of the measurement window was clipped (R253). -/
def windowClipped (s : State) (f : Fire) (end_ : Nat) : Bool :=
  (measPatches f.conf f.patch).any (fun p => (histAt s p).ovr.any (fun i => decide (f.ref ≤ i ∧ i ≤ end_)))

/-- What the trigger builder brings to its queue (R19, R282, R353). -/
def triggerPut (kind : Nat) (t : Stamp) (cal : Bool) (bytes : List Byte) : Put := {
  src := 20, source := 0x20, kind := kind, tick := t, cal := cal, fresh := false, bytes := fun _ => bytes
  unit := 3, amount := bytes.length }

/-- The last sample of a fire's measurement window (R273). -/
def windowEnd (f : Fire) : Nat := f.g + cfMeasPost f.conf

/-- The fire whose record is written next: of those that want one, the first whose window ends first (R272, log 42). -/
def nextRecord : List Fire → Option Fire
  | [] => none
  | f :: fs =>
    match nextRecord fs with
    | some h => if f.wants ∧ windowEnd f ≤ windowEnd h then some f else some h
    | none => if f.wants then some f else none

/-- Until when the units on cores have evaluated what a record waits for, as core and ns: each unit its fire sample, the
measured one its window (R267, R331). -/
def coreWaits (s : State) (f : Fire) : List (Nat × Nat) :=
  let us := (List.range 16).filter (fun u =>
    let c := unitConf s u
    cfEnable c && onCore c && !fallbackAt s u f.g && decide ((unitAt s u).since ≤ f.g))
  let at_ (n g : Nat) : Nat × Nat := (n, g + 30 + weLatency (coreAt s n))
  us.map (fun u => at_ (cfSource (unitConf s u) - 1) f.g) ++ (if measRaw f then [] else [at_ (cfSource f.conf - 1) (windowEnd f)])

/-- A core has done its work up to a time in ns: its cycles have come there, or it issues nothing. -/
def coreDone (s : State) (w : Nat × Nat) : Bool :=
  let x := coreAt s w.1
  decide (x.state ≠ .running ∨ (w.2 : Int) ≤ coreNs x) || x.stall.isSome

/-- The record of a fire is measured and written, and goes to the cores that ask for it, once its window has been sampled and
every enabled unit has evaluated its sample (R267, R272 to R277, R333). -/
def execTriggerRecordWrite (s : State) : Out :=
  match nextRecord s.tr.fires with
  | none => .next s
  | some f =>
    let e := windowEnd f
    let waits := coreWaits s f
    event (busyState s && (measPatches f.conf f.patch).all (fun p => decide (e ≤ (histAt s p).newest)) && waits.all (coreDone s)) (fun s =>
      let s := reachTick (tickOfSample ((waits.map (·.2)).foldl max e)) s
      let y := measuredInput s f e
      let bytes := recordBytes s f (measure f y.2 y.1 e) (windowClipped s f e)
      let s := onTr (fun x => { x with
        fires := x.fires.filter (fun z => z.wants && decide (z ≠ f) || decide (!z.wants ∧ f.g < z.g + 8192))
        trigSeq := (x.trigSeq + 1) % 65536 }) s
      let s := putRecord (triggerPut 5 (stampOf f.g f.off) (bit f.flags 0) bytes) s
      deliverRecord f bytes (forAll (maskList 16 f.units) (fun u => trStat u 2) s)) s

/-- The samples CHANGE_ONLY keeps: the first, those that differ from the last kept by more than DEADBAND, the last (R281). -/
def changeOnly (deadband : Nat) : Option Int → List (Int × Int) → List (Int × Int)
  | _, [] => []
  | _, [z] => [z]
  | none, z :: rest => z :: changeOnly deadband (some z.2) rest
  | some k, z :: rest =>
    if deadband < (z.2 - k).natAbs then z :: changeOnly deadband (some z.2) rest else changeOnly deadband (some k) rest

/-- An entry of a CHANGE_ONLY segment (R281): sample offset from the fire sample, and value. -/
def changeEntry (g : Int) (z : Int × Int) : List Byte :=
  let i := g + z.1
  b4 (unsigned 16 z.2 * 65536 + unsigned 11 (i / 25 - g / 25) * 32 + (i % 25).toNat)

/-- A list cut into pieces of `n`. -/
def pieces {α : Type} (n : Nat) : Nat → List α → List (List α)
  | 0, _ => []
  | f + 1, xs => if xs = [] then [] else xs.take n :: pieces n f (xs.drop n)

/-- The samples of a capture that are held, each with its offset from the fire sample (R278, R279). -/
def capturedSamples (s : State) (c : Capture) (p : Nat) : List (Int × Int) :=
  (List.range (c.pre + c.post + 1)).filterMap (fun k =>
    if c.g + k < c.pre then none
    else (histSample s p (c.g + k - c.pre)).map (fun v => ((k : Int) - c.pre, v)))

/-- The segments of one patch of a waveform record (R280): each with its FIRST, COUNT, number and payload. -/
def patchSegments (c : Capture) (zs : List (Int × Int)) : List (Int × Nat × Nat × List Byte) :=
  let form (p : List (Int × Int) × Nat) : Int × Nat × Nat × List Byte :=
    ((p.1.headD (0, 0)).1, p.1.length, p.2,
      if c.form = 1 then p.1.flatMap (changeEntry (c.g - c.off)) else p.1.flatMap (fun z => b2 (unsigned 16 z.2)))
  let kept := if c.form = 1 then changeOnly c.deadband none zs else zs
  ((pieces (if c.form = 1 then 2040 else 4080) 16 kept).zipIdx).map form

/-- A captured sample of a patch was clipped. -/
def captureClipped (s : State) (c : Capture) (p : Nat) : Bool :=
  (histAt s p).ovr.any (fun i => decide (c.g ≤ i + c.pre ∧ i ≤ c.g + c.post))

/-- A waveform record's segments as they are written: every patch of the union, ascending (R278, R280). -/
def waveSegments (s : State) (c : Capture) : List (List Byte) :=
  c.patches.flatMap (fun p =>
    let segs := patchSegments c (capturedSamples s c p)
    segs.map (fun g =>
      let last := decide (g.2.2.1 + 1 = segs.length)
      let form := c.form + 4 * bitNat last + 8 * bitNat (last && decide (c.patches.getLast? = some p)) + 16 * bitNat c.cal
        + 32 * bitNat (captureClipped s c p)
      b2 c.waveId ++ b1 p ++ b1 form ++ b4 (unsigned 32 g.1) ++ b2 g.2.1 ++ b2 (if c.form = 1 then c.deadband else 0)
        ++ b2 g.2.2.1 ++ b2 0 ++ g.2.2.2))

/-- A capture engine writes its waveform record once its window has been sampled, and is free (R278 to R282). -/
def execWaveCaptureDone (eng : Fin 4) (s : State) : Out :=
  match tget none s.tr.capture eng.val with
  | none => .next s
  | some c => event (busyState s && c.patches.all (fun p => decide (c.g + c.post ≤ (histAt s p).newest))) (fun s =>
      let s := reachTick (tickOfSample (c.g + c.post)) s
      let segs := waveSegments s c
      let s := onTr (fun x => { x with capture := tput none eng.val none x.capture }) s
      let s := forAll segs (fun b => putRecord (triggerPut 6 (stampOf c.g c.off) c.cal b)) s
      forAll (maskList 16 c.units) (fun u => trStat u 3) s) s

/-- Unit configurations take effect on their tick (R294). -/
def execTrConfigEffect (s : State) : Out :=
  match s.tr.pending with
  | [] => .next s
  | p :: _ => event (busyState s) (fun s => applyUnits (reachTick p.2.2 s)) s

/-- A rising edge of TRIG_IN in LEVEL mode, `ns` into the present tick (R291). -/
def execTrigInEdge (ns : Nat) (s : State) : Out :=
  event (busyState s && decide (cfg8 s 0x0504 0 = 2)) (fun s =>
    let g := sampleOf s.tc.now + ns + 1
    let s := reachTick (tickOfSample g) s
    let us := (List.range 16).filter (fun u => cfEnable (unitConf s u) && decide (cfSource (unitConf s u) = 5))
    fireNamed g 128 0 us s) s

/-- A word may come in on a path: it is in the mask and powered; TRIG_IN must be in LINK mode (R283, R286, R291). -/
def pathHears (s : State) (p : Nat) : Bool :=
  awake s && bit (cfg8 s 0x0503 2) p && (if p < 4 then decide ((slinkAt s p).state = 4) else decide (cfg8 s 0x0504 0 = 1))

/-- The tick TICK_LO names, nearest the present one (R284). -/
def domainTick (s : State) (w : BitVec 64) : Stamp :=
  let lo := field w.toNat 45 30
  let d := signed 16 ((lo + 65536 - s.tc.now.toNat % 65536) % 65536)
  s.tc.now + BitVec.ofInt 64 d

/-- A domain word is received (R284 to R286): a bad CRC discards it; in every state but OFF it is forwarded, once; what it says
is done in PADDLE and DRIVE. -/
def domainRx (type : Nat) (path : Fin 5) (w : BitVec 64) (act : State → State) (s : State) : Out :=
  event (pathHears s path.val && decide (s.tr.domain.state ≠ .off) && (!domainCrcOk w || decide (field w.toNat 63 60 = type))) (fun s =>
    let s := when (decide (path.val < 4)) (slPacketIn path.val) s
    if !domainCrcOk w then raise 220 [] (domainCount 4 s)
    else when (busyState s) act (forwardWord w path.val s)) s

/-- The module is ARMED late (R285): LATE_ARM, EV_217, EV_215. -/
def armLate (s : State) : State :=
  let s := domainCount 5 (onDomain (fun d => { d with state := .armed, late := true, armAt := none }) s)
  raise 215 [] (raise 217 [] s)

/-- A member takes up an ARM (R285). -/
def takeArm (w : BitVec 64) (s : State) : State :=
  let v := w.toNat
  let t := domainTick s w
  let s := domainCount 0 (onDomain (fun d => { d with
    seq := field v 59 52, master := field v 51 46, mode := field v 29 29, rearm := field v 28 13, earliest := none, seen := []
    late := false, armAt := some t, disarmAt := none, state := .disarmed, lastArm := some (field v 59 52, t) }) s)
  if 0 ≤ stampDiff (now s) t then armLate s else s

/-- The word is another copy of the ARM last adopted (R285, log 42). -/
def armKnown (w : BitVec 64) (s : State) : Bool := decide (s.tr.domain.lastArm = some (field w.toNat 59 52, domainTick s w))

/-- ARM received (R285). -/
def execDomainArmRx (path : Fin 5) (w : BitVec 64) (s : State) : Out :=
  domainRx 1 path w (fun s =>
    if isMaster s || decide (s.tr.domain.state = .detached) || armKnown w s then s else takeArm w s) s

/-- DISARMED now (R285). -/
def disarm (s : State) : State :=
  onDomain (fun d => { d with state := if d.state = .off ∨ d.state = .detached then d.state else .disarmed, armAt := none, disarmAt := none }) s

/-- DISARM received (R285). -/
def execDomainDisarmRx (path : Fin 5) (w : BitVec 64) (s : State) : Out :=
  domainRx 2 path w (fun s =>
    let t := domainTick s w
    if s.tr.domain.state = .detached then s
    else if 0 ≤ stampDiff (now s) t then disarm s
    else onDomain (fun d => { d with disarmAt := some t }) s) s

/-- FIRE received (R285, R289, R290). -/
def execDomainFireRx (path : Fin 5) (w : BitVec 64) (s : State) : Out :=
  domainRx 3 path w (fun s =>
    let v := w.toNat
    let d := s.tr.domain
    let t := domainTick s w
    let key := (field v 51 46, t, field v 29 25)
    if d.state = .detached then s
    else if field v 59 52 ≠ d.seq ∨ (d.state ≠ .armed ∧ d.state ≠ .fired) then raise 221 [] (domainCount 3 s)
    else if d.seen.contains key then s
    else
      let s := domainCount 2 (onDomain (fun d => { d with
        state := .fired, seen := key :: d.seen, earliest := earlierTick d.earliest t }) s)
      remoteFire key.1 (sampleOf t + key.2.2) (field v 24 9) (raise 216 [] s)) s

/-- BEAT received (R283, R285). -/
def execDomainBeatRx (path : Fin 5) (w : BitVec 64) (s : State) : Out :=
  domainRx 4 path w (fun s =>
    let v := w.toNat
    let s := domainJoin (onDomain (fun d => { d with lastBeat := s.up, master := field v 51 46 }) s)
    if field v 59 52 ≠ s.tr.domain.seq ∧ field v 29 28 = 1 ∧ !isMaster s then
      armLate (domainCount 0 (onDomain (fun d => { d with
        seq := field v 59 52, earliest := none, seen := [], disarmAt := none }) s))
    else s) s

/-- The master's state as its BEAT gives it (R284). -/
def beatState (d : ArmDomain) : Nat :=
  match d.state with
  | .armed => 1
  | .fired => 2
  | _ => 0

/-- The beat period of TR_DOMAIN (R283, R295). -/
def beatPeriod (s : State) : Nat := ms (cfg16 s 0x0503 6)

/-- A path of the mask is up (R283). -/
def onPath (s : State) : Bool := (domainPaths s).any (pathUp s)

/-- The master sends a BEAT a beat period after the last (R283); with a path up its own BEAT joins it to the domain
(log 42). -/
def execDomainBeatSend (s : State) : Out :=
  event (busyState s && isMaster s && s.tc.strobe && decide (s.tr.domain.state ≠ .off)) (fun s =>
    let s := reachUp (s.tr.domain.beatAt + beatPeriod s) s
    let d := s.tr.domain
    let w := domainWord 4 d.seq (tileIdentity s) (tickOf s.tc.now) (beatState d * 2 ^ 20)
    let s := sendWord w (onDomain (fun d => { d with beatAt := s.up }) s)
    when (onPath s) (fun s => domainJoin (onDomain (fun d => { d with lastBeat := s.up, master := tileIdentity s }) s)) s) s

/-- No BEAT within three beat periods, every path of the mask down, or a state other than PADDLE and DRIVE (R283). -/
def execDomainBeatTimeout (s : State) : Out :=
  event (decide (s.tr.domain.state ≠ .off ∧ s.tr.domain.state ≠ .detached)) (fun s =>
    domainDetach (if onPath s && busyState s then reachUp (s.tr.domain.lastBeat + 3 * beatPeriod s) s else s)) s

/-- The arm tick comes (R285); a DETACHED module does not arm (R283). -/
def execDomainArmTick (s : State) : Out :=
  match s.tr.domain.armAt with
  | none => .next s
  | some t => event (busyState s && decide (s.tr.domain.state ≠ .off)) (fun s =>
      let s := onDomain (fun d => { d with armAt := none }) (reachTick t s)
      if s.tr.domain.state = .detached then s
      else raise 215 [] (onDomain (fun d => { d with state := .armed, late := false }) s)) s

/-- In CONTINUOUS mode the module is ARMED again REARM after the earliest fire (R285). -/
def execDomainRearm (s : State) : Out :=
  match s.tr.domain.earliest with
  | none => .next s
  | some e => event (busyState s && decide (s.tr.domain.state = .fired ∧ s.tr.domain.mode = 1)) (fun s =>
      onDomain (fun d => { d with state := .armed, earliest := none })
        (reachTick (e + BitVec.ofNat 64 s.tr.domain.rearm) s)) s

/-- The DISARM effect tick comes (R285). -/
def execDomainDisarmEffect (s : State) : Out :=
  match s.tr.domain.disarmAt with
  | none => .next s
  | some t => event (busyState s) (fun s => disarm (reachTick t s)) s

/-- The domain state as a number (R296, in the order of R283). -/
def domainCode : DomainState → Nat
  | .off => 0 | .detached => 1 | .disarmed => 2 | .armed => 3 | .fired => 4

/-- The converter state as a number (R296). -/
def adcCode : AdcState → Nat
  | .off => 0 | .converging => 1 | .converged => 2 | .fault => 3 | .frozen => 4

/-- A unit is in hold-off at the present tick. -/
def inHoldoff (s : State) (u : Nat) : Bool :=
  (unitAt s u).holds.any (fun h => decide (h.1 ≤ sampleOf s.tc.now ∧ sampleOf s.tc.now ≤ h.2))

/-- `TR_STATUS` (R296). -/
def execTrStatus (mb : Fin 8) (s : State) : Out :=
  call mb.val 0x0500 epdPri 0 (fun _ s =>
    okBytes (b1 (domainCode s.tr.domain.state) ++ b1 s.tr.domain.seq ++ b2 (maskOf 16 (fun u => cfEnable (unitConf s u)))
      ++ b2 (maskOf 16 (inHoldoff s)) ++ b1 ((List.range 4).filter (fun e => (tget none s.tr.capture e).isSome)).length
      ++ b1 ((List.range 64).filter (fun p => decide ((adcAt s p).state = .converged))).length
      ++ b8 (maskOf 64 (fun p => decide ((adcAt s p).state = .fault)))) s) s

/-- The first tick at least 10 us after acceptance (R294). -/
def unitEffect (s : State) : Stamp := s.tc.now + 400

/-- Unit configurations are accepted for their effect tick, which is answered (R294). -/
def pendUnits (cs : List (Nat × List Byte)) (s : State) : Reply :=
  let t := unitEffect s
  okBytes (stampBytes t) (onTr (fun x => { x with pending := x.pending ++ cs.map (fun c => (c.1, c.2, t)) }) s)

/-- `TR_UNIT_CONFIG` (R265, R294, R296). -/
def execTrUnitConfig (mb : Fin 8) (s : State) : Out :=
  call mb.val 0x0501 epd 68 (fun p s =>
    let c := bytesAt p 4 64
    need (decide (p8 p 0 < 16) && unitConfOk c) (pendUnits [(p8 p 0, c)]) s) s

/-- `TR_UNIT_READ` (R296). -/
def execTrUnitRead (mb : Fin 8) (s : State) : Out :=
  call mb.val 0x0502 epd 1 (fun p s =>
    need (decide (p8 p 0 < 16)) (fun s => okBytes (unitConf s (p8 p 0) ++ b1 (bitNat (inFallback s (p8 p 0)))) s) s) s

/-- A configuration with ENABLE set or cleared by the masks; set wins (log 42). -/
def enabledConf (s : State) (set clear u : Nat) : List Byte :=
  let c := latestConf s u
  let v := byteAt c 0 / 2 * 2
  if bit set u then b1 (v + 1) ++ c.drop 1 else if bit clear u then b1 v ++ c.drop 1 else c

/-- `TR_UNIT_ENABLE` (R294, R296). -/
def execTrUnitEnable (mb : Fin 8) (s : State) : Out :=
  call mb.val 0x0503 epdPri 4 (fun p s =>
    let us := maskList 16 (p16 p 0 ||| p16 p 2)
    let cs := us.map (fun u => (u, enabledConf s (p16 p 0) (p16 p 2) u))
    need (cs.all (fun c => unitConfOk c.2)) (pendUnits cs) s) s

/-- `TR_PATCH_CONFIG` (R252, R296). -/
def execTrPatchConfig (mb : Fin 8) (s : State) : Out :=
  call mb.val 0x0504 epd 2 (fun p s =>
    let first := p8 p 0
    let n := p8 p 1
    let v := bytesAt p 2 n
    need (decide (1 ≤ n ∧ first + n ≤ 64 ∧ v.length = n) && v.all (fun b => decide (b.toNat ≤ 3)))
      (fun s =>
        let old := padTo 64 (latestTrigger s 0x0502)
        ok (acceptTrigger 0x0502 (old.take first ++ v ++ old.drop (first + n)) s)) s) s

/-- `TR_ADC_STATUS` (R255, R296). -/
def execTrAdcStatus (mb : Fin 8) (s : State) : Out :=
  call mb.val 0x0505 pOrD 1 (fun p s =>
    let a := adcAt s (p8 p 0)
    need (decide (p8 p 0 < 64)) (okBytes (b1 (adcCode a.state)
      ++ (List.range 4).flatMap (fun k =>
        let c := tget (0, 0, 0) a.slices k
        b2 (unsigned 16 c.1) ++ b2 (unsigned 16 c.2.1) ++ b2 (unsigned 16 c.2.2))
      ++ b4 a.clipped)) s) s

/-- A converter is frozen or released (R255). -/
def freezeAdc (freeze : Bool) (p : Nat) (s : State) : State :=
  modAdc p (fun a =>
    match freeze, a.state with
    | true, .converging | true, .converged => { a with state := .frozen, before := a.state }
    | false, .frozen => { a with state := a.before, before := .off }
    | _, _ => a) s

/-- `TR_ADC_FREEZE` (R255, R296). -/
def execTrAdcFreeze (mb : Fin 8) (s : State) : Out :=
  call mb.val 0x0506 pOrD 9 (fun p s =>
    need (decide (p8 p 0 ≤ 1)) (fun s =>
      ok (forAll (maskList 64 (uAt 8 p 1)) (freezeAdc (decide (p8 p 0 = 1))) s)) s) s

/-- A value of TR_DOMAIN is acceptable (R295). -/
def domainConfOk (v : List Byte) : Bool :=
  decide (byteAt v 0 ≤ 1 ∧ byteAt v 1 ≤ 1 ∧ byteAt v 2 < 32 ∧ 40 ≤ u16At v 4 ∧ u16At v 4 ≤ 32000 ∧ 1 ≤ u16At v 6 ∧ u16At v 6 ≤ 100)

/-- `TR_DOMAIN_CONFIG` (R295, R296). -/
def execTrDomainConfig (mb : Fin 8) (s : State) : Out :=
  call mb.val 0x0507 epd 8 (fun p s => need (domainConfOk p) (fun s => ok (acceptTrigger 0x0503 (bytesAt p 0 8) s)) s) s

/-- `TR_ARM` (R285, R287). -/
def execTrArm (mb : Fin 8) (s : State) : Out :=
  call mb.val 0x0508 pOrDPri 4 (fun p s =>
    needState (isMaster s) (fun s =>
      let lead := cfg16 s 0x0503 4
      need (decide (p8 p 0 ≤ 1 ∧ lead ≤ p16 p 2)) (fun s =>
        let q := (s.tr.domain.seq + 1) % 256
        let t := s.tc.now + BitVec.ofNat 64 lead
        let w := domainWord 1 q (tileIdentity s) (tickOf t) (p8 p 0 * 2 ^ 21 + p16 p 2 * 2 ^ 5)
        let s := onDomain (fun d => { d with
          seq := q, master := tileIdentity s, mode := p8 p 0, rearm := p16 p 2, earliest := none, seen := [], late := false
          armAt := some t, disarmAt := none, state := if d.state = .detached then .detached else .disarmed }) s
        okBytes (b1 q ++ stampBytes t) (domainCount 0 (sendWord w s))) s) s) s

/-- `TR_DISARM` (R285, R297); its effect tick lies ARM_LEAD ahead (log 42). -/
def execTrDisarm (mb : Fin 8) (s : State) : Out :=
  call mb.val 0x0509 pOrDPri 0 (fun _ s =>
    needState (isMaster s) (fun s =>
      let t := s.tc.now + BitVec.ofNat 64 (cfg16 s 0x0503 4)
      let w := domainWord 2 s.tr.domain.seq (tileIdentity s) (tickOf t) 0
      okBytes (stampBytes t) (sendWord w (onDomain (fun d => { d with disarmAt := some t }) s))) s) s

/-- `TR_DOMAIN_STATUS` (R296). -/
def execTrDomainStatus (mb : Fin 8) (s : State) : Out :=
  call mb.val 0x050A epd 0 (fun _ s =>
    let d := s.tr.domain
    okBytes (b1 (domainCode d.state) ++ b1 d.seq ++ b1 d.master ++ b1 0 ++ (tslice 0 d.counts 0 6).flatMap b4
      ++ b2 (min 0xFFFF ((s.up - d.lastBeat) / ms 1))) s) s

/-- `TR_SOFT_FIRE` (R277, R296). -/
def execTrSoftFire (mb : Fin 8) (s : State) : Out :=
  call mb.val 0x050B pOrD 10 (fun p s =>
    let t := stampAt p 2
    need (aheadBy s 400 t) (fun s => ok (onTr (fun x => { x with
      soft := x.soft.filter (fun f => decide (tickAfter f.2 t ≤ 0)) ++ [(p16 p 0, t)]
        ++ x.soft.filter (fun f => decide (0 < tickAfter f.2 t)) }) s)) s) s

/-- `TR_STATS` (R296, R297). -/
def execTrStats (mb : Fin 8) (s : State) : Out :=
  call mb.val 0x050C epd 2 (fun p s =>
    let u := p8 p 0
    need (decide (u < 16)) (fun s =>
      okBytes (statBytes 5 (unitAt s u).stats (unitAt s u).statSat)
        (when (decide (p8 p 1 = 1)) (modUnit u (fun x => { x with stats := [], statSat := 0 })) s)) s) s

/-- A value of TR_TRIGIO is acceptable (R295). -/
def trigioOk (v : List Byte) : Bool := decide (byteAt v 0 ≤ 2 ∧ byteAt v 1 ≤ 2 ∧ 20 ≤ u16At v 2 ∧ u16At v 2 ≤ 10000)

/-- `TR_TRIGIO_CONFIG` (R291, R295). -/
def execTrTrigioConfig (mb : Fin 8) (s : State) : Out :=
  call mb.val 0x050D epd 4 (fun p s =>
    need (trigioOk p) (fun s => ok (acceptTrigger 0x0504 (bytesAt p 0 4) s)) s) s

/-- The newest index of a patch's samples or of its expanded stream from a core. -/
def newestSample (s : State) (p src : Nat) : Nat :=
  if src = 0 then (histAt s p).newest
  else match outChannel (coreAt s (src - 1)) p with
    | some k => ((tget [] (coreAt s (src - 1)).outs k).headD (0, 0)).1
    | none => sampleOf s.tc.now

/-- A sample as `TR_SAMPLE_READ` gives it; one that is not held is a free value (log 42). -/
def readSample (p src g : Nat) (a : List Byte × State) : List Byte × State :=
  match (if src = 0 then histSample a.2 p g else streamAt (coreAt a.2 (src - 1)) p g) with
  | some v => (a.1 ++ b2 (unsigned 16 v), a.2)
  | none => let d := drawNat a.2; (a.1 ++ b2 (d.1 % 65536), d.2)

/-- `TR_SAMPLE_READ` (R296, R331): the newest samples that begin with sample 0 of a tick. -/
def execTrSampleRead (mb : Fin 8) (s : State) : Out :=
  call mb.val 0x050E pOrD 4 (fun p s =>
    let patch := p8 p 0
    let src := p8 p 1
    let n := p16 p 2
    need (decide (patch < 64 ∧ src ≤ 4 ∧ 1 ≤ n ∧ n ≤ 112)) (fun s =>
      let t := (newestSample s patch src + 1 - n) / 25
      let r := (List.range n).foldl (fun a k => readSample patch src (25 * t + k) a) ([], s)
      okBytes (stampBytes (BitVec.ofNat 64 t) ++ r.1) r.2) s) s

end Sys2Proof.Machine
end

