-- ==== Sys2Proof/Machine/Waveform.lean ====
section
/-! DEFINITION. The waveform-engine commands (chapter 07): each instruction of R314 as a core issues it, the ends of stalls,
interrupts, input samples, the patrol scrub and the calls. -/
namespace Sys2Proof.Machine

/-- NOP (R314). -/
def execWeNop (core : Fin 4) (s : State) : Out := issue core.val 0x00 anyForm (fun _ s => goAct core.val s) s

/-- ADD (R314). -/
def execWeAdd (core : Fin 4) (s : State) : Out :=
  issue core.val 0x01 anyForm (binary core.val 1 (fun a b => (a + b, false))) s

/-- SUB (R314). -/
def execWeSub (core : Fin 4) (s : State) : Out :=
  issue core.val 0x02 anyForm (binary core.val 1 (fun a b => (a - b, false))) s

/-- ADDS: saturates to i32 (R314). -/
def execWeAdds (core : Fin 4) (s : State) : Out :=
  issue core.val 0x03 anyForm (binary core.val 1 (fun a b => satW (a.toInt + b.toInt))) s

/-- SUBS: saturates to i32 (R314). -/
def execWeSubs (core : Fin 4) (s : State) : Out :=
  issue core.val 0x04 anyForm (binary core.val 1 (fun a b => satW (a.toInt - b.toInt))) s

/-- AND (R314). -/
def execWeAnd (core : Fin 4) (s : State) : Out :=
  issue core.val 0x05 anyForm (binary core.val 1 (fun a b => (a &&& b, false))) s

/-- OR (R314). -/
def execWeOr (core : Fin 4) (s : State) : Out :=
  issue core.val 0x06 anyForm (binary core.val 1 (fun a b => (a ||| b, false))) s

/-- XOR (R314). -/
def execWeXor (core : Fin 4) (s : State) : Out :=
  issue core.val 0x07 anyForm (binary core.val 1 (fun a b => (a ^^^ b, false))) s

/-- SHL by b[4:0] (R314). -/
def execWeShl (core : Fin 4) (s : State) : Out :=
  issue core.val 0x08 anyForm (binary core.val 1 (fun a b => (a <<< (b.toNat % 32), false))) s

/-- SHR by b[4:0] (R314). -/
def execWeShr (core : Fin 4) (s : State) : Out :=
  issue core.val 0x09 anyForm (binary core.val 1 (fun a b => (a >>> (b.toNat % 32), false))) s

/-- SAR by b[4:0] (R314). -/
def execWeSar (core : Fin 4) (s : State) : Out :=
  issue core.val 0x0A anyForm (binary core.val 1 (fun a b => (a.sshiftRight (b.toNat % 32), false))) s

/-- MIN, signed (R314). -/
def execWeMin (core : Fin 4) (s : State) : Out :=
  issue core.val 0x0B anyForm (binary core.val 1 (fun a b => (if a.toInt ≤ b.toInt then a else b, false))) s

/-- MAX, signed (R314). -/
def execWeMax (core : Fin 4) (s : State) : Out :=
  issue core.val 0x0C anyForm (binary core.val 1 (fun a b => (if a.toInt ≤ b.toInt then b else a, false))) s

/-- ABS of a, saturating (R314). -/
def execWeAbs (core : Fin 4) (s : State) : Out :=
  issue core.val 0x0D anyForm (fun i s =>
    let (a, s) := readReg core.val i.src1 s
    let r := satW a.toInt.natAbs
    goAct core.val (setSat r.2 core.val (launchReg core.val 1 i.dst r.1 s))) s

/-- ADD2H: each half, saturating (R314). -/
def execWeAdd2h (core : Fin 4) (s : State) : Out :=
  issue core.val 0x0E anyForm (binary core.val 1 (fun a b => halves (sat16 (loS a + loS b)) (sat16 (hiS a + hiS b)))) s

/-- SUB2H: each half, saturating (R314). -/
def execWeSub2h (core : Fin 4) (s : State) : Out :=
  issue core.val 0x0F anyForm (binary core.val 1 (fun a b => halves (sat16 (loS a - loS b)) (sat16 (hiS a - hiS b)))) s

/-- PACK (R314). -/
def execWePack (core : Fin 4) (s : State) : Out :=
  issue core.val 0x10 anyForm (binary core.val 1 (fun a b => (wordOf (a.extractLsb' 0 16) (b.extractLsb' 0 16), false))) s

/-- CMPLT, signed (R314). -/
def execWeCmplt (core : Fin 4) (s : State) : Out :=
  issue core.val 0x11 anyForm (binary core.val 1 (fun a b => (if a.toInt < b.toInt then 1 else 0, false))) s

/-- CMPEQ (R314). -/
def execWeCmpeq (core : Fin 4) (s : State) : Out :=
  issue core.val 0x12 anyForm (binary core.val 1 (fun a b => (if a = b then 1 else 0, false))) s

/-- MOV (R314). -/
def execWeMov (core : Fin 4) (s : State) : Out :=
  issue core.val 0x13 anyForm (fun i s =>
    let (b, s) := readB core.val i s
    goAct core.val (launchReg core.val 1 i.dst b s)) s

/-- MOVS: special[DST] = b, after the moves' post-modifies (R308, R318). -/
def execWeMovs (core : Fin 4) (s : State) : Out :=
  issue core.val 0x14 movsForm (fun i s =>
    let (b, s) := readB core.val i s
    let (rot, s) := drawNat s
    .go (coreAt s core.val).index (specialWrite i.dst b rot) s) s

/-- MOVSR: d = special[SRC1] (R308). -/
def execWeMovsr (core : Fin 4) (s : State) : Out :=
  issue core.val 0x15 anyForm (fun i s =>
    let s := flushRecords core.val s
    goAct core.val (launchReg core.val 1 i.dst (specialRead (coreAt s core.val) i.src1) s)) s

/-- MUL: low halves to i32 (R314). -/
def execWeMul (core : Fin 4) (s : State) : Out :=
  issue core.val 0x18 anyForm (binary core.val 3 (fun a b => (BitVec.ofInt 32 (loS a * loS b), false))) s

/-- MUL2H: each half, Q15 (R314). -/
def execWeMul2h (core : Fin 4) (s : State) : Out :=
  issue core.val 0x19 anyForm (binary core.val 3 (fun a b =>
    halves (sat16 (loS a * loS b / 32768)) (sat16 (hiS a * hiS b / 32768)))) s

/-- MAC (R314). -/
def execWeMac (core : Fin 4) (s : State) : Out := issue core.val 0x1A anyForm (macAct core.val (fun b i v => .accAdd b i v)) s

/-- MSU (R314). -/
def execWeMsu (core : Fin 4) (s : State) : Out := issue core.val 0x1B anyForm (macAct core.val (fun b i v => .accAdd b i (-v))) s

/-- MAC0 (R314). -/
def execWeMac0 (core : Fin 4) (s : State) : Out := issue core.val 0x1C anyForm (macAct core.val (fun b i v => .accSet b i v)) s

/-- FTAP (R315). -/
def execWeFtap (core : Fin 4) (s : State) : Out := issue core.val 0x1D ftapForm (ftapAct false core.val) s

/-- FTAP0 (R315). -/
def execWeFtap0 (core : Fin 4) (s : State) : Out := issue core.val 0x1E ftapForm (ftapAct true core.val) s

/-- CLRA (R314). -/
def execWeClra (core : Fin 4) (s : State) : Out := issue core.val 0x20 anyForm (fun i s => setAccAct core.val i.acc 0 s) s

/-- ADDA: Ad += A[SRC1 & 3] (R314). -/
def execWeAdda (core : Fin 4) (s : State) : Out :=
  issue core.val 0x21 anyForm (fun i s =>
    let (d, s) := readAcc core.val i.acc s
    let (a, s) := readAcc core.val (i.src1 % 4) s
    setAccAct core.val i.acc (d + a) s) s

/-- LDA: Ad = b, sign-extended (R314). -/
def execWeLda (core : Fin 4) (s : State) : Out :=
  issue core.val 0x22 anyForm (fun i s =>
    let (b, s) := readB core.val i s
    setAccAct core.val i.acc b.toInt s) s

/-- MOVA: 16 bits, rounded, saturated, sign-extended (R314). -/
def execWeMova (core : Fin 4) (s : State) : Out :=
  issue core.val 0x23 anyForm (fun i s =>
    let (b, s) := readB core.val i s
    let (a, s) := readAcc core.val i.acc s
    let r := sat16 (roundShift a (b.toNat % 64))
    goAct core.val (setSat r.2 core.val (launchReg core.val 1 i.dst (BitVec.ofInt 32 r.1) s))) s

/-- MOVAW: 32 bits, rounded, saturated (R314). -/
def execWeMovaw (core : Fin 4) (s : State) : Out :=
  issue core.val 0x24 anyForm (fun i s =>
    let (b, s) := readB core.val i s
    let (a, s) := readAcc core.val i.acc s
    let r := satW (roundShift a (b.toNat % 64))
    goAct core.val (setSat r.2 core.val (launchReg core.val 1 i.dst r.1 s))) s

/-- IN (R314). -/
def execWeIn (core : Fin 4) (s : State) : Out := issue core.val 0x28 anyForm (inAct core.val) s

/-- OUT (R314, R332). -/
def execWeOut (core : Fin 4) (s : State) : Out := issue core.val 0x29 anyForm (outAct core.val) s

/-- QPUT (R334, R335). -/
def execWeQput (core : Fin 4) (s : State) : Out := issue core.val 0x2A anyForm (qputAct core.val) s

/-- QEND (R334). -/
def execWeQend (core : Fin 4) (s : State) : Out :=
  issue core.val 0x2B anyForm (fun i s =>
    let (b, s) := readB core.val i s
    goAct core.val (closeRecord core.val b.toNat false s)) s

/-- The target of a branch: IMM[12:0] (R314). -/
def branchTarget (i : WeIns) : Nat := field i.low 12 0

/-- BR (R314). -/
def execWeBr (core : Fin 4) (s : State) : Out := issue core.val 0x30 branchForm (fun i s => branchAct core.val (branchTarget i) s) s

/-- BRZ (R314). -/
def execWeBrz (core : Fin 4) (s : State) : Out :=
  issue core.val 0x31 branchForm (fun i s =>
    let (a, s) := readReg core.val i.src1 s
    if a = 0 then branchAct core.val (branchTarget i) s else goAct core.val s) s

/-- BRNZ (R314). -/
def execWeBrnz (core : Fin 4) (s : State) : Out :=
  issue core.val 0x32 branchForm (fun i s =>
    let (a, s) := readReg core.val i.src1 s
    if a ≠ 0 then branchAct core.val (branchTarget i) s else goAct core.val s) s

/-- CALL: the ninth level faults STACK (R314, R319). -/
def execWeCall (core : Fin 4) (s : State) : Out :=
  issue core.val 0x33 branchForm (fun i s =>
    let x := coreAt s core.val
    if !inBody x (branchTarget i) then .fault 1 s
    else if 8 ≤ (bankOf x x.bank).calls.length then .fault 6 s
    else .jump (branchTarget i) (modCore core.val (modBank x.bank (fun r => { r with calls := (x.index + 1) :: r.calls })) s)) s

/-- RET (R314); with nothing called it faults STACK (log 43). -/
def execWeRet (core : Fin 4) (s : State) : Out :=
  issue core.val 0x34 (fun x _ => !inPloop x) (fun _ s =>
    let x := coreAt s core.val
    match (bankOf x x.bank).calls with
    | [] => .fault 6 s
    | t :: ts => .jump t (modCore core.val (modBank x.bank (fun r => { r with calls := ts })) s)) s

/-- LOOP (R319): the body of DST instructions runs n times; a fifth level faults STACK. -/
def execWeLoop (core : Fin 4) (s : State) : Out :=
  issue core.val 0x35 (fun x i => decide (i.dst ≠ 0) && !inPloop x) (fun i s =>
    let (b, s) := readB core.val i s
    let x := coreAt s core.val
    if b = 0 then .go (x.index + i.dst) id s
    else if 4 ≤ (bankOf x x.bank).loops.length then .fault 6 s
    else
      let l : LoopFrame := { pipelined := false, start := x.index + 1, len := i.dst, count := b.toNat - 1, stages := 0, pass := 0 }
      .go x.index (modBank x.bank (fun r => { r with loops := l :: r.loops })) s) s

/-- PLOOP (R321). -/
def execWePloop (core : Fin 4) (s : State) : Out :=
  issue core.val 0x36 (fun x i => decide (i.dst ≠ 0 ∧ 1 ≤ i.src1 ∧ i.src1 ≤ 16) && !inPloop x) (fun i s =>
    let (b, s) := readB core.val i s
    let x := coreAt s core.val
    if 4 ≤ (bankOf x x.bank).loops.length then .fault 6 s
    else
      let l : LoopFrame := { pipelined := true, start := x.index + 1, len := i.dst, count := b.toNat, stages := i.src1, pass := 0 }
      .go x.index (modBank x.bank (fun r => { r with loops := l :: r.loops, sq := passSq r.sq b.toNat i.src1 0 })) s) s

/-- WAIT (R314): nothing is issued until an interrupt is taken; its handler returns to the next instruction. -/
def execWeWait (core : Fin 4) (s : State) : Out :=
  issue core.val 0x37 anyForm (fun _ s =>
    let r (x : WeCore) := afterIndex 5 x x.index
    .done (1 + (r (coreAt s core.val)).2.2) (modCore core.val (fun x =>
      { (r x).1 with index := (r x).2.1 % 8192, stall := some .wait })) s) s

/-- RTI (R325, R327); outside a handler it faults ILLEGAL (R336). -/
def execWeRti (core : Fin 4) (s : State) : Out :=
  issue core.val 0x38 anyForm (fun _ s =>
    let x := coreAt s core.val
    match x.levels with
    | [] => .fault 1 s
    | (1, epc) :: rest => .done 1 (modCore core.val (fun x => { x with levels := rest, bank := 0, index := epc })) s
    | (_, epc) :: rest =>
      let back (r : Regs) : Regs := match x.saved with
        | some v => { r with gap := v.flags.1, ova := v.flags.2.1, sat := v.flags.2.2, sq := v.sq, rotb := v.rotb, loops := v.loops, calls := v.calls }
        | none => r
      .done 4 (modCore core.val (fun x => { x with levels := rest, bank0 := back x.bank0, saved := none, index := epc })) s) s

/-- SWI: EV_270 with value b (R314). -/
def execWeSwi (core : Fin 4) (s : State) : Out :=
  issue core.val 0x39 anyForm (fun i s =>
    let (b, s) := readB core.val i s
    goAct core.val (raise 270 (b1 core.val ++ b4 b.toNat) s)) s

/-- HALT: STOPPED, with EV_257 (R301). -/
def execWeHalt (core : Fin 4) (s : State) : Out :=
  issue core.val 0x3A anyForm (fun _ s => .done 0 (stopCore core.val) s) s

/-- A row that resumes a stall: the core is running and stalled so. -/
def resume (n : Nat) (k : Stall) (ready : Bool) (eff : State → State) (s : State) : Out :=
  event (decide ((coreAt s n).state = .running ∧ (coreAt s n).stall = some k) && busyState s && ready) eff s

/-- When the sample an IN at the present index would pop is ready. -/
def nextReady (x : WeCore) : Option Nat :=
  let i := weDecode (tget 0 x.p x.index)
  ((tget [] x.fifo (i.src1 % 16)).head?).map (·.2.2)

/-- A stalled IN resumes when its sample is ready (R316, R328). -/
def execWeInResume (core : Fin 4) (s : State) : Out :=
  match nextReady (coreAt s core.val) with
  | none => .next s
  | some ready => resume core.val .input true (fun s =>
      issueNow core.val 0x28 anyForm (inAct core.val) (endStall core.val ready s)) s

/-- A stalled OUT resumes when the oldest output of its buffer has been used (R331, R332). -/
def execWeOutResume (core : Fin 4) (s : State) : Out :=
  let x := coreAt s core.val
  let ch := (weDecode (tget 0 x.p x.index)).dst % 16
  let free : Int := ((bufferedOuts x ch).getLast?.map (fun o => (o.1 : Int) + 30 + weLatency x)).getD (coreNs x)
  resume core.val .output true (fun s => issueNow core.val 0x29 anyForm (outAct core.val) (endStall core.val free s)) s

/-- A stalled QPUT resumes when the queue takes records again (R335); the stall ends at the present tick. -/
def execWeQputResume (core : Fin 4) (s : State) : Out :=
  resume core.val .qput (decide (bufferWords (coreAt (flushRecords core.val s) core.val) < 512)) (fun s =>
    issueNow core.val 0x2A anyForm (qputAct core.val) (endStall core.val (sampleOf s.tc.now) (flushRecords core.val s))) s

/-- A level-1 interrupt: the core swaps to bank 1 (R324, R325). -/
def execWeIrqLevel1 (core : Fin 4) (s : State) : Out :=
  let x := coreAt s core.val
  match irqSource (coreAt (irqReach core.val 1 s) core.val) 1 with
  | none => .next s
  | some k => event (decide (x.state = .running ∧ weLevel x ≠ 1) && busyState s) (fun s =>
      modCore core.val (fun x => { x with
        levels := (1, x.index) :: x.levels, bank := 1, index := 0x1FF8 + k, stall := none }) (irqReach core.val 1 s)) s

/-- A level-2 interrupt: three cycles drain what is in flight, the state is saved, the handler starts (R324, R327). -/
def execWeIrqLevel2 (core : Fin 4) (s : State) : Out :=
  match irqSource (coreAt (irqReach core.val 2 s) core.val) 2 with
  | none => .next s
  | some k => event (decide ((coreAt s core.val).state = .running ∧ weLevel (coreAt s core.val) = 0) && busyState s) (fun s =>
      let s := passCycles core.val 3 (irqReach core.val 2 s)
      if (coreAt s core.val).state ≠ .running then s
      else modCore core.val (fun x =>
        let r := x.bank0
        { x with
          levels := [(2, x.index)], stall := none, index := 0x1FF8 + k
          saved := some { index := x.index, flags := (r.gap, r.ova, r.sat), sq := r.sq, rotb := r.rotb, loops := r.loops, calls := r.calls }
          bank0 := { r with sq := 1, loops := [], calls := [] } }) s) s

/-- A decimated sample: the last of its group, or their sum (R328). -/
def decimate (mode : Nat) (xs : List Int) : Int :=
  if mode = 0 then xs.getLast?.getD 0 else signed 16 (unsigned 16 (xs.foldl (· + ·) 0))

/-- The raw samples of a patch that end at an index, oldest first; none where one is not held. -/
def rawGroup (s : State) (p d g : Nat) : Option (List Int) :=
  ((List.range d).reverse.map (fun k => if g < k then none else histSample s p (g - k))).mapM id

/-- A group of raw samples of the channel's patch that ends at index `g` reaches an input channel; its decimated sample is
ready at most 23 ns after the last of them, which time the spec leaves open (R328, R329, R341, log 43). -/
def execWeInputSample (core : Fin 4) (ch : Fin 16) (g : Nat) (s : State) : Out :=
  let x := coreAt s core.val
  let c := inChan x ch.val
  let d := 2 ^ c.2.1
  match rawGroup s c.1 d g with
  | none => .next s
  | some xs => event (busyState s && decide (c.2.2.2 = 1 ∧ (g + 1) % d = 0)) (fun s =>
      let s := reachTick (tickOfSample g) s
      match x.state with
      | .deferred => weStat core.val 2 1 s
      | .running =>
        let q := tget [] x.fifo ch.val
        if 64 ≤ q.length then weFault core.val 4 s
        else
          let (v, s) := drawNat s
          modCore core.val (fun x => { x with
            fifo := tput [] ch.val (q ++ [(decimate c.2.2.1 xs, g, g + 1 + v % 23)]) x.fifo }) s
      | _ => s) s

/-- A visit of the patrol scrub to a 32-byte word of a memory (R305); `ups` are the words that have met an error beyond
correction since its last visit, which a fetch or read may meet before the scrub does. -/
def execWePatrolScrub (core : Fin 4) (space word : Nat) (syndrome : BitVec 16) (ups : List (Nat × Nat)) (s : State) : Out :=
  event (decide ((coreAt s core.val).state ≠ .off ∧ 1 ≤ space ∧ space ≤ 4) && busyState s) (fun s =>
    let s := modCore core.val (fun x => { x with upset := x.upset ++ ups }) s
    let x := coreAt s core.val
    let r := if x.poison.contains (space, word) then 3 else if x.upset.contains (space, word) then 4 else checkResult syndrome.toNat
    if r = 0 ∨ r = 3 then s
    else if r = 1 then raise 261 (b1 core.val) s
    else raise 262 (b1 core.val) (modCore core.val (fun x => { x with
      poison := x.poison ++ [(space, word)], upset := x.upset.filter (fun u => decide (u ≠ (space, word))) }) s)) s

/-- A core's state as `WE_STATUS` numbers it, in the order of R300. -/
def coreCode : CoreState → Nat
  | .off => 0 | .stopped => 1 | .running => 2 | .deferred => 3 | .suspended => 4 | .fault => 5

/-- `WE_STATUS` (R343). -/
def execWeStatus (mb : Fin 8) (s : State) : Out :=
  call mb.val 0x0600 epdPri 1 (fun p s =>
    let x := coreAt s (p8 p 0)
    need (decide (p8 p 0 < 4)) (okBytes (b1 (coreCode x.state) ++ b1 x.fault.1 ++ b2 x.fault.2 ++ b1 (hdr8 x 6)
      ++ b2 x.live.toNat ++ b1 0 ++ b2 (weLatency x))) s) s

/-- `WE_LOAD_BEGIN` (R305, R343): memories cleared, the core OFF. -/
def execWeLoadBegin (mb : Fin 8) (s : State) : Out :=
  call mb.val 0x0601 pOrD 1 (fun p s =>
    let n := p8 p 0
    need (decide (n < 4)) (fun s =>
      needState (decide ((coreAt s n).state ≠ .running ∧ (coreAt s n).state ≠ .deferred)) (fun s =>
        ok (modCore n (fun x => { x with loading := true }) (loseCore n s))) s) s) s

/-- Size of a space in bytes: header, P, X, Y, C (R304, R339). -/
def spaceSize (space : Nat) : Nat :=
  match space with
  | 0 => 176 | 1 => 65536 | 2 => 65536 | 3 => 65536 | _ => 32768

/-- The byte offset an offset parameter names: an instruction index for P (R343). -/
def spaceOffset (space off : Nat) : Nat := if space = 1 then 8 * off else off

/-- A byte of a core's space. -/
def coreByte (x : WeCore) (space i : Nat) : Nat :=
  if space = 0 then hdr8 x i
  else if space = 1 then ((tget 0 x.p (i / 8)).toNat / 256 ^ (i % 8)) % 256
  else ((memHalf x space i).toNat / 256 ^ (i % 2)) % 256

/-- A byte of a core's space written. -/
def putByte (space i : Nat) (v : Nat) (x : WeCore) : WeCore :=
  let place (w k : Nat) := w - w / 256 ^ k % 256 * 256 ^ k + v * 256 ^ k
  if space = 0 then { x with header := tput 0 i (BitVec.ofNat 8 v) x.header }
  else if space = 1 then { x with p := tmod 0 (i / 8) (fun w => BitVec.ofNat 64 (place w.toNat (i % 8))) x.p }
  else putHalf space i (BitVec.ofNat 16 (place (memHalf x space i).toNat (i % 2))) x

/-- Bytes written from an offset of a space. -/
def putBytes (space off : Nat) (bs : List Byte) (x : WeCore) : WeCore :=
  unpoison space off bs.length ((bs.zipIdx).foldl (fun x b => putByte space (off + b.2) b.1.toNat x) x)

/-- `WE_LOAD_DATA` (R343). -/
def execWeLoadData (mb : Fin 8) (s : State) : Out :=
  call mb.val 0x0602 pOrD 8 (fun p s =>
    let n := p8 p 0
    let sp := p8 p 1
    let cnt := p16 p 2
    let off := spaceOffset sp (p32 p 4)
    let data := bytesAt p 8 cnt
    need (decide (n < 4 ∧ sp ≤ 4 ∧ 1 ≤ cnt ∧ cnt ≤ 224 ∧ data.length = cnt ∧ off + cnt ≤ spaceSize sp)) (fun s =>
      needState (coreAt s n).loading (fun s => ok (modCore n (putBytes sp off data) s)) s) s) s

/-- `WE_LOAD_END` (R301, R339, R343); a rejected kernel leaves the core as it was. -/
def execWeLoadEnd (mb : Fin 8) (s : State) : Out :=
  call mb.val 0x0603 pOrD 1 (fun p s =>
    let n := p8 p 0
    need (decide (n < 4)) (fun s =>
      let x := coreAt s n
      needState (decide (x.state = .off ∨ x.state = .stopped ∨ x.state = .fault)) (fun s =>
        let r := rejectReason x
        if r ≠ 0 then okBytes (b1 r) (raise 263 (b1 n) s)
        else okBytes (b1 0) (modCore n (fun x => { x with state := .stopped, loading := false }) s)) s) s) s

/-- `WE_START` (R301, R343): the named cores that are STOPPED or in FAULT start; others stay as they are (log 43). -/
def execWeStart (mb : Fin 8) (s : State) : Out :=
  call mb.val 0x0604 pOrD 1 (fun p s =>
    need (decide (p8 p 0 < 16)) (fun s =>
      ok (forAll (maskList 4 (p8 p 0)) (fun n s =>
        match (coreAt s n).state with
        | .stopped | .fault => startCore n s
        | _ => s) s)) s) s

/-- `WE_STOP` (R301, R343). -/
def execWeStop (mb : Fin 8) (s : State) : Out :=
  call mb.val 0x0605 epdPri 1 (fun p s =>
    need (decide (p8 p 0 < 16)) (fun s =>
      ok (forAll (maskList 4 (p8 p 0)) (fun n s =>
        match (coreAt s n).state with
        | .running | .deferred => stopCore n s
        | _ => s) s)) s) s

/-- `WE_MEM_READ` (R343). -/
def execWeMemRead (mb : Fin 8) (s : State) : Out :=
  call mb.val 0x0606 pOrD 8 (fun p s =>
    let sp := p8 p 1
    let cnt := p16 p 2
    let off := spaceOffset sp (p32 p 4)
    need (decide (p8 p 0 < 4 ∧ sp ≤ 4 ∧ 1 ≤ cnt ∧ cnt ≤ 224 ∧ off + cnt ≤ spaceSize sp))
      (okBytes ((List.range cnt).flatMap (fun k => b1 (coreByte (coreAt s (p8 p 0)) sp (off + k))))) s) s

/-- A store is in flight. -/
def isStore (f : Nat × Flight) : Bool := match f.2 with
  | .store .. => true
  | _ => false

/-- Bytes written to a memory of a core: the stores in flight land first (R342, log 43). -/
def paramWrite (sp off : Nat) (data : List Byte) (x : WeCore) : WeCore :=
  let x := (x.flight.filter isStore).foldl (fun x f => memWrite x f.2) x
  { putBytes sp off data x with flight := x.flight.filter (fun f => !isStore f) }

/-- `WE_PARAM_WRITE` (R342, R343): the block lands between two issue cycles; the core stalls count / 4 + 2 cycles. -/
def execWeParamWrite (mb : Fin 8) (s : State) : Out :=
  call mb.val 0x0607 pOrD 8 (fun p s =>
    let n := p8 p 0
    let sp := p8 p 1
    let cnt := p16 p 2
    let off := p32 p 4
    let data := bytesAt p 8 cnt
    need (decide (n < 4 ∧ 2 ≤ sp ∧ sp ≤ 4 ∧ 1 ≤ cnt ∧ cnt ≤ 224 ∧ data.length = cnt ∧ off + cnt ≤ spaceSize sp)) (fun s =>
      let s := modCore n (paramWrite sp off data) s
      if (coreAt s n).state = .running then
        let (d, s) := drawNat s
        let k := d % (cnt / 4 + 3)
        ok (weStat n 1 k (modCore n (countCycles k) s))
      else ok s) s) s

/-- `WE_REG_READ` (R343). -/
def execWeRegRead (mb : Fin 8) (s : State) : Out :=
  call mb.val 0x0608 pOrD 3 (fun p s =>
    let x := coreAt s (p8 p 0)
    let r := bankOf x (p8 p 1)
    need (decide (p8 p 0 < 4 ∧ p8 p 1 ≤ 1 ∧ p8 p 2 ≤ 1)) (fun s =>
      needState (decide (x.state = .stopped ∨ x.state = .fault)) (okBytes
        (if p8 p 2 = 0 then (tslice 0 r.v 0 48).flatMap (fun v => b4 v.toNat)
         else (tslice 0 r.g 0 16).flatMap (fun v => b4 v.toNat))) s) s) s

/-- `WE_SIGNAL` (R323, R343): HOSTVAL and the HOST interrupt. -/
def execWeSignal (mb : Fin 8) (s : State) : Out :=
  call mb.val 0x0609 pOrDPri 5 (fun p s =>
    need (decide (p8 p 0 < 4)) (fun s => ok (modCore (p8 p 0) (fun x => { x with
      hostval := BitVec.ofNat 32 (p32 p 1), ipend := x.ipend ||| 4 }) s)) s) s

/-- `WE_STATS` (R343, R344). -/
def execWeStats (mb : Fin 8) (s : State) : Out :=
  call mb.val 0x060A epd 2 (fun p s =>
    let n := p8 p 0
    let x := coreAt s n
    need (decide (n < 4)) (fun s =>
      okBytes (statBytes 6 x.stats x.statSat ++ (tslice 0 x.late 0 16).flatMap b4)
        (when (decide (p8 p 1 = 1)) (modCore n (fun x => { x with stats := [], late := [], statSat := 0 })) s)) s) s

end Sys2Proof.Machine
end

