-- ==== Sys2Proof/Machine/ImageOps.lean ====
section
/-! DEFINITION. The serial flash, the Yoler image, the checks of R73, the settings records and the tables an image
carries (R61 to R79, R137 to R141, R188, R302, R340, R385). -/
namespace Sys2Proof.Machine

/-- The flash on a chip select. -/
def chipOf (s : State) (cs : Nat) : FlashChip := if cs = 1 then s.sys.cs1 else s.sys.cs0

/-- The flash on a chip select changed. -/
def modChip (cs : Nat) (f : FlashChip → FlashChip) (s : State) : State :=
  onSys (fun x => if cs = 1 then { x with cs1 := f x.cs1 } else { x with cs0 := f x.cs0 }) s

/-- A chip select has been negotiated since the boot began. -/
def wasNegotiated (s : State) (cs : Nat) : Bool := bit s.sys.negotiated.toNat cs

/-- A chip select is known to have given no valid SFDP answer (R85, R87); one not yet negotiated is taken to be there. -/
def chipGone (s : State) (cs : Nat) : Bool := wasNegotiated s cs && !(chipOf s cs).present

/-- `n` flash bytes from an offset, of the cells from that offset on. -/
def cellRun : Nat → Nat → Table Byte → List Byte
  | 0, _, _ => []
  | n + 1, _, [] => 0xFF :: cellRun n 0 []
  | n + 1, off, (k, v) :: r => if k = off then v :: cellRun n (off + 1) r else 0xFF :: cellRun n (off + 1) ((k, v) :: r)

/-- `n` bytes of a device from an offset (R65). -/
def chipRead (c : FlashChip) (off n : Nat) : List Byte := cellRun n off (c.cells.dropWhile (fun e => decide (e.1 < off)))

/-- Bytes take the place of those from an offset (R61; erased bytes are not listed). -/
def spliceCells (off : Nat) (bs : List Byte) (t : Table Byte) : Table Byte :=
  t.filter (fun e => decide (e.1 < off))
    ++ ((bs.zipIdx).filter (fun b => decide (b.1 ≠ 0xFF))).map (fun b => (off + b.2, b.1))
    ++ t.filter (fun e => decide (off + bs.length ≤ e.1))

/-- Bytes are written to a device. -/
def chipWrite (off : Nat) (bs : List Byte) (c : FlashChip) : FlashChip := { c with cells := spliceCells off bs c.cells }

/-- Flash offset of a slot (R65). -/
def slotBase (slot : Nat) : Nat := 0x800000 * slot

/-- Size of a slot (R65). -/
def slotSize (slot : Nat) : Nat := if slot = 0 then 0x800000 else 0x7FF000

/-- A slot is erased. -/
def eraseSlot (slot : Nat) (c : FlashChip) : FlashChip :=
  { c with cells := c.cells.filter (fun e => decide (e.1 < slotBase slot ∨ slotBase slot + slotSize slot ≤ e.1)) }

/-- A slot's mark of R62 set or cleared. -/
def markSlot (slot : Nat) (v : Bool) (c : FlashChip) : FlashChip :=
  { c with verified := BitVec.ofNat 2 (maskOf 2 (fun k => if k = slot then v else bit c.verified.toNat k)) }

/-- A boot-pointer copy that is valid: its generation and preferred slot (R67). -/
def pointerCopy (c : FlashChip) (k : Nat) : Option (Nat × Nat) :=
  let bs := chipRead c (0xFFF000 + 0x800 * k) 16
  if bs.take 4 = ascii ['T', 'P', 'G', 'P'] ∧ u32At bs 12 = crc32c (bs.take 12) then some (u32At bs 4, byteAt bs 8) else none

/-- A boot-pointer copy's bytes (R67). -/
def pointerBytes (gen slot : Nat) : List Byte :=
  let b := ascii ['T', 'P', 'G', 'P'] ++ b4 gen ++ b1 slot ++ [0, 0, 0]
  b ++ b4 (crc32c b)

/-- The valid copy with the higher generation (R67). -/
def pointerInForce (c : FlashChip) : Option (Nat × Nat) :=
  match pointerCopy c 0, pointerCopy c 1 with
  | some a, some b => if a.1 < b.1 then some b else some a
  | some a, none => some a
  | none, b => b

/-- The preferred slot of a chip select: slot 0 with no valid copy (R67). -/
def preferredSlot (c : FlashChip) : Nat :=
  match pointerInForce c with
  | some p => if p.2 = 1 then 1 else 0
  | none => 0

/-- A commit writes both copies with the generation incremented (R67). -/
def commitSlot (slot : Nat) (c : FlashChip) : FlashChip :=
  let gen := match pointerInForce c with
    | some p => (p.1 + 1) % 2 ^ 32
    | none => 1
  chipWrite 0xFFF800 (pointerBytes gen slot) (chipWrite 0xFFF000 (pointerBytes gen slot) c)

/-- The number of section-table entries of a header (R69). -/
def sectionCount (h : List Byte) : Nat := u16At h 0x14

/-- The section table of a header: type, offset, length (R69). -/
def sectionTable (h : List Byte) : List (Nat × Nat × Nat) :=
  (List.range (min 16 (sectionCount h))).map (fun i => (u16At h (0x20 + 12 * i), u32At h (0x24 + 12 * i), u32At h (0x28 + 12 * i)))

/-- Check 2 of R73: the header and the places of its sections. -/
def headerOk (h : List Byte) : Bool :=
  let len := u32At h 8
  decide (h.take 4 = ascii ['T', 'P', 'G', 'Y'] ∧ u16At h 4 = 1 ∧ u16At h 6 = 256)
    && decide (len % 4 = 0 ∧ 320 ≤ len ∧ len ≤ 0x7EFF80)
    && decide (1 ≤ sectionCount h ∧ sectionCount h ≤ 16)
    && (sectionTable h).all (fun e => decide (e.2.1 + e.2.2 ≤ len))

/-- Check 3 of R73: the stepping and the screening. -/
def steppingOk (s : State) (h : List Byte) : Bool :=
  decide (byteAt h 0x12 ≤ s.sys.stepping.toNat) &&
    (if s.sys.screen = 0x53 then bit (byteAt h 0x13) 0 else if s.sys.screen = 0x48 then bit (byteAt h 0x13) 1 else false)

/-- The lifecycle state is MANUFACTURE (R89). -/
def inManufacture (s : State) : Bool := decide (s.sys.lc = 0b0001)

/-- The checks of R73 on a slot, in their order: the code of the first that fails, 0 where none does. -/
def imageCheck (s : State) (cs slot : Nat) (readOk : Bool) : Nat :=
  let c := chipOf s cs
  let base := slotBase slot
  let h := chipRead c base 256
  if !readOk || chipGone s cs then 1
  else if !headerOk h then 2
  else if !steppingOk s h then 3
  else
    let len := u32At h 8
    let ks := byteAt h 0x11
    let key := chipRead c (base + len - 64) 64
    let sig := chipRead c (base + len) 64
    if !inManufacture s && decide (tget none s.sys.keyHash ks ≠ some (BitVec.ofNat 256 (sha256 key))) then 4
    else if bit s.sys.keyRevoked.toNat ks then 5
    else if !inManufacture s && !ecdsaVerifies (sha256 (chipRead c base len)) (beNat (key.take 32), beNat (key.drop 32))
        (beNat (sig.take 32)) (beNat (sig.drop 32)) then 6
    else if byteAt h 0x10 < s.sys.rbCount then 7 else 0

/-- The running image's slot on its chip select, from an offset. -/
def runningBytes (s : State) (off n : Nat) : List Byte :=
  chipRead (chipOf s s.sys.image.cs) (slotBase s.sys.image.slot + off) n

/-- A section of the running image; none where it has none of the type (R70; the first of two, log 47). -/
def imageSection (s : State) (type : Nat) : Option (List Byte) :=
  ((sectionTable (runningBytes s 0 256)).find? (fun e => decide (e.1 = type))).map (fun e => runningBytes s e.2.1 e.2.2)

/-- Settings records: tag and value, up to tag 0xFFFF or the end (R75). -/
def parseRecords : Nat → List Byte → List (Nat × List Byte)
  | 0, _ => []
  | n + 1, bs =>
    if bs.length < 4 ∨ u16At bs 0 = 0xFFFF then []
    else
      let len := u16At bs 2
      (u16At bs 0, bytesAt bs 4 len) :: parseRecords n (bs.drop (4 + 4 * divUp len 4))

/-- A settings record's bytes (R75). -/
def settingBytes (tag : Nat) (v : List Byte) : List Byte := b2 tag ++ b2 v.length ++ padTo (4 * divUp v.length 4) v

/-- Records in ascending order of subsystem byte, in list order within one (R76). -/
def inOrder (rs : List (Nat × List Byte)) : List (Nat × List Byte) :=
  (List.range 256).flatMap (fun b => rs.filter (fun r => decide (r.1 / 256 = b)))

/-- A settings block's head and records where its magic and CRC-32C are right (R72). -/
def settingsBlock (s : State) : Option (Nat × List (Nat × List Byte)) :=
  let h := runningBytes s 0x7F0000 16
  let len := u32At h 8
  if h.take 4 ≠ ascii ['T', 'P', 'G', 'S'] ∨ 61440 < len + 20 then none
  else
    let bs := runningBytes s 0x7F0000 (16 + len)
    if u32At (runningBytes s (0x7F0010 + len) 4) 0 ≠ crc32c bs then none
    else some (u32At h 4, (parseRecords (len / 4 + 1) (bs.drop 16)).take (u32At h 12))

/-- The `n` entries of `k` bytes of a value. -/
def entriesOf (k n : Nat) (v : List Byte) : List (List Byte) := (List.range n).map (fun i => bytesAt v (k * i) k)

/-- A value's length is that of its tag (R143 and the other tag tables). -/
def lengthOk (tag : Nat) (v : List Byte) : Bool :=
  match tag with
  | 0x0705 => decide (v.length % 4 = 0 ∧ v.length ≤ 2048)
  | 0x0F01 => decide (v.length % 4 = 0 ∧ v.length ≤ 640)
  | _ => match settingDefault tag with
    | some d => decide (v.length = d.length)
    | none => false

/-- No two queues share a source bit (R388). -/
def mapDisjoint (v : List Byte) : Bool :=
  (List.range 16).all (fun a => (List.range a).all (fun b => decide (u32At v (8 * a) &&& u32At v (8 * b) = 0)))

/-- A MEM_DEFECTS entry is acceptable (R387). -/
def defectOk (v : Nat) : Bool :=
  decide (field v 30 28 = 0) && (!bit v 31 || decide (field v 27 0 < 2 ^ 21))

/-- The subsystems 01 to 06 accept a value (R78, R143, R190, R248, R295, R340). -/
def valueOkLow (s : State) (tag : Nat) (v : List Byte) : Bool :=
  match tag with
  | 0x0101 => decide (byteAt v 0 ≤ 1)
  | 0x0102 => decide (u16At v 0 ≤ 500)
  | 0x0103 => decide (byteAt v 0 ≤ 63 ∨ byteAt v 0 = 0xFF)
  | 0x0201 => decide (byteAt v 0 ≤ 4 ∧ byteAt v 1 ≤ 1)
  | 0x0202 => v.all modeByteOk
  | 0x0203 => (entriesOf 2 256 v).all (fun e => decide (u16At e 0 < 1024))
  | 0x0204 => (List.range 5).all (fun d => decide (u16At v (2 * d) < 2 ^ dacBits (d + 1)))
  | 0x0205 => decide (657 ≤ u32At v 0)
  | 0x0206 => crabConfOk v
  | 0x0207 => (entriesOf 6 256 v).all leakEntryOk
  | 0x0208 => decide (byteAt v 0 ≤ 1)
  | 0x0301 => bandsOk v
  | 0x0302 => decide (byteAt v 0 ≤ 1 ∧ 64 ≤ u16At v 1 ∧ u16At v 1 ≤ 4096 ∧ 1 ≤ byteAt v 3 ∧ byteAt v 3 ≤ 16)
  | 0x0303 => (entriesOf 4 256 v).all (fun e => tempSrcOk (byteAt e 0))
  | 0x0304 => decide (50 ≤ u16At v 0 ∧ u16At v 0 ≤ 2000 ∧ u16At v 2 ≤ 8760)
  | 0x0401 => clusterConfOk v
  | 0x0402 => v.all (fun b => decide (b.toNat ≤ 2))
  | 0x0403 => (List.range 16).all (fun q => lossConfOk s q (bytesAt v (12 * q) 12))
  | 0x0404 => (entriesOf 4 16 v).all gateConfOk
  | 0x0405 => mergeConfOk v
  | 0x0406 => reorderConfOk v
  | 0x0501 => (entriesOf 64 16 v).all unitConfOk
  | 0x0502 => v.all (fun b => decide (b.toNat ≤ 3))
  | 0x0503 => domainConfOk v
  | 0x0504 => trigioOk v
  | 0x0601 => v.all (fun b => decide (b.toNat ≤ 2))
  | _ => true

/-- The subsystems 07 to 0F accept a value (R387, R420, R473, R510, R537, R565, R595, R630, R666). -/
def valueOkHigh (s : State) (tag : Nat) (v : List Byte) : Bool :=
  match tag with
  | 0x0701 => regionsOk v && resizeSpares s (regionSizes v)
  | 0x0702 => (entriesOf 8 16 v).all (fun e => mapEntryOk (mapEntry e)) && mapDisjoint v
  | 0x0703 => patrolOk v
  | 0x0704 => decide (2 ≤ byteAt v 0 ∧ byteAt v 0 ≤ 7)
  | 0x0705 => (entriesOf 4 (v.length / 4) v).all (fun e => defectOk (u32At e 0))
  | 0x0801 => (entriesOf 4 16 v).all (fun e => cxEntryOk (cxEntry e))
  | 0x0901 => (entriesOf 8 4 v).all laneEntryOk
  | 0x0902 => classMapOk v
  | 0x0903 => weightsOk v
  | 0x0904 => packetCloseOk v
  | 0x0905 => repechageOk v
  | 0x0906 => (entriesOf 28 4 v).all ethEntryOk
  | 0x0907 => decide (byteAt v 0 < 16)
  | 0x0908 => txeqOk v
  | 0x0A01 => freqConfOk v
  | 0x0A02 => servoConfOk s v
  | 0x0A03 => ptpConfOk v
  | 0x0A04 => ppsConfOk v
  | 0x0A05 => (entriesOf 12 4 v).all tiConfOk
  | 0x0B01 => budgetOk v
  | 0x0B02 => thermalOk v
  | 0x0B03 => autoOk v
  | 0x0C01 => (entriesOf 32 16 v).all chanConfOk && excAgree v
  | 0x0C02 => sequenceOk v
  | 0x0C03 => hvmonOk v
  | 0x0C04 => decide (u16At v 0 = 0 ∨ 60 ≤ u16At v 0)
  | 0x0D01 => (List.range 68).all (fun e => emitterOk e (bytesAt v (18 * e) 18))
  | 0x0D02 => (entriesOf 6 4 v).all (fun e => tempSourceOk (byteAt e 0))
  | 0x0D03 => decide (byteAt v 0 < 16)
  | 0x0D04 => decide (1 ≤ u16At v 0 ∧ u16At v 0 ≤ 4000 ∧ 10 ≤ u16At v 2 ∧ 60 ≤ u16At v 4)
  | 0x0E03 => decide (byteAt v 0 ≤ 1)
  | 0x0F01 => (entriesOf 4 (v.length / 4) v).all (fun e => isDefined (u16At e 0) && decide (byteAt e 2 ≤ 2 ∧ byteAt e 3 ≤ 1))
  | 0x0F03 => decide (10 ≤ u16At v 0 ∧ u16At v 0 ≤ 10000)
  | _ => true

/-- The subsystem of a tag accepts a value (R77). -/
def valueOk (s : State) (tag : Nat) (v : List Byte) : Bool :=
  lengthOk tag v && (if tag < 0x0700 then valueOkLow s tag v else valueOkHigh s tag v)

/-- The polarity bit of every block (R99). -/
def setPol (p : Bool) (s : State) : State :=
  forAll (List.range 256) (fun k => writeConf k (fun c => { c with mode := if p then c.mode ||| 4 else c.mode &&& ~~~(4 : BitVec 8) })) s

/-- A value takes effect at the boot, where its running value is held elsewhere than among the settings (R76, R99). -/
def installValue (tag : Nat) (v : List Byte) (s : State) : State :=
  match tag with
  | 0x0201 => setPol (decide (byteAt v 1 = 1)) s
  | 0x0202 => forAll (List.range 256) (fun k s =>
      writeConf k (fun c => { c with mode := BitVec.ofNat 8 (byteAt v k) }) (modBlock k (fun x => { x with frameFrom := s.tc.now }) s)) s
  | 0x0203 => forAll (List.range 256) (fun k => writeConf k (setDac 0 (u16At v (2 * k)))) s
  | 0x0204 => forAll (List.range 256) (fun k => forAll (List.range 5) (fun d s =>
      writeConf k (setDac (d + 1) (u16At v (2 * d))) s)) s
  | 0x0205 => onFe (fun x => { x with framePeriod := u32At v 0 }) s
  | 0x0501 => forAll (List.range 16) (fun u => placeUnit u (bytesAt v (64 * u) 64)) s
  | 0x0503 => setDomain v s
  | 0x0701 => onBb (fun x => { x with region := (List.range 16).foldl (fun t q => tput 32 q (u16At v (2 * q)) t) [] }) s
  | 0x0702 => onBb (fun x => { x with map := (List.range 16).foldl (fun t q =>
      let e := mapEntry (bytesAt v (8 * q) 8)
      tput none q (if e = defaultMap q then none else some e) t) [] }) s
  | 0x0801 => forAll (List.range 16) (fun q => setCx q (cxEntry (bytesAt v (4 * q) 4))) s
  | 0x0F01 => onEv (fun e => { e with cfg := (entriesOf 4 (v.length / 4) v).foldl (fun t x =>
      tput none (u16At x 0) (some (byteAt x 2, decide (byteAt x 3 = 1))) t) [] }) s
  | 0x0F02 => onEv (fun e => { e with en := BitVec.ofNat 640 (leNat v) &&& definedSources }) s
  | _ => s

/-- The tags whose running value is not held among the settings bytes. -/
def liveTag (tag : Nat) : Bool :=
  [0x0202, 0x0203, 0x0205, 0x0501, 0x0701, 0x0702, 0x0801, 0x0F01, 0x0F02].contains tag

/-- One record is applied, or ignored with EV_005 (R76, R77); the safety settings are handed over once after power-on
reset (R603). -/
def applyRecord (allowed : Bool) (r : Nat × List Byte) (s : State) : State :=
  if !allowed || !valueOk s r.1 r.2 then raise 5 (b2 r.1) s
  else if r.1 / 256 = 0x0E ∧ s.sf.handed then s
  else installValue r.1 r.2 (if liveTag r.1 then s else setCfg r.1 r.2 s)

/-- The running value of a tag (R60, SYS_SETTING_READ; Writing settings back). -/
def tagValue (s : State) (tag : Nat) : Option (List Byte) :=
  match tag with
  | 0x0202 => some ((List.range 256).map (fun k => (blockAt s k).conf.mode))
  | 0x0203 => some ((List.range 256).flatMap (fun k => b2 (dacOf (blockAt s k).conf 0)))
  | 0x0205 => some (b4 s.fe.framePeriod)
  | 0x0501 => some ((List.range 16).flatMap (fun u => padTo 64 (latestConf s u)))
  | 0x0502 => some (latestTrigger s 0x0502)
  | 0x0503 => some (latestTrigger s 0x0503)
  | 0x0504 => some (latestTrigger s 0x0504)
  | 0x0701 => some ((List.range 16).flatMap (fun q => b2 (tget 32 s.bb.region q)))
  | 0x0702 => some ((List.range 16).flatMap (fun q => mapBytes (mapOf s q)))
  | 0x0705 => some (((defects s).take 512).flatMap b4)
  | 0x0801 => some ((List.range 16).flatMap (fun q => cxConfBytes (cxConf s q)))
  | 0x0E01 => some (b4 (if s.sf.handed then s.sf.peer else cfg32 s 0x0E01 0))
  | 0x0E02 => some (b4 (if s.sf.handed then s.sf.hvTrip else cfg32 s 0x0E02 0))
  | 0x0E03 => some (b1 (if s.sf.handed then s.sf.safeWake else cfg8 s 0x0E03 0))
  | 0x0F01 => some ((s.ev.cfg.take 160).flatMap (fun e => match e.2 with
      | some (c, f) => b2 e.1 ++ b1 c ++ b1 (bitNat f)
      | none => []))
  | 0x0F02 => some (leBytes 80 s.ev.en.toNat)
  | _ => (settingDefault tag).map (fun _ => cfg s tag)

/-- A settings block made from the running values of the allow list's tags (Writing settings back, R72). -/
def makeBlock (s : State) : List Byte :=
  let rs := s.sys.allow.eraseDups.filterMap (fun t => (tagValue s t).map (fun v => settingBytes t v))
  let body := rs.flatten
  let b := ascii ['T', 'P', 'G', 'S'] ++ b4 ((s.sys.image.generation + 1) % 2 ^ 32) ++ b4 body.length ++ b4 rs.length ++ body
  b ++ b4 (crc32c b)

/-- A table from a function of the number, without its default entries. -/
def tabulate {α : Type} [DecidableEq α] (d : α) (n : Nat) (f : Nat → α) : Table α :=
  (List.range n).filterMap (fun i => if f i = d then none else some (i, f i))

/-- A byte of a section. -/
def sec8 (a : Array Byte) (i : Nat) : Nat := (a.getD i 0).toNat

/-- A 16-bit number of a section. -/
def sec16 (a : Array Byte) (i : Nat) : Nat := sec8 a i + 256 * sec8 a (i + 1)

/-- A signed 16-bit number of a section. -/
def secI16 (a : Array Byte) (i : Nat) : Int := signed 16 (sec16 a i)

/-- A section of a length; none where it is missing or of another length. -/
def sectionOfLength (s : State) (type n : Nat) : Option (Array Byte) :=
  match imageSection s type with
  | some bs => if bs.length = n then some bs.toArray else none
  | none => none

/-- FE_TRIM and FE_CHARGE are read: pixel bytes and charge tables; EV_075 for a missing or short FE_TRIM (R137 to R141). -/
def loadFrontEnd (s : State) : State :=
  let s := match sectionOfLength s 0x0120 1049600 with
    | some a => writePixels (fun _ => tabulate 0x10 1048576 (fun i =>
        if bit (sec8 a (4 * pixBlock i + 3)) 7 then BitVec.ofNat 8 (sec8 a (1024 + i) % 128) else 0x10)) s
    | none => raise 75 [] (writePixels (fun _ => []) s)
  let c := sectionOfLength s 0x0121 16896
  forAll (List.range 256) (fun k => modBlock k (fun x => { x with
    charge := c.map (fun a => (List.range 33).map (fun i => sec16 a (66 * k + 2 * i))), chargeNew := none })) s

/-- TM_CAL is read (R188). -/
def loadTmCal (s : State) : State :=
  match sectionOfLength s 0x0130 534528 with
  | some a => onTm (fun x => { x with
      per := tabulate 0 262144 (fun j =>
        let sp := j / 4
        let i := 16 * (sp / 256 % 16) + sp % 16
        sec16 a (2088 * spBlock sp + 40 + 2 * (256 * (j % 4) + i)))
      tc := tabulate 0 256 (fun k => secI16 a (2088 * k))
      kLoaded := tabulate none 256 (fun k => some (secI16 a (2088 * k + 2)))
      v := tabulate 0 1024 (fun j => sec16 a (2088 * (j / 4) + 8 + 8 * (j % 4)))
      tcal := tabulate 0 1024 (fun j => secI16 a (2088 * (j / 4) + 10 + 8 * (j % 4))) }) s
  | none => raise 138 [] (onTm (fun x => { x with
      per := [], kLoaded := [], v := [], tcal := []
      tc := tabulate 0 256 (fun k => i16At (cfg s 0x0303) (4 * k + 2)) }) s)

/-- TM_SKEW of the image (R188). -/
def loadSkew (s : State) : State :=
  match sectionOfLength s 0x0131 131072 with
  | some a => onTm (fun x => { x with skew := tabulate 0 65536 (fun i => secI16 a (2 * i)) }) s
  | none => raise 138 [] (onTm (fun x => { x with skew := [] }) s)

/-- TM_WALK of the image (R188). -/
def loadWalk (s : State) : State :=
  match sectionOfLength s 0x0132 40960 with
  | some a => onTm (fun x => { x with
      wlk := tabulate 0 16384 (fun j => sec16 a (160 * (j / 64) + 2 * (j % 64)))
      wsw := tabulate 0 4096 (fun j => sec16 a (160 * (j / 16) + 128 + 2 * (j % 16))) }) s
  | none => raise 138 [] (onTm (fun x => { x with wlk := [], wsw := [] }) s)

/-- TM_INL of the image (R188). -/
def loadInl (s : State) : State :=
  match sectionOfLength s 0x0133 32768 with
  | some a => onTm (fun x => { x with inl := tabulate 0 32768 (fun j => signed 8 (sec8 a j)) }) s
  | none => raise 138 [] (onTm (fun x => { x with inl := [] }) s)

/-- TM_SKEW, TM_WALK and TM_INL are read (R188). -/
def loadTmOthers (s : State) : State := loadInl (loadWalk (loadSkew s))

/-- The timing tables are loaded: K and the DM request masks follow them; the age of a loaded band counts from here
(R175, R188, R199, log 47). -/
def loadTables (s : State) : State :=
  let s := loadTmOthers (loadTmCal s)
  forAll (List.range 256) (fun k s =>
    let s := forAll (List.range 4) (fun b s =>
      let s := dmMaskUpdate k b s
      onTm (fun x => { x with calAt := tput none (4 * k + b) (if validSps s k b = 0 then none else some s.up) x.calAt }) s) s
    updateK k s) s

/-- A kernel section in a core's memories; none where it is too short for what its header names (R339). -/
def kernelOf (bs : List Byte) (x : WeCore) : Option WeCore :=
  let x := putBytes 0 0 (bs.take 176) x
  let n := 8 * hdr16 x 12
  let xl := hdr16 x 14
  let yl := hdr16 x 18
  let cl := hdr16 x 22
  if bs.length < 176 + n + xl + yl + cl + 64 then none
  else
    let d := bs.drop (176 + n)
    let x := putBytes 1 0 (bytesAt bs 176 n) x
    let x := putBytes 2 (hdr16 x 16) (d.take xl) x
    let x := putBytes 3 (hdr16 x 20) (bytesAt d xl yl) x
    let x := putBytes 4 (hdr16 x 24) (bytesAt d (xl + yl) cl) x
    some (putBytes 1 (8 * 0x1FF8) (bytesAt d (xl + yl + cl) 64) x)

/-- A core is loaded from its section and started as WE_START directs; EV_264 for a section that fails a check (R302,
R339, R340). -/
def loadKernel (n : Nat) (s : State) : State :=
  match imageSection s (0x0160 + n) with
  | none => s
  | some bs =>
    let head := putBytes 0 0 (bs.take 176) (coreAt s n)
    match (if rejectReason head = 0 then kernelOf bs (coreAt s n) else none) with
    | none => raise 264 (b1 n) s
    | some x =>
      let s := modCore n (fun _ => { x with state := .stopped, loading := false }) s
      let how := cfg8 s 0x0601 n
      if how = 2 ∨ (how = 0 ∧ bit (hdr8 x 7) 0) then startCore n s else s

/-- The kernels of all cores are loaded. -/
def loadKernels (s : State) : State := forAll (List.range 4) loadKernel s

/-- The defects of MEM_DEFECTS are applied again (R385). -/
def applyDefects (v : List Byte) (s : State) : State :=
  forAll (entriesOf 4 (v.length / 4) v) (fun e s =>
    let d := u32At e 0
    let a := field d 27 0
    if bit d 31 then
      if s.bb.retired.contains a then s else onBb (fun x => { x with retired := x.retired ++ [a] }) s
    else
      match tget none s.bb.remap a, freeSpare s with
      | none, some k => onBb (fun x => { x with remap := tput none a (some k) x.remap }) s
      | _, _ => s) s

/-- FE_AUTOTRIM: FE_TRIM_RUN on all blocks during boot step 8, where the FE_TRIM section is missing or of the wrong length;
its number of pulses is not stated (R141, log 47). -/
def autoTrim (s : State) : State :=
  if cfg8 s 0x0208 0 = 1 ∧ (sectionOfLength s 0x0120 1049600).isNone ∧ s.sys.jobs.length < 8 then
    let (v, s) := drawNat s
    let (n, s) := addJob 0x0206 (b1 0 ++ b1 0 ++ b2 (cfg16 s 0x0208 1) ++ b2 (10 + v % 991)) 1 0 s
    forAll (List.range 256) (fun k s => trimStart k (cfg16 s 0x0208 1) (modBlock k (fun x => { x with scan := some n }) s)) s
  else s

end Sys2Proof.Machine
end

