-- ==== Sys2Proof/Machine/RedOps.lean ====
section
/-! DEFINITION. The arbiter's and the halves' own logic (chapter 16, R634 to R652): claims, the declaring of a failed
half, takeover and rejoin; and the abandoning of jobs (R699). -/
namespace Sys2Proof.Machine

/-- A job is abandoned: what it holds in its subsystem is released, and it ends failed (R124, R145, R380, R699). A gate
ends STOPPED (R508), except at HOLD entry, where it runs until the time core stops. -/
def dropJob (j : Job) (status reason : Nat) (s : State) : State :=
  let n := j.num
  let s := endJob n 3 status reason s
  let s := scanRelease n s
  let s := onTm (fun x => { x with skewRuns := x.skewRuns.filter (fun r => decide (r.job ≠ n)) }) s
  let s := if j.code = 0x070C ∧ j.state = 1 then
      onBb (fun x => { x with ranges := tmod none n (fun r => some { (r.getD {}) with result := 1 }) x.ranges }) s
    else s
  let s := onSc (fun x => { x with cals := x.cals.map (fun c => if c.job = some n then { c with job := none } else c), diags := x.diags.filter (fun d => decide (d.1 ≠ n)) }) s
  let s := onLd (fun x => { x with jobs := x.jobs.filter (fun e => decide (e.1 ≠ n)) }) s
  let s := forAll (List.range 68) (fun e s => if (emAt s e).proofJob = some n then modEm e (fun x => { x with proofJob := none }) s else s) s
  if status = stState then s
  else forAll (List.range 4) (fun i s => match (tiAt s i).gate with
    | some g => if g.job = n then endGate i 4 s else s
    | none => s) s

/-- The half given a resource: its claim becomes the other's plus one (R642). -/
def giveClaim (r : Nat) (h : Half) (s : State) : State :=
  let v := (claimOf s r h.other + 1) % 65536
  onRed (fun x => { x with claim := tput 0 (2 * r + h.code) v x.claim }) s

/-- The low byte of the claim that holds a resource (R663, log 49). -/
def holderClaim (s : State) (r : Nat) : Nat := (match holder s r with
  | some h => claimOf s r h
  | none => claimOf s r .s) % 256

/-- The ARG of a CLAIM record: resources that change hands, new holder, cause, failed half, the holders' claims (R663). -/
def claimArg (s : State) (rs : List Nat) (h : Half) (cause : Nat) (failed : Option Half) : List Byte :=
  b4 (maskOf 18 (fun r => rs.contains r)) ++ b1 h.code ++ b1 cause
    ++ b1 (match failed with
      | some f => f.code
      | none => 0xFF)
    ++ b1 0 ++ (List.range 18).flatMap (fun r => b1 (holderClaim s r))

/-- A CLAIM record enters the fault log (R657, R663). -/
def claimLog (rs : List Nat) (h : Half) (cause : Nat) (failed : Option Half) (s : State) : State :=
  onEv (fun e => flogAdd {
    type := 4, flags := recFlags false (unsync s), source := 0xFFFF, repeats := 1, stamp := s.tc.now
    incident := incNumber e, origin := 2, arg := claimArg s rs h cause failed } e) s

/-- Resources pass to a half: the claims, EV_408 for each output stage that changes holder, the packet in flight of a lane
group cut, the CLAIM record (R458, R642, R645, R663). Without a majority of the arbiter's copies no claim changes (R652). -/
def raiseClaims (rs : List Nat) (h : Half) (cause : Nat) (failed : Option Half) (s : State) : State :=
  if s.red.noMajority then s
  else
    let s := forAll rs (fun r s =>
      let s := giveClaim r h s
      raise 408 [] (if r < 4 then cutFlight r s else s)) s
    claimLog rs h cause failed s

/-- The resources a half holds. -/
def heldBy (s : State) (h : Half) : List Nat := (List.range 18).filter (fun r => holds s r h)

/-- A half's domain is switched off (R645): its cox stops, its view of the others ends. -/
def halfOff (h : Half) (s : State) : State :=
  let s := onSys (fun x => { x with
    halfOk := twoPut x.halfOk h false, romReady := twoPut x.romReady h false, firmware := twoPut x.firmware h false
    restarting := twoPut x.restarting h false }) s
  modView h (fun v => { v with
    xlink := false, lost := false, beats := 0, misses := 0, asked := false, answer := none, pathLost := false
    arbLost := false, polled := 0, isolated := false }) s

/-- The rejoin in progress fails (R648, R649): EV_601; the half returns to FAILED and off, unless it takes over itself. -/
def rejoinFails (keep : Bool) (s : State) : State :=
  match s.red.rejoin with
  | none => s
  | some r =>
    let s := onRed (fun x => { x with rejoin := none }) s
    let s := onRed (fun x => { x with resume := none }) (onHp (fun x => { x with halfFrag := false }) s)
    let s := if keep && r.standby then s else halfOff r.half (modView r.half (fun v => { v with state := 3 }) s)
    raise 601 [] (jobFail r.job s)

/-- A job is abandoned; a rejoin fails with its job (R648, R699). -/
def abandonJob (j : Job) (status reason : Nat) (s : State) : State :=
  let s := dropJob j status reason s
  if (s.red.rejoin.map (·.job)) = some j.num then rejoinFails false s else s

/-- A statistic of RED_STATUS increased: saturation bit `i` and EV_612 (R667). -/
def redStat (old k i : Nat) (f : Nat → RedState → RedState) (s : State) : State :=
  let v := satAdd stat32 old k
  let new := decide (v = stat32) && !bit s.red.statSat i
  raiseIf new 612 [] (onRed (fun x => { f v x with statSat := if new then x.statSat + 2 ^ i else x.statSat }) s)

/-- The queues whose lane groups are among those that change hands are held for a fail-over, or none is any more (R356,
R645). -/
def failHold (groups : List Nat) (s : State) : State :=
  updateQueues (forAll (List.range 16) (fun q s =>
    modQueue q (fun x => { x with failHold := groups.any (fun g => bit (mapOf s q).2.1 g) }) s) s)

/-- Steps 2 and 3 of a takeover (R645): what the failed half held passes to the other one, and the failed half is off. -/
def takeover (x : Half) (cause : Nat) (s : State) : State :=
  let y := x.other
  let rs := heldBy s x
  let s := raiseClaims rs y cause (some x) s
  let s := failHold (rs.filter (fun r => decide (r < 4))) (halfOff x s)
  let s := modView y (fun v => { v with state := if v.state = 2 then 1 else v.state }) s
  let s := redStat s.red.takeovers 1 4 (fun v r => { r with takeovers := v }) s
  onRed (fun r => { r with takeover := some (x, cause), last := s.tc.now }) s

/-- The arbiter may take over for a failed half (R638, R640, R652): the other one answered its last poll and has not
failed, the decision is the arbiter's own, and its copies have a majority. -/
def mayTakeOver (s : State) (x : Half) : Bool :=
  let v := viewAt s x.other
  !s.red.ext && !s.red.noMajority && s.red.takeover.isNone && decide (v.misses = 0 ∧ v.state ≠ 3)
    && (match v.answer with
      | some (_, failed) => !failed
      | none => false)

/-- The takeover follows where it may, else EV_598 once for the failure (R638). -/
def tryTakeover (x : Half) (s : State) : State :=
  if mayTakeOver s x then takeover x 1 s
  else if s.red.noMajority || (viewAt s x).impossible then s
  else raise 598 [] (modView x (fun v => { v with impossible := true }) s)

/-- A half becomes FAILED: EV_596; a rejoin in progress fails (R637, R648, R649). -/
def markFailed (x : Half) (s : State) : State :=
  let s := rejoinFails (match s.red.rejoin with
    | some r => decide (r.half ≠ x)
    | none => false) s
  if (viewAt s x).state = 3 then s else raise 596 [] (modView x (fun v => { v with state := 3 }) s)

/-- The arbiter declares a half failed (R637, R638); an external arbiter decides itself (R640). -/
def declareFailed (x : Half) (s : State) : State :=
  if s.red.ext then s
  else tryTakeover x (markFailed x s)

/-- Three polls of a half have been missed (R637, R649): the other half's latest answer decides; a restarting half is
not declared failed (R64). -/
def judgeMissed (x : Half) (s : State) : State :=
  let y := x.other
  if (viewAt s x).state = 3 ∨ s.red.ext ∨ twoGet s.sys.restarting x then s
  else if (viewAt s y).misses = 3 then
    if (viewAt s x).impossible || (viewAt s y).impossible then s
    else raise 598 [] (modView x (fun v => { v with impossible := true }) s)
  else match (viewAt s y).answer with
    | some (true, _) =>
      if (viewAt s x).pathLost then s else raise 594 [] (modView x (fun v => { v with pathLost := true }) s)
    | some (false, _) => declareFailed x s
    | none => s

/-- A half that has lost the crosslink and every poll is isolated (R651). -/
def isolate (h : Half) (s : State) : State :=
  let v := viewAt s h
  if v.lost && v.arbLost && !v.isolated then raiseBy h 599 [] (modView h (fun v => { v with isolated := true }) s)
  else s

/-- The block rows an engine of a half served (R646). -/
def rowsOf (s : State) (h : Half) : List Nat := (List.range 16).filter (fun r => decide (engineOf s r / 8 = h.code))

/-- The tick from which records of a block row may be missing (R646). -/
def lastRelease (s : State) (r : Nat) : Stamp :=
  let b := (engineAt s (engineOf s r)).began
  match tget none s.hp.released r with
  | some t => if 0 ≤ stampDiff t b then t else b
  | none => b

/-- The loss record of a takeover for a block row (R646). -/
def failLoss (s : State) (r : Nat) : Loss :=
  let f := lastRelease s r
  { cause := 8, unit := 4, source := r, count := min stat32 (16 * (stampDiff s.tc.now f).toNat), first := f, last := s.tc.now }

/-- Engines take block rows: one that serves the same row as before keeps the tick from which it does (R221, R646). -/
def serveRows (rows : Nat → Option Nat) (s : State) : State :=
  let old := s
  let s := forAll (List.range 16) (fun n s => modEngine n (fun x =>
    let new := (rows n).getD (2 ^ n)
    { x with moved := rows n
             began := if new &&& servedRows old n ≠ 0 then x.began else s.tc.now
             clusters := if new = 0 then [] else x.clusters
             prints := if new = 0 then [] else x.prints
             recent := if new = 0 then [] else x.recent
             inBuf := if new = 0 then [] else x.inBuf }) s) s
  onHp (fun x => { x with released := x.released.filter (fun e => decide (engineOf s e.1 = engineOf old e.1)) }) s

/-- The block rows of each engine with one half left: engine n of it serves rows 2m and 2m + 1 (R221). -/
def survivorRows (y : Half) (n : Nat) : Option Nat := some (if n / 8 = y.code then 3 * 4 ^ (n % 8) else 0)

/-- Step 4 of a takeover: the engines reassigned and the loss records written (R645, R646). -/
def reassign (x : Half) (s : State) : State :=
  let ls := (rowsOf s x).map (failLoss s)
  let s := serveRows (survivorRows x.other) s
  let s := forAll ls (fun l s => putLossRecord l.source (engineOf s l.source) l s) s
  onRed (fun r => { r with resume := none }) (onHp (fun h => { h with halfFrag := false }) s)

/-- Answers that waited for a later event are given up with their calls (R57). -/
def dropWaiters (s : State) : State :=
  let s := forAll (List.range 4) (fun g => modGroup g (fun x => { x with rateReq := x.rateReq.map (fun r => match r.2 with
    | .call _ => (r.1, .state)
    | _ => r) })) s
  let s := onSf (fun x => { x with dark := none }) s
  onPw (fun x => { x with change := x.change.map (fun c => { c with mb := none }) }) s

/-- Every mailbox whose BUSY is 1 is answered HW_FAULT (R57). -/
def failMailboxes (s : State) : State :=
  forAll ((List.range 8).filter (fun n => (mbAt s n).busy)) (fun n => respond n stHwFault []) (dropWaiters s)

/-- Steps 4 to 6 of a takeover (R645). -/
def finishTakeover (x : Half) (s : State) : State :=
  let y := x.other
  let s := reassign x s
  let led := decide (lead s = x)
  let s := if led then raiseBy y 17 [] (onSys (fun z => { z with lead := y }) s) else s
  let s := forAll ((runningJobs s).filter (fun j => decide (j.half = x))) (fun j => abandonJob j stHwFault 0x13) s
  let s := if led then failMailboxes s else s
  raise 597 [] (failHold [] (onRed (fun r => { r with takeover := none }) s))

/-- A cluster has a member in a block row that an engine no longer serves. -/
def moving (n : Nat) (c : Cluster) : Bool := c.hits.any (fun h => decide (h.row / 64 ≠ n))

/-- The open clusters of an engine in rows that move away close in it (R648). -/
def closeMoving : Nat → Nat → State → State
  | 0, _, s => s
  | k + 1, n, s => match (engineAt s n).clusters.find? (moving n) with
    | some c => closeMoving k n (closeCluster n c s)
    | none => s

/-- The rejoined half's resources return to it, and the engines to one block row each (R17, R221, R648). -/
def finishRejoin (r : Rejoin) (s : State) : State :=
  let rs := (List.range 18).filter (fun k => decide (bootHolder s.sys.bootSel.toNat k = r.half ∧ !holds s k r.half))
  let s := raiseClaims rs r.half 2 none s
  let s := serveRows (fun _ => none) (forAll (List.range 16) (closeMoving 256) s)
  let s := modView r.half (fun v => { v with state := 1, impossible := false }) s
  let s := onRed (fun x => { x with rejoin := none }) s
  jobDone r.job (raise 600 [] s)

/-- The crosslink carries traffic as the lead half sees it, or is silent only because the other half is FAILED and off
(R635, R648, log 49). -/
def linkSound (s : State) : Bool :=
  let v := viewAt s (lead s)
  v.xlink || (decide ((viewAt s (lead s).other).state = 3) && !v.noLock)

/-- A flash call can be carried out: the lead holds the flash claims, or reaches the half that does (R83). -/
def flashOk (s : State) : Bool := (viewAt s (lead s)).xlink || (holds s 16 (lead s) && holds s 17 (lead s))

end Sys2Proof.Machine
end

