-- ==== Sys2Proof/Machine/BootOps.lean ====
section
/-! DEFINITION. The boot's own logic (R64, R80 to R88, R520, R700): boot records, boot hold, the warm reset, the choice of
images, what boot step 8 configures; and the writes of jobs to the flash (R61, R62, R68). -/
namespace Sys2Proof.Machine

/-- A boot record is added; at most 16 are held (R701). -/
def bootRecord (step result cs slot reason : Nat) (s : State) : State :=
  onSys (fun x => { x with report := if 16 ≤ x.report.length then x.report else x.report ++ [{
    step := step, result := result, cs := cs, slot := slot, reason := reason, ms := (s.up - x.bootStart) / 40000 }] }) s

/-- The boot ends in boot hold with a BOOT_RESULT; EV_003 for every reason but the strap (R82, R85, R92). -/
def enterBootHold (result : BitVec 8) (s : State) : State :=
  let s := onPw (fun x => { x with change := none }) (onSys (fun x => { x with
    bootHold := true, bootResult := result, power := .boot }) s)
  raiseIf (decide (result ≠ 0x12)) 3 [] s

/-- The lead half moves to another half: EV_017 (R83, R92). -/
def moveLead (h : Half) (s : State) : State :=
  if lead s = h then s else raiseBy h 17 [] (onSys (fun x => { x with lead := h }) s)

/-- The front end as it is before it is configured: the retention area is kept (R137, R700). -/
def freshFe (s : State) : FeState := { retained := s.fe.retained }

/-- The engines as they are before they are configured: with a half FAILED the other one keeps all block rows (R221). -/
def freshHp (s : State) : HpState :=
  { engine := tabulate {} 16 (fun n => { moved := (engineAt s n).moved }), halfFrag := s.hp.halfFrag }

/-- Everything outside PD_0, PD_1, the time core and the memory layer goes to where the boot's steps 8 to 10 configure it
(R700): lanes and side links down, the repechage windows and sequence counters kept (R444, R453). -/
def unconfigure (s : State) : State :=
  let windows := (List.range 4).map (fun g => (groupAt s g).window)
  let s := lkPowerDown s
  let s := forAll (List.range 4) (fun g => modGroup g (fun x => { x with window := windows.getD g [] })) s
  let s := onFe (fun _ => freshFe s) (onHp (fun _ => freshHp s) (onTm (fun _ => {}) (onTr (fun _ => {}) s)))
  let s := onWe (fun _ => {}) (onCx (fun _ => {}) (onSc (fun _ => {}) (onLd (fun _ => {}) s)))
  onSys (fun x => { x with
    firmware := ⟨false, false⟩, romReady := ⟨false, false⟩, restarting := ⟨false, false⟩, halfOk := ⟨false, false⟩ }) s

/-- What a boot from step 4 starts with (R80, R700, R701). -/
def bootFrom4 (warm : Bool) (s : State) : State :=
  let s := onSys (fun x => { x with
    bootResult := 1, bootHold := false, noCox := false, bootStep := 3, power := .boot, warmBoot := warm, report := []
    negotiated := 0, tried := 0, attempts := 0, imageOk := false, settingsDone := false, memTrained := false
    linkWaitOver := false, settingsBad := false, fwVersion := 0, buildId := 0, image := {}, allow := []
    bootStart := s.up, mb := tmap {} (fun m => { m with taken := false }) x.mb }) (pwAccount s)
  onPw (fun x => { x with change := none, enginesGated := 0 }) s

/-- A warm reset (R700): the open jobs end failed with reason RESTARTED, and the boot of R80 restarts from step 4. -/
def warmReset (s : State) : State :=
  let s := forAll s.sys.jobs (fun j => abandonJob j stHwFault 0x13) s
  bootFrom4 true (unconfigure (dropWaiters s))

/-- The rank of a chip select in the order of step 6 (R80, R82): chip select 1 first with BOOT_SEL 0b11. -/
def csOrder (s : State) : List Nat := if s.sys.bootSel = 3 then [1, 0] else [0, 1]

/-- The two slots of a chip select in the order of step 6: image A, image B (R68). -/
def slotOrder (s : State) (cs : Nat) : List Nat :=
  let a := preferredSlot (chipOf s cs)
  [a, 1 - a]

/-- An image has been tried in this boot. -/
def wasTried (s : State) (cs slot : Nat) : Bool := bit s.sys.tried.toNat (2 * cs + slot)

/-- A chip select has nothing left to try: no SFDP answer, or both images rejected. -/
def csSpent (s : State) (cs : Nat) : Bool :=
  wasNegotiated s cs && (!(chipOf s cs).present || (wasTried s cs 0 && wasTried s cs 1))

/-- The chip select whose turn it is (R80 steps 5 and 6). -/
def csTurn (s : State) : Option Nat := (csOrder s).find? (fun cs => !csSpent s cs)

/-- The image whose turn it is on a chip select. -/
def slotTurn (s : State) (cs : Nat) : Option Nat := (slotOrder s cs).find? (fun k => !wasTried s cs k)

/-- With no image left to try the boot ends in boot hold: 0x11 where some flash answered, else 0x10 (R85). -/
def imagesSpent (s : State) : State :=
  if (csTurn s).isSome then s
  else enterBootHold (if s.sys.cs0.present || s.sys.cs1.present then 0x11 else 0x10) s

/-- The read modes of R87 from the fastest: READ_MODE code, clock, listed, the comparison matches. -/
def readModes (p : FlashProbe) : List (Nat × Nat × Bool × Bool) :=
  [(3, 200, p.xspi, p.matched.1), (2, 100, p.quad, p.matched.2.1), (1, 50, p.single, p.matched.2.2)]

/-- The mode found, and how many modes failed before it (R87). -/
def findMode : List (Nat × Nat × Bool × Bool) → Nat → (Nat × Nat) × Nat
  | [], n => ((1, 25), n)
  | (m, c, listed, matched) :: r, n =>
    if !listed then findMode r n else if matched then ((m, c), n) else findMode r (n + 1)

/-- The flash bytes a device is found to hold take their places (R65). -/
def foundCells (p : FlashProbe) (c : FlashChip) : FlashChip := p.found.foldl (fun c r => chipWrite r.1 (r.2.take (2 ^ 24 - r.1)) c) c

/-- Flash read-mode negotiation of a chip select (R85, R87): EV_006 for each mode that fails, EV_002 with no SFDP. -/
def negotiate (cs : Nat) (p : FlashProbe) (s : State) : State :=
  let s := onSys (fun x => { x with negotiated := x.negotiated ||| BitVec.ofNat 2 (2 ^ cs) }) s
  if !p.sfdp then raise 2 [] (modChip cs (fun c => { c with present := false, mode := 0, clock := 0, density := 0 }) s)
  else
    let m := findMode (readModes p) 0
    let s := modChip cs (fun c => { foundCells p c with present := true, mode := m.1.1, clock := m.1.2, density := p.density }) s
    forAll (List.range m.2) (fun _ => raise 6 []) s

/-- The negotiation as boot step 5: READ_MODE, the boot record, and boot hold with nothing left to try (R80, R85, R701). -/
def bootNegotiate (cs : Nat) (p : FlashProbe) (s : State) : State :=
  let s := negotiate cs p (onSys (fun x => { x with bootStep := max x.bootStep 5 }) s)
  let mode := (chipOf s cs).mode
  let s := onSys (fun x => { x with readMode := mode }) s
  if p.sfdp then bootRecord 5 0 cs 0xFF mode s else imagesSpent (bootRecord 5 2 cs 0xFF 0 s)

/-- A boot-pointer copy as SYS_FLASH_INFO gives it (R67, R702, log 51). -/
def pointerInfo (c : FlashChip) (k : Nat) : List Byte :=
  let bs := chipRead c (0xFFF000 + 0x800 * k) 16
  if c.present then b1 (bitNat (pointerCopy c k).isSome) ++ b1 (byteAt bs 8) ++ [0, 0] ++ b4 (u32At bs 4) else List.replicate 8 0

/-- The 24 bytes of a chip select that has been negotiated (R702). -/
def flashInfo (c : FlashChip) : List Byte :=
  b1 (bitNat c.present) ++ b1 c.mode ++ b2 c.clock ++ b4 c.density ++ pointerInfo c 0 ++ pointerInfo c 1

/-- The SYS_FLASH_INFO calls that wait for the negotiation of a chip select are answered (R87, R702). -/
def answerFlashInfo (cs : Nat) (s : State) : State :=
  forAll ((List.range 8).filter (fun n =>
    let m := mbAt s n
    m.busy && m.taken && decide (reqCode m = 0x0105 ∧ byteAt (params m) 0 = cs)))
    (fun n s => respond n stOk (flashInfo (chipOf s cs)) s) s

/-- A cox that has reported ROM-ready runs its firmware; its half becomes ACTIVE (R80 step 7, log 49). -/
def startFirmware (h : Half) (s : State) : State :=
  if twoGet s.sys.romReady h then
    modView h (fun v => { v with state := 1 }) (onSys (fun x => { x with
      firmware := twoPut x.firmware h true, halfOk := twoPut x.halfOk h true }) s)
  else s

/-- The allow list of an image: tags of 16 bits (R70). -/
def allowList (bs : List Byte) : List Nat := (List.range (bs.length / 2)).map (fun i => u16At bs (2 * i))

/-- An image is accepted: the words of the identity block, the running image, the firmware of both coxes (R43, R73, R80
step 7). Where the build identifier lies in an image is open (log 51). -/
def acceptImage (cs slot : Nat) (s : State) : State :=
  let h := chipRead (chipOf s cs) (slotBase slot) 256
  let (b, s) := drawNat s
  let s := onSys (fun x => { x with
    bootStep := max x.bootStep 7, imageOk := true, bootCs := cs, bootSlot := slot, readMode := (chipOf s cs).mode
    fwVersion := BitVec.ofNat 32 (u32At h 0x0C), buildId := BitVec.ofNat 64 b
    image := { cs := cs, slot := slot, rbVersion := byteAt h 0x10, keySlot := byteAt h 0x11, signedLen := u32At h 8 } }) s
  let s := onSys (fun x => { x with allow := allowList ((imageSection s 0x0004).getD []) }) s
  startFirmware .b (startFirmware .s s)

/-- An image is checked (R73, R80 steps 6 and 7, R85, R701): EV_001 with chip select, slot and code for a reject. -/
def tryImage (cs slot : Nat) (readOk : Bool) (s : State) : State :=
  let code := imageCheck s cs slot readOk
  let s := onSys (fun x => { x with
    bootStep := max x.bootStep 6, tried := x.tried ||| BitVec.ofNat 4 (2 ^ (2 * cs + slot)) }) s
  if code = 0 then acceptImage cs slot (bootRecord 6 0 cs slot 0 s)
  else
    let s := onSys (fun x => { x with attempts := min 3 (x.attempts + 1) }) (bootRecord 6 1 cs slot code s)
    imagesSpent (raise 1 (b1 cs ++ b1 slot ++ b1 code) s)

/-- The running settings that a boot starts from: the defaults, but for the safety settings after their hand-over and for
those kept in PD_0 (R76, R603, R700, log 47). -/
def defaultSettings (s : State) : State :=
  onSys (fun x => { x with cfg := x.cfg.filter (fun e => decide (e.1 / 256 = 0x0F ∨ (e.1 / 256 = 0x0E ∧ s.sf.handed))) })
    (onBb (fun b => { b with region := [], map := [], mapPending := [] }) s)

/-- The records of R76 are applied: the default-settings section, then the settings block, which is ignored as a whole where
it is bad (R77). -/
def applySettings (s : State) : State :=
  let base := (imageSection s 0x0003).getD []
  let s := forAll (inOrder (parseRecords (base.length / 4 + 1) base)) (applyRecord true) (defaultSettings s)
  match settingsBlock s with
  | none => raise 4 [] (onSys (fun x => { x with settingsBad := true }) s)
  | some (gen, rs) =>
    let allow := s.sys.allow
    let s := onSys (fun x => { x with image := { x.image with generation := gen } }) s
    forAll (inOrder rs) (fun r => applyRecord (allow.contains r.1) r) s

/-- LEAD_HALF acts at the end of step 8 with BOOT_SEL 0b00 (R83). -/
def leadSetting (s : State) : State :=
  let h := Half.ofCode (cfg8 s 0x0101 0)
  if s.sys.bootSel ≠ 0 ∨ lead s = h then s
  else if alive s h then moveLead h s else raise 5 (b2 0x0101) s

/-- The hardware that boot step 8 configures from the settings and the image's tables (R80, R123, R138, R188, R222, R302,
R385, R548, R569, R603). -/
def configure (s : State) : State :=
  let s := loadTables (autoTrim (loadFrontEnd s))
  let s := loadKernels s
  let s := applyDefects (cfg s 0x0705) s
  let s := handOver s
  let s := gapWork (addCal (List.range 8) none (scPowerUp s))
  let s := discoverChains 15 0 s
  let s := forAll (List.range 16) rowUpdate s
  updateQueues (forAll (List.range 4) (fun sd s => setSide sd (sideFrom s sd) s) s)

/-- What a queue held is replaced by one loss frame of cause 7, SOURCE 0 (R364, R700). -/
def discardQueue (q : Nat) (s : State) : State :=
  let x := queueAt s q
  let held := fill x
  let l : Loss := { cause := 7, unit := 3, source := 0, count := min stat32 held
                    first := (x.frames.head?.map (·.base)).getD s.tc.now, last := s.tc.now }
  let s := releasePages x.chunks.flatten (dropErrs q x.r x.w s)
  let s := modQueue q (fun x => { x with
    frames := [], opens := [], chunks := [], errs := [], copy := [], r := x.w, spill := x.w, refill := x.w, lastRead := none
    discarded := 0, toFault := false, state := 2 }) s
  updateQueue q (if held = 0 then s else writeLoss q 0x30 l s)

/-- A half without firmware is failed as in the boot's failure branch, and the arbiter takes over for it (R85, R64, R650). -/
def failHalf (h : Half) (s : State) : State :=
  let s := halfOff h (markFailed h s)
  if s.red.ext then s else tryTakeover h s

/-- The lead cox has sent no ROM-ready: the other half's claims on the flash are raised and it leads (R85, R642). -/
def failBootLead (h : Half) (s : State) : State :=
  let y := h.other
  let rs := [16, 17].filter (fun r => holds s r h)
  let s := raiseClaims rs y 0 (some h) (halfOff h (markFailed h s))
  onSys (fun x => { x with lead := y }) s

/-- Neither cox has sent ROM-ready: no cox runs, the boot stops (R85). -/
def stopBoot (s : State) : State :=
  let s := forAll [Half.s, Half.b] (fun h s => halfOff h (markFailed h s)) s
  raise 3 [] (onSys (fun x => { x with noCox := true, bootResult := 0x14 }) s)

/-- The inactive slot: the one the running image is not in (R61; with no running image slot 1, log 51). -/
def inactiveSlot (s : State) : Nat := if s.sys.imageOk then 1 - s.sys.image.slot else 1

/-- An erase of the inactive slot has succeeded on a chip select; with keep_settings the running block is copied (R60). -/
def writeErase (keep : Bool) (cs : Nat) (s : State) : State :=
  let k := inactiveSlot s
  let block := runningBytes s 0x7F0000 61440
  modChip cs (fun c =>
    let c := markSlot k false (eraseSlot k c)
    if keep then chipWrite (slotBase k + 0x7F0000) block c else c) s

/-- The running image with a new settings block has been written to the inactive slot of a chip select, and read back (R62,
Writing settings back). -/
def writeSave (image block : List Byte) (cs : Nat) (s : State) : State :=
  let k := inactiveSlot s
  modChip cs (fun c => markSlot k true
    (chipWrite (slotBase k + 0x7F0000) block (chipWrite (slotBase k) image (eraseSlot k c)))) s

/-- A write on a chip select has failed: the slot cannot be committed (R68). -/
def writeFailed (cs : Nat) (s : State) : State :=
  let k := inactiveSlot s
  modChip cs (fun c => markSlot k false (eraseSlot k c)) s

/-- A write job ends by the chip selects on which it succeeded (R699); EV_020 (R92). -/
def writeJobEnds (num : Nat) (ok : Nat → Bool) (s : State) : State :=
  let s := raise 20 [] s
  if ok 0 && ok 1 then jobDone num s
  else if ok 0 then endJob num 2 stOk 0x22 s
  else if ok 1 then endJob num 2 stOk 0x21 s
  else endJob num 3 stHwFault 0x12 s

end Sys2Proof.Machine
end

