-- ==== Sys2Proof/Machine/PowerOps.lean ====
section
/-! DEFINITION. Power states and the rate governor's own logic (chapter 12, R367, R368, R498, R499, R513 to R536): what
entering a state does, HOLD and the way back, the governor's steps. -/
namespace Sys2Proof.Machine

/-- PW_STATE_SET waits for an answer: it gets one (R516; a state that is not reached is answered STATE, log 52). -/
def answerChange (status : Nat) (c : Change) (s : State) : State :=
  match c.mb with
  | some n => respond n status (if status = stOk then b1 c.prev else []) (onPw (fun x => { x with change := x.change.map (fun d => { d with mb := none }) }) s)
  | none => s

/-- The jobs that may run only in PADDLE and DRIVE (R145, R699 and the catalogues). -/
def busyJobs : List Nat := [0x0206, 0x0207, 0x0209, 0x0210, 0x030A, 0x030B]

/-- RUNNING groups are asked to take the rate of the state (R513, R705): a request still out is given up. -/
def stateRates (s : State) : State :=
  forAll ((List.range 4).filter (fun g => (groupAt s g).running && decide (groupMode s g = 1 ∧ (groupAt s g).rate ≠ topRate s g)))
    (fun g s => requestRate g (topRate s g) .state (rateAnswer g 2 s)) s

/-- POWER_STATE takes a value: the times of PW_STATS, the cause and EV_032 with it (R518, R519, R522, R538, R539). -/
def setPower (p : PowerState) (cause : Nat) (s : State) : State :=
  let s := onSys (fun x => { x with power := p }) (pwAccount s)
  raise 32 (b1 cause) (onPw (fun x => { x with lastCause := cause }) s)

/-- PADDLE is entered from EASY (R256, R301, R513). -/
def upToPaddle (s : State) : State :=
  let s := onPw (fun x => { x with enginesGated := 0 }) (onBb (fun x => { x with selfRefresh := false }) s)
  forAll (List.range 4) wakeCore (trPowerUp s)

/-- EASY is entered from PADDLE (R145, R256, R301, R513, R699). -/
def downToEasy (s : State) : State :=
  let s := forAll ((runningJobs s).filter (fun j => busyJobs.contains j.code)) (fun j => abandonJob j stState 0x10) s
  let s := forAll (List.range 4) suspendCore (trPowerDown true s)
  onCx (fun x => { x with awake := true, workAt := tput 0 1 s.up (tput 0 0 s.up x.workAt) }) s

/-- One state of a change between EASY, PADDLE and DRIVE is entered (R513, R515). -/
def enterState (p : PowerState) (cause : Nat) (s : State) : State :=
  let old := s.sys.power
  let s := setPower p cause s
  stateRates (if p = .paddle ∧ old = .easy then upToPaddle s else if p = .easy then downToEasy s else s)

/-- A change to a state is decided (R515). -/
def beginChange (target cause : Nat) (mb : Option Nat) (s : State) : State :=
  onPw (fun x => { x with change := some { target := target, cause := cause, mb := mb, prev := powerCode s.sys.power, phase := 0, began := s.up } }) s

/-- The next state on the way to a target. -/
def towards (target : Nat) (s : State) : PowerState :=
  let c := powerCode s.sys.power
  powerOf (if c < target then c + 1 else if target < c then c - 1 else c)

/-- A target above EASY asked for by a wake timer is followed, unless the thermal latch is set (R521, R535). -/
def followTarget (t : Option Nat) (s : State) : State :=
  match t with
  | some n => if powerCode s.sys.power < n ∧ !s.pw.latch then beginChange n 2 none s else s
  | none => s

/-- What the reorder stage of a queue still holds passes, its losses are written, open frames close (R354, R367). -/
def settleQueue (q : Nat) (s : State) : State :=
  let hs := (lossQAt s q).held
  let s := forAll hs (passHeld q false) (modLossQ q (fun x => { x with held := [] }) s)
  closeAll q (flushLosses q s)

/-- HOLD entry is decided (R518): running jobs end, producers stop with their open frames closed, each group sends one TAIL,
schedules are cancelled (R145, R367, R456, R517, R522, R584). -/
def beginHold (cause : Nat) (s : State) : State :=
  let s := match s.pw.change with
    | some c => answerChange stState c s
    | none => s
  let s := forAll (List.range 16) settleQueue (forAll (runningJobs s) (fun j => abandonJob j stState 0x10) s)
  let s := forAll ((List.range 4).filter (fun g => (groupAt s g).running)) (fun g => modGroup g (fun x => { x with
    out := x.out ++ [(1, 23, 0x17, x.tail.flatMap (fun e => match e.2 with
      | some q => b1 e.1 ++ b1 0 ++ b2 q
      | none => []))]
    tail := [] })) s
  let s := onLd (fun x => { x with awake := false }) (cancelAll s)
  onPw (fun x => { x with
    autoRuns := (0, 0)
    change := some { target := 1, cause := cause, mb := none, prev := powerCode s.sys.power, phase := 1, began := s.up } }) s

/-- The host-masked pixels that the retention area keeps: the first 4,096 by address (R137, log 52). -/
def maskedPixels (s : State) : List Nat := ((s.fe.goldPixel.filter (fun e => bit e.2.toNat 5)).map (·.1)).take 4096

/-- A block over HOLD: mode byte and DACs in the retention area, the scrub counts (R137). -/
def retainBlock (x : FeBlock) : FeBlock :=
  { conf := x.gold, gold := x.gold, scrub := x.scrub }

/-- The front end over HOLD (R137, R138). -/
def retainFe (s : State) : FeState :=
  { block := tmap {} retainBlock s.fe.block, retained := maskedPixels s
    framePeriod := s.fe.framePeriod, frameStart := s.fe.frameStart
    scanRes := s.fe.scanRes, scanJob := s.fe.scanJob, bump := s.fe.bump }

/-- The hit path over HOLD: statistics and loss policies stay (log 52). -/
def retainHp (s : State) : HpState :=
  { s.hp with
    engine := tmap {} (fun e => { e with clusters := [], prints := [], recent := [], inBuf := [] }) s.hp.engine
    mark := [], lastDm := [], tpBuf := [], tpFull := false, halfFrag := false, released := [] }

/-- The time core stops (R498, R508, R518, R703): gates end HOLD, a pending step is cancelled, the count is latched. The
ratio R that it has measured is open within the accuracy of the oscillator (R514, log 46). -/
def stopTime (s : State) : State :=
  let s := forAll (List.range 4) (fun i => endGate i 2) s
  let (n, s) := drawNat s
  onTc (fun x => { x with
    strobe := false, step := none, setting := false, holdAt := some (x.now, s.up), holdMin := 0
    ratio := 1220703125000 - 244140625 + n % 488281251
    ppsOut := false, exch := [], masters := [], master := none, lastReq := none, ptpReq := [], src := []
    ocxoRdy := false, ocxoWarm := false, ppsPresent := false, freqSrc := 0, usable := [], ocxoSince := none, former := none, y := clampY (x.y - x.yPhase), yPhase := 0, steerPs := 0
    ti := tmap {} (fun e => { e with last := none, fifo := [] }) x.ti
    split := tmap {} (fun e => { e with start := none, spans := false }) x.split }) s

/-- Records still in the TC3 ring at HOLD entry are dropped and counted (R660). -/
def dropRing (s : State) : State :=
  evChange (onEv (fun e =>
    let k := e.tc3.length
    { (evStat 6 k e).1 with tc3 := [], tc3Dropped := satAdd stat32 e.tc3Dropped k })) s

/-- Both halves' domains go off: no firmware, no crosslink, no polls (R513, R650). -/
def halvesDown (s : State) : State :=
  let s := onSys (fun x => { x with firmware := ⟨false, false⟩, halfOk := ⟨false, false⟩, restarting := ⟨false, false⟩ }) s
  forAll [Half.s, Half.b] (fun h => modView h (fun v => { v with
    xlink := false, lost := false, beats := 0, misses := 0, asked := false, answer := none, arbLost := false, polled := 0
    isolated := false })) s

/-- A wake source brings the module out of HOLD (R519, R678, R700): EV_033, the enables, raised over 0.2 ms, the wake
counted. -/
def wakeStart (src timer : Nat) (follow : Option Nat) (warm : Bool) (s : State) : State :=
  let s := pwStat 4 1 (raise 33 (b1 src ++ b1 timer) s)
  let s := onPw (fun x => { x with change := some {
    target := 2, cause := if src = 1 then 2 else 4, mb := none, prev := 1, phase := 3, began := s.up
    wake := (src, timer), follow := follow, warm := warm } }) s
  let s := advance (us 200) (onSf (fun x => { x with wakeReq := false }) s)
  onSeq (fun x => { x with en := 0xF, good := false, at_ := s.up }) s

/-- What is unpowered in HOLD loses its state (R188, R256, R301, R453, R513). -/
def holdOff (s : State) : State :=
  let s := onFe (fun _ => retainFe s) (onHp (fun _ => retainHp s) (onTm (fun x => { stats := x.stats, statSat := x.statSat }) s))
  let s := forAll (List.range 4) loseCore (trPowerDown false s)
  let s := lkPowerDown (scPowerDown s)
  let s := onCx (fun x => { x with bufs := [], fullAt := [], freeAt := [], awake := false, q := tmap {} (fun e => { e with index := {}, lastFrame := none }) x.q }) s
  let s := onLd (fun x => { x with
    awake := false, winOpen := false, jobs := [], chain := tmap {} (fun e => { e with stage := none, prep := none, due := 0, retried := false }) x.chain, em := tmap {} (fun e => { e with proofOut := false }) x.em
    sink := tmap {} (fun e => { e with pulse := none }) x.sink }) s
  halvesDown (dropRing (stopTime s))

/-- POWER_STATE becomes HOLD (R518 step 5, R678); a wake source that came during the entry acts now. -/
def enterHold (s : State) : State :=
  match s.pw.change with
  | none => s
  | some c =>
    let s := onSeq (fun x => { x with en := x.en &&& 1 }) (holdOff s)
    let s := onPw (fun x => { x with change := none, enginesGated := 0, wokeAt := none }) s
    let s := sfEval (setPower .hold c.cause s)
    match c.wake.1 with
    | 0 => s
    | src => wakeStart src c.wake.2 c.follow c.warm s

/-- The count of 32.768 kHz cycles over HOLD: within 200 ppm of the elapsed time, else open (R498, R514, log 46). -/
def cyclesOver (d : Nat) (s : State) : Nat × State :=
  let c := d * 32768 / 40000000
  let e := c / 5000 + 1
  let (n, s) := drawNat s
  (c - e + n % (2 * e + 1), s)

/-- The strobe runs again: the count of R498, COARSE, the sources looked for anew (R499). -/
def restartTime (s : State) : State :=
  match s.tc.holdAt with
  | none => onTc (fun x => { x with strobe := true }) s
  | some (entry, up) =>
    let (n, s) := cyclesOver (s.up - up) s
    let c := max n s.tc.holdMin
    let t := entry + BitVec.ofNat 64 (divRoundNat (c * s.tc.ratio) 1000000000)
    let s := onTc (fun x => { x with
      strobe := true, now := t, holdAt := none, holdMs := (s.up - up) / ms 1, timeState := .coarse, heard := false
      runs := (0, 0) }) s
    freqRefresh (onTc (fun x => { x with freqState := if firstUsable s = 0 then .freerun else .acquiring }) (startMonitors s))

/-- The images that a cox tries at a wake (R520): the one named in BOOT_STATUS, then the others in the order of boot
step 6. -/
def wakeImages (s : State) : List (Nat × Nat) :=
  let first := (s.sys.bootCs, s.sys.bootSlot)
  let all := (csOrder s).flatMap (fun cs => (slotOrder s cs).map (fun k => (cs, k)))
  (first :: all.filter (fun e => decide (e ≠ first))).filter (fun e => (chipOf s e.1).present)

/-- Firmware is loaded from flash: the first image accepted, with a boot record for each one tried and EV_001 for each
reject (R92, R520, R701). -/
def reloadFrom : List (Nat × Nat) → State → Bool × State
  | [], s => (false, s)
  | (cs, k) :: r, s =>
    let code := imageCheck s cs k true
    let s := bootRecord 6 (if code = 0 then 0 else 1) cs k code s
    if code = 0 then (true, s) else reloadFrom r (raise 1 (b1 cs ++ b1 k ++ b1 code) s)

/-- A half's firmware runs after a wake, from the save area or from flash (R519 step 4, R520). -/
def restoreHalf (h : Half) (saved : Bool) (s : State) : State :=
  if (viewAt s h).state = 3 then s
  else
    let r := if saved then (true, s) else reloadFrom (wakeImages s) (raise 43 [] s)
    onSys (fun x => { x with firmware := twoPut x.firmware h r.1, halfOk := twoPut x.halfOk h r.1 }) r.2

/-- A half left without firmware at a wake declares itself failed, and the arbiter takes over for it (R520). -/
def restoreFails (h : Half) (s : State) : State :=
  if (viewAt s h).state = 3 ∨ twoGet s.sys.firmware h then s
  else
    let s := markFailed h s
    if s.red.ext || s.red.noMajority then halfOff h s else takeover h 1 s

/-- The queues at a wake (R349, R368): kept where they were saved and every CRC-32C is good, else reset with EV_325. -/
def restoreQueues (good : Bool) (s : State) : State :=
  let good := good && s.bb.saved
  let s := onBb (fun x => { x with saved := false, watch := [], selfRefresh := false }) s
  if good then updateQueues s else raise 325 [] (forAll (List.range 16) startReset s)

/-- The golden copy and the tables are rebuilt (R137, R188, R302, R519 step 6). -/
def restoreTables (s : State) : State :=
  let keep := s.fe.retained
  let s := loadFrontEnd s
  let s := writePixels (fun t => keep.foldl (fun t p => tmod 0x10 p (· ||| 0x20) t) t) s
  loadKernels (loadTables s)

/-- AUTO's windows start anew (R522, log 52). -/
def startWindows (s : State) : State := onPw (fun x => { x with autoRuns := (0, 0), winAt := s.up, winHits := 0 }) s

/-- The windows of the crab watch and of the AUTO rates begin now. -/
def watchesBegin (s : State) : State := startWindows (onFe (fun x => { x with crabFrom := s.up }) s)

/-- The cluster engines begin to serve with nothing released yet. -/
def enginesBegin (s : State) : State :=
  onHp (fun x => { x with released := [] }) (forAll (List.range 16) (fun n => modEngine n (fun x => { x with began := s.tc.now })) s)

/-- Both compression units wake. -/
def unitsWake (s : State) : State :=
  onCx (fun x => { x with awake := true, workAt := tput 0 1 s.up (tput 0 0 s.up x.workAt) }) s

/-- EASY is entered from boot or from HOLD: lanes start from DETECT, slow control and the chains are ready, every engine
begins to serve (R80, R301, R519, R575, R646). -/
def startEasy (s : State) : State :=
  unitsWake (forAll (List.range 16) rowUpdate (enginesBegin (watchesBegin (forAll (List.range 4) suspendCore s))))

/-- A step of the governor engages (R524 to R528). -/
def engageStep (k : Nat) (s : State) : State :=
  let s := pwStat (4 + k) 1 (raise (33 + k) [] s)
  match k with
  | 1 =>
    let s := onPw (fun x => { x with steps := x.steps ||| 1 }) s
    forAll (List.range 4) deferCore (cxDefer s)
  | 2 => onPw (fun x => { x with steps := x.steps ||| 2, refused := 0, retry := 0, step2At := s.up }) s
  | _ =>
    let mask := cfg16 s 0x0B01 10
    let s := onPw (fun x => { x with steps := x.steps ||| 4, step3At := s.up, unreachable := false, forced := BitVec.ofNat 16 mask }) (pwAccount s)
    forAll (maskList 16 mask) (fun q s => if (lossQAt s q).active then raise 192 [] s else lossStart q s) s

/-- A queue's policy is no longer forced: it stays active at HIGH or above (R236, R528). -/
def unforce (q : Nat) (s : State) : State :=
  if (lossQAt s q).active && !atHigh s q then lossEnd q s else lossEval q s

/-- A step of the governor releases (R524, R526, R528). -/
def releaseStep (k : Nat) (s : State) : State :=
  match k with
  | 1 =>
    let s := onPw (fun x => { x with steps := x.steps &&& 6 }) s
    raise 37 [] (forAll (List.range 4) resumeCore (cxResume s))
  | 2 => onPw (fun x => { x with steps := x.steps &&& 5 }) s
  | _ =>
    let mask := s.pw.forced
    let s := onPw (fun x => { x with steps := x.steps &&& 3, forced := 0 }) (pwAccount s)
    forAll (maskList 16 mask.toNat) unforce s

/-- Step k is engaged. -/
def stepOn (s : State) (k : Nat) : Bool := bit s.pw.steps.toNat (k - 1)

/-- The level at which a step engages, in per cent (R524). -/
def engageAt (k : Nat) : Nat := 85 + 5 * k

/-- The level below which a step releases, in per cent (R524). -/
def releaseAt (k : Nat) : Nat := 80 + 5 * k

/-- Steps that throttling keeps engaged (R533). -/
def throttled (s : State) (k : Nat) : Bool := match s.pw.throttle with
  | some n => decide (k ≤ n + 1)
  | none => false

/-- A step engages where its level is reached or throttling asks for it, and all lower steps are engaged (R524, R533). -/
def tryEngage (k : Nat) (s : State) : State :=
  if !stepOn s k && (decide (k = 1) || stepOn s (k - 1)) && (levelReached s (engageAt k) || throttled s k) then engageStep k s
  else s

/-- A step releases where the level has fallen and every higher step has released (R524); while throttling is in force no
step does (R533). -/
def tryRelease (k : Nat) (s : State) : State :=
  if stepOn s k && (decide (k = 3) || !stepOn s (k + 1)) && s.pw.throttle.isNone && !levelReached s (releaseAt k) then releaseStep k s
  else s

/-- EV_038 once per engagement of step 3 (R529). -/
def tryUnreachable (s : State) : State :=
  if stepOn s 3 && !s.pw.unreachable && levelReached s 100 && decide (s.pw.step3At + ms (tauMs s) ≤ s.up) then
    raise 38 [] (onPw (fun x => { x with unreachable := true }) s)
  else s

/-- The governor's steps follow the level (R524). -/
def governor (s : State) : State :=
  tryUnreachable (tryEngage 3 (tryEngage 2 (tryEngage 1 (tryRelease 1 (tryRelease 2 (tryRelease 3 s))))))

/-- A rate change of the governor is under way (R438). -/
def governorBusy (s : State) : Bool := (List.range 4).any (fun g => match (groupAt s g).rateReq with
  | some (_, .lower) => true
  | some (_, .restore) => true
  | _ => false)

/-- A group that R438 protects: the only RUNNING one at 16.0 Gb/s or faster that carries TC0. -/
def soleFast (s : State) (g : Nat) : Bool :=
  decide ((List.range 4).filter (fun k => (groupAt s k).running && decide (1 ≤ (groupAt s k).rate) && bit (groupAt s k).classes.toNat 0) = [g])

/-- Step 2 may lower a group (R438, R527). -/
def mayLower (s : State) (g : Nat) : Bool :=
  let x := groupAt s g
  bit (cfg8 s 0x0B01 4) g && x.running && decide (groupMode s g = 1) && !bit s.pw.refused.toNat g && x.rateReq.isNone
    && decide (cfg8 s 0x0B01 (6 + g) < x.rate) && !soleFast s g

/-- The group that step 2 lowers next: the largest TC0 rank number (R527; of equal ones the higher group, log 52). -/
def lowerNext (s : State) : Option Nat :=
  ((List.range 4).filter (mayLower s)).foldl (fun b g => match b with
    | none => some g
    | some k => if tc0Rank s k ≤ tc0Rank s g then some g else some k) none

/-- A group is restored by one code (R527): a group that is not RUNNING, or runs slower for another reason, only has its top
rate raised (R705). -/
def restoreGroup (g : Nat) (s : State) : State :=
  let x := groupAt s g
  let c := x.cap.getD 3 + 1
  let r := min (min (laneCfg s g 1) (stateRate s g)) c
  if x.running ∧ groupMode s g = 1 ∧ r = c ∧ r ≠ x.rate then
    (if x.rateReq.isSome then s else requestRate g c .restore s)
  else governorAnswer g c 0 true s

end Sys2Proof.Machine
end

