-- ==== Sys2Proof/Machine/Redundancy.lean ====
section
/-! DEFINITION. The meanings of the crosslink's, the arbiter's and the redundancy calls' commands (chapter 16, R635 to R667). -/
namespace Sys2Proof.Machine

/-- A half's cox runs, from its boot ROM or its firmware: not before boot step 4, not in HOLD until the wake has restored
its memories, and not once the half is FAILED and off (R80, R635, R645, R650). -/
def halfOn (s : State) (h : Half) : Bool :=
  !s.sys.por && s.red.started && decide (4 ≤ s.sys.bootStep) && decide ((viewAt s h).state ≠ 3) &&
    (decide (s.sys.power ≠ .hold) || (match s.pw.change with
      | some c => decide (c.phase = 4)
      | none => false))

/-- The half does not declare itself failed: its cox has reported ROM-ready or runs its firmware (R640). -/
def healthy (s : State) (h : Half) : Bool := twoGet s.sys.romReady h || twoGet s.sys.firmware h

/-- XLINK_HEARTBEAT_SEND (R635, R640): every 20 us; a healthy half toggles its ARB_REQ ball. -/
def execXlinkHeartbeatSend (h : Half) (s : State) : Out :=
  event (halfOn s h) (fun s =>
    let s := reachUp ((viewAt s h).sentAt + us 20) s
    modView h (fun v => { v with sentAt := s.up, req := if healthy s h then !v.req else v.req }) s) s

/-- The crosslink is restored as a half sees it (R635, R651): EV_593 where it had been declared lost; merging across rows 7
and 8 resumes on the first tick at least 10 us later, once neither half sees it lost. -/
def linkRestored (h : Half) (s : State) : State :=
  let was := (viewAt s h).lost
  let s := modView h (fun v => { v with xlink := true, lost := false, noLock := false, isolated := false }) s
  let s := if s.hp.halfFrag ∧ !(viewAt s h.other).lost then onRed (fun r => { r with resume := some (s.tc.now + 400) }) s else s
  if was then raiseBy h 593 [] s else s

/-- Missed heartbeats are counted (R667). -/
def missBeats (h : Half) (n : Nat) (s : State) : State :=
  redStat (viewAt s h).missed n h.code (fun v r => { r with half := twoPut r.half h { twoGet r.half h with missed := v } }) s

/-- The crosslink is declared lost by a half (R220, R635, R648, R651). -/
def linkLost (h : Half) (lock : Bool) (s : State) : State :=
  let s := modView h (fun v => { v with xlink := false, lost := true, beats := 0, noLock := !lock }) s
  let rejoining (x : Half) : Bool := decide ((s.red.rejoin.map (·.half)) = some x)
  let s := if !rejoining h && !rejoining h.other && decide ((viewAt s h).state ≠ 3 ∧ (viewAt s h.other).state ≠ 3) then
      onRed (fun r => { r with resume := none }) (onHp (fun x => { x with halfFrag := true }) s)
    else s
  isolate h (rejoinFails false (raiseBy h 592 [] s))

/-- Heartbeats missed before one that arrives now, by the 20 us at which they come (R635). -/
def beatsMissed (s : State) (h : Half) : Nat :=
  if (viewAt s h).beats = 0 then 0 else (s.up - (viewAt s h).beatAt + us 10) / us 20 - 1

/-- Heartbeats that were due before the one that arrives now are missed: they break the run of consecutive ones, and three
of them are the loss of the crosslink (R635, R667). -/
def beatGap (h : Half) (s : State) : State :=
  let n := beatsMissed s h
  if n = 0 then s
  else if 3 ≤ n ∧ (viewAt s h).xlink then linkLost h true (missBeats h 3 s)
  else missBeats h n (modView h (fun v => { v with beats := 0 }) s)

/-- XLINK_HEARTBEAT_RX (R635): from the other half, which runs. -/
def execXlinkHeartbeatRx (h : Half) (lock : Bool) (s : State) : Out :=
  event (halfOn s h && halfOn s h.other) (fun s =>
    let s := beatGap h s
    let s := modView h (fun v => if lock then { v with beats := min 3 (v.beats + 1), beatAt := s.up } else { v with beats := 0 }) s
    if (viewAt s h).beats = 3 ∧ !(viewAt s h).xlink then linkRestored h s else s) s

/-- XLINK_HEARTBEAT_TIMEOUT (R635): three missed heartbeats with lock held, or the loss of block lock,
which also ends a rejoin while the link is down (R648). -/
def execXlinkHeartbeatTimeout (h : Half) (lock : Bool) (s : State) : Out :=
  event (halfOn s h && ((viewAt s h).xlink || (!lock && !(viewAt s h).noLock))) (fun s =>
    let s := if lock then reachUp ((viewAt s h).beatAt + us 60) s else s
    if (viewAt s h).xlink then linkLost h lock (if lock then missBeats h 3 s else s)
    else rejoinFails false (modView h (fun v => { v with noLock := true }) s)) s

/-- A missed poll is counted (R637, R667). -/
def missPoll (h : Half) (s : State) : State :=
  let s := modView h (fun v => { v with misses := min 3 (v.misses + 1) }) s
  redStat (viewAt s h).polls 1 (2 + h.code) (fun v r => { r with half := twoPut r.half h { twoGet r.half h with polls := v } }) s

/-- A poll reaches a half, or does not; one after a gap of more than a period and a half begins a new run (R639, R651). -/
def pollArrives (h : Half) (reaches : Bool) (s : State) : State :=
  let s := modView h (fun v => { v with heard := reaches, polledAt := if reaches then s.up else v.polledAt, polled := if reaches then min 3 (if v.polledAt + us 30 < s.up then 1 else v.polled + 1)
    else 0 }) s
  if (viewAt s h).polled = 3 ∧ (viewAt s h).arbLost then
    raiseBy h 613 [] (modView h (fun v => { v with arbLost := false, isolated := false }) s)
  else s

/-- ARB_POLL (R636 to R639), every 20 us: the poll before it counts as missed where it has not been answered. -/
def execArbPoll (h : Half) (reaches : Bool) (s : State) : Out :=
  event (halfOn s h) (fun s =>
    let s := reachUp ((viewAt s h).askedAt + us 20) s
    let s := if (viewAt s h).asked then missPoll h s else s
    let s := modView h (fun v => { v with asked := true, askedAt := s.up, heard := false }) s
    let s := if (viewAt s h).misses = 3 then judgeMissed h s else s
    if halfOn s h then pollArrives h reaches s else s) s

/-- What a half's answer settles about the other half (R637, R638, R649). -/
def answerSettles (h : Half) (s : State) : State :=
  let x := h.other
  let s := if (viewAt s x).misses = 3 then judgeMissed x s else s
  if (viewAt s x).state = 3 ∧ heldBy s x ≠ [] ∧ s.red.takeover.isNone ∧ !s.red.ext then tryTakeover x s else s

/-- A half has seen the other half's heartbeat within the 60 us of three of them (R635, R636). -/
def seesOther (s : State) (h : Half) : Bool :=
  decide ((viewAt s h).beats ≠ 0 ∧ s.up ≤ (viewAt s h).beatAt + us 60)

/-- ARB_POLL_ANSWER (R636 to R638, R649): within 5 us of a poll that has reached it a half answers whether it has seen the
other half's heartbeat, and whether it declares itself failed; a half that answers from its boot ROM, marked as restarting,
has not failed (R64). -/
def execArbPollAnswer (h : Half) (failed : Bool) (s : State) : Out :=
  event (halfOn s h && (viewAt s h).asked && (viewAt s h).heard && decide (s.up ≤ (viewAt s h).askedAt + us 5)) (fun s =>
    let failed := failed && !twoGet s.sys.restarting h
    let s := modView h (fun v => { v with
      asked := false, misses := 0, answer := some (seesOther s h, failed), pathLost := false, impossible := v.impossible && failed }) s
    if failed then declareFailed h s else answerSettles h s) s

/-- ARB_LOST_TIMEOUT (R639, R651). -/
def execArbLostTimeout (h : Half) (s : State) : Out :=
  event (halfOn s h && !(viewAt s h).arbLost) (fun s =>
    let s := reachUp ((viewAt s h).polledAt + us 60) s
    isolate h (raiseBy h 595 [] (modView h (fun v => { v with arbLost := true, polled := 0 }) s))) s

/-- TAKEOVER_COMPLETE (R221, R645, R646). -/
def execTakeoverComplete (s : State) : Out :=
  match s.red.takeover with
  | some (x, _) => event true (finishTakeover x) s
  | none => event false id s

/-- The external arbiter's grant of a half has fallen while the other's is high (R641). -/
def grantFalls (x : Half) (s : State) : State :=
  if s.red.noMajority || s.red.takeover.isSome || decide ((viewAt s x).state = 3 ∨ (viewAt s x.other).state = 3) then s
  else takeover x 3 (markFailed x s)

/-- ARB_GNT_CHANGE (R640, R641): the levels; under an external arbiter a takeover, or EV_602 with both low. -/
def execArbGntChange (gntS gntB : Bool) (s : State) : Out :=
  event (!s.sys.por) (fun s =>
    let oldS := (viewAt s .s).gnt
    let oldB := (viewAt s .b).gnt
    let s := modView .b (fun v => { v with gnt := gntB }) (modView .s (fun v => { v with gnt := gntS }) s)
    if !s.red.ext || !s.red.started then s
    else if !gntS && !gntB then raiseIf (oldS || oldB) 602 [] s
    else if oldS && !gntS then grantFalls .s s
    else if oldB && !gntB then grantFalls .b s else s) s

/-- REJOIN_TICK (R648). -/
def execRejoinTick (s : State) : Out :=
  match s.red.rejoin with
  | some r => event r.standby (fun s =>
      let s := reachTick r.tick s
      if s.red.noMajority then rejoinFails false s else finishRejoin r s) s
  | none => event false id s

/-- ARBITER_TMR_VOTE (R652): one copy that differs is reloaded; with no majority the claims are frozen. -/
def execArbiterTmrVote (disagree : List (Fin 3)) (s : State) : Out :=
  event (s.red.started && decide (disagree ≠ [])) (fun s =>
    if disagree.eraseDups.length ≤ 1 then raise 603 [] s
    else if s.red.noMajority then s
    else raise 604 [] (onRed (fun r => { r with noMajority := true }) s)) s

/-- RED_STATUS, 0x0F00 (R667). -/
def execRedStatus (mb : Fin 8) (s : State) : Out :=
  call mb 0x0F00 epdPri 0 (fun _ => fun s =>
    okBytes (b4 (claimsWord s) ++ b4 (viewAt s .s).missed ++ b4 (viewAt s .b).missed ++ b4 (viewAt s .s).polls
      ++ b4 (viewAt s .b).polls ++ b4 s.red.takeovers ++ stampBytes s.red.last) s) s

/-- RED_CLAIM_READ, 0x0F01 (R667). -/
def execRedClaimRead (mb : Fin 8) (s : State) : Out :=
  call mb 0x0F01 epd 0 (fun _ => fun s =>
    okBytes ((List.range 18).flatMap (fun r => b2 (claimOf s r .s) ++ b2 (claimOf s r .b))) s) s

/-- RED_REJOIN begins: the half's domain is powered and its cox starts (R648). -/
def rejoinBegin (h : Half) (t : Stamp) (num : Nat) (s : State) : State :=
  onRed (fun r => { r with rejoin := some { half := h, tick := t, job := num, standby := false } })
    (modView h (fun v => { v with state := 0, impossible := false }) s)

/-- RED_REJOIN, 0x0F02 (R641, R648, R667). -/
def execRedRejoin (mb : Fin 8) (s : State) : Out :=
  call mb 0x0F02 epd 10 (fun p => need (decide (p8 p 0 ≤ 1)) (fun s =>
    let h := Half.ofCode (p8 p 0)
    let t := if tickOf (stampAt p 2) = 0 then s.tc.now + 40000 else stampAt p 2
    needClaim (!s.red.ext || (viewAt s h).gnt)
      (needState (decide ((viewAt s h).state = 3) && linkSound s && s.red.takeover.isNone)
        (need (aheadBy s 40000 t) (startJob 0x0F02 p (rejoinBegin h t)))) s)) s

/-- The place of the mirror's header in the running slot, and of its records (R664). -/
def mirrorHead : Nat := 0x7DF000
/-- The place of the mirror's records. -/
def mirrorArea : Nat := 0x7E0000

/-- A mirror's generation and records where it is valid (R664). -/
def mirrorOf (s : State) (cs : Nat) : Option (Nat × Nat × List Byte) :=
  let base := slotBase s.sys.image.slot
  let h := chipRead (chipOf s cs) (base + mirrorHead) 16
  let n := u32At h 8
  if h.take 4 ≠ ascii ['T', 'P', 'G', 'F'] ∨ 1024 < n then none
  else
    let rs := chipRead (chipOf s cs) (base + mirrorArea) (64 * n)
    if u32At h 12 = crc32c rs then some (u32At h 4, n, rs) else none

/-- The generation of the newest valid mirror; 0 with none. -/
def mirrorGen (s : State) : Nat := max ((mirrorOf s 0).map (·.1) |>.getD 0) ((mirrorOf s 1).map (·.1) |>.getD 0)

/-- The fault log is written to a chip select: the records, then the header (R664). -/
def writeMirror (cs gen : Nat) (s : State) : State :=
  let base := slotBase s.sys.image.slot
  let rs := (faultLog s).flatMap recBytes
  let head := ascii ['T', 'P', 'G', 'F'] ++ b4 (gen % 2 ^ 32) ++ b4 (faultLog s).length ++ b4 (crc32c rs)
  modChip cs (fun c => markSlot s.sys.image.slot false
    (chipWrite (base + mirrorHead) (padTo 4096 head) (chipWrite (base + mirrorArea) (padTo 65536 rs) c))) s

/-- FLOG_MIRROR, 0x0F09 (R664). -/
def execFlogMirror (mb : Fin 8) (s : State) : Out :=
  call mb 0x0F09 epd 0 (fun _ => needState (flashOk s && decide (s.sys.image.signedLen + 64 ≤ mirrorHead))
    (startJob 0x0F09 [] (fun _ s => s))) s

/-- FLOG_MIRROR_READ, 0x0F0A (R664, R667). -/
def execFlogMirrorRead (mb : Fin 8) (s : State) : Out :=
  call mb 0x0F0A epd 5 (fun p => need (decide (p8 p 0 ≤ 1 ∧ 1 ≤ p8 p 4 ∧ p8 p 4 ≤ 3)) (needState (flashOk s) (fun s =>
    match mirrorOf s (p8 p 0) with
    | some (gen, n, rs) =>
      okBytes (b4 gen ++ [1, 0, 0, 0] ++ bytesAt rs (64 * p16 p 2) (64 * min (p8 p 4) (n - p16 p 2))) s
    | none => okBytes (b4 0 ++ [0, 0, 0, 0]) s))) s

end Sys2Proof.Machine
end

