-- ==== Sys2Proof/Machine/System.lean ====
section
/-! DEFINITION. The meanings of the system calls 0x0100 to 0x010F, of a call that no row names, and of the ends of jobs
(chapter 02, R52, R55, R60 to R64, R698, R699). -/
namespace Sys2Proof.Machine

/-- The number of call codes of each subsystem, numbered from 0, and those marked pri (R59 and the chapters' tables). -/
def catalogue : Nat → Nat × List Nat
  | 0x01 => (16, [0, 1, 9])
  | 0x02 => (21, [19, 20])
  | 0x03 => (16, [0, 14])
  | 0x04 => (11, [0, 4])
  | 0x05 => (15, [0, 3, 8, 9])
  | 0x06 => (11, [0, 5, 9])
  | 0x07 => (18, [0, 5, 10])
  | 0x08 => (6, [0])
  | 0x09 => (18, [0, 14, 17])
  | 0x0A => (15, [0, 1])
  | 0x0B => (10, [0, 4])
  | 0x0C => (11, [0, 4, 5, 6])
  | 0x0D => (12, [0, 6, 8])
  | 0x0E => (7, [0, 1, 2, 3])
  | 0x0F => (13, [0, 3, 4, 6])
  | _ => (0, [])

/-- A call code is listed in a chapter, and allowed in the mailbox (R52, R53, R59). -/
def knownCall (n code : Nat) : Bool :=
  let c := catalogue (code / 256)
  decide (code % 256 < c.1) && (decide (2 ≤ n) || c.2.contains (code % 256))

/-- UNKNOWN_CALL (R52, R59). -/
def execUnknownCall (mb : Fin 8) (s : State) : Out :=
  let code := reqCode (mbAt s mb)
  event (!knownCall mb code && callReady mb code (fun _ => true) s) (fun s =>
    settle mb (checkCall mb code epdBhPri 0 (fun _ => refuse stBadCall) s)) s

/-- A call that is answered first and then takes effect (R60 SYS_RESET, R516). -/
def callThen (n code : Nat) (sel : List Byte → Bool) (a : Allowed) (len : Nat) (act : List Byte → State → Reply)
    (after : List Byte → State → State) (s : State) : Out :=
  event (callReady n code sel s) (fun s =>
    let p := params (mbAt s n)
    match checkCall n code a len act s with
    | .done st bs t => if st = stOk then after p (respond n st bs t) else respond n st bs t
    | .later t => settle n (.later t)) s

/-- SYS_NOP, 0x0100 (R60). -/
def execSysNop (mb : Fin 8) (s : State) : Out := call mb 0x0100 epdBhPri 0 (fun _ => ok) s

/-- SYS_IDENT, 0x0101 (R43, R60): the clock is that of the chip select the running image came from. -/
def execSysIdent (mb : Fin 8) (s : State) : Out :=
  call mb 0x0101 epdBhPri 0 (fun _ => fun s =>
    okBytes ((List.range 9).flatMap (fun k => b4 (identityWord s (4 * k))) ++ b8 s.sys.buildId.toNat
      ++ b2 (chipOf s s.sys.bootCs).clock) s) s

/-- SYS_RESET kind 0, 0x0102; also the answer to a kind that does not exist (R60, R700). -/
def execSysResetWarm (mb : Fin 8) (s : State) : Out :=
  callThen mb 0x0102 (fun p => decide (p8 p 0 ≠ 1 ∧ p8 p 0 ≠ 2)) epdBh 2
    (fun p => need (decide (p8 p 0 = 0 ∧ p8 p 1 = 0)) ok) (fun _ => warmReset) s

/-- A half's cox restarts from its boot ROM: the jobs it runs end failed (R64, R699). -/
def restartCox (h : Half) (s : State) : State :=
  let s := forAll ((runningJobs s).filter (fun j => decide (j.half = h))) (fun j => abandonJob j stHwFault 0x13) s
  onSys (fun x => { x with
    restarting := twoPut x.restarting h true, restartAt := twoPut x.restartAt h s.up, firmware := twoPut x.firmware h false, romReady := twoPut x.romReady h false
    halfOk := twoPut x.halfOk h false }) s

/-- The restart of a half may be carried out (R64): not in boot hold, not of a FAILED half, and of the lead only where the
other half is alive and the crosslink up. -/
def mayRestart (s : State) (h : Half) : Bool :=
  !s.sys.bootHold && decide ((viewAt s h).state ≠ 3) &&
    (decide (h ≠ lead s) || (alive s h.other && (viewAt s (lead s)).xlink))

/-- SYS_RESET kind 1, 0x0102 (R60, R64). -/
def execSysResetCox (mb : Fin 8) (s : State) : Out :=
  callThen mb 0x0102 (fun p => decide (p8 p 0 = 1)) epdBh 2
    (fun p => need (decide (p8 p 1 ≤ 1)) (fun s => needState (mayRestart s (Half.ofCode (p8 p 1))) ok s))
    (fun p s =>
      let h := Half.ofCode (p8 p 1)
      restartCox h (if lead s = h then moveLead h.other s else s)) s

/-- SYS_RESET kind 2, 0x0102 (R60, R64): in boot hold the boot restarts from step 4. -/
def execSysResetBoth (mb : Fin 8) (s : State) : Out :=
  callThen mb 0x0102 (fun p => decide (p8 p 0 = 2)) epdBh 2
    (fun p => need (decide (p8 p 1 = 0)) ok)
    (fun _ s => if s.sys.bootHold then warmReset s
      else forAll ([Half.s, Half.b].filter (fun h => decide ((viewAt s h).state ≠ 3))) restartCox s) s

/-- SYS_LEAD_SET, 0x0103 (R60). -/
def execSysLeadSet (mb : Fin 8) (s : State) : Out :=
  call mb 0x0103 epd 1 (fun p => need (decide (p8 p 0 ≤ 1)) (fun s =>
    let h := Half.ofCode (p8 p 0)
    needState (alive s h) (fun s => okBytes (b1 (lead s).code) (moveLead h s)) s)) s

/-- A boot record's 16 bytes (R701). -/
def bootRecBytes (r : BootRec) : List Byte :=
  b1 r.step ++ b1 r.result ++ b1 r.cs ++ b1 r.slot ++ b1 r.reason ++ [0, 0, 0] ++ b4 r.ms ++ b4 0

/-- SYS_BOOT_REPORT, 0x0104 (R60, R701). -/
def execSysBootReport (mb : Fin 8) (s : State) : Out :=
  call mb 0x0104 epdBh 1 (fun p => fun s =>
    let rs := (s.sys.report.drop (p8 p 0)).take 8
    okBytes (b1 rs.length ++ b1 s.sys.report.length ++ [0, 0] ++ rs.flatMap bootRecBytes) s) s

/-- SYS_FLASH_INFO, 0x0105 (R60, R83, R702): a chip select that the boot has not reached is negotiated first (R87, log 51). -/
def execSysFlashInfo (mb : Fin 8) (s : State) : Out :=
  call mb 0x0105 epdBh 1 (fun p => need (decide (p8 p 0 ≤ 1)) (needState (flashOk s) (fun s =>
    if wasNegotiated s (p8 p 0) then okBytes (flashInfo (chipOf s (p8 p 0))) s else .later s))) s

/-- SYS_SETTING_READ, 0x0106 (R60). -/
def execSysSettingRead (mb : Fin 8) (s : State) : Out :=
  call mb 0x0106 epd 4 (fun p => fun s => match tagValue s (p16 p 0) with
    | some v => okBytes (b2 v.length ++ (v.drop (p16 p 2)).take 224) s
    | none => refuse stBadParam s) s

/-- The inactive slot is about to be written: it is no longer verified (R62). -/
def touchInactive (s : State) : State :=
  let k := inactiveSlot s
  modChip 1 (markSlot k false) (modChip 0 (markSlot k false) s)

/-- SYS_SETTINGS_SAVE, 0x0107 (R60, R79, R83). -/
def execSysSettingsSave (mb : Fin 8) (s : State) : Out :=
  call mb 0x0107 epd 0 (fun _ => needState (flashOk s && s.sys.imageOk) (startJob 0x0107 [] (fun _ => touchInactive))) s

/-- A slot is committed on a chip select where it may be: the result byte, and the state (R62, R67, R68). Whether the device
takes the write is open (log 23). -/
def commitOn (slot cs : Nat) (s : State) : Byte × State :=
  if !bit (chipOf s cs).verified.toNat slot then (1, s)
  else
    let d := drawBool s
    if chipGone s cs || d.1 then (2, d.2) else (0, raise 21 [] (modChip cs (commitSlot slot) d.2))

/-- SYS_IMAGE_COMMIT, 0x0108 (R60, R62, R68). -/
def execSysImageCommit (mb : Fin 8) (s : State) : Out :=
  call mb 0x0108 epdBh 1 (fun p => need (decide (p8 p 0 ≤ 1)) (needState (flashOk s) (fun s =>
    let a := commitOn (p8 p 0) 0 s
    let b := commitOn (p8 p 0) 1 a.2
    okBytes [a.1, b.1] b.2))) s

/-- A job's entry: open, or among the last 16 that ended (R698). -/
def jobEntry (s : State) (n : Nat) : Option Job := (s.sys.jobs ++ s.sys.ended).find? (fun j => decide (j.num = n))

/-- SYS_JOB_STATUS, 0x0109 (R60, R698, R699): the percentage of a running job is open. -/
def execSysJobStatus (mb : Fin 8) (s : State) : Out :=
  call mb 0x0109 epdBhPri 2 (fun p => fun s => match jobEntry s (p16 p 0) with
    | none => refuse stBadParam s
    | some j =>
      let d := drawNat s
      let percent := if j.state = 0 then 0 else if j.state = 2 then 100 else d.1 % 101
      okBytes (b1 j.state ++ b1 percent ++ b1 j.status ++ b1 j.reason) (if j.state = 0 ∨ j.state = 2 then s else d.2)) s

/-- SYS_IMAGE_BEGIN, 0x010A (R60, R61, R83). -/
def execSysImageBegin (mb : Fin 8) (s : State) : Out :=
  call mb 0x010A epdBh 1 (fun p => need (decide (p8 p 0 ≤ 1)) (needState (flashOk s)
    (startJob 0x010A (p.take 1) (fun _ s => touchInactive (onSys (fun x => { x with imageOpen := false }) s))))) s

/-- SYS_IMAGE_DATA, 0x010B (R60, R61). -/
def execSysImageData (mb : Fin 8) (s : State) : Out :=
  call mb 0x010B epdBh 8 (fun p =>
    let n := p16 p 4
    let d := bytesAt p 8 n
    need (decide (1 ≤ n ∧ n ≤ 224 ∧ 8 + n ≤ p.length ∧ p32 p 0 + n ≤ 0x7F0000)) (needState (flashOk s && s.sys.imageOpen) (fun s =>
      let at_ := slotBase (inactiveSlot s) + p32 p 0
      ok (modChip 1 (chipWrite at_ d) (modChip 0 (chipWrite at_ d) (touchInactive s)))))) s

/-- SYS_IMAGE_VERIFY, 0x010C (R60, R73, R83). -/
def execSysImageVerify (mb : Fin 8) (s : State) : Out :=
  call mb 0x010C epdBh 0 (fun _ => needState (flashOk s) (startJob 0x010C [] (fun _ s => s))) s

/-- SYS_ROLLBACK_ADVANCE, 0x010D (R60, R63, R74). -/
def execSysRollbackAdvance (mb : Fin 8) (s : State) : Out :=
  call mb 0x010D epd 1 (fun p => needState (!inManufacture s)
    (need (decide (s.sys.rbCount ≤ p8 p 0 ∧ p8 p 0 ≤ s.sys.image.rbVersion)) (fun s =>
      okBytes (b1 (p8 p 0)) (onSys (fun x => { x with rbCount := p8 p 0 }) s)))) s

/-- The confirm word of the fuse calls (R60). -/
def confirmWord (s : State) : Nat := (s.sys.serial.toNat % 2 ^ 32) ^^^ 0x5A5A5A5A

/-- The lifecycle state after another (R89); none after DECOMMISSIONED. -/
def nextLc : Nat → Option Nat
  | 0b0001 => some 0b0011
  | 0b0011 => some 0b0111
  | 0b0111 => some 0b1111
  | _ => none

/-- SYS_LIFECYCLE_ADVANCE, 0x010E (R60, R63, R89, R90). -/
def execSysLifecycleAdvance (mb : Fin 8) (s : State) : Out :=
  call mb 0x010E epdBh 5 (fun p => need (decide (p32 p 1 = confirmWord s ∧ nextLc s.sys.lc.toNat = some (p8 p 0)))
    (needState (decide (p8 p 0 ≠ 0b0011) || (tget none s.sys.keyHash 0).isSome || (tget none s.sys.keyHash 1).isSome) (fun s =>
      okBytes (b1 (p8 p 0)) (onSys (fun x => { x with lc := BitVec.ofNat 4 (p8 p 0) }) s)))) s

/-- SYS_KEY_REVOKE, 0x010F (R60, R63). -/
def execSysKeyRevoke (mb : Fin 8) (s : State) : Out :=
  call mb 0x010F epd 5 (fun p => need (decide (p8 p 0 ≤ 1 ∧ p32 p 1 = confirmWord s))
    (needState (decide (p8 p 0 ≠ s.sys.image.keySlot)) (fun s =>
      let v := s.sys.keyRevoked ||| BitVec.ofNat 2 (2 ^ p8 p 0)
      okBytes (b1 v.toNat) (onSys (fun x => { x with keyRevoked := v }) s)))) s

/-- The blocks a scan job runs on. -/
def jobBlocks (s : State) (num : Nat) : List Nat := (List.range 256).filter (fun k => decide ((blockAt s k).scan = some num))

/-- The pixels of a block. -/
def blockPixels (k : Nat) : List Nat := (List.range 4096).map (counterPix k)

/-- The pulses that fired at a point of a sweep; none where the outcome lists none. -/
def firedAt (vs : List (Nat × Int)) (i : Nat) : Nat := ((vs.find? (fun v => decide (v.1 = i))).map (·.2.toNat)).getD 0

/-- The bisection of a trim over the counts of its points (chapter 03, Thresholds and trim): n pulses each. -/
def trimSearch (n : Nat) : List Nat → Nat → Nat → Nat
  | [], lo, _ => lo
  | c :: r, lo, hi => if n < 2 * c then trimSearch n r ((lo + hi) / 2 + 1) hi else trimSearch n r lo ((lo + hi) / 2)

/-- The trim of a pixel from its five counts, by 8 pixel + point. -/
def trimFound (n : Nat) (vs : List (Nat × Int)) (pix : Nat) : Nat := trimSearch n ((List.range 5).map (fun i => firedAt vs (8 * pix + i))) 0 31

/-- FE_TRIM_RUN ends: the trims found are in the configuration, all else as before (R109). -/
def trimDone (j : Job) (vs : List (Nat × Int)) (s : State) : State :=
  let found := ((jobBlocks s j.num).flatMap blockPixels).map (fun p => (p, trimFound (u16At j.params 4) vs p))
  let s := writePixels (fun t => found.foldl (fun t e => tmod 0x10 e.1 (fun b => (b &&& 0xE0) ||| BitVec.ofNat 8 e.2) t) t) s
  raiseIf (found.any (fun e => decide (e.2 = 0 ∨ e.2 = 31))) 74 [] s

/-- The fit of a pixel's S-curve from the counts of its points, by 64 pixel + point (R115): threshold and noise. -/
def scurveFit (par : List Byte) (vs : List (Nat × Int)) (pix : Nat) : Nat × Nat :=
  let pts := (List.range (byteAt par 6)).map (fun i => (5486 * (u16At par 2 + i * u16At par 4), firedAt vs (64 * pix + i)))
  let r := Config.erfFit pts (u16At par 7)
  (r.1 % 65536, r.2 % 65536)

/-- FE_SCURVE ends: threshold and noise of every pixel (R115). -/
def scurveDone (j : Job) (vs : List (Nat × Int)) (s : State) : State :=
  let pix := (jobBlocks s j.num).flatMap blockPixels
  onFe (fun x => { x with
    scanJob := j.num, scanRes := pix.foldl (fun t p => tput (0, 0) p (scurveFit j.params vs p) t) [] }) s

/-- The result of the bump test of a pixel (R116): the S-curve's points in per cent fired, by 64 pixel + point, and the most
that an edge neighbour fired in 100 steps of four thresholds. Where several rows hold, the order is that of log 39. -/
def bumpCode (s : State) (vs : List (Nat × Int)) (ns : List (Nat × Nat)) (pix : Nat) : Nat :=
  let fired := (List.range 64).map (fun i => firedAt vs (64 * pix + i))
  let thr : Int := 6 * dacOf (blockAt s (pixBlock pix)).gold 0 + 9 * (((tget 0x10 s.fe.goldPixel pix).toNat % 32 : Nat) - 16 : Int)
  if hostMasked s pix ∨ (crabOf s pix).isSome ∨ blockMode s (pixBlock pix) = 0 then 3
  else if (fired.filter (fun c => decide (10 ≤ c ∧ c ≤ 90))).length < 3 then 4
  else if 90 ≤ ((ns.find? (fun v => decide (v.1 = pix))).map (·.2)).getD 0 then 2
  else if Config.bumpSigma thr fired < 10 * cfg16 s 0x0209 0 then 1
  else 0

/-- FE_BUMP_TEST ends: one result for each pixel; EV_073 with an OPEN or MERGED one (R116, R117). -/
def bumpDone (j : Job) (vs : List (Nat × Int)) (ns : List (Nat × Nat)) (s : State) : State :=
  let found := ((jobBlocks s j.num).flatMap blockPixels).map (fun p => (p, bumpCode s vs ns p))
  let s := onFe (fun x => { x with bump := found.foldl (fun t e => tput 3 e.1 e.2 t) x.bump }) s
  raiseIf (found.any (fun e => decide (e.2 = 1 ∨ e.2 = 2))) 73 [] s

/-- FE_CHARGE_CAL ends: entries 0 to 31 of HG_b and entry 32, GR_b, by 33 b + i; the engines use them from the next tick
(R133). -/
def chargeDone (j : Job) (vs : List (Nat × Int)) (s : State) : State :=
  forAll (jobBlocks s j.num) (fun k s =>
    let new := (vs.filter (fun v => decide (v.1 / 33 = k))).foldl (fun t v => t.set (v.1 % 33) (clampInt 0 0xFFFF v.2).toNat) (chargeRecord s k)
    modBlock k (fun x => { x with charge := chargeNow s k, chargeNew := some (new, s.tc.now + 1) }) s) s

/-- A time relative to that of the 11.0 ke- point, held in an entry (R183). -/
def walkEntry (v ref : Int) : Nat := (clampInt 0 0xFFFF (v - ref)).toNat

/-- WSW below the first measured entry, extrapolated from the two smallest measured (R183). -/
def wswBelow (m : List (Nat × Int)) (i : Nat) : Option Int :=
  match m with
  | (a, x) :: (b, y) :: _ => if i < a then some (x - divRound ((y - x) * ((a - i : Nat) : Int)) (b - a)) else none
  | _ => none

/-- The entries of WSW that a block's walk calibration measured, in order: the mean arrival times from 16,384 by 16 k + i. -/
def wswMeasured (vs : List (Nat × Int)) (k : Nat) : List (Nat × Int) :=
  (List.range 16).filterMap (fun i => (vs.find? (fun v => decide (v.1 = 16384 + 16 * k + i))).map (fun v => (i, v.2)))

/-- TM_WALK_CAL ends for a block (R183): its mean arrival times in 0.1 ps at the knots of WLK, by 64 k + i, at the measured
SW_TIMEs, and at the 11.0 ke- point, by 20,480 + k. -/
def walkBlock (vs : List (Nat × Int)) (k : Nat) (s : State) : State :=
  let at_ (i : Nat) : Option Int := (vs.find? (fun v => decide (v.1 = i))).map (·.2)
  let ref := (at_ (20480 + k)).getD 0
  let m := wswMeasured vs k
  let wsw (i : Nat) : Option Int := (wswBelow m i).or (at_ (16384 + 16 * k + i))
  let put (t : Table Nat) (i : Nat) (v : Option Int) : Table Nat := match v with
    | some v => tput 0 i (walkEntry v ref) t
    | none => t
  onTm (fun x => { x with
    wlk := (List.range 64).foldl (fun t i => put t (64 * k + i) (at_ (64 * k + i))) x.wlk
    wsw := (List.range 16).foldl (fun t i => put t (16 * k + i) (wsw i)) x.wsw
    walkFirst := tput none k (m.head?.map (·.1)) x.walkFirst }) s

/-- TM_WALK_CAL ends (R183). -/
def walkDone (j : Job) (vs : List (Nat × Int)) (s : State) : State :=
  forAll (scanBlocks (byteAt j.params 0) (byteAt j.params 1)) (walkBlock vs) s

/-- A chip select's write of a job has succeeded. -/
def csWritten (s : State) (out : JobOutcome) (cs : Nat) : Bool := !chipGone s cs && bit out.cs.toNat cs

/-- SYS_SETTINGS_SAVE ends (R62, R68, R79, R699). -/
def saveDone (num : Nat) (out : JobOutcome) (s : State) : State :=
  let image := runningBytes s 0 (s.sys.image.signedLen + 64)
  let block := makeBlock s
  let good := csWritten s out
  let s := forAll [0, 1] (fun cs s => if good cs then writeSave image block cs s else writeFailed cs s) s
  writeJobEnds num good s

/-- SYS_IMAGE_BEGIN ends (R61, R68, R699). -/
def beginDone (j : Job) (out : JobOutcome) (s : State) : State :=
  let good := csWritten s out
  let keep := decide (byteAt j.params 0 = 1) && s.sys.imageOk
  let s := forAll [0, 1] (fun cs s => if good cs then writeErase keep cs s else writeFailed cs s) s
  writeJobEnds j.num good (onSys (fun x => { x with imageOpen := good 0 || good 1 }) s)

/-- SYS_IMAGE_VERIFY ends: the checks of R73 on the inactive slot of both chip selects (R62, R699). -/
def verifyDone (num : Nat) (out : JobOutcome) (s : State) : State :=
  let k := inactiveSlot s
  let code (cs : Nat) : Nat := imageCheck s cs k (bit out.cs.toNat cs)
  let c0 := code 0
  let c1 := code 1
  let s := modChip 1 (markSlot k (decide (c1 = 0))) (modChip 0 (markSlot k (decide (c0 = 0))) s)
  if c0 = 0 ∧ c1 = 0 then jobDone num s
  else if c0 = 0 then endJob num 2 stOk 0x22 s
  else if c1 = 0 then endJob num 2 stOk 0x21 s
  else endJob num 3 stBadParam c0 s

/-- MEM_TRAIN ends (R349). -/
def trainDone (num : Nat) (out : JobOutcome) (s : State) : State :=
  let s := trained (BitVec.ofNat 16 out.mask) s
  let s := lossEvalAll s
  if (BitVec.ofNat 16 out.mask) = 0xFFFF then jobDone num s else jobFail num s

/-- A range scrub ends with every valid page of its range visited: its summary's duration and the invalid pages it skipped
(R380, R381). -/
def scrubDone (j : Job) (s : State) : State :=
  let r := scrubRange s j.params
  jobDone j.num (onBb (fun x => { x with
    ranges := tmod none j.num (fun y => y.map (fun y => { y with
      duration := (stampDiff s.tc.now y.start).toNat / 40000, skipped := r.2 - r.1 - y.pages })) x.ranges }) s)

/-- FLOG_MIRROR ends (R664). -/
def mirrorDone (num : Nat) (out : JobOutcome) (s : State) : State :=
  let gen := mirrorGen s + 1
  let s := forAll ([0, 1].filter (csWritten s out)) (fun cs => writeMirror cs gen) s
  if out.ok then jobDone num (raise 610 [] s) else jobFail num (raise 611 [] s)

/-- What the end of a scan or calibration job does (R109, R115, R117, R133, R183): its results where it succeeded, its
blocks released (R124). -/
def scanDone (j : Job) (out : JobOutcome) (s : State) : State :=
  let n := j.num
  let s := if !out.ok then s
    else match j.code with
      | 0x0206 => trimDone j out.values s
      | 0x0207 => scurveDone j out.values s
      | 0x0209 => bumpDone j out.values out.second s
      | 0x0210 => chargeDone j out.values s
      | _ => walkDone j out.values s
  let s := scanRelease n s
  if out.ok then jobDone n s else jobFail n s

/-- The ticks over which TM_SKEW_CAL accumulates have passed (R184). -/
def skewReach (num : Nat) (s : State) : State :=
  match s.tm.skewRuns.find? (fun r => decide (r.job = num)) with
  | some r => reachTick r.last s
  | none => s

/-- The work of a job ends, by its call code; the other jobs end by events of their own chapters. -/
def finishJob (j : Job) (out : JobOutcome) (s : State) : State :=
  match j.code with
  | 0x0107 => saveDone j.num out s
  | 0x010A => beginDone j out s
  | 0x010C => verifyDone j.num out s
  | 0x0206 | 0x0207 | 0x0209 | 0x0210 | 0x030A => scanDone j out s
  | 0x030B => if out.ok then jobDone j.num (skewFinish j.num (skewReach j.num s)) else jobFail j.num (skewFinish j.num s)
  | 0x070C => if (rangeLine s j).isNone then scrubDone j s else s
  | 0x0D01 => discoverEnds j.num out s
  | 0x0711 => trainDone j.num out s
  | 0x0F02 => if out.ok then s else rejoinFails false s
  | 0x0F09 => mirrorDone j.num out s
  | _ => s

/-- JOB_COMPLETE (R55, R698, R699); as job 0 the discovery that the boot or the wake has begun (R575, log 35). -/
def execJobComplete (job : Nat) (out : JobOutcome) (s : State) : Out :=
  match openJob s job with
  | some j => event (decide (j.state = 1)) (finishJob j out) s
  | none => event (decide (job = 0)) (discoverEnds 0 out) s

/-- The job calls of the LOW class (R525), and the range scrub (R380). -/
def lowCodes : List Nat := [0x0206, 0x0207, 0x0209, 0x0210, 0x0302, 0x030A, 0x030B, 0x070C, 0x0711]

/-- A deferred job's work begins (R526); a scan job outside PADDLE and DRIVE ends as R145 has it. -/
def beginJob (j : Job) (s : State) : State :=
  let s := onSys (fun x => { x with jobs := x.jobs.map (fun k =>
    if k.num = j.num then { k with state := 1, half := x.lead } else k) }) s
  match j.code with
  | 0x0302 => calRunBegin j.params j.num s
  | 0x030B => skewBegin j.params j.num s
  | 0x070C => scrubBegin j.num s
  | 0x0711 => s
  | _ =>
    if !busyState s then endJob j.num 3 stState 0x10 s
    else if j.code = 0x030A then s
    else scanBegin j.code j.params j.num s

/-- A deferred LOW job starts with the first governor evaluation at or after its expected start at which step 1 is not
engaged (R526). -/
def execJobDeferredStart (job : Nat) (s : State) : Out :=
  match openJob s job with
  | some j => event (decide (j.state = 0) && lowCodes.contains j.code && decide (0 ≤ tickAfter s.pw.evalTick j.start) && !lowDeferred s && awake s)
      (beginJob j) s
  | none => event false id s

end Sys2Proof.Machine
end

