-- ==== Sys2Proof/Machine/Boot.lean ====
section
/-! DEFINITION. The commands of the boot and of a cox's restart (R39, R64, R80 to R87, R349, R650). -/
namespace Sys2Proof.Machine

/-- The boot may go on: power-on reset is over, it is no production test, the rails are up, the boot has not stopped or
ended (R80, R82, R85, R91, R675). -/
def booting (s : State) : Bool :=
  !s.sys.por && !s.sys.testMode && s.seq.up && decide (s.sys.power = .boot) && !s.sys.bootHold && !s.sys.noCox

/-- PD_0 runs: the window is readable (R80 step 2, R696). -/
def execPd0Running (s : State) : Out :=
  event (!s.sys.por && !s.sys.testMode && decide (s.sys.bootStep = 1)) (onSys (fun x => { x with bootStep := 2, windowReady := true, bootResult := 1 })) s

/-- The half that BOOT_SEL names leads; with that half FAILED the other one (R80 step 4, R82, R700). -/
def bootLead (s : State) : Half :=
  let h := if s.sys.bootSel = 1 then Half.b else Half.s
  if (viewAt s h).state = 3 then h.other else h

/-- Both coxes run their boot ROMs (R80 step 4). -/
def execCoxBootRomStart (s : State) : Out :=
  event (booting s && s.sf.started && decide (s.sys.bootStep = 3)) (fun s =>
    onSys (fun x => { x with bootStep := 4, step4At := s.up, lead := bootLead s, romReady := ⟨false, false⟩, firmware := ⟨false, false⟩, halfOk := ⟨false, false⟩ }) s) s

/-- The lead's boot ROM reads no flash with LC = DECOMMISSIONED or with BOOT_SEL 0b10: boot hold (R82, R85). -/
def leadReady (s : State) : State :=
  if s.sys.bootStep ≠ 4 then s
  else if s.sys.lc = 0b1111 then enterBootHold 0x13 s
  else if s.sys.bootSel = 2 then enterBootHold 0x12 s
  else s

/-- A half is in a rejoin (R648). -/
def rejoining (s : State) (h : Half) : Bool := decide ((s.red.rejoin.map (·.half)) = some h)

/-- A half is back after a restart or a rejoin, not in a boot (R64, R648). -/
def returning (s : State) (h : Half) : Bool := twoGet s.sys.restarting h || rejoining s h

/-- A cox reports ROM-ready over the crosslink (R85): in a boot the lead goes on with it, and a cox that is late for an
accepted image starts its firmware. -/
def execCoxRomReady (h : Half) (s : State) : Out :=
  event (decide ((viewAt s h).state ≠ 3) && (returning s h || (booting s && decide (4 ≤ s.sys.bootStep)))
      && !twoGet s.sys.firmware h) (fun s =>
    let s := onSys (fun x => { x with romReady := twoPut x.romReady h true, halfOk := twoPut x.halfOk h true }) s
    if returning s h then s
    else if s.sys.imageOk then startFirmware h s
    else if lead s = h then leadReady s
    else s) s

/-- The halves that have not reported ROM-ready. -/
def romLate (s : State) : List Half :=
  [Half.s, Half.b].filter (fun h => decide ((viewAt s h).state ≠ 3) && !twoGet s.sys.romReady h)

/-- A half is without ROM-ready 50 ms after step 4 (R85). -/
def romFails (h : Half) (s : State) : State :=
  if lead s = h then leadReady (failBootLead h s) else halfOff h (markFailed h s)

/-- 50 ms have passed since step 4 (R85): without any ROM-ready the boot stops. -/
def execBootRomReadyTimeout (s : State) : Out :=
  event (booting s && decide (4 ≤ s.sys.bootStep)) (fun s =>
    let s := reachUp (s.sys.step4At + ms 50) s
    if !(twoGet s.sys.romReady .s) && !(twoGet s.sys.romReady .b) then stopBoot s else forAll (romLate s) romFails s) s

/-- The lead's boot ROM looks for an image. -/
def seeking (s : State) : Bool :=
  booting s && decide (4 ≤ s.sys.bootStep) && twoGet s.sys.romReady (lead s) && !s.sys.imageOk

/-- The read mode of a chip select is negotiated (R80 step 5, R85, R87): in the boot in its turn; one that the boot has not
reached, once calls are served and its flash can be reached (log 51). -/
def execFlashNegotiation (cs : Fin 2) (probe : FlashProbe) (s : State) : Out :=
  event (!wasNegotiated s cs && ((seeking s && decide (csTurn s = some cs.val)) || (serving s && flashOk s))) (fun s =>
    if seeking s then bootNegotiate cs probe s else answerFlashInfo cs (negotiate cs probe s)) s

/-- An image has been loaded and is checked (R73, R80 steps 6 and 7, R85). -/
def execBootImageCheck (cs slot : Fin 2) (readOk : Bool) (s : State) : Out :=
  event (seeking s && decide (csTurn s = some cs.val ∧ slotTurn s cs = some slot.val) && wasNegotiated s cs)
    (tryImage cs slot readOk) s

/-- Boot step 8: the settings are applied and the hardware configured (R76, R77, R80, R83). -/
def execSettingsApply (s : State) : Out :=
  event (booting s && s.sys.imageOk && !s.sys.settingsDone && twoGet s.sys.firmware (lead s)) (fun s =>
    let s := configure (applySettings s)
    leadSetting (onSys (fun x => { x with settingsDone := true, bootStep := 8 }) s)) s

/-- Memory training ends (R349, R364, R700): after a warm reset each queue that held data starts with its loss frame. -/
def execMemTrainingDone (okMask : BitVec 16) (s : State) : Out :=
  event (booting s && s.sys.settingsDone && !s.sys.memTrained) (fun s =>
    let s := onBb (fun x => { x with selfRefresh := false }) (trained okMask s)
    let s := if s.sys.warmBoot then forAll (List.range 16) discardQueue s else s
    lossEvalAll (onSys (fun x => { x with memTrained := true }) (updateQueues s))) s

/-- Boot step 9: the time core runs with the selected reference, and the links begin to negotiate (R80, R424). After a warm
reset the core keeps counting (R700). Step 8 lasts until the trim of FE_AUTOTRIM has ended (R141). -/
def execTimeCoreStart (s : State) : Out :=
  event (booting s && s.sys.settingsDone && decide (s.sys.bootStep = 8) && !s.sys.jobs.any (fun j => decide (j.code = 0x0206))) (fun s =>
    let s := freqRefresh (startMonitors (onTc (fun x => { x with strobe := true }) s))
    lkPowerUp (onSys (fun x => { x with bootStep := 10, linkWaitAt := s.up }) s)) s

/-- BOOT_LINK_WAIT has passed (R80 step 10). -/
def execBootLinkWaitExpiry (s : State) : Out :=
  event (booting s && decide (s.sys.bootStep = 10)) (fun s =>
    onSys (fun x => { x with linkWaitOver := true }) (reachUp (s.sys.linkWaitAt + ms (cfg16 s 0x0102 0)) s)) s

/-- Every enabled lane is RUNNING (R80 step 10). -/
def lanesUp (s : State) : Bool := (List.range 4).all (fun g => match groupMode s g with
  | 0 => true
  | 1 => (groupLanes g).all (fun l => decide ((laneAt s l).state = .running))
  | _ => (groupAt s g).running)

/-- The boot ends in EASY (R80 step 11, R81, R697). -/
def execBootEnterEasy (s : State) : Out :=
  event (booting s && decide (s.sys.bootStep = 10) && s.sys.memTrained && (s.sys.linkWaitOver || lanesUp s)) (fun s =>
    let s := pwAccount s
    let s := onSys (fun x => { x with bootStep := 11, power := .easy, bootResult := if x.settingsBad then 0x20 else 0 }) s
    startEasy (raise 0 [] s)) s

/-- A cox has its firmware back after a restart (R64), or in a rejoin, in which its half becomes STANDBY (R648). -/
def execCoxFirmwareReloaded (h : Half) (s : State) : Out :=
  event (returning s h) (fun s =>
    let s := onSys (fun x => { x with
      firmware := twoPut x.firmware h true, halfOk := twoPut x.halfOk h true, romReady := twoPut x.romReady h true
      restarting := twoPut x.restarting h false }) s
    if rejoining s h then
      modView h (fun v => { v with state := 2 }) (onRed (fun r => { r with rejoin := r.rejoin.map (fun j => { j with standby := true }) }) s)
    else s) s

/-- A restarted cox has no firmware after 50 ms (R64). -/
def execCoxRestartTimeout (h : Half) (s : State) : Out :=
  event (twoGet s.sys.restarting h) (fun s => failHalf h (reachUp (twoGet s.sys.restartAt h + ms 50) s)) s

/-- A cox's memories are scrubbed (R39), whether it runs its firmware or its boot ROM: a corrected error raises EV_018; an uncorrectable one raises EV_019 and restarts the
cox, which the arbiter treats as a failure of the half. -/
def execCoxMemScrub (h : Half) (corrected uncorrectable : Bool) (s : State) : Out :=
  event (twoGet s.sys.firmware h || twoGet s.sys.romReady h) (fun s =>
    let s := if corrected then raiseBy h 18 [] s else s
    if uncorrectable then
      declareFailed h (restartCox h (raiseBy h 19 [] s))
    else s) s

/-- A half has not answered within 50 ms of a wake (R650): handled as at boot (R85). -/
def execWakeHalfAnswerTimeout (h : Half) (s : State) : Out :=
  event (!s.sys.por && twoGet s.sys.firmware h && (viewAt s h).answer.isNone && decide ((viewAt s h).state ≠ 3)
    && s.pw.wokeAt.isSome) (fun s => failHalf h (reachUp (s.pw.wokeAt.getD 0 + ms 50) s)) s

end Sys2Proof.Machine
end

