-- ==== Sys2Proof/Machine/HitPath.lean ====
section
/-! DEFINITION. The hit-path commands (chapter 05): what arrives from the block ports, the closing of clusters, the
reorder stages, the merging at tile edges and the calls. -/
namespace Sys2Proof.Machine

/-- A port's next frame is taken; hits count towards the next WATERMARK (R203). -/
def popPort (block : Nat) (hit : Bool) (s : State) : State :=
  modBlock block (fun x => { x with port := x.port.drop 1, sinceMark := if hit then x.sinceMark + 1 else x.sinceMark }) s

/-- What the engine records of a hit as it arrives: the DM it brings or lacks, and the statistics (R191, R194, R199, R200,
R247). -/
def countHit (n block : Nat) (f : HitFrame) (h : Hit) (sub : Bool) (s : State) : State :=
  let s := if f.ext && f.dmValid then
      onHp (fun x => { x with lastDm := tput none block (some (f.dm, s.tc.now)) x.lastDm }) s
    else s
  let s := if sub then raise 204 [] (onTm (fun x => { x with
      dmMask := tput 0 block (tget 0 x.dmMask block ||| BitVec.ofNat 4 (2 ^ f.band)) x.dmMask }) s) else s
  let s := onPw (fun x => { x with winHits := x.winHits + 1 }) s
  let s := tmStat block 0 s
  let s := when h.extrap (tmStat block 1) s
  let s := when f.bridged (tmStat block 2) s
  let s := hpStat n 0 s
  let s := when h.untimed (hpStat n 1) s
  let s := when f.second (hpStat n 2) s
  let s := modEngine n (fun x => { x with recent := s.up :: x.recent.filter (fun t => decide (s.up < t + ms 1000)) }) s
  let s := when (!h.untimed) (countBin block f.n) s
  when h.extrap (bandMissed block f.band) s

/-- A diverted test-pulse hit enters the lead cox's buffer (R245). -/
def divertHit (h : Hit) (s : State) : State :=
  let first := (s.fe.lastTp.map (·.1)).getD 0
  let off := (stampDiff h.tick first % 65536).toNat
  if 16384 ≤ s.hp.tpBuf.length then
    if s.hp.tpFull then s else raise 203 [] (onHp (fun x => { x with tpFull := true }) s)
  else onHp (fun x => { x with tpBuf := x.tpBuf ++ [BitVec.ofNat 64 (hitWord h + off * 2 ^ 28)] }) s

/-- A converted hit goes on: to the test-pulse buffer, nowhere for a retested crab or a block being trimmed, else as a hit
record and into its cluster (R109, R130, R212, R218, R245). -/
def forwardHit (n block : Nat) (tp : Bool) (h : Hit) (s : State) : State :=
  if tp then divertHit h s
  else if crabTesting s (1024 * h.row + h.col) || scanRuns s block 0x0206 then s
  else
    let s := skewAdd block h s
    let s := if outputOf s n = 0 then s else
      offer { row := block / 16, engine := n, tick := h.tick, fine := h.fine, body := .words 1 [hitWord h], due := reorderDue s } s
    joinHit n h s

/-- A hit is processed by its engine, or waits in its input buffer while the processing is stalled or others wait there
(R242). -/
def takeHit (n : Nat) (e : Nat × Bool × Hit) (s : State) : State :=
  if engineStalled s n || !(engineAt s n).inBuf.isEmpty then modEngine n (fun x => { x with inBuf := x.inBuf ++ [e] }) s
  else forwardHit n e.1 e.2.1 e.2.2 s

/-- The hits in an engine's input buffer are processed in order, as far as no stall stops it (R242). -/
def drainInBuf (n : Nat) (s : State) : State :=
  if engineStalled s n then s
  else forAll (engineAt s n).inBuf (takeHit n) (modEngine n (fun x => { x with inBuf := [] }) s)

/-- The first WLK entry and the number of entries that the walk of a ToT reads (R180). -/
def walkEntries (k tot : Nat) : List TableEntry :=
  if 560 ≤ tot then [.wlk (64 * k + 63)]
  else
    let i := if tot < 64 then tot / 2 else 32 + (tot - 64) / 16
    [.wlk (64 * k + i), .wlk (64 * k + i + 1)]

/-- The table entries that the conversion of a hit reads (R155, R174, R176, R180, R181). -/
def entriesRead (s : State) (k sp : Nat) (f : HitFrame) : List TableEntry :=
  let p := period s sp k f.band (hitDroop s k f)
  (if needsPeriod f then
    .per (4 * sp + f.band) :: (match nearBand s sp f.band with
      | some y => (if y = f.band then [] else [.per (4 * sp + y), .v (4 * k + y)]) ++ [.tcal (4 * k + y), .tc k]
      | none => [])
   else [])
  ++ (if f.n = 0 then []
      else .skew sp :: .inl (128 * k + f.n % 128)
        :: (if f.range then [.wsw (16 * k + min (switchTime f p) 15)] else walkEntries k (hitTot f p)))

/-- A table entry is set to 0; a PER entry that is lost makes its band one that may be missed anew (R177, R179). -/
def zeroEntry (e : TableEntry) (s : State) : State :=
  onTm (fun x => match e with
    | .per i => { x with
        per := tput 0 i 0 x.per
        missed := tmod 0 (spBlock (i / 4)) (fun m => m &&& ~~~(BitVec.ofNat 4 (2 ^ (i % 4)))) x.missed }
    | .skew i => { x with skew := tput 0 i 0 x.skew }
    | .wlk i => { x with wlk := tput 0 i 0 x.wlk }
    | .wsw i => { x with wsw := tput 0 i 0 x.wsw }
    | .inl i => { x with inl := tput 0 i 0 x.inl }
    | .tc k => { x with tc := tput 0 k 0 x.tc }
    | .tcal i => { x with tcal := tput 0 i 0 x.tcal }
    | .v i => { x with v := tput 0 i 0 x.v }) s

/-- The ECC check of an entry that a conversion reads: corrected with EV_136, or set to 0 with EV_137 (R179). -/
def checkEntry (k sp : Nat) (f : HitFrame) (c : TableCheck) (s : State) : State :=
  if !(entriesRead s k sp f).contains c.entry then s
  else if c.lost then raise 137 [] (zeroEntry c.entry s) else raise 136 [] s

/-- A hit that the engine itself drops while its processing is stalled: cause 5 and EV_196 (R238, R239, R242, log 41). -/
def dropHit (block : Nat) (f : HitFrame) (s : State) : State :=
  let row := block / 16
  let t := (convert s block f).tick
  let s := hpStat (engineOf s row) 0 s
  offerLoss row (engineOf s row) { cause := 5, unit := 0, source := row, count := 1, first := t, last := t } (raise 196 [] s)

/-- A hit frame read from its port is converted with the tables' entries as their ECC checks leave them, and goes on to its
cluster engine (R152, R155, R179, R200, R212). -/
def hearHit (n block : Nat) (f : HitFrame) (ecc : List TableCheck) (s : State) : State :=
  let sp := spOf (64 * (block / 16) + f.prow) (64 * (block % 16) + f.pcol)
  let s := forAll ecc (checkEntry block sp f) s
  let h := convert s block f
  takeHit n (block, f.tp, h) (countHit n block f h (substituted s sp f) s)

/-- The moment before which a frame of a block cannot be read: its stop edge, and the tick on which a block that was ordered
to resume framing does so (R196, R207). -/
def portReach (block : Nat) (stop : Option Stamp) (s : State) : State :=
  let s := match stop with
    | some t => reachTick t s
    | none => s
  match (blockAt s block).reframe with
  | some t => reachTick t s
  | none => s

/-- A block's port passes a frame on: it is not held, and its engine has room (R237, R242). -/
def portOpen (s : State) (block : Nat) : Bool := awake s && !(blockAt s block).held && !inBufFull s (block / 16)

/-- A HIT frame reaches its cluster engine (R152, R155, R179, R194 to R200, R203, R237, R242, R245, R513). -/
def execHitFrameReceived (block : Nat) (ecc : List TableCheck) (drop : Bool) (s : State) : Out :=
  let n := engineOf s (block / 16)
  let s0 := drainInBuf n s
  match (blockAt s0 block).port with
  | .hit f :: _ => event (portOpen s0 block && (decide ((blockAt s0 block).sinceMark < 64) || unlimited s0 block)
      && (!drop || engineStalled s0 n)) (fun _ =>
      let s := wakeEngine n (portReach block (some f.stop) s0)
      let f := heardHit (leaving s block f)
      let s := crabSeen (1024 * (64 * (block / 16) + f.prow) + 64 * (block % 16) + f.pcol) 1 (popPort block true s)
      if drop then dropHit block f s else hearHit n block f ecc s) s
  | _ => .next s

/-- A WATERMARK reaches its engine (R152, R203, R214). -/
def execWatermarkReceived (block : Nat) (s : State) : Out :=
  match (blockAt s block).port with
  | .control 1 _ w _ _ :: _ => event (portOpen s block) (fun s =>
      let s := portReach block none s
      let t := extendTick s (field ((controlWords 1 0 w 0 0).getD 1 0) 15 0)
      popPort block false (onHp (fun x => { x with mark := tput none block (some t) x.mark }) s)) s
  | _ => .next s

/-- A PORT_LOSS frame makes a loss record, but for a block being trimmed (R109, R239, R240, R242). -/
def execPortLossReceived (block : Nat) (s : State) : Out :=
  match (blockAt s block).port with
  | .control 4 cause n a b :: _ => event (portOpen s block) (fun s =>
      let s := popPort block false (portReach block none s)
      let s := raiseIf (decide (cause = 3)) 194 [] s
      let s := raiseIf (decide (cause = 4)) 195 [] s
      if scanRuns s block 0x0206 then s
      else offerLoss (block / 16) (engineOf s (block / 16))
        { cause := cause, unit := 0, source := block, count := n, first := extendTick s a, last := extendTick s b } s) s
  | _ => .next s

/-- A frame's first word is a framing error: type 0b10, or a CONTROL code that R202 does not list (R207). -/
def framingError (w : BitVec 16) : Bool :=
  decide (frameType w.toNat = 2) || (decide (frameType w.toNat = 3) && !([1, 2, 3, 4].contains (field w.toNat 13 8)))

/-- A misframed word is discarded and the block ordered to resume framing on the next tick; the port buffer is kept (R207).
In the frame that should be FRAME_END it discards the bank (R243). -/
def execPortFramingError (block : Nat) (word0 : BitVec 16) (s : State) : Out :=
  event (awake s && decide (block < 256) && framingError word0) (fun s =>
    let s := modBlock block (fun x => { x with
      reframe := some (s.tc.now + 1), readout := x.readout.map (fun r => { r with bad := true }) }) s
    raise 201 [] (hpStat (engineOf s (block / 16)) 8 s)) s

/-- An open cluster of an engine whose first hit lies on a pixel closes when WINDOW has passed since its last hit and its
watermarks are met (R214, R219); not while the engine's processing is stalled (R242). -/
def execClusterClose (engine : Fin 16) (first : Nat) (s : State) : Out :=
  let s0 := drainInBuf engine s
  match (engineAt s0 engine).clusters.find? (fun c => match c.hits with
    | h :: _ => decide (1024 * h.row + h.col = first)
    | [] => false) with
  | none => .next s
  | some c => event (awake s0 && !engineStalled s0 engine && watermarksMet s0 engine c && nothingBelow s0 engine c) (fun _ =>
      closeCluster engine c (reachUp (c.joined + divUp c.rules.1 25) s0)) s

/-- The engines that a queue's stage had stalled go on with their input buffers (R242). -/
def drainFeeders (q : Nat) (s : State) : State :=
  forAll ((List.range 16).filter (fun row => decide (queueOf s row = some q))) (fun row s => drainInBuf (engineOf s row) s) s

/-- The earliest held record is released when it has been held REORDER (R231, R233, R242): not while its engine must wait
for room. -/
def execReorderRelease (q : Fin 16) (s : State) : Out :=
  match (lossQAt s q).held with
  | [] => .next s
  | h :: r =>
    let s0 := reachUp h.due s
    event (awake s0 && !headStalls s0 q) (fun _ =>
      drainFeeders q (passHeld q false h (modLossQ q (fun x => { x with held := r }) s0))) s

/-- The blocks that the active BLOCK_OFF policies hold (R237). -/
def heldBlocks (s : State) : List Nat :=
  ((List.range 16).filter (fun p => (lossQAt s p).active && decide ((lossQAt s p).kind = 2))).flatMap
    (fun p => maskedBlocks s p (lossQAt s p).mask)

/-- The blocks held by an ended policy are released 2 ticks after its end, but for those an active policy holds (R237). -/
def execBlockOffRelease (q : Fin 16) (s : State) : Out :=
  match (lossQAt s q).releasing with
  | none => .next s
  | some (t, bs) => event true (fun s =>
      let s := reachTick t s
      let kept := heldBlocks s
      forAll (bs.filter (fun b => !kept.contains b)) (fun b => modBlock b (fun x => { x with held := false }))
        (modLossQ q (fun x => { x with releasing := none }) s)) s

/-- An EDGE_FRAG arrives over a side (R225). -/
def execEdgeFragRx (side : Fin 4) (f : EdgeFrag) (s : State) : Out :=
  event (awake s && decide ((msideAt s side).state = 2) && (msideAt s side).owner) (fun s =>
    fragArrives side f.fragId (fragClosed s side f) (slPacketIn side s)) s

/-- A held cluster of the non-owner, by FRAG_ID. -/
def sentMerge (s : State) (sd id : Nat) : Option Merge := (msideAt s sd).sent.find? (fun m => decide (m.id = id))

/-- A held cluster leaves the non-owner's list. -/
def dropSent (sd : Nat) (m : Merge) (s : State) : State :=
  modMside sd (fun x => { x with sent := x.sent.filter (fun k => decide (k ≠ m)) }) s

/-- A MERGE_REPLY arrives (R225, R226): MERGED, NO_MATCH or REFUSED_SIZE. -/
def execMergeReplyRx (side : Fin 4) (fragId : BitVec 16) (result : Nat) (s : State) : Out :=
  match sentMerge s side fragId.toNat with
  | none => .next s
  | some m => event (awake s && decide (result ≤ 2)) (fun s =>
      let s := dropSent side m (slPacketIn side s)
      match result with
      | 0 => s
      | 1 => emitCluster m.cluster s
      | _ => emitCluster (fragged (2 ^ side.val) (capped m.cluster)) s) s

/-- Kept clusters that closed no later than an order number are emitted. -/
def emitKept (sd upTo : Nat) (s : State) : State :=
  let ks := (msideAt s sd).kept.filter (fun k => decide (k.order ≤ upTo))
  let s := modMside sd (fun x => { x with kept := x.kept.filter (fun k => decide (upTo < k.order)) }) s
  forAll ks (fun k => emitCluster k.cluster) s

/-- MERGE_WAIT in 25 ns units (R225). -/
def mergeWait (s : State) : Nat := divUp (cfg16 s 0x0405 2) 25

/-- MERGE_WAIT passes at the owner: for a fragment without a match, answered NO_MATCH, or for a kept cluster of that
number; the clusters kept since before it are emitted (R225, R227). -/
def execMergeWaitExpiry (side : Fin 4) (fragId : BitVec 16) (s : State) : Out :=
  match (msideAt s side).waiting.find? (fun m => decide (m.id = fragId.toNat)) with
  | some w => event (awake s) (fun s =>
      let s := reachUp (w.since + mergeWait s) s
      let s := modMside side (fun x => { x with waiting := x.waiting.filter (fun m => decide (m ≠ w)) }) s
      emitKept side w.order (sendMerge side (mergeReplyBytes w.id 1) s)) s
  | none =>
    match (msideAt s side).kept.find? (fun m => decide (m.id = fragId.toNat)) with
    | some k => event (awake s) (fun s => emitKept side k.order (reachUp (k.since + mergeWait s) s)) s
    | none => .next s

/-- No reply came in 2 MERGE_WAIT + 1 us (R225, log 41). -/
def execMergeReplyTimeout (side : Fin 4) (fragId : BitVec 16) (s : State) : Out :=
  match sentMerge s side fragId.toNat with
  | none => .next s
  | some m => event (awake s) (fun s => raise 205 [] (emitCluster (fragged (2 ^ side.val) m.cluster)
      (dropSent side m (reachUp (m.since + 2 * mergeWait s + us 1) s)))) s

/-- HP_STATUS (R247). -/
def execHpStatus (mb : Fin 8) (s : State) : Out :=
  call mb 0x0400 epdPri 1 (fun p s =>
    let n := p8 p 0
    need (decide (n < 16)) (fun s =>
      let x := engineAt s n
      let rate := (x.recent.filter (fun t => decide (s.up < t + ms 1000))).length
      okBytes (b1 (outputOf s n) ++ b1 (byteAt (hpCfg s 0x0404) (4 * n)) ++ b2 x.clusters.length ++ b4 (min stat32 rate)
        ++ b1 (word ((List.range 4).map (fun sd => (2 * sd, (msideAt s sd).state)))) ++ b1 (bitNat (fragHalf s))
        ++ b2 (servedRows s n)) s) s) s

/-- HP_OUTPUT_SET (R248). -/
def execHpOutputSet (mb : Fin 8) (s : State) : Out :=
  call mb 0x0401 epd 3 (fun p s =>
    need (decide (p8 p 2 ≤ 2)) (fun s =>
      let v := hpLatest s 0x0402
      ok (hpChange 0x0402 (v.zipIdx.map (fun e => if bit (p16 p 0) e.2 then BitVec.ofNat 8 (p8 p 2) else e.1)) s)) s) s

/-- HP_CLUSTER_CONFIG (R248). -/
def execHpClusterConfig (mb : Fin 8) (s : State) : Out :=
  call mb 0x0402 epd 4 (fun p s => need (clusterConfOk p) (fun s => ok (hpChange 0x0401 (bytesAt p 0 4) s)) s) s

/-- HP_LOSS_CONFIG (R237, R248). -/
def execHpLossConfig (mb : Fin 8) (s : State) : Out :=
  call mb 0x0403 epd 13 (fun p s =>
    let q := p8 p 0
    let v := bytesAt p 1 12
    need (decide (q < 16) && lossConfOk s q v) (fun s => ok (lossEval q (setCfgEntry 0x0403 12 q v s))) s) s

/-- HP_LOSS_STATUS (R247). -/
def execHpLossStatus (mb : Fin 8) (s : State) : Out :=
  call mb 0x0404 epdPri 1 (fun p s =>
    let q := p8 p 0
    need (decide (q < 16)) (fun s =>
      okBytes (b1 (bitNat (lossQAt s q).active) ++ b1 (min 255 (fillPct s q)) ++ b2 0
        ++ (tslice 0 (lossQAt s q).totals 0 7).flatMap b4) s) s) s

/-- HP_GATE_CONFIG (R230, R248). -/
def execHpGateConfig (mb : Fin 8) (s : State) : Out :=
  call mb 0x0405 epd 6 (fun p s =>
    let v := bytesAt p 2 4
    need (gateConfOk v) (fun s =>
      ok (hpChange 0x0404 ((List.range 16).foldl (fun w n => if bit (p16 p 0) n then bytesPut w (4 * n) v else w)
        (hpLatest s 0x0404)) s)) s) s

/-- HP_MERGE_CONFIG (R246). -/
def execHpMergeConfig (mb : Fin 8) (s : State) : Out :=
  call mb 0x0406 epd 4 (fun p s => need (mergeConfOk p) (fun s => ok (mergeSet (bytesAt p 0 4) s)) s) s

/-- HP_MERGE_STATUS (R247). -/
def execHpMergeStatus (mb : Fin 8) (s : State) : Out :=
  call mb 0x0407 epd 0 (fun _ s =>
    okBytes ((List.range 4).flatMap (fun sd =>
      let x := msideAt s sd
      b1 x.state ++ b1 x.partner ++ b1 (bitNat (!x.owner)) ++ [0] ++ (tslice 0 x.counts 0 4).flatMap b4)) s) s

/-- HP_REORDER_CONFIG (R248). -/
def execHpReorderConfig (mb : Fin 8) (s : State) : Out :=
  call mb 0x0408 epd 2 (fun p s => need (reorderConfOk p) (fun s => ok (hpChange 0x0406 (bytesAt p 0 2) s)) s) s

/-- HP_STATS (R247, R248). -/
def execHpStats (mb : Fin 8) (s : State) : Out :=
  call mb 0x0409 epd 2 (fun p s =>
    let n := p8 p 0
    need (decide (n < 16)) (fun s =>
      okBytes (statBytes 9 (engineAt s n).stats (engineAt s n).statSat)
        (if p8 p 1 = 1 then modEngine n (fun x => { x with stats := [], statSat := 0 }) s else s)) s) s

/-- HP_TP_READ (R245). -/
def execHpTpRead (mb : Fin 8) (s : State) : Out :=
  call mb 0x040A epd 2 (fun p s =>
    need (decide (1 ≤ p16 p 0 ∧ p16 p 0 ≤ 27)) (fun s =>
      let out := s.hp.tpBuf.take (p16 p 0)
      let s := onHp (fun x => { x with tpBuf := x.tpBuf.drop (p16 p 0) }) s
      okBytes (b2 out.length ++ b2 s.hp.tpBuf.length ++ out.flatMap (fun w => b8 w.toNat)) s) s) s

end Sys2Proof.Machine
end

