-- ==== Sys2Proof/Machine/Light.lean ====
section
/-! DEFINITION. The calibration-light commands (chapter 14). -/
namespace Sys2Proof.Machine

/-- A proof pulse waits to be made. -/
def proofWaits (s : State) : Bool := (List.range 68).any (fun e => (emAt s e).proofDue || (emAt s e).proofJob.isSome)

/-- The scheduler wakes PD_33 100 us before a flash, or for a proof pulse (R582). -/
def execLdPreWake (s : State) : Out :=
  event (awake s && !ldOn s && ((nextFlash s).isSome || proofWaits s)) (fun s =>
    let s := match nextFlash s with
      | some t => if proofWaits s then s else reachTick (BitVec.ofNat 64 (t / 32 - us 100)) s
      | none => s
    onLd (fun x => { x with awake := true, flashUp := s.up }) s) s

/-- A chain's shift for its next flash, at `t` (R571, R574, R582): at the latest tick that ends it 1 us before the flash the
words go to the stages, unless these hold exactly them already; 64 n ticks later they hold them. -/
def shiftFor (c t : Nat) (s : State) : State :=
  let n := boardsOf s c
  let s := reachTick (BitVec.ofNat 64 ((t - 2048 * n - 1280) / 32)) s
  let ws := flashWords s c (joinBoards (dueEntries s t) c)
  if (chainAt s c).stage = some ws then s
  else modChain c (fun x => { x with
    stage := some (shiftStages n (x.stage.getD []) (serialBits ws))
    prep := some (t, 32 * s.tc.now.toNat + 2048 * n) }) s

/-- A chain's shift for its next flash starts (R582). -/
def execLampShiftStart (chain : Fin 4) (s : State) : Out :=
  match nextChainFlash s chain with
  | none => event false id s
  | some t => event (ldOn s && decide ((chainAt s chain).state = 1) && !discovering s chain) (shiftFor chain t) s

/-- The emitters of a flash at instant `t` that fire (R581, R583). -/
def firingEmitters (s : State) (sinks : Nat) (boards : Nat → Nat) (t : Nat) : List Nat :=
  (maskList 4 sinks).filter (fun k => sinkFires s k t) ++
  (List.range 4).flatMap (fun c =>
    if boards c ≠ 0 ∧ chainFires s c (boards c) t then (firedBoards s c).map (fun b => 4 + 16 * c + b) else [])

/-- An entry after its flash: counted as done if one of its emitters fired, ended after its count (R584, R596). -/
def afterFlash (fired : List Nat) (e : SchedEntry) : Option SchedEntry :=
  let ok := (emittersOf e.sinks e.boards).any (fun x => fired.contains x)
  let e := { e with i := e.i + 1, done := min stat32 (e.done + bitNat ok), skipped := min stat32 (e.skipped + bitNat (!ok)) }
  if e.period = 0 ∨ (e.count ≠ 0 ∧ e.count ≤ e.i) then none else some e

/-- An entry moves on after its flash; its end raises EV_539 (R584). -/
def entryFlashed (fired : List Nat) (n : Nat) (e : SchedEntry) (s : State) : State :=
  let r := afterFlash fired e
  let s := onLd (fun x => { x with entry := tput none n r x.entry }) s
  if r.isNone then raise 539 [] (scheduleTouched (emittersOf e.sinks e.boards) s) else s

/-- The flash at instant `t` takes place (R580 to R585). -/
def flashAt (t : Nat) (s : State) : State :=
  let tick := BitVec.ofNat 64 (t / 32)
  let s := reachTick tick s
  let es := dueEntries s t
  let sinks := joinSinks es
  let boards := joinBoards es
  let fired := firingEmitters s sinks boards t
  let all := emittersOf sinks ((List.range 4).map boards)
  let chains := (List.range 4).filter (fun c => decide (boards c ≠ 0) && chainFires s c (boards c) t)
  let s := forAll ((maskList 4 sinks).filter (fun k => fired.contains k)) (fun k => fireSink k t) s
  let s := forAll chains (fun c => fireChain c t) s
  let s := forAll (all.filter (fun e => !fired.contains e)) skipFlash s
  let s := when (!fired.isEmpty) (fun s => openWindow tick (onLd (fun x => { x with flashUp := s.up }) s)) s
  forAll es (fun e => entryFlashed fired e.1 e.2) s

/-- The next flash instant of the schedule (R581). -/
def execFlashInstant (s : State) : Out :=
  match nextFlash s with
  | none => .next s
  | some t => event (ldOn s) (flashAt t) s

/-- The sample of a sink 400 ns into a pulse of 500 ns or more (R587, R588). -/
def execLedDiagSample (k : Fin 4) (current pinMv : Nat) (s : State) : Out :=
  match (sinkAt s k).pulse with
  | none => .next s
  | some (amp, w, at_) => event (decide (500 ≤ w)) (fun s =>
      let s := reachUp (at_ + 16) s
      match sinkStatus current pinMv amp with
      | some st => diagnose k st false current s
      | none => s) s

/-- The sink switches off WIDTH after it switched on (R577). -/
def execLedPulseEnd (k : Fin 4) (s : State) : Out :=
  match (sinkAt s k).pulse with
  | none => event false id s
  | some (_, w, at_) => event true (fun s => modSink k (fun x => { x with pulse := none }) (reachUp (at_ + divUp w 25) s)) s

/-- The flash window closes (R585). -/
def execFlashWindowEnd (s : State) : Out :=
  event s.ld.winOpen (fun s =>
    let s := match s.ld.windows with
      | (_, b) :: _ => reachTick (b + 1) s
      | [] => s
    onLd (fun x => { x with winOpen := false }) s) s

/-- PD_33 is gated 1 ms after the last flash, unless a flash is due within the 100 us of a wake or a proof pulse waits
(R582). -/
def execLdIdleGate (s : State) : Out :=
  event s.ld.awake (fun s =>
    let s := reachUp (s.ld.flashUp + ms 1) s
    if proofWaits s || (nextFlash s).any (fun t => decide (t / 32 < s.tc.now.toNat + us 100)) then s
    else onLd (fun x => { x with awake := false }) s) s

/-- A capture cycle of a READY chain (R576): with every CRC good the words are stored, reports and HOT taken; a bad CRC
is retried once, then the chain is FAULT with EV_529. -/
def captureCycle (c : Nat) (ws : List Word) (s : State) : State :=
  let old := (chainAt s c).words
  let s := modChain c (fun x => { x with stage := none, prep := none, capAt := s.up }) s
  if ws.all statusCrcOk then
    hotEvents old ws (boardReports c ws (modChain c (fun x => { x with words := ws, retried := false }) s))
  else if (chainAt s c).retried then raise 529 [] (modChain c (fun x => { x with state := 5, retried := false }) s)
  else modChain c (fun x => { x with retried := true }) s

/-- A capture cycle of a chain ends in time: 5 us before the next flash on it, and before the shift for that flash (R576,
R582, log 35). -/
def captureClear (s : State) (c : Nat) : Bool := match nextChainFlash s c with
  | none => true
  | some t => decide (32 * s.tc.now.toNat + max 6400 (2048 * boardsOf s c + 1280) ≤ t)

/-- The capture cycle of a chain, every second in PADDLE and DRIVE, with its status words as they arrive (R576); one that
is retried, or that a proof pulse's report waits for, comes at once (log 35). -/
def execLampCaptureCycle (chain : Fin 4) (words : List Word) (s : State) : Out :=
  let again := (chainAt s chain).retried
  event ((busyState s || again) && ldOn s && decide ((chainAt s chain).state = 1 ∧ words.length = boardsOf s chain)
    && !discovering s chain) (fun s =>
      let s := if again then s else reachUp ((chainAt s chain).capAt + ms 1000) s
      if captureClear s chain then captureCycle chain (arrived words) s else s) s

/-- The loop of a sink reads LIMITED while the sink is derated, with EV_538 once (R591). -/
def loopDerated (k : Nat) (s : State) : State :=
  let x := emAt s k
  if (sinkAt s k).derated ∧ loopCode s k = 1 then raise 538 [] (modEm k (fun x => { x with loop := 3 }) s)
  else if (sinkAt s k).derated = false ∧ x.loop = 3 ∧ x.atLimit < 10 then modEm k (fun x => { x with loop := 1 }) s
  else s

/-- One sink reads its temperature (R578, R579). -/
def sinkTempUpdate (k : Nat) (s : State) : State :=
  let old := sinkAt s k
  let t := sinkTemp s k
  let s := modSink k (fun x => { x with temp := some t.1, fallback := t.2 }) s
  let hot := decide (0 < derating s k)
  let s := modSink k (fun x => { x with derated := hot }) s
  loopDerated k (raiseIf (hot && !old.derated) 534 [] (raiseIf (t.2 && !old.fallback) 535 [] s))

/-- The sinks read their temperatures every 100 ms (R578). -/
def execLedTempUpdate (s : State) : Out :=
  event (awake s) (fun s =>
    let s := reachUp (s.ld.tempAt + ms 100) s
    forAll (List.range 4) sinkTempUpdate (onLd (fun x => { x with tempAt := s.up }) s)) s

/-- PROOF_PERIOD has passed: a proof pulse becomes due (R589). -/
def execProofPulseDue (e : Nat) (s : State) : Out :=
  event (awake s && decide (e < 68) && emProof s e) (fun s =>
    let s := reachUp ((emAt s e).proofAt + ms (1000 * cfg16 s 0x0D04 2)) s
    modEm e (fun x => { x with proofDue := true, proofAt := s.up }) s) s

/-- The output of an emitter can make a proof pulse: its sink is not disabled, derated to nothing or at its duty limit, or
its chain is READY and holds the board, which is not HOT; its stage is held by a half (R575, R583, R588, R593). -/
def proofOutput (s : State) (e : Nat) : Bool :=
  let c := (e - 4) / 16
  emOn s e && (server s (emResource e)).isSome && (if e < 4 then
      !(emAt s e).shorted && decide (sinkAmp s e (emAmp s e) ≠ 0 ∧ dutyTime (sinkAt s e) (25 * s.tc.now.toNat) 1000 ≤ 500000)
    else decide ((chainAt s c).state = 1 ∧ (e - 4) % 16 < boardsOf s c) && !boardHot s c ((e - 4) % 16) && !discovering s c)

/-- The words of a chain for a proof pulse of one board (R589). -/
def proofWords (s : State) (e : Nat) : List Word :=
  (List.range (boardsOf s ((e - 4) / 16))).map (fun b =>
    if b = (e - 4) % 16 then BitVec.ofNat 32 (2 ^ 31 + u16At (emConf s e) 6 % 4096 * 2 ^ 16 + 1000) else 0)

/-- The proof pulse of a sink: 1 us at AMP 80, sampled 400 ns after it switches on (R587, R589). -/
def sinkProof (e current pinMv : Nat) (s : State) : State :=
  let s := modSink e (fun x => { x with pulse := some (80, 1000, s.up), recent := (nowNs s, 1000) :: x.recent }) s
  let s := reachUp (s.up + 16) s
  proofDone e (match sinkStatus current pinMv 80 with
    | some st => diagnose e st true current s
    | none => s)

/-- The proof pulse of a board: a shift, the LATCH edge, and a capture cycle of the chain for the report (R587, R589, log
35). -/
def boardProof (e : Nat) (words : List Word) (s : State) : State :=
  let c := (e - 4) / 16
  let ws := proofWords s e
  let s := modEm e (fun x => { x with proofOut := true }) s
  let s := modChain c (fun x => { x with
    stage := some (shiftStages (boardsOf s c) (x.stage.getD []) (serialBits ws)), prep := none
    lastFlash := some (32 * s.tc.now.toNat, ws), due := x.due ||| 2 ^ ((e - 4) % 16) }) s
  captureCycle c (arrived words) s

/-- A proof pulse is made (R585, R588, R589). -/
def proofPulse (e current pinMv : Nat) (words : List Word) (s : State) : State :=
  let s := openWindow s.tc.now (onLd (fun x => { x with flashUp := s.up }) (ldStat e 3 s))
  if e < 4 then sinkProof e current pinMv s else boardProof e words s

/-- A due proof pulse runs while gating allows it and no scheduled flash is near: it moves to the first tick clear of the
last one (R589). `current` and `pinMv` are a sink's sample, `words` the status words of a board's chain as they arrive. -/
def execProofPulse (e current pinMv : Nat) (words : List Word) (s : State) : Out :=
  event (ldOn s && decide (e < 68) && ((emAt s e).proofDue || (emAt s e).proofJob.isSome) && !(emAt s e).proofOut) (fun s =>
    let s := reachTick (clearTick s e) s
    if proofOutput s e && proofAllowed s && proofClear s e
        && (decide (e < 4) || decide (words.length = boardsOf s ((e - 4) / 16))) then
      proofPulse e current pinMv words s
    else s) s

/-- DIAG_AGE has passed without a diagnosis: NOT_DIAGNOSED, EV_532 (R588). -/
def execDiagAgeExpiry (e : Nat) (s : State) : Out :=
  event (decide (e < 68) && decide ((emAt s e).diag ≠ 0))
    (fun s => raise 532 [] (modEm e (fun x => { x with diag := 0 })
      (reachUp ((emAt s e).diagAt + ms (1000 * cfg16 s 0x0D04 4)) s))) s

/-- A chain output disagrees with its level for 100 us: high impedance, FAULT, EV_541 (R594). -/
def execLdLineReadbackFault (chain : Fin 4) (s : State) : Out :=
  event (ldOn s && !(chainAt s chain).lineFault)
    (fun s => raise 541 [] (modChain chain (fun x => { x with lineFault := true, state := 5, stage := none, prep := none }) s)) s

/-- LD_STATUS, 0x0D00 (R596). -/
def execLdStatus (mb : Fin 8) (s : State) : Out :=
  call mb 0x0D00 epdPri 0 (fun _ s => okBytes
    ((List.range 4).flatMap (fun c => b1 (if chainOn s c then (chainAt s c).state else 0)) ++
      (List.range 4).flatMap (fun c => b1 (boardsOf s c)) ++
      b2 (maskOf 16 (fun n => (tget none s.ld.entry n).isSome)) ++ b1 (bitNat (s.ld.winOpen && inWindow s s.tc.now)) ++ [0]) s) s

/-- LD_CHAIN_DISCOVER, 0x0D01 (R575). -/
def execLdChainDiscover (mb : Fin 8) (s : State) : Out :=
  call mb 0x0D01 epd 1 (fun p => need (decide (1 ≤ p8 p 0 ∧ p8 p 0 < 16)) (startJob 0x0D01 (p.take 1) (fun n s =>
    if discoverMask s (p8 p 0) n = 0 then jobDone n s else discoverChains (p8 p 0) n s))) s

/-- LD_CHAIN_READ, 0x0D02 (R573, R596). -/
def execLdChainRead (mb : Fin 8) (s : State) : Out :=
  call mb 0x0D02 epd 1 (fun p => need (decide (p8 p 0 ≤ 3)) (fun s =>
    okBytes (b1 (boardsOf s (p8 p 0)) ++ [0, 0, 0] ++ (chainAt s (p8 p 0)).words.flatMap (fun w => b4 w.toNat)) s)) s

/-- The lead half holds the stages of emitters (R17, R584). -/
def holdsEmitters (s : State) (es : List Nat) : Bool := es.all (fun e => holds s (emResource e) (lead s))

/-- An emitter is reconfigured: colour loop and diagnosis start anew (R588, R590). -/
def reconfigure (e : Nat) (v : List Byte) (s : State) : State :=
  let s := setCfgEntry 0x0D01 18 e v s
  modEm e (fun x => { x with
    amp := none, loop := if byteAt v 0 = 1 ∧ byteAt v 8 ≠ 0xFF then 1 else 0, atLimit := 0, changed := s.tc.now
    diag := 0, shorted := false, proofAt := s.up }) s

/-- LD_EMITTER_CONFIG, 0x0D03 (R570, R588, R596). -/
def execLdEmitterConfig (mb : Fin 8) (s : State) : Out :=
  call mb 0x0D03 epd 22 (fun p =>
    need (decide (p8 p 0 < 68) && emitterOk (p8 p 0) (bytesAt p 4 18)) (fun s =>
    needClaim (holdsEmitters s [p8 p 0]) (fun s => ok (reconfigure (p8 p 0) (bytesAt p 4 18) s)) s)) s

/-- LD_EMITTER_READ, 0x0D04 (R590, R596). -/
def execLdEmitterRead (mb : Fin 8) (s : State) : Out :=
  call mb 0x0D04 epd 1 (fun p => need (decide (p8 p 0 < 68)) (fun s =>
    let e := p8 p 0
    okBytes (emConf s e ++ b2 (emAmp s e) ++ b1 (loopCode s e) ++ b1 (bitNat (decide (e < 4) && (sinkAt s e).derated))) s)) s

/-- The schedule entry of LD_SCHEDULE's parameters. -/
def schedEntry (p : List Byte) : SchedEntry := {
  sinks := p8 p 1, boards := [p16 p 2, p16 p 4, p16 p 6, p16 p 8], first := stampAt p 10, period := p32 p 18
  count := p32 p 22, phase := p8 p 26 }

/-- The ticks a period must have at least: the longest WIDTH named plus 50 ns (R580). -/
def minPeriod (s : State) (es : List Nat) : Nat := divUp (es.foldl (fun a e => max a (emWidth s e)) 0 + 50) 25

/-- LD_SCHEDULE, 0x0D05 (R580, R584, R497). -/
def execLdSchedule (mb : Fin 8) (s : State) : Out :=
  call mb 0x0D05 epd 27 (fun p s =>
    let e := schedEntry p
    let es := emittersOf e.sinks e.boards
    need (decide (p8 p 0 < 16 ∧ e.sinks < 16 ∧ e.phase < 32 ∧ (e.period = 0 ∨ minPeriod s es ≤ e.period)) && aheadBy s (8000) e.first)
      (fun s => needClaim (holdsEmitters s es) (fun s =>
        let old := ((tget none s.ld.entry (p8 p 0)).map (fun x => emittersOf x.sinks x.boards)).getD []
        ok (scheduleTouched (old ++ es) (onLd (fun x => { x with entry := tput none (p8 p 0) (some e) x.entry }) s))) s) s) s

/-- LD_CANCEL, 0x0D06 (R584, R596). -/
def execLdCancel (mb : Fin 8) (s : State) : Out :=
  call mb 0x0D06 epdPri 2 (fun p s =>
    let named := (entries s).filter (fun e => bit (p16 p 0) e.1)
    let es := named.flatMap (fun e => emittersOf e.2.sinks e.2.boards)
    needClaim (holdsEmitters s es) (fun s =>
      ok (scheduleTouched es (onLd (fun x => { x with entry := named.foldl (fun t e => tput none e.1 none t) x.entry }) s))) s) s

/-- An entry as LD_SCHEDULE's parameters with its counts (R596); a free entry reads zeros (log 35). -/
def entryBytes (n : Nat) (e : Option SchedEntry) : List Byte :=
  match e with
  | some e => b1 n ++ b1 e.sinks ++ e.boards.flatMap b2 ++ stampBytes e.first ++ b4 e.period ++ b4 e.count ++ b1 e.phase ++
      b4 e.done ++ b4 e.skipped
  | none => b1 n ++ List.replicate 34 0

/-- LD_SCHEDULE_READ, 0x0D07 (R596). -/
def execLdScheduleRead (mb : Fin 8) (s : State) : Out :=
  call mb 0x0D07 epd 1 (fun p => need (decide (p8 p 0 < 16)) (fun s =>
    okBytes (entryBytes (p8 p 0) (tget none s.ld.entry (p8 p 0))) s)) s

/-- An emitter's diagnosis as LD_DIAG_READ gives it (R588, R596). -/
def diagBytes (x : Emitter) : List Byte :=
  b1 x.diag ++ b1 (bitNat x.last.1) ++ stampBytes x.last.2.1 ++ b2 x.last.2.2

/-- LD_DIAG_READ, 0x0D08 (R588, R596). -/
def execLdDiagRead (mb : Fin 8) (s : State) : Out :=
  call mb 0x0D08 epdPri 2 (fun p => need (decide (1 ≤ p8 p 1 ∧ p8 p 1 ≤ 17 ∧ p8 p 0 + p8 p 1 ≤ 68)) (fun s =>
    okBytes ((List.range (p8 p 1)).flatMap (fun i => diagBytes (emAt s (p8 p 0 + i)))) s)) s

/-- LD_PROOF_RUN, 0x0D09; one request waits per emitter (R589, log 35). -/
def execLdProofRun (mb : Fin 8) (s : State) : Out :=
  call mb 0x0D09 epd 1 (fun p => need (decide (p8 p 0 < 68)) (fun s => needState (emOn s (p8 p 0)) (fun s =>
    if (emAt s (p8 p 0)).proofJob.isSome then refuse stBusy s
    else startJob 0x0D09 (p.take 1) (fun n => modEm (p8 p 0) (fun x => { x with proofJob := some n })) s) s)) s

/-- LD_SINK_CONFIG, 0x0D0A (R578, R595). -/
def execLdSinkConfig (mb : Fin 8) (s : State) : Out :=
  call mb 0x0D0A epd 7 (fun p => need (decide (p8 p 0 < 4) && tempSourceOk (p8 p 1)) (fun s =>
    needClaim (holdsEmitters s [p8 p 0]) (fun s => ok (setCfgEntry 0x0D02 6 (p8 p 0) (bytesAt p 1 6) s)) s)) s

/-- LD_STATS, 0x0D0B (R596). -/
def execLdStats (mb : Fin 8) (s : State) : Out :=
  call mb 0x0D0B epd 2 (fun p => need (decide (p8 p 0 < 68)) (fun s =>
    okBytes (statBytes 5 (emAt s (p8 p 0)).stats (emAt s (p8 p 0)).statSat)
      (when (decide (p8 p 1 = 1)) (modEm (p8 p 0) (fun x => { x with stats := [], statSat := 0 })) s))) s

end Sys2Proof.Machine
end

