-- ==== Sys2Proof/Machine/Power.lean ====
section
/-! DEFINITION. The commands of power states, the rate governor and the thermal scanner, and the calls 0x0B00 to 0x0B09
(chapter 12). -/
namespace Sys2Proof.Machine

/-- The governor measures the module power in 0.01 W, every 100 us (R523, R524). -/
def execGovernorEval (p : Nat) (s : State) : Out :=
  event (s.sys.windowReady && !s.sys.por) (fun s =>
    let s := reachUp (s.pw.evalAt + us 100) s
    governor (onPw (fun x => { x with
      samples := (p :: x.samples).take 10000, evalAt := s.up, evalTick := s.tc.now }) s)) s

/-- Every 10 ms step 2 lowers one group by one code while L is 0.95 or more; after its release one code is restored, in
the reverse order (R438, R527). -/
def execGovernorStep2Tick (s : State) : Out :=
  event (s.sys.windowReady && !governorBusy s) (fun s =>
    let s := reachUp (s.pw.step2At + ms 10) s
    let s := onPw (fun x => { x with step2At := s.up }) s
    if stepOn s 2 then
      if levelReached s 95 then match lowerNext s with
        | some g => requestRate g ((groupAt s g).rate - 1) .lower s
        | none => s
      else s
    else match s.pw.lowered.find? (fun g => !bit s.pw.retry.toNat g && !soleFast s g) with
      | some g => restoreGroup g s
      | none => s) s

/-- A refused restore is retried, once per second (R527). -/
def execGovernorRestoreRetry (s : State) : Out :=
  event (s.sys.windowReady && !stepOn s 2 && !governorBusy s) (fun s =>
    match s.pw.lowered.find? (fun g => bit s.pw.retry.toNat g && !soleFast s g) with
    | some g => restoreGroup g (reachUp (tget 0 s.pw.retryAt g + ms 1000) s)
    | none => s) s

/-- A reading marks its sensor faulted (R536): out of range, or more than 15 K from every other sensor of its die. -/
def sensorFaulted (t : Table Int) (n : Nat) : Bool :=
  let v := tget 0 t n
  let others := ((dies.find? (fun d => d.contains n)).getD []).filter (fun k => decide (k ≠ n))
  decide (v < -550 ∨ 1500 < v) || others.all (fun k => decide (150 < (v - tget 0 t k).natAbs))

/-- The readings are stored, faulted sensors marked with EV_042 for each new one (R530, R536). -/
def takeReadings (temps : List Int) (s : State) : State :=
  let t := tabulate 0 24 (fun n => temps.getD n (tget 0 s.pw.temp n))
  let old := s.pw.faulted
  let s := onPw (fun x => { x with temp := t, faulted := BitVec.ofNat 24 (maskOf 24 (sensorFaulted t)) }) s
  let s := forAll ((List.range 24).filter (fun n => sensorFaulted t n && !bit old.toNat n)) (fun _ => raise 42 []) s
  onPw (fun x => { x with hot := tabulate 0 24 (fun n =>
    if !sensorFaulted t n && decide (1100 ≤ tget 0 t n) then min 3 (tget 0 x.hot n + 1) else 0) }) s

/-- The warning, with a hysteresis of 2 C (R531). -/
def warn (s : State) : State :=
  let h := tHot s
  if 850 ≤ h ∧ !s.pw.warning then raise 39 [] (onPw (fun x => { x with warning := true }) s)
  else if h < 830 then onPw (fun x => { x with warning := false }) s
  else s

/-- Throttling begins at 95 C with step 1, and ends after 100 ms below 93 C (R533). -/
def throttle (s : State) : State :=
  let h := tHot s
  if s.pw.throttle.isNone then
    if 950 ≤ h then
      tryEngage 1 (pwStat 9 1 (raise 40 [] (onPw (fun x => { x with throttle := some 0, throttleAt := s.up, coolSince := none }) s)))
    else s
  else if 930 ≤ h then onPw (fun x => { x with coolSince := none }) s
  else match s.pw.coolSince with
    | none => onPw (fun x => { x with coolSince := some s.up }) s
    | some t => if t + ms 100 ≤ s.up then onPw (fun x => { x with throttle := none, coolSince := none }) s else s

/-- A shutdown (R534, R535): EV_041, the latch, the cooling report; HOLD is entered, and an exit from HOLD is abandoned. -/
def shutdown (s : State) : State :=
  let s := pwStat 10 1 (raise 41 [] s)
  let s := coolingReport (onPw (fun x => { x with latch := true, below85 := none }) s)
  match s.pw.change.map (·.phase) with
  | some 1 => s
  | some 2 => s
  | some 3 => onPw (fun x => { x with change := none }) (onSeq (fun x => { x with en := x.en &&& 1 }) s)
  | some 4 =>
    let s := onBb (fun x => { x with saved := true, selfRefresh := true }) (forAll (List.range 16) settleQueue s)
    onPw (fun x => { x with change := none }) (onSeq (fun x => { x with en := x.en &&& 1 }) (holdOff s))
  | _ => if awake s then beginHold 3 s else s

/-- The module is out of HOLD, or on its way out of it. -/
def upOrWaking (s : State) : Bool :=
  match s.pw.change with
  | some c => decide (c.phase ≠ 1 ∧ c.phase ≠ 2)
  | none => awake s

/-- Three readings in a row at 110 C or more on some sensor (R531): the third of them now, or the module not in HOLD since. -/
def tooHot (old : Table Nat) (s : State) : Bool :=
  (List.range 24).any (fun n => decide (tget 0 s.pw.hot n = 3) && (decide (tget 0 old n < 3) || upOrWaking s))

/-- The time since which every valid sensor reads below 85 C (R535). -/
def coolTime (s : State) : State :=
  let cool := (List.range 24).all (fun n => !sensorValid s n || decide (tget 0 s.pw.temp n < 850))
  onPw (fun x => { x with below85 := if !cool then none else if x.below85.isSome then x.below85 else some s.up }) s

/-- The moment of the next scan of the sensors: 100 us after the last one, 1 ms in HOLD (R530). -/
def scanNow (s : State) : State :=
  let s := reachUp (s.pw.scanAt + if s.sys.power = .hold then ms 1 else us 100) s
  onPw (fun x => { x with scanAt := s.up }) s

/-- The die sensors are read, every 100 us, in HOLD every 1 ms (R530 to R536). -/
def execThermalScan (temps : List Int) (s : State) : Out :=
  event (s.sys.windowReady && !s.sys.por) (fun s =>
    let s := scanNow s
    let t := coolTime (throttle (warn (takeReadings temps s)))
    if tooHot s.pw.hot t then shutdown t else t) s

/-- Another 10 ms of throttling have passed at 95 C or more: step 2, then step 3 engages, whatever L is (R533). -/
def execThrottleStepTimer (s : State) : Out :=
  event (s.pw.throttle.isSome && decide (950 ≤ tHot s)) (fun s =>
    let s := reachUp (s.pw.throttleAt + ms (10 * min 2 (s.pw.throttle.getD 0 + 1))) s
    tryEngage 3 (tryEngage 2 (onPw (fun x => { x with throttle := x.throttle.map (fun n => min 2 (n + 1)) }) s))) s

/-- HOLD has not been reached 5 ms after a shutdown: PD_0 removes the supply enables (R534). -/
def execShutdownHoldTimeout (s : State) : Out :=
  event (s.pw.latch && (match s.pw.change with
    | some c => decide (c.target = 1 ∧ c.phase ≤ 2)
    | none => false)) (fun s => enterHold (reachUp (((s.pw.change.map (·.began)).getD 0) + ms 5) s)) s

/-- Every valid sensor has read below 85 C for 10 s: the thermal latch clears, and with it the cooling fault (R535,
R619). -/
def execThermalLatchClear (s : State) : Out :=
  event (s.pw.latch && s.pw.below85.isSome) (fun s =>
    coolingClear (onPw (fun x => { x with latch := false }) (reachUp (s.pw.below85.getD 0 + ms 10000) s))) s

/-- The 1 ms windows of AUTO up to the present (R522): the runs of windows above RATE_UP in EASY and below RATE_DOWN in the
busy state. Where more than one window has passed, each has the mean rate of them (log 52). -/
def autoWindow (s : State) : State :=
  let v := cfg s 0x0B03
  let n := max 1 ((s.up - s.pw.winAt) / ms 1)
  let hits := 1000 * s.pw.winHits
  let code := powerCode s.sys.power
  let up := if code = 2 ∧ n * u32At v 2 < hits then s.pw.autoRuns.1 + n else 0
  let down := if code = byteAt v 1 ∧ hits < n * u32At v 8 then s.pw.autoRuns.2 + n else 0
  let s := onPw (fun x => { x with autoRuns := (up, down), winAt := x.winAt + n * ms 1, winHits := 0 }) s
  if s.pw.change.isSome || s.pw.latch then s
  else if u16At v 6 ≤ up then beginChange (byteAt v 1) 1 none (onPw (fun x => { x with autoRuns := (0, 0) }) s)
  else if u16At v 12 ≤ down then beginChange 2 1 none (onPw (fun x => { x with autoRuns := (0, 0) }) s)
  else s

/-- A 1 ms window over the hits into the cluster engines ends (R522). -/
def execAutoRateWindow (s : State) : Out :=
  event (awake s && decide (cfg8 s 0x0B03 0 = 1)) (fun s => autoWindow (reachUp (s.pw.winAt + ms 1) s)) s

/-- The higher of two targets. -/
def raiseTarget (old : Option Nat) (t : Nat) : Option Nat := some (max (old.getD 0) t)

/-- A wake timer acts (R521, R535). -/
def timerActs (n target : Nat) (s : State) : State :=
  match s.pw.change, s.sys.power with
  | none, .hold => wakeStart 1 n (if s.pw.latch then none else some target) false s
  | none, .boot => s
  | none, _ => followTarget (some target) s
  | some c, _ =>
    if c.target = 1 then onPw (fun x => { x with change := some { c with
      wake := if c.wake.1 = 0 then (1, n) else c.wake
      follow := if s.pw.latch then c.follow else raiseTarget c.follow target } }) s
    else if s.pw.latch ∨ (c.phase = 0 ∧ target ≤ powerCode s.sys.power) then s
    else onPw (fun x => { x with change := some { c with follow := raiseTarget c.follow target } }) s

/-- 32.768 kHz cycles after which entry + round(C R) reaches a number of ticks (R498, R521). -/
def cyclesTo (d ratio : Nat) : Nat := divUp (1000000000 * d - 500000000) ratio

/-- The moment at which a wake timer fires: in HOLD when the count of 32.768 kHz cycles reaches it, by an oscillator within
200 ppm (R498, R514, R521; which moment is open, log 46); otherwise its tick. -/
def reachWake (t : Stamp) (s : State) : State :=
  match s.tc.holdAt with
  | none => reachTick t s
  | some (entry, up) =>
    let c := cyclesTo (tickAfter t entry).toNat s.tc.ratio
    let d := divUp (c * 40000000) 32768
    let e := d / 5000 + 1
    let (n, s) := drawNat s
    onTc (fun x => { x with holdMin := max c x.holdMin }) (reachUp (up + d - e + n % (2 * e + 1)) s)

/-- A wake timer reaches its tick, and fires once (R521). -/
def execWakeTimerFire (n : Fin 4) (s : State) : Out :=
  event (tget none s.pw.wake n.val).isSome (fun s => match tget none s.pw.wake n.val with
    | some (target, t) => timerActs n.val target (onPw (fun x => { x with wake := tput none n.val none x.wake }) (reachWake t s))
    | none => s) s

/-- The phase of the change in progress. -/
def inPhase (s : State) (k : Nat) : Bool := decide ((s.pw.change.map (·.phase)) = some k)

/-- A phase of the change in progress. -/
def setPhase (k : Nat) (s : State) : State := onPw (fun x => { x with change := x.change.map (fun c => { c with phase := k }) }) s

/-- The queues and the cox memories are saved, and the memory layer enters self-refresh (R367, R518). -/
def execQueueSave (s : State) : Out :=
  event (inPhase s 1) (fun s =>
    setPhase 2 (onBb (fun x => { x with saved := true, selfRefresh := true }) (forAll (List.range 16) settleQueue s))) s

/-- The link stage still has the answer of a call or a TAIL to send (R516, R518 step 1). -/
def linksBusy (s : State) : Bool :=
  (tc0Path s && s.ev.tc0.any (fun m => decide (m.kind = 0x12)))
    || (List.range 4).any (fun g => (groupAt s g).running && (groupAt s g).out.any (fun p => decide (p.2.2.1 = 0x12 ∨ p.2.2.1 = 0x17)))

/-- HOLD is reached, once the answer to the request and the TAILs have left (R516, R518, R678). -/
def execHoldReached (s : State) : Out := event (inPhase s 2 && !linksBusy s) enterHold s

/-- A wake source is present: a RING write, a set wake timer, a request of the safety partition (R519, R521, R621). -/
def wakePresent (s : State) (src timer : Nat) : Bool :=
  match src with
  | 0 => (List.range 8).any (fun n => (mbAt s n).busy)
  | 1 => (tget none s.pw.wake timer).isSome
  | 2 => s.sf.wakeReq
  | _ => false

/-- A wake source brings the module out of HOLD (R519). -/
def execHoldWake (src timer : Nat) (s : State) : Out :=
  event (decide (s.sys.power = .hold) && s.pw.change.isNone && wakePresent s src timer) (fun s =>
    if src = 1 then match tget none s.pw.wake timer with
      | some (target, t) => timerActs timer target (onPw (fun x => { x with wake := tput none timer none x.wake }) (reachWake t s))
      | none => s
    else wakeStart src 0xFF none false s) s

/-- With rails good and the strobe running the cox memories, queues and tables are restored (R368, R498, R499, R519, R520,
R700). -/
def wakeRestore (okS okB queuesOk : Bool) (c : Change) (s : State) : State :=
  let s := restartTime s
  if c.warm then warmReset s
  else
    let s := restoreHalf .b okB (restoreHalf .s okS s)
    if !(twoGet s.sys.firmware .s) && !(twoGet s.sys.firmware .b) then
      enterBootHold (if s.sys.cs0.present || s.sys.cs1.present then 0x11 else 0x10) s
    else
      let s := restoreFails .b (restoreFails .s s)
      let s := setPhase 4 (restoreTables (restoreQueues queuesOk s))
      onPw (fun x => { x with wokeAt := some s.up }) s

/-- The memories are restored on the way out of HOLD (R519). -/
def execHoldWakeRestore (coxOkS coxOkB queuesOk : Bool) (s : State) : Out :=
  event (inPhase s 3 && s.seq.good) (fun s => match s.pw.change with
    | some c => wakeRestore coxOkS coxOkB queuesOk c s
    | none => s) s

/-- The wake completes: EASY is entered, and a timer's target followed (R519, R521, R535). -/
def wakeEasy (c : Change) (s : State) : State :=
  let s := setPower .easy c.cause (onPw (fun x => { x with change := none }) s)
  followTarget c.follow (startEasy (discoverChains 15 0 (scPowerUp (lkPowerUp s))))

/-- The module is in EASY after HOLD (R519 step 7). -/
def execHoldWakeEasy (s : State) : Out :=
  event (inPhase s 4) (fun s => match s.pw.change with
    | some c => wakeEasy c s
    | none => s) s

/-- A change between EASY, PADDLE and DRIVE has entered its next state; at its target the caller is answered (R515, R516). -/
def changeStep (c : Change) (s : State) : State :=
  let p := towards c.target s
  let s := enterState p c.cause s
  if powerCode p = c.target then
    followTarget c.follow (onPw (fun x => { x with change := none }) (answerChange stOk c s))
  else s

/-- A step of a change of state is done (R515). -/
def execPowerStateChangeDone (s : State) : Out :=
  event (awake s && inPhase s 0) (fun s => match s.pw.change with
    | some c => changeStep c s
    | none => s) s

/-- The cluster engines of a half. -/
def halfEngines (h : Half) : List Nat := (List.range 8).map (8 * h.code + ·)

/-- When the latest hit came to an engine of a half, in 25 ns units. -/
def lastHit (s : State) (h : Half) : Nat := (halfEngines h).foldl (fun a n => max a ((engineAt s n).recent.headD 0)) 0

/-- The cluster engines of a half are gated after 1 ms idle in EASY (R513). -/
def execClusterEngineIdleGate (h : Half) (s : State) : Out :=
  event (decide (s.sys.power = .easy) && alive s h) (fun s =>
    onPw (fun x => { x with enginesGated := x.enginesGated ||| BitVec.ofNat 16 (0xFF * 256 ^ h.code) }) (reachUp (lastHit s h + ms 1) s)) s

/-- The thermal field of PW_STATUS (R538). -/
def thermalCode (s : State) : Nat :=
  if s.pw.latch then 3 else if s.pw.throttle.isSome then 2 else if s.pw.warning then 1 else 0

/-- The mean power in 0.01 W, rounded (R523, log 52). -/
def meanPower (s : State) : Nat :=
  let m := meanSamples s
  if m = [] then 0 else divRoundNat (total m) m.length

/-- PW_STATUS, 0x0B00 (R538). -/
def execPwStatus (mb : Fin 8) (s : State) : Out :=
  call mb 0x0B00 epdPri 0 (fun _ s =>
    okBytes (b1 (powerCode s.sys.power) ++ b1 ((s.pw.change.map (·.target)).getD 0) ++ b1 s.pw.steps.toNat ++ b1 (thermalCode s)
      ++ b2 (unsigned 16 (tHot s)) ++ b1 (((hottest s).map (·.2)).getD 0xFF) ++ b1 s.pw.lastCause
      ++ b2 (s.pw.samples.headD 0) ++ b2 (meanPower s) ++ b2 (divRoundNat (pEff100 s) 100)) s) s

/-- PW_STATE_SET, 0x0B01 (R516, R517, R535): HOLD is answered before its entry. -/
def execPwStateSet (mb : Fin 8) (s : State) : Out :=
  callThen mb 0x0B01 (fun _ => true) epd 2 (fun p => need (decide (1 ≤ p8 p 0 ∧ p8 p 0 ≤ 4)) (fun s =>
    let prev := powerCode s.sys.power
    if s.pw.change.isSome || s.red.takeover.isSome then refuse stBusy s
    else if (p8 p 0 = 1 ∧ runningJobs s ≠ [] ∧ p8 p 1 ≠ 1) ∨ (2 < p8 p 0 ∧ s.pw.latch = true) then refuse stState s
    else if p8 p 0 = 1 ∨ p8 p 0 = prev then okBytes (b1 prev) s
    else .later (beginChange (p8 p 0) 0 (some mb.val) s)))
    (fun p => when (decide (p8 p 0 = 1)) (beginHold 0)) s

/-- PW_BUDGET_CONFIG, 0x0B02 (R537, R538). -/
def execPwBudgetConfig (mb : Fin 8) (s : State) : Out :=
  call mb 0x0B02 epd 12 (fun p => need (budgetOk p) (fun s => ok (setCfg 0x0B01 (p.take 12) s))) s

/-- PW_THERMAL_CONFIG, 0x0B03 (R532, R537). -/
def execPwThermalConfig (mb : Fin 8) (s : State) : Out :=
  call mb 0x0B03 epd 4 (fun p => need (thermalOk p) (fun s => ok (setCfg 0x0B02 (p.take 4) s))) s

/-- PW_THERMAL_READ, 0x0B04 (R538). -/
def execPwThermalRead (mb : Fin 8) (s : State) : Out :=
  call mb 0x0B04 epdPri 0 (fun _ s => okBytes ((List.range 24).flatMap (fun n =>
    b2 (if sensorValid s n then unsigned 16 (tget 0 s.pw.temp n) else 0x8000))) s) s

/-- PW_WAKE_SET, 0x0B05 (R497, R521). -/
def execPwWakeSet (mb : Fin 8) (s : State) : Out :=
  call mb 0x0B05 epd 10 (fun p =>
    let t := mkStamp (p16 p 2) (uAt 6 p 4)
    need (decide (p8 p 0 ≤ 3 ∧ 2 ≤ p8 p 1 ∧ p8 p 1 ≤ 4)) (fun s => need (aheadBy s 1 t) (fun s =>
      ok (onPw (fun x => { x with wake := tput none (p8 p 0) (some (p8 p 1, t)) x.wake }) s)) s)) s

/-- PW_WAKE_CLEAR, 0x0B06 (R538). -/
def execPwWakeClear (mb : Fin 8) (s : State) : Out :=
  call mb 0x0B06 epd 1 (fun p => need (decide (p8 p 0 < 16)) (fun s =>
    ok (forAll (maskList 4 (p8 p 0)) (fun n => onPw (fun x => { x with wake := tput none n none x.wake })) s))) s

/-- PW_AUTO_CONFIG, 0x0B07 (R522, R537). -/
def execPwAutoConfig (mb : Fin 8) (s : State) : Out :=
  call mb 0x0B07 epd 14 (fun p => need (autoOk p) (fun s =>
    ok (startWindows (setCfg 0x0B03 (p.take 14) s)))) s

/-- The condition of a domain whose clocks stop in EASY and that is On otherwise. -/
def gatedInEasy (s : State) (running : Bool) : Nat :=
  if s.sys.power = .easy ∧ !running then 2 else 4

/-- The condition of the concentrator core of a half (R513, R645). -/
def coreCondition (s : State) (h : Half) : Nat :=
  if (viewAt s h).state = 3 then 0
  else match s.sys.power with
    | .easy => gatedInEasy s ((halfEngines h).any (fun n => !bit s.pw.enginesGated.toNat n))
    | .paddle => 3
    | _ => 4

/-- The condition of a power domain in EASY, PADDLE or DRIVE (R513). -/
def domainCondition (s : State) (d : Nat) : Nat :=
  if d < 3 then 4
  else if d < 19 then (if rowOn s (d - 3) then 4 else 0)
  else if d < 21 then coreCondition s (Half.ofCode (d - 19))
  else if d < 25 then
    (if (coreAt s (d - 21)).state = .off then 0 else if s.sys.power = .easy then 1 else 4)
  else match d with
    | 25 => gatedInEasy s s.cx.awake
    | 26 => if s.bb.selfRefresh then 5 else 4
    | 28 => if groupMode s 0 = 0 ∧ groupMode s 1 = 0 then 0 else 4
    | 29 => if groupMode s 2 = 0 ∧ groupMode s 3 = 0 then 0 else 4
    | 30 => if cfg8 s 0x0907 0 = 0 then 0 else 4
    | 31 => if busyState s then 4 else 0
    | 33 => if s.sys.power = .easy then (if s.ld.awake then 4 else 2) else if ldOn s then 4 else 2
    | _ => 4

/-- PW_DOMAIN_READ, 0x0B08 (R513, R538). -/
def execPwDomainRead (mb : Fin 8) (s : State) : Out :=
  call mb 0x0B08 epd 2 (fun p => need (decide (1 ≤ p8 p 1 ∧ p8 p 0 + p8 p 1 ≤ 34)) (fun s =>
    okBytes ((List.range (p8 p 1)).flatMap (fun i => b1 (domainCondition s (p8 p 0 + i)))) s)) s

/-- A time of PW_STATS in ms. -/
def pwMs (s : State) (i : Nat) : List Byte := b4 (min stat32 (tget 0 s.pw.dwell i / ms 1))

/-- PW_STATS, 0x0B09 (R538). -/
def execPwStats (mb : Fin 8) (s : State) : Out :=
  call mb 0x0B09 epd 1 (fun p s =>
    let s := pwAccount s
    let n (i : Nat) := b4 (tget 0 s.pw.stats i)
    okBytes ((List.range 4).flatMap (pwMs s) ++ n 4 ++ n 5 ++ n 6 ++ n 7 ++ pwMs s 4 ++ n 9 ++ n 10 ++ b4 s.pw.statSat)
      (when (decide (p8 p 0 = 1)) (onPw (fun x => { x with stats := [], dwell := [], statSat := 0 })) s)) s

end Sys2Proof.Machine
end

