-- ==== Sys2Proof/Machine/SafetyPartition.lean ====
section
/-! DEFINITION. The safety partition's commands (chapter 15). -/
namespace Sys2Proof.Machine

/-- The partition starts from its ROM at boot step 3: ROM check, sealed switches, and the arbiter's boot claims
(R602, R604, R643). -/
def execSfRomStart (romOk : Bool) (seals : BitVec 12) (s : State) : Out :=
  event (!s.sys.por && !s.sys.testMode && s.sys.windowReady && !s.sf.started) (fun s =>
    let s := reachUp (s.sf.porAt + ms 5) s
    let s := bootClaims (onSys (fun x => { x with bootStep := max 3 x.bootStep }) s)
    let s := onSf (fun x => { x with started := true }) s
    if !romOk then lockout 4 s
    else
      let s := onSf (fun x => { x with sealRaw := seals, sealsRead := true, sealAt := s.up }) s
      if sealsValid seals then s else lockout 1 s) s

/-- A loop current flows: 0.1 mA or more, in 10 uA units (R598, log 31). -/
def flows (current : Nat) : Bool := decide (10 ≤ current)

/-- An output fails its self-test: a switch closed alone did not close, or let a loop current flow (R602). -/
def selfTestFails (tests : List SwitchTest) (n : Nat) : Bool :=
  tests.any (fun t => decide (t.n = n) && (!t.closed || flows t.current))

/-- The output self-test ends: a bad output is at fault, and the partition enters RUN with HV OFF, the shutter close
requested and a reset needed (R602, R614). -/
def execSfSelfTestDone (tests : List SwitchTest) (s : State) : Out :=
  event (s.sf.started && s.sf.sealsRead && decide (s.sf.part = 0)) (fun s =>
    let s := onSf (fun x => { x with part := 1, hv := 0, shutter := if sealOf s 2 then 2 else 0, resetHv := true, resetSh := true }) s
    forAll ((List.range 2).filter (selfTestFails tests)) (fun n s => outputFault n 579 s) s) s

/-- A logic cycle, 1 ms after the one before: the lanes are voted (a minority lane is reloaded with EV_583, no majority is LOCKOUT), the
functions evaluated, the mirror copied and a changed state sent (R600, R626, R629). -/
def execSfLogicCycle (disagree : List (Fin 3)) (s : State) : Out :=
  event s.sf.started (fun s =>
    let s := reachUp (s.sf.cycleAt + ms 1) s
    let s := onSf (fun x => { x with cycleAt := s.up }) s
    let n := disagree.eraseDups.length
    let s := if 2 ≤ n then lockout 3 s else if n = 1 then raise 583 [] (sfStat 8 s) else s
    let s := copyMirror (sfEval s)
    when (decide (s.sf.part ≠ 0) && (s.sf.owe || decide (s.sf.sent ≠ some (sfStateWord s, sfCausesWord s)))) sendStatus s) s

/-- The discrepancy time of SEAL_1, SEAL_0 in 25 ns units (R605). -/
def discTime (s : State) : Nat := ms ([10, 50, 200, 1000].getD (bitNat (sealOf s 0) + 2 * bitNat (sealOf s 1)) 10)

/-- The discrepancy fault of ILK_n latches, with EV_578 (R609). -/
def latchDisc (n : Nat) (s : State) : State :=
  let was := (ilkAt s n).disc
  let s := modIlk n (fun x => { x with running := false, closing := false, disc := true }) s
  if was then s else raise 578 [] (sfStat 2 s)

/-- A channel of ILK_n changes state (R608, R609); a change later than the discrepancy time as measured comes after the
latch. -/
def ilkChange (n : Nat) (chB closed : Bool) (s : State) : State :=
  let s := if (ilkAt s n).running ∧ (ilkAt s n).runAt + discTime s + ms 2 < s.up then latchDisc n s else s
  let s := modIlk n (fun x => if chB then { x with b := closed } else { x with a := closed }) s
  let x := ilkAt s n
  let longOpen := match x.openAt with
    | some t => decide (t + ms 100 ≤ s.up)
    | none => false
  if x.a != x.b then
    modIlk n (fun x => { x with running := true, runAt := s.up, closing := closed && longOpen, openAt := none }) s
  else if x.a then
    let clears := x.disc && x.closing && x.running
    let s := modIlk n (fun x => { x with running := false, closing := false, openAt := none, disc := x.disc && !clears }) s
    if clears then onSf (fun x => { x with
      discReset := true, resetHv := true, discSh := x.discSh || decide (n = 1), resetSh := x.resetSh || decide (n = 1) }) s
    else s
  else modIlk n (fun x => { x with running := false, closing := false, openAt := some s.up }) s

/-- A sample of a channel in mV reads closed: A below 0.5 V, B above 1.3 V; a level between the thresholds reads open
(R607). -/
def readsClosed (chB : Bool) (mv : Nat) : Bool := if chB then decide (1300 < mv) else decide (mv < 500)

/-- An interlock channel changes state after three agreeing samples, in mV (R607, R608, R609). -/
def execIlkChannelChange (n : Fin 4) (chB : Bool) (samples : List Nat) (s : State) : Out :=
  let closed := !(if chB then (ilkAt s n).b else (ilkAt s n).a)
  event (s.sf.started && decide (samples.length = 3) && samples.all (fun v => readsClosed chB v == closed))
    (fun s => sfEval (ilkChange n chB closed s)) s

/-- The other channel has not followed within the discrepancy time, measured to 2 ms (which moment of these is open, log
23): the fault latches with EV_578 (R605, R609). -/
def execIlkDiscrepancyTimeout (n : Fin 4) (s : State) : Out :=
  event (ilkAt s n).running (fun s =>
    let (k, s) := drawNat s
    sfEval (latchDisc n (reachUp ((ilkAt s n).runAt + discTime s - ms 2 + k % (ms 4 + 1)) s))) s

/-- The pairs are read again every 100 ms; a change or an invalid pair is LOCKOUT SEAL_CHANGED (R606). -/
def execSealReread (seals : BitVec 12) (s : State) : Out :=
  event (s.sf.started && s.sf.sealsRead && decide (s.sf.part ≠ 2))
    (fun s =>
      let s := reachUp (s.sf.sealAt + ms 100) s
      let s := onSf (fun x => { x with sealAt := s.up }) s
      if seals = s.sf.sealRaw ∧ sealsValid seals = true then s else lockout 2 s) s

/-- One output is read back (R612): the loop current, and an open load (below 1.0 mA), a short that has lasted 1 ms, or a
contradiction (a loop current with the output off, or `contradicts` of the voltages, log 31) is a fault. -/
def readback (r : SoReadback) (s : State) : State :=
  let n := r.n % 2
  let on := bit s.sf.soCmd.toNat n
  let m := BitVec.ofNat 2 (2 ^ n)
  let short := on && r.atLimit && decide (r.highMv < 300)
  let since := (tget none s.sf.shortAt n).getD s.up
  let s := onSf (fun x => { x with
    soCurrent := if flows r.current then x.soCurrent ||| m else x.soCurrent &&& ~~~ m
    shortAt := tput none n (if short then some since else none) x.shortAt }) s
  if r.contradicts || (!on && flows r.current) || (on && decide (r.current < 100)) || (short && decide (since + ms 1 ≤ s.up)) then
    outputFault n 579 s
  else s

/-- The safe outputs are read back every millisecond (R612, R614). -/
def execSoReadback (rb : List SoReadback) (s : State) : Out :=
  event (s.sf.started && decide (s.sf.part ≠ 0)) (fun s =>
    let s := reachUp (s.sf.readAt + ms 1) s
    forAll rb readback (onSf (fun x => { x with readAt := s.up }) s)) s

/-- The readings of a dark test pass (R613): each switch opened alone interrupts the loop, and the current is restored. -/
def darkPasses (r : DarkReadings) : Bool :=
  r.highLow && !flows r.current1 && decide (100 ≤ r.restored) && r.lowHigh && !flows r.current2

/-- The moment of an output's next dark test: at once by call; else 60 min after the last one since its switch-on, or after
the switch-on, to 1 min (which moment of these is open, log 23; R613). -/
def reachDark (n : Nat) (s : State) : State :=
  if s.sf.dark.any (fun d => bit d.2.1.toNat n) then s
  else
    let from_ := max (tget 0 s.sf.onAt n) (((tget none s.sf.darkAt n).map (·.1)).getD 0)
    let (k, s) := drawNat s
    reachUp (from_ + ms (59 * 60000) + k % (ms 120000 + 1)) s

/-- A dark test of an output that is on ends after 500 us: the result with its tick, and a failure as an output fault (R613,
R614). -/
def execSoDarkTest (n : Fin 2) (r : DarkReadings) (s : State) : Out :=
  event (decide (s.sf.part = 1) && bit s.sf.soCmd.toNat n) (fun s =>
    let s := advance (us 500) (reachDark n s)
    let m := BitVec.ofNat 2 (2 ^ n.val)
    let passed := darkPasses r
    let s := onSf (fun x => { x with
      darkAt := tput none n.val (some (s.up, now s, passed)) x.darkAt
      dark := x.dark.map (fun d =>
        if bit d.2.1.toNat n then (d.1, d.2.1 &&& ~~~ m, d.2.2.set n.val (if passed then 0 else 1)) else d) }) s
    settleDark (if passed then sfStat 6 s else outputFault n 580 s)) s

/-- The checks of R625 on a COMMAND. -/
def commandOk (p : List Byte) (s : State) : Bool :=
  decide (p.length = 32) && decide (safetyCrc (p.take 28) = u32At p 28)
    && decide (byteAt p 0 = 1 ∧ byteAt p 1 = 1)
    && decide (u32At p 8 = s.sys.serial.toNat % 2 ^ 32 ∧ u32At p 4 = s.sf.peer ∧ s.sf.peer ≠ 0)
    && decide (5 ≤ u16At p 12 ∧ u16At p 12 ≤ 500)
    && (match s.sf.lastSeq with
        | none => true
        | some q => let d := claimDiff (u16At p 2) q; decide (1 ≤ d ∧ d ≤ 16))

/-- The connection expires with EV_585 and, with SEAL_3 = 0, the latch (R625, R628). -/
def connLost (s : State) : State :=
  let s := onSf (fun x => { x with conn := false, lastSeq := none, expiry := x.expiry || !sealOf s 3 }) (sfStat 5 s)
  sfEval (raise 585 [] s)

/-- A COMMAND frame arrives on a RUNNING group: one that comes later than WATCHDOG and the 1 ms of its measurement finds the
connection expired (R625). It is checked, accepted or rejected, and answered with STATUS (R625 to R628). -/
def execSfCommandRx (payload : List Byte) (s : State) : Out :=
  event (s.sf.started && decide (s.sf.part ≠ 0) && (List.range 4).any (fun g => (groupAt s g).running)) (fun s =>
    let s := if s.sf.conn ∧ s.sf.cmdAt + ms (s.sf.watchdog + 1) < s.up then connLost s else s
    if !commandOk payload s then raise 586 [] (sfStat 4 s)
    else
      let was := s.sf.conn
      let s := onSf (fun x => { x with
        conn := true, permit := bit (u32At payload 16) 0, expiry := false, watchdog := u16At payload 12, cmdAt := s.up,
        lastSeq := some (u16At payload 2), echo := u16At payload 2 }) (sfStat 3 s)
      let s := raiseIf (!was) 584 [] s
      let s := sfEval s
      let s := if bit (u32At payload 16) 1 then (sfReset s).2 else s
      sendStatus s) s

/-- No COMMAND within WATCHDOG ms of the last one, measured to 1 ms (which moment of these is open, log 23): the connection
expires (R625, R628). -/
def execSfConnExpiry (s : State) : Out :=
  event s.sf.conn (fun s =>
    let (k, s) := drawNat s
    connLost (reachUp (s.sf.cmdAt + ms (s.sf.watchdog - 1) + k % (ms 2 + 1)) s)) s

/-- With the HVMON trip on and HV ON, the partition requests an injected conversion of MC_24 every 10 ms (R620). -/
def execSfHvmonPoll (s : State) : Out :=
  event (sealOf s 4 && decide (s.sf.part = 1 ∧ s.sf.hv = 2) && s.sc.on && decide (s.sc.safeQ < 2))
    (fun s =>
      let s := onSf (fun x => { x with pollAt := max s.up (x.pollAt + ms 10) }) (reachUp (s.sf.pollAt + ms 10) s)
      onSc (fun x => { x with safeQ := x.safeQ + 1 }) s) s

/-- SF_STATUS, 0x0E00: the mirror words (R631). -/
def execSfStatus (mb : Fin 8) (s : State) : Out :=
  call mb 0x0E00 epdPri 0 (fun _ s => okBytes (s.sf.mirror.flatMap b4) s) s

/-- The partition refuses a request: DENIED with the causes (R631). -/
def sfDenied (s : State) : Reply := .done stDenied (b2 (hvCauses s)) s

/-- SF_HV_REQUEST, 0x0E01 (R616, R618, R632). -/
def execSfHvRequest (mb : Fin 8) (s : State) : Out :=
  call mb 0x0E01 epdPri 1 (fun p => need (decide (p8 p 0 ≤ 1)) (fun s =>
    let s := sfEval (onSf (fun x => { x with hvReq := decide (p8 p 0 = 1) }) s)
    okBytes (b1 s.sf.hv) s)) s

/-- SF_RESET, 0x0E02 (R618, R628, R631). -/
def execSfReset (mb : Fin 8) (s : State) : Out :=
  call mb 0x0E02 epdPri 0 (fun _ s =>
    let r := sfReset s
    if r.1 then okBytes (b1 r.2.sf.hv ++ b1 r.2.sf.shutter) r.2 else sfDenied r.2) s

/-- SF_SHUTTER_REQUEST, 0x0E03 (R617, R632). -/
def execSfShutterRequest (mb : Fin 8) (s : State) : Out :=
  call mb 0x0E03 epdPri 1 (fun p => need (decide (p8 p 0 ≤ 1)) (fun s =>
    let s := sfEval (onSf (fun x => { x with hostClose := decide (p8 p 0 = 1) }) s)
    okBytes (b1 s.sf.shutter) s)) s

/-- SF_DARK_TEST, 0x0E04: a test at once on each output that is on; the answer follows its tests (R613, R631). -/
def execSfDarkTest (mb : Fin 8) (s : State) : Out :=
  call mb 0x0E04 epd 0 (fun _ s =>
    if s.sf.soCmd = 0 then okBytes [2, 2] s
    else .later (onSf (fun x => { x with dark := some (mb.val, x.soCmd, [2, 2]) }) s)) s

/-- A trip-log entry as bytes (R631). -/
def tripBytes (t : Trip) : List Byte := b1 t.fn ++ b1 t.first ++ b2 t.causes ++ stampBytes t.stamp ++ b4 t.ms

/-- SF_TRIP_LOG, 0x0E05; an index with no entry reads zeros (R631, log 31). -/
def execSfTripLog (mb : Fin 8) (s : State) : Out :=
  call mb 0x0E05 epd 1 (fun p => need (decide (p8 p 0 ≤ 15)) (fun s =>
    okBytes (match s.sf.trips[p8 p 0]? with
      | some t => tripBytes t
      | none => List.replicate 16 0) s)) s

/-- Minutes since an output's last dark test; 0xFFFF where none has been made (R631, log 31). -/
def darkMinutes (s : State) (n : Nat) : Nat :=
  match tget none s.sf.darkAt n with
  | some (t, _) => min 0xFFFF ((s.up - t) / ms 60000)
  | none => 0xFFFF

/-- SF_STATS, 0x0E06 (R631, R632). -/
def execSfStats (mb : Fin 8) (s : State) : Out :=
  call mb 0x0E06 epd 1 (fun p s =>
    let bs := statBytes 9 s.sf.stats s.sf.statSat ++ b2 (darkMinutes s 0) ++ b2 (darkMinutes s 1)
    okBytes bs (when (decide (p8 p 0 = 1)) (onSf (fun x => { x with stats := [], statSat := 0 })) s)) s

end Sys2Proof.Machine
end

