-- ==== Sys2Proof/Machine/Sequencer.lean ====
section
/-! DEFINITION. The supply sequencer, POR_N and RST_N (chapter 17, R674 to R681, R686; R80 step 1). -/
namespace Sys2Proof.Machine

/-- A flash device over a power-on reset: its bytes stay, what the module knows of it is forgotten (R65, log 51). -/
def flashOver (c : FlashChip) : FlashChip := { cells := c.cells }

/-- What a power-on reset leaves: reset values, but for the fuses and the flash (R63, R65, R679). -/
def porState (s : State) : State := {
  sys := {
    partNum := s.sys.partNum, stepping := s.sys.stepping, screen := s.sys.screen, romVer := s.sys.romVer
    serial := s.sys.serial, lc := s.sys.lc, keyRevoked := s.sys.keyRevoked, rbCount := s.sys.rbCount
    keyHash := s.sys.keyHash, cs0 := flashOver s.sys.cs0, cs1 := flashOver s.sys.cs1 }
  up := s.up, freeCtr := s.freeCtr, pending := s.pending }

/-- POR_N falls (R679, R696). -/
def execPorAssert (s : State) : Out := event true porState s

/-- TEST_EN is honoured in MANUFACTURE and DEVELOP (R89, R91). -/
def honoursTest (s : State) : Bool := decide (s.sys.lc = 0b0001 ∨ s.sys.lc = 0b0011)

/-- The table raises an enable 0.2 ms after the step before it; PWR_GOOD falls with the new rails out of range (R674,
R675). -/
def enable (en : BitVec 4) (s : State) : State :=
  let s := advance (us 200) s
  onSeq (fun x => { x with en := en, good := false, at_ := s.up }) s

/-- POR_N is released (R80 step 1, R91, R640, R675): the straps are sampled, the power-up table begins with SEQ_EN_0. -/
def execPorRelease (st : StrapLevels) (s : State) : Out :=
  event s.sys.por (fun s =>
    let s := onSys (fun x => { x with
      por := false, bootStep := 1, bootSel := st.bootSel, tileId := st.tileId, bootStart := s.up
      testMode := st.testEn && honoursTest s }) s
    let s := onSf (fun x => { x with porAt := s.up }) s
    let s := modView .b (fun v => { v with gnt := st.gntB }) (modView .s (fun v => { v with gnt := st.gntS }) s)
    enable 1 (onSeq (fun x => { x with waiting := true }) (onRed (fun r => { r with ext := st.gntS && st.gntB }) s))) s

/-- The enable after those raised (R675). -/
def nextEnable (en : BitVec 4) : BitVec 4 := (en <<< 1) ||| 1

/-- PWR_GOOD rises (R674, R675). -/
def execPwrGoodRise (s : State) : Out :=
  event (!s.sys.por && !s.seq.good && decide (s.seq.en ≠ 0)) (fun s =>
    let s := onSeq (fun x => { x with good := true }) s
    if !s.seq.waiting then s
    else if s.seq.en = 0xF then onSeq (fun x => { x with waiting := false, up := true }) s
    else enable (nextEnable s.seq.en) s) s

/-- The number of the enable raised last. -/
def lastEnable (en : BitVec 4) : Nat := if bit en.toNat 3 then 3 else if bit en.toNat 2 then 2 else if bit en.toNat 1 then 1 else 0

/-- PWR_GOOD has not risen 1.5 ms after an enable of the table: every enable falls, EV_024 with its number (R676). -/
def execSeqEnableTimeout (s : State) : Out :=
  event (!s.sys.por && s.seq.waiting) (fun s =>
    let s := reachUp (s.seq.at_ + us 1500) s
    let n := lastEnable s.seq.en
    raise 24 (b1 n) (onSeq (fun x => { x with en := 0, waiting := false, retry := true, at_ := s.up }) s)) s

/-- One second after a sequencing failure the table starts again from step 2 (R676). -/
def execSeqRetryTimer (s : State) : Out :=
  event s.seq.retry (fun s =>
    enable 1 (onSeq (fun x => { x with waiting := true, retry := false }) (reachUp (s.seq.at_ + ms 1000) s))) s

/-- EV_025 with the PMIC's status bytes, 0xFF each where no device acknowledges (R677, R680). -/
def goodLost (pmic : Option (List Byte)) (s : State) : State :=
  raise 25 ((padTo 8 (pmic.getD (List.replicate 8 0xFF))).take 8) (onSeq (fun x => { x with good := false, at_ := s.up }) s)

/-- The time core after a loss of its power: its reset state; FREQ_STATE is FREERUN only where no source has ever been
usable since power-on reset (R485). -/
def timeLost (x : TcState) : TcState :=
  { everUsable := x.everUsable, freqState := if x.everUsable then .holdover else .freerun }

/-- The contents of every memory outside PD_0 and PD_1 are lost with the rails, and the boot resumes at step 4 as after a
warm reset once they are back (R677). -/
def railsLost (s : State) : State :=
  let s := forAll s.sys.jobs (fun j => abandonJob j stHwFault 0x13) s
  let s := dropRing (unconfigure (dropWaiters s))
  let s := halvesDown (bootFrom4 true (onTc timeLost (onBb (fun _ => {}) (onLk (fun _ => {}) s))))
  onSeq (fun x => { x with en := 1, up := false, lost := true }) s

/-- PWR_GOOD is lost with the module in HOLD or on its way out: the module stays in HOLD with SEQ_EN_0 (R677, R678). What
the wake had restored is lost; the queue check of the next wake decides. -/
def goodLostInHold (s : State) : State :=
  let s := match s.pw.change.map (·.phase) with
    | some 4 => onBb (fun x => { x with saved := false }) (holdOff s)
    | _ => s
  onPw (fun x => { x with change := none }) (onSeq (fun x => { x with en := x.en &&& 1 }) s)

/-- PWR_GOOD is expected to be high. -/
def goodExpected (s : State) : Bool :=
  !s.sys.por && s.seq.good && !s.seq.waiting && !s.seq.retry && !s.seq.lost

/-- PWR_GOOD falls for a time (R677); boot hold stays (R86, log 48). -/
def execPwrGoodFall (ns : Nat) (pmic : Option (List Byte)) (s : State) : Out :=
  event (goodExpected s && decide (10000 ≤ ns)) (fun s =>
    let s := goodLost pmic s
    if s.sys.power = .hold then goodLostInHold s
    else if s.sys.noCox then onSeq (fun x => { x with en := 1, up := false }) s
    else if s.sys.bootHold then s
    else railsLost s) s

/-- Ten milliseconds after the loss of PWR_GOOD steps 4 to 9 of the power-up table run again (R677). -/
def execPwrGoodRetryTimer (s : State) : Out :=
  event s.seq.lost (fun s =>
    let s := reachUp (s.seq.at_ + ms 10) s
    onSeq (fun x => { x with en := 3, waiting := true, lost := false, good := false, at_ := s.up }) s) s

/-- PWR_GOOD is not high 2 ms after the enables of a wake (R678). -/
def execWakePwrGoodTimeout (pmic : Option (List Byte)) (s : State) : Out :=
  event (decide ((s.pw.change.map (·.phase)) = some 3) && !s.seq.good) (fun s =>
    let s := reachUp (((s.pw.change.map (·.began)).getD 0) + ms 2) s
    goodLostInHold (goodLost pmic s)) s

/-- A reset by RST_N (R686, R700): in HOLD the module wakes first. -/
def pinReset (s : State) : State :=
  match s.pw.change with
  | some c =>
    if c.phase = 0 ∨ c.phase = 4 then warmReset s
    else onPw (fun x => { x with change := some { c with warm := true, wake := if c.wake.1 = 0 ∧ c.phase < 3 then (3, 0xFF) else c.wake } }) s
  | none =>
    if s.sys.power = .hold then wakeStart 3 0xFF none true s
    else if s.sys.noCox then
      warmReset (forAll [Half.s, Half.b] (fun h => modView h (fun v => { v with state := 0 })) s)
    else warmReset s

/-- A low pulse on RST_N (R686): below 100 ns ignored, from 1 us a reset; in between either, and which is open (log 23). -/
def execRstNPulse (ns : Nat) (s : State) : Out :=
  event (!s.sys.por && !s.sys.testMode && decide (3 ≤ s.sys.bootStep ∧ 100 ≤ ns)) (fun s =>
    if 1000 ≤ ns then pinReset s
    else
      let (b, s) := drawBool s
      if b then pinReset s else s) s

end Sys2Proof.Machine
end

