-- ==== Sys2Proof/Machine/SlowControl.lean ====
section
/-! DEFINITION. The slow-control commands (chapter 13). -/
namespace Sys2Proof.Machine

/-- The earliest end of the present gap: PASS_PERIOD after the start of the last pass, and 10 us after its own start
(R550, R565). -/
def gapEnd (s : State) : Nat :=
  let period := u32At (s.sc.seq.getD ((settingDefault 0x0C02).getD [])) 27
  max (if s.sc.passed then s.sc.passAt.1 + ms period else 0) (s.sc.gapAt + us 10)

/-- The next regular pass starts, the gap's work done: configurations and sequence come into force (R547, R550, R560). -/
def execScPassStart (s : State) : Out :=
  event (inGap s && s.sc.cals.isEmpty && (dueChecks s).isEmpty) (fun s =>
    let s := onSc (fun x => { x with passed := true, later := 0 }) (reachUp (gapEnd s) s)
    let new := cfg s 0x0C01
    let changed := (List.range 16).filter (fun n => decide (bytesAt new (32 * n) 32 ≠ padTo 32 (bytesAt s.sc.chans (32 * n) 32)))
    let s := forAll changed (fun n => modChan n (fun x => { x with gain := none })) s
    regularNext (onSc (fun x => { x with
      chans := new, seq := some (cfg s 0x0C02), inPass := true, pos := 0, passAt := (s.up, x.passAt.2) }) s)) s

/-- What the end of an injected conversion adds: the request's result, EV_521, its count (R551). -/
def injectDone (c : Conv) (s : State) : State :=
  match c.why with
  | .regular => scStat 1 s
  | .host n => raise 521 [] (scStat 3 (setReq n 2 (some (chanAt s c.ch).result) s))
  | .safety => raise 521 [] (scStat 4 s)

/-- A conversion is made for the safety partition. -/
def isSafety (w : ConvFor) : Bool :=
  match w with
  | .safety => true
  | _ => false

/-- A conversion completes: its record, its consumers, and what the converter does next (R548 to R551, R590, R620). -/
def execScConversionDone (r : Conversion) (s : State) : Out :=
  match s.sc.conv with
  | none => .next s
  | some c => event (!s.sc.calStep) (fun s =>
      let s := reachUp (convEnd s c) s
      let s := holdGuard c.ch r.vp (if chanKind s c.ch = 1 then 0 else r.vn) s
      let s := storeResult c r (onSc (fun x => { x with conv := none }) s)
      let s := injectDone c s
      let st := byteAt (chanAt s c.ch).result 0
      let s := if c.ch = 24 then hvmonResult (isSafety c.why) (chanValue s 24) (bit st 0) s else s
      let s := if c.ch < 16 then colourUpdate c.ch c.start (bit st 0 || bit st 1 || bit st 2) (chanValue s c.ch) s else s
      scNext s) s

/-- A waiting safety-partition request starts at once, abandoning other work (R551, R553). -/
def execScSafetyInjectRequest (s : State) : Out :=
  event (s.sc.on && decide (s.sc.safeQ ≠ 0) && !(match s.sc.conv with
    | some c => isSafety c.why
    | none => false)) (fun s => scNext (abandon s)) s

/-- A waiting host request starts at the next output-period boundary of a regular conversion, or in a gap (R551). -/
def execScInjectedConversionStart (s : State) : Out :=
  event (s.sc.on && !s.sc.calStep && s.sc.check.isNone && decide (s.sc.hostQ ≠ []) && (match s.sc.conv with
    | some { why := .regular, .. } => true
    | none => true
    | _ => false)) (fun s => scNext (abandon (reachUp (hostFrom s) s))) s

/-- A calibration step's coefficients are taken unless they pass the limits (R552). -/
def takeCoef (g : Nat) (offsetNv gainPpm : Int) (s : State) : State :=
  if offsetNv.natAbs * 2 ^ g ≤ 50000000 ∧ gainPpm.natAbs ≤ 20000 then
    onSc (fun x => { x with coef := tput none g (some (offsetNv, gainPpm)) x.coef }) s
  else raise 520 [] s

/-- The current a source is programmed for in uA, by the channels in force that name it; 0 with none (R547, R554). -/
def excProg (s : State) (src : Nat) : Nat :=
  (((List.range 16).find? (fun c => decide ((chanExc s c).1 = src))).map (fun c => (chanExc s c).2)).getD 0

/-- A calibration has measured each source at its programmed current (R554). -/
def takeExc (exc0 exc1 : Nat) (s : State) : State :=
  onSc (fun x => { x with excMeas := tput none 2 (some (excProg s 2, exc1)) (tput none 1 (some (excProg s 1, exc0)) x.excMeas) }) s

/-- A calibration has ended: the sources' currents, EV_519, its time, its job (R552, R554). -/
def calDone (job : Option Nat) (exc0 exc1 : Nat) (s : State) : State :=
  let s := takeExc exc0 exc1 s
  let s := raise 519 [] (onSc (fun x => { x with lastCal := some (s.up, chanValue s 21) }) s)
  match job with
  | some n => jobDone n s
  | none => s

/-- A calibration step ends (R552, R553). -/
def execScCalStepDone (offsetNv gainPpm : Int) (exc0 exc1 : Nat) (s : State) : Out :=
  event s.sc.calStep (fun s =>
    let s := reachUp (s.sc.calAt + calStepTicks) s
    match s.sc.cals with
    | [] => onSc (fun x => { x with calStep := false }) s
    | c :: cs =>
      let s := takeCoef (c.gains.headD 0) offsetNv gainPpm (scStat 5 s)
      let rest := c.gains.drop 1
      let s := onSc (fun x => { x with
        calStep := false, cals := if rest = [] then cs else { c with gains := rest } :: cs }) s
      scNext (if rest = [] then calDone c.job exc0 exc1 s else s)) s

/-- The gains in use by the sequence (R552). -/
def gainsInUse (s : State) : List Nat :=
  (List.range 8).filter (fun g => (sequence s).any (fun c => chanOn s c && decide (chanGain s c = g)))

/-- The moment from which an automatic calibration is due: at once where MC_21 has moved by more than 5 K since the last one
or there was none, else when CAL_PERIOD has passed since (R552). -/
def autoCalDue (s : State) : Nat :=
  match s.sc.lastCal with
  | some (t, v) => if 5000 < (chanValue s 21 - v).natAbs then s.up else t + cfg16 s 0x0C04 0 * ms 1000
  | none => s.up

/-- An automatic calibration becomes due and takes the sequence gap (R552). -/
def execScAutoCalDue (s : State) : Out :=
  event (s.sc.on && decide (cfg16 s 0x0C04 0 ≠ 0) && s.sc.cals.all (·.job.isSome) && decide (gainsInUse s ≠ [])) (fun s =>
    gapWork (addCal (gainsInUse s) none (reachUp (autoCalDue s) s))) s

/-- A pin has been outside the window for 8 modulator clocks: BREAK, EV_512, and a check in the next gap for an RTD
(R558, R560). -/
def execScPinBreak (ch pin clocks : Nat) (s : State) : Out :=
  event (s.sc.on && decide ((ch < 16 ∨ ch = 24) ∧ 8 ≤ clocks ∧ pin ∈ chanPins s ch) && chanOn s ch && !(chanAt s ch).brk) (fun s =>
    let s := modChan ch (fun x => { x with brk := true, pin := pin % 256, inside := 0 }) s
    let s := when (chanRtd s ch) (onSc (fun x => { x with checks := x.checks ||| 2 ^ ch })) s
    gapWork (raise 512 (b1 ch ++ b1 pin) (scStat 7 s))) s

/-- The excitation check in progress ends: the class, EXC_FAULT, EV_514 or EV_515, and what comes next (R559, R560). -/
def execScExcMonitorDone (m : ExcMonitor) (s : State) : Out :=
  match s.sc.check with
  | none => .next s
  | some c => event s.sc.on (fun s =>
      let s := onSc (fun x => { x with check := none }) (reachUp (checkEnd s c) s)
      let s := match excClass (excNominal s c.1) m with
        | some k => classify c.1 k s
        | none => s
      let s := onSc (fun x => { x with checks := if bit x.checks c.1 then x.checks - 2 ^ c.1 else x.checks }) s
      scNext (diagDone c.1 s)) s

/-- What SC_STATUS calls the activity (R566). -/
def scActivity (s : State) : Nat :=
  if s.sc.calStep then 2 else match s.sc.conv with
    | some { why := .regular, .. } => 0
    | some _ => 1
    | none => if calBegun s then 2 else if s.sc.inPass then 0 else 3

/-- SC_STATUS, 0x0C00 (R566). -/
def execScStatus (mb : Fin 8) (s : State) : Out :=
  call mb 0x0C00 epdPri 0 (fun _ s => okBytes
    (b1 (scActivity s) ++ b1 (s.sc.hostQ.length + s.sc.safeQ) ++ b1 (maskOf 8 (fun g => (tget none s.sc.coef g).isSome)) ++ [0] ++
      b4 (maskOf 25 (fun c => (chanAt s c).brk)) ++ b4 (maskOf 25 (fun c => (chanAt s c).excFault)) ++
      b2 (min 0xFFFF (s.sc.passAt.2 / ms 1))) s) s

/-- SC_CHANNEL_CONFIG, 0x0C01 (R544, R547). -/
def execScChannelConfig (mb : Fin 8) (s : State) : Out :=
  call mb 0x0C01 epd 36 (fun p s =>
    let v := bytesAt p 4 32
    need (decide (p8 p 0 < 16) && chanConfOk v && excAgree (bytesPut (cfg s 0x0C01) (32 * p8 p 0) v))
      (fun s => ok (setCfgEntry 0x0C01 32 (p8 p 0) v s)) s) s

/-- SC_CHANNEL_READ, 0x0C02 (R566). -/
def execScChannelRead (mb : Fin 8) (s : State) : Out :=
  call mb 0x0C02 epd 1 (fun p => need (decide (p8 p 0 ≤ 24)) (fun s => okBytes (chanConf s (p8 p 0)) s)) s

/-- SC_SEQUENCE_SET, 0x0C03 (R550, R565). -/
def execScSequenceSet (mb : Fin 8) (s : State) : Out :=
  call mb 0x0C03 epd 31 (fun p => need (sequenceOk p) (fun s => ok (setCfg 0x0C02 (p.take 31) s))) s

/-- SC_RESULT_READ, 0x0C04 (R548). -/
def execScResultRead (mb : Fin 8) (s : State) : Out :=
  call mb 0x0C04 epdPri 2 (fun p => need (decide (1 ≤ p8 p 1 ∧ p8 p 1 ≤ 14 ∧ p8 p 0 + p8 p 1 ≤ 25)) (fun s =>
    okBytes ((List.range (p8 p 1)).flatMap (fun i => padTo 16 (chanAt s (p8 p 0 + i)).result)) s)) s

/-- SC_INJECT, 0x0C05 (R551, R567). -/
def execScInject (mb : Fin 8) (s : State) : Out :=
  call mb 0x0C05 epdPri 1 (fun p => need (decide (p8 p 0 ≤ 24)) (fun s => needState (chanOn s (p8 p 0)) (fun s =>
    if 4 ≤ s.sc.hostQ.length then refuse stBusy s
    else
      let n := s.sc.nextReq
      let s := onSc (fun x => { x with
        nextReq := nextJobNumber n, hostQ := x.hostQ ++ [n]
        reqs := ({ num := n, ch := p8 p 0, state := 0, result := List.replicate 16 0 } :: x.reqs).take 16 }) s
      okBytes (b2 n ++ stampBytes (now s + BitVec.ofNat 64 (injectedTicks s))) s) s)) s

/-- SC_INJECT_READ, 0x0C06 (R566, R567). -/
def execScInjectRead (mb : Fin 8) (s : State) : Out :=
  call mb 0x0C06 epdPri 2 (fun p s => okBytes (match s.sc.reqs.find? (fun r => decide (r.num = p16 p 0)) with
    | some r => b1 r.state ++ [0, 0, 0] ++ padTo 16 r.result
    | none => [3, 0, 0, 0] ++ List.replicate 16 0) s) s

/-- A calibration by call is accepted; with nothing injected it starts at once, pausing the regular sequence
(R552, R553). -/
def acceptCal (gains : List Nat) (n : Nat) (s : State) : State :=
  let s := addCal gains (some n) s
  if calMayBegin s && !s.sc.calStep && s.sc.check.isNone then calBegin (abandon s) else s

/-- SC_CALIBRATE, 0x0C07 (R553, R566). -/
def execScCalibrate (mb : Fin 8) (s : State) : Out :=
  call mb 0x0C07 epd 1 (fun p => need (decide (p8 p 0 ≠ 0)) (fun s =>
    let gains := maskList 8 (p8 p 0)
    let t := injectedTicks s
    if t = 0 then startJob 0x0C07 (p.take 1) (acceptCal gains) s
    else
      let n := s.sys.nextJob
      match deferJob 0x0C07 (p.take 1) (now s + BitVec.ofNat 64 t) s with
      | .done st bs s => .done st bs (if st = stDeferred then addCal gains (some n) s else s)
      | r => r)) s

/-- SC_DIAG_RUN, 0x0C08, on enabled RTD channels (R560, log 32). -/
def execScDiagRun (mb : Fin 8) (s : State) : Out :=
  call mb 0x0C08 epd 2 (fun p => need (decide (p16 p 0 ≠ 0) && (maskList 16 (p16 p 0)).all (fun c => chanOn s c && chanRtd s c))
    (startJob 0x0C08 (p.take 2) (fun n s => gapWork (onSc (fun x => { x with diags := x.diags ++ [(n, p16 p 0)] }) s)))) s

/-- SC_CHANNEL_STATUS, 0x0C09 (R555, R559, R566). -/
def execScChannelStatus (mb : Fin 8) (s : State) : Out :=
  call mb 0x0C09 epd 1 (fun p => need (decide (p8 p 0 ≤ 24)) (fun s =>
    let x := chanAt s (p8 p 0)
    okBytes (b1 (bitNat x.brk) ++ b1 x.cls ++ b1 (chanGain s (p8 p 0)) ++ b1 x.pin ++ b4 x.lead ++ b4 x.exc ++ b4 x.conversions) s)) s

/-- SC_STATS, 0x0C0A (R566). -/
def execScStats (mb : Fin 8) (s : State) : Out :=
  call mb 0x0C0A epd 1 (fun p s => okBytes (statBytes 8 s.sc.stats s.sc.statSat)
    (when (decide (p8 p 0 = 1)) (onSc (fun x => { x with stats := [], statSat := 0 })) s)) s

end Sys2Proof.Machine
end

