-- ==== Sys2Proof/Machine/Dispatch.lean ====
section
/-! DEFINITION. The dispatch: one arm per command, each a direct call of its meaning. -/
namespace Sys2Proof.Machine

/-- The effect of a command on everything but the queue of commands that wait. -/
def exec (i : Instr) (s : State) : Host.Outcome State Fault Refusal :=
  match i with
  | .sbRead addr words => Sys2Proof.Machine.execSbRead addr words s
  | .sbWrite addr data => Sys2Proof.Machine.execSbWrite addr data s
  | .sbStatus => Sys2Proof.Machine.execSbStatus s
  | .sbUnknownCommand cmd => Sys2Proof.Machine.execSbUnknownCommand cmd s
  | .windowWrite addr w => Sys2Proof.Machine.execWindowWrite addr w s
  | .eventStickyClear k w => Sys2Proof.Machine.execEventStickyClear k w s
  | .ctrlRead rq => Sys2Proof.Machine.execCtrlRead rq s
  | .ctrlWrite rq => Sys2Proof.Machine.execCtrlWrite rq s
  | .unknownCall mb => Sys2Proof.Machine.execUnknownCall mb s
  | .jobComplete job out => Sys2Proof.Machine.execJobComplete job out s
  | .jobDeferredStart job => Sys2Proof.Machine.execJobDeferredStart job s
  | .sysNop mb => Sys2Proof.Machine.execSysNop mb s
  | .sysIdent mb => Sys2Proof.Machine.execSysIdent mb s
  | .sysResetWarm mb => Sys2Proof.Machine.execSysResetWarm mb s
  | .sysResetCox mb => Sys2Proof.Machine.execSysResetCox mb s
  | .sysResetBoth mb => Sys2Proof.Machine.execSysResetBoth mb s
  | .sysLeadSet mb => Sys2Proof.Machine.execSysLeadSet mb s
  | .sysBootReport mb => Sys2Proof.Machine.execSysBootReport mb s
  | .sysFlashInfo mb => Sys2Proof.Machine.execSysFlashInfo mb s
  | .sysSettingRead mb => Sys2Proof.Machine.execSysSettingRead mb s
  | .sysSettingsSave mb => Sys2Proof.Machine.execSysSettingsSave mb s
  | .sysImageCommit mb => Sys2Proof.Machine.execSysImageCommit mb s
  | .sysJobStatus mb => Sys2Proof.Machine.execSysJobStatus mb s
  | .sysImageBegin mb => Sys2Proof.Machine.execSysImageBegin mb s
  | .sysImageData mb => Sys2Proof.Machine.execSysImageData mb s
  | .sysImageVerify mb => Sys2Proof.Machine.execSysImageVerify mb s
  | .sysRollbackAdvance mb => Sys2Proof.Machine.execSysRollbackAdvance mb s
  | .sysLifecycleAdvance mb => Sys2Proof.Machine.execSysLifecycleAdvance mb s
  | .sysKeyRevoke mb => Sys2Proof.Machine.execSysKeyRevoke mb s
  | .porAssert => Sys2Proof.Machine.execPorAssert s
  | .porRelease st => Sys2Proof.Machine.execPorRelease st s
  | .pwrGoodRise => Sys2Proof.Machine.execPwrGoodRise s
  | .seqEnableTimeout => Sys2Proof.Machine.execSeqEnableTimeout s
  | .seqRetryTimer => Sys2Proof.Machine.execSeqRetryTimer s
  | .pwrGoodFall ns pmic => Sys2Proof.Machine.execPwrGoodFall ns pmic s
  | .pwrGoodRetryTimer => Sys2Proof.Machine.execPwrGoodRetryTimer s
  | .rstNPulse ns => Sys2Proof.Machine.execRstNPulse ns s
  | .pd0Running => Sys2Proof.Machine.execPd0Running s
  | .sfRomStart romOk seals => Sys2Proof.Machine.execSfRomStart romOk seals s
  | .sfSelfTestDone tests => Sys2Proof.Machine.execSfSelfTestDone tests s
  | .coxBootRomStart => Sys2Proof.Machine.execCoxBootRomStart s
  | .coxRomReady h => Sys2Proof.Machine.execCoxRomReady h s
  | .bootRomReadyTimeout => Sys2Proof.Machine.execBootRomReadyTimeout s
  | .flashNegotiation cs probe => Sys2Proof.Machine.execFlashNegotiation cs probe s
  | .bootImageCheck cs slot readOk => Sys2Proof.Machine.execBootImageCheck cs slot readOk s
  | .settingsApply => Sys2Proof.Machine.execSettingsApply s
  | .memTrainingDone okMask => Sys2Proof.Machine.execMemTrainingDone okMask s
  | .timeCoreStart => Sys2Proof.Machine.execTimeCoreStart s
  | .bootLinkWaitExpiry => Sys2Proof.Machine.execBootLinkWaitExpiry s
  | .bootEnterEasy => Sys2Proof.Machine.execBootEnterEasy s
  | .coxRestartTimeout h => Sys2Proof.Machine.execCoxRestartTimeout h s
  | .coxMemScrub h corrected uncorrectable => Sys2Proof.Machine.execCoxMemScrub h corrected uncorrectable s
  | .discriminatorRise pix ps per => Sys2Proof.Machine.execDiscriminatorRise pix ps per s
  | .ringCountSaturated pix => Sys2Proof.Machine.execRingCountSaturated pix s
  | .rangeSwitch pix ps => Sys2Proof.Machine.execRangeSwitch pix ps s
  | .rangeBlankEnd pix => Sys2Proof.Machine.execRangeBlankEnd pix s
  | .discriminatorFall pix ps => Sys2Proof.Machine.execDiscriminatorFall pix ps s
  | .totSaturated pix => Sys2Proof.Machine.execTotSaturated pix s
  | .pixelDeadTimeEnd pix => Sys2Proof.Machine.execPixelDeadTimeEnd pix s
  | .blockClockReady block => Sys2Proof.Machine.execBlockClockReady block s
  | .blockClockIdleGate block => Sys2Proof.Machine.execBlockClockIdleGate block s
  | .bridgeSaturated pix => Sys2Proof.Machine.execBridgeSaturated pix s
  | .portRecordAgeOut block => Sys2Proof.Machine.execPortRecordAgeOut block s
  | .portLossSend block cause => Sys2Proof.Machine.execPortLossSend block cause s
  | .watermarkSend block => Sys2Proof.Machine.execWatermarkSend block s
  | .frameBoundary => Sys2Proof.Machine.execFrameBoundary s
  | .frameUnitAssemble block flips => Sys2Proof.Machine.execFrameUnitAssemble block flips s
  | .feModeEffect => Sys2Proof.Machine.execFeModeEffect s
  | .crabWindowEnd => Sys2Proof.Machine.execCrabWindowEnd s
  | .crabRetest pix => Sys2Proof.Machine.execCrabRetest pix s
  | .leakUpdate sat => Sys2Proof.Machine.execLeakUpdate sat s
  | .feScrub diffs => Sys2Proof.Machine.execFeScrub diffs s
  | .feTmrVote upset droop => Sys2Proof.Machine.execFeTmrVote upset droop s
  | .tpStep => Sys2Proof.Machine.execTpStep s
  | .feModeSet mb => Sys2Proof.Machine.execFeModeSet mb s
  | .feModeGet mb => Sys2Proof.Machine.execFeModeGet mb s
  | .feDacSet mb => Sys2Proof.Machine.execFeDacSet mb s
  | .feDacGet mb => Sys2Proof.Machine.execFeDacGet mb s
  | .fePixelWrite mb => Sys2Proof.Machine.execFePixelWrite mb s
  | .fePixelRead mb => Sys2Proof.Machine.execFePixelRead mb s
  | .feTrimRun mb => Sys2Proof.Machine.execFeTrimRun mb s
  | .feScurve mb => Sys2Proof.Machine.execFeScurve mb s
  | .feScanResult mb => Sys2Proof.Machine.execFeScanResult mb s
  | .feBumpTest mb => Sys2Proof.Machine.execFeBumpTest mb s
  | .feBumpResult mb => Sys2Proof.Machine.execFeBumpResult mb s
  | .feTpInject mb => Sys2Proof.Machine.execFeTpInject mb s
  | .feCrabConfig mb => Sys2Proof.Machine.execFeCrabConfig mb s
  | .feCrabList mb => Sys2Proof.Machine.execFeCrabList mb s
  | .feLeakConfig mb => Sys2Proof.Machine.execFeLeakConfig mb s
  | .feFrameConfig mb => Sys2Proof.Machine.execFeFrameConfig mb s
  | .feChargeCal mb => Sys2Proof.Machine.execFeChargeCal mb s
  | .feChargeRead mb => Sys2Proof.Machine.execFeChargeRead mb s
  | .feChargeWrite mb => Sys2Proof.Machine.execFeChargeWrite mb s
  | .feScrubStatus mb => Sys2Proof.Machine.execFeScrubStatus mb s
  | .feStatus mb => Sys2Proof.Machine.execFeStatus mb s
  | .blockCounterCheck block seen => Sys2Proof.Machine.execBlockCounterCheck block seen s
  | .hitFrameReceived block ecc drop => Sys2Proof.Machine.execHitFrameReceived block ecc drop s
  | .watermarkReceived block => Sys2Proof.Machine.execWatermarkReceived block s
  | .portLossReceived block => Sys2Proof.Machine.execPortLossReceived block s
  | .portFramingError block word0 => Sys2Proof.Machine.execPortFramingError block word0 s
  | .inlUpdate block => Sys2Proof.Machine.execInlUpdate block s
  | .tmTempUpdate => Sys2Proof.Machine.execTmTempUpdate s
  | .calRunLatch sp per => Sys2Proof.Machine.execCalRunLatch sp per s
  | .calBandAgeExpiry block band => Sys2Proof.Machine.execCalBandAgeExpiry block band s
  | .tmStatus mb => Sys2Proof.Machine.execTmStatus mb s
  | .tmCalStatus mb => Sys2Proof.Machine.execTmCalStatus mb s
  | .tmCalRun mb => Sys2Proof.Machine.execTmCalRun mb s
  | .tmBandConfig mb => Sys2Proof.Machine.execTmBandConfig mb s
  | .tmPeriodRead mb => Sys2Proof.Machine.execTmPeriodRead mb s
  | .tmPeriodWrite mb => Sys2Proof.Machine.execTmPeriodWrite mb s
  | .tmSkewRead mb => Sys2Proof.Machine.execTmSkewRead mb s
  | .tmSkewWrite mb => Sys2Proof.Machine.execTmSkewWrite mb s
  | .tmWalkRead mb => Sys2Proof.Machine.execTmWalkRead mb s
  | .tmWalkWrite mb => Sys2Proof.Machine.execTmWalkWrite mb s
  | .tmWalkCal mb => Sys2Proof.Machine.execTmWalkCal mb s
  | .tmSkewCal mb => Sys2Proof.Machine.execTmSkewCal mb s
  | .tmInlRead mb => Sys2Proof.Machine.execTmInlRead mb s
  | .tmTempConfig mb => Sys2Proof.Machine.execTmTempConfig mb s
  | .tmDroopRead mb => Sys2Proof.Machine.execTmDroopRead mb s
  | .tmStats mb => Sys2Proof.Machine.execTmStats mb s
  | .clusterClose engine first => Sys2Proof.Machine.execClusterClose engine first s
  | .reorderRelease q => Sys2Proof.Machine.execReorderRelease q s
  | .blockOffRelease q => Sys2Proof.Machine.execBlockOffRelease q s
  | .edgeFragRx side f => Sys2Proof.Machine.execEdgeFragRx side f s
  | .mergeReplyRx side fragId result => Sys2Proof.Machine.execMergeReplyRx side fragId result s
  | .mergeWaitExpiry side fragId => Sys2Proof.Machine.execMergeWaitExpiry side fragId s
  | .mergeReplyTimeout side fragId => Sys2Proof.Machine.execMergeReplyTimeout side fragId s
  | .hpStatus mb => Sys2Proof.Machine.execHpStatus mb s
  | .hpOutputSet mb => Sys2Proof.Machine.execHpOutputSet mb s
  | .hpClusterConfig mb => Sys2Proof.Machine.execHpClusterConfig mb s
  | .hpLossConfig mb => Sys2Proof.Machine.execHpLossConfig mb s
  | .hpLossStatus mb => Sys2Proof.Machine.execHpLossStatus mb s
  | .hpGateConfig mb => Sys2Proof.Machine.execHpGateConfig mb s
  | .hpMergeConfig mb => Sys2Proof.Machine.execHpMergeConfig mb s
  | .hpMergeStatus mb => Sys2Proof.Machine.execHpMergeStatus mb s
  | .hpReorderConfig mb => Sys2Proof.Machine.execHpReorderConfig mb s
  | .hpStats mb => Sys2Proof.Machine.execHpStats mb s
  | .hpTpRead mb => Sys2Proof.Machine.execHpTpRead mb s
  | .adcCalUpdate upd => Sys2Proof.Machine.execAdcCalUpdate upd s
  | .adcConvergeTimeout patch => Sys2Proof.Machine.execAdcConvergeTimeout patch s
  | .triggerFire g xs => Sys2Proof.Machine.execTriggerFire g xs s
  | .holdoffEnd unit => Sys2Proof.Machine.execHoldoffEnd unit s
  | .softFireTick => Sys2Proof.Machine.execSoftFireTick s
  | .triggerRecordWrite => Sys2Proof.Machine.execTriggerRecordWrite s
  | .waveCaptureDone eng => Sys2Proof.Machine.execWaveCaptureDone eng s
  | .trConfigEffect => Sys2Proof.Machine.execTrConfigEffect s
  | .trigInEdge ns => Sys2Proof.Machine.execTrigInEdge ns s
  | .domainArmRx path w => Sys2Proof.Machine.execDomainArmRx path w s
  | .domainDisarmRx path w => Sys2Proof.Machine.execDomainDisarmRx path w s
  | .domainFireRx path w => Sys2Proof.Machine.execDomainFireRx path w s
  | .domainBeatRx path w => Sys2Proof.Machine.execDomainBeatRx path w s
  | .domainBeatSend => Sys2Proof.Machine.execDomainBeatSend s
  | .domainBeatTimeout => Sys2Proof.Machine.execDomainBeatTimeout s
  | .domainArmTick => Sys2Proof.Machine.execDomainArmTick s
  | .domainRearm => Sys2Proof.Machine.execDomainRearm s
  | .domainDisarmEffect => Sys2Proof.Machine.execDomainDisarmEffect s
  | .trStatus mb => Sys2Proof.Machine.execTrStatus mb s
  | .trUnitConfig mb => Sys2Proof.Machine.execTrUnitConfig mb s
  | .trUnitRead mb => Sys2Proof.Machine.execTrUnitRead mb s
  | .trUnitEnable mb => Sys2Proof.Machine.execTrUnitEnable mb s
  | .trPatchConfig mb => Sys2Proof.Machine.execTrPatchConfig mb s
  | .trAdcStatus mb => Sys2Proof.Machine.execTrAdcStatus mb s
  | .trAdcFreeze mb => Sys2Proof.Machine.execTrAdcFreeze mb s
  | .trDomainConfig mb => Sys2Proof.Machine.execTrDomainConfig mb s
  | .trArm mb => Sys2Proof.Machine.execTrArm mb s
  | .trDisarm mb => Sys2Proof.Machine.execTrDisarm mb s
  | .trDomainStatus mb => Sys2Proof.Machine.execTrDomainStatus mb s
  | .trSoftFire mb => Sys2Proof.Machine.execTrSoftFire mb s
  | .trStats mb => Sys2Proof.Machine.execTrStats mb s
  | .trTrigioConfig mb => Sys2Proof.Machine.execTrTrigioConfig mb s
  | .trSampleRead mb => Sys2Proof.Machine.execTrSampleRead mb s
  | .weNop core => Sys2Proof.Machine.execWeNop core s
  | .weAdd core => Sys2Proof.Machine.execWeAdd core s
  | .weSub core => Sys2Proof.Machine.execWeSub core s
  | .weAdds core => Sys2Proof.Machine.execWeAdds core s
  | .weSubs core => Sys2Proof.Machine.execWeSubs core s
  | .weAnd core => Sys2Proof.Machine.execWeAnd core s
  | .weOr core => Sys2Proof.Machine.execWeOr core s
  | .weXor core => Sys2Proof.Machine.execWeXor core s
  | .weShl core => Sys2Proof.Machine.execWeShl core s
  | .weShr core => Sys2Proof.Machine.execWeShr core s
  | .weSar core => Sys2Proof.Machine.execWeSar core s
  | .weMin core => Sys2Proof.Machine.execWeMin core s
  | .weMax core => Sys2Proof.Machine.execWeMax core s
  | .weAbs core => Sys2Proof.Machine.execWeAbs core s
  | .weAdd2h core => Sys2Proof.Machine.execWeAdd2h core s
  | .weSub2h core => Sys2Proof.Machine.execWeSub2h core s
  | .wePack core => Sys2Proof.Machine.execWePack core s
  | .weCmplt core => Sys2Proof.Machine.execWeCmplt core s
  | .weCmpeq core => Sys2Proof.Machine.execWeCmpeq core s
  | .weMov core => Sys2Proof.Machine.execWeMov core s
  | .weMovs core => Sys2Proof.Machine.execWeMovs core s
  | .weMovsr core => Sys2Proof.Machine.execWeMovsr core s
  | .weMul core => Sys2Proof.Machine.execWeMul core s
  | .weMul2h core => Sys2Proof.Machine.execWeMul2h core s
  | .weMac core => Sys2Proof.Machine.execWeMac core s
  | .weMsu core => Sys2Proof.Machine.execWeMsu core s
  | .weMac0 core => Sys2Proof.Machine.execWeMac0 core s
  | .weFtap core => Sys2Proof.Machine.execWeFtap core s
  | .weFtap0 core => Sys2Proof.Machine.execWeFtap0 core s
  | .weClra core => Sys2Proof.Machine.execWeClra core s
  | .weAdda core => Sys2Proof.Machine.execWeAdda core s
  | .weLda core => Sys2Proof.Machine.execWeLda core s
  | .weMova core => Sys2Proof.Machine.execWeMova core s
  | .weMovaw core => Sys2Proof.Machine.execWeMovaw core s
  | .weIn core => Sys2Proof.Machine.execWeIn core s
  | .weOut core => Sys2Proof.Machine.execWeOut core s
  | .weQput core => Sys2Proof.Machine.execWeQput core s
  | .weQend core => Sys2Proof.Machine.execWeQend core s
  | .weBr core => Sys2Proof.Machine.execWeBr core s
  | .weBrz core => Sys2Proof.Machine.execWeBrz core s
  | .weBrnz core => Sys2Proof.Machine.execWeBrnz core s
  | .weCall core => Sys2Proof.Machine.execWeCall core s
  | .weRet core => Sys2Proof.Machine.execWeRet core s
  | .weLoop core => Sys2Proof.Machine.execWeLoop core s
  | .wePloop core => Sys2Proof.Machine.execWePloop core s
  | .weWait core => Sys2Proof.Machine.execWeWait core s
  | .weRti core => Sys2Proof.Machine.execWeRti core s
  | .weSwi core => Sys2Proof.Machine.execWeSwi core s
  | .weHalt core => Sys2Proof.Machine.execWeHalt core s
  | .weInResume core => Sys2Proof.Machine.execWeInResume core s
  | .weOutResume core => Sys2Proof.Machine.execWeOutResume core s
  | .weQputResume core => Sys2Proof.Machine.execWeQputResume core s
  | .weIrqLevel1 core => Sys2Proof.Machine.execWeIrqLevel1 core s
  | .weIrqLevel2 core => Sys2Proof.Machine.execWeIrqLevel2 core s
  | .weInputSample core ch g => Sys2Proof.Machine.execWeInputSample core ch g s
  | .weStatus mb => Sys2Proof.Machine.execWeStatus mb s
  | .weLoadBegin mb => Sys2Proof.Machine.execWeLoadBegin mb s
  | .weLoadData mb => Sys2Proof.Machine.execWeLoadData mb s
  | .weLoadEnd mb => Sys2Proof.Machine.execWeLoadEnd mb s
  | .weStart mb => Sys2Proof.Machine.execWeStart mb s
  | .weStop mb => Sys2Proof.Machine.execWeStop mb s
  | .weMemRead mb => Sys2Proof.Machine.execWeMemRead mb s
  | .weParamWrite mb => Sys2Proof.Machine.execWeParamWrite mb s
  | .weRegRead mb => Sys2Proof.Machine.execWeRegRead mb s
  | .weSignal mb => Sys2Proof.Machine.execWeSignal mb s
  | .weStats mb => Sys2Proof.Machine.execWeStats mb s
  | .frameCloseTimeout q source kind => Sys2Proof.Machine.execFrameCloseTimeout q source kind s
  | .drain q => Sys2Proof.Machine.execDrain q s
  | .spill q => Sys2Proof.Machine.execSpill q s
  | .refill q ups => Sys2Proof.Machine.execRefill q ups s
  | .pointerCheck q upset => Sys2Proof.Machine.execPointerCheck q upset s
  | .queueResetComplete q => Sys2Proof.Machine.execQueueResetComplete q s
  | .scrubLineVisit line upset => Sys2Proof.Machine.execScrubLineVisit line upset s
  | .sramScrub found => Sys2Proof.Machine.execSramScrub found s
  | .bbStatus mb => Sys2Proof.Machine.execBbStatus mb s
  | .bbQueueMapSet mb => Sys2Proof.Machine.execBbQueueMapSet mb s
  | .bbQueueMapGet mb => Sys2Proof.Machine.execBbQueueMapGet mb s
  | .bbRegionSet mb => Sys2Proof.Machine.execBbRegionSet mb s
  | .bbRegionGet mb => Sys2Proof.Machine.execBbRegionGet mb s
  | .bbHoldOutput mb => Sys2Proof.Machine.execBbHoldOutput mb s
  | .bbFlush mb => Sys2Proof.Machine.execBbFlush mb s
  | .bbReset mb => Sys2Proof.Machine.execBbReset mb s
  | .bbPeek mb => Sys2Proof.Machine.execBbPeek mb s
  | .bbStats mb => Sys2Proof.Machine.execBbStats mb s
  | .memStatus mb => Sys2Proof.Machine.execMemStatus mb s
  | .memScrubConfig mb => Sys2Proof.Machine.execMemScrubConfig mb s
  | .memScrubRange mb => Sys2Proof.Machine.execMemScrubRange mb s
  | .memScrubSummary mb => Sys2Proof.Machine.execMemScrubSummary mb s
  | .memDefectRead mb => Sys2Proof.Machine.execMemDefectRead mb s
  | .memCheckerWrite mb => Sys2Proof.Machine.execMemCheckerWrite mb s
  | .memCheckerRead mb => Sys2Proof.Machine.execMemCheckerRead mb s
  | .memTrain mb => Sys2Proof.Machine.execMemTrain mb s
  | .cxUnitCode unit q => Sys2Proof.Machine.execCxUnitCode unit q s
  | .cxBufferCloseTimeout unit q => Sys2Proof.Machine.execCxBufferCloseTimeout unit q s
  | .cxIdleGate => Sys2Proof.Machine.execCxIdleGate s
  | .cxStatus mb => Sys2Proof.Machine.execCxStatus mb s
  | .cxQueueConfig mb => Sys2Proof.Machine.execCxQueueConfig mb s
  | .cxQueueGet mb => Sys2Proof.Machine.execCxQueueGet mb s
  | .cxChainRead mb => Sys2Proof.Machine.execCxChainRead mb s
  | .cxStats mb => Sys2Proof.Machine.execCxStats mb s
  | .cxCodeTest mb => Sys2Proof.Machine.execCxCodeTest mb s
  | .laneSignalDetect lane => Sys2Proof.Machine.execLaneSignalDetect lane s
  | .laneBlockLock lane => Sys2Proof.Machine.execLaneBlockLock lane s
  | .laneLockLost lane => Sys2Proof.Machine.execLaneLockLost lane s
  | .negAdvRx lane v => Sys2Proof.Machine.execNegAdvRx lane v s
  | .negFecRx lane v => Sys2Proof.Machine.execNegFecRx lane v s
  | .negGroupRx lane v => Sys2Proof.Machine.execNegGroupRx lane v s
  | .negMapRx lane v => Sys2Proof.Machine.execNegMapRx lane v s
  | .negReadyRx lane => Sys2Proof.Machine.execNegReadyRx lane s
  | .negRateReqRx lane v => Sys2Proof.Machine.execNegRateReqRx lane v s
  | .negRateAckRx lane v => Sys2Proof.Machine.execNegRateAckRx lane v s
  | .alignMarkerRx lane d skew => Sys2Proof.Machine.execAlignMarkerRx lane d skew s
  | .alignMarkerSend g => Sys2Proof.Machine.execAlignMarkerSend g s
  | .markerMissed lane => Sys2Proof.Machine.execMarkerMissed lane s
  | .fecCodewordUncorrectable lane => Sys2Proof.Machine.execFecCodewordUncorrectable lane s
  | .laneRateDwellTimeout lane => Sys2Proof.Machine.execLaneRateDwellTimeout lane s
  | .laneTxOffEnd lane => Sys2Proof.Machine.execLaneTxOffEnd lane s
  | .laneFecTimeout lane => Sys2Proof.Machine.execLaneFecTimeout lane s
  | .groupTimeout g => Sys2Proof.Machine.execGroupTimeout g s
  | .alignTimeout g => Sys2Proof.Machine.execAlignTimeout g s
  | .mapTimeout g => Sys2Proof.Machine.execMapTimeout g s
  | .rateReqTimeout g => Sys2Proof.Machine.execRateReqTimeout g s
  | .regroupTimeout lane => Sys2Proof.Machine.execRegroupTimeout lane s
  | .packetSend g out ups => Sys2Proof.Machine.execPacketSend g out ups s
  | .rxPacketBad g => Sys2Proof.Machine.execRxPacketBad g s
  | .rxReservedStream g stream => Sys2Proof.Machine.execRxReservedStream g stream s
  | .nakRx g payload => Sys2Proof.Machine.execNakRx g payload s
  | .nakGroupWaitExpiry g => Sys2Proof.Machine.execNakGroupWaitExpiry g s
  | .tailSend g => Sys2Proof.Machine.execTailSend g s
  | .arpRequestRx g targetIp senderMac senderIp => Sys2Proof.Machine.execArpRequestRx g targetIp senderMac senderIp s
  | .arpReplyRx g senderIp mac => Sys2Proof.Machine.execArpReplyRx g senderIp mac s
  | .arpRetry g => Sys2Proof.Machine.execArpRetry g s
  | .arpFailTimeout g => Sys2Proof.Machine.execArpFailTimeout g s
  | .pauseRx g quanta => Sys2Proof.Machine.execPauseRx g quanta s
  | .pauseExpiry g => Sys2Proof.Machine.execPauseExpiry g s
  | .ethFrameDiscard g => Sys2Proof.Machine.execEthFrameDiscard g s
  | .slHelloRx side v => Sys2Proof.Machine.execSlHelloRx side v s
  | .slHelloSend side => Sys2Proof.Machine.execSlHelloSend side s
  | .slHelloTimeout side => Sys2Proof.Machine.execSlHelloTimeout side s
  | .lkStatus mb => Sys2Proof.Machine.execLkStatus mb s
  | .lkLaneStatus mb => Sys2Proof.Machine.execLkLaneStatus mb s
  | .lkConfig mb => Sys2Proof.Machine.execLkConfig mb s
  | .lkRenegotiate mb => Sys2Proof.Machine.execLkRenegotiate mb s
  | .lkRateSet mb => Sys2Proof.Machine.execLkRateSet mb s
  | .lkClassConfig mb => Sys2Proof.Machine.execLkClassConfig mb s
  | .lkTc2WeightSet mb => Sys2Proof.Machine.execLkTc2WeightSet mb s
  | .lkPacketCloseSet mb => Sys2Proof.Machine.execLkPacketCloseSet mb s
  | .lkRepechageClear mb => Sys2Proof.Machine.execLkRepechageClear mb s
  | .lkPrbsConfig mb => Sys2Proof.Machine.execLkPrbsConfig mb s
  | .lkPrbsInjectSingle mb => Sys2Proof.Machine.execLkPrbsInjectSingle mb s
  | .lkPrbsInjectBurst mb => Sys2Proof.Machine.execLkPrbsInjectBurst mb s
  | .lkPrbsInjectRate mb => Sys2Proof.Machine.execLkPrbsInjectRate mb s
  | .lkPrbsInjectStop mb => Sys2Proof.Machine.execLkPrbsInjectStop mb s
  | .lkPrbsRead mb => Sys2Proof.Machine.execLkPrbsRead mb s
  | .lkEthConfig mb => Sys2Proof.Machine.execLkEthConfig mb s
  | .lkEthStatus mb => Sys2Proof.Machine.execLkEthStatus mb s
  | .lkSlStatus mb => Sys2Proof.Machine.execLkSlStatus mb s
  | .lkSlConfig mb => Sys2Proof.Machine.execLkSlConfig mb s
  | .lkStats mb => Sys2Proof.Machine.execLkStats mb s
  | .lkTc0Load mb => Sys2Proof.Machine.execLkTc0Load mb s
  | .timeTmrVote upset => Sys2Proof.Machine.execTimeTmrVote upset s
  | .freqSourceWatchdog src => Sys2Proof.Machine.execFreqSourceWatchdog src s
  | .freqWindowCheck src ppb => Sys2Proof.Machine.execFreqWindowCheck src ppb s
  | .ocxoRdyFall => Sys2Proof.Machine.execOcxoRdyFall s
  | .ocxoWarmHoldExpiry => Sys2Proof.Machine.execOcxoWarmHoldExpiry s
  | .freqRestoreTimer src => Sys2Proof.Machine.execFreqRestoreTimer src s
  | .freqLockCheck diff want => Sys2Proof.Machine.execFreqLockCheck diff want s
  | .timeSyncRx g payload t2 => Sys2Proof.Machine.execTimeSyncRx g payload t2 s
  | .timeFollowUpRx g payload => Sys2Proof.Machine.execTimeFollowUpRx g payload s
  | .timeDelayRespRx g payload => Sys2Proof.Machine.execTimeDelayRespRx g payload s
  | .timeAnnounceRx g payload => Sys2Proof.Machine.execTimeAnnounceRx g payload s
  | .timeExchangeTimeout => Sys2Proof.Machine.execTimeExchangeTimeout s
  | .masterAnnounceTimeout master => Sys2Proof.Machine.execMasterAnnounceTimeout master s
  | .timeHoldoverTimeout => Sys2Proof.Machine.execTimeHoldoverTimeout s
  | .timeStepEdge => Sys2Proof.Machine.execTimeStepEdge s
  | .ptpSyncRx g payload t2 => Sys2Proof.Machine.execPtpSyncRx g payload t2 s
  | .ptpFollowUpRx g payload => Sys2Proof.Machine.execPtpFollowUpRx g payload s
  | .ptpDelayRespRx g payload => Sys2Proof.Machine.execPtpDelayRespRx g payload s
  | .ptpAnnounceRx g payload => Sys2Proof.Machine.execPtpAnnounceRx g payload s
  | .ppsInEdge t => Sys2Proof.Machine.execPpsInEdge t s
  | .ppsLossTimeout => Sys2Proof.Machine.execPpsLossTimeout s
  | .ppsOutPulse => Sys2Proof.Machine.execPpsOutPulse s
  | .tiEdge input t => Sys2Proof.Machine.execTiEdge input t s
  | .freqGateEnd input => Sys2Proof.Machine.execFreqGateEnd input s
  | .timeStatus mb => Sys2Proof.Machine.execTimeStatus mb s
  | .timeNow mb => Sys2Proof.Machine.execTimeNow mb s
  | .timeFreqConfig mb => Sys2Proof.Machine.execTimeFreqConfig mb s
  | .timeServoConfig mb => Sys2Proof.Machine.execTimeServoConfig mb s
  | .timeSet mb => Sys2Proof.Machine.execTimeSet mb s
  | .timePtpConfig mb => Sys2Proof.Machine.execTimePtpConfig mb s
  | .timePpsConfig mb => Sys2Proof.Machine.execTimePpsConfig mb s
  | .tiConfig mb => Sys2Proof.Machine.execTiConfig mb s
  | .tiStampRead mb => Sys2Proof.Machine.execTiStampRead mb s
  | .splitConfig mb => Sys2Proof.Machine.execSplitConfig mb s
  | .splitRead mb => Sys2Proof.Machine.execSplitRead mb s
  | .freqStart mb => Sys2Proof.Machine.execFreqStart mb s
  | .freqRead mb => Sys2Proof.Machine.execFreqRead mb s
  | .freqStop mb => Sys2Proof.Machine.execFreqStop mb s
  | .timeStats mb => Sys2Proof.Machine.execTimeStats mb s
  | .governorEval p => Sys2Proof.Machine.execGovernorEval p s
  | .governorStep2Tick => Sys2Proof.Machine.execGovernorStep2Tick s
  | .governorRestoreRetry => Sys2Proof.Machine.execGovernorRestoreRetry s
  | .thermalScan temps => Sys2Proof.Machine.execThermalScan temps s
  | .throttleStepTimer => Sys2Proof.Machine.execThrottleStepTimer s
  | .shutdownHoldTimeout => Sys2Proof.Machine.execShutdownHoldTimeout s
  | .thermalLatchClear => Sys2Proof.Machine.execThermalLatchClear s
  | .autoRateWindow => Sys2Proof.Machine.execAutoRateWindow s
  | .wakeTimerFire n => Sys2Proof.Machine.execWakeTimerFire n s
  | .queueSave => Sys2Proof.Machine.execQueueSave s
  | .holdReached => Sys2Proof.Machine.execHoldReached s
  | .holdWake src timer => Sys2Proof.Machine.execHoldWake src timer s
  | .holdWakeRestore coxOkS coxOkB queuesOk => Sys2Proof.Machine.execHoldWakeRestore coxOkS coxOkB queuesOk s
  | .holdWakeEasy => Sys2Proof.Machine.execHoldWakeEasy s
  | .pwStatus mb => Sys2Proof.Machine.execPwStatus mb s
  | .pwStateSet mb => Sys2Proof.Machine.execPwStateSet mb s
  | .pwBudgetConfig mb => Sys2Proof.Machine.execPwBudgetConfig mb s
  | .pwThermalConfig mb => Sys2Proof.Machine.execPwThermalConfig mb s
  | .pwThermalRead mb => Sys2Proof.Machine.execPwThermalRead mb s
  | .pwWakeSet mb => Sys2Proof.Machine.execPwWakeSet mb s
  | .pwWakeClear mb => Sys2Proof.Machine.execPwWakeClear mb s
  | .pwAutoConfig mb => Sys2Proof.Machine.execPwAutoConfig mb s
  | .pwDomainRead mb => Sys2Proof.Machine.execPwDomainRead mb s
  | .pwStats mb => Sys2Proof.Machine.execPwStats mb s
  | .scPassStart => Sys2Proof.Machine.execScPassStart s
  | .scConversionDone r => Sys2Proof.Machine.execScConversionDone r s
  | .scSafetyInjectRequest => Sys2Proof.Machine.execScSafetyInjectRequest s
  | .scCalStepDone offsetNv gainPpm exc0 exc1 => Sys2Proof.Machine.execScCalStepDone offsetNv gainPpm exc0 exc1 s
  | .scAutoCalDue => Sys2Proof.Machine.execScAutoCalDue s
  | .scPinBreak ch pin clocks => Sys2Proof.Machine.execScPinBreak ch pin clocks s
  | .scExcMonitorDone m => Sys2Proof.Machine.execScExcMonitorDone m s
  | .scStatus mb => Sys2Proof.Machine.execScStatus mb s
  | .scChannelConfig mb => Sys2Proof.Machine.execScChannelConfig mb s
  | .scChannelRead mb => Sys2Proof.Machine.execScChannelRead mb s
  | .scSequenceSet mb => Sys2Proof.Machine.execScSequenceSet mb s
  | .scResultRead mb => Sys2Proof.Machine.execScResultRead mb s
  | .scInject mb => Sys2Proof.Machine.execScInject mb s
  | .scInjectRead mb => Sys2Proof.Machine.execScInjectRead mb s
  | .scCalibrate mb => Sys2Proof.Machine.execScCalibrate mb s
  | .scDiagRun mb => Sys2Proof.Machine.execScDiagRun mb s
  | .scChannelStatus mb => Sys2Proof.Machine.execScChannelStatus mb s
  | .scStats mb => Sys2Proof.Machine.execScStats mb s
  | .ldPreWake => Sys2Proof.Machine.execLdPreWake s
  | .lampShiftStart chain => Sys2Proof.Machine.execLampShiftStart chain s
  | .flashInstant => Sys2Proof.Machine.execFlashInstant s
  | .ledDiagSample k current pinMv => Sys2Proof.Machine.execLedDiagSample k current pinMv s
  | .ledPulseEnd k => Sys2Proof.Machine.execLedPulseEnd k s
  | .flashWindowEnd => Sys2Proof.Machine.execFlashWindowEnd s
  | .ldIdleGate => Sys2Proof.Machine.execLdIdleGate s
  | .lampCaptureCycle chain words => Sys2Proof.Machine.execLampCaptureCycle chain words s
  | .ledTempUpdate => Sys2Proof.Machine.execLedTempUpdate s
  | .proofPulseDue e => Sys2Proof.Machine.execProofPulseDue e s
  | .proofPulse e current pinMv words => Sys2Proof.Machine.execProofPulse e current pinMv words s
  | .diagAgeExpiry e => Sys2Proof.Machine.execDiagAgeExpiry e s
  | .ldLineReadbackFault chain => Sys2Proof.Machine.execLdLineReadbackFault chain s
  | .ldStatus mb => Sys2Proof.Machine.execLdStatus mb s
  | .ldChainDiscover mb => Sys2Proof.Machine.execLdChainDiscover mb s
  | .ldChainRead mb => Sys2Proof.Machine.execLdChainRead mb s
  | .ldEmitterConfig mb => Sys2Proof.Machine.execLdEmitterConfig mb s
  | .ldEmitterRead mb => Sys2Proof.Machine.execLdEmitterRead mb s
  | .ldSchedule mb => Sys2Proof.Machine.execLdSchedule mb s
  | .ldCancel mb => Sys2Proof.Machine.execLdCancel mb s
  | .ldScheduleRead mb => Sys2Proof.Machine.execLdScheduleRead mb s
  | .ldDiagRead mb => Sys2Proof.Machine.execLdDiagRead mb s
  | .ldProofRun mb => Sys2Proof.Machine.execLdProofRun mb s
  | .ldSinkConfig mb => Sys2Proof.Machine.execLdSinkConfig mb s
  | .ldStats mb => Sys2Proof.Machine.execLdStats mb s
  | .sfLogicCycle disagree => Sys2Proof.Machine.execSfLogicCycle disagree s
  | .ilkChannelChange n chB samples => Sys2Proof.Machine.execIlkChannelChange n chB samples s
  | .ilkDiscrepancyTimeout n => Sys2Proof.Machine.execIlkDiscrepancyTimeout n s
  | .sealReread seals => Sys2Proof.Machine.execSealReread seals s
  | .soReadback rb => Sys2Proof.Machine.execSoReadback rb s
  | .soDarkTest n r => Sys2Proof.Machine.execSoDarkTest n r s
  | .sfCommandRx payload => Sys2Proof.Machine.execSfCommandRx payload s
  | .sfConnExpiry => Sys2Proof.Machine.execSfConnExpiry s
  | .sfHvmonPoll => Sys2Proof.Machine.execSfHvmonPoll s
  | .sfStatus mb => Sys2Proof.Machine.execSfStatus mb s
  | .sfHvRequest mb => Sys2Proof.Machine.execSfHvRequest mb s
  | .sfReset mb => Sys2Proof.Machine.execSfReset mb s
  | .sfShutterRequest mb => Sys2Proof.Machine.execSfShutterRequest mb s
  | .sfDarkTest mb => Sys2Proof.Machine.execSfDarkTest mb s
  | .sfTripLog mb => Sys2Proof.Machine.execSfTripLog mb s
  | .sfStats mb => Sys2Proof.Machine.execSfStats mb s
  | .xlinkHeartbeatSend h => Sys2Proof.Machine.execXlinkHeartbeatSend h s
  | .xlinkHeartbeatRx h lock => Sys2Proof.Machine.execXlinkHeartbeatRx h lock s
  | .xlinkHeartbeatTimeout h lock => Sys2Proof.Machine.execXlinkHeartbeatTimeout h lock s
  | .arbPoll h reaches => Sys2Proof.Machine.execArbPoll h reaches s
  | .arbPollAnswer h failed => Sys2Proof.Machine.execArbPollAnswer h failed s
  | .arbLostTimeout h => Sys2Proof.Machine.execArbLostTimeout h s
  | .takeoverComplete => Sys2Proof.Machine.execTakeoverComplete s
  | .arbGntChange gntS gntB => Sys2Proof.Machine.execArbGntChange gntS gntB s
  | .rejoinTick => Sys2Proof.Machine.execRejoinTick s
  | .alarmPendingCommit src => Sys2Proof.Machine.execAlarmPendingCommit src s
  | .alarmHeldRelease => Sys2Proof.Machine.execAlarmHeldRelease s
  | .incidentCalmExpiry => Sys2Proof.Machine.execIncidentCalmExpiry s
  | .redStatus mb => Sys2Proof.Machine.execRedStatus mb s
  | .redClaimRead mb => Sys2Proof.Machine.execRedClaimRead mb s
  | .redRejoin mb => Sys2Proof.Machine.execRedRejoin mb s
  | .evtRead mb => Sys2Proof.Machine.execEvtRead mb s
  | .evtClear mb => Sys2Proof.Machine.execEvtClear mb s
  | .evtConfig mb => Sys2Proof.Machine.execEvtConfig mb s
  | .evtSummary mb => Sys2Proof.Machine.execEvtSummary mb s
  | .flogRead mb => Sys2Proof.Machine.execFlogRead mb s
  | .flogClear mb => Sys2Proof.Machine.execFlogClear mb s
  | .flogMirror mb => Sys2Proof.Machine.execFlogMirror mb s
  | .flogMirrorRead mb => Sys2Proof.Machine.execFlogMirrorRead mb s
  | .evtStats mb => Sys2Proof.Machine.execEvtStats mb s
  | .evtTraceConfig mb => Sys2Proof.Machine.execEvtTraceConfig mb s
  | .powerStateChangeDone => Sys2Proof.Machine.execPowerStateChangeDone s
  | .memLayerIdleSelfRefresh => Sys2Proof.Machine.execMemLayerIdleSelfRefresh s
  | .clusterEngineIdleGate h => Sys2Proof.Machine.execClusterEngineIdleGate h s
  | .wePatrolScrub core space word syndrome ups => Sys2Proof.Machine.execWePatrolScrub core space word syndrome ups s
  | .cxStalled unit => Sys2Proof.Machine.execCxStalled unit s
  | .scInjectedConversionStart => Sys2Proof.Machine.execScInjectedConversionStart s
  | .coxFirmwareReloaded h => Sys2Proof.Machine.execCoxFirmwareReloaded h s
  | .prbsCheckerLock lane rx => Sys2Proof.Machine.execPrbsCheckerLock lane rx s
  | .prbsLockLost lane errors bad => Sys2Proof.Machine.execPrbsLockLost lane errors bad s
  | .ocxoRdyRise => Sys2Proof.Machine.execOcxoRdyRise s
  | .wakeHalfAnswerTimeout h => Sys2Proof.Machine.execWakeHalfAnswerTimeout h s
  | .wakePwrGoodTimeout pmic => Sys2Proof.Machine.execWakePwrGoodTimeout pmic s
  | .arbiterTmrVote disagree => Sys2Proof.Machine.execArbiterTmrVote disagree s
  | .eventStateTmrVote upset => Sys2Proof.Machine.execEventStateTmrVote upset s

end Sys2Proof.Machine
end

