-- ==== Sys2Proof/Machine/Idle.lean ====
section
/-! DEFINITION. What passing time does without a command of its own: changes whose effect tick has come are installed (R248,
R390, R635; log 1). -/
namespace Sys2Proof.Machine

/-- A queue-map change whose effect tick has come takes effect (R390). -/
def mapDue (s : State) : State :=
  let due := s.bb.mapPending.filter (fun m => reached s m.2.2)
  let s := forAll due (fun m => mapEffect m.1 m.2.1) s
  onBb (fun x => { x with mapPending := x.mapPending.filter (fun m => !due.contains m) }) s

/-- Merging across rows 7 and 8 has resumed (R635). -/
def mergeDue (s : State) : State :=
  if s.hp.halfFrag ∧ fragHalf s = false then
    onRed (fun r => { r with resume := none }) (onHp (fun x => { x with halfFrag := false }) s)
  else s

/-- One unit of 25 ns passes. -/
def idleTick (s : State) : State := mergeDue (mapDue (hpDue (advance 1 s)))

end Sys2Proof.Machine
end

