-- ==== Sys2Proof/Safety.lean ====
section
/-! DEFINITION. The notions the claims use: what stands fixed under almost every command, the one-way order of the fuses, and the
legal engagements of the governor's steps, when a call is carried out and an instruction issued, and what a command may change. -/
namespace Sys2Proof.Machine

/-- What only a handful of commands change: the reset and the window-ready bit (R696), the identity and the fuses (R43,
R63), the straps (R80 step 1), the start, the sealed switches as read and the output faults of
the safety partition (R601, R602, R605, R614), the governor's engaged steps (R524), and the
queue of commands. -/
structure Standing where
  /-- POR_N is low -/
  por : Bool
  /-- window ready -/
  windowReady : Bool
  /-- PART_NUM -/
  partNum : Word
  /-- STEPPING -/
  stepping : Byte
  /-- SCREEN -/
  screen : Byte
  /-- ROM_VER -/
  romVer : Byte
  /-- SERIAL -/
  serial : BitVec 64
  /-- LC -/
  lc : BitVec 4
  /-- KEY_REVOKED -/
  keyRevoked : BitVec 2
  /-- RB_COUNT -/
  rbCount : Nat
  /-- the hashes of the key slots -/
  keyHash : Table (Option (BitVec 256))
  /-- BOOT_SEL -/
  bootSel : BitVec 2
  /-- TILE_ID -/
  tileId : BitVec 6
  /-- production test mode -/
  testMode : Bool
  /-- SEAL_RAW -/
  sealRaw : BitVec 12
  /-- the seals have been read -/
  sealsRead : Bool
  /-- the safety partition runs from its ROM -/
  started : Bool
  /-- SO_FAULT -/
  soFault : BitVec 2
  /-- the governor's engaged steps -/
  steps : BitVec 3
  /-- the commands that wait -/
  pending : List Instr
  deriving DecidableEq, Repr

/-- The standing part, from where the state holds it. -/
def standingOf (x : SysState) (f : SfState) (g : BitVec 3) (q : List Instr) : Standing where
  por := x.por
  windowReady := x.windowReady
  partNum := x.partNum
  stepping := x.stepping
  screen := x.screen
  romVer := x.romVer
  serial := x.serial
  lc := x.lc
  keyRevoked := x.keyRevoked
  rbCount := x.rbCount
  keyHash := x.keyHash
  bootSel := x.bootSel
  tileId := x.tileId
  testMode := x.testMode
  sealRaw := f.sealRaw
  sealsRead := f.sealsRead
  started := f.started
  soFault := f.soFault
  steps := g
  pending := q

/-- The standing part of a state. -/
def standing (s : State) : Standing := standingOf s.sys s.sf s.pw.steps s.pending

/-- The fuses (R43, R63, R73, R89). -/
structure Fuses where
  /-- STEPPING -/
  stepping : Byte
  /-- SCREEN -/
  screen : Byte
  /-- SERIAL -/
  serial : BitVec 64
  /-- LC -/
  lc : BitVec 4
  /-- KEY_REVOKED -/
  keyRevoked : BitVec 2
  /-- RB_COUNT -/
  rbCount : Nat
  /-- the hashes of the key slots -/
  keyHash : Table (Option (BitVec 256))
  deriving DecidableEq, Repr

/-- The fuses of a state. -/
def fuses (s : State) : Fuses :=
  { stepping := s.sys.stepping, screen := s.sys.screen, serial := s.sys.serial, lc := s.sys.lc
    keyRevoked := s.sys.keyRevoked, rbCount := s.sys.rbCount, keyHash := s.sys.keyHash }

/-- One-way: no bit of LC or KEY_REVOKED clears, RB_COUNT does not fall, and the other fuses are the same (R63). -/
def Fuses.oneWay (a b : Fuses) : Prop :=
  a.lc &&& b.lc = a.lc ∧ a.keyRevoked &&& b.keyRevoked = a.keyRevoked ∧ a.rbCount ≤ b.rbCount ∧
  b.stepping = a.stepping ∧ b.screen = a.screen ∧ b.serial = a.serial ∧ b.keyHash = a.keyHash

/-- A step of the governor is engaged only with every lower one (R524). -/
def cascade (g : BitVec 3) : Bool := g == 0 || g == 1 || g == 3 || g == 7

/-- The request in a mailbox is this call's, its turn has come, and it passes every check that comes before its call is
carried out (log 27): no isolated lead (R651), a length of 4 to 240 with clear reserved bits (R48, R52), a mailbox that may
carry the call (R53), a state that allows it, and parameters of the length of its row. -/
def accepted (n code : Nat) (a : Allowed) (len : Nat) (s : State) : Bool :=
  callReady n code (fun _ => true) s && (!leadIsolated s || decide (code = 0x0100 ∨ code = 0x0101)) &&
  decide (4 ≤ (mbAt s n).reqLen ∧ (mbAt s n).reqLen ≤ 240) && reservedZero (mbAt s n) && (decide (2 ≤ n) || a.pri) &&
  (!s.sys.bootHold || decide (s.sys.bootResult ≠ 0x13) || [0x0100, 0x0101, 0x0104].contains code) && allowedNow a s &&
  decide (len ≤ (params (mbAt s n)).length)

/-- The request of a call, with its parameters, is accepted. -/
def Asked (mb : Fin 8) (code : Nat) (a : Allowed) (len : Nat) (p : List Byte) (s : State) : Prop :=
  accepted mb.val code a len s = true ∧ params (mbAt s mb.val) = p

/-- The instruction at the index of a core (R310). -/
def fetched (x : WeCore) : WeIns := weDecode (tget 0 x.p x.index)

/-- A running core, not stalled, has at its index an instruction of an OPC with its stage on, in a form R312 and R313
allow, its word not poisoned and the addresses of its moves in range (R310 to R313, R321, R336). -/
def issues (n opc : Nat) (s : State) : Bool :=
  let x := coreAt s n
  let i := fetched x
  decide (x.state = .running ∧ x.stall = none ∧ i.opc = opc) && busyState s && !poisoned x 1 (8 * x.index) &&
  bit (bankOf x x.bank).sq.toNat i.stage && opcListed opc && formOk i && (movesOf i).all (moveRange (bankOf x x.bank))

/-- The state an instruction of a core acts in: the issue counted and its moves launched (R311, R313). -/
def launched (n : Nat) (s : State) : State := (movesOf (fetched (coreAt s n))).foldl (launchMove n) (weStat n 0 1 s)

/-- A core after its instruction has done what it does, the issue counted; one that faults performs nothing, its moves
included (R313, R316, R336). -/
def issued (n : Nat) (act : WeIns → State → WeAct) (s : State) : State :=
  match act (fetched (coreAt s n)) (launched n s) with
  | .fault c t => weFault n c { weStat n 0 1 s with freeCtr := t.freeCtr }
  | a => settleAct n (movesOf (fetched (coreAt s n))) a

/-- The parts of the state that the claims about what a command leaves alone speak of. -/
inductive StatePart where
  /-- the mailboxes and the requests that wait in them (R48, R54) -/
  | mail
  /-- the running settings (R75 to R78) -/
  | settings
  /-- the open and the ended jobs (R55, R698) -/
  | jobs
  /-- the two flash chips and the slot open for data (R61, R65) -/
  | flash
  /-- what the sideband slave answered (R46, R695) -/
  | sideband
  /-- the rest of the host part: identity, fuses, straps, boot and power state (R43, R44, R80) -/
  | host
  /-- the event map and the trouble record (chapter 16) -/
  | events
  /-- the pixel front end (chapter 03) -/
  | frontEnd
  /-- event timing (chapter 04) -/
  | timing
  /-- the hit path (chapter 05) -/
  | hitPath
  /-- trigger and acquisition (chapter 06) -/
  | trigger
  /-- the waveform engine (chapter 07) -/
  | waveform
  /-- the burst buffer and the memory (chapter 08) -/
  | buffer
  /-- compression (chapter 09) -/
  | compression
  /-- the links (chapter 10) -/
  | links
  /-- the time core and the interval inputs (chapter 11) -/
  | time
  /-- power and the governor (chapter 12) -/
  | power
  /-- slow control (chapter 13) -/
  | slowControl
  /-- the calibration light (chapter 14) -/
  | light
  /-- the safety partition (chapter 15) -/
  | safety
  /-- redundancy (chapter 16) -/
  | redundancy
  /-- the supply sequencer (chapter 17) -/
  | sequencer
  /-- the model's clock (log 1) -/
  | clock
  /-- the model's counter of free values (log 23) -/
  | free
  deriving DecidableEq, Repr

/-- The host part without the mailboxes, the settings, the jobs, the flash and the answer of the sideband slave. -/
def SysState.rest (x : SysState) : SysState :=
  { x with mb := [], waitQ := [], cfg := [], jobs := [], ended := [], nextJob := 0, cs0 := {}, cs1 := {}, imageOpen := false
           sbOut := none, discarded := false }

/-- A part is the same in two states. -/
def StatePart.same : StatePart → State → State → Prop
  | .mail, s, t => t.sys.mb = s.sys.mb ∧ t.sys.waitQ = s.sys.waitQ
  | .settings, s, t => t.sys.cfg = s.sys.cfg
  | .jobs, s, t => t.sys.jobs = s.sys.jobs ∧ t.sys.ended = s.sys.ended ∧ t.sys.nextJob = s.sys.nextJob
  | .flash, s, t => t.sys.cs0 = s.sys.cs0 ∧ t.sys.cs1 = s.sys.cs1 ∧ t.sys.imageOpen = s.sys.imageOpen
  | .sideband, s, t => t.sys.sbOut = s.sys.sbOut ∧ t.sys.discarded = s.sys.discarded
  | .host, s, t => t.sys.rest = s.sys.rest
  | .events, s, t => t.ev = s.ev
  | .frontEnd, s, t => t.fe = s.fe
  | .timing, s, t => t.tm = s.tm
  | .hitPath, s, t => t.hp = s.hp
  | .trigger, s, t => t.tr = s.tr
  | .waveform, s, t => t.we = s.we
  | .buffer, s, t => t.bb = s.bb
  | .compression, s, t => t.cx = s.cx
  | .links, s, t => t.lk = s.lk
  | .time, s, t => t.tc = s.tc
  | .power, s, t => t.pw = s.pw
  | .slowControl, s, t => t.sc = s.sc
  | .light, s, t => t.ld = s.ld
  | .safety, s, t => t.sf = s.sf
  | .redundancy, s, t => t.red = s.red
  | .sequencer, s, t => t.seq = s.seq
  | .clock, s, t => t.up = s.up
  | .free, s, t => t.freeCtr = s.freeCtr

/-- The parts that a command may change: its own subsystem, and those that the rules make it act on. Every other part is as it
was. -/
def footprint : Instr → List StatePart
  | .sbRead _ _ | .sbStatus | .sbUnknownCommand _ => [.sideband]
  | .sbWrite _ _ => [.mail, .sideband, .events]
  | .windowWrite _ _ | .unknownCall _ | .sysNop _ | .sysIdent _ | .sysBootReport _ | .sysFlashInfo _
    | .sysSettingRead _ | .feModeGet _ | .feDacGet _ | .fePixelRead _ | .feScanResult _ | .feBumpResult _
    | .feCrabList _ | .feChargeRead _ | .feScrubStatus _ | .feStatus _ | .tmStatus _ | .tmCalStatus _
    | .tmPeriodRead _ | .tmSkewRead _ | .tmWalkRead _ | .tmInlRead _ | .tmDroopRead _ | .hpStatus _ | .hpLossStatus _
    | .hpMergeStatus _ | .trStatus _ | .trUnitRead _ | .trAdcStatus _ | .trDomainStatus _ | .weStatus _ | .weMemRead _
    | .weRegRead _ | .bbStatus _ | .bbQueueMapGet _ | .bbRegionGet _ | .bbPeek _ | .memStatus _ | .memScrubSummary _
    | .memDefectRead _ | .memCheckerRead _ | .cxStatus _ | .cxQueueGet _ | .cxChainRead _ | .cxCodeTest _
    | .lkStatus _ | .lkEthStatus _ | .lkSlStatus _ | .lkTc0Load _ | .timeStatus _ | .timeNow _ | .pwStatus _
    | .pwThermalRead _ | .pwDomainRead _ | .scStatus _ | .scChannelRead _ | .scResultRead _ | .scInjectRead _
    | .scChannelStatus _ | .ldStatus _ | .ldChainRead _ | .ldEmitterRead _ | .ldScheduleRead _ | .ldDiagRead _
    | .sfStatus _ | .sfTripLog _ | .redStatus _ | .redClaimRead _ | .evtRead _ | .evtClear _ | .evtConfig _
    | .evtSummary _ | .flogRead _ | .flogClear _ | .flogMirrorRead _ | .evtStats _ => [.mail, .events]
  | .eventStickyClear _ _ | .alarmHeldRelease | .eventStateTmrVote _ => [.events]
  | .ctrlRead _ | .negMapRx _ _ | .rxPacketBad _ | .nakRx _ _ | .pauseRx _ _ | .prbsLockLost _ _ _ =>
    [.events, .links]
  | .ctrlWrite _ | .lkRateSet _ | .lkRepechageClear _ | .lkPrbsInjectSingle _ | .lkPrbsInjectBurst _
    | .lkPrbsInjectRate _ | .lkPrbsInjectStop _ | .lkStats _ => [.mail, .events, .links]
  | .jobComplete _ _ =>
    [.jobs, .flash, .host, .events, .frontEnd, .timing, .hitPath, .buffer, .compression, .time, .light, .redundancy,
     .clock]
  | .jobDeferredStart _ => [.jobs, .events, .frontEnd, .timing, .buffer, .power]
  | .sysResetWarm _ | .sysResetBoth _ | .holdWakeRestore _ _ _ =>
    [.mail, .jobs, .host, .events, .frontEnd, .timing, .hitPath, .trigger, .waveform, .buffer, .compression, .links,
     .time, .power, .slowControl, .light, .safety, .redundancy, .free]
  | .sysResetCox _ =>
    [.mail, .jobs, .host, .events, .frontEnd, .timing, .hitPath, .buffer, .time, .slowControl, .light, .redundancy]
  | .sysLeadSet _ | .sysRollbackAdvance _ | .sysLifecycleAdvance _ | .sysKeyRevoke _ => [.mail, .host, .events]
  | .sysSettingsSave _ | .sysImageBegin _ => [.mail, .jobs, .flash, .events]
  | .sysImageCommit _ => [.mail, .flash, .events, .free]
  | .sysJobStatus _ | .trSampleRead _ | .freqRead _ => [.mail, .events, .free]
  | .sysImageData _ => [.mail, .flash, .events]
  | .sysImageVerify _ | .tmWalkCal _ | .memTrain _ | .flogMirror _ => [.mail, .jobs, .events]
  | .porAssert =>
    [.mail, .settings, .jobs, .flash, .sideband, .host, .events, .frontEnd, .timing, .hitPath, .trigger, .waveform,
     .buffer, .compression, .links, .time, .power, .slowControl, .light, .safety, .redundancy, .sequencer]
  | .porRelease _ => [.host, .events, .time, .safety, .redundancy, .sequencer, .clock]
  | .pwrGoodRise | .seqEnableTimeout | .seqRetryTimer | .pwrGoodRetryTimer => [.events, .time, .sequencer, .clock]
  | .pwrGoodFall _ _ =>
    [.mail, .jobs, .host, .events, .frontEnd, .timing, .hitPath, .trigger, .waveform, .buffer, .compression, .links,
     .time, .power, .slowControl, .light, .safety, .redundancy, .sequencer, .free]
  | .rstNPulse _ | .thermalScan _ | .shutdownHoldTimeout | .holdReached =>
    [.mail, .jobs, .host, .events, .frontEnd, .timing, .hitPath, .trigger, .waveform, .buffer, .compression, .links,
     .time, .power, .slowControl, .light, .safety, .redundancy, .sequencer, .clock, .free]
  | .pd0Running | .coxBootRomStart => [.host]
  | .sfRomStart _ _ => [.mail, .host, .events, .time, .safety, .redundancy, .clock]
  | .sfSelfTestDone _ | .ilkChannelChange _ _ _ | .sfCommandRx _ | .sfHvRequest _ | .sfReset _ | .sfShutterRequest _
    | .sfDarkTest _ | .sfStats _ => [.mail, .events, .safety]
  | .coxRomReady _ => [.host, .events, .power, .redundancy]
  | .bootRomReadyTimeout => [.jobs, .host, .events, .hitPath, .links, .time, .power, .redundancy, .clock, .free]
  | .flashNegotiation _ _ => [.mail, .flash, .host, .events, .power]
  | .bootImageCheck _ _ _ => [.host, .events, .power, .redundancy, .free]
  | .settingsApply =>
    [.settings, .jobs, .host, .events, .frontEnd, .timing, .hitPath, .trigger, .waveform, .buffer, .compression,
     .slowControl, .light, .safety, .free]
  | .memTrainingDone _ => [.host, .events, .frontEnd, .hitPath, .buffer, .compression]
  | .timeCoreStart =>
    [.mail, .host, .events, .frontEnd, .hitPath, .trigger, .buffer, .compression, .links, .time, .power, .free]
  | .bootLinkWaitExpiry => [.host, .events, .time, .clock]
  | .bootEnterEasy => [.host, .events, .frontEnd, .hitPath, .waveform, .compression, .power]
  | .coxRestartTimeout _ | .arbPoll _ _ | .wakeHalfAnswerTimeout _ =>
    [.jobs, .host, .events, .hitPath, .buffer, .links, .time, .redundancy, .clock, .free]
  | .coxMemScrub _ _ _ =>
    [.jobs, .host, .events, .frontEnd, .timing, .hitPath, .buffer, .links, .time, .slowControl, .light, .redundancy,
     .free]
  | .discriminatorRise _ _ _ | .ringCountSaturated _ | .feTmrVote _ _ => [.events, .frontEnd, .timing, .time, .clock]
  | .rangeSwitch _ _ | .rangeBlankEnd _ | .discriminatorFall _ _ | .totSaturated _ | .pixelDeadTimeEnd _
    | .blockClockReady _ | .blockClockIdleGate _ | .bridgeSaturated _ | .portRecordAgeOut _ | .frameBoundary
    | .feModeEffect | .crabWindowEnd | .crabRetest _ | .tpStep => [.events, .frontEnd, .time, .clock]
  | .portLossSend _ _ | .watermarkSend _ => [.frontEnd]
  | .frameUnitAssemble _ _ | .scrubLineVisit _ _ =>
    [.events, .frontEnd, .hitPath, .buffer, .compression, .time, .clock, .free]
  | .leakUpdate _ | .blockCounterCheck _ _ => [.events, .frontEnd]
  | .feScrub _ => [.events, .frontEnd, .free]
  | .feModeSet _ | .feDacSet _ | .fePixelWrite _ | .feFrameConfig _ | .feChargeWrite _ => [.mail, .events, .frontEnd]
  | .feTrimRun _ | .feScurve _ | .feBumpTest _ | .feChargeCal _ => [.mail, .jobs, .events, .frontEnd]
  | .feTpInject _ => [.mail, .events, .frontEnd, .hitPath]
  | .feCrabConfig _ | .feLeakConfig _ | .tmTempConfig _ | .memScrubConfig _ | .lkClassConfig _ | .lkTc2WeightSet _
    | .lkPacketCloseSet _ | .timePtpConfig _ | .timePpsConfig _ | .tiConfig _ | .pwBudgetConfig _ | .pwThermalConfig _
    | .scChannelConfig _ | .scSequenceSet _ | .ldSinkConfig _ | .evtTraceConfig _ => [.mail, .settings, .events]
  | .hitFrameReceived _ _ _ =>
    [.events, .frontEnd, .timing, .hitPath, .buffer, .compression, .links, .time, .power, .clock]
  | .watermarkReceived _ | .blockOffRelease _ => [.events, .frontEnd, .hitPath, .time, .clock]
  | .portLossReceived _ | .mergeReplyTimeout _ _ | .cxUnitCode _ _ =>
    [.events, .frontEnd, .hitPath, .buffer, .compression, .time, .clock]
  | .portFramingError _ _ => [.events, .frontEnd, .hitPath]
  | .inlUpdate _ | .tmTempUpdate => [.events, .timing]
  | .calRunLatch _ _ => [.jobs, .events, .timing, .time, .clock]
  | .calBandAgeExpiry _ _ => [.events, .timing, .time, .clock]
  | .tmCalRun _ => [.mail, .jobs, .events, .timing, .power]
  | .tmBandConfig _ => [.mail, .settings, .events, .frontEnd, .timing]
  | .tmPeriodWrite _ | .tmSkewCal _ => [.mail, .jobs, .events, .timing]
  | .tmSkewWrite _ | .tmWalkWrite _ | .tmStats _ => [.mail, .events, .timing]
  | .clusterClose _ _ | .reorderRelease _ =>
    [.events, .frontEnd, .timing, .hitPath, .buffer, .compression, .links, .time, .clock]
  | .edgeFragRx _ _ | .mergeReplyRx _ _ _ => [.events, .frontEnd, .hitPath, .buffer, .compression, .links]
  | .mergeWaitExpiry _ _ => [.events, .frontEnd, .hitPath, .buffer, .compression, .links, .time, .clock]
  | .hpOutputSet _ | .hpClusterConfig _ | .hpGateConfig _ | .hpReorderConfig _ | .hpStats _ | .hpTpRead _ =>
    [.mail, .events, .hitPath]
  | .hpLossConfig _ | .hpMergeConfig _ => [.mail, .settings, .events, .frontEnd, .hitPath, .buffer, .compression]
  | .adcCalUpdate _ | .adcConvergeTimeout _ | .holdoffEnd _ | .trConfigEffect | .domainBeatTimeout | .domainArmTick
    | .domainRearm | .domainDisarmEffect => [.events, .trigger, .time, .clock]
  | .triggerFire _ _ => [.events, .trigger, .waveform, .links, .time, .clock, .free]
  | .softFireTick | .trigInEdge _ | .domainBeatSend => [.events, .trigger, .links, .time, .clock]
  | .triggerRecordWrite =>
    [.events, .frontEnd, .hitPath, .trigger, .waveform, .buffer, .compression, .time, .clock, .free]
  | .waveCaptureDone _ => [.events, .frontEnd, .hitPath, .trigger, .buffer, .compression, .time, .clock]
  | .domainArmRx _ _ | .domainDisarmRx _ _ | .domainFireRx _ _ | .domainBeatRx _ _ => [.events, .trigger, .links]
  | .trUnitConfig _ | .trUnitEnable _ | .trAdcFreeze _ | .trSoftFire _ | .trStats _ => [.mail, .events, .trigger]
  | .trPatchConfig _ | .trDomainConfig _ | .trTrigioConfig _ => [.mail, .settings, .events, .trigger]
  | .trArm _ | .trDisarm _ => [.mail, .events, .trigger, .links]
  | .weNop _ | .weAdd _ | .weSub _ | .weAdds _ | .weSubs _ | .weAnd _ | .weOr _ | .weXor _ | .weShl _ | .weShr _
    | .weSar _ | .weMin _ | .weMax _ | .weAbs _ | .weAdd2h _ | .weSub2h _ | .wePack _ | .weCmplt _ | .weCmpeq _
    | .weMov _ | .weMovs _ | .weMovsr _ | .weMul _ | .weMul2h _ | .weMac _ | .weMsu _ | .weMac0 _ | .weFtap _
    | .weFtap0 _ | .weClra _ | .weAdda _ | .weLda _ | .weMova _ | .weMovaw _ | .weIn _ | .weQput _ | .weQend _
    | .weBr _ | .weBrz _ | .weBrnz _ | .weCall _ | .weRet _ | .weLoop _ | .wePloop _ | .weWait _ | .weRti _ | .weSwi _
    | .weHalt _ | .weInResume _ | .weQputResume _ =>
    [.events, .frontEnd, .hitPath, .waveform, .buffer, .compression, .free]
  | .weOut _ | .weOutResume _ =>
    [.events, .frontEnd, .hitPath, .trigger, .waveform, .buffer, .compression, .links, .free]
  | .weIrqLevel1 _ => [.events, .frontEnd, .hitPath, .waveform, .buffer, .compression, .time, .clock]
  | .weIrqLevel2 _ | .weInputSample _ _ _ =>
    [.events, .frontEnd, .hitPath, .waveform, .buffer, .compression, .time, .clock, .free]
  | .weLoadBegin _ | .weLoadData _ | .weLoadEnd _ | .weStart _ | .weSignal _ | .weStats _ =>
    [.mail, .events, .waveform]
  | .weStop _ => [.mail, .events, .frontEnd, .hitPath, .waveform, .buffer, .compression, .free]
  | .weParamWrite _ => [.mail, .events, .waveform, .free]
  | .frameCloseTimeout _ _ _ => [.events, .buffer, .compression, .time, .clock]
  | .drain _ => [.buffer]
  | .spill _ | .pointerCheck _ _ => [.events, .buffer]
  | .refill _ _ => [.events, .frontEnd, .hitPath, .buffer, .compression]
  | .queueResetComplete _ => [.jobs, .events, .frontEnd, .hitPath, .buffer, .compression]
  | .sramScrub _ | .memLayerIdleSelfRefresh => [.events, .buffer, .time, .clock]
  | .bbQueueMapSet _ | .bbHoldOutput _ | .bbStats _ | .memCheckerWrite _ => [.mail, .events, .buffer]
  | .bbRegionSet _ => [.mail, .jobs, .events, .frontEnd, .hitPath, .buffer, .compression]
  | .bbFlush _ => [.mail, .events, .frontEnd, .hitPath, .buffer, .compression]
  | .bbReset _ | .memScrubRange _ => [.mail, .jobs, .events, .buffer]
  | .cxBufferCloseTimeout _ _ | .cxIdleGate | .cxStalled _ => [.events, .compression, .time, .clock]
  | .cxQueueConfig _ | .cxStats _ => [.mail, .events, .compression]
  | .laneSignalDetect _ | .alignMarkerSend _ | .laneRateDwellTimeout _ | .laneTxOffEnd _ | .laneFecTimeout _
    | .groupTimeout _ | .alignTimeout _ | .regroupTimeout _ | .nakGroupWaitExpiry _ | .tailSend _ | .arpRetry _
    | .pauseExpiry _ | .slHelloSend _ => [.events, .links, .time, .clock]
  | .laneBlockLock _ | .negReadyRx _ | .alignMarkerRx _ _ _ | .arpReplyRx _ _ _ => [.events, .buffer, .links]
  | .laneLockLost _ => [.events, .frontEnd, .hitPath, .trigger, .buffer, .compression, .links, .time, .free]
  | .negAdvRx _ _ | .negFecRx _ _ | .negGroupRx _ _ | .rxReservedStream _ _ | .arpRequestRx _ _ _ _
    | .ethFrameDiscard _ | .prbsCheckerLock _ _ => [.links]
  | .negRateReqRx _ _ => [.events, .buffer, .links, .time, .free]
  | .negRateAckRx _ _ => [.mail, .events, .buffer, .links, .time, .power, .free]
  | .markerMissed _ | .fecCodewordUncorrectable _ => [.events, .buffer, .links, .free]
  | .mapTimeout _ => [.events, .buffer, .links, .time, .clock]
  | .rateReqTimeout _ => [.mail, .events, .links, .time, .power, .clock]
  | .packetSend _ _ _ => [.events, .frontEnd, .hitPath, .buffer, .compression, .links, .time, .free]
  | .arpFailTimeout _ | .freqWindowCheck _ _ | .ocxoWarmHoldExpiry | .freqRestoreTimer _ | .freqLockCheck _ _
    | .timeSyncRx _ _ _ | .timeExchangeTimeout | .masterAnnounceTimeout _ | .timeHoldoverTimeout | .ppsInEdge _
    | .ppsLossTimeout | .ppsOutPulse | .tiEdge _ _ | .alarmPendingCommit _ | .incidentCalmExpiry =>
    [.events, .time, .clock]
  | .slHelloRx _ _ => [.events, .frontEnd, .hitPath, .trigger, .buffer, .compression, .links]
  | .slHelloTimeout _ => [.events, .frontEnd, .hitPath, .trigger, .buffer, .compression, .links, .time, .clock]
  | .lkLaneStatus _ | .lkPrbsRead _ => [.mail, .events, .links, .free]
  | .lkConfig _ => [.mail, .settings, .events, .buffer, .links, .power, .free]
  | .lkRenegotiate _ => [.mail, .events, .buffer, .links, .power, .free]
  | .lkPrbsConfig _ => [.mail, .events, .buffer, .links, .free]
  | .lkEthConfig _ => [.mail, .settings, .events, .buffer, .links, .free]
  | .lkSlConfig _ => [.mail, .settings, .events, .frontEnd, .hitPath, .trigger, .buffer, .compression, .links]
  | .timeTmrVote _ | .freqSourceWatchdog _ | .ocxoRdyFall | .timeFollowUpRx _ _ | .timeDelayRespRx _ _
    | .timeAnnounceRx _ _ | .ptpFollowUpRx _ _ | .ptpDelayRespRx _ _ | .ptpAnnounceRx _ _ => [.events, .time]
  | .timeStepEdge => [.jobs, .events, .frontEnd, .trigger, .waveform, .buffer, .compression, .time, .clock]
  | .ptpSyncRx _ _ _ => [.events, .time, .clock, .free]
  | .freqGateEnd _ => [.jobs, .events, .time, .clock]
  | .timeFreqConfig _ | .timeServoConfig _ => [.mail, .settings, .events, .time]
  | .timeSet _ | .tiStampRead _ | .splitConfig _ | .timeStats _ => [.mail, .events, .time]
  | .splitRead _ => [.mail, .events, .time, .free]
  | .freqStart _ | .freqStop _ => [.mail, .jobs, .events, .time]
  | .governorEval _ => [.events, .frontEnd, .hitPath, .waveform, .buffer, .compression, .time, .power, .clock]
  | .governorStep2Tick | .governorRestoreRetry => [.events, .links, .time, .power, .clock]
  | .throttleStepTimer => [.events, .frontEnd, .hitPath, .waveform, .compression, .time, .power, .clock]
  | .thermalLatchClear => [.mail, .events, .time, .power, .safety, .clock]
  | .autoRateWindow | .clusterEngineIdleGate _ => [.events, .time, .power, .clock]
  | .wakeTimerFire _ | .holdWake _ _ => [.events, .time, .power, .safety, .sequencer, .clock, .free]
  | .queueSave => [.events, .frontEnd, .hitPath, .buffer, .compression, .power]
  | .holdWakeEasy =>
    [.mail, .jobs, .host, .events, .frontEnd, .hitPath, .trigger, .waveform, .buffer, .compression, .links, .power,
     .slowControl, .light, .free]
  | .pwStateSet _ =>
    [.mail, .jobs, .host, .events, .frontEnd, .timing, .hitPath, .buffer, .compression, .links, .time, .power,
     .slowControl, .light, .redundancy]
  | .pwWakeSet _ | .pwWakeClear _ | .pwStats _ => [.mail, .events, .power]
  | .pwAutoConfig _ => [.mail, .settings, .events, .power]
  | .scPassStart | .scCalStepDone _ _ _ _ | .scAutoCalDue | .scExcMonitorDone _ =>
    [.jobs, .events, .time, .slowControl, .clock]
  | .scConversionDone _ => [.mail, .jobs, .events, .time, .slowControl, .light, .safety, .clock, .free]
  | .scSafetyInjectRequest => [.jobs, .events, .slowControl, .free]
  | .scPinBreak _ _ _ => [.jobs, .events, .slowControl]
  | .scInject _ | .scStats _ => [.mail, .events, .slowControl]
  | .scCalibrate _ => [.mail, .jobs, .events, .slowControl, .free]
  | .scDiagRun _ => [.mail, .jobs, .events, .slowControl]
  | .ldPreWake | .lampShiftStart _ | .flashInstant | .ledDiagSample _ _ _ | .ledPulseEnd _ | .flashWindowEnd
    | .ldIdleGate | .ledTempUpdate | .proofPulseDue _ | .diagAgeExpiry _ => [.events, .time, .light, .clock]
  | .lampCaptureCycle _ _ | .proofPulse _ _ _ _ => [.jobs, .events, .time, .light, .clock]
  | .ldLineReadbackFault _ => [.events, .light]
  | .ldChainDiscover _ | .ldProofRun _ => [.mail, .jobs, .events, .light]
  | .ldEmitterConfig _ => [.mail, .settings, .events, .light]
  | .ldSchedule _ | .ldCancel _ | .ldStats _ => [.mail, .events, .light]
  | .sfLogicCycle _ | .sealReread _ | .soReadback _ => [.mail, .events, .time, .safety, .clock]
  | .ilkDiscrepancyTimeout _ | .soDarkTest _ _ | .sfConnExpiry => [.mail, .events, .time, .safety, .clock, .free]
  | .sfHvmonPoll => [.events, .time, .slowControl, .safety, .clock]
  | .xlinkHeartbeatSend _ | .arbLostTimeout _ => [.events, .time, .redundancy, .clock]
  | .xlinkHeartbeatRx _ _ => [.jobs, .host, .events, .hitPath, .redundancy]
  | .xlinkHeartbeatTimeout _ _ => [.jobs, .host, .events, .hitPath, .time, .redundancy, .clock]
  | .arbPollAnswer _ _ | .arbGntChange _ _ => [.jobs, .host, .events, .hitPath, .buffer, .links, .redundancy, .free]
  | .takeoverComplete =>
    [.mail, .jobs, .host, .events, .frontEnd, .timing, .hitPath, .buffer, .compression, .links, .time, .power,
     .slowControl, .light, .safety, .redundancy]
  | .rejoinTick =>
    [.jobs, .host, .events, .frontEnd, .hitPath, .buffer, .compression, .links, .time, .redundancy, .clock, .free]
  | .redRejoin _ => [.mail, .jobs, .events, .redundancy]
  | .powerStateChangeDone =>
    [.mail, .settings, .jobs, .host, .events, .frontEnd, .timing, .hitPath, .trigger, .waveform, .buffer,
     .compression, .links, .time, .power, .slowControl, .light, .redundancy]
  | .wePatrolScrub _ _ _ _ _ => [.events, .waveform]
  | .scInjectedConversionStart => [.jobs, .events, .time, .slowControl, .clock, .free]
  | .coxFirmwareReloaded _ => [.host, .redundancy]
  | .ocxoRdyRise => [.time]
  | .wakePwrGoodTimeout _ =>
    [.mail, .jobs, .host, .events, .frontEnd, .timing, .hitPath, .trigger, .waveform, .buffer, .compression, .links,
     .time, .power, .slowControl, .light, .redundancy, .sequencer, .clock, .free]
  | .arbiterTmrVote _ => [.events, .redundancy]

/-- What a catalogue row says of a call (R52, R53, R58, R59): its mailbox, call code, where it is allowed, the length of its
parameters, and the parameters that tell it from the other rows of its code. -/
structure CallRow where
  /-- the mailbox of the command -/
  mb : Fin 8
  /-- call code -/
  code : Nat
  /-- where the call is allowed -/
  allowed : Allowed
  /-- bytes of its parameters -/
  len : Nat
  /-- parameters of this row -/
  sel : List Byte → Bool

/-- Any parameters. -/
def anyParams (_ : List Byte) : Bool := true

/-- The catalogue row of a call command. -/
def callRow : Instr → Option CallRow
  | .sysNop mb => some ⟨mb, 0x0100, epdBhPri, 0, anyParams⟩
  | .sysIdent mb => some ⟨mb, 0x0101, epdBhPri, 0, anyParams⟩
  | .sysResetWarm mb => some ⟨mb, 0x0102, epdBh, 2, fun p => decide (p8 p 0 ≠ 1 ∧ p8 p 0 ≠ 2)⟩
  | .sysResetCox mb => some ⟨mb, 0x0102, epdBh, 2, fun p => decide (p8 p 0 = 1)⟩
  | .sysResetBoth mb => some ⟨mb, 0x0102, epdBh, 2, fun p => decide (p8 p 0 = 2)⟩
  | .sysLeadSet mb => some ⟨mb, 0x0103, epd, 1, anyParams⟩
  | .sysBootReport mb => some ⟨mb, 0x0104, epdBh, 1, anyParams⟩
  | .sysFlashInfo mb => some ⟨mb, 0x0105, epdBh, 1, anyParams⟩
  | .sysSettingRead mb => some ⟨mb, 0x0106, epd, 4, anyParams⟩
  | .sysSettingsSave mb => some ⟨mb, 0x0107, epd, 0, anyParams⟩
  | .sysImageCommit mb => some ⟨mb, 0x0108, epdBh, 1, anyParams⟩
  | .sysJobStatus mb => some ⟨mb, 0x0109, epdBhPri, 2, anyParams⟩
  | .sysImageBegin mb => some ⟨mb, 0x010A, epdBh, 1, anyParams⟩
  | .sysImageData mb => some ⟨mb, 0x010B, epdBh, 8, anyParams⟩
  | .sysImageVerify mb => some ⟨mb, 0x010C, epdBh, 0, anyParams⟩
  | .sysRollbackAdvance mb => some ⟨mb, 0x010D, epd, 1, anyParams⟩
  | .sysLifecycleAdvance mb => some ⟨mb, 0x010E, epdBh, 5, anyParams⟩
  | .sysKeyRevoke mb => some ⟨mb, 0x010F, epd, 5, anyParams⟩
  | .feModeSet mb => some ⟨mb, 0x0200, epd, 3, anyParams⟩
  | .feModeGet mb => some ⟨mb, 0x0201, epd, 2, anyParams⟩
  | .feDacSet mb => some ⟨mb, 0x0202, epd, 4, anyParams⟩
  | .feDacGet mb => some ⟨mb, 0x0203, epd, 1, anyParams⟩
  | .fePixelWrite mb => some ⟨mb, 0x0204, epd, 8, anyParams⟩
  | .fePixelRead mb => some ⟨mb, 0x0205, epd, 6, anyParams⟩
  | .feTrimRun mb => some ⟨mb, 0x0206, pOrD, 6, anyParams⟩
  | .feScurve mb => some ⟨mb, 0x0207, pOrD, 9, anyParams⟩
  | .feScanResult mb => some ⟨mb, 0x0208, epd, 8, anyParams⟩
  | .feBumpTest mb => some ⟨mb, 0x0209, pOrD, 2, anyParams⟩
  | .feBumpResult mb => some ⟨mb, 0x020A, epd, 6, anyParams⟩
  | .feTpInject mb => some ⟨mb, 0x020B, pOrD, 9, anyParams⟩
  | .feCrabConfig mb => some ⟨mb, 0x020C, epd, 11, anyParams⟩
  | .feCrabList mb => some ⟨mb, 0x020D, epd, 2, anyParams⟩
  | .feLeakConfig mb => some ⟨mb, 0x020E, epd, 7, anyParams⟩
  | .feFrameConfig mb => some ⟨mb, 0x020F, epd, 12, anyParams⟩
  | .feChargeCal mb => some ⟨mb, 0x0210, pOrD, 2, anyParams⟩
  | .feChargeRead mb => some ⟨mb, 0x0211, epd, 1, anyParams⟩
  | .feChargeWrite mb => some ⟨mb, 0x0212, epd, 67, anyParams⟩
  | .feScrubStatus mb => some ⟨mb, 0x0213, epdPri, 1, anyParams⟩
  | .feStatus mb => some ⟨mb, 0x0214, epdPri, 1, anyParams⟩
  | .tmStatus mb => some ⟨mb, 0x0300, epdPri, 1, anyParams⟩
  | .tmCalStatus mb => some ⟨mb, 0x0301, epd, 2, anyParams⟩
  | .tmCalRun mb => some ⟨mb, 0x0302, epd, 3, anyParams⟩
  | .tmBandConfig mb => some ⟨mb, 0x0303, epd, 7, anyParams⟩
  | .tmPeriodRead mb => some ⟨mb, 0x0304, epd, 4, anyParams⟩
  | .tmPeriodWrite mb => some ⟨mb, 0x0305, epd, 4, anyParams⟩
  | .tmSkewRead mb => some ⟨mb, 0x0306, epd, 4, anyParams⟩
  | .tmSkewWrite mb => some ⟨mb, 0x0307, epd, 4, anyParams⟩
  | .tmWalkRead mb => some ⟨mb, 0x0308, epd, 1, anyParams⟩
  | .tmWalkWrite mb => some ⟨mb, 0x0309, epd, 164, anyParams⟩
  | .tmWalkCal mb => some ⟨mb, 0x030A, pOrD, 4, anyParams⟩
  | .tmSkewCal mb => some ⟨mb, 0x030B, pOrD, 6, anyParams⟩
  | .tmInlRead mb => some ⟨mb, 0x030C, epd, 1, anyParams⟩
  | .tmTempConfig mb => some ⟨mb, 0x030D, epd, 5, anyParams⟩
  | .tmDroopRead mb => some ⟨mb, 0x030E, epdPri, 2, anyParams⟩
  | .tmStats mb => some ⟨mb, 0x030F, epd, 2, anyParams⟩
  | .hpStatus mb => some ⟨mb, 0x0400, epdPri, 1, anyParams⟩
  | .hpOutputSet mb => some ⟨mb, 0x0401, epd, 3, anyParams⟩
  | .hpClusterConfig mb => some ⟨mb, 0x0402, epd, 4, anyParams⟩
  | .hpLossConfig mb => some ⟨mb, 0x0403, epd, 13, anyParams⟩
  | .hpLossStatus mb => some ⟨mb, 0x0404, epdPri, 1, anyParams⟩
  | .hpGateConfig mb => some ⟨mb, 0x0405, epd, 6, anyParams⟩
  | .hpMergeConfig mb => some ⟨mb, 0x0406, epd, 4, anyParams⟩
  | .hpMergeStatus mb => some ⟨mb, 0x0407, epd, 0, anyParams⟩
  | .hpReorderConfig mb => some ⟨mb, 0x0408, epd, 2, anyParams⟩
  | .hpStats mb => some ⟨mb, 0x0409, epd, 2, anyParams⟩
  | .hpTpRead mb => some ⟨mb, 0x040A, epd, 2, anyParams⟩
  | .trStatus mb => some ⟨mb, 0x0500, epdPri, 0, anyParams⟩
  | .trUnitConfig mb => some ⟨mb, 0x0501, epd, 68, anyParams⟩
  | .trUnitRead mb => some ⟨mb, 0x0502, epd, 1, anyParams⟩
  | .trUnitEnable mb => some ⟨mb, 0x0503, epdPri, 4, anyParams⟩
  | .trPatchConfig mb => some ⟨mb, 0x0504, epd, 2, anyParams⟩
  | .trAdcStatus mb => some ⟨mb, 0x0505, pOrD, 1, anyParams⟩
  | .trAdcFreeze mb => some ⟨mb, 0x0506, pOrD, 9, anyParams⟩
  | .trDomainConfig mb => some ⟨mb, 0x0507, epd, 8, anyParams⟩
  | .trArm mb => some ⟨mb, 0x0508, pOrDPri, 4, anyParams⟩
  | .trDisarm mb => some ⟨mb, 0x0509, pOrDPri, 0, anyParams⟩
  | .trDomainStatus mb => some ⟨mb, 0x050A, epd, 0, anyParams⟩
  | .trSoftFire mb => some ⟨mb, 0x050B, pOrD, 10, anyParams⟩
  | .trStats mb => some ⟨mb, 0x050C, epd, 2, anyParams⟩
  | .trTrigioConfig mb => some ⟨mb, 0x050D, epd, 4, anyParams⟩
  | .trSampleRead mb => some ⟨mb, 0x050E, pOrD, 4, anyParams⟩
  | .weStatus mb => some ⟨mb, 0x0600, epdPri, 1, anyParams⟩
  | .weLoadBegin mb => some ⟨mb, 0x0601, pOrD, 1, anyParams⟩
  | .weLoadData mb => some ⟨mb, 0x0602, pOrD, 8, anyParams⟩
  | .weLoadEnd mb => some ⟨mb, 0x0603, pOrD, 1, anyParams⟩
  | .weStart mb => some ⟨mb, 0x0604, pOrD, 1, anyParams⟩
  | .weStop mb => some ⟨mb, 0x0605, epdPri, 1, anyParams⟩
  | .weMemRead mb => some ⟨mb, 0x0606, pOrD, 8, anyParams⟩
  | .weParamWrite mb => some ⟨mb, 0x0607, pOrD, 8, anyParams⟩
  | .weRegRead mb => some ⟨mb, 0x0608, pOrD, 3, anyParams⟩
  | .weSignal mb => some ⟨mb, 0x0609, pOrDPri, 5, anyParams⟩
  | .weStats mb => some ⟨mb, 0x060A, epd, 2, anyParams⟩
  | .bbStatus mb => some ⟨mb, 0x0700, epdPri, 1, anyParams⟩
  | .bbQueueMapSet mb => some ⟨mb, 0x0701, epd, 12, anyParams⟩
  | .bbQueueMapGet mb => some ⟨mb, 0x0702, epd, 0, anyParams⟩
  | .bbRegionSet mb => some ⟨mb, 0x0703, epd, 32, anyParams⟩
  | .bbRegionGet mb => some ⟨mb, 0x0704, epd, 0, anyParams⟩
  | .bbHoldOutput mb => some ⟨mb, 0x0705, epdPri, 4, anyParams⟩
  | .bbFlush mb => some ⟨mb, 0x0706, epd, 2, anyParams⟩
  | .bbReset mb => some ⟨mb, 0x0707, epd, 1, anyParams⟩
  | .bbPeek mb => some ⟨mb, 0x0708, epd, 4, anyParams⟩
  | .bbStats mb => some ⟨mb, 0x0709, epd, 2, anyParams⟩
  | .memStatus mb => some ⟨mb, 0x070A, epdPri, 0, anyParams⟩
  | .memScrubConfig mb => some ⟨mb, 0x070B, epd, 3, anyParams⟩
  | .memScrubRange mb => some ⟨mb, 0x070C, epd, 12, anyParams⟩
  | .memScrubSummary mb => some ⟨mb, 0x070D, epd, 2, anyParams⟩
  | .memDefectRead mb => some ⟨mb, 0x070E, epd, 2, anyParams⟩
  | .memCheckerWrite mb => some ⟨mb, 0x070F, epd, 40, anyParams⟩
  | .memCheckerRead mb => some ⟨mb, 0x0710, epd, 4, anyParams⟩
  | .memTrain mb => some ⟨mb, 0x0711, epd, 0, anyParams⟩
  | .cxStatus mb => some ⟨mb, 0x0800, epdPri, 1, anyParams⟩
  | .cxQueueConfig mb => some ⟨mb, 0x0801, epd, 5, anyParams⟩
  | .cxQueueGet mb => some ⟨mb, 0x0802, epd, 0, anyParams⟩
  | .cxChainRead mb => some ⟨mb, 0x0803, epd, 3, anyParams⟩
  | .cxStats mb => some ⟨mb, 0x0804, epd, 2, anyParams⟩
  | .cxCodeTest mb => some ⟨mb, 0x0805, epd, 4, anyParams⟩
  | .lkStatus mb => some ⟨mb, 0x0900, epdPri, 1, anyParams⟩
  | .lkLaneStatus mb => some ⟨mb, 0x0901, epd, 1, anyParams⟩
  | .lkConfig mb => some ⟨mb, 0x0902, epd, 9, anyParams⟩
  | .lkRenegotiate mb => some ⟨mb, 0x0903, epd, 1, anyParams⟩
  | .lkRateSet mb => some ⟨mb, 0x0904, pOrD, 2, anyParams⟩
  | .lkClassConfig mb => some ⟨mb, 0x0905, epd, 4, anyParams⟩
  | .lkTc2WeightSet mb => some ⟨mb, 0x0906, epd, 16, anyParams⟩
  | .lkPacketCloseSet mb => some ⟨mb, 0x0907, epd, 4, anyParams⟩
  | .lkRepechageClear mb => some ⟨mb, 0x0908, epd, 1, anyParams⟩
  | .lkPrbsConfig mb => some ⟨mb, 0x0909, epd, 4, anyParams⟩
  | .lkPrbsInjectSingle mb => some ⟨mb, 0x090A, epd, 4, fun p => decide (p8 p 1 = 0 ∨ 3 < p8 p 1)⟩
  | .lkPrbsInjectBurst mb => some ⟨mb, 0x090A, epd, 4, fun p => decide (p8 p 1 = 1)⟩
  | .lkPrbsInjectRate mb => some ⟨mb, 0x090A, epd, 4, fun p => decide (p8 p 1 = 2)⟩
  | .lkPrbsInjectStop mb => some ⟨mb, 0x090A, epd, 4, fun p => decide (p8 p 1 = 3)⟩
  | .lkPrbsRead mb => some ⟨mb, 0x090B, epd, 2, anyParams⟩
  | .lkEthConfig mb => some ⟨mb, 0x090C, epd, 29, anyParams⟩
  | .lkEthStatus mb => some ⟨mb, 0x090D, epd, 1, anyParams⟩
  | .lkSlStatus mb => some ⟨mb, 0x090E, epdPri, 1, anyParams⟩
  | .lkSlConfig mb => some ⟨mb, 0x090F, epd, 1, anyParams⟩
  | .lkStats mb => some ⟨mb, 0x0910, epd, 2, anyParams⟩
  | .lkTc0Load mb => some ⟨mb, 0x0911, epdPri, 0, anyParams⟩
  | .timeStatus mb => some ⟨mb, 0x0A00, epdPri, 0, anyParams⟩
  | .timeNow mb => some ⟨mb, 0x0A01, epdPri, 0, anyParams⟩
  | .timeFreqConfig mb => some ⟨mb, 0x0A02, epd, 16, anyParams⟩
  | .timeServoConfig mb => some ⟨mb, 0x0A03, epd, 24, anyParams⟩
  | .timeSet mb => some ⟨mb, 0x0A04, epd, 16, anyParams⟩
  | .timePtpConfig mb => some ⟨mb, 0x0A05, epd, 16, anyParams⟩
  | .timePpsConfig mb => some ⟨mb, 0x0A06, epd, 16, anyParams⟩
  | .tiConfig mb => some ⟨mb, 0x0A07, epd, 16, anyParams⟩
  | .tiStampRead mb => some ⟨mb, 0x0A08, epd, 2, anyParams⟩
  | .splitConfig mb => some ⟨mb, 0x0A09, epd, 12, anyParams⟩
  | .splitRead mb => some ⟨mb, 0x0A0A, epd, 4, anyParams⟩
  | .freqStart mb => some ⟨mb, 0x0A0B, epd, 14, anyParams⟩
  | .freqRead mb => some ⟨mb, 0x0A0C, epd, 2, anyParams⟩
  | .freqStop mb => some ⟨mb, 0x0A0D, epd, 1, anyParams⟩
  | .timeStats mb => some ⟨mb, 0x0A0E, epd, 1, anyParams⟩
  | .pwStatus mb => some ⟨mb, 0x0B00, epdPri, 0, anyParams⟩
  | .pwStateSet mb => some ⟨mb, 0x0B01, epd, 2, anyParams⟩
  | .pwBudgetConfig mb => some ⟨mb, 0x0B02, epd, 12, anyParams⟩
  | .pwThermalConfig mb => some ⟨mb, 0x0B03, epd, 4, anyParams⟩
  | .pwThermalRead mb => some ⟨mb, 0x0B04, epdPri, 0, anyParams⟩
  | .pwWakeSet mb => some ⟨mb, 0x0B05, epd, 10, anyParams⟩
  | .pwWakeClear mb => some ⟨mb, 0x0B06, epd, 1, anyParams⟩
  | .pwAutoConfig mb => some ⟨mb, 0x0B07, epd, 14, anyParams⟩
  | .pwDomainRead mb => some ⟨mb, 0x0B08, epd, 2, anyParams⟩
  | .pwStats mb => some ⟨mb, 0x0B09, epd, 1, anyParams⟩
  | .scStatus mb => some ⟨mb, 0x0C00, epdPri, 0, anyParams⟩
  | .scChannelConfig mb => some ⟨mb, 0x0C01, epd, 36, anyParams⟩
  | .scChannelRead mb => some ⟨mb, 0x0C02, epd, 1, anyParams⟩
  | .scSequenceSet mb => some ⟨mb, 0x0C03, epd, 31, anyParams⟩
  | .scResultRead mb => some ⟨mb, 0x0C04, epdPri, 2, anyParams⟩
  | .scInject mb => some ⟨mb, 0x0C05, epdPri, 1, anyParams⟩
  | .scInjectRead mb => some ⟨mb, 0x0C06, epdPri, 2, anyParams⟩
  | .scCalibrate mb => some ⟨mb, 0x0C07, epd, 1, anyParams⟩
  | .scDiagRun mb => some ⟨mb, 0x0C08, epd, 2, anyParams⟩
  | .scChannelStatus mb => some ⟨mb, 0x0C09, epd, 1, anyParams⟩
  | .scStats mb => some ⟨mb, 0x0C0A, epd, 1, anyParams⟩
  | .ldStatus mb => some ⟨mb, 0x0D00, epdPri, 0, anyParams⟩
  | .ldChainDiscover mb => some ⟨mb, 0x0D01, epd, 1, anyParams⟩
  | .ldChainRead mb => some ⟨mb, 0x0D02, epd, 1, anyParams⟩
  | .ldEmitterConfig mb => some ⟨mb, 0x0D03, epd, 22, anyParams⟩
  | .ldEmitterRead mb => some ⟨mb, 0x0D04, epd, 1, anyParams⟩
  | .ldSchedule mb => some ⟨mb, 0x0D05, epd, 27, anyParams⟩
  | .ldCancel mb => some ⟨mb, 0x0D06, epdPri, 2, anyParams⟩
  | .ldScheduleRead mb => some ⟨mb, 0x0D07, epd, 1, anyParams⟩
  | .ldDiagRead mb => some ⟨mb, 0x0D08, epdPri, 2, anyParams⟩
  | .ldProofRun mb => some ⟨mb, 0x0D09, epd, 1, anyParams⟩
  | .ldSinkConfig mb => some ⟨mb, 0x0D0A, epd, 7, anyParams⟩
  | .ldStats mb => some ⟨mb, 0x0D0B, epd, 2, anyParams⟩
  | .sfStatus mb => some ⟨mb, 0x0E00, epdPri, 0, anyParams⟩
  | .sfHvRequest mb => some ⟨mb, 0x0E01, epdPri, 1, anyParams⟩
  | .sfReset mb => some ⟨mb, 0x0E02, epdPri, 0, anyParams⟩
  | .sfShutterRequest mb => some ⟨mb, 0x0E03, epdPri, 1, anyParams⟩
  | .sfDarkTest mb => some ⟨mb, 0x0E04, epd, 0, anyParams⟩
  | .sfTripLog mb => some ⟨mb, 0x0E05, epd, 1, anyParams⟩
  | .sfStats mb => some ⟨mb, 0x0E06, epd, 1, anyParams⟩
  | .redStatus mb => some ⟨mb, 0x0F00, epdPri, 0, anyParams⟩
  | .redClaimRead mb => some ⟨mb, 0x0F01, epd, 0, anyParams⟩
  | .redRejoin mb => some ⟨mb, 0x0F02, epd, 10, anyParams⟩
  | .evtRead mb => some ⟨mb, 0x0F03, epdPri, 3, anyParams⟩
  | .evtClear mb => some ⟨mb, 0x0F04, epdPri, 5, anyParams⟩
  | .evtConfig mb => some ⟨mb, 0x0F05, epd, 5, anyParams⟩
  | .evtSummary mb => some ⟨mb, 0x0F06, epdPri, 0, anyParams⟩
  | .flogRead mb => some ⟨mb, 0x0F07, epd, 3, anyParams⟩
  | .flogClear mb => some ⟨mb, 0x0F08, epd, 0, anyParams⟩
  | .flogMirror mb => some ⟨mb, 0x0F09, epd, 0, anyParams⟩
  | .flogMirrorRead mb => some ⟨mb, 0x0F0A, epd, 5, anyParams⟩
  | .evtStats mb => some ⟨mb, 0x0F0B, epd, 1, anyParams⟩
  | .evtTraceConfig mb => some ⟨mb, 0x0F0C, epd, 4, anyParams⟩
  | _ => none

/-- The job table holds at most 8 open and 16 ended jobs, and every number issued, the next one too, is from 1 to 0xFFFF
(R55, R698). -/
def JobTable (s : State) : Prop :=
  s.sys.jobs.length ≤ 8 ∧ s.sys.ended.length ≤ 16 ∧ 1 ≤ s.sys.nextJob ∧ s.sys.nextJob ≤ 0xFFFF ∧
  (∀ j ∈ s.sys.jobs, 1 ≤ j.num ∧ j.num ≤ 0xFFFF) ∧ ∀ j ∈ s.sys.ended, 1 ≤ j.num ∧ j.num ≤ 0xFFFF

/-- The mailboxes and their payloads are in canonical form. -/
def MailWf (s : State) : Prop := twf {} 0 s.sys.mb = true ∧ ∀ n, twf 0 0 (mbAt s n).payload = true

/-- The core of a command that is an instruction of the waveform engine. -/
def issuesOn : Instr → Option (Fin 4)
  | .weNop n => some n
  | .weAdd n => some n
  | .weSub n => some n
  | .weAdds n => some n
  | .weSubs n => some n
  | .weAnd n => some n
  | .weOr n => some n
  | .weXor n => some n
  | .weShl n => some n
  | .weShr n => some n
  | .weSar n => some n
  | .weMin n => some n
  | .weMax n => some n
  | .weAbs n => some n
  | .weAdd2h n => some n
  | .weSub2h n => some n
  | .wePack n => some n
  | .weCmplt n => some n
  | .weCmpeq n => some n
  | .weMov n => some n
  | .weMovs n => some n
  | .weMovsr n => some n
  | .weMul n => some n
  | .weMul2h n => some n
  | .weMac n => some n
  | .weMsu n => some n
  | .weMac0 n => some n
  | .weFtap n => some n
  | .weFtap0 n => some n
  | .weClra n => some n
  | .weAdda n => some n
  | .weLda n => some n
  | .weMova n => some n
  | .weMovaw n => some n
  | .weIn n => some n
  | .weOut n => some n
  | .weQput n => some n
  | .weQend n => some n
  | .weBr n => some n
  | .weBrz n => some n
  | .weBrnz n => some n
  | .weCall n => some n
  | .weRet n => some n
  | .weLoop n => some n
  | .wePloop n => some n
  | .weWait n => some n
  | .weRti n => some n
  | .weSwi n => some n
  | .weHalt n => some n
  | _ => none

end Sys2Proof.Machine
end

