-- ==== Sys2Proof/Certificates/Slice0/Obligations.lean ====
section
/-! DEFINITION. What is claimed of the model. -/

section
open Sys2Proof Sys2Proof.Machine

/-- A step takes the command at the front of the queue and carries it out on the state with the queue's rest. -/
def Obligations.StepRunsFront : Prop :=
  ∀ (c : Instr) (cs : List Instr) (s : State), step { s with pending := c :: cs } = exec c { s with pending := cs }

/-- On an empty queue a step lets one unit of 25 ns pass. That it does is the model's choice (log 1). -/
def Obligations.IdleStepTicks : Prop :=
  ∀ (s : State), s.pending = [] → step s = .next (idleTick s) ∧ (idleTick s).up = s.up + 1 ∧ (idleTick s).pending = []

/-- Carrying out a command leaves the queue as it is. -/
def Obligations.QueueUntouched : Prop :=
  ∀ (c : Instr) (s t : State), exec c s = .next t → t.pending = s.pending

/-- No command stops the block: each answers a next state on every state. -/
def Obligations.EveryCommandAnswers : Prop :=
  ∀ (c : Instr) (s : State), ∃ t, exec c s = .next t

/-- What the spec gives for power-on reset (R43, R44, R48, R654, R696, R698, R701). -/
def Obligations.ResetValues : Prop :=
  State.reset.sys.windowReady = false ∧ State.reset.sys.sbOut = none ∧
  State.reset.sys.bootResult = 0x01 ∧ State.reset.sys.readMode = 0 ∧ State.reset.sys.bootCs = 0 ∧
  State.reset.sys.bootSlot = 0 ∧ State.reset.sys.attempts = 0 ∧ State.reset.sys.lead = .s ∧
  State.reset.sys.partNum = 0x00001048 ∧
  State.reset.sys.power = .boot ∧ State.reset.sys.bootHold = false ∧ State.reset.sys.halfOk = ⟨false, false⟩ ∧
  (∀ n, mbAt State.reset n = {}) ∧
  State.reset.sys.jobs = [] ∧ State.reset.sys.ended = [] ∧ State.reset.sys.nextJob = 1 ∧
  State.reset.sys.report = [] ∧
  State.reset.ev.sticky = 0 ∧ ∀ n, State.reset.ev.en.getLsbD n = isDefined n

/-- What the invariants claim of every step holds at reset. -/
def Obligations.InvariantsAtReset : Prop :=
  cascade State.reset.pw.steps = true ∧ JobTable State.reset ∧ MailWf State.reset

/-- The frame of every command, for the mailboxes, the running settings, the jobs, the flash, the sideband answer, the rest
of the host part, the event state and the counter of free values: a part outside its footprint is as it was. -/
def Obligations.FrameHostPart : Prop :=
  ∀ (c : Instr) (s t : State), exec c s = .next t →
    ∀ q ∈ [StatePart.mail, .settings, .jobs, .flash, .sideband, .host, .events, .free],
      q ∉ footprint c → q.same s t

/-- The frame of every command, for the pixel front end, event timing, the hit path, the trigger engine and the waveform
engine with its memories: a part outside its footprint is as it was. -/
def Obligations.FrameSignalChain : Prop :=
  ∀ (c : Instr) (s t : State), exec c s = .next t →
    ∀ q ∈ [StatePart.frontEnd, .timing, .hitPath, .trigger, .waveform],
      q ∉ footprint c → q.same s t

/-- The frame of every command, for the burst buffer and its memory, compression, the links, the time core and the clock of
the model: a part outside its footprint is as it was. -/
def Obligations.FrameDataPath : Prop :=
  ∀ (c : Instr) (s t : State), exec c s = .next t →
    ∀ q ∈ [StatePart.buffer, .compression, .links, .time, .clock],
      q ∉ footprint c → q.same s t

/-- The frame of every command, for power and the governor, slow control, the calibration light, the safety partition,
redundancy and the supply sequencer: a part outside its footprint is as it was. -/
def Obligations.FrameServices : Prop :=
  ∀ (c : Instr) (s t : State), exec c s = .next t →
    ∀ q ∈ [StatePart.power, .slowControl, .light, .safety, .redundancy, .sequencer],
      q ∉ footprint c → q.same s t

/-- Sideband, window and control-packet commands run as the host window rules say: where a command is due, its own effect,
whole, is the next state. The rule of each command stands above its clause. -/
def Obligations.HostWindowRuns : Prop :=
  -- SB_READ (R46)
  (∀ (addr : Word) (words : Nat) (s : State),
    (!s.sys.por) = true →
    exec (.sbRead addr words) s = .next (
      onSys (fun x => { x with sbOut := some (
        if s.sys.windowReady ∧ addr.toNat % 4 = 0 then windowReads s addr.toNat words
        else List.replicate (4 * words) 0) }) s)) ∧
  -- SB_WRITE (R46)
  (∀ (addr : Word) (data : List Byte) (s : State),
    (!s.sys.por) = true →
    exec (.sbWrite addr data) s = .next (
      if s.sys.windowReady ∧ addr.toNat % 4 = 0 then
        let s := onSys (fun x => { x with discarded := decide (data.length % 4 ≠ 0), sbOut := none }) s
        windowWrites addr.toNat (wordsOf data) s
      else onSys (fun x => { x with discarded := true, sbOut := none }) s)) ∧
  -- SB_STATUS (R46)
  (∀ (s : State),
    (!s.sys.por) = true →
    exec (.sbStatus) s = .next (
      onSys (fun x => { x with sbOut := some (b1 (word [(0, bitNat x.windowReady), (1, bitNat x.bootHold),
        (2, bitNat x.discarded)])) }) s)) ∧
  -- SB_UNKNOWN_COMMAND (R46)
  (∀ (cmd : Byte) (s : State),
    (!s.sys.por && decide (cmd ≠ 0x0B ∧ cmd ≠ 0x02 ∧ cmd ≠ 0x05)) = true →
    exec (.sbUnknownCommand cmd) s = .next (onSys (fun x => { x with sbOut := none }) s)) ∧
  -- WINDOW_WRITE (R40)
  (∀ (addr w : Word) (s : State),
    (!s.sys.por && s.sys.windowReady) = true →
    exec (.windowWrite addr w) s = .next (windowWrite addr.toNat w s)) ∧
  -- EVENT_STICKY_CLEAR (R654)
  (∀ (k : Nat) (w : Word) (s : State),
    (!s.sys.por && s.sys.windowReady && decide (k < 20)) = true →
    exec (.eventStickyClear k w) s = .next (stickyClear k w s)) ∧
  -- CTRL_READ (R445)
  (∀ (rq : CtrlReq) (s : State),
    ctrlArrives rq s = true →
    exec (.ctrlRead rq) s = .next (
      let s := lkStat rq.group 6 1 s
      ctrlAnswer rq (ctrlHead rq 0 ++ (if ctrlResult rq = 0 then windowReads s rq.addr rq.count else [])) s)) ∧
  -- CTRL_WRITE (R445)
  (∀ (rq : CtrlReq) (s : State),
    ctrlArrives rq s = true →
    exec (.ctrlWrite rq) s = .next (
      let s := lkStat rq.group 6 1 s
      if ctrlResult rq = 0 then
        if rq.data.length < rq.count then raise 417 [] s
        else ctrlAnswer rq (ctrlHead rq 1) (windowWrites rq.addr (rq.data.take rq.count) s)
      else ctrlAnswer rq (ctrlHead rq 1) s))

/-- System calls, unknown calls and the ends of jobs run as their rules say: where a command is due, its own effect, whole,
is the next state. The rule of each command stands above its clause. -/
def Obligations.SystemCallsRun : Prop :=
  -- UNKNOWN_CALL (R52)
  (∀ (mb : Fin 8) (s : State),
    let code := reqCode (mbAt s mb)
    (!knownCall mb code && callReady mb code (fun _ => true) s) = true →
    exec (.unknownCall mb) s = .next (    settle mb (checkCall mb code epdBhPri 0 (fun _ => refuse stBadCall) s))) ∧
  -- JOB_COMPLETE (R55)
  (∀ (job : Nat) (out : JobOutcome) (s : State),
    ∀ j,
    openJob s job = some j →
    j.state = 1 →
    exec (.jobComplete job out) s = .next (finishJob j out s)) ∧
  (∀ (job : Nat) (out : JobOutcome) (s : State),
    openJob s job = none →
    job = 0 →
    exec (.jobComplete job out) s = .next (discoverEnds 0 out s)) ∧
  -- JOB_DEFERRED_START (R526)
  (∀ (job : Nat) (s : State),
    ∀ j,
    openJob s job = some j →
    (decide (j.state = 0) && lowCodes.contains j.code && decide (0 ≤ tickAfter s.pw.evalTick j.start) && !lowDeferred s && awake s) = true →
    exec (.jobDeferredStart job) s = .next (beginJob j s)) ∧
  -- SYS_NOP (R60)
  (∀ (mb : Fin 8) (p : List Byte) (s : State), Asked mb 0x0100 epdBhPri 0 p s →
    exec (.sysNop mb) s = .next (settle mb (ok s))) ∧
  -- SYS_IDENT (R60)
  (∀ (mb : Fin 8) (p : List Byte) (s : State), Asked mb 0x0101 epdBhPri 0 p s →
    exec (.sysIdent mb) s = .next (
      settle mb (
        okBytes ((List.range 9).flatMap (fun k => b4 (identityWord s (4 * k))) ++ b8 s.sys.buildId.toNat
          ++ b2 (chipOf s s.sys.bootCs).clock) s))) ∧
  -- SYS_RESET_WARM (R700)
  (∀ (mb : Fin 8) (p : List Byte) (s : State), Asked mb 0x0102 epdBh 2 p s →
    p8 p 0 = 0 ∧ p8 p 1 = 0 →
    exec (.sysResetWarm mb) s = .next (warmReset (respond mb stOk [] s))) ∧
  -- SYS_RESET_COX (R64)
  (∀ (mb : Fin 8) (p : List Byte) (s : State), Asked mb 0x0102 epdBh 2 p s →
    p8 p 0 = 1 ∧ p8 p 1 ≤ 1 →
    let h := Half.ofCode (p8 p 1)
    mayRestart s h = true →
    exec (.sysResetCox mb) s = .next (
      let t := respond mb stOk [] s
      restartCox h (if lead t = h then moveLead h.other t else t))) ∧
  -- SYS_RESET_BOTH (R64)
  (∀ (mb : Fin 8) (p : List Byte) (s : State), Asked mb 0x0102 epdBh 2 p s →
    p8 p 0 = 2 ∧ p8 p 1 = 0 →
    exec (.sysResetBoth mb) s = .next (
      let t := respond mb stOk [] s
      if t.sys.bootHold then warmReset t
        else forAll ([Half.s, Half.b].filter (fun h => decide ((viewAt t h).state ≠ 3))) restartCox t)) ∧
  -- SYS_LEAD_SET (R60)
  (∀ (mb : Fin 8) (p : List Byte) (s : State), Asked mb 0x0103 epd 1 p s →
    p8 p 0 ≤ 1 →
    let h := Half.ofCode (p8 p 0)
    alive s h = true →
    exec (.sysLeadSet mb) s = .next (settle mb (okBytes (b1 (lead s).code) (moveLead h s)))) ∧
  -- SYS_BOOT_REPORT (R701)
  (∀ (mb : Fin 8) (p : List Byte) (s : State), Asked mb 0x0104 epdBh 1 p s →
    exec (.sysBootReport mb) s = .next (
      let rs := (s.sys.report.drop (p8 p 0)).take 8
      settle mb (okBytes (b1 rs.length ++ b1 s.sys.report.length ++ [0, 0] ++ rs.flatMap bootRecBytes) s))) ∧
  -- SYS_FLASH_INFO (R702)
  (∀ (mb : Fin 8) (p : List Byte) (s : State), Asked mb 0x0105 epdBh 1 p s →
    p8 p 0 ≤ 1 →
    flashOk s = true →
    wasNegotiated s (p8 p 0) →
    exec (.sysFlashInfo mb) s = .next (settle mb (okBytes (flashInfo (chipOf s (p8 p 0))) s))) ∧
  (∀ (mb : Fin 8) (p : List Byte) (s : State), Asked mb 0x0105 epdBh 1 p s →
    p8 p 0 ≤ 1 →
    flashOk s = true →
    ¬ (wasNegotiated s (p8 p 0)) →
    exec (.sysFlashInfo mb) s = .next (settle mb (.later s))) ∧
  -- SYS_SETTING_READ (R60)
  (∀ (mb : Fin 8) (p : List Byte) (s : State), Asked mb 0x0106 epd 4 p s →
    ∀ v,
    tagValue s (p16 p 0) = some v →
    exec (.sysSettingRead mb) s = .next (settle mb (okBytes (b2 v.length ++ (v.drop (p16 p 2)).take 224) s))) ∧
  -- SYS_SETTINGS_SAVE (R79)
  (∀ (mb : Fin 8) (p : List Byte) (s : State), Asked mb 0x0107 epd 0 p s →
    (flashOk s && s.sys.imageOk) = true →
    s.sys.jobs.length < 8 →
    exec (.sysSettingsSave mb) s = .next (settle mb (okBytes (b2 s.sys.nextJob) ((fun _ => touchInactive) s.sys.nextJob (addJob 0x0107 [] 1 0 s).2)))) ∧
  -- SYS_IMAGE_COMMIT (R62)
  (∀ (mb : Fin 8) (p : List Byte) (s : State), Asked mb 0x0108 epdBh 1 p s →
    p8 p 0 ≤ 1 →
    flashOk s = true →
    exec (.sysImageCommit mb) s = .next (
      let a := commitOn (p8 p 0) 0 s
      let b := commitOn (p8 p 0) 1 a.2
      settle mb (okBytes [a.1, b.1] b.2))) ∧
  -- SYS_JOB_STATUS (R699)
  (∀ (mb : Fin 8) (p : List Byte) (s : State), Asked mb 0x0109 epdBhPri 2 p s →
    ∀ j,
    jobEntry s (p16 p 0) = some j →
    exec (.sysJobStatus mb) s = .next (
      let d := drawNat s
      let percent := if j.state = 0 then 0 else if j.state = 2 then 100 else d.1 % 101
      settle mb (okBytes (b1 j.state ++ b1 percent ++ b1 j.status ++ b1 j.reason) (if j.state = 0 ∨ j.state = 2 then s else d.2)))) ∧
  -- SYS_IMAGE_BEGIN (R60)
  (∀ (mb : Fin 8) (p : List Byte) (s : State), Asked mb 0x010A epdBh 1 p s →
    p8 p 0 ≤ 1 →
    flashOk s = true →
    s.sys.jobs.length < 8 →
    exec (.sysImageBegin mb) s = .next (settle mb (okBytes (b2 s.sys.nextJob) ((fun _ s => touchInactive (onSys (fun x => { x with imageOpen := false }) s)) s.sys.nextJob (addJob 0x010A (p.take 1) 1 0 s).2)))) ∧
  -- SYS_IMAGE_DATA (R61)
  (∀ (mb : Fin 8) (p : List Byte) (s : State), Asked mb 0x010B epdBh 8 p s →
    let n := p16 p 4
    let d := bytesAt p 8 n
    1 ≤ n ∧ n ≤ 224 ∧ 8 + n ≤ p.length ∧ p32 p 0 + n ≤ 0x7F0000 →
    (flashOk s && s.sys.imageOpen) = true →
    exec (.sysImageData mb) s = .next (
      let at_ := slotBase (inactiveSlot s) + p32 p 0
      settle mb (ok (modChip 1 (chipWrite at_ d) (modChip 0 (chipWrite at_ d) (touchInactive s)))))) ∧
  -- SYS_IMAGE_VERIFY (R73)
  (∀ (mb : Fin 8) (p : List Byte) (s : State), Asked mb 0x010C epdBh 0 p s →
    flashOk s = true →
    s.sys.jobs.length < 8 →
    exec (.sysImageVerify mb) s = .next (settle mb (okBytes (b2 s.sys.nextJob) (addJob 0x010C [] 1 0 s).2))) ∧
  -- SYS_ROLLBACK_ADVANCE (R74)
  (∀ (mb : Fin 8) (p : List Byte) (s : State), Asked mb 0x010D epd 1 p s →
    (!inManufacture s) = true →
    s.sys.rbCount ≤ p8 p 0 ∧ p8 p 0 ≤ s.sys.image.rbVersion →
    exec (.sysRollbackAdvance mb) s = .next (settle mb (okBytes (b1 (p8 p 0)) (onSys (fun x => { x with rbCount := p8 p 0 }) s)))) ∧
  -- SYS_LIFECYCLE_ADVANCE (R89)
  (∀ (mb : Fin 8) (p : List Byte) (s : State), Asked mb 0x010E epdBh 5 p s →
    p32 p 1 = confirmWord s ∧ nextLc s.sys.lc.toNat = some (p8 p 0) →
    (decide (p8 p 0 ≠ 0b0011) || (tget none s.sys.keyHash 0).isSome || (tget none s.sys.keyHash 1).isSome) = true →
    exec (.sysLifecycleAdvance mb) s = .next (settle mb (okBytes (b1 (p8 p 0)) (onSys (fun x => { x with lc := BitVec.ofNat 4 (p8 p 0) }) s)))) ∧
  -- SYS_KEY_REVOKE (R63)
  (∀ (mb : Fin 8) (p : List Byte) (s : State), Asked mb 0x010F epd 5 p s →
    p8 p 0 ≤ 1 ∧ p32 p 1 = confirmWord s →
    p8 p 0 ≠ s.sys.image.keySlot →
    exec (.sysKeyRevoke mb) s = .next (
      let v := s.sys.keyRevoked ||| BitVec.ofNat 2 (2 ^ p8 p 0)
      settle mb (okBytes (b1 v.toNat) (onSys (fun x => { x with keyRevoked := v }) s))))

/-- The supply sequence and the steps of the boot run as their rules say: where a command is due, its own effect, whole, is
the next state. The rule of each command stands above its clause. -/
def Obligations.SupplyAndBootRun : Prop :=
  -- POR_ASSERT (R679)
  (∀ (s : State),
    exec (.porAssert) s = .next (porState s)) ∧
  -- POR_RELEASE (R80)
  (∀ (st : StrapLevels) (s : State),
    s.sys.por = true →
    exec (.porRelease st) s = .next (
      let s := onSys (fun x => { x with
        por := false, bootStep := 1, bootSel := st.bootSel, tileId := st.tileId, bootStart := s.up
        testMode := st.testEn && honoursTest s }) s
      let s := onSf (fun x => { x with porAt := s.up }) s
      let s := modView .b (fun v => { v with gnt := st.gntB }) (modView .s (fun v => { v with gnt := st.gntS }) s)
      enable 1 (onSeq (fun x => { x with waiting := true }) (onRed (fun r => { r with ext := st.gntS && st.gntB }) s)))) ∧
  -- PWR_GOOD_RISE (R675)
  (∀ (s : State),
    (!s.sys.por && !s.seq.good && decide (s.seq.en ≠ 0)) = true →
    exec (.pwrGoodRise) s = .next (
      let s := onSeq (fun x => { x with good := true }) s
      if !s.seq.waiting then s
      else if s.seq.en = 0xF then onSeq (fun x => { x with waiting := false, up := true }) s
      else enable (nextEnable s.seq.en) s)) ∧
  -- SEQ_ENABLE_TIMEOUT (R676)
  (∀ (s : State),
    (!s.sys.por && s.seq.waiting) = true →
    exec (.seqEnableTimeout) s = .next (
      let s := reachUp (s.seq.at_ + us 1500) s
      let n := lastEnable s.seq.en
      raise 24 (b1 n) (onSeq (fun x => { x with en := 0, waiting := false, retry := true, at_ := s.up }) s))) ∧
  -- SEQ_RETRY_TIMER (R676)
  (∀ (s : State),
    s.seq.retry = true →
    exec (.seqRetryTimer) s = .next (    enable 1 (onSeq (fun x => { x with waiting := true, retry := false }) (reachUp (s.seq.at_ + ms 1000) s)))) ∧
  -- PWR_GOOD_FALL (R677)
  (∀ (ns : Nat) (pmic : Option (List Byte)) (s : State),
    (goodExpected s && decide (10000 ≤ ns)) = true →
    exec (.pwrGoodFall ns pmic) s = .next (
      let s := goodLost pmic s
      if s.sys.power = .hold then goodLostInHold s
      else if s.sys.noCox then onSeq (fun x => { x with en := 1, up := false }) s
      else if s.sys.bootHold then s
      else railsLost s)) ∧
  -- PWR_GOOD_RETRY_TIMER (R677)
  (∀ (s : State),
    s.seq.lost = true →
    exec (.pwrGoodRetryTimer) s = .next (
      let s := reachUp (s.seq.at_ + ms 10) s
      onSeq (fun x => { x with en := 3, waiting := true, lost := false, good := false, at_ := s.up }) s)) ∧
  -- RST_N_PULSE (R686)
  (∀ (ns : Nat) (s : State),
    (!s.sys.por && !s.sys.testMode && decide (3 ≤ s.sys.bootStep ∧ 100 ≤ ns)) = true →
    exec (.rstNPulse ns) s = .next (
      if 1000 ≤ ns then pinReset s
      else
        let (b, s) := drawBool s
        if b then pinReset s else s)) ∧
  -- PD0_RUNNING (R80)
  (∀ (s : State),
    (!s.sys.por && !s.sys.testMode && decide (s.sys.bootStep = 1)) = true →
    exec (.pd0Running) s = .next (onSys (fun x => { x with bootStep := 2, windowReady := true, bootResult := 1 }) s)) ∧
  -- COX_BOOT_ROM_START (R80)
  (∀ (s : State),
    (booting s && s.sf.started && decide (s.sys.bootStep = 3)) = true →
    exec (.coxBootRomStart) s = .next (    onSys (fun x => { x with bootStep := 4, step4At := s.up, lead := bootLead s, romReady := ⟨false, false⟩, firmware := ⟨false, false⟩, halfOk := ⟨false, false⟩ }) s)) ∧
  -- COX_ROM_READY (R85)
  (∀ (h : Half) (s : State),
    (decide ((viewAt s h).state ≠ 3) && (returning s h || (booting s && decide (4 ≤ s.sys.bootStep)))
      && !twoGet s.sys.firmware h) = true →
    exec (.coxRomReady h) s = .next (
      let s := onSys (fun x => { x with romReady := twoPut x.romReady h true, halfOk := twoPut x.halfOk h true }) s
      if returning s h then s
      else if s.sys.imageOk then startFirmware h s
      else if lead s = h then leadReady s
      else s)) ∧
  -- BOOT_ROM_READY_TIMEOUT (R85)
  (∀ (s : State),
    (booting s && decide (4 ≤ s.sys.bootStep)) = true →
    exec (.bootRomReadyTimeout) s = .next (
      let s := reachUp (s.sys.step4At + ms 50) s
      if !(twoGet s.sys.romReady .s) && !(twoGet s.sys.romReady .b) then stopBoot s else forAll (romLate s) romFails s)) ∧
  -- FLASH_NEGOTIATION (R87)
  (∀ (cs : Fin 2) (probe : FlashProbe) (s : State),
    (!wasNegotiated s cs && ((seeking s && decide (csTurn s = some cs.val)) || (serving s && flashOk s))) = true →
    exec (.flashNegotiation cs probe) s = .next (    if seeking s then bootNegotiate cs probe s else answerFlashInfo cs (negotiate cs probe s))) ∧
  -- BOOT_IMAGE_CHECK (R73)
  (∀ (cs slot : Fin 2) (readOk : Bool) (s : State),
    (seeking s && decide (csTurn s = some cs.val ∧ slotTurn s cs = some slot.val) && wasNegotiated s cs) = true →
    exec (.bootImageCheck cs slot readOk) s = .next (tryImage cs slot readOk s)) ∧
  -- SETTINGS_APPLY (R76)
  (∀ (s : State),
    (booting s && s.sys.imageOk && !s.sys.settingsDone && twoGet s.sys.firmware (lead s)) = true →
    exec (.settingsApply) s = .next (
      let s := configure (applySettings s)
      leadSetting (onSys (fun x => { x with settingsDone := true, bootStep := 8 }) s))) ∧
  -- MEM_TRAINING_DONE (R349)
  (∀ (okMask : BitVec 16) (s : State),
    (booting s && s.sys.settingsDone && !s.sys.memTrained) = true →
    exec (.memTrainingDone okMask) s = .next (
      let s := onBb (fun x => { x with selfRefresh := false }) (trained okMask s)
      let s := if s.sys.warmBoot then forAll (List.range 16) discardQueue s else s
      lossEvalAll (onSys (fun x => { x with memTrained := true }) (updateQueues s)))) ∧
  -- TIME_CORE_START (R80)
  (∀ (s : State),
    (booting s && s.sys.settingsDone && decide (s.sys.bootStep = 8) && !s.sys.jobs.any (fun j => decide (j.code = 0x0206))) = true →
    exec (.timeCoreStart) s = .next (
      let s := freqRefresh (startMonitors (onTc (fun x => { x with strobe := true }) s))
      lkPowerUp (onSys (fun x => { x with bootStep := 10, linkWaitAt := s.up }) s))) ∧
  -- BOOT_LINK_WAIT_EXPIRY (R80)
  (∀ (s : State),
    (booting s && decide (s.sys.bootStep = 10)) = true →
    exec (.bootLinkWaitExpiry) s = .next (    onSys (fun x => { x with linkWaitOver := true }) (reachUp (s.sys.linkWaitAt + ms (cfg16 s 0x0102 0)) s))) ∧
  -- BOOT_ENTER_EASY (R80)
  (∀ (s : State),
    (booting s && decide (s.sys.bootStep = 10) && s.sys.memTrained && (s.sys.linkWaitOver || lanesUp s)) = true →
    exec (.bootEnterEasy) s = .next (
      let s := pwAccount s
      let s := onSys (fun x => { x with bootStep := 11, power := .easy, bootResult := if x.settingsBad then 0x20 else 0 }) s
      startEasy (raise 0 [] s))) ∧
  -- COX_RESTART_TIMEOUT (R64)
  (∀ (h : Half) (s : State),
    twoGet s.sys.restarting h = true →
    exec (.coxRestartTimeout h) s = .next (failHalf h (reachUp (twoGet s.sys.restartAt h + ms 50) s))) ∧
  -- COX_MEM_SCRUB (R39)
  (∀ (h : Half) (corrected uncorrectable : Bool) (s : State),
    (twoGet s.sys.firmware h || twoGet s.sys.romReady h) = true →
    exec (.coxMemScrub h corrected uncorrectable) s = .next (
      let s := if corrected then raiseBy h 18 [] s else s
      if uncorrectable then
        declareFailed h (restartCox h (raiseBy h 19 [] s))
      else s)) ∧
  -- COX_FIRMWARE_RELOADED (R64)
  (∀ (h : Half) (s : State),
    returning s h = true →
    exec (.coxFirmwareReloaded h) s = .next (
      let s := onSys (fun x => { x with
        firmware := twoPut x.firmware h true, halfOk := twoPut x.halfOk h true, romReady := twoPut x.romReady h true
        restarting := twoPut x.restarting h false }) s
      if rejoining s h then
        modView h (fun v => { v with state := 2 }) (onRed (fun r => { r with rejoin := r.rejoin.map (fun j => { j with standby := true }) }) s)
      else s)) ∧
  -- WAKE_HALF_ANSWER_TIMEOUT (R650)
  (∀ (h : Half) (s : State),
    (!s.sys.por && twoGet s.sys.firmware h && (viewAt s h).answer.isNone && decide ((viewAt s h).state ≠ 3)
      && s.pw.wokeAt.isSome) = true →
    exec (.wakeHalfAnswerTimeout h) s = .next (failHalf h (reachUp (s.pw.wokeAt.getD 0 + ms 50) s))) ∧
  -- WAKE_PWR_GOOD_TIMEOUT (R678)
  (∀ (pmic : Option (List Byte)) (s : State),
    (decide ((s.pw.change.map (·.phase)) = some 3) && !s.seq.good) = true →
    exec (.wakePwrGoodTimeout pmic) s = .next (
      let s := reachUp (((s.pw.change.map (·.began)).getD 0) + ms 2) s
      goodLostInHold (goodLost pmic s)))

/-- Safety partition events and calls run as their rules say: where a command is due, its own effect, whole, is the next
state. The rule of each command stands above its clause. -/
def Obligations.SafetyPartitionRuns : Prop :=
  -- SF_ROM_START (R602)
  (∀ (romOk : Bool) (seals : BitVec 12) (s : State),
    (!s.sys.por && !s.sys.testMode && s.sys.windowReady && !s.sf.started) = true →
    exec (.sfRomStart romOk seals) s = .next (
      let s := reachUp (s.sf.porAt + ms 5) s
      let s := bootClaims (onSys (fun x => { x with bootStep := max 3 x.bootStep }) s)
      let s := onSf (fun x => { x with started := true }) s
      if !romOk then lockout 4 s
      else
        let s := onSf (fun x => { x with sealRaw := seals, sealsRead := true, sealAt := s.up }) s
        if sealsValid seals then s else lockout 1 s)) ∧
  -- SF_SELF_TEST_DONE (R602)
  (∀ (tests : List SwitchTest) (s : State),
    (s.sf.started && s.sf.sealsRead && decide (s.sf.part = 0)) = true →
    exec (.sfSelfTestDone tests) s = .next (
      let s := onSf (fun x => { x with part := 1, hv := 0, shutter := if sealOf s 2 then 2 else 0, resetHv := true, resetSh := true }) s
      forAll ((List.range 2).filter (selfTestFails tests)) (fun n s => outputFault n 579 s) s)) ∧
  -- SF_LOGIC_CYCLE (R600)
  (∀ (disagree : List (Fin 3)) (s : State),
    s.sf.started = true →
    exec (.sfLogicCycle disagree) s = .next (
      let s := reachUp (s.sf.cycleAt + ms 1) s
      let s := onSf (fun x => { x with cycleAt := s.up }) s
      let n := disagree.eraseDups.length
      let s := if 2 ≤ n then lockout 3 s else if n = 1 then raise 583 [] (sfStat 8 s) else s
      let s := copyMirror (sfEval s)
      when (decide (s.sf.part ≠ 0) && (s.sf.owe || decide (s.sf.sent ≠ some (sfStateWord s, sfCausesWord s)))) sendStatus s)) ∧
  -- ILK_CHANNEL_CHANGE (R608)
  (∀ (n : Fin 4) (chB : Bool) (samples : List Nat) (s : State),
    let closed := !(if chB then (ilkAt s n).b else (ilkAt s n).a)
    (s.sf.started && decide (samples.length = 3) && samples.all (fun v => readsClosed chB v == closed)) = true →
    exec (.ilkChannelChange n chB samples) s = .next (sfEval (ilkChange n chB closed s))) ∧
  -- ILK_DISCREPANCY_TIMEOUT (R609)
  (∀ (n : Fin 4) (s : State),
    (ilkAt s n).running = true →
    exec (.ilkDiscrepancyTimeout n) s = .next (
      let (k, s) := drawNat s
      sfEval (latchDisc n (reachUp ((ilkAt s n).runAt + discTime s - ms 2 + k % (ms 4 + 1)) s)))) ∧
  -- SEAL_REREAD (R606)
  (∀ (seals : BitVec 12) (s : State),
    (s.sf.started && s.sf.sealsRead && decide (s.sf.part ≠ 2)) = true →
    exec (.sealReread seals) s = .next (
      let s := reachUp (s.sf.sealAt + ms 100) s
      let s := onSf (fun x => { x with sealAt := s.up }) s
      if seals = s.sf.sealRaw ∧ sealsValid seals = true then s else lockout 2 s)) ∧
  -- SO_READBACK (R612)
  (∀ (rb : List SoReadback) (s : State),
    (s.sf.started && decide (s.sf.part ≠ 0)) = true →
    exec (.soReadback rb) s = .next (
      let s := reachUp (s.sf.readAt + ms 1) s
      forAll rb readback (onSf (fun x => { x with readAt := s.up }) s))) ∧
  -- SO_DARK_TEST (R613)
  (∀ (n : Fin 2) (r : DarkReadings) (s : State),
    (decide (s.sf.part = 1) && bit s.sf.soCmd.toNat n) = true →
    exec (.soDarkTest n r) s = .next (
      let s := advance (us 500) (reachDark n s)
      let m := BitVec.ofNat 2 (2 ^ n.val)
      let passed := darkPasses r
      let s := onSf (fun x => { x with
        darkAt := tput none n.val (some (s.up, now s, passed)) x.darkAt
        dark := x.dark.map (fun d =>
          if bit d.2.1.toNat n then (d.1, d.2.1 &&& ~~~ m, d.2.2.set n.val (if passed then 0 else 1)) else d) }) s
      settleDark (if passed then sfStat 6 s else outputFault n 580 s))) ∧
  -- SF_COMMAND_RX (R625)
  (∀ (payload : List Byte) (s : State),
    (s.sf.started && decide (s.sf.part ≠ 0) && (List.range 4).any (fun g => (groupAt s g).running)) = true →
    exec (.sfCommandRx payload) s = .next (
      let s := if s.sf.conn ∧ s.sf.cmdAt + ms (s.sf.watchdog + 1) < s.up then connLost s else s
      if !commandOk payload s then raise 586 [] (sfStat 4 s)
      else
        let was := s.sf.conn
        let s := onSf (fun x => { x with
          conn := true, permit := bit (u32At payload 16) 0, expiry := false, watchdog := u16At payload 12, cmdAt := s.up,
          lastSeq := some (u16At payload 2), echo := u16At payload 2 }) (sfStat 3 s)
        let s := raiseIf (!was) 584 [] s
        let s := sfEval s
        let s := if bit (u32At payload 16) 1 then (sfReset s).2 else s
        sendStatus s)) ∧
  -- SF_CONN_EXPIRY (R625)
  (∀ (s : State),
    s.sf.conn = true →
    exec (.sfConnExpiry) s = .next (
      let (k, s) := drawNat s
      connLost (reachUp (s.sf.cmdAt + ms (s.sf.watchdog - 1) + k % (ms 2 + 1)) s))) ∧
  -- SF_HVMON_POLL (R620)
  (∀ (s : State),
    (sealOf s 4 && decide (s.sf.part = 1 ∧ s.sf.hv = 2) && s.sc.on && decide (s.sc.safeQ < 2)) = true →
    exec (.sfHvmonPoll) s = .next (
      let s := onSf (fun x => { x with pollAt := max s.up (x.pollAt + ms 10) }) (reachUp (s.sf.pollAt + ms 10) s)
      onSc (fun x => { x with safeQ := x.safeQ + 1 }) s)) ∧
  -- SF_STATUS (R631)
  (∀ (mb : Fin 8) (p : List Byte) (s : State), Asked mb 0x0E00 epdPri 0 p s →
    exec (.sfStatus mb) s = .next (settle mb (okBytes (s.sf.mirror.flatMap b4) s))) ∧
  -- SF_HV_REQUEST (R618)
  (∀ (mb : Fin 8) (p : List Byte) (s : State), Asked mb 0x0E01 epdPri 1 p s →
    p8 p 0 ≤ 1 →
    exec (.sfHvRequest mb) s = .next (
      let s := sfEval (onSf (fun x => { x with hvReq := decide (p8 p 0 = 1) }) s)
      settle mb (okBytes (b1 s.sf.hv) s))) ∧
  -- SF_RESET (R618)
  (∀ (mb : Fin 8) (p : List Byte) (s : State), Asked mb 0x0E02 epdPri 0 p s →
    let r := sfReset s
    r.1 →
    exec (.sfReset mb) s = .next (settle mb (okBytes (b1 r.2.sf.hv ++ b1 r.2.sf.shutter) r.2))) ∧
  (∀ (mb : Fin 8) (p : List Byte) (s : State), Asked mb 0x0E02 epdPri 0 p s →
    let r := sfReset s
    ¬ (r.1) →
    exec (.sfReset mb) s = .next (settle mb (sfDenied r.2))) ∧
  -- SF_SHUTTER_REQUEST (R617)
  (∀ (mb : Fin 8) (p : List Byte) (s : State), Asked mb 0x0E03 epdPri 1 p s →
    p8 p 0 ≤ 1 →
    exec (.sfShutterRequest mb) s = .next (
      let s := sfEval (onSf (fun x => { x with hostClose := decide (p8 p 0 = 1) }) s)
      settle mb (okBytes (b1 s.sf.shutter) s))) ∧
  -- SF_DARK_TEST (R613)
  (∀ (mb : Fin 8) (p : List Byte) (s : State), Asked mb 0x0E04 epd 0 p s →
    s.sf.soCmd = 0 →
    exec (.sfDarkTest mb) s = .next (settle mb (okBytes [2, 2] s))) ∧
  (∀ (mb : Fin 8) (p : List Byte) (s : State), Asked mb 0x0E04 epd 0 p s →
    ¬ (s.sf.soCmd = 0) →
    exec (.sfDarkTest mb) s = .next (settle mb (.later (onSf (fun x => { x with dark := some (mb.val, x.soCmd, [2, 2]) }) s)))) ∧
  -- SF_TRIP_LOG (R631)
  (∀ (mb : Fin 8) (p : List Byte) (s : State), Asked mb 0x0E05 epd 1 p s →
    p8 p 0 ≤ 15 →
    exec (.sfTripLog mb) s = .next (
      settle mb (
        okBytes (match s.sf.trips[p8 p 0]? with
          | some t => tripBytes t
          | none => List.replicate 16 0) s))) ∧
  -- SF_STATS (R632)
  (∀ (mb : Fin 8) (p : List Byte) (s : State), Asked mb 0x0E06 epd 1 p s →
    exec (.sfStats mb) s = .next (
      let bs := statBytes 9 s.sf.stats s.sf.statSat ++ b2 (darkMinutes s 0) ++ b2 (darkMinutes s 1)
      settle mb (okBytes bs (when (decide (p8 p 0 = 1)) (onSf (fun x => { x with stats := [], statSat := 0 })) s))))

/-- Pixel front-end events run as their rules say: where a command is due, its own effect, whole, is the next state. The
rule of each command stands above its clause. -/
def Obligations.FrontEndEventsRun : Prop :=
  -- DISCRIMINATOR_RISE (R151)
  (∀ (pix ps per : Nat) (s : State),
    (pixelLive s pix && s.tc.strobe && (pulseAt s pix).isNone) = true →
    exec (.discriminatorRise pix ps per) s = .next (
      let s := atPs ps s
      if blockMode s (pixBlock pix) = 2 then countRise pix (ps % 25000) per s else eventRise pix (ps % 25000) per s)) ∧
  -- RING_COUNT_SATURATED (R154)
  (∀ (pix : Nat) (s : State),
    ∀ p,
    pulseAt s pix = some p →
    (decide (p.timing ≠ .untimed) && p.seen.isNone && decide (stampDiff s.tc.now p.stop ≤ 0 ∨ !p.sent)) = true →
    exec (.ringCountSaturated pix) s = .next (
      let k := pixBlock pix
      let s := reachHalf p (2 * p.ps + 16383 * p.per / 8192) s
      let s := modBlock k (fun x => { x with port := withoutFrame pix p x.port }) s
      let s := setPulse pix (some { p with sent := true }) (noteDiscard k 6 (localTick s k p.stop) s)
      let s := onFe (fun x => { x with ring := tput none (pixSp pix) none x.ring }) s
      raise 132 [] (tmStat k 5 s))) ∧
  -- RANGE_SWITCH (R103)
  (∀ (pix ps : Nat) (s : State),
    ∀ p,
    pulseAt s pix = some p →
    (p.high && !p.switched && !p.sent && bit (blockAt s (pixBlock pix)).conf.mode.toNat 5) = true →
    exec (.rangeSwitch pix ps) s = .next (
      let s := atPs ps s
      setPulse pix (some (switchPulse s p ps)) s)) ∧
  -- RANGE_BLANK_END (R104)
  (∀ (pix : Nat) (s : State),
    ∀ p,
    pulseAt s pix = some p →
    p.blank = true →
    exec (.rangeBlankEnd pix) s = .next (setPulse pix (some { p with blank := false }) (reachHalf p p.blankEnd s))) ∧
  -- DISCRIMINATOR_FALL (R201)
  (∀ (pix ps : Nat) (s : State),
    ∀ p,
    pulseAt s pix = some p →
    p.high = true →
    exec (.discriminatorFall pix ps) s = .next (
      let s := atPs ps s
      let h := halfPs s p ps
      let ambig := p.switched && decide (h < p.blankEnd)
      let nb := (p.hand.map (·.1)).getD (bridgeN p h)
      let s := if p.sent then s else deliverPulse pix p ambig h nb s
      let s := if longHigh s p then markStuck pix s else s
      let s := modBlock (pixBlock pix) (fun x => { x with lastEdge := s.tc.now }) s
      endBridge pix (setPulse pix (some { p with
        high := false, blank := false, sent := true, fell := some (ps % 25000, s.tc.now) }) s))) ∧
  -- TOT_SATURATED (R201)
  (∀ (pix : Nat) (s : State),
    ∀ p,
    pulseAt s pix = some p →
    ∀ h,
    totFull p = some h →
    (p.high && !p.sent && decide (h ≤ p.gatedAt.getD h)) = true →
    exec (.totSaturated pix) s = .next (
      let s := reachHalf p h s
      let f := frameOf s (pixBlock pix) pix p false 0xFFF ((p.hand.map (·.1)).getD 0)
      setPulse pix (some { p with sent := true }) (pushHit (pixBlock pix) f s))) ∧
  -- PIXEL_DEAD_TIME_END (R142)
  (∀ (pix : Nat) (s : State),
    ∀ p,
    pulseAt s pix = some p →
    (!p.high) = true →
    exec (.pixelDeadTimeEnd pix) s = .next (
      let s := match p.fell with
        | some (ps, t) => reachTick (t + BitVec.ofNat 64 ((ps + 50000) / 25000)) s
        | none => s
      setPulse pix none s)) ∧
  -- BLOCK_CLOCK_READY (R159)
  (∀ (block : Nat) (s : State),
    ∀ t ps,
    (blockAt s block).clockReq = some (t, ps) →
    (decide (blockMode s block ≠ 0) && decide (25000 * (stampDiff s.tc.now t + 1) ≤ 200000 + ps)) = true →
    exec (.blockClockReady block) s = .next (
      let s := advance 1 s
      let pix := (s.fe.pulse.filter (fun e => decide (pixBlock e.1 = block))).map (·.1)
      let s := onFe (fun x => { x with pulse := x.pulse.map (handOff s block) }) s
      let s := forAll pix endBridge s
      modBlock block (fun x => { x with clock := true, clockReq := none }) s)) ∧
  -- BLOCK_CLOCK_IDLE_GATE (R158)
  (∀ (block : Nat) (s : State),
    ((blockAt s block).clock && !clockAlways s block) = true →
    exec (.blockClockIdleGate block) s = .next (
      let s := reachTick ((blockAt s block).lastEdge + 256) s
      modBlock block (fun x => { x with clock := false }) (onFe (fun x => { x with pulse := x.pulse.map (gatePulse s block) }) s))) ∧
  -- BRIDGE_SATURATED (R162)
  (∀ (pix : Nat) (s : State),
    ∀ p,
    pulseAt s pix = some p →
    (p.high && !p.sent && p.bridged && p.hand.isNone && decide (p.timing = .ring)) = true →
    exec (.bridgeSaturated pix) s = .next (
      let s := reachHalf p (2 * p.ps + 131071 * p.per / 8192 + 1) s
      let f := frameOf s (pixBlock pix) pix p false 0 131071
      let s := setPulse pix (some { p with sent := true }) (pushHit (pixBlock pix) f s)
      raise 133 (b1 (pixBlock pix)) (endBridge pix s))) ∧
  -- PORT_RECORD_AGE_OUT (R153)
  (∀ (block : Nat) (s : State),
    ∀ h rest,
    popHit (blockAt s block).port = some (h, rest) →
    awake s = true →
    exec (.portRecordAgeOut block) s = .next (
      let s := reachTick (h.entered + 32769) s
      noteDiscard block 4 h.tickLo (modBlock block (fun x => { x with port := rest }) s))) ∧
  -- PORT_LOSS_SEND (R204)
  (∀ (block cause : Nat) (s : State),
    ∀ n a b,
    tget none (blockAt s block).discards cause = some (n, a, b) →
    (decide (portHits (blockAt s block) < 512) && [3, 4, 6].contains cause && !(blockAt s block).held) = true →
    exec (.portLossSend block cause) s = .next (
      modBlock block (fun x => { x with
        port := pushControl (.control 4 cause (min 0xFFFF n) a b) x.port
        discards := tput none cause (if n ≤ 0xFFFF then none else some (n - 0xFFFF, a, b)) x.discards }) s)) ∧
  -- WATERMARK_SEND (R203)
  (∀ (block : Nat) (s : State),
    let w := watermark s block
    let advanced := match (blockAt s block).lastMark with
      | none => true
      | some v => decide (0 < stampDiff w v)
    (awake s && decide (block < 256) && !unlimited s block && (advanced || decide (0 < portHits (blockAt s block)))) = true →
    exec (.watermarkSend block) s = .next (
      modBlock block (fun x => { x with
        port := pushControl (.control 1 0 (localTick s block w) 0 0) x.port, lastMark := some w, sinceMark := 0 }) s)) ∧
  -- FRAME_BOUNDARY (R125)
  (∀ (s : State),
    (awake s && s.tc.strobe && (List.range 256).all (fun k => (blockAt s k).readout.isNone)) = true →
    exec (.frameBoundary) s = .next (frameBoundary s)) ∧
  -- FRAME_UNIT_ASSEMBLE (R244)
  (∀ (block : Nat) (flips : List (Nat × BitVec 16)) (s : State),
    ∀ r,
    (blockAt s block).readout = some r →
    frameIsNext s block r = true →
    exec (.frameUnitAssemble block flips) s = .next (
      let s := modBlock block (fun x => { x with readout := none }) (reachTick (r.boundary + 656) s)
      if scanRuns s block 0x0206 then s
      else if r.bad then
        let (v, s) := drawNat s
        writeUnit block r (v % 4097) ((List.range 4096).map (fun i => v / 2 ^ (16 * i) % 65536)) true s
      else
        let (sat, crc, vals) := bankReceived flips r
        let poison := decide (bankCrc vals ≠ crc)
        writeUnit block r sat vals poison (raiseIf poison 201 [] s))) ∧
  -- FE_MODE_EFFECT (R121)
  (∀ (s : State),
    ∀ t,
    modeEffectTick s = some t →
    awake s = true →
    exec (.feModeEffect) s = .next (
      let s := reachTick t s
      let due := s.fe.pendingMode.filter (fun e => decide (e.2.2 = t))
      let s := onFe (fun x => { x with pendingMode := x.pendingMode.filter (fun e => decide (e.2.2 ≠ t)) }) s
      forAll due (fun e => modesEffect e.1 e.2.1 t) s)) ∧
  -- CRAB_WINDOW_END (R128)
  (∀ (s : State),
    awake s = true →
    exec (.crabWindowEnd) s = .next (crabWindow (reachUp (crabDue s) s))) ∧
  -- CRAB_RETEST (R130)
  (∀ (pix : Nat) (s : State),
    ∀ c,
    crabOf s pix = some c →
    (awake s && c.test.isNone) = true →
    exec (.crabRetest pix) s = .next (
      let s := reachUp (c.since + c.interval * ms 1000) s
      onFe (fun x => { x with crabs := x.crabs.map (fun c => if c.pix = pix then
        { c with test := some s.up, hits := 0, stuck := false } else c) }) s)) ∧
  -- LEAK_UPDATE (R110)
  (∀ (sat : List Nat) (s : State),
    awake s = true →
    exec (.leakUpdate sat) s = .next (leakBits sat (forAll (List.range 256) leakBlock s))) ∧
  -- FE_SCRUB (R136)
  (∀ (diffs : List FeDiff) (s : State),
    awake s = true →
    exec (.feScrub diffs) s = .next (forAll ((List.range 256).filter (rowPowered s)) (scrubBlock diffs) s)) ∧
  -- FE_TMR_VOTE (R134)
  (∀ (upset : List TmrUpset) (droop : List (Nat × Nat)) (s : State),
    (awake s && s.tc.strobe) = true →
    exec (.feTmrVote upset droop) s = .next (
      let s := advance 1 s
      let s := forAll (upset.filter (fun u => decide (u.block < 256) && rowPowered s u.block)) (fun u s =>
        forAll (List.range u.count) (fun _ => raise 65 []) (scrubAdd u.block 3 u.count s)) s
      droopSamples droop s)) ∧
  -- TP_STEP (R113)
  (∀ (s : State),
    ∀ j,
    s.fe.tp = some j →
    awake s = true →
    exec (.tpStep) s = .next (
      let s := reachTick j.next s
      onFe (fun x => { x with
        lastTp := some (j.first, j.stream, j.next, j.block)
        tp := if j.left ≤ 1 then none
          else some { j with left := j.left - 1, next := j.next + BitVec.ofNat 64 j.period } }) s))

/-- Pixel front-end calls run as their rules say: where a command is due, its own effect, whole, is the next state. The rule
of each command stands above its clause. -/
def Obligations.FrontEndCallsRun : Prop :=
  -- FE_MODE_SET (R121)
  (∀ (mb : Fin 8) (p : List Byte) (s : State), Asked mb 0x0200 epd 3 p s →
    let first := p8 p 0
    let n := p8 p 1
    let bytes := bytesAt p 2 n
    let old := bytes.zipIdx.map (fun e => (first + e.2, (blockAt s (first + e.2)).conf.mode.toNat, e.1.toNat))
    (decide (1 ≤ n ∧ n ≤ 224 ∧ first + n ≤ 256 ∧ bytes.length = n) && bytes.all modeByteOk) = true →
    ¬ (old.any (fun e => (blockAt s e.1).scan.isSome)) →
    ¬ (old.any (fun e => decide (bit e.2.1 2 ≠ bit e.2.2 2 ∧ e.2.1 % 4 ≠ 0 ∧ e.2.2 % 4 ≠ 0))) →
    exec (.feModeSet mb) s = .next (
      let t := modeTick s first bytes
      settle mb (
        okBytes (stampBytes t) (forAll (List.range 16) rowUpdate
          (onFe (fun x => { x with pendingMode := x.pendingMode ++ [(first, bytes, t)] }) s))))) ∧
  -- FE_MODE_GET (R144)
  (∀ (mb : Fin 8) (p : List Byte) (s : State), Asked mb 0x0201 epd 2 p s →
    1 ≤ p8 p 1 ∧ p8 p 1 ≤ 224 ∧ p8 p 0 + p8 p 1 ≤ 256 →
    exec (.feModeGet mb) s = .next (settle mb (okBytes ((List.range (p8 p 1)).map (fun i => (blockAt s (p8 p 0 + i)).conf.mode)) s))) ∧
  -- FE_DAC_SET (R144)
  (∀ (mb : Fin 8) (p : List Byte) (s : State), Asked mb 0x0202 epd 4 p s →
    let bs := blocksNamed (p8 p 0)
    let d := p8 p 1
    d ≤ 6 ∧ p16 p 2 < 2 ^ dacBits d →
    exec (.feDacSet mb) s = .next (
      let old := dacOf (blockAt s (bs.headD 0)).conf d
      settle mb (okBytes (b2 old) (forAll bs (fun k => writeConf k (setDac d (p16 p 2))) s)))) ∧
  -- FE_DAC_GET (R144)
  (∀ (mb : Fin 8) (p : List Byte) (s : State), Asked mb 0x0203 epd 1 p s →
    exec (.feDacGet mb) s = .next (settle mb (okBytes ((List.range 7).flatMap (fun d => b2 (dacOf (blockAt s (p8 p 0)).conf d))) s))) ∧
  -- FE_PIXEL_WRITE (R135)
  (∀ (mb : Fin 8) (p : List Byte) (s : State), Asked mb 0x0204 epd 8 p s →
    let n := p16 p 4
    1 ≤ n ∧ n ≤ 224 ∧ p32 p 0 + n ≤ 1048576 ∧ (bytesAt p 8 n).length = n →
    exec (.fePixelWrite mb) s = .next (settle mb (okBytes [] (writePixels (tfill 0x10 (p32 p 0) ((bytesAt p 8 n).map (fun v => v &&& 0x7F))) s)))) ∧
  -- FE_PIXEL_READ (R144)
  (∀ (mb : Fin 8) (p : List Byte) (s : State), Asked mb 0x0205 epd 6 p s →
    let n := p16 p 4
    1 ≤ n ∧ n ≤ 224 ∧ p32 p 0 + n ≤ 1048576 →
    exec (.fePixelRead mb) s = .next (
      settle mb (
        okBytes ((List.range n).map (fun i =>
          pixelConf s (p32 p 0 + i) ||| (if tget false s.fe.leakSat (p32 p 0 + i) then 0x80 else 0))) s))) ∧
  -- FE_TRIM_RUN (R109)
  (∀ (mb : Fin 8) (p : List Byte) (s : State), Asked mb 0x0206 pOrD 6 p s →
    0 < p8 p 1 ∧ p8 p 0 + p8 p 1 ≤ 256 →
    500 ≤ p16 p 2 ∧ p16 p 2 ≤ 6000 ∧ 10 ≤ p16 p 4 ∧ p16 p 4 ≤ 1000 →
    (∀ k ∈ scanBlocks (p8 p 0) (p8 p 1), blockMode s k ≠ 0 ∧ inBlockJob s k = false) →
    lowDeferred s = false →
    s.sys.jobs.length < 8 →
    exec (.feTrimRun mb) s = .next (settle mb (okBytes (b2 s.sys.nextJob) (scanBegin 0x0206 p s.sys.nextJob (addJob 0x0206 p 1 0 s).2)))) ∧
  -- FE_SCURVE (R115)
  (∀ (mb : Fin 8) (p : List Byte) (s : State), Asked mb 0x0207 pOrD 9 p s →
    0 < p8 p 1 ∧ p8 p 0 + p8 p 1 ≤ 256 →
    5 ≤ p8 p 6 ∧ p8 p 6 ≤ 64 ∧ p16 p 2 + (p8 p 6 - 1) * p16 p 4 < 4096 ∧ 1 ≤ p16 p 7 →
    (∀ k ∈ scanBlocks (p8 p 0) (p8 p 1), blockMode s k ≠ 0 ∧ inBlockJob s k = false) →
    lowDeferred s = false →
    s.sys.jobs.length < 8 →
    exec (.feScurve mb) s = .next (settle mb (okBytes (b2 s.sys.nextJob) (scanBegin 0x0207 p s.sys.nextJob (addJob 0x0207 p 1 0 s).2)))) ∧
  -- FE_SCAN_RESULT (R144)
  (∀ (mb : Fin 8) (p : List Byte) (s : State), Asked mb 0x0208 epd 8 p s →
    let n := p16 p 6
    1 ≤ n ∧ n ≤ 56 ∧ p32 p 2 + n ≤ 1048576 ∧ p16 p 0 ≠ 0 ∧ p16 p 0 = s.fe.scanJob →
    exec (.feScanResult mb) s = .next (settle mb (okBytes ((tslice (0, 0) s.fe.scanRes (p32 p 2) n).flatMap (fun v => b2 v.1 ++ b2 v.2)) s))) ∧
  -- FE_BUMP_TEST (R116)
  (∀ (mb : Fin 8) (p : List Byte) (s : State), Asked mb 0x0209 pOrD 2 p s →
    0 < p8 p 1 ∧ p8 p 0 + p8 p 1 ≤ 256 →
    (∀ k ∈ scanBlocks (p8 p 0) (p8 p 1), blockMode s k ≠ 0 ∧ inBlockJob s k = false) →
    lowDeferred s = false →
    s.sys.jobs.length < 8 →
    exec (.feBumpTest mb) s = .next (settle mb (okBytes (b2 s.sys.nextJob) (scanBegin 0x0209 p s.sys.nextJob (addJob 0x0209 p 1 0 s).2)))) ∧
  -- FE_BUMP_RESULT (R144)
  (∀ (mb : Fin 8) (p : List Byte) (s : State), Asked mb 0x020A epd 6 p s →
    let n := p16 p 4
    1 ≤ n ∧ n ≤ 224 ∧ p32 p 0 + n ≤ 1048576 →
    exec (.feBumpResult mb) s = .next (settle mb (okBytes ((tslice 3 s.fe.bump (p32 p 0) n).flatMap b1) s))) ∧
  -- FE_TP_INJECT (R113)
  (∀ (mb : Fin 8) (p : List Byte) (s : State), Asked mb 0x020B pOrD 9 p s →
    p16 p 1 < 4096 ∧ p8 p 3 ≤ 31 ∧ 1 ≤ p16 p 4 ∧ 40 ≤ p16 p 6 ∧ p8 p 8 ≤ 1 →
    ¬ (s.fe.tp.isSome) →
    exec (.feTpInject mb) s = .next (
      let t := s.tc.now + 400
      let s := forAll (blocksNamed (p8 p 0)) (fun k => writeConf k (setDac 6 (p16 p 1))) s
      let s := onHp (fun x => { x with tpFull := false }) s
      settle mb (
        okBytes (stampBytes t) (onFe (fun x => { x with tp := some {
          block := p8 p 0, amp := p16 p 1, phase := p8 p 3, left := p16 p 4, period := p16 p 6, stream := p8 p 8
          first := t, next := t } }) s)))) ∧
  -- FE_CRAB_CONFIG (R144)
  (∀ (mb : Fin 8) (p : List Byte) (s : State), Asked mb 0x020C epd 11 p s →
    crabConfOk p = true →
    exec (.feCrabConfig mb) s = .next (settle mb (ok (setCfg 0x0206 (bytesAt p 0 11) s)))) ∧
  -- FE_CRAB_LIST (R146)
  (∀ (mb : Fin 8) (p : List Byte) (s : State), Asked mb 0x020D epd 2 p s →
    exec (.feCrabList mb) s = .next (
      settle mb (
        okBytes (b2 s.fe.crabs.length ++ ((s.fe.crabs.drop (p16 p 0)).take 19).flatMap (fun c =>
          b4 c.pix ++ b1 c.reason ++ b1 c.retests ++ b2 (epochOf c.masked % 65536) ++ b4 (tickOf c.masked % 2 ^ 32))) s))) ∧
  -- FE_LEAK_CONFIG (R144)
  (∀ (mb : Fin 8) (p : List Byte) (s : State), Asked mb 0x020E epd 7 p s →
    leakEntryOk (bytesAt p 1 6) = true →
    exec (.feLeakConfig mb) s = .next (settle mb (ok (setCfgEntry 0x0207 6 (p8 p 0) (bytesAt p 1 6) s)))) ∧
  -- FE_FRAME_CONFIG (R127)
  (∀ (mb : Fin 8) (p : List Byte) (s : State), Asked mb 0x020F epd 12 p s →
    let period := p32 p 0
    let start := stampAt p 4
    657 ≤ period →
    exec (.feFrameConfig mb) s = .next (
      let b0 := boundaryAfter s (s.tc.now + 400)
      let first := boundaryFrom start period (b0 + 657)
      settle mb (
        okBytes (stampBytes first) (onFe (fun x => { x with
          pendingFrame := x.pendingFrame.filter (fun e => decide (tickAfter e.2.2.1 b0 < 0)) ++ [(period, start, b0, first)] }) s)))) ∧
  -- FE_CHARGE_CAL (R133)
  (∀ (mb : Fin 8) (p : List Byte) (s : State), Asked mb 0x0210 pOrD 2 p s →
    0 < p8 p 1 ∧ p8 p 0 + p8 p 1 ≤ 256 →
    (∀ k ∈ scanBlocks (p8 p 0) (p8 p 1), blockMode s k ≠ 0 ∧ inBlockJob s k = false) →
    lowDeferred s = false →
    s.sys.jobs.length < 8 →
    exec (.feChargeCal mb) s = .next (settle mb (okBytes (b2 s.sys.nextJob) (scanBegin 0x0210 p s.sys.nextJob (addJob 0x0210 p 1 0 s).2)))) ∧
  -- FE_CHARGE_READ (R144)
  (∀ (mb : Fin 8) (p : List Byte) (s : State), Asked mb 0x0211 epd 1 p s →
    exec (.feChargeRead mb) s = .next (settle mb (okBytes ((chargeRecord s (p8 p 0)).flatMap b2) s))) ∧
  -- FE_CHARGE_WRITE (R144)
  (∀ (mb : Fin 8) (p : List Byte) (s : State), Asked mb 0x0212 epd 67 p s →
    exec (.feChargeWrite mb) s = .next (
      settle mb (
        ok (modBlock (p8 p 0) (fun x => { x with
          charge := some ((List.range 33).map (fun i => p16 p (1 + 2 * i))), chargeNew := none }) s)))) ∧
  -- FE_SCRUB_STATUS (R144)
  (∀ (mb : Fin 8) (p : List Byte) (s : State), Asked mb 0x0213 epdPri 1 p s →
    exec (.feScrubStatus mb) s = .next (
      let bs := (blocksNamed (p8 p 0)).map (blockAt s)
      let sum (i : Nat) : Nat := bs.foldl (fun a x => statAdd a (tget 0 x.scrub i)) 0
      settle mb (okBytes (b4 (bs.foldl (fun a x => max a (tget 0 x.scrub 0)) 0) ++ b4 (sum 1) ++ b4 (sum 2) ++ b4 (sum 3)) s))) ∧
  -- FE_STATUS (R144)
  (∀ (mb : Fin 8) (p : List Byte) (s : State), Asked mb 0x0214 epdPri 1 p s →
    exec (.feStatus mb) s = .next (
      let k := p8 p 0
      let masks := (s.fe.pixel.filter (fun e => decide (pixBlock e.1 = k) && bit e.2.toNat 5)).length
      settle mb (
        okBytes ([(blockAt s k).conf.mode] ++ b1 (biasOf s k) ++ b2 masks ++ b2 (crabCount s k) ++ b2 (leakCount s k)
          ++ b1 (bitNat (inBlockJob s k))) s)))

/-- Event timing events and calls run as their rules say: where a command is due, its own effect, whole, is the next state.
The rule of each command stands above its clause. -/
def Obligations.TimingRuns : Prop :=
  -- BLOCK_COUNTER_CHECK (R149)
  (∀ (block : Nat) (seen : BitVec 16) (s : State),
    (rowPowered s block && s.tc.strobe) = true →
    exec (.blockCounterCheck block seen) s = .next (
      let want := BitVec.ofNat 16 s.tc.now.toNat
      if (blockAt s block).reload then modBlock block (fun x => { x with counterOff := 0, reload := false }) s
      else if seen = want then modBlock block (fun x => { x with counterOff := 0 }) s
      else
        let s := modBlock block (fun x => { x with counterOff := seen - want, reload := true }) s
        raise 139 (b1 block ++ b2 (seen - want).toNat) s)) ∧
  -- INL_UPDATE (R185)
  (∀ (block : Nat) (s : State),
    2 ^ 20 ≤ (tslice 0 s.tm.bins (128 * block) 128).foldl (· + ·) 0 →
    exec (.inlUpdate block) s = .next (inlRebuild block s)) ∧
  -- TM_TEMP_UPDATE (R166)
  (∀ (s : State),
    awake s = true →
    exec (.tmTempUpdate) s = .next (forAll (List.range 256) tempUpdate s)) ∧
  -- CAL_RUN_LATCH (R169)
  (∀ (sp per : Nat) (s : State),
    let k := spBlock sp
    (awake s && s.tc.strobe) = true →
    exec (.calRunLatch sp per) s = .next (
      let s := startRuns k s
      match (runsOf s k).find? (fun r => decide (r.sp = sp)) with
      | none => s
      | some r => startRuns k (latchRun r per s))) ∧
  -- CAL_BAND_AGE_EXPIRY (R172)
  (∀ (block : Nat) (band : Fin 4) (s : State),
    (awake s && decide (cfg16 s 0x0304 2 ≠ 0) && (tget none s.tm.calAt (4 * block + band)).isSome
      && !bit (tget 0 s.tm.aged block).toNat band) = true →
    exec (.calBandAgeExpiry block band) s = .next (
      let since := (tget none s.tm.calAt (4 * block + band)).getD 0
      staleUpdate block (onTm (fun x => { x with
        aged := tput 0 block (tget 0 x.aged block ||| BitVec.ofNat 4 (2 ^ band.val)) x.aged })
          (reachUp (since + cfg16 s 0x0304 2 * ms 3600000) s)))) ∧
  -- TM_STATUS (R191)
  (∀ (mb : Fin 8) (p : List Byte) (s : State), Asked mb 0x0300 epdPri 1 p s →
    exec (.tmStatus mb) s = .next (
      let k := p8 p 0
      let src := (tempOf s (byteAt (cfg s 0x0303) (4 * k)) (k / 16)).1
      settle mb (
        okBytes (b1 (bandOf s k) ++ b1 (tget 150 s.tm.dm k) ++ b1 (bitNat (clockReady s k)) ++ [0]
          ++ b2 (unsigned 16 (tget 0 s.tm.temp k)) ++ b1 src ++ b1 (tget 0 s.tm.stale k).toNat) s))) ∧
  -- TM_CAL_STATUS (R191)
  (∀ (mb : Fin 8) (p : List Byte) (s : State), Asked mb 0x0301 epd 2 p s →
    1 ≤ p8 p 1 ∧ p8 p 1 ≤ 7 ∧ p8 p 0 + p8 p 1 ≤ 256 →
    exec (.tmCalStatus mb) s = .next (settle mb (okBytes ((List.range (p8 p 1)).flatMap (fun i => (List.range 4).flatMap (calStatus s (p8 p 0 + i)))) s))) ∧
  -- TM_CAL_RUN (R173)
  (∀ (mb : Fin 8) (p : List Byte) (s : State), Asked mb 0x0302 epd 3 p s →
    let p := p.take 3 ++ (scanBlocks (p8 p 0) (p8 p 1)).flatMap (fun k => b1 (bandOf s k))
    1 ≤ p8 p 1 ∧ p8 p 0 + p8 p 1 ≤ 256 ∧ p8 p 2 ≤ 1 →
    lowDeferred s = false →
    s.sys.jobs.length < 8 →
    exec (.tmCalRun mb) s = .next (settle mb (okBytes (b2 s.sys.nextJob) (calRunBegin p s.sys.nextJob (addJob 0x0302 p 1 0 s).2)))) ∧
  -- TM_BAND_CONFIG (R164)
  (∀ (mb : Fin 8) (p : List Byte) (s : State), Asked mb 0x0303 epd 7 p s →
    bandsOk p = true →
    exec (.tmBandConfig mb) s = .next (settle mb (ok (bandsFollow (setCfg 0x0301 (bytesAt p 0 7) s))))) ∧
  -- TM_PERIOD_READ (R191)
  (∀ (mb : Fin 8) (p : List Byte) (s : State), Asked mb 0x0304 epd 4 p s →
    periodRange p = true →
    exec (.tmPeriodRead mb) s = .next (settle mb (okBytes ((List.range (p8 p 3)).flatMap (fun i => b2 (perOf s (p16 p 0 + i) (p8 p 2)))) s))) ∧
  -- TM_PERIOD_WRITE (R192)
  (∀ (mb : Fin 8) (p : List Byte) (s : State), Asked mb 0x0305 epd 4 p s →
    let n := p8 p 3
    let b := p8 p 2
    (periodRange p && decide ((bytesAt p 4 (2 * n)).length = 2 * n)) = true →
    exec (.tmPeriodWrite mb) s = .next (
      let s := onTm (fun x => { x with
        per := (List.range n).foldl (fun t i => tput 0 (4 * (p16 p 0 + i) + b) (p16 p (4 + 2 * i)) t) x.per }) s
      let ks := ((List.range n).map (fun i => spBlock (p16 p 0 + i))).eraseDups
      settle mb (ok (forAll ks (periodsWritten b) s)))) ∧
  -- TM_SKEW_READ (R191)
  (∀ (mb : Fin 8) (p : List Byte) (s : State), Asked mb 0x0306 epd 4 p s →
    let n := p8 p 2
    1 ≤ n ∧ n ≤ 56 ∧ p16 p 0 + n ≤ 65536 ∧ p8 p 3 ≤ 1 →
    exec (.tmSkewRead mb) s = .next (
      settle mb (
        okBytes (if p8 p 3 = 0 then (tslice 0 s.tm.skew (p16 p 0) n).flatMap (fun v => b2 (unsigned 16 v))
          else (tslice (0, 0) s.tm.skewCal (p16 p 0) n).flatMap (fun v => b2 (unsigned 16 v.1) ++ b2 v.2)) s))) ∧
  -- TM_SKEW_WRITE (R192)
  (∀ (mb : Fin 8) (p : List Byte) (s : State), Asked mb 0x0307 epd 4 p s →
    let n := p8 p 2
    1 ≤ n ∧ n ≤ 112 ∧ p16 p 0 + n ≤ 65536 ∧ (bytesAt p 4 (2 * n)).length = 2 * n →
    exec (.tmSkewWrite mb) s = .next (
      settle mb (
        ok (onTm (fun x => { x with
          skew := tfill 0 (p16 p 0) ((List.range n).map (fun i => i16At p (4 + 2 * i))) x.skew }) s)))) ∧
  -- TM_WALK_READ (R191)
  (∀ (mb : Fin 8) (p : List Byte) (s : State), Asked mb 0x0308 epd 1 p s →
    exec (.tmWalkRead mb) s = .next (
      settle mb (
        okBytes ((List.range 64).flatMap (fun i => b2 (wlkOf s (p8 p 0) i))
          ++ (List.range 16).flatMap (fun i => b2 (wswOf s (p8 p 0) i))) s))) ∧
  -- TM_WALK_WRITE (R192)
  (∀ (mb : Fin 8) (p : List Byte) (s : State), Asked mb 0x0309 epd 164 p s →
    exec (.tmWalkWrite mb) s = .next (
      let k := p8 p 0
      settle mb (
        ok (onTm (fun x => { x with
          wlk := tfill 0 (64 * k) ((List.range 64).map (fun i => p16 p (4 + 2 * i))) x.wlk
          wsw := tfill 0 (16 * k) ((List.range 16).map (fun i => p16 p (132 + 2 * i))) x.wsw }) s)))) ∧
  -- TM_WALK_CAL (R183)
  (∀ (mb : Fin 8) (p : List Byte) (s : State), Asked mb 0x030A pOrD 4 p s →
    0 < p8 p 1 ∧ p8 p 0 + p8 p 1 ≤ 256 →
    100 ≤ p16 p 2 ∧ p16 p 2 ≤ 10000 →
    (∀ k ∈ scanBlocks (p8 p 0) (p8 p 1), blockMode s k ≠ 0 ∧ (blockAt s k).scan = none) →
    lowDeferred s = false →
    s.sys.jobs.length < 8 →
    exec (.tmWalkCal mb) s = .next (settle mb (okBytes (b2 s.sys.nextJob) (addJob 0x030A p 1 0 s).2))) ∧
  -- TM_SKEW_CAL (R184)
  (∀ (mb : Fin 8) (p : List Byte) (s : State), Asked mb 0x030B pOrD 6 p s →
    1 ≤ p8 p 1 ∧ p8 p 0 + p8 p 1 ≤ 256 ∧ 1 ≤ p32 p 2 →
    lowDeferred s = false →
    s.sys.jobs.length < 8 →
    exec (.tmSkewCal mb) s = .next (settle mb (okBytes (b2 s.sys.nextJob) (skewBegin p s.sys.nextJob (addJob 0x030B p 1 0 s).2)))) ∧
  -- TM_INL_READ (R191)
  (∀ (mb : Fin 8) (p : List Byte) (s : State), Asked mb 0x030C epd 1 p s →
    exec (.tmInlRead mb) s = .next (
      settle mb (
        okBytes ((tslice 0 s.tm.inl (128 * p8 p 0) 128).flatMap (fun v => b1 (unsigned 8 v))
          ++ b4 ((tslice 0 s.tm.bins (128 * p8 p 0) 128).foldl (· + ·) 0)) s))) ∧
  -- TM_TEMP_CONFIG (R166)
  (∀ (mb : Fin 8) (p : List Byte) (s : State), Asked mb 0x030D epd 5 p s →
    tempSrcOk (p8 p 1) = true →
    exec (.tmTempConfig mb) s = .next (settle mb (ok (setCfgEntry 0x0303 4 (p8 p 0) (bytesAt p 1 4) s)))) ∧
  -- TM_DROOP_READ (R191)
  (∀ (mb : Fin 8) (p : List Byte) (s : State), Asked mb 0x030E epdPri 2 p s →
    1 ≤ p8 p 1 ∧ p8 p 1 ≤ 224 ∧ p8 p 0 + p8 p 1 ≤ 256 →
    exec (.tmDroopRead mb) s = .next (settle mb (okBytes ((tslice 150 s.tm.dm (p8 p 0) (p8 p 1)).flatMap b1) s))) ∧
  -- TM_STATS (R191)
  (∀ (mb : Fin 8) (p : List Byte) (s : State), Asked mb 0x030F epd 2 p s →
    exec (.tmStats mb) s = .next (
      let k := p8 p 0
      let bytes := (tslice 0 s.tm.stats (6 * k) 6).flatMap b4 ++ b4 (tget 0 s.tm.statSat k)
      settle mb (
        okBytes bytes (if p8 p 1 = 1 then onTm (fun x => { x with
          stats := tfill 0 (6 * k) (List.replicate 6 0) x.stats, statSat := tput 0 k 0 x.statSat }) s else s))))

/-- Hit path events and calls run as their rules say: where a command is due, its own effect, whole, is the next state. The
rule of each command stands above its clause. -/
def Obligations.HitPathRuns : Prop :=
  -- HIT_FRAME_RECEIVED (R155)
  (∀ (block : Nat) (ecc : List TableCheck) (drop : Bool) (s : State),
    let n := engineOf s (block / 16)
    let s0 := drainInBuf n s
    ∀ f r1,
    (blockAt s0 block).port = .hit f :: r1 →
    (portOpen s0 block && (decide ((blockAt s0 block).sinceMark < 64) || unlimited s0 block)
      && (!drop || engineStalled s0 n)) = true →
    exec (.hitFrameReceived block ecc drop) s = .next (
      let s := wakeEngine n (portReach block (some f.stop) s0)
      let f := heardHit (leaving s block f)
      let s := crabSeen (1024 * (64 * (block / 16) + f.prow) + 64 * (block % 16) + f.pcol) 1 (popPort block true s)
      if drop then dropHit block f s else hearHit n block f ecc s)) ∧
  -- WATERMARK_RECEIVED (R214)
  (∀ (block : Nat) (s : State),
    ∀ r1 w r2 r3 r4,
    (blockAt s block).port = .control 1 r1 w r2 r3 :: r4 →
    portOpen s block = true →
    exec (.watermarkReceived block) s = .next (
      let s := portReach block none s
      let t := extendTick s (field ((controlWords 1 0 w 0 0).getD 1 0) 15 0)
      popPort block false (onHp (fun x => { x with mark := tput none block (some t) x.mark }) s))) ∧
  -- PORT_LOSS_RECEIVED (R239)
  (∀ (block : Nat) (s : State),
    ∀ cause n a b r1,
    (blockAt s block).port = .control 4 cause n a b :: r1 →
    portOpen s block = true →
    exec (.portLossReceived block) s = .next (
      let s := popPort block false (portReach block none s)
      let s := raiseIf (decide (cause = 3)) 194 [] s
      let s := raiseIf (decide (cause = 4)) 195 [] s
      if scanRuns s block 0x0206 then s
      else offerLoss (block / 16) (engineOf s (block / 16))
        { cause := cause, unit := 0, source := block, count := n, first := extendTick s a, last := extendTick s b } s)) ∧
  -- PORT_FRAMING_ERROR (R207)
  (∀ (block : Nat) (word0 : BitVec 16) (s : State),
    (awake s && decide (block < 256) && framingError word0) = true →
    exec (.portFramingError block word0) s = .next (
      let s := modBlock block (fun x => { x with
        reframe := some (s.tc.now + 1), readout := x.readout.map (fun r => { r with bad := true }) }) s
      raise 201 [] (hpStat (engineOf s (block / 16)) 8 s))) ∧
  -- CLUSTER_CLOSE (R214)
  (∀ (engine : Fin 16) (first : Nat) (s : State),
    let s0 := drainInBuf engine s
    ∀ c,
    (engineAt s0 engine).clusters.find? (fun c => match c.hits with
      | h :: _ => decide (1024 * h.row + h.col = first)
      | [] => false) = some c →
    (awake s0 && !engineStalled s0 engine && watermarksMet s0 engine c && nothingBelow s0 engine c) = true →
    exec (.clusterClose engine first) s = .next (closeCluster engine c (reachUp (c.joined + divUp c.rules.1 25) s0))) ∧
  -- REORDER_RELEASE (R233)
  (∀ (q : Fin 16) (s : State),
    ∀ h r,
    (lossQAt s q).held = h :: r →
    let s0 := reachUp h.due s
    (awake s0 && !headStalls s0 q) = true →
    exec (.reorderRelease q) s = .next (      drainFeeders q (passHeld q false h (modLossQ q (fun x => { x with held := r }) s0)))) ∧
  -- BLOCK_OFF_RELEASE (R237)
  (∀ (q : Fin 16) (s : State),
    ∀ t bs,
    (lossQAt s q).releasing = some (t, bs) →
    exec (.blockOffRelease q) s = .next (
      let s := reachTick t s
      let kept := heldBlocks s
      forAll (bs.filter (fun b => !kept.contains b)) (fun b => modBlock b (fun x => { x with held := false }))
        (modLossQ q (fun x => { x with releasing := none }) s))) ∧
  -- EDGE_FRAG_RX (R225)
  (∀ (side : Fin 4) (f : EdgeFrag) (s : State),
    (awake s && decide ((msideAt s side).state = 2) && (msideAt s side).owner) = true →
    exec (.edgeFragRx side f) s = .next (    fragArrives side f.fragId (fragClosed s side f) (slPacketIn side s))) ∧
  -- MERGE_REPLY_RX (R225)
  (∀ (side : Fin 4) (fragId : BitVec 16) (result : Nat) (s : State),
    ∀ m,
    sentMerge s side fragId.toNat = some m →
    (awake s && decide (result ≤ 2)) = true →
    exec (.mergeReplyRx side fragId result) s = .next (
      let s := dropSent side m (slPacketIn side s)
      match result with
      | 0 => s
      | 1 => emitCluster m.cluster s
      | _ => emitCluster (fragged (2 ^ side.val) (capped m.cluster)) s)) ∧
  -- MERGE_WAIT_EXPIRY (R225)
  (∀ (side : Fin 4) (fragId : BitVec 16) (s : State),
    ∀ w,
    (msideAt s side).waiting.find? (fun m => decide (m.id = fragId.toNat)) = some w →
    awake s = true →
    exec (.mergeWaitExpiry side fragId) s = .next (
      let s := reachUp (w.since + mergeWait s) s
      let s := modMside side (fun x => { x with waiting := x.waiting.filter (fun m => decide (m ≠ w)) }) s
      emitKept side w.order (sendMerge side (mergeReplyBytes w.id 1) s))) ∧
  (∀ (side : Fin 4) (fragId : BitVec 16) (s : State),
    (msideAt s side).waiting.find? (fun m => decide (m.id = fragId.toNat)) = none →
    ∀ k,
    (msideAt s side).kept.find? (fun m => decide (m.id = fragId.toNat)) = some k →
    awake s = true →
    exec (.mergeWaitExpiry side fragId) s = .next (emitKept side k.order (reachUp (k.since + mergeWait s) s))) ∧
  -- MERGE_REPLY_TIMEOUT (R225)
  (∀ (side : Fin 4) (fragId : BitVec 16) (s : State),
    ∀ m,
    sentMerge s side fragId.toNat = some m →
    awake s = true →
    exec (.mergeReplyTimeout side fragId) s = .next (
      raise 205 [] (emitCluster (fragged (2 ^ side.val) m.cluster)
        (dropSent side m (reachUp (m.since + 2 * mergeWait s + us 1) s))))) ∧
  -- HP_STATUS (R247)
  (∀ (mb : Fin 8) (p : List Byte) (s : State), Asked mb 0x0400 epdPri 1 p s →
    let n := p8 p 0
    n < 16 →
    exec (.hpStatus mb) s = .next (
      let x := engineAt s n
      let rate := (x.recent.filter (fun t => decide (s.up < t + ms 1000))).length
      settle mb (
        okBytes (b1 (outputOf s n) ++ b1 (byteAt (hpCfg s 0x0404) (4 * n)) ++ b2 x.clusters.length ++ b4 (min stat32 rate)
          ++ b1 (word ((List.range 4).map (fun sd => (2 * sd, (msideAt s sd).state)))) ++ b1 (bitNat (fragHalf s))
          ++ b2 (servedRows s n)) s))) ∧
  -- HP_OUTPUT_SET (R248)
  (∀ (mb : Fin 8) (p : List Byte) (s : State), Asked mb 0x0401 epd 3 p s →
    p8 p 2 ≤ 2 →
    exec (.hpOutputSet mb) s = .next (
      let v := hpLatest s 0x0402
      settle mb (ok (hpChange 0x0402 (v.zipIdx.map (fun e => if bit (p16 p 0) e.2 then BitVec.ofNat 8 (p8 p 2) else e.1)) s)))) ∧
  -- HP_CLUSTER_CONFIG (R248)
  (∀ (mb : Fin 8) (p : List Byte) (s : State), Asked mb 0x0402 epd 4 p s →
    clusterConfOk p = true →
    exec (.hpClusterConfig mb) s = .next (settle mb (ok (hpChange 0x0401 (bytesAt p 0 4) s)))) ∧
  -- HP_LOSS_CONFIG (R248)
  (∀ (mb : Fin 8) (p : List Byte) (s : State), Asked mb 0x0403 epd 13 p s →
    let q := p8 p 0
    let v := bytesAt p 1 12
    (decide (q < 16) && lossConfOk s q v) = true →
    exec (.hpLossConfig mb) s = .next (settle mb (ok (lossEval q (setCfgEntry 0x0403 12 q v s))))) ∧
  -- HP_LOSS_STATUS (R247)
  (∀ (mb : Fin 8) (p : List Byte) (s : State), Asked mb 0x0404 epdPri 1 p s →
    let q := p8 p 0
    q < 16 →
    exec (.hpLossStatus mb) s = .next (
      settle mb (
        okBytes (b1 (bitNat (lossQAt s q).active) ++ b1 (min 255 (fillPct s q)) ++ b2 0
          ++ (tslice 0 (lossQAt s q).totals 0 7).flatMap b4) s))) ∧
  -- HP_GATE_CONFIG (R248)
  (∀ (mb : Fin 8) (p : List Byte) (s : State), Asked mb 0x0405 epd 6 p s →
    let v := bytesAt p 2 4
    gateConfOk v = true →
    exec (.hpGateConfig mb) s = .next (
      settle mb (
        ok (hpChange 0x0404 ((List.range 16).foldl (fun w n => if bit (p16 p 0) n then bytesPut w (4 * n) v else w)
          (hpLatest s 0x0404)) s)))) ∧
  -- HP_MERGE_CONFIG (R247)
  (∀ (mb : Fin 8) (p : List Byte) (s : State), Asked mb 0x0406 epd 4 p s →
    mergeConfOk p = true →
    exec (.hpMergeConfig mb) s = .next (settle mb (ok (mergeSet (bytesAt p 0 4) s)))) ∧
  -- HP_MERGE_STATUS (R247)
  (∀ (mb : Fin 8) (p : List Byte) (s : State), Asked mb 0x0407 epd 0 p s →
    exec (.hpMergeStatus mb) s = .next (
      settle mb (
        okBytes ((List.range 4).flatMap (fun sd =>
          let x := msideAt s sd
          b1 x.state ++ b1 x.partner ++ b1 (bitNat (!x.owner)) ++ [0] ++ (tslice 0 x.counts 0 4).flatMap b4)) s))) ∧
  -- HP_REORDER_CONFIG (R248)
  (∀ (mb : Fin 8) (p : List Byte) (s : State), Asked mb 0x0408 epd 2 p s →
    reorderConfOk p = true →
    exec (.hpReorderConfig mb) s = .next (settle mb (ok (hpChange 0x0406 (bytesAt p 0 2) s)))) ∧
  -- HP_STATS (R247)
  (∀ (mb : Fin 8) (p : List Byte) (s : State), Asked mb 0x0409 epd 2 p s →
    let n := p8 p 0
    n < 16 →
    exec (.hpStats mb) s = .next (
      settle mb (
        okBytes (statBytes 9 (engineAt s n).stats (engineAt s n).statSat)
          (if p8 p 1 = 1 then modEngine n (fun x => { x with stats := [], statSat := 0 }) s else s)))) ∧
  -- HP_TP_READ (R245)
  (∀ (mb : Fin 8) (p : List Byte) (s : State), Asked mb 0x040A epd 2 p s →
    1 ≤ p16 p 0 ∧ p16 p 0 ≤ 27 →
    exec (.hpTpRead mb) s = .next (
      let out := s.hp.tpBuf.take (p16 p 0)
      let s := onHp (fun x => { x with tpBuf := x.tpBuf.drop (p16 p 0) }) s
      settle mb (okBytes (b2 out.length ++ b2 s.hp.tpBuf.length ++ out.flatMap (fun w => b8 w.toNat)) s)))

/-- Trigger, converter and arming-domain events run as their rules say: where a command is due, its own effect, whole, is
the next state. The rule of each command stands above its clause. -/
def Obligations.TriggerEventsRun : Prop :=
  -- ADC_CAL_UPDATE (R254)
  (∀ (upd : List AdcUpdate) (s : State),
    busyState s = true →
    exec (.adcCalUpdate upd) s = .next (
      let s := reachUp (s.tr.calAt + ms 1) s
      let s := onTr (fun x => { x with calAt := s.up }) s
      let s := forAll (List.range 64) (fun p => updateAdc p (upd.filter (fun u => decide (u.patch = p ∧ u.slice < 4)))) s
      if !s.tr.allConverged && (List.range 64).all (fun p => decide ((adcAt s p).state = .converged)) then
        raise 208 [] (onTr (fun x => { x with allConverged := true }) s)
      else s)) ∧
  -- ADC_CONVERGE_TIMEOUT (R255)
  (∀ (patch : Nat) (s : State),
    (busyState s && decide (patch < 64 ∧ (adcAt s patch).state = .converging)) = true →
    exec (.adcConvergeTimeout patch) s = .next (    raise 209 [] (modAdc patch (fun a => { a with state := .fault }) (reachUp (s.tr.poweredAt + ms 200) s)))) ∧
  -- TRIGGER_FIRE (R266)
  (∀ (g : Nat) (xs : List PatchIn) (s : State),
    (busyState s && s.tc.strobe) = true →
    exec (.triggerFire g xs) s = .next (
      let n := min (spanOf xs) (g + 1)
      let s := forAll (List.range n) (fun k => takeSample xs g (g + 1 - n + k)) (reachTick (tickOfSample g) s)
      forAll (List.range 4) completeEntries s)) ∧
  -- HOLDOFF_END (R268)
  (∀ (unit : Fin 16) (s : State),
    ∀ h rest,
    (unitAt s unit.val).holds = h :: rest →
    (busyState s && unitPast s unit.val h.2) = true →
    exec (.holdoffEnd unit) s = .next (
      modUnit unit.val (fun x => { x with holds := rest })
        (reachTick (tickOfSample (h.2 + 1 + unitLatency s unit.val h.2)) s))) ∧
  -- SOFT_FIRE_TICK (R277)
  (∀ (s : State),
    ∀ r1 t r2,
    s.tr.soft = (r1, t) :: r2 →
    busyState s = true →
    exec (.softFireTick) s = .next (
      let mask := (s.tr.soft.filter (fun f => decide (f.2 = t))).foldl (fun a f => a ||| f.1) 0
      let s := reachTick t (onTr (fun x => { x with soft := x.soft.filter (fun f => decide (f.2 ≠ t)) }) s)
      fireNamed (sampleOf t) 0 1024 ((maskList 16 mask).filter (fun u => cfEnable (unitConf s u))) s)) ∧
  -- TRIGGER_RECORD_WRITE (R275)
  (∀ (s : State),
    ∀ f,
    nextRecord s.tr.fires = some f →
    let e := windowEnd f
    let waits := coreWaits s f
    (busyState s && (measPatches f.conf f.patch).all (fun p => decide (e ≤ (histAt s p).newest)) && waits.all (coreDone s)) = true →
    exec (.triggerRecordWrite) s = .next (
      let s := reachTick (tickOfSample ((waits.map (·.2)).foldl max e)) s
      let y := measuredInput s f e
      let bytes := recordBytes s f (measure f y.2 y.1 e) (windowClipped s f e)
      let s := onTr (fun x => { x with
        fires := x.fires.filter (fun z => z.wants && decide (z ≠ f) || decide (!z.wants ∧ f.g < z.g + 8192))
        trigSeq := (x.trigSeq + 1) % 65536 }) s
      let s := putRecord (triggerPut 5 (stampOf f.g f.off) (bit f.flags 0) bytes) s
      deliverRecord f bytes (forAll (maskList 16 f.units) (fun u => trStat u 2) s))) ∧
  -- WAVE_CAPTURE_DONE (R278)
  (∀ (eng : Fin 4) (s : State),
    ∀ c,
    tget none s.tr.capture eng.val = some c →
    (busyState s && c.patches.all (fun p => decide (c.g + c.post ≤ (histAt s p).newest))) = true →
    exec (.waveCaptureDone eng) s = .next (
      let s := reachTick (tickOfSample (c.g + c.post)) s
      let segs := waveSegments s c
      let s := onTr (fun x => { x with capture := tput none eng.val none x.capture }) s
      let s := forAll segs (fun b => putRecord (triggerPut 6 (stampOf c.g c.off) c.cal b)) s
      forAll (maskList 16 c.units) (fun u => trStat u 3) s)) ∧
  -- TR_CONFIG_EFFECT (R294)
  (∀ (s : State),
    ∀ p r1,
    s.tr.pending = p :: r1 →
    busyState s = true →
    exec (.trConfigEffect) s = .next (applyUnits (reachTick p.2.2 s))) ∧
  -- TRIG_IN_EDGE (R291)
  (∀ (ns : Nat) (s : State),
    (busyState s && decide (cfg8 s 0x0504 0 = 2)) = true →
    exec (.trigInEdge ns) s = .next (
      let g := sampleOf s.tc.now + ns + 1
      let s := reachTick (tickOfSample g) s
      let us := (List.range 16).filter (fun u => cfEnable (unitConf s u) && decide (cfSource (unitConf s u) = 5))
      fireNamed g 128 0 us s)) ∧
  -- DOMAIN_ARM_RX (R285)
  (∀ (path : Fin 5) (w : BitVec 64) (s : State),
    (pathHears s path.val && decide (s.tr.domain.state ≠ .off)) = true →
    domainCrcOk w = true ∧ field w.toNat 63 60 = 1 →
    let u := when (decide (path.val < 4)) (slPacketIn path.val) s
    busyState u = true →
    let t := forwardWord w path.val u
    isMaster t = false ∧ t.tr.domain.state ≠ .detached ∧ armKnown w t = false →
    exec (.domainArmRx path w) s = .next (takeArm w t)) ∧
  -- DOMAIN_DISARM_RX (R285)
  (∀ (path : Fin 5) (w : BitVec 64) (s : State),
    (pathHears s path.val && decide (s.tr.domain.state ≠ .off)) = true →
    domainCrcOk w = true ∧ field w.toNat 63 60 = 2 →
    let u := when (decide (path.val < 4)) (slPacketIn path.val) s
    busyState u = true →
    let t := forwardWord w path.val u
    t.tr.domain.state ≠ .detached →
    exec (.domainDisarmRx path w) s = .next (
      if 0 ≤ stampDiff (now t) (domainTick t w) then disarm t
        else onDomain (fun d => { d with disarmAt := some (domainTick t w) }) t)) ∧
  -- DOMAIN_FIRE_RX (R285)
  (∀ (path : Fin 5) (w : BitVec 64) (s : State),
    (pathHears s path.val && decide (s.tr.domain.state ≠ .off)) = true →
    domainCrcOk w = true ∧ field w.toNat 63 60 = 3 →
    let u := when (decide (path.val < 4)) (slPacketIn path.val) s
    busyState u = true →
    let t := forwardWord w path.val u
    let d := t.tr.domain
    let key := (field w.toNat 51 46, domainTick t w, field w.toNat 29 25)
    field w.toNat 59 52 = d.seq ∧ (d.state = .armed ∨ d.state = .fired) ∧ d.seen.contains key = false →
    exec (.domainFireRx path w) s = .next (
      remoteFire key.1 (sampleOf (domainTick t w) + key.2.2) (field w.toNat 24 9) (raise 216 []
        (domainCount 2 (onDomain (fun d => { d with
          state := .fired, seen := key :: d.seen, earliest := earlierTick d.earliest (domainTick t w) }) t))))) ∧
  -- DOMAIN_BEAT_RX (R283)
  (∀ (path : Fin 5) (w : BitVec 64) (s : State),
    (pathHears s path.val && decide (s.tr.domain.state ≠ .off)) = true →
    domainCrcOk w = true ∧ field w.toNat 63 60 = 4 →
    let u := when (decide (path.val < 4)) (slPacketIn path.val) s
    busyState u = true →
    exec (.domainBeatRx path w) s = .next (
      let t := forwardWord w path.val u
      let b := domainJoin (onDomain (fun d => { d with lastBeat := t.up, master := field w.toNat 51 46 }) t)
      if field w.toNat 59 52 ≠ b.tr.domain.seq ∧ field w.toNat 29 28 = 1 ∧ !isMaster b then
          armLate (domainCount 0 (onDomain (fun d => { d with
            seq := field w.toNat 59 52, earliest := none, seen := [], disarmAt := none }) b))
        else b)) ∧
  -- DOMAIN_BEAT_SEND (R283)
  (∀ (s : State),
    (busyState s && isMaster s && s.tc.strobe && decide (s.tr.domain.state ≠ .off)) = true →
    exec (.domainBeatSend) s = .next (
      let s := reachUp (s.tr.domain.beatAt + beatPeriod s) s
      let d := s.tr.domain
      let w := domainWord 4 d.seq (tileIdentity s) (tickOf s.tc.now) (beatState d * 2 ^ 20)
      let s := sendWord w (onDomain (fun d => { d with beatAt := s.up }) s)
      when (onPath s) (fun s => domainJoin (onDomain (fun d => { d with lastBeat := s.up, master := tileIdentity s }) s)) s)) ∧
  -- DOMAIN_BEAT_TIMEOUT (R283)
  (∀ (s : State),
    s.tr.domain.state ≠ .off ∧ s.tr.domain.state ≠ .detached →
    exec (.domainBeatTimeout) s = .next (    domainDetach (if onPath s && busyState s then reachUp (s.tr.domain.lastBeat + 3 * beatPeriod s) s else s))) ∧
  -- DOMAIN_ARM_TICK (R285)
  (∀ (s : State),
    ∀ t,
    s.tr.domain.armAt = some t →
    (busyState s && decide (s.tr.domain.state ≠ .off)) = true →
    exec (.domainArmTick) s = .next (
      let s := onDomain (fun d => { d with armAt := none }) (reachTick t s)
      if s.tr.domain.state = .detached then s
      else raise 215 [] (onDomain (fun d => { d with state := .armed, late := false }) s))) ∧
  -- DOMAIN_REARM (R285)
  (∀ (s : State),
    ∀ e,
    s.tr.domain.earliest = some e →
    (busyState s && decide (s.tr.domain.state = .fired ∧ s.tr.domain.mode = 1)) = true →
    exec (.domainRearm) s = .next (
      onDomain (fun d => { d with state := .armed, earliest := none })
        (reachTick (e + BitVec.ofNat 64 s.tr.domain.rearm) s))) ∧
  -- DOMAIN_DISARM_EFFECT (R285)
  (∀ (s : State),
    ∀ t,
    s.tr.domain.disarmAt = some t →
    busyState s = true →
    exec (.domainDisarmEffect) s = .next (disarm (reachTick t s)))

/-- Trigger and acquisition calls run as their rules say: where a command is due, its own effect, whole, is the next state.
The rule of each command stands above its clause. -/
def Obligations.TriggerCallsRun : Prop :=
  -- TR_STATUS (R296)
  (∀ (mb : Fin 8) (p : List Byte) (s : State), Asked mb 0x0500 epdPri 0 p s →
    exec (.trStatus mb) s = .next (
      settle mb (
        okBytes (b1 (domainCode s.tr.domain.state) ++ b1 s.tr.domain.seq ++ b2 (maskOf 16 (fun u => cfEnable (unitConf s u)))
          ++ b2 (maskOf 16 (inHoldoff s)) ++ b1 ((List.range 4).filter (fun e => (tget none s.tr.capture e).isSome)).length
          ++ b1 ((List.range 64).filter (fun p => decide ((adcAt s p).state = .converged))).length
          ++ b8 (maskOf 64 (fun p => decide ((adcAt s p).state = .fault)))) s))) ∧
  -- TR_UNIT_CONFIG (R294)
  (∀ (mb : Fin 8) (p : List Byte) (s : State), Asked mb 0x0501 epd 68 p s →
    let c := bytesAt p 4 64
    (decide (p8 p 0 < 16) && unitConfOk c) = true →
    exec (.trUnitConfig mb) s = .next (settle mb (pendUnits [(p8 p 0, c)] s))) ∧
  -- TR_UNIT_READ (R296)
  (∀ (mb : Fin 8) (p : List Byte) (s : State), Asked mb 0x0502 epd 1 p s →
    p8 p 0 < 16 →
    exec (.trUnitRead mb) s = .next (settle mb (okBytes (unitConf s (p8 p 0) ++ b1 (bitNat (inFallback s (p8 p 0)))) s))) ∧
  -- TR_UNIT_ENABLE (R296)
  (∀ (mb : Fin 8) (p : List Byte) (s : State), Asked mb 0x0503 epdPri 4 p s →
    let us := maskList 16 (p16 p 0 ||| p16 p 2)
    let cs := us.map (fun u => (u, enabledConf s (p16 p 0) (p16 p 2) u))
    (cs.all (fun c => unitConfOk c.2)) = true →
    exec (.trUnitEnable mb) s = .next (settle mb (pendUnits cs s))) ∧
  -- TR_PATCH_CONFIG (R252)
  (∀ (mb : Fin 8) (p : List Byte) (s : State), Asked mb 0x0504 epd 2 p s →
    let first := p8 p 0
    let n := p8 p 1
    let v := bytesAt p 2 n
    (decide (1 ≤ n ∧ first + n ≤ 64 ∧ v.length = n) && v.all (fun b => decide (b.toNat ≤ 3))) = true →
    exec (.trPatchConfig mb) s = .next (
      let old := padTo 64 (latestTrigger s 0x0502)
      settle mb (ok (acceptTrigger 0x0502 (old.take first ++ v ++ old.drop (first + n)) s)))) ∧
  -- TR_ADC_STATUS (R255)
  (∀ (mb : Fin 8) (p : List Byte) (s : State), Asked mb 0x0505 pOrD 1 p s →
    let a := adcAt s (p8 p 0)
    p8 p 0 < 64 →
    exec (.trAdcStatus mb) s = .next (
      settle mb (
        okBytes (b1 (adcCode a.state)
          ++ (List.range 4).flatMap (fun k =>
            let c := tget (0, 0, 0) a.slices k
            b2 (unsigned 16 c.1) ++ b2 (unsigned 16 c.2.1) ++ b2 (unsigned 16 c.2.2))
          ++ b4 a.clipped) s))) ∧
  -- TR_ADC_FREEZE (R255)
  (∀ (mb : Fin 8) (p : List Byte) (s : State), Asked mb 0x0506 pOrD 9 p s →
    p8 p 0 ≤ 1 →
    exec (.trAdcFreeze mb) s = .next (settle mb (ok (forAll (maskList 64 (uAt 8 p 1)) (freezeAdc (decide (p8 p 0 = 1))) s)))) ∧
  -- TR_DOMAIN_CONFIG (R296)
  (∀ (mb : Fin 8) (p : List Byte) (s : State), Asked mb 0x0507 epd 8 p s →
    domainConfOk p = true →
    exec (.trDomainConfig mb) s = .next (settle mb (ok (acceptTrigger 0x0503 (bytesAt p 0 8) s)))) ∧
  -- TR_ARM (R285)
  (∀ (mb : Fin 8) (p : List Byte) (s : State), Asked mb 0x0508 pOrDPri 4 p s →
    isMaster s = true →
    let lead := cfg16 s 0x0503 4
    p8 p 0 ≤ 1 ∧ lead ≤ p16 p 2 →
    exec (.trArm mb) s = .next (
      let q := (s.tr.domain.seq + 1) % 256
      let t := s.tc.now + BitVec.ofNat 64 lead
      let w := domainWord 1 q (tileIdentity s) (tickOf t) (p8 p 0 * 2 ^ 21 + p16 p 2 * 2 ^ 5)
      let s := onDomain (fun d => { d with
        seq := q, master := tileIdentity s, mode := p8 p 0, rearm := p16 p 2, earliest := none, seen := [], late := false
        armAt := some t, disarmAt := none, state := if d.state = .detached then .detached else .disarmed }) s
      settle mb (okBytes (b1 q ++ stampBytes t) (domainCount 0 (sendWord w s))))) ∧
  -- TR_DISARM (R297)
  (∀ (mb : Fin 8) (p : List Byte) (s : State), Asked mb 0x0509 pOrDPri 0 p s →
    isMaster s = true →
    exec (.trDisarm mb) s = .next (
      let t := s.tc.now + BitVec.ofNat 64 (cfg16 s 0x0503 4)
      let w := domainWord 2 s.tr.domain.seq (tileIdentity s) (tickOf t) 0
      settle mb (okBytes (stampBytes t) (sendWord w (onDomain (fun d => { d with disarmAt := some t }) s))))) ∧
  -- TR_DOMAIN_STATUS (R296)
  (∀ (mb : Fin 8) (p : List Byte) (s : State), Asked mb 0x050A epd 0 p s →
    exec (.trDomainStatus mb) s = .next (
      let d := s.tr.domain
      settle mb (
        okBytes (b1 (domainCode d.state) ++ b1 d.seq ++ b1 d.master ++ b1 0 ++ (tslice 0 d.counts 0 6).flatMap b4
          ++ b2 (min 0xFFFF ((s.up - d.lastBeat) / ms 1))) s))) ∧
  -- TR_SOFT_FIRE (R277)
  (∀ (mb : Fin 8) (p : List Byte) (s : State), Asked mb 0x050B pOrD 10 p s →
    let t := stampAt p 2
    aheadBy s 400 t = true →
    exec (.trSoftFire mb) s = .next (
      settle mb (
        ok (onTr (fun x => { x with
          soft := x.soft.filter (fun f => decide (tickAfter f.2 t ≤ 0)) ++ [(p16 p 0, t)]
            ++ x.soft.filter (fun f => decide (0 < tickAfter f.2 t)) }) s)))) ∧
  -- TR_STATS (R297)
  (∀ (mb : Fin 8) (p : List Byte) (s : State), Asked mb 0x050C epd 2 p s →
    let u := p8 p 0
    u < 16 →
    exec (.trStats mb) s = .next (
      settle mb (
        okBytes (statBytes 5 (unitAt s u).stats (unitAt s u).statSat)
          (when (decide (p8 p 1 = 1)) (modUnit u (fun x => { x with stats := [], statSat := 0 })) s)))) ∧
  -- TR_TRIGIO_CONFIG (R291)
  (∀ (mb : Fin 8) (p : List Byte) (s : State), Asked mb 0x050D epd 4 p s →
    trigioOk p = true →
    exec (.trTrigioConfig mb) s = .next (settle mb (ok (acceptTrigger 0x0504 (bytesAt p 0 4) s)))) ∧
  -- TR_SAMPLE_READ (R331)
  (∀ (mb : Fin 8) (p : List Byte) (s : State), Asked mb 0x050E pOrD 4 p s →
    let patch := p8 p 0
    let src := p8 p 1
    let n := p16 p 2
    patch < 64 ∧ src ≤ 4 ∧ 1 ≤ n ∧ n ≤ 112 →
    exec (.trSampleRead mb) s = .next (
      let t := (newestSample s patch src + 1 - n) / 25
      let r := (List.range n).foldl (fun a k => readSample patch src (25 * t + k) a) ([], s)
      settle mb (okBytes (stampBytes (BitVec.ofNat 64 t) ++ r.1) r.2)))

/-- Arithmetic instructions of the waveform engine issue and do what their rows say: where a command is due, its own effect,
whole, is the next state. The rule of each command stands above its clause. -/
def Obligations.WaveformArithmeticRuns : Prop :=
  -- NOP (R314)
  (∀ (core : Fin 4) (s : State),
    issues core.val 0x00 s = true →
    exec (.weNop core) s = .next (issued core.val (fun _ s => goAct core.val s) s)) ∧
  -- ADD (R314)
  (∀ (core : Fin 4) (s : State),
    issues core.val 0x01 s = true →
    exec (.weAdd core) s = .next (issued core.val (binary core.val 1 (fun a b => (a + b, false))) s)) ∧
  -- SUB (R314)
  (∀ (core : Fin 4) (s : State),
    issues core.val 0x02 s = true →
    exec (.weSub core) s = .next (issued core.val (binary core.val 1 (fun a b => (a - b, false))) s)) ∧
  -- ADDS (R314)
  (∀ (core : Fin 4) (s : State),
    issues core.val 0x03 s = true →
    exec (.weAdds core) s = .next (issued core.val (binary core.val 1 (fun a b => satW (a.toInt + b.toInt))) s)) ∧
  -- SUBS (R314)
  (∀ (core : Fin 4) (s : State),
    issues core.val 0x04 s = true →
    exec (.weSubs core) s = .next (issued core.val (binary core.val 1 (fun a b => satW (a.toInt - b.toInt))) s)) ∧
  -- AND (R314)
  (∀ (core : Fin 4) (s : State),
    issues core.val 0x05 s = true →
    exec (.weAnd core) s = .next (issued core.val (binary core.val 1 (fun a b => (a &&& b, false))) s)) ∧
  -- OR (R314)
  (∀ (core : Fin 4) (s : State),
    issues core.val 0x06 s = true →
    exec (.weOr core) s = .next (issued core.val (binary core.val 1 (fun a b => (a ||| b, false))) s)) ∧
  -- XOR (R314)
  (∀ (core : Fin 4) (s : State),
    issues core.val 0x07 s = true →
    exec (.weXor core) s = .next (issued core.val (binary core.val 1 (fun a b => (a ^^^ b, false))) s)) ∧
  -- SHL (R314)
  (∀ (core : Fin 4) (s : State),
    issues core.val 0x08 s = true →
    exec (.weShl core) s = .next (issued core.val (binary core.val 1 (fun a b => (a <<< (b.toNat % 32), false))) s)) ∧
  -- SHR (R314)
  (∀ (core : Fin 4) (s : State),
    issues core.val 0x09 s = true →
    exec (.weShr core) s = .next (issued core.val (binary core.val 1 (fun a b => (a >>> (b.toNat % 32), false))) s)) ∧
  -- SAR (R314)
  (∀ (core : Fin 4) (s : State),
    issues core.val 0x0A s = true →
    exec (.weSar core) s = .next (issued core.val (binary core.val 1 (fun a b => (a.sshiftRight (b.toNat % 32), false))) s)) ∧
  -- MIN (R314)
  (∀ (core : Fin 4) (s : State),
    issues core.val 0x0B s = true →
    exec (.weMin core) s = .next (issued core.val (binary core.val 1 (fun a b => (if a.toInt ≤ b.toInt then a else b, false))) s)) ∧
  -- MAX (R314)
  (∀ (core : Fin 4) (s : State),
    issues core.val 0x0C s = true →
    exec (.weMax core) s = .next (issued core.val (binary core.val 1 (fun a b => (if a.toInt ≤ b.toInt then b else a, false))) s)) ∧
  -- ABS (R314)
  (∀ (core : Fin 4) (s : State),
    issues core.val 0x0D s = true →
    exec (.weAbs core) s = .next (
      issued core.val (fun i s =>
        let (a, s) := readReg core.val i.src1 s
        let r := satW a.toInt.natAbs
        goAct core.val (setSat r.2 core.val (launchReg core.val 1 i.dst r.1 s))) s)) ∧
  -- ADD2H (R314)
  (∀ (core : Fin 4) (s : State),
    issues core.val 0x0E s = true →
    exec (.weAdd2h core) s = .next (issued core.val (binary core.val 1 (fun a b => halves (sat16 (loS a + loS b)) (sat16 (hiS a + hiS b)))) s)) ∧
  -- SUB2H (R314)
  (∀ (core : Fin 4) (s : State),
    issues core.val 0x0F s = true →
    exec (.weSub2h core) s = .next (issued core.val (binary core.val 1 (fun a b => halves (sat16 (loS a - loS b)) (sat16 (hiS a - hiS b)))) s)) ∧
  -- PACK (R314)
  (∀ (core : Fin 4) (s : State),
    issues core.val 0x10 s = true →
    exec (.wePack core) s = .next (issued core.val (binary core.val 1 (fun a b => (wordOf (a.extractLsb' 0 16) (b.extractLsb' 0 16), false))) s)) ∧
  -- CMPLT (R314)
  (∀ (core : Fin 4) (s : State),
    issues core.val 0x11 s = true →
    exec (.weCmplt core) s = .next (issued core.val (binary core.val 1 (fun a b => (if a.toInt < b.toInt then 1 else 0, false))) s)) ∧
  -- CMPEQ (R314)
  (∀ (core : Fin 4) (s : State),
    issues core.val 0x12 s = true →
    exec (.weCmpeq core) s = .next (issued core.val (binary core.val 1 (fun a b => (if a = b then 1 else 0, false))) s)) ∧
  -- MOV (R314)
  (∀ (core : Fin 4) (s : State),
    issues core.val 0x13 s = true →
    exec (.weMov core) s = .next (
      issued core.val (fun i s =>
        let (b, s) := readB core.val i s
        goAct core.val (launchReg core.val 1 i.dst b s)) s)) ∧
  -- MUL (R314)
  (∀ (core : Fin 4) (s : State),
    issues core.val 0x18 s = true →
    exec (.weMul core) s = .next (issued core.val (binary core.val 3 (fun a b => (BitVec.ofInt 32 (loS a * loS b), false))) s)) ∧
  -- MUL2H (R314)
  (∀ (core : Fin 4) (s : State),
    issues core.val 0x19 s = true →
    exec (.weMul2h core) s = .next (
      issued core.val (binary core.val 3 (fun a b =>
        halves (sat16 (loS a * loS b / 32768)) (sat16 (hiS a * hiS b / 32768)))) s)) ∧
  -- MAC (R314)
  (∀ (core : Fin 4) (s : State),
    issues core.val 0x1A s = true →
    exec (.weMac core) s = .next (issued core.val (macAct core.val (fun b i v => .accAdd b i v)) s)) ∧
  -- MSU (R314)
  (∀ (core : Fin 4) (s : State),
    issues core.val 0x1B s = true →
    exec (.weMsu core) s = .next (issued core.val (macAct core.val (fun b i v => .accAdd b i (-v))) s)) ∧
  -- MAC0 (R314)
  (∀ (core : Fin 4) (s : State),
    issues core.val 0x1C s = true →
    exec (.weMac0 core) s = .next (issued core.val (macAct core.val (fun b i v => .accSet b i v)) s)) ∧
  -- CLRA (R314)
  (∀ (core : Fin 4) (s : State),
    issues core.val 0x20 s = true →
    exec (.weClra core) s = .next (issued core.val (fun i s => setAccAct core.val i.acc 0 s) s)) ∧
  -- ADDA (R314)
  (∀ (core : Fin 4) (s : State),
    issues core.val 0x21 s = true →
    exec (.weAdda core) s = .next (
      issued core.val (fun i s =>
        let (d, s) := readAcc core.val i.acc s
        let (a, s) := readAcc core.val (i.src1 % 4) s
        setAccAct core.val i.acc (d + a) s) s)) ∧
  -- MOVA (R314)
  (∀ (core : Fin 4) (s : State),
    issues core.val 0x23 s = true →
    exec (.weMova core) s = .next (
      issued core.val (fun i s =>
        let (b, s) := readB core.val i s
        let (a, s) := readAcc core.val i.acc s
        let r := sat16 (roundShift a (b.toNat % 64))
        goAct core.val (setSat r.2 core.val (launchReg core.val 1 i.dst (BitVec.ofInt 32 r.1) s))) s))

/-- Channel, special-register, filter and control instructions of the waveform engine issue and do what their rows say:
where a command is due, its own effect, whole, is the next state. The rule of each command stands above its clause. -/
def Obligations.WaveformControlRuns : Prop :=
  -- MOVS (R308)
  (∀ (core : Fin 4) (s : State),
    issues core.val 0x14 s = true →
    movsForm (coreAt s core.val) (fetched (coreAt s core.val)) = true →
    exec (.weMovs core) s = .next (
      issued core.val (fun i s =>
        let (b, s) := readB core.val i s
        let (rot, s) := drawNat s
        .go (coreAt s core.val).index (specialWrite i.dst b rot) s) s)) ∧
  -- MOVSR (R308)
  (∀ (core : Fin 4) (s : State),
    issues core.val 0x15 s = true →
    exec (.weMovsr core) s = .next (
      issued core.val (fun i s =>
        let s := flushRecords core.val s
        goAct core.val (launchReg core.val 1 i.dst (specialRead (coreAt s core.val) i.src1) s)) s)) ∧
  -- FTAP (R315)
  (∀ (core : Fin 4) (s : State),
    issues core.val 0x1D s = true →
    ftapForm (coreAt s core.val) (fetched (coreAt s core.val)) = true →
    exec (.weFtap core) s = .next (issued core.val (ftapAct false core.val) s)) ∧
  -- FTAP0 (R315)
  (∀ (core : Fin 4) (s : State),
    issues core.val 0x1E s = true →
    ftapForm (coreAt s core.val) (fetched (coreAt s core.val)) = true →
    exec (.weFtap0 core) s = .next (issued core.val (ftapAct true core.val) s)) ∧
  -- LDA (R314)
  (∀ (core : Fin 4) (s : State),
    issues core.val 0x22 s = true →
    exec (.weLda core) s = .next (
      issued core.val (fun i s =>
        let (b, s) := readB core.val i s
        setAccAct core.val i.acc b.toInt s) s)) ∧
  -- MOVAW (R314)
  (∀ (core : Fin 4) (s : State),
    issues core.val 0x24 s = true →
    exec (.weMovaw core) s = .next (
      issued core.val (fun i s =>
        let (b, s) := readB core.val i s
        let (a, s) := readAcc core.val i.acc s
        let r := satW (roundShift a (b.toNat % 64))
        goAct core.val (setSat r.2 core.val (launchReg core.val 1 i.dst r.1 s))) s)) ∧
  -- IN (R314)
  (∀ (core : Fin 4) (s : State),
    issues core.val 0x28 s = true →
    (popInput core.val ((fetched (coreAt s core.val)).src1 % 16) (launched core.val s)).isSome = true →
    exec (.weIn core) s = .next (issued core.val (inAct core.val) s)) ∧
  -- OUT (R314)
  (∀ (core : Fin 4) (s : State),
    issues core.val 0x29 s = true →
    (bufferedOuts (coreAt (launched core.val s) core.val) ((fetched (coreAt s core.val)).dst % 16)).length < 64 →
    exec (.weOut core) s = .next (issued core.val (outAct core.val) s)) ∧
  -- QPUT (R334)
  (∀ (core : Fin 4) (s : State),
    issues core.val 0x2A s = true →
    bufferWords (coreAt (flushRecords core.val (launched core.val s)) core.val) < 512 →
    exec (.weQput core) s = .next (issued core.val (qputAct core.val) s)) ∧
  -- QEND (R334)
  (∀ (core : Fin 4) (s : State),
    issues core.val 0x2B s = true →
    exec (.weQend core) s = .next (
      issued core.val (fun i s =>
        let (b, s) := readB core.val i s
        goAct core.val (closeRecord core.val b.toNat false s)) s)) ∧
  -- BR (R314)
  (∀ (core : Fin 4) (s : State),
    issues core.val 0x30 s = true →
    branchForm (coreAt s core.val) (fetched (coreAt s core.val)) = true →
    exec (.weBr core) s = .next (issued core.val (fun i s => branchAct core.val (branchTarget i) s) s)) ∧
  -- BRZ (R314)
  (∀ (core : Fin 4) (s : State),
    issues core.val 0x31 s = true →
    branchForm (coreAt s core.val) (fetched (coreAt s core.val)) = true →
    exec (.weBrz core) s = .next (
      issued core.val (fun i s =>
        let (a, s) := readReg core.val i.src1 s
        if a = 0 then branchAct core.val (branchTarget i) s else goAct core.val s) s)) ∧
  -- BRNZ (R314)
  (∀ (core : Fin 4) (s : State),
    issues core.val 0x32 s = true →
    branchForm (coreAt s core.val) (fetched (coreAt s core.val)) = true →
    exec (.weBrnz core) s = .next (
      issued core.val (fun i s =>
        let (a, s) := readReg core.val i.src1 s
        if a ≠ 0 then branchAct core.val (branchTarget i) s else goAct core.val s) s)) ∧
  -- CALL (R319)
  (∀ (core : Fin 4) (s : State),
    issues core.val 0x33 s = true →
    branchForm (coreAt s core.val) (fetched (coreAt s core.val)) = true →
    exec (.weCall core) s = .next (
      issued core.val (fun i s =>
        let x := coreAt s core.val
        if !inBody x (branchTarget i) then .fault 1 s
        else if 8 ≤ (bankOf x x.bank).calls.length then .fault 6 s
        else .jump (branchTarget i) (modCore core.val (modBank x.bank (fun r => { r with calls := (x.index + 1) :: r.calls })) s)) s)) ∧
  -- RET (R314)
  (∀ (core : Fin 4) (s : State),
    issues core.val 0x34 s = true →
    let x := coreAt s core.val
    (!inPloop x) = true →
    exec (.weRet core) s = .next (
      issued core.val (fun _ s =>
        let x := coreAt s core.val
        match (bankOf x x.bank).calls with
        | [] => .fault 6 s
        | t :: ts => .jump t (modCore core.val (modBank x.bank (fun r => { r with calls := ts })) s)) s)) ∧
  -- LOOP (R319)
  (∀ (core : Fin 4) (s : State),
    issues core.val 0x35 s = true →
    let x := coreAt s core.val
    let i := fetched x
    (decide (i.dst ≠ 0) && !inPloop x) = true →
    exec (.weLoop core) s = .next (
      issued core.val (fun i s =>
        let (b, s) := readB core.val i s
        let x := coreAt s core.val
        if b = 0 then .go (x.index + i.dst) id s
        else if 4 ≤ (bankOf x x.bank).loops.length then .fault 6 s
        else
          let l : LoopFrame := { pipelined := false, start := x.index + 1, len := i.dst, count := b.toNat - 1, stages := 0, pass := 0 }
          .go x.index (modBank x.bank (fun r => { r with loops := l :: r.loops })) s) s)) ∧
  -- PLOOP (R321)
  (∀ (core : Fin 4) (s : State),
    issues core.val 0x36 s = true →
    let x := coreAt s core.val
    let i := fetched x
    (decide (i.dst ≠ 0 ∧ 1 ≤ i.src1 ∧ i.src1 ≤ 16) && !inPloop x) = true →
    exec (.wePloop core) s = .next (
      issued core.val (fun i s =>
        let (b, s) := readB core.val i s
        let x := coreAt s core.val
        if 4 ≤ (bankOf x x.bank).loops.length then .fault 6 s
        else
          let l : LoopFrame := { pipelined := true, start := x.index + 1, len := i.dst, count := b.toNat, stages := i.src1, pass := 0 }
          .go x.index (modBank x.bank (fun r => { r with loops := l :: r.loops, sq := passSq r.sq b.toNat i.src1 0 })) s) s)) ∧
  -- WAIT (R314)
  (∀ (core : Fin 4) (s : State),
    issues core.val 0x37 s = true →
    exec (.weWait core) s = .next (
      issued core.val (fun _ s =>
        let r (x : WeCore) := afterIndex 5 x x.index
        .done (1 + (r (coreAt s core.val)).2.2) (modCore core.val (fun x =>
          { (r x).1 with index := (r x).2.1 % 8192, stall := some .wait })) s) s)) ∧
  -- RTI (R325)
  (∀ (core : Fin 4) (s : State),
    issues core.val 0x38 s = true →
    exec (.weRti core) s = .next (
      issued core.val (fun _ s =>
        let x := coreAt s core.val
        match x.levels with
        | [] => .fault 1 s
        | (1, epc) :: rest => .done 1 (modCore core.val (fun x => { x with levels := rest, bank := 0, index := epc })) s
        | (_, epc) :: rest =>
          let back (r : Regs) : Regs := match x.saved with
            | some v => { r with gap := v.flags.1, ova := v.flags.2.1, sat := v.flags.2.2, sq := v.sq, rotb := v.rotb, loops := v.loops, calls := v.calls }
            | none => r
          .done 4 (modCore core.val (fun x => { x with levels := rest, bank0 := back x.bank0, saved := none, index := epc })) s) s)) ∧
  -- SWI (R314)
  (∀ (core : Fin 4) (s : State),
    issues core.val 0x39 s = true →
    exec (.weSwi core) s = .next (
      issued core.val (fun i s =>
        let (b, s) := readB core.val i s
        goAct core.val (raise 270 (b1 core.val ++ b4 b.toNat) s)) s)) ∧
  -- HALT (R301)
  (∀ (core : Fin 4) (s : State),
    issues core.val 0x3A s = true →
    exec (.weHalt core) s = .next (issued core.val (fun _ s => .done 0 (stopCore core.val) s) s))

/-- Waveform engine events and calls run as their rules say: where a command is due, its own effect, whole, is the next
state. The rule of each command stands above its clause. -/
def Obligations.WaveformCallsRun : Prop :=
  -- WE_IN_RESUME (R316)
  (∀ (core : Fin 4) (s : State),
    ∀ ready,
    nextReady (coreAt s core.val) = some ready →
    (coreAt s core.val).state = .running ∧ (coreAt s core.val).stall = some .input →
    busyState s = true →
    exec (.weInResume core) s = .next (issueNow core.val 0x28 anyForm (inAct core.val) (endStall core.val ready s))) ∧
  -- WE_OUT_RESUME (R332)
  (∀ (core : Fin 4) (s : State),
    (coreAt s core.val).state = .running ∧ (coreAt s core.val).stall = some .output →
    busyState s = true →
    exec (.weOutResume core) s = .next (
      let x := coreAt s core.val
      let ch := (weDecode (tget 0 x.p x.index)).dst % 16
      let free : Int := ((bufferedOuts x ch).getLast?.map (fun o => (o.1 : Int) + 30 + weLatency x)).getD (coreNs x)
      issueNow core.val 0x29 anyForm (outAct core.val) (endStall core.val free s))) ∧
  -- WE_QPUT_RESUME (R335)
  (∀ (core : Fin 4) (s : State),
    (coreAt s core.val).state = .running ∧ (coreAt s core.val).stall = some .qput →
    busyState s = true →
    let f := flushRecords core.val s
    bufferWords (coreAt f core.val) < 512 →
    exec (.weQputResume core) s = .next (issueNow core.val 0x2A anyForm (qputAct core.val) (endStall core.val (sampleOf s.tc.now) f))) ∧
  -- WE_IRQ_LEVEL1 (R325)
  (∀ (core : Fin 4) (s : State),
    let x := coreAt s core.val
    ∀ k,
    irqSource (coreAt (irqReach core.val 1 s) core.val) 1 = some k →
    (decide (x.state = .running ∧ weLevel x ≠ 1) && busyState s) = true →
    exec (.weIrqLevel1 core) s = .next (
      modCore core.val (fun x => { x with
        levels := (1, x.index) :: x.levels, bank := 1, index := 0x1FF8 + k, stall := none }) (irqReach core.val 1 s))) ∧
  -- WE_IRQ_LEVEL2 (R327)
  (∀ (core : Fin 4) (s : State),
    ∀ k,
    irqSource (coreAt (irqReach core.val 2 s) core.val) 2 = some k →
    (decide ((coreAt s core.val).state = .running ∧ weLevel (coreAt s core.val) = 0) && busyState s) = true →
    exec (.weIrqLevel2 core) s = .next (
      let s := passCycles core.val 3 (irqReach core.val 2 s)
      if (coreAt s core.val).state ≠ .running then s
      else modCore core.val (fun x =>
        let r := x.bank0
        { x with
          levels := [(2, x.index)], stall := none, index := 0x1FF8 + k
          saved := some { index := x.index, flags := (r.gap, r.ova, r.sat), sq := r.sq, rotb := r.rotb, loops := r.loops, calls := r.calls }
          bank0 := { r with sq := 1, loops := [], calls := [] } }) s)) ∧
  -- WE_INPUT_SAMPLE (R328)
  (∀ (core : Fin 4) (ch : Fin 16) (g : Nat) (s : State),
    let x := coreAt s core.val
    let c := inChan x ch.val
    let d := 2 ^ c.2.1
    ∀ xs,
    rawGroup s c.1 d g = some xs →
    (busyState s && decide (c.2.2.2 = 1 ∧ (g + 1) % d = 0)) = true →
    exec (.weInputSample core ch g) s = .next (
      let s := reachTick (tickOfSample g) s
      match x.state with
      | .deferred => weStat core.val 2 1 s
      | .running =>
        let q := tget [] x.fifo ch.val
        if 64 ≤ q.length then weFault core.val 4 s
        else
          let (v, s) := drawNat s
          modCore core.val (fun x => { x with
            fifo := tput [] ch.val (q ++ [(decimate c.2.2.1 xs, g, g + 1 + v % 23)]) x.fifo }) s
      | _ => s)) ∧
  -- WE_STATUS (R343)
  (∀ (mb : Fin 8) (p : List Byte) (s : State), Asked mb 0x0600 epdPri 1 p s →
    let x := coreAt s (p8 p 0)
    p8 p 0 < 4 →
    exec (.weStatus mb) s = .next (
      settle mb (
        okBytes (b1 (coreCode x.state) ++ b1 x.fault.1 ++ b2 x.fault.2 ++ b1 (hdr8 x 6)
          ++ b2 x.live.toNat ++ b1 0 ++ b2 (weLatency x)) s))) ∧
  -- WE_LOAD_BEGIN (R305)
  (∀ (mb : Fin 8) (p : List Byte) (s : State), Asked mb 0x0601 pOrD 1 p s →
    let n := p8 p 0
    n < 4 →
    (coreAt s n).state ≠ .running ∧ (coreAt s n).state ≠ .deferred →
    exec (.weLoadBegin mb) s = .next (settle mb (ok (modCore n (fun x => { x with loading := true }) (loseCore n s))))) ∧
  -- WE_LOAD_DATA (R343)
  (∀ (mb : Fin 8) (p : List Byte) (s : State), Asked mb 0x0602 pOrD 8 p s →
    let n := p8 p 0
    let sp := p8 p 1
    let cnt := p16 p 2
    let off := spaceOffset sp (p32 p 4)
    let data := bytesAt p 8 cnt
    n < 4 ∧ sp ≤ 4 ∧ 1 ≤ cnt ∧ cnt ≤ 224 ∧ data.length = cnt ∧ off + cnt ≤ spaceSize sp →
    (coreAt s n).loading = true →
    exec (.weLoadData mb) s = .next (settle mb (ok (modCore n (putBytes sp off data) s)))) ∧
  -- WE_LOAD_END (R339)
  (∀ (mb : Fin 8) (p : List Byte) (s : State), Asked mb 0x0603 pOrD 1 p s →
    let n := p8 p 0
    n < 4 →
    let x := coreAt s n
    x.state = .off ∨ x.state = .stopped ∨ x.state = .fault →
    let r := rejectReason x
    r ≠ 0 →
    exec (.weLoadEnd mb) s = .next (settle mb (okBytes (b1 r) (raise 263 (b1 n) s)))) ∧
  (∀ (mb : Fin 8) (p : List Byte) (s : State), Asked mb 0x0603 pOrD 1 p s →
    let n := p8 p 0
    n < 4 →
    let x := coreAt s n
    x.state = .off ∨ x.state = .stopped ∨ x.state = .fault →
    let r := rejectReason x
    ¬ (r ≠ 0) →
    exec (.weLoadEnd mb) s = .next (settle mb (okBytes (b1 0) (modCore n (fun x => { x with state := .stopped, loading := false }) s)))) ∧
  -- WE_START (R301)
  (∀ (mb : Fin 8) (p : List Byte) (s : State), Asked mb 0x0604 pOrD 1 p s →
    p8 p 0 < 16 →
    exec (.weStart mb) s = .next (
      settle mb (
        ok (forAll (maskList 4 (p8 p 0)) (fun n s =>
          match (coreAt s n).state with
          | .stopped | .fault => startCore n s
          | _ => s) s)))) ∧
  -- WE_STOP (R301)
  (∀ (mb : Fin 8) (p : List Byte) (s : State), Asked mb 0x0605 epdPri 1 p s →
    p8 p 0 < 16 →
    exec (.weStop mb) s = .next (
      settle mb (
        ok (forAll (maskList 4 (p8 p 0)) (fun n s =>
          match (coreAt s n).state with
          | .running | .deferred => stopCore n s
          | _ => s) s)))) ∧
  -- WE_MEM_READ (R343)
  (∀ (mb : Fin 8) (p : List Byte) (s : State), Asked mb 0x0606 pOrD 8 p s →
    let sp := p8 p 1
    let cnt := p16 p 2
    let off := spaceOffset sp (p32 p 4)
    p8 p 0 < 4 ∧ sp ≤ 4 ∧ 1 ≤ cnt ∧ cnt ≤ 224 ∧ off + cnt ≤ spaceSize sp →
    exec (.weMemRead mb) s = .next (settle mb (okBytes ((List.range cnt).flatMap (fun k => b1 (coreByte (coreAt s (p8 p 0)) sp (off + k)))) s))) ∧
  -- WE_PARAM_WRITE (R342)
  (∀ (mb : Fin 8) (p : List Byte) (s : State), Asked mb 0x0607 pOrD 8 p s →
    let n := p8 p 0
    let sp := p8 p 1
    let cnt := p16 p 2
    let off := p32 p 4
    let data := bytesAt p 8 cnt
    n < 4 ∧ 2 ≤ sp ∧ sp ≤ 4 ∧ 1 ≤ cnt ∧ cnt ≤ 224 ∧ data.length = cnt ∧ off + cnt ≤ spaceSize sp →
    exec (.weParamWrite mb) s = .next (
      let t := modCore n (paramWrite sp off data) s
      let d := drawNat t
      settle mb (ok (if (coreAt t n).state = .running then
          weStat n 1 (d.1 % (cnt / 4 + 3)) (modCore n (countCycles (d.1 % (cnt / 4 + 3))) d.2)
        else t)))) ∧
  -- WE_REG_READ (R343)
  (∀ (mb : Fin 8) (p : List Byte) (s : State), Asked mb 0x0608 pOrD 3 p s →
    let x := coreAt s (p8 p 0)
    let r := bankOf x (p8 p 1)
    p8 p 0 < 4 ∧ p8 p 1 ≤ 1 ∧ p8 p 2 ≤ 1 →
    x.state = .stopped ∨ x.state = .fault →
    exec (.weRegRead mb) s = .next (
      settle mb (
        okBytes
          (if p8 p 2 = 0 then (tslice 0 r.v 0 48).flatMap (fun v => b4 v.toNat)
           else (tslice 0 r.g 0 16).flatMap (fun v => b4 v.toNat)) s))) ∧
  -- WE_SIGNAL (R323)
  (∀ (mb : Fin 8) (p : List Byte) (s : State), Asked mb 0x0609 pOrDPri 5 p s →
    p8 p 0 < 4 →
    exec (.weSignal mb) s = .next (
      settle mb (
        ok (modCore (p8 p 0) (fun x => { x with
          hostval := BitVec.ofNat 32 (p32 p 1), ipend := x.ipend ||| 4 }) s)))) ∧
  -- WE_STATS (R344)
  (∀ (mb : Fin 8) (p : List Byte) (s : State), Asked mb 0x060A epd 2 p s →
    let n := p8 p 0
    let x := coreAt s n
    n < 4 →
    exec (.weStats mb) s = .next (
      settle mb (
        okBytes (statBytes 6 x.stats x.statSat ++ (tslice 0 x.late 0 16).flatMap b4)
          (when (decide (p8 p 1 = 1)) (modCore n (fun x => { x with stats := [], late := [], statSat := 0 })) s)))) ∧
  -- WE_PATROL_SCRUB (R305)
  (∀ (core : Fin 4) (space word : Nat) (syndrome : BitVec 16) (ups : List (Nat × Nat)) (s : State),
    (decide ((coreAt s core.val).state ≠ .off ∧ 1 ≤ space ∧ space ≤ 4) && busyState s) = true →
    exec (.wePatrolScrub core space word syndrome ups) s = .next (
      let s := modCore core.val (fun x => { x with upset := x.upset ++ ups }) s
      let x := coreAt s core.val
      let r := if x.poison.contains (space, word) then 3 else if x.upset.contains (space, word) then 4 else checkResult syndrome.toNat
      if r = 0 ∨ r = 3 then s
      else if r = 1 then raise 261 (b1 core.val) s
      else raise 262 (b1 core.val) (modCore core.val (fun x => { x with
        poison := x.poison ++ [(space, word)], upset := x.upset.filter (fun u => decide (u ≠ (space, word))) }) s)))

/-- Burst buffer, memory and compression events and calls run as their rules say: where a command is due, its own effect,
whole, is the next state. The rule of each command stands above its clause. -/
def Obligations.BufferAndCompressionRun : Prop :=
  -- FRAME_CLOSE_TIMEOUT (R354)
  (∀ (q : Fin 16) (source kind : Nat) (s : State),
    ∀ o,
    openFrame s q source kind = some o →
    (queueAt s q).state ≠ 3 ∧ (queueAt s q).state ≠ 4 →
    exec (.frameCloseTimeout q source kind) s = .next (closeFrame q o (reachUp o.closes s))) ∧
  -- DRAIN (R351)
  (∀ (q : Fin 16) (s : State),
    canDrain s q = true →
    exec (.drain q) s = .next (drainQueue q s)) ∧
  -- SPILL (R351)
  (∀ (q : Fin 16) (s : State),
    canSpill s q = true →
    exec (.spill q) s = .next (spillChunk q s)) ∧
  -- REFILL (R351)
  (∀ (q : Fin 16) (ups : List WordUpset) (s : State),
    (s.bb.layer && decide ((queueAt s q).chunks ≠ [] ∧ (queueAt s q).refill + 65536 ≤ (queueAt s q).r + 262144)) = true →
    exec (.refill q ups) s = .next (refillChunk q (upsetWords q (queueAt s q).refill (ups.filter (fun u => decide (u.word < 2048))) s))) ∧
  -- POINTER_CHECK (R362)
  (∀ (q : Fin 16) (upset : Option PointerUpset) (s : State),
    (queueAt s q).state ≠ 3 →
    exec (.pointerCheck q upset) s = .next (
      let s := match upset with
        | some u => modQueue q (fun x => { x with copy := tmod 0 (u.which % 4) (fun b => b ^^^ u.bits % 2 ^ 48) x.copy }) s
        | none => s
      match faultPointer s q with
      | some k => startReset q (raise 321 (b1 q ++ b1 k) s)
      | none => s)) ∧
  -- QUEUE_RESET_COMPLETE (R364)
  (∀ (q : Fin 16) (s : State),
    (queueAt s q).state = 3 →
    exec (.queueResetComplete q) s = .next (abortScrubs (fun k => decide (k = q.val)) (finishReset q s))) ∧
  -- SCRUB_LINE_VISIT (R377)
  (∀ (line : Nat) (upset : Option LineUpset) (s : State),
    let range := (rangeJob s line).isSome
    (s.bb.layer && !s.bb.selfRefresh && awake s && tget false s.bb.valid (line / 128)
      && (range || (decide (cfg16 s 0x0703 0 ≠ 0 ∧ patrolLine s = some line) && !lowDeferred s))) = true →
    exec (.scrubLineVisit line upset) s = .next (
      let s := if range then s else
        let s := reachUp (patrolDue s) s
        onBb (fun x => { x with patrolAt := s.up }) s
      let s := if range || s.bb.patrol.start ≠ 0 then s else beginPass s
      let s := if !range && decide (line < s.bb.patrolNext) then endPass s else s
      let s := scrubVisit line upset s
      if !range && (nextValid s ((s.bb.patrolNext) / 128)).isNone then endPass s else s)) ∧
  -- SRAM_SCRUB (R376)
  (∀ (found : List SramUpset) (s : State),
    awake s = true →
    exec (.sramScrub found) s = .next (
      let s := reachUp (s.bb.sramAt + ms (1000 * cfg8 s 0x0703 2)) s
      forAll found sramWord (onBb (fun x => { x with sramAt := s.up }) s))) ∧
  -- BB_STATUS (R357)
  (∀ (mb : Fin 8) (p : List Byte) (s : State), Asked mb 0x0700 epdPri 1 p s →
    p8 p 0 < 16 →
    exec (.bbStatus mb) s = .next (
      let x := queueAt s (p8 p 0)
      settle mb (
        okBytes (b4 (qstat s (p8 p 0)) ++ b4 (fill x / 1024) ++ b4 (capacity s (p8 p 0) / 1024) ++ b2 x.chunks.length ++ [0, 0] ++
          stampBytes ((x.frames.head?.map (·.base)).getD 0)) s))) ∧
  -- BB_QUEUE_MAP_SET (R390)
  (∀ (mb : Fin 8) (p : List Byte) (s : State), Asked mb 0x0701 epd 12 p s →
    let q := p8 p 0
    let e := mapEntry (bytesAt p 4 8)
    (decide (q < 16) && mapChangeOk s q e) = true →
    exec (.bbQueueMapSet mb) s = .next (
      let t := s.tc.now + 400
      settle mb (
        okBytes (stampBytes t) (onBb (fun x => { x with
          mapPending := x.mapPending.filter (fun m => decide (m.1 ≠ q)) ++ [(q, e, t)] }) s)))) ∧
  -- BB_QUEUE_MAP_GET (R389)
  (∀ (mb : Fin 8) (p : List Byte) (s : State), Asked mb 0x0702 epd 0 p s →
    exec (.bbQueueMapGet mb) s = .next (settle mb (okBytes ((List.range 16).flatMap (fun q => mapBytes (mapOf s q))) s))) ∧
  -- BB_REGION_SET (R391)
  (∀ (mb : Fin 8) (p : List Byte) (s : State), Asked mb 0x0703 epd 32 p s →
    regionsOk p = true →
    let sizes := regionSizes p
    resizeFree s sizes = true →
    resizeSpares s sizes = true →
    exec (.bbRegionSet mb) s = .next (
      let t := resize sizes s
      settle mb (ok (abortScrubs (fun q => decide (regionStart t q ≠ regionStart s q ∨ regionUnits t q ≠ regionUnits s q)) t)))) ∧
  -- BB_REGION_GET (R389)
  (∀ (mb : Fin 8) (p : List Byte) (s : State), Asked mb 0x0704 epd 0 p s →
    exec (.bbRegionGet mb) s = .next (
      settle mb (
        okBytes ((List.range 16).flatMap (fun q =>
          b2 (regionUnits s q) ++ b2 (spareBudget s q) ++ b2 (remappedIn s q) ++ b2 (retiredIn s q))) s))) ∧
  -- BB_HOLD_OUTPUT (R356)
  (∀ (mb : Fin 8) (p : List Byte) (s : State), Asked mb 0x0705 epdPri 4 p s →
    exec (.bbHoldOutput mb) s = .next (
      let s := forAll (List.range 16) (fun q => modQueue q (fun x => { x with
        hostHold := (x.hostHold || bit (p16 p 0) q) && !bit (p16 p 2) q })) s
      settle mb (okBytes (b2 (maskOf 16 (fun q => (queueAt s q).hostHold))) (updateQueues s)))) ∧
  -- BB_FLUSH (R704)
  (∀ (mb : Fin 8) (p : List Byte) (s : State), Asked mb 0x0706 epd 2 p s →
    exec (.bbFlush mb) s = .next (
      let qs := (maskList 16 (p16 p 0)).filter (fun q => decide ((queueAt s q).state ≠ 3))
      settle mb (okBytes (b4 (min stat32 (total (qs.map (flushCount s))))) (forAll qs flushQueue s)))) ∧
  -- BB_RESET (R364)
  (∀ (mb : Fin 8) (p : List Byte) (s : State), Asked mb 0x0707 epd 1 p s →
    p8 p 0 < 16 →
    exec (.bbReset mb) s = .next (settle mb (ok (abortScrubs (fun q => decide (q = p8 p 0)) (startReset (p8 p 0) s))))) ∧
  -- BB_PEEK (R358)
  (∀ (mb : Fin 8) (p : List Byte) (s : State), Asked mb 0x0708 epd 4 p s →
    p8 p 0 < 16 →
    exec (.bbPeek mb) s = .next (
      settle mb (
        okBytes (match (queueAt s (p8 p 0)).frames with
          | f :: _ => [0, 0, 0, 0] ++ descriptor f ++ bytesAt (deliver f (frameErrs (queueAt s (p8 p 0)) f)) (p16 p 2) 192
          | [] => [1, 0, 0, 0]) s))) ∧
  -- BB_STATS (R389)
  (∀ (mb : Fin 8) (p : List Byte) (s : State), Asked mb 0x0709 epd 2 p s →
    p8 p 0 < 16 →
    exec (.bbStats mb) s = .next (
      settle mb (
        okBytes (statBytes 12 (queueAt s (p8 p 0)).stats (queueAt s (p8 p 0)).statSat)
          (when (decide (p8 p 1 = 1)) (modQueue (p8 p 0) (fun x => { x with stats := [], statSat := 0 })) s)))) ∧
  -- MEM_STATUS (R389)
  (∀ (mb : Fin 8) (p : List Byte) (s : State), Asked mb 0x070A epdPri 0 p s →
    exec (.memStatus mb) s = .next (
      settle mb (
        okBytes
          (b1 s.bb.training ++ b1 (if cfg16 s 0x0703 0 = 0 then 0 else if lowDeferred s then 2 else 1) ++ b2 s.bb.trainedMask.toNat ++
            b4 (s.bb.valid.filter (·.2)).length ++ b2 s.bb.remap.length ++ b2 s.bb.retired.length ++ b2 (4096 - s.bb.remap.length) ++
            b2 s.bb.watch.length ++ b4 s.bb.passes) s))) ∧
  -- MEM_SCRUB_CONFIG (R376)
  (∀ (mb : Fin 8) (p : List Byte) (s : State), Asked mb 0x070B epd 3 p s →
    patrolOk p = true →
    exec (.memScrubConfig mb) s = .next (settle mb (ok (setCfg 0x0703 (p.take 3) s)))) ∧
  -- MEM_SCRUB_RANGE (R380)
  (∀ (mb : Fin 8) (p : List Byte) (s : State), Asked mb 0x070C epd 12 p s →
    let r := p8 p 0
    let size := if r < 16 then regionPages s r else 2097152
    (r < 16 ∨ r = 0xFF) ∧ p32 p 4 < size ∧ p32 p 4 + p32 p 8 ≤ size →
    lowDeferred s = false →
    s.sys.jobs.length < 8 →
    exec (.memScrubRange mb) s = .next (settle mb (okBytes (b2 s.sys.nextJob) (scrubBegin s.sys.nextJob (addJob 0x070C (p.take 12) 1 0 s).2)))) ∧
  -- MEM_SCRUB_SUMMARY (R381)
  (∀ (mb : Fin 8) (p : List Byte) (s : State), Asked mb 0x070D epd 2 p s →
    p16 p 0 = 0xFFFF →
    ∀ x,
    s.bb.lastPatrol = some x →
    exec (.memScrubSummary mb) s = .next (settle mb (okBytes (summaryBytes x) s))) ∧
  (∀ (mb : Fin 8) (p : List Byte) (s : State), Asked mb 0x070D epd 2 p s →
    ¬ (p16 p 0 = 0xFFFF) →
    ∀ x,
    tget none s.bb.ranges (p16 p 0) = some x →
    exec (.memScrubSummary mb) s = .next (settle mb (okBytes (summaryBytes x) s))) ∧
  -- MEM_DEFECT_READ (R385)
  (∀ (mb : Fin 8) (p : List Byte) (s : State), Asked mb 0x070E epd 2 p s →
    exec (.memDefectRead mb) s = .next (settle mb (okBytes (b2 (defects s).length ++ (((defects s).drop (p16 p 0)).take 58).flatMap b4) s))) ∧
  -- MEM_CHECKER_WRITE (R386)
  (∀ (mb : Fin 8) (p : List Byte) (s : State), Asked mb 0x070F epd 40 p s →
    let target := p8 p 0
    let data := leNat (bytesAt p 8 32)
    let clean := cleanCheck data (p16 p 2)
    (checkerOk target (p16 p 2) && decide (p8 p 1 ≤ 1)) = true →
    target = 0 ∨ (queueAt s (target - 1)).state = 0 →
    exec (.memCheckerWrite mb) s = .next (
      settle mb (
        ok (checkerPut target (p16 p 2) (BitVec.ofNat 256 data,
          BitVec.ofNat 16 (if p8 p 1 = 0 then p16 p 4 ^^^ clean else p16 p 4)) s)))) ∧
  -- MEM_CHECKER_READ (R386)
  (∀ (mb : Fin 8) (p : List Byte) (s : State), Asked mb 0x0710 epd 4 p s →
    (checkerOk (p8 p 0) (p16 p 2) && decide (p8 p 1 ≤ 1)) = true →
    exec (.memCheckerRead mb) s = .next (
      let v := checkerGet s (p8 p 0) (p16 p 2)
      let data := v.1.toNat
      let syn := v.2.toNat
      let r := checkResult syn
      let s := raiseIf (decide (p8 p 1 = 1 ∧ r = 1)) 328 [] (raiseIf (decide (p8 p 1 = 1 ∧ (r = 2 ∨ r = 4))) 329 [] s)
      settle mb (
        okBytes (leBytes 32 data ++ b2 (cleanCheck data (p16 p 2) ^^^ syn) ++ b2 syn ++ b1 r ++ [0, 0, 0] ++
          leBytes 32 (if r = 1 then delivered data syn else data)) s))) ∧
  -- MEM_TRAIN (R349)
  (∀ (mb : Fin 8) (p : List Byte) (s : State), Asked mb 0x0711 epd 0 p s →
    ((List.range 16).all (fun q => decide ((queueAt s q).chunks = []))) = true →
    lowDeferred s = false →
    s.sys.jobs.length < 8 →
    exec (.memTrain mb) s = .next (settle mb (okBytes (b2 s.sys.nextJob) (addJob 0x0711 [] 1 0 s).2))) ∧
  -- CX_UNIT_CODE (R402)
  (∀ (unit : Fin 2) (q : Fin 16) (s : State),
    ∀ f,
    frameReady s q.val = some f →
    let s1 := cxSettle q.val f (reachUp (divUp (tget 0 s.cx.freeAt unit.val) 55) s)
    ¬ (!serves s1 unit.val q.val) →
    let s2 := when (decide (s1.sys.power = .easy)) (onCx (fun x => { x with awake := true })) s1
    ∀ s3,
    takeFrame q.val f s2 = (none, s3) →
    exec (.cxUnitCode unit q) s = .next (s3)) ∧
  (∀ (unit : Fin 2) (q : Fin 16) (s : State),
    ∀ f,
    frameReady s q.val = some f →
    let s1 := cxSettle q.val f (reachUp (divUp (tget 0 s.cx.freeAt unit.val) 55) s)
    ¬ (!serves s1 unit.val q.val) →
    let s2 := when (decide (s1.sys.power = .easy)) (onCx (fun x => { x with awake := true })) s1
    ∀ g poison s3,
    takeFrame q.val f s2 = (some (g, poison), s3) →
    let s4 := codeFrame q.val unit.val g poison s3
    bufsFit s4 unit.val = true →
    exec (.cxUnitCode unit q) s = .next (s4)) ∧
  -- CX_BUFFER_CLOSE_TIMEOUT (R403)
  (∀ (unit : Fin 2) (q : Fin 16) (s : State),
    ∀ b,
    openBuf (unitBufs s unit.val) q.val = some b →
    awake s = true →
    exec (.cxBufferCloseTimeout unit q) s = .next (modBufs unit.val (closeBuf q.val) (reachUp b.closes s))) ∧
  -- CX_IDLE_GATE (R417)
  (∀ (s : State),
    (decide (s.sys.power = .easy) && s.cx.awake) = true →
    exec (.cxIdleGate) s = .next (    onCx (fun x => { x with awake := false }) (reachUp (max (tget 0 s.cx.workAt 0) (tget 0 s.cx.workAt 1) + ms 1) s))) ∧
  -- CX_STATUS (R421)
  (∀ (mb : Fin 8) (p : List Byte) (s : State), Asked mb 0x0800 epdPri 1 p s →
    let u := p8 p 0
    let w := (tget [] s.cx.work u).filter (fun e => decide (s.up < e.1 + ms 1000))
    u ≤ 1 →
    exec (.cxStatus mb) s = .next (
      settle mb (
        okBytes (b1 (cxState s u) ++ b1 (64 - (unitBufs s u).length)
          ++ b2 (maskOf 16 (fun q => compressing s q && decide ((cxConf s q).2.1 = u)))
          ++ b4 (min stat32 ((w.map (·.2.1)).foldl (· + ·) 0)) ++ b4 (min stat32 ((w.map (·.2.2)).foldl (· + ·) 0))) s))) ∧
  -- CX_QUEUE_CONFIG (R419)
  (∀ (mb : Fin 8) (p : List Byte) (s : State), Asked mb 0x0801 epd 5 p s →
    let c := cxEntry (p.drop 1)
    (decide (p8 p 0 < 16) && cxEntryOk c) = true →
    exec (.cxQueueConfig mb) s = .next (settle mb (ok (modCxq (p8 p 0) (fun x => { x with pending := some (c, s.tc.now + 400) }) s)))) ∧
  -- CX_QUEUE_GET (R421)
  (∀ (mb : Fin 8) (p : List Byte) (s : State), Asked mb 0x0802 epd 0 p s →
    exec (.cxQueueGet mb) s = .next (settle mb (okBytes ((List.range 16).flatMap (fun q => cxConfBytes (cxConf s q))) s))) ∧
  -- CX_CHAIN_READ (R406)
  (∀ (mb : Fin 8) (p : List Byte) (s : State), Asked mb 0x0803 epd 3 p s →
    p8 p 0 ≤ 1 ∧ 1 ≤ p8 p 2 ∧ p8 p 2 ≤ 7 ∧ p8 p 1 + p8 p 2 ≤ 64 →
    exec (.cxChainRead mb) s = .next (
      settle mb (
        okBytes
          ((List.range (p8 p 2)).flatMap (fun k => bufDescriptor (unitBufs s (p8 p 0)) (p8 p 1 + k))) s))) ∧
  -- CX_STATS (R421)
  (∀ (mb : Fin 8) (p : List Byte) (s : State), Asked mb 0x0804 epd 2 p s →
    let q := p8 p 0
    q < 16 →
    exec (.cxStats mb) s = .next (
      settle mb (
        okBytes (statBytes 14 (cxqAt s q).stats (cxqAt s q).statSat)
          (when (decide (p8 p 1 = 1)) (modCxq q (fun x => { x with stats := [], statSat := 0 })) s)))) ∧
  -- CX_CODE_TEST (R422)
  (∀ (mb : Fin 8) (p : List Byte) (s : State), Asked mb 0x0805 epd 4 p s →
    let n := p16 p 2
    let vs := (List.range n).map (fun i => u16At p (4 + 2 * i))
    p8 p 0 ≤ 3 ∧ 1 ≤ p8 p 1 ∧ p8 p 1 ≤ 64 ∧ 1 ≤ n ∧ n ≤ 48 ∧ 4 + 2 * n ≤ p.length →
    exec (.cxCodeTest mb) s = .next (
      let cs := codesOf 17 (blockResidues (p8 p 0) (p8 p 1) 48 none vs)
      settle mb (okBytes (b2 (codeBits cs) ++ b1 (p8 p 0) ++ b1 0 ++ packCodes cs) s))) ∧
  -- MEM_LAYER_IDLE_SELF_REFRESH (R513)
  (∀ (s : State),
    (decide (s.sys.power = .easy) && s.bb.layer && !s.bb.selfRefresh) = true →
    exec (.memLayerIdleSelfRefresh) s = .next (onBb (fun x => { x with selfRefresh := true }) (reachUp (s.bb.movedAt + ms 1) s))) ∧
  -- CX_STALLED (R407)
  (∀ (unit : Fin 2) (s : State),
    ∀ t,
    tget none s.cx.fullAt unit.val = some t →
    (awake s && decide (64 ≤ (unitBufs s unit.val).length)) = true →
    exec (.cxStalled unit) s = .next (      raise 389 [] (onCx (fun x => { x with fullAt := tput none unit.val none x.fullAt }) (reachUp (t + us 100) s))))

/-- Lane and lane-group events run as the link rules say: where a command is due, its own effect, whole, is the next state.
The rule of each command stands above its clause. -/
def Obligations.LaneEventsRun : Prop :=
  -- LANE_SIGNAL_DETECT (R430)
  (∀ (lane : Fin 16) (s : State),
    (nativeLane s lane && laneIn s lane .detect) = true →
    exec (.laneSignalDetect lane) s = .next (
      let s := reachUp ((laneAt s lane).since + us 100) s
      toRate lane (candidate s lane) s)) ∧
  -- LANE_BLOCK_LOCK (R428)
  (∀ (lane : Fin 20) (s : State),
    exec (.laneBlockLock lane) s = .next (
      if 16 ≤ lane.val then
        let sd := lane.val - 16
        when (decide ((slinkAt s sd).state = 1)) (modSlink sd (fun x => { x with state := 2, hello := (0, 0) })) s
      else
        let l := lane.val
        match (laneAt s l).state with
        | .disabled | .detect | .txOff | .test => s
        | _ =>
          let s := modLane l (fun x => { x with lock := true }) s
          ethCheck (groupOfLane l) (tryFec l s))) ∧
  -- LANE_LOCK_LOST (R436)
  (∀ (lane : Fin 20) (s : State),
    exec (.laneLockLost lane) s = .next (
      if 16 ≤ lane.val then
        let sd := lane.val - 16
        when (decide (2 ≤ (slinkAt s sd).state)) (slDown sd 1) s
      else
        let l := lane.val
        if !(laneAt s l).lock then s
        else
          let s := modLane l (fun x => { x with
            lock := false, counts := tmod 0 2 (satAdd stat32 1) x.counts
            markers := if x.state = .eth then (0, 0) else x.markers }) s
          let s := when (decide (l = 0)) (freqLost 3) s
          let g := groupOfLane l
          when ((usedLanes s g).contains l) (groupDown g) s)) ∧
  -- NEG_ADV_RX (R430)
  (∀ (lane : Fin 16) (v : BitVec 16) (s : State),
    (nativeLane s lane && laneIn s lane .rate) = true →
    exec (.negAdvRx lane v) s = .next (tryFec lane (noteNeg lane 1 v.toNat s))) ∧
  -- NEG_FEC_RX (R431)
  (∀ (lane : Fin 16) (v : BitVec 16) (s : State),
    (nativeLane s lane && laneIn s lane .fec) = true →
    exec (.negFecRx lane v) s = .next (
      let s := noteNeg lane 2 v.toNat s
      match fecResult (fecOffer s (groupOfLane lane) (laneAt s lane).rate) (bit v.toNat 0, bit v.toNat 1) with
      | some on => enterLane lane (fun x => { x with state := .group, fecOn := on, neg := (0, 0, 0) }) s
      | none => s)) ∧
  -- NEG_GROUP_RX (R432)
  (∀ (lane : Fin 16) (v : BitVec 16) (s : State),
    (nativeLane s lane && laneIn s lane .group) = true →
    exec (.negGroupRx lane v) s = .next (
      let g := groupOfLane lane
      let s := noteNeg lane 3 v.toNat s
      let all := decide (groupReady s g = freeLanes s g) && (groupAt s g).fixed.isNone
      tryAlign g (when all (fixWidth g) s))) ∧
  -- NEG_MAP_RX (R430)
  (∀ (lane : Fin 16) (v : BitVec 16) (s : State),
    (nativeLane s lane && laneIn s lane .map) = true →
    exec (.negMapRx lane v) s = .next (
      let g := groupOfLane lane
      let s := modLane lane (fun x => { x with ready := true }) (noteNeg lane 4 v.toNat s)
      let old := (groupAt s g).classes
      let new := old &&& BitVec.ofNat 4 v.toNat
      raiseIf (decide (new ≠ old)) 401 [] (modGroup g (fun x => { x with classes := new }) s))) ∧
  -- NEG_READY_RX (R430)
  (∀ (lane : Fin 16) (s : State),
    (nativeLane s lane && laneIn s lane .map) = true →
    exec (.negReadyRx lane) s = .next (laneRunning lane (noteNeg lane 5 0 s))) ∧
  -- NEG_RATE_REQ_RX (R437)
  (∀ (lane : Fin 16) (v : BitVec 16) (s : State),
    let g := groupOfLane lane
    (nativeLane s lane && (groupAt s g).running && laneIn s lane .running) = true →
    exec (.negRateReqRx lane v) s = .next (
      let code := v.toNat % 4
      let yes := acceptsRate s g code
      let s := modLane lane (fun x => { x with ack := some yes }) s
      if yes then rateAgreed g code s else s)) ∧
  -- NEG_RATE_ACK_RX (R437)
  (∀ (lane : Fin 16) (v : BitVec 16) (s : State),
    let g := groupOfLane lane
    (nativeLane s lane && (groupAt s g).running && (groupAt s g).rateReq.isSome) = true →
    exec (.negRateAckRx lane v) s = .next (
      let s := noteNeg lane 7 v.toNat s
      if !matching s lane then s
      else match (groupAt s g).rateReq with
        | some (code, _) => if bit v.toNat 0 then rateAnswer g 0 (rateAgreed g code s) else rateAnswer g 1 s
        | none => s)) ∧
  -- ALIGN_MARKER_RX (R435)
  (∀ (lane : Fin 16) (d : BitVec 24) (skew : Int) (s : State),
    (laneIn s lane .align || laneIn s lane .running || laneIn s lane .eth) = true →
    exec (.alignMarkerRx lane d skew) s = .next (
      let g := groupOfLane lane
      let x := laneAt s lane
      let count := d.toNat % 256
      let width := if (groupAt s g).width = 4 then 3 else (groupAt s g).width
      let good := decide (x.state = .eth) ||
        decide (field d.toNat 23 20 = x.logical ∧ field d.toNat 19 18 = width ∧ field d.toNat 17 16 = 0)
      let n := if !good then 0 else if x.markers.1 = 0 ∨ count = (x.markers.2 + 1) % 256 then min 3 (x.markers.1 + 1) else 1
      let s := modLane lane (fun x => { x with markers := (n, count), skew := skew, missed := if good then 0 else x.missed }) s
      match x.state with
      | .align => tryMap g s
      | .eth => ethCheck g s
      | _ => s)) ∧
  -- ALIGN_MARKER_SEND (R434)
  (∀ (g : Fin 4) (s : State),
    groupMode s g = 1 ∧ usedLanes s g ≠ [] →
    exec (.alignMarkerSend g) s = .next (
      let s := reachUp ((groupAt s g).markerAt + blockTime (groupAt s g).rate 16384) s
      let s := putOnAll g (markerBlock s g) s
      modGroup g (fun x => { x with marker := (x.marker + 1) % 256, markerAt := s.up }) s)) ∧
  -- MARKER_MISSED (R436)
  (∀ (lane : Fin 16) (s : State),
    laneIn s lane .running = true →
    exec (.markerMissed lane) s = .next (
      let s := modLane lane (fun x => { x with missed := x.missed + 1 }) s
      when (decide (2 ≤ (laneAt s lane).missed)) (groupDown (groupOfLane lane)) s)) ∧
  -- FEC_CODEWORD_UNCORRECTABLE (R436)
  (∀ (lane : Fin 16) (s : State),
    (laneAt s lane).fecOn = true →
    exec (.fecCodewordUncorrectable lane) s = .next (
      let s := modLane lane (fun x => { x with
        counts := tmod 0 1 (satAdd stat32 1) x.counts
        bad := s.up :: x.bad.filter (fun t => decide (s.up < t + ms 1)) }) s
      let s := raise 398 [] s
      when (decide (16 < (laneAt s lane).bad.length) && (usedLanes s (groupOfLane lane)).contains lane.val) (groupDown (groupOfLane lane)) s)) ∧
  -- LANE_RATE_DWELL_TIMEOUT (R430)
  (∀ (lane : Fin 16) (s : State),
    laneIn s lane .rate = true →
    exec (.laneRateDwellTimeout lane) s = .next (stepDown lane (reachUp ((laneAt s lane).since + ms 20) s))) ∧
  -- LANE_TX_OFF_END (R430)
  (∀ (lane : Fin 16) (s : State),
    laneIn s lane .txOff = true →
    exec (.laneTxOffEnd lane) s = .next (toDetect lane (reachUp ((laneAt s lane).since + ms 1) s))) ∧
  -- LANE_FEC_TIMEOUT (R430)
  (∀ (lane : Fin 16) (s : State),
    laneIn s lane .fec = true →
    exec (.laneFecTimeout lane) s = .next (stepDown lane (reachUp ((laneAt s lane).since + ms 2) s))) ∧
  -- GROUP_TIMEOUT (R430)
  (∀ (g : Fin 4) (s : State),
    let ls := (groupLanes g).filter (fun l => laneIn s l .group)
    (decide (groupMode s g = 1 ∧ ls ≠ []) && !(groupAt s g).running) = true →
    exec (.groupTimeout g) s = .next (tryAlign g (fixWidth g (reachUp (firstSince s ls + ms 10) s)))) ∧
  -- ALIGN_TIMEOUT (R430)
  (∀ (g : Fin 4) (s : State),
    let ls := usedLanes s g
    (ls.any (fun l => laneIn s l .align)) = true →
    exec (.alignTimeout g) s = .next (
      let s := reachUp (firstSince s (ls.filter (fun l => laneIn s l .align)) + ms 2) s
      let late := ls.filter (lateLane s ls)
      let r := (groupAt s g).rate
      let s := regroup g s
      let s := forAll late (fun l s => toRate l r (modLane l (fun x => { x with top := some r }) s)) s
      raise 400 [] s)) ∧
  -- MAP_TIMEOUT (R430)
  (∀ (g : Fin 4) (s : State),
    let ls := (usedLanes s g).filter (fun l => laneIn s l .map && !(laneAt s l).ready)
    ls ≠ [] →
    exec (.mapTimeout g) s = .next (    forAll ls (fun l s => laneRunning l (modLane l (fun x => { x with ready := true }) s)) (reachUp (firstSince s ls + ms 2) s))) ∧
  -- RATE_REQ_TIMEOUT (R437)
  (∀ (g : Fin 4) (s : State),
    ((groupAt s g).rateReq.isSome) = true →
    exec (.rateReqTimeout g) s = .next (rateAnswer g 2 (reachUp ((groupAt s g).reqAt + us 100) s))) ∧
  -- REGROUP_TIMEOUT (R436)
  (∀ (lane : Fin 16) (s : State),
    laneIn s lane .group = true →
    exec (.regroupTimeout lane) s = .next (toDetect lane (reachUp ((laneAt s lane).since + ms 10) s)))

/-- Packet, Ethernet, side-link and test-pattern events run as the link rules say: where a command is due, its own effect,
whole, is the next state. The rule of each command stands above its clause. -/
def Obligations.PacketEventsRun : Prop :=
  -- PACKET_SEND (R444)
  (∀ (g : Fin 4) (out : WordCheck) (ups : List WordUpset) (s : State),
    (!s.sys.por) = true →
    exec (.packetSend g out ups) s = .next (
      let s := sendSide g s
      if !(groupAt s g).running || decide ((groupAt s g).pause ≠ 0) then s
      else if (holder s g).isNone then raise 407 [] (lkStat g 7 1 s)
      else if (server s g).isNone then s
      else sendNext g out ups s)) ∧
  -- RX_PACKET_BAD (R443)
  (∀ (g : Fin 4) (s : State),
    (groupAt s g).running = true →
    exec (.rxPacketBad g) s = .next (raise 406 [] (lkStat g 5 1 s))) ∧
  -- RX_RESERVED_STREAM (R442)
  (∀ (g : Fin 4) (stream : Nat) (s : State),
    ((groupAt s g).running && decide (24 ≤ stream ∧ stream < 32)) = true →
    exec (.rxReservedStream g stream) s = .next (ethCount g 1 s)) ∧
  -- NAK_RX (R455)
  (∀ (g : Fin 4) (payload : List Byte) (s : State),
    (groupAt s g).running = true →
    exec (.nakRx g payload) s = .next (
      let s := ethCount g 1 s
      match nakEntries payload with
      | none => raise 417 [] s
      | some es =>
        let ps := nakPackets es
        let s := raise 404 [] (lkStat g 2 1 s)
        let gone := ps.filter (fun e => (windowGroup s e).isNone)
        let s := forAll ps (fun e s => match windowGroup s e with
          | some h => modGroup h (fun x =>
              if x.running then { x with resend := x.resend ++ [e] } else { x with nakWait := x.nakWait ++ [(e.1, e.2, g.val, s.up)] }) s
          | none => s) s
        reportGone g gone s)) ∧
  -- NAK_GROUP_WAIT_EXPIRY (R455)
  (∀ (g : Fin 4) (s : State),
    ∀ w r1,
    (groupAt s g).nakWait = w :: r1 →
    (!(groupAt s g).running) = true →
    exec (.nakGroupWaitExpiry g) s = .next (
      let s := reachUp (w.2.2.2 + ms 1) s
      let due (w : Nat × Nat × Nat × Nat) : Bool := decide (w.2.2.2 + ms 1 ≤ s.up)
      let ws := (groupAt s g).nakWait.filter due
      let s := modGroup g (fun x => { x with nakWait := x.nakWait.filter (fun w => !due w) }) s
      forAll (List.range 4) (fun h => reportGone h ((ws.filter (fun w => decide (w.2.2.1 = h))).map (fun w => (w.1, w.2.1)))) s)) ∧
  -- TAIL_SEND (R456)
  (∀ (g : Fin 4) (s : State),
    (groupAt s g).running = true →
    exec (.tailSend g) s = .next (
      let s := reachUp ((groupAt s g).tailAt + us (cfg16 s 0x0905 2)) s
      modGroup g (fun x => { x with
        out := x.out ++ [(1, 23, 0x17, x.tail.flatMap (fun e => match e.2 with
          | some q => b1 e.1 ++ b1 0 ++ b2 q
          | none => []))]
        tail := [], tailAt := s.up }) s)) ∧
  -- ARP_REQUEST_RX (R465)
  (∀ (g : Fin 4) (targetIp : Word) (senderMac : BitVec 48) (senderIp : Word) (s : State),
    groupMode s g = 2 →
    exec (.arpRequestRx g targetIp senderMac senderIp) s = .next (
      let s := ethCount g 1 s
      if targetIp.toNat = ownIp s g then
        ethCount g 0 (modGroup g (fun x => { x with
          arp := arpFrame s g 2 (leBytes 6 senderMac.toNat) (leBytes 6 senderMac.toNat) senderIp.toNat :: x.arp }) s)
      else s)) ∧
  -- ARP_REPLY_RX (R465)
  (∀ (g : Fin 4) (senderIp : Word) (mac : BitVec 48) (s : State),
    groupMode s g = 2 →
    exec (.arpReplyRx g senderIp mac) s = .next (
      let s := ethCount g 1 s
      if senderIp.toNat = destIp s g ∧ (staticMac s g).isNone then ethCheck g (modGroup g (fun x => { x with mac := some mac }) s)
      else s)) ∧
  -- ARP_RETRY (R465)
  (∀ (g : Fin 4) (s : State),
    (decide (groupMode s g = 2) && (staticMac s g).isNone) = true →
    exec (.arpRetry g) s = .next (
      let s := reachUp ((groupAt s g).arpAt + ms (if (groupAt s g).mac.isSome then 60000 else 1000)) s
      ethCount g 0 (modGroup g (fun x => { x with
        arp := arpFrame s g 1 (List.replicate 6 0xFF) (List.replicate 6 0) (destIp s g) :: x.arp, arpAt := s.up }) s))) ∧
  -- ARP_FAIL_TIMEOUT (R465)
  (∀ (g : Fin 4) (s : State),
    (decide (groupMode s g = 2) && (groupAt s g).mac.isNone) = true →
    exec (.arpFailTimeout g) s = .next (    raise 411 [] (reachUp ((groupAt s g).lostAt + ms 5000) s))) ∧
  -- PAUSE_RX (R466)
  (∀ (g : Fin 4) (quanta : BitVec 16) (s : State),
    groupMode s g = 2 →
    exec (.pauseRx g quanta) s = .next (
      let was := (groupAt s g).pause
      let s := modGroup g (fun x => { x with pause := quanta.toNat, pauseAt := s.up }) (ethCount g 1 s)
      if was = 0 ∧ quanta.toNat ≠ 0 then raise 410 [] (ethCount g 3 s) else s)) ∧
  -- PAUSE_EXPIRY (R466)
  (∀ (g : Fin 4) (s : State),
    (groupAt s g).pause ≠ 0 →
    exec (.pauseExpiry g) s = .next (    modGroup g (fun x => { x with pause := 0 }) (reachUp ((groupAt s g).pauseAt + divUp (512 * (groupAt s g).pause) 2500) s))) ∧
  -- ETH_FRAME_DISCARD (R464)
  (∀ (g : Fin 4) (s : State),
    groupMode s g = 2 →
    exec (.ethFrameDiscard g) s = .next (ethCount g 2 s)) ∧
  -- SL_HELLO_RX (R470)
  (∀ (side : Fin 4) (v : BitVec 16) (s : State),
    2 ≤ (slinkAt s side).state →
    exec (.slHelloRx side v) s = .next (
      let s := modSlink side (fun x => { x with
        state := max 3 x.state, heardAt := s.up, hello := (v.toNat, if x.hello.1 = v.toNat then min 2 (x.hello.2 + 1) else 1) }) s
      if (slinkAt s side).hello.2 < 2 then s
      else if helloAccepted s side v.toNat then slUp side v.toNat s else slRefuse side s)) ∧
  -- SL_HELLO_SEND (R470)
  (∀ (side : Fin 4) (s : State),
    (slinkAt s side).state = 4 →
    exec (.slHelloSend side) s = .next (
      let s := reachUp ((slinkAt s side).helloAt + ms 1) s
      modSlink side (fun x => { x with
        helloAt := s.up, wire := orderedSet 0xA (negBits 8 0 (helloValue s side)) :: x.wire, lastLen := 0 }) s)) ∧
  -- SL_HELLO_TIMEOUT (R470)
  (∀ (side : Fin 4) (s : State),
    3 ≤ (slinkAt s side).state →
    exec (.slHelloTimeout side) s = .next (
      let s := reachUp ((slinkAt s side).heardAt + ms 3) s
      slDown side 1 (modSlink side (fun x => { x with counts := tmod 0 3 (satAdd stat32 1) x.counts }) s))) ∧
  -- PRBS_CHECKER_LOCK (R460)
  (∀ (lane : Fin 16) (rx : BitVec 1024) (s : State),
    let x := laneAt s lane
    (laneIn s lane .test && !x.prbsLock && prbsFollows x.prbs.1 x.prbs.2 rx) = true →
    exec (.prbsCheckerLock lane rx) s = .next (    modLane lane (fun x => { x with prbsLock := true, prbsAt := s.up }) s)) ∧
  -- PRBS_LOCK_LOST (R460)
  (∀ (lane : Fin 16) (errors : Nat) (bad : BitVec 1024) (s : State),
    (laneIn s lane .test && (laneAt s lane).prbsLock && decide (256 ≤ onesOf bad.toNat 1024)) = true →
    exec (.prbsLockLost lane errors bad) s = .next (
      let bits := laneBits (laneAt s lane).rate (s.up - (laneAt s lane).prbsAt)
      let errors := max (onesOf bad.toNat 1024) errors
      raise 409 [] (modLane lane (fun x => { x with
        prbsLock := false
        prbsCount := (x.prbsCount.1 + bits, min stat32 (x.prbsCount.2.1 + errors), min stat32 (x.prbsCount.2.2 + 1)) }) s)))

/-- Link calls run as their rules say: where a command is due, its own effect, whole, is the next state. The rule of each
command stands above its clause. -/
def Obligations.LinkCallsRun : Prop :=
  -- LK_STATUS (R474)
  (∀ (mb : Fin 8) (p : List Byte) (s : State), Asked mb 0x0900 epdPri 1 p s →
    p8 p 0 < 4 →
    exec (.lkStatus mb) s = .next (
      let g := p8 p 0
      let x := groupAt s g
      let h := match holder s g with
        | some h => h.code
        | none => 2
      let rate := ((x.rateBytes.filter (fun e => decide (s.up < e.1 + ms 1000))).map (·.2)).foldl (· + ·) 0
      settle mb (okBytes (b1 (groupByte s g) ++ b1 x.lanes.toNat ++ b1 x.classes.toNat ++ b1 h ++ b4 (min stat32 rate)) s))) ∧
  -- LK_LANE_STATUS (R474)
  (∀ (mb : Fin 8) (p : List Byte) (s : State), Asked mb 0x0901 epd 1 p s →
    p8 p 0 < 16 →
    exec (.lkLaneStatus mb) s = .next (
      let s := fecCatchUp (p8 p 0) s
      let x := laneAt s (p8 p 0)
      settle mb (
        okBytes (b1 (laneCode x.state) ++ b1 x.rate ++ b1 x.logical ++ [0] ++ b2 (unsigned 16 x.skew) ++ [0, 0]
          ++ (tslice 0 x.counts 0 3).flatMap b4) s))) ∧
  -- LK_CONFIG (R474)
  (∀ (mb : Fin 8) (p : List Byte) (s : State), Asked mb 0x0902 epd 9 p s →
    let v := bytesAt p 1 8
    (decide (p8 p 0 < 4) && laneEntryOk v) = true →
    exec (.lkConfig mb) s = .next (
      let g := p8 p 0
      let s := groupDown g s
      settle mb (ok (resolveMac g (restartGroup g (setCfgEntry 0x0901 8 g v s)))))) ∧
  -- LK_RENEGOTIATE (R474)
  (∀ (mb : Fin 8) (p : List Byte) (s : State), Asked mb 0x0903 epd 1 p s →
    p8 p 0 < 16 →
    exec (.lkRenegotiate mb) s = .next (settle mb (ok (forAll (maskList 4 (p8 p 0)) (fun g s => ethCheck g (restartGroup g s)) s)))) ∧
  -- LK_RATE_SET (R437)
  (∀ (mb : Fin 8) (p : List Byte) (s : State), Asked mb 0x0904 pOrD 2 p s →
    p8 p 0 < 4 ∧ p8 p 1 ≤ 3 →
    ((groupAt s (p8 p 0)).running && decide (groupMode s (p8 p 0) = 1)) = true →
    ¬ ((groupAt s (p8 p 0)).rateReq.isSome) →
    exec (.lkRateSet mb) s = .next (settle mb (.later (requestRate (p8 p 0) (p8 p 1) (.call mb.val) s)))) ∧
  -- LK_CLASS_CONFIG (R474)
  (∀ (mb : Fin 8) (p : List Byte) (s : State), Asked mb 0x0905 epd 4 p s →
    classMapOk p = true →
    exec (.lkClassConfig mb) s = .next (settle mb (ok (setCfg 0x0902 (p.take 4) s)))) ∧
  -- LK_TC2_WEIGHT_SET (R450)
  (∀ (mb : Fin 8) (p : List Byte) (s : State), Asked mb 0x0906 epd 16 p s →
    weightsOk p = true →
    exec (.lkTc2WeightSet mb) s = .next (settle mb (ok (setCfg 0x0903 (p.take 16) s)))) ∧
  -- LK_PACKET_CLOSE_SET (R21)
  (∀ (mb : Fin 8) (p : List Byte) (s : State), Asked mb 0x0907 epd 4 p s →
    packetCloseOk p = true →
    exec (.lkPacketCloseSet mb) s = .next (settle mb (ok (setCfg 0x0904 (p.take 4) s)))) ∧
  -- LK_REPECHAGE_CLEAR (R453)
  (∀ (mb : Fin 8) (p : List Byte) (s : State), Asked mb 0x0908 epd 1 p s →
    p8 p 0 < 16 →
    exec (.lkRepechageClear mb) s = .next (settle mb (ok (forAll (maskList 4 (p8 p 0)) (fun g => modGroup g (fun x => { x with window := [] })) s)))) ∧
  -- LK_PRBS_CONFIG (R459)
  (∀ (mb : Fin 8) (p : List Byte) (s : State), Asked mb 0x0909 epd 4 p s →
    p8 p 0 < 16 ∧ p8 p 1 ≤ 4 ∧ p8 p 2 ≤ 3 ∧ p8 p 3 ≤ 1 →
    let l := p8 p 0
    let g := groupOfLane l
    p8 p 1 ≠ 0 →
    exec (.lkPrbsConfig mb) s = .next (
      let s := when ((usedLanes s g).contains l) (fun s => if (groupAt s g).running then groupDown g s else regroup g s) s
      settle mb (
        ok (enterLane l (fun x => { freshLane x .test (p8 p 2) with
          prbs := (p8 p 1, decide (p8 p 3 = 1)), prbsLock := false }) s)))) ∧
  (∀ (mb : Fin 8) (p : List Byte) (s : State), Asked mb 0x0909 epd 4 p s →
    p8 p 0 < 16 ∧ p8 p 1 ≤ 4 ∧ p8 p 2 ≤ 3 ∧ p8 p 3 ≤ 1 →
    let l := p8 p 0
    let g := groupOfLane l
    ¬ (p8 p 1 ≠ 0) →
    laneIn s l .test →
    exec (.lkPrbsConfig mb) s = .next (
      let s := enterLane l (fun x => { freshLane x .disabled 0 with prbs := (0, false), prbsLock := false }) s
      settle mb (
        ok (if groupMode s g = 1 then toDetect l s
          else if groupMode s g = 2 then enterLane l (fun x => freshLane x .eth 2) s else s)))) ∧
  (∀ (mb : Fin 8) (p : List Byte) (s : State), Asked mb 0x0909 epd 4 p s →
    p8 p 0 < 16 ∧ p8 p 1 ≤ 4 ∧ p8 p 2 ≤ 3 ∧ p8 p 3 ≤ 1 →
    let l := p8 p 0
    ¬ (p8 p 1 ≠ 0) →
    ¬ (laneIn s l .test) →
    exec (.lkPrbsConfig mb) s = .next (settle mb (ok s))) ∧
  -- LK_PRBS_INJECT_SINGLE (R461)
  (∀ (mb : Fin 8) (p : List Byte) (s : State), Asked mb 0x090A epd 4 p s →
    p8 p 0 < 16 ∧ p8 p 1 = 0 →
    (laneIn s (p8 p 0) .test || laneIn s (p8 p 0) .running) = true →
    exec (.lkPrbsInjectSingle mb) s = .next (respond mb stOk [] (modLane (p8 p 0) (fun x => { x with inject := (x.inject.1, x.inject.2 + 1) }) s))) ∧
  -- LK_PRBS_INJECT_BURST (R461)
  (∀ (mb : Fin 8) (p : List Byte) (s : State), Asked mb 0x090A epd 4 p s →
    p8 p 0 < 16 ∧ p8 p 1 = 1 →
    1 ≤ p16 p 2 ∧ p16 p 2 ≤ 64 →
    (laneIn s (p8 p 0) .test || laneIn s (p8 p 0) .running) = true →
    exec (.lkPrbsInjectBurst mb) s = .next (respond mb stOk [] (modLane (p8 p 0) (fun x => { x with inject := (x.inject.1, x.inject.2 + p16 p 2) }) s))) ∧
  -- LK_PRBS_INJECT_RATE (R461)
  (∀ (mb : Fin 8) (p : List Byte) (s : State), Asked mb 0x090A epd 4 p s →
    p8 p 0 < 16 ∧ p8 p 1 = 2 →
    10 ≤ p16 p 2 ∧ p16 p 2 ≤ 30 →
    (laneIn s (p8 p 0) .test || laneIn s (p8 p 0) .running) = true →
    exec (.lkPrbsInjectRate mb) s = .next (respond mb stOk [] (modLane (p8 p 0) (fun x => { x with inject := (some (p16 p 2), x.inject.2) }) s))) ∧
  -- LK_PRBS_INJECT_STOP (R461)
  (∀ (mb : Fin 8) (p : List Byte) (s : State), Asked mb 0x090A epd 4 p s →
    p8 p 0 < 16 ∧ p8 p 1 = 3 →
    (laneIn s (p8 p 0) .test || laneIn s (p8 p 0) .running) = true →
    exec (.lkPrbsInjectStop mb) s = .next (respond mb stOk [] (modLane (p8 p 0) (fun x => { x with inject := (none, x.inject.2) }) s))) ∧
  -- LK_PRBS_READ (R460)
  (∀ (mb : Fin 8) (p : List Byte) (s : State), Asked mb 0x090B epd 2 p s →
    p8 p 0 < 16 →
    exec (.lkPrbsRead mb) s = .next (
      let s := prbsCatchUp (p8 p 0) s
      let x := laneAt s (p8 p 0)
      settle mb (
        okBytes (b1 (bitNat x.prbsLock) ++ [0, 0, 0] ++ b8 x.prbsCount.1 ++ b4 x.prbsCount.2.1 ++ b4 x.prbsCount.2.2)
          (when (decide (p8 p 1 = 1)) (modLane (p8 p 0) (fun x => { x with prbsCount := (0, 0, 0) })) s)))) ∧
  -- LK_ETH_CONFIG (R474)
  (∀ (mb : Fin 8) (p : List Byte) (s : State), Asked mb 0x090C epd 29 p s →
    let v := bytesAt p 1 28
    p8 p 0 < 4 ∧ ethEntryOk v = true →
    exec (.lkEthConfig mb) s = .next (
      let g := p8 p 0
      let same := decide (destIp s g = u32At v 10 ∧ uAt 6 (ethConf s g) 14 = uAt 6 v 14)
      let t := setCfgEntry 0x0906 28 g v s
      let u := if groupMode t g = 2 ∧ (staticMac t g).isNone then groupDown g t else t
      respond mb stOk [] (if same then t else resolveMac g u))) ∧
  -- LK_ETH_STATUS (R474)
  (∀ (mb : Fin 8) (p : List Byte) (s : State), Asked mb 0x090D epd 1 p s →
    p8 p 0 < 4 →
    exec (.lkEthStatus mb) s = .next (
      let x := groupAt s (p8 p 0)
      let mac : BitVec 48 := x.mac.getD 0
      settle mb (okBytes (b1 (bitNat x.mac.isSome) ++ b1 (bitNat (decide (x.pause ≠ 0))) ++ leBytes 6 mac.toNat ++ (tslice 0 x.eth 0 4).flatMap b4) s))) ∧
  -- LK_SL_STATUS (R474)
  (∀ (mb : Fin 8) (p : List Byte) (s : State), Asked mb 0x090E epdPri 1 p s →
    p8 p 0 < 4 →
    exec (.lkSlStatus mb) s = .next (
      let x := slinkAt s (p8 p 0)
      let v := x.hello.1
      settle mb (okBytes (b1 x.state ++ b1 (field v 5 0) ++ b1 (field v 7 6) ++ b1 (field v 9 8) ++ (tslice 0 x.counts 0 4).flatMap b4) s))) ∧
  -- LK_SL_CONFIG (R474)
  (∀ (mb : Fin 8) (p : List Byte) (s : State), Asked mb 0x090F epd 1 p s →
    p8 p 0 < 16 →
    exec (.lkSlConfig mb) s = .next (settle mb (ok (startSides (setCfg 0x0907 (p.take 1) s))))) ∧
  -- LK_STATS (R474)
  (∀ (mb : Fin 8) (p : List Byte) (s : State), Asked mb 0x0910 epd 2 p s →
    p8 p 0 < 4 →
    exec (.lkStats mb) s = .next (
      settle mb (
        okBytes (statBytes 9 (groupAt s (p8 p 0)).stats (groupAt s (p8 p 0)).statSat)
          (when (decide (p8 p 1 = 1)) (modGroup (p8 p 0) (fun x => { x with stats := [], statSat := 0 })) s)))) ∧
  -- LK_TC0_LOAD (R452)
  (∀ (mb : Fin 8) (p : List Byte) (s : State), Asked mb 0x0911 epdPri 0 p s →
    exec (.lkTc0Load mb) s = .next (
      let xs := s.ev.tc0Load.filter (fun e => decide (stampDiff s.tc.now e.1 < 40000000))
      let burst := xs.foldl (fun a e => max a (divUp e.2.1 40)) 0
      let peak := xs.foldl (fun a e => max a e.2.2) 0
      settle mb (okBytes (b4 (min stat32 xs.length) ++ b2 (min 0xFFFF burst) ++ b2 (min 0xFFFF peak)) s)))

/-- Time core and interval input events run as their rules say: where a command is due, its own effect, whole, is the next
state. The rule of each command stands above its clause. -/
def Obligations.TimeEventsRun : Prop :=
  -- TIME_TMR_VOTE (R477)
  (∀ (upset : List TimeUpset) (s : State),
    s.tc.strobe = true →
    exec (.timeTmrVote upset) s = .next (timeVote (replicaOf s upset 0) (replicaOf s upset 1) (replicaOf s upset 2) s)) ∧
  -- FREQ_SOURCE_WATCHDOG (R481)
  (∀ (src : Fin 3) (s : State),
    s.tc.strobe = true →
    exec (.freqSourceWatchdog src) s = .next (freqLost (src.val + 1) s)) ∧
  -- FREQ_WINDOW_CHECK (R481)
  (∀ (src : Fin 3) (ppb : Int) (s : State),
    (s.tc.strobe && (decide (src.val ≠ 2) || (laneAt s 0).lock)) = true →
    exec (.freqWindowCheck src ppb) s = .next (
      let s := reachUp ((freqSource s (src.val + 1)).winAt + ms 1) s
      let s := modFreqSrc (src.val + 1) (fun x => { x with winAt := s.up }) s
      if ppb.natAbs ≤ 1000 * cfg16 s 0x0A01 12 then freqGood (src.val + 1) s else freqLost (src.val + 1) s)) ∧
  -- OCXO_RDY_FALL (R482)
  (∀ (s : State),
    (s.tc.ocxoRdy && s.tc.strobe) = true →
    exec (.ocxoRdyFall) s = .next (    raise 453 [] (freqRefresh (trackOcxo (onTc (fun x => { x with ocxoRdy := false, ocxoWarm := false }) s))))) ∧
  -- OCXO_WARM_HOLD_EXPIRY (R482)
  (∀ (s : State),
    ∀ t,
    s.tc.ocxoSince = some t →
    s.tc.strobe = true →
    exec (.ocxoWarmHoldExpiry) s = .next (      freqRefresh (onTc (fun x => { x with ocxoWarm := true }) (reachUp (t + ms (1000 * cfg16 s 0x0A01 8)) s)))) ∧
  -- FREQ_RESTORE_TIMER (R484)
  (∀ (src : Nat) (s : State),
    ∀ t,
    tget none s.tc.usable src = some t →
    (s.tc.strobe && freqUsable s src && decide (s.tc.freqSrc ≠ 0 ∧ freqRank s src < freqRank s s.tc.freqSrc
      ∧ cfg16 s 0x0A01 10 ≠ 0xFFFF)) = true →
    exec (.freqRestoreTimer src) s = .next (selectFreq src (reachUp (t + ms (1000 * cfg16 s 0x0A01 10)) s))) ∧
  -- FREQ_LOCK_CHECK (R485)
  (∀ (diff : Nat) (want : Int) (s : State),
    (s.tc.strobe && decide (s.tc.freqSrc ≠ 0)) = true →
    exec (.freqLockCheck diff want) s = .next (
      let s := steerOn (reachUp (s.tc.loopAt + ms 100) s)
      let new := slewed s want
      when (decide (s.tc.freqState = .acquiring ∧ diff ≤ 1000 ∧ new = want)) freqLocked (steerTo (clampY (new + s.tc.yPhase)) s))) ∧
  -- TIME_SYNC_RX (R491)
  (∀ (g : Fin 4) (payload : List Byte) (t2 : FineTime) (s : State),
    ((groupAt s g).running && s.tc.strobe) = true →
    timeLayout payload = true ∧ byteAt payload 0 = 1 →
    timeGroup s 1 1 g = true →
    let r := stampNow t2 s
    fromMaster r.2 (u32At payload 4) = true →
    let u := onTc (fun x => { x with logInt := signed 8 (byteAt payload 18) }) r.2
    mayRequest u = true →
    exec (.timeSyncRx g payload t2) s = .next (
      let seq := u16At payload 2
      let t1 := if byteAt payload 1 = 1 then none else some (timeStampOf payload)
      let t := openExchange { group := g, seq := seq, opened := u.up, t1 := t1, t2 := r.1, t3 := none, t4 := none, corr := (0, 0) } u
      tc0Send { stream := 19, kind := 0x14, payload := delayReq t seq (u32At payload 4), group := some g.val } t)) ∧
  -- TIME_FOLLOW_UP_RX (R492)
  (∀ (g : Fin 4) (payload : List Byte) (s : State),
    ((groupAt s g).running && s.tc.strobe) = true →
    timeLayout payload = true ∧ byteAt payload 0 = 2 →
    timeGroup s 1 1 g = true →
    fromMaster s (u32At payload 4) = true →
    exec (.timeFollowUpRx g payload) s = .next (onExchange g (u16At payload 2) (fun e => { e with t1 := some (timeStampOf payload) }) s)) ∧
  -- TIME_DELAY_RESP_RX (R492)
  (∀ (g : Fin 4) (payload : List Byte) (s : State),
    ((groupAt s g).running && s.tc.strobe) = true →
    timeLayout payload = true ∧ byteAt payload 0 = 4 →
    timeGroup s 1 1 g = true →
    fromMaster s (u32At payload 4) = true ∧ u32At payload 20 = serialLo s →
    exec (.timeDelayRespRx g payload) s = .next (onExchange g (u16At payload 2) (fun e => { e with t4 := some (timeStampOf payload) }) s)) ∧
  -- TIME_ANNOUNCE_RX (R491)
  (∀ (g : Fin 4) (payload : List Byte) (s : State),
    ((groupAt s g).running && s.tc.strobe) = true →
    timeLayout payload = true ∧ byteAt payload 0 = 5 →
    timeGroup s 1 1 g = true →
    exec (.timeAnnounceRx g payload) s = .next (announce { id := u32At payload 4, sender := u32At payload 4, heardAt := s.up } s)) ∧
  -- TIME_EXCHANGE_TIMEOUT (R492)
  (∀ (s : State),
    ∀ e r1,
    s.tc.exch = e :: r1 →
    s.tc.strobe = true →
    exec (.timeExchangeTimeout) s = .next (      timeStat 1 1 (onTc (fun x => { x with exch := x.exch.drop 1 }) (reachUp (e.opened + ms 1000) s)))) ∧
  -- MASTER_ANNOUNCE_TIMEOUT (R491)
  (∀ (master : Word) (s : State),
    ∀ m,
    s.tc.masters.find? (fun m => decide (m.sender % 2 ^ 32 = master.toNat)) = some m →
    s.tc.strobe = true →
    exec (.masterAnnounceTimeout master) s = .next (      followMaster (onTc (fun x => { x with masters := x.masters.erase m }) (reachUp (m.heardAt + ms 3000) s)))) ∧
  -- TIME_HOLDOVER_TIMEOUT (R486)
  (∀ (s : State),
    s.tc.timeState = .sync →
    exec (.timeHoldoverTimeout) s = .next (    raise 460 [] (setTime .holdover (reachUp (s.tc.lastValid.getD 0 + holdoverAfter s) s)))) ∧
  -- TIME_STEP_EDGE (R489)
  (∀ (s : State),
    s.tc.strobe = true →
    exec (.timeStepEdge) s = .next (
      match s.tc.step with
        | some st => takeStep st s
        | none => s)) ∧
  -- PTP_SYNC_RX (R493)
  (∀ (g : Fin 4) (payload : List Byte) (t2 : FineTime) (s : State),
    ((groupAt s g).running && timeGroup s 2 2 g) = true →
    ptpOther payload = false ∧ ptpFormed payload = true ∧ ptpType payload = 0 →
    ptpDomain payload = cfg8 s 0x0A03 0 →
    let r := stampNow t2 s
    fromMaster r.2 (ptpSender payload) = true →
    let u := onTc (fun x => { x with logInt := signed 8 (byteAt payload 33) }) r.2
    mayRequest u = true →
    exec (.ptpSyncRx g payload t2) s = .next (
      let corr := ptpCorr payload
      let t1 := if bit (byteAt payload 6) 1 then none else some (ptpTime u payload corr)
      sendDelayReq g (ptpSeq payload) (openExchange {
        group := g, seq := ptpSeq payload, opened := u.up, t1 := t1, t2 := r.1, t3 := none, t4 := none, corr := (corr, 0) } u))) ∧
  -- PTP_FOLLOW_UP_RX (R493)
  (∀ (g : Fin 4) (payload : List Byte) (s : State),
    ((groupAt s g).running && timeGroup s 2 2 g) = true →
    ptpOther payload = false ∧ ptpFormed payload = true ∧ ptpType payload = 8 →
    ptpDomain payload = cfg8 s 0x0A03 0 →
    fromMaster s (ptpSender payload) = true →
    exec (.ptpFollowUpRx g payload) s = .next (onExchange g (ptpSeq payload) (fun e => { e with t1 := some (ptpTime s payload (e.corr.1 + ptpCorr payload)) }) s)) ∧
  -- PTP_DELAY_RESP_RX (R493)
  (∀ (g : Fin 4) (payload : List Byte) (s : State),
    ((groupAt s g).running && timeGroup s 2 2 g) = true →
    ptpOther payload = false ∧ ptpFormed payload = true ∧ ptpType payload = 9 →
    ptpDomain payload = cfg8 s 0x0A03 0 →
    fromMaster s (ptpSender payload) = true ∧ bytesAt payload 44 10 = portIdentity s g →
    exec (.ptpDelayRespRx g payload) s = .next (
      onExchange g (ptpSeq payload) (fun e => { e with
        t4 := some (ptpTime s payload (-(ptpCorr payload))), corr := (e.corr.1, ptpCorr payload) }) s)) ∧
  -- PTP_ANNOUNCE_RX (R493)
  (∀ (g : Fin 4) (payload : List Byte) (s : State),
    ((groupAt s g).running && timeGroup s 2 2 g) = true →
    ptpOther payload = false ∧ ptpFormed payload = true ∧ ptpType payload = 11 →
    ptpDomain payload = cfg8 s 0x0A03 0 →
    exec (.ptpAnnounceRx g payload) s = .next (announce { id := ptpRank payload, sender := ptpSender payload, heardAt := s.up } s)) ∧
  -- PPS_IN_EDGE (R495)
  (∀ (t : FineTime) (s : State),
    (s.tc.strobe && decide (timeSrc s = 3)) = true →
    exec (.ppsInEdge t) s = .next (
      let (t, s) := stampNow t s
      let u := ppsOffset s t
      let first := match s.tc.timeState with
        | .unsync => true
        | .acquiring | .coarse => !s.tc.heard
        | _ => false
      if !first && decide ((cfg16 s 0x0A04 4 : Int) * 1000 * 8192 < u.natAbs * 25000) then raise 464 [] (timeStat 5 1 s)
      else timeMeasure (divRound (u * 25000) 8192) 0 (onTc (fun x => { x with ppsPresent := true, ppsAt := s.up }) s))) ∧
  -- PPS_LOSS_TIMEOUT (R495)
  (∀ (s : State),
    s.tc.ppsPresent = true →
    exec (.ppsLossTimeout) s = .next (raise 463 [] (onTc (fun x => { x with ppsPresent := false }) (reachUp (s.tc.ppsAt + ms 1100) s)))) ∧
  -- PPS_OUT_PULSE (R496)
  (∀ (s : State),
    (s.tc.strobe && (s.tc.ppsOut || decide (cfg8 s 0x0A04 6 = 1))) = true →
    exec (.ppsOutPulse) s = .next (
      if s.tc.ppsOut then
        let rise := nextPps s (cfg32 s 0x0A04 8) - 40000000
        onTc (fun x => { x with ppsOut := false }) (reachTick (rise + BitVec.ofNat 64 (cfg32 s 0x0A04 12)) s)
      else onTc (fun x => { x with ppsOut := true }) (reachTick (nextPps s (cfg32 s 0x0A04 8)) s))) ∧
  -- TI_EDGE (R503)
  (∀ (input : Fin 4) (t : FineTime) (s : State),
    (s.tc.strobe && decide (byteAt (tiConf s input) 0 ≠ 0)) = true →
    exec (.tiEdge input t) s = .next (
      let (t, s) := stampNow t s
      let s := modTi input (fun x => { x with
        edges := (x.edges + 1) % 2 ^ 64
        gate := x.gate.map (fun g => if inGate g t.tick then { g with edges := g.edges + 1 } else g) }) s
      let x := tiAt s input
      if x.edges % tiPrescale s input ≠ 0 then s
      else if tooClose x t then
        let due := match x.missEv with
          | some m => decide (m + ms 1 ≤ s.up)
          | none => true
        if due then raise 466 [] (modTi input (fun x => { x with missEv := some s.up }) s) else s
      else takeStamp input t s)) ∧
  -- FREQ_GATE_END (R508)
  (∀ (input : Fin 4) (s : State),
    (s.tc.strobe && (tiAt s input).gate.isSome) = true →
    exec (.freqGateEnd input) s = .next (
      match (tiAt s input).gate with
      | some g => endGate input 0 (reachTick (g.start + BitVec.ofNat 64 (40000 * g.ms)) s)
      | none => s)) ∧
  -- OCXO_RDY_RISE (R482)
  (∀ (s : State),
    (!s.tc.ocxoRdy && s.tc.strobe) = true →
    exec (.ocxoRdyRise) s = .next (trackOcxo (onTc (fun x => { x with ocxoRdy := true, ocxoWarm := false }) s)))

/-- Time and interval calls run as their rules say: where a command is due, its own effect, whole, is the next state. The
rule of each command stands above its clause. -/
def Obligations.TimeCallsRun : Prop :=
  -- TIME_STATUS (R511)
  (∀ (mb : Fin 8) (p : List Byte) (s : State), Asked mb 0x0A00 epdPri 0 p s →
    exec (.timeStatus mb) s = .next (
      let secs := match s.tc.lastValid with
        | some t => min 0xFFFF ((s.up - t) / ms 1000)
        | none => 0xFFFF
      let id := match s.tc.master with
        | some m => m.sender % 2 ^ 32
        | none => 0
      settle mb (
        okBytes (b4 (timeStateWord s) ++ b4 (unsigned 32 s.tc.y) ++ b4 (unsigned 32 s.tc.theta.1) ++ b4 (min stat32 s.tc.theta.2)
          ++ b4 id ++ b2 secs) s))) ∧
  -- TIME_NOW (R511)
  (∀ (mb : Fin 8) (p : List Byte) (s : State), Asked mb 0x0A01 epdPri 0 p s →
    exec (.timeNow mb) s = .next (settle mb (okBytes (stampBytes s.tc.now) s))) ∧
  -- TIME_FREQ_CONFIG (R484)
  (∀ (mb : Fin 8) (p : List Byte) (s : State), Asked mb 0x0A02 epd 16 p s →
    freqConfOk p = true →
    exec (.timeFreqConfig mb) s = .next (
      let s := freqRefresh (setCfg 0x0A01 (p.take 16) s)
      let c := firstUsable s
      settle mb (ok (if s.tc.strobe ∧ c ≠ 0 ∧ c ≠ s.tc.freqSrc then selectFreq c s else s)))) ∧
  -- TIME_SERVO_CONFIG (R511)
  (∀ (mb : Fin 8) (p : List Byte) (s : State), Asked mb 0x0A03 epd 24 p s →
    servoConfOk s p = true →
    exec (.timeServoConfig mb) s = .next (
      let s := setCfg 0x0A02 (p.take 24) s
      settle mb (ok (setTime .unsync (onTc (fun x => { x with exch := [], masters := [], master := none }) s))))) ∧
  -- TIME_SET (R501)
  (∀ (mb : Fin 8) (p : List Byte) (s : State), Asked mb 0x0A04 epd 16 p s →
    timeSrc s = 0 ∨ timeSrc s = 3 →
    ¬ (s.tc.step.isSome) →
    s.tc.now.toNat < (stampAt p 0).toNat →
    exec (.timeSet mb) s = .next (settle mb (ok (onTc (fun x => { x with step := some { edge := stampAt p 0, value := stampAt p 8, byCall := true }, setting := true }) s)))) ∧
  -- TIME_PTP_CONFIG (R494)
  (∀ (mb : Fin 8) (p : List Byte) (s : State), Asked mb 0x0A05 epd 16 p s →
    ptpConfOk p = true →
    exec (.timePtpConfig mb) s = .next (settle mb (ok (setCfg 0x0A03 (p.take 16) s)))) ∧
  -- TIME_PPS_CONFIG (R496)
  (∀ (mb : Fin 8) (p : List Byte) (s : State), Asked mb 0x0A06 epd 16 p s →
    ppsConfOk p = true →
    exec (.timePpsConfig mb) s = .next (settle mb (ok (setCfg 0x0A04 (p.take 16) s)))) ∧
  -- TI_CONFIG (R502)
  (∀ (mb : Fin 8) (p : List Byte) (s : State), Asked mb 0x0A07 epd 16 p s →
    (decide (p8 p 0 < 4) && tiConfOk (bytesAt p 4 12)) = true →
    exec (.tiConfig mb) s = .next (settle mb (ok (setCfgEntry 0x0A05 12 (p8 p 0) (bytesAt p 4 12) s)))) ∧
  -- TI_STAMP_READ (R504)
  (∀ (mb : Fin 8) (p : List Byte) (s : State), Asked mb 0x0A08 epd 2 p s →
    p8 p 0 < 4 ∧ 1 ≤ p8 p 1 ∧ p8 p 1 ≤ 27 →
    exec (.tiStampRead mb) s = .next (
      let q := (tiAt s (p8 p 0)).fifo
      let got := q.take (p8 p 1)
      let first := match got with
        | x :: _ => x.1
        | [] => 0
      settle mb (
        okBytes (b2 got.length ++ b2 (q.length - got.length) ++ b8 first ++ got.flatMap (fun x => b8 (timeFine x.2)))
          (modTi (p8 p 0) (fun x => { x with fifo := x.fifo.drop (p8 p 1) }) s)))) ∧
  -- SPLIT_CONFIG (R505)
  (∀ (mb : Fin 8) (p : List Byte) (s : State), Asked mb 0x0A09 epd 12 p s →
    (decide (p8 p 0 < 4 ∧ p8 p 1 < 4 ∧ p8 p 2 < 4 ∧ p8 p 3 ≤ 1 ∧ 1 ≤ p32 p 8 ∧ p32 p 8 ≤ 1000000000)
      && decide (tiPrescale s (p8 p 1) = 1 ∧ tiPrescale s (p8 p 2) = 1)) = true →
    exec (.splitConfig mb) s = .next (
      settle mb (
        ok (modSplit (p8 p 0) (fun x => { x with
          conf := (p8 p 1, p8 p 2, decide (p8 p 3 = 1), p32 p 4, p32 p 8), start := none, spans := false }) s)))) ∧
  -- SPLIT_READ (R506)
  (∀ (mb : Fin 8) (p : List Byte) (s : State), Asked mb 0x0A0A epd 4 p s →
    p8 p 0 < 4 ∧ p16 p 2 ≤ 24 →
    exec (.splitRead mb) s = .next (
      let x := splitAt s (p8 p 0)
      let (r, s) := splitResult x s
      settle mb (
        okBytes (b4 x.acc.1 ++ r ++ b4 x.counts.1 ++ b4 x.counts.2 ++ (x.last.take (p16 p 2)).flatMap (fun d => b8 (unsigned 64 d)))
          (when (decide (p8 p 1 = 1)) (modSplit (p8 p 0) (fun x => { x with
            acc := (0, 0, 0), range := none, last := [], counts := (0, 0) })) s)))) ∧
  -- FREQ_START (R507)
  (∀ (mb : Fin 8) (p : List Byte) (s : State), Asked mb 0x0A0B epd 14 p s →
    let t := stampAt p 2
    let next := decide (uAt 6 p 4 = 0)
    (decide (p8 p 0 < 4 ∧ p8 p 1 ≤ 1 ∧ 1 ≤ p32 p 10 ∧ p32 p 10 ≤ 1000000) && (next || decide (s.tc.now.toNat < t.toNat))) = true →
    ¬ ((tiAt s (p8 p 0)).gate.isSome) →
    s.sys.jobs.length < 8 →
    exec (.freqStart mb) s = .next (
      settle mb (
        okBytes (b2 s.sys.nextJob) ((fun n s => modTi (p8 p 0) (fun x => { x with
          gate := some {
            job := n, start := if next then s.tc.now + 400 else t, ms := p32 p 10, continuous := decide (p8 p 1 = 1)
            stamps := [], edges := 0, steer := (0, 0) } }) s) s.sys.nextJob (addJob 0x0A0B p 1 0 s).2)))) ∧
  -- FREQ_READ (R508)
  (∀ (mb : Fin 8) (p : List Byte) (s : State), Asked mb 0x0A0C epd 2 p s →
    p8 p 0 < 4 ∧ p8 p 1 ≤ 15 →
    exec (.freqRead mb) s = .next (
      settle mb (
        match (tiAt s (p8 p 0)).results[p8 p 1]? with
          | some r => okBytes r s
          | none => let (r, s) := drawWords 6 s
            okBytes r s))) ∧
  -- FREQ_STOP (R508)
  (∀ (mb : Fin 8) (p : List Byte) (s : State), Asked mb 0x0A0D epd 1 p s →
    p8 p 0 < 4 →
    exec (.freqStop mb) s = .next (settle mb (ok (endGate (p8 p 0) 4 s)))) ∧
  -- TIME_STATS (R511)
  (∀ (mb : Fin 8) (p : List Byte) (s : State), Asked mb 0x0A0E epd 1 p s →
    exec (.timeStats mb) s = .next (
      settle mb (
        okBytes (statBytes 7 s.tc.stats s.tc.statSat)
          (when (decide (p8 p 0 = 1)) (onTc (fun x => { x with stats := [], statSat := 0 })) s))))

/-- Power, governor, thermal and HOLD events run as their rules say: where a command is due, its own effect, whole, is the
next state. The rule of each command stands above its clause. -/
def Obligations.PowerEventsRun : Prop :=
  -- GOVERNOR_EVAL (R524)
  (∀ (p : Nat) (s : State),
    (s.sys.windowReady && !s.sys.por) = true →
    exec (.governorEval p) s = .next (
      let s := reachUp (s.pw.evalAt + us 100) s
      governor (onPw (fun x => { x with
        samples := (p :: x.samples).take 10000, evalAt := s.up, evalTick := s.tc.now }) s))) ∧
  -- GOVERNOR_STEP2_TICK (R527)
  (∀ (s : State),
    (s.sys.windowReady && !governorBusy s) = true →
    exec (.governorStep2Tick) s = .next (
      let s := reachUp (s.pw.step2At + ms 10) s
      let s := onPw (fun x => { x with step2At := s.up }) s
      if stepOn s 2 then
        if levelReached s 95 then match lowerNext s with
          | some g => requestRate g ((groupAt s g).rate - 1) .lower s
          | none => s
        else s
      else match s.pw.lowered.find? (fun g => !bit s.pw.retry.toNat g && !soleFast s g) with
        | some g => restoreGroup g s
        | none => s)) ∧
  -- GOVERNOR_RESTORE_RETRY (R527)
  (∀ (s : State),
    (s.sys.windowReady && !stepOn s 2 && !governorBusy s) = true →
    exec (.governorRestoreRetry) s = .next (
      match s.pw.lowered.find? (fun g => bit s.pw.retry.toNat g && !soleFast s g) with
      | some g => restoreGroup g (reachUp (tget 0 s.pw.retryAt g + ms 1000) s)
      | none => s)) ∧
  -- THERMAL_SCAN (R531)
  (∀ (temps : List Int) (s : State),
    (s.sys.windowReady && !s.sys.por) = true →
    exec (.thermalScan temps) s = .next (
      let s := scanNow s
      let t := coolTime (throttle (warn (takeReadings temps s)))
      if tooHot s.pw.hot t then shutdown t else t)) ∧
  -- THROTTLE_STEP_TIMER (R533)
  (∀ (s : State),
    (s.pw.throttle.isSome && decide (950 ≤ tHot s)) = true →
    exec (.throttleStepTimer) s = .next (
      let s := reachUp (s.pw.throttleAt + ms (10 * min 2 (s.pw.throttle.getD 0 + 1))) s
      tryEngage 3 (tryEngage 2 (onPw (fun x => { x with throttle := x.throttle.map (fun n => min 2 (n + 1)) }) s)))) ∧
  -- SHUTDOWN_HOLD_TIMEOUT (R534)
  (∀ (s : State),
    (s.pw.latch && (match s.pw.change with
      | some c => decide (c.target = 1 ∧ c.phase ≤ 2)
      | none => false)) = true →
    exec (.shutdownHoldTimeout) s = .next (enterHold (reachUp (((s.pw.change.map (·.began)).getD 0) + ms 5) s))) ∧
  -- THERMAL_LATCH_CLEAR (R535)
  (∀ (s : State),
    (s.pw.latch && s.pw.below85.isSome) = true →
    exec (.thermalLatchClear) s = .next (    coolingClear (onPw (fun x => { x with latch := false }) (reachUp (s.pw.below85.getD 0 + ms 10000) s)))) ∧
  -- AUTO_RATE_WINDOW (R522)
  (∀ (s : State),
    (awake s && decide (cfg8 s 0x0B03 0 = 1)) = true →
    exec (.autoRateWindow) s = .next (autoWindow (reachUp (s.pw.winAt + ms 1) s))) ∧
  -- WAKE_TIMER_FIRE (R521)
  (∀ (n : Fin 4) (s : State),
    (tget none s.pw.wake n.val).isSome = true →
    exec (.wakeTimerFire n) s = .next (
      match tget none s.pw.wake n.val with
        | some (target, t) => timerActs n.val target (onPw (fun x => { x with wake := tput none n.val none x.wake }) (reachWake t s))
        | none => s)) ∧
  -- QUEUE_SAVE (R367)
  (∀ (s : State),
    inPhase s 1 = true →
    exec (.queueSave) s = .next (    setPhase 2 (onBb (fun x => { x with saved := true, selfRefresh := true }) (forAll (List.range 16) settleQueue s)))) ∧
  -- HOLD_REACHED (R518)
  (∀ (s : State),
    (inPhase s 2 && !linksBusy s) = true →
    exec (.holdReached) s = .next (enterHold s)) ∧
  -- HOLD_WAKE (R519)
  (∀ (src timer : Nat) (s : State),
    (decide (s.sys.power = .hold) && s.pw.change.isNone && wakePresent s src timer) = true →
    exec (.holdWake src timer) s = .next (
      if src = 1 then match tget none s.pw.wake timer with
        | some (target, t) => timerActs timer target (onPw (fun x => { x with wake := tput none timer none x.wake }) (reachWake t s))
        | none => s
      else wakeStart src 0xFF none false s)) ∧
  -- HOLD_WAKE_RESTORE (R519)
  (∀ (coxOkS coxOkB queuesOk : Bool) (s : State),
    (inPhase s 3 && s.seq.good) = true →
    exec (.holdWakeRestore coxOkS coxOkB queuesOk) s = .next (
      match s.pw.change with
        | some c => wakeRestore coxOkS coxOkB queuesOk c s
        | none => s)) ∧
  -- HOLD_WAKE_EASY (R519)
  (∀ (s : State),
    inPhase s 4 = true →
    exec (.holdWakeEasy) s = .next (
      match s.pw.change with
        | some c => wakeEasy c s
        | none => s)) ∧
  -- POWER_STATE_CHANGE_DONE (R515)
  (∀ (s : State),
    (awake s && inPhase s 0) = true →
    exec (.powerStateChangeDone) s = .next (
      match s.pw.change with
        | some c => changeStep c s
        | none => s)) ∧
  -- CLUSTER_ENGINE_IDLE_GATE (R513)
  (∀ (h : Half) (s : State),
    (decide (s.sys.power = .easy) && alive s h) = true →
    exec (.clusterEngineIdleGate h) s = .next (    onPw (fun x => { x with enginesGated := x.enginesGated ||| BitVec.ofNat 16 (0xFF * 256 ^ h.code) }) (reachUp (lastHit s h + ms 1) s)))

/-- Power calls run as their rules say: where a command is due, its own effect, whole, is the next state. The rule of each
command stands above its clause. -/
def Obligations.PowerCallsRun : Prop :=
  -- PW_STATUS (R538)
  (∀ (mb : Fin 8) (p : List Byte) (s : State), Asked mb 0x0B00 epdPri 0 p s →
    exec (.pwStatus mb) s = .next (
      settle mb (
        okBytes (b1 (powerCode s.sys.power) ++ b1 ((s.pw.change.map (·.target)).getD 0) ++ b1 s.pw.steps.toNat ++ b1 (thermalCode s)
          ++ b2 (unsigned 16 (tHot s)) ++ b1 (((hottest s).map (·.2)).getD 0xFF) ++ b1 s.pw.lastCause
          ++ b2 (s.pw.samples.headD 0) ++ b2 (meanPower s) ++ b2 (divRoundNat (pEff100 s) 100)) s))) ∧
  -- PW_STATE_SET (R516)
  (∀ (mb : Fin 8) (p : List Byte) (s : State), Asked mb 0x0B01 epd 2 p s →
    p8 p 0 = 1 →
    s.pw.change = none ∧ s.red.takeover = none →
    (runningJobs s = [] ∨ p8 p 1 = 1) →
    exec (.pwStateSet mb) s = .next (beginHold 0 (respond mb stOk (b1 (powerCode s.sys.power)) s))) ∧
  (∀ (mb : Fin 8) (p : List Byte) (s : State), Asked mb 0x0B01 epd 2 p s →
    2 ≤ p8 p 0 ∧ p8 p 0 ≤ 4 ∧ p8 p 0 = powerCode s.sys.power →
    s.pw.change = none ∧ s.red.takeover = none →
    (p8 p 0 = 2 ∨ s.pw.latch = false) →
    exec (.pwStateSet mb) s = .next (respond mb stOk (b1 (powerCode s.sys.power)) s)) ∧
  (∀ (mb : Fin 8) (p : List Byte) (s : State), Asked mb 0x0B01 epd 2 p s →
    2 ≤ p8 p 0 ∧ p8 p 0 ≤ 4 ∧ p8 p 0 ≠ powerCode s.sys.power →
    s.pw.change = none ∧ s.red.takeover = none →
    (p8 p 0 = 2 ∨ s.pw.latch = false) →
    exec (.pwStateSet mb) s = .next (settle mb (.later (beginChange (p8 p 0) 0 (some mb.val) s)))) ∧
  -- PW_BUDGET_CONFIG (R538)
  (∀ (mb : Fin 8) (p : List Byte) (s : State), Asked mb 0x0B02 epd 12 p s →
    budgetOk p = true →
    exec (.pwBudgetConfig mb) s = .next (settle mb (ok (setCfg 0x0B01 (p.take 12) s)))) ∧
  -- PW_THERMAL_CONFIG (R532)
  (∀ (mb : Fin 8) (p : List Byte) (s : State), Asked mb 0x0B03 epd 4 p s →
    thermalOk p = true →
    exec (.pwThermalConfig mb) s = .next (settle mb (ok (setCfg 0x0B02 (p.take 4) s)))) ∧
  -- PW_THERMAL_READ (R538)
  (∀ (mb : Fin 8) (p : List Byte) (s : State), Asked mb 0x0B04 epdPri 0 p s →
    exec (.pwThermalRead mb) s = .next (
      settle mb (
        okBytes ((List.range 24).flatMap (fun n =>
          b2 (if sensorValid s n then unsigned 16 (tget 0 s.pw.temp n) else 0x8000))) s))) ∧
  -- PW_WAKE_SET (R521)
  (∀ (mb : Fin 8) (p : List Byte) (s : State), Asked mb 0x0B05 epd 10 p s →
    let t := mkStamp (p16 p 2) (uAt 6 p 4)
    p8 p 0 ≤ 3 ∧ 2 ≤ p8 p 1 ∧ p8 p 1 ≤ 4 →
    aheadBy s 1 t = true →
    exec (.pwWakeSet mb) s = .next (settle mb (ok (onPw (fun x => { x with wake := tput none (p8 p 0) (some (p8 p 1, t)) x.wake }) s)))) ∧
  -- PW_WAKE_CLEAR (R538)
  (∀ (mb : Fin 8) (p : List Byte) (s : State), Asked mb 0x0B06 epd 1 p s →
    p8 p 0 < 16 →
    exec (.pwWakeClear mb) s = .next (settle mb (ok (forAll (maskList 4 (p8 p 0)) (fun n => onPw (fun x => { x with wake := tput none n none x.wake })) s)))) ∧
  -- PW_AUTO_CONFIG (R522)
  (∀ (mb : Fin 8) (p : List Byte) (s : State), Asked mb 0x0B07 epd 14 p s →
    autoOk p = true →
    exec (.pwAutoConfig mb) s = .next (settle mb (ok (startWindows (setCfg 0x0B03 (p.take 14) s))))) ∧
  -- PW_DOMAIN_READ (R513)
  (∀ (mb : Fin 8) (p : List Byte) (s : State), Asked mb 0x0B08 epd 2 p s →
    1 ≤ p8 p 1 ∧ p8 p 0 + p8 p 1 ≤ 34 →
    exec (.pwDomainRead mb) s = .next (settle mb (okBytes ((List.range (p8 p 1)).flatMap (fun i => b1 (domainCondition s (p8 p 0 + i)))) s))) ∧
  -- PW_STATS (R538)
  (∀ (mb : Fin 8) (p : List Byte) (s : State), Asked mb 0x0B09 epd 1 p s →
    exec (.pwStats mb) s = .next (
      let s := pwAccount s
      let n (i : Nat) := b4 (tget 0 s.pw.stats i)
      settle mb (
        okBytes ((List.range 4).flatMap (pwMs s) ++ n 4 ++ n 5 ++ n 6 ++ n 7 ++ pwMs s 4 ++ n 9 ++ n 10 ++ b4 s.pw.statSat)
          (when (decide (p8 p 0 = 1)) (onPw (fun x => { x with stats := [], dwell := [], statSat := 0 })) s))))

/-- Slow-control events and calls run as their rules say: where a command is due, its own effect, whole, is the next state.
The rule of each command stands above its clause. -/
def Obligations.SlowControlRuns : Prop :=
  -- SC_PASS_START (R550)
  (∀ (s : State),
    (inGap s && s.sc.cals.isEmpty && (dueChecks s).isEmpty) = true →
    exec (.scPassStart) s = .next (
      let s := onSc (fun x => { x with passed := true, later := 0 }) (reachUp (gapEnd s) s)
      let new := cfg s 0x0C01
      let changed := (List.range 16).filter (fun n => decide (bytesAt new (32 * n) 32 ≠ padTo 32 (bytesAt s.sc.chans (32 * n) 32)))
      let s := forAll changed (fun n => modChan n (fun x => { x with gain := none })) s
      regularNext (onSc (fun x => { x with
        chans := new, seq := some (cfg s 0x0C02), inPass := true, pos := 0, passAt := (s.up, x.passAt.2) }) s))) ∧
  -- SC_CONVERSION_DONE (R548)
  (∀ (r : Conversion) (s : State),
    ∀ c,
    s.sc.conv = some c →
    (!s.sc.calStep) = true →
    exec (.scConversionDone r) s = .next (
      let s := reachUp (convEnd s c) s
      let s := holdGuard c.ch r.vp (if chanKind s c.ch = 1 then 0 else r.vn) s
      let s := storeResult c r (onSc (fun x => { x with conv := none }) s)
      let s := injectDone c s
      let st := byteAt (chanAt s c.ch).result 0
      let s := if c.ch = 24 then hvmonResult (isSafety c.why) (chanValue s 24) (bit st 0) s else s
      let s := if c.ch < 16 then colourUpdate c.ch c.start (bit st 0 || bit st 1 || bit st 2) (chanValue s c.ch) s else s
      scNext s)) ∧
  -- SC_SAFETY_INJECT_REQUEST (R551)
  (∀ (s : State),
    (s.sc.on && decide (s.sc.safeQ ≠ 0) && !(match s.sc.conv with
      | some c => isSafety c.why
      | none => false)) = true →
    exec (.scSafetyInjectRequest) s = .next (scNext (abandon s))) ∧
  -- SC_CAL_STEP_DONE (R552)
  (∀ (offsetNv gainPpm : Int) (exc0 exc1 : Nat) (s : State),
    s.sc.calStep = true →
    exec (.scCalStepDone offsetNv gainPpm exc0 exc1) s = .next (
      let s := reachUp (s.sc.calAt + calStepTicks) s
      match s.sc.cals with
      | [] => onSc (fun x => { x with calStep := false }) s
      | c :: cs =>
        let s := takeCoef (c.gains.headD 0) offsetNv gainPpm (scStat 5 s)
        let rest := c.gains.drop 1
        let s := onSc (fun x => { x with
          calStep := false, cals := if rest = [] then cs else { c with gains := rest } :: cs }) s
        scNext (if rest = [] then calDone c.job exc0 exc1 s else s))) ∧
  -- SC_AUTO_CAL_DUE (R552)
  (∀ (s : State),
    (s.sc.on && decide (cfg16 s 0x0C04 0 ≠ 0) && s.sc.cals.all (·.job.isSome) && decide (gainsInUse s ≠ [])) = true →
    exec (.scAutoCalDue) s = .next (    gapWork (addCal (gainsInUse s) none (reachUp (autoCalDue s) s)))) ∧
  -- SC_PIN_BREAK (R558)
  (∀ (ch pin clocks : Nat) (s : State),
    (s.sc.on && decide ((ch < 16 ∨ ch = 24) ∧ 8 ≤ clocks ∧ pin ∈ chanPins s ch) && chanOn s ch && !(chanAt s ch).brk) = true →
    exec (.scPinBreak ch pin clocks) s = .next (
      let s := modChan ch (fun x => { x with brk := true, pin := pin % 256, inside := 0 }) s
      let s := when (chanRtd s ch) (onSc (fun x => { x with checks := x.checks ||| 2 ^ ch })) s
      gapWork (raise 512 (b1 ch ++ b1 pin) (scStat 7 s)))) ∧
  -- SC_EXC_MONITOR_DONE (R559)
  (∀ (m : ExcMonitor) (s : State),
    ∀ c,
    s.sc.check = some c →
    s.sc.on = true →
    exec (.scExcMonitorDone m) s = .next (
      let s := onSc (fun x => { x with check := none }) (reachUp (checkEnd s c) s)
      let s := match excClass (excNominal s c.1) m with
        | some k => classify c.1 k s
        | none => s
      let s := onSc (fun x => { x with checks := if bit x.checks c.1 then x.checks - 2 ^ c.1 else x.checks }) s
      scNext (diagDone c.1 s))) ∧
  -- SC_STATUS (R566)
  (∀ (mb : Fin 8) (p : List Byte) (s : State), Asked mb 0x0C00 epdPri 0 p s →
    exec (.scStatus mb) s = .next (
      settle mb (
        okBytes
          (b1 (scActivity s) ++ b1 (s.sc.hostQ.length + s.sc.safeQ) ++ b1 (maskOf 8 (fun g => (tget none s.sc.coef g).isSome)) ++ [0] ++
            b4 (maskOf 25 (fun c => (chanAt s c).brk)) ++ b4 (maskOf 25 (fun c => (chanAt s c).excFault)) ++
            b2 (min 0xFFFF (s.sc.passAt.2 / ms 1))) s))) ∧
  -- SC_CHANNEL_CONFIG (R547)
  (∀ (mb : Fin 8) (p : List Byte) (s : State), Asked mb 0x0C01 epd 36 p s →
    let v := bytesAt p 4 32
    (decide (p8 p 0 < 16) && chanConfOk v && excAgree (bytesPut (cfg s 0x0C01) (32 * p8 p 0) v)) = true →
    exec (.scChannelConfig mb) s = .next (settle mb (ok (setCfgEntry 0x0C01 32 (p8 p 0) v s)))) ∧
  -- SC_CHANNEL_READ (R566)
  (∀ (mb : Fin 8) (p : List Byte) (s : State), Asked mb 0x0C02 epd 1 p s →
    p8 p 0 ≤ 24 →
    exec (.scChannelRead mb) s = .next (settle mb (okBytes (chanConf s (p8 p 0)) s))) ∧
  -- SC_SEQUENCE_SET (R550)
  (∀ (mb : Fin 8) (p : List Byte) (s : State), Asked mb 0x0C03 epd 31 p s →
    sequenceOk p = true →
    exec (.scSequenceSet mb) s = .next (settle mb (ok (setCfg 0x0C02 (p.take 31) s)))) ∧
  -- SC_RESULT_READ (R548)
  (∀ (mb : Fin 8) (p : List Byte) (s : State), Asked mb 0x0C04 epdPri 2 p s →
    1 ≤ p8 p 1 ∧ p8 p 1 ≤ 14 ∧ p8 p 0 + p8 p 1 ≤ 25 →
    exec (.scResultRead mb) s = .next (settle mb (okBytes ((List.range (p8 p 1)).flatMap (fun i => padTo 16 (chanAt s (p8 p 0 + i)).result)) s))) ∧
  -- SC_INJECT (R551)
  (∀ (mb : Fin 8) (p : List Byte) (s : State), Asked mb 0x0C05 epdPri 1 p s →
    p8 p 0 ≤ 24 →
    chanOn s (p8 p 0) = true →
    ¬ (4 ≤ s.sc.hostQ.length) →
    exec (.scInject mb) s = .next (
      let n := s.sc.nextReq
      let s := onSc (fun x => { x with
        nextReq := nextJobNumber n, hostQ := x.hostQ ++ [n]
        reqs := ({ num := n, ch := p8 p 0, state := 0, result := List.replicate 16 0 } :: x.reqs).take 16 }) s
      settle mb (okBytes (b2 n ++ stampBytes (now s + BitVec.ofNat 64 (injectedTicks s))) s))) ∧
  -- SC_INJECT_READ (R567)
  (∀ (mb : Fin 8) (p : List Byte) (s : State), Asked mb 0x0C06 epdPri 2 p s →
    exec (.scInjectRead mb) s = .next (
      settle mb (
        okBytes (match s.sc.reqs.find? (fun r => decide (r.num = p16 p 0)) with
          | some r => b1 r.state ++ [0, 0, 0] ++ padTo 16 r.result
          | none => [3, 0, 0, 0] ++ List.replicate 16 0) s))) ∧
  -- SC_CALIBRATE (R553)
  (∀ (mb : Fin 8) (p : List Byte) (s : State), Asked mb 0x0C07 epd 1 p s →
    p8 p 0 ≠ 0 →
    let gains := maskList 8 (p8 p 0)
    let t := injectedTicks s
    t = 0 →
    s.sys.jobs.length < 8 →
    exec (.scCalibrate mb) s = .next (settle mb (okBytes (b2 s.sys.nextJob) (acceptCal gains s.sys.nextJob (addJob 0x0C07 (p.take 1) 1 0 s).2)))) ∧
  (∀ (mb : Fin 8) (p : List Byte) (s : State), Asked mb 0x0C07 epd 1 p s →
    p8 p 0 ≠ 0 →
    let gains := maskList 8 (p8 p 0)
    let t := injectedTicks s
    ¬ (t = 0) →
    exec (.scCalibrate mb) s = .next (
      let n := s.sys.nextJob
      settle mb (
        match deferJob 0x0C07 (p.take 1) (now s + BitVec.ofNat 64 t) s with
          | .done st bs s => .done st bs (if st = stDeferred then addCal gains (some n) s else s)
          | r => r))) ∧
  -- SC_DIAG_RUN (R560)
  (∀ (mb : Fin 8) (p : List Byte) (s : State), Asked mb 0x0C08 epd 2 p s →
    (decide (p16 p 0 ≠ 0) && (maskList 16 (p16 p 0)).all (fun c => chanOn s c && chanRtd s c)) = true →
    s.sys.jobs.length < 8 →
    exec (.scDiagRun mb) s = .next (settle mb (okBytes (b2 s.sys.nextJob) ((fun n s => gapWork (onSc (fun x => { x with diags := x.diags ++ [(n, p16 p 0)] }) s)) s.sys.nextJob (addJob 0x0C08 (p.take 2) 1 0 s).2)))) ∧
  -- SC_CHANNEL_STATUS (R559)
  (∀ (mb : Fin 8) (p : List Byte) (s : State), Asked mb 0x0C09 epd 1 p s →
    p8 p 0 ≤ 24 →
    exec (.scChannelStatus mb) s = .next (
      let x := chanAt s (p8 p 0)
      settle mb (okBytes (b1 (bitNat x.brk) ++ b1 x.cls ++ b1 (chanGain s (p8 p 0)) ++ b1 x.pin ++ b4 x.lead ++ b4 x.exc ++ b4 x.conversions) s))) ∧
  -- SC_STATS (R566)
  (∀ (mb : Fin 8) (p : List Byte) (s : State), Asked mb 0x0C0A epd 1 p s →
    exec (.scStats mb) s = .next (
      settle mb (
        okBytes (statBytes 8 s.sc.stats s.sc.statSat)
          (when (decide (p8 p 0 = 1)) (onSc (fun x => { x with stats := [], statSat := 0 })) s)))) ∧
  -- SC_INJECTED_CONVERSION_START (R551)
  (∀ (s : State),
    (s.sc.on && !s.sc.calStep && s.sc.check.isNone && decide (s.sc.hostQ ≠ []) && (match s.sc.conv with
      | some { why := .regular, .. } => true
      | none => true
      | _ => false)) = true →
    exec (.scInjectedConversionStart) s = .next (scNext (abandon (reachUp (hostFrom s) s))))

/-- Calibration light events and calls run as their rules say: where a command is due, its own effect, whole, is the next
state. The rule of each command stands above its clause. -/
def Obligations.LightRuns : Prop :=
  -- LD_PRE_WAKE (R582)
  (∀ (s : State),
    (awake s && !ldOn s && ((nextFlash s).isSome || proofWaits s)) = true →
    exec (.ldPreWake) s = .next (
      let s := match nextFlash s with
        | some t => if proofWaits s then s else reachTick (BitVec.ofNat 64 (t / 32 - us 100)) s
        | none => s
      onLd (fun x => { x with awake := true, flashUp := s.up }) s)) ∧
  -- LAMP_SHIFT_START (R582)
  (∀ (chain : Fin 4) (s : State),
    ∀ t,
    nextChainFlash s chain = some t →
    (ldOn s && decide ((chainAt s chain).state = 1) && !discovering s chain) = true →
    exec (.lampShiftStart chain) s = .next (shiftFor chain t s)) ∧
  -- FLASH_INSTANT (R581)
  (∀ (s : State),
    ∀ t,
    nextFlash s = some t →
    ldOn s = true →
    exec (.flashInstant) s = .next (flashAt t s)) ∧
  -- LED_DIAG_SAMPLE (R587)
  (∀ (k : Fin 4) (current pinMv : Nat) (s : State),
    ∀ amp w at_,
    (sinkAt s k).pulse = some (amp, w, at_) →
    500 ≤ w →
    exec (.ledDiagSample k current pinMv) s = .next (
      let s := reachUp (at_ + 16) s
      match sinkStatus current pinMv amp with
      | some st => diagnose k st false current s
      | none => s)) ∧
  -- LED_PULSE_END (R577)
  (∀ (k : Fin 4) (s : State),
    ∀ r1 w at_,
    (sinkAt s k).pulse = some (r1, w, at_) →
    exec (.ledPulseEnd k) s = .next (modSink k (fun x => { x with pulse := none }) (reachUp (at_ + divUp w 25) s))) ∧
  -- FLASH_WINDOW_END (R585)
  (∀ (s : State),
    s.ld.winOpen = true →
    exec (.flashWindowEnd) s = .next (
      let s := match s.ld.windows with
        | (_, b) :: _ => reachTick (b + 1) s
        | [] => s
      onLd (fun x => { x with winOpen := false }) s)) ∧
  -- LD_IDLE_GATE (R582)
  (∀ (s : State),
    s.ld.awake = true →
    exec (.ldIdleGate) s = .next (
      let s := reachUp (s.ld.flashUp + ms 1) s
      if proofWaits s || (nextFlash s).any (fun t => decide (t / 32 < s.tc.now.toNat + us 100)) then s
      else onLd (fun x => { x with awake := false }) s)) ∧
  -- LAMP_CAPTURE_CYCLE (R576)
  (∀ (chain : Fin 4) (words : List Word) (s : State),
    let again := (chainAt s chain).retried
    ((busyState s || again) && ldOn s && decide ((chainAt s chain).state = 1 ∧ words.length = boardsOf s chain)
      && !discovering s chain) = true →
    exec (.lampCaptureCycle chain words) s = .next (
      let s := if again then s else reachUp ((chainAt s chain).capAt + ms 1000) s
      if captureClear s chain then captureCycle chain (arrived words) s else s)) ∧
  -- LED_TEMP_UPDATE (R578)
  (∀ (s : State),
    awake s = true →
    exec (.ledTempUpdate) s = .next (
      let s := reachUp (s.ld.tempAt + ms 100) s
      forAll (List.range 4) sinkTempUpdate (onLd (fun x => { x with tempAt := s.up }) s))) ∧
  -- PROOF_PULSE_DUE (R589)
  (∀ (e : Nat) (s : State),
    (awake s && decide (e < 68) && emProof s e) = true →
    exec (.proofPulseDue e) s = .next (
      let s := reachUp ((emAt s e).proofAt + ms (1000 * cfg16 s 0x0D04 2)) s
      modEm e (fun x => { x with proofDue := true, proofAt := s.up }) s)) ∧
  -- PROOF_PULSE (R589)
  (∀ (e current pinMv : Nat) (words : List Word) (s : State),
    (ldOn s && decide (e < 68) && ((emAt s e).proofDue || (emAt s e).proofJob.isSome) && !(emAt s e).proofOut) = true →
    exec (.proofPulse e current pinMv words) s = .next (
      let s := reachTick (clearTick s e) s
      if proofOutput s e && proofAllowed s && proofClear s e
          && (decide (e < 4) || decide (words.length = boardsOf s ((e - 4) / 16))) then
        proofPulse e current pinMv words s
      else s)) ∧
  -- DIAG_AGE_EXPIRY (R588)
  (∀ (e : Nat) (s : State),
    (decide (e < 68) && decide ((emAt s e).diag ≠ 0)) = true →
    exec (.diagAgeExpiry e) s = .next (
      raise 532 [] (modEm e (fun x => { x with diag := 0 })
        (reachUp ((emAt s e).diagAt + ms (1000 * cfg16 s 0x0D04 4)) s)))) ∧
  -- LD_LINE_READBACK_FAULT (R594)
  (∀ (chain : Fin 4) (s : State),
    (ldOn s && !(chainAt s chain).lineFault) = true →
    exec (.ldLineReadbackFault chain) s = .next (raise 541 [] (modChain chain (fun x => { x with lineFault := true, state := 5, stage := none, prep := none }) s))) ∧
  -- LD_STATUS (R596)
  (∀ (mb : Fin 8) (p : List Byte) (s : State), Asked mb 0x0D00 epdPri 0 p s →
    exec (.ldStatus mb) s = .next (
      settle mb (
        okBytes
          ((List.range 4).flatMap (fun c => b1 (if chainOn s c then (chainAt s c).state else 0)) ++
            (List.range 4).flatMap (fun c => b1 (boardsOf s c)) ++
            b2 (maskOf 16 (fun n => (tget none s.ld.entry n).isSome)) ++ b1 (bitNat (s.ld.winOpen && inWindow s s.tc.now)) ++ [0]) s))) ∧
  -- LD_CHAIN_DISCOVER (R575)
  (∀ (mb : Fin 8) (p : List Byte) (s : State), Asked mb 0x0D01 epd 1 p s →
    1 ≤ p8 p 0 ∧ p8 p 0 < 16 →
    s.sys.jobs.length < 8 →
    exec (.ldChainDiscover mb) s = .next (
      settle mb (
        okBytes (b2 s.sys.nextJob) ((fun n s =>
          if discoverMask s (p8 p 0) n = 0 then jobDone n s else discoverChains (p8 p 0) n s) s.sys.nextJob (addJob 0x0D01 (p.take 1) 1 0 s).2)))) ∧
  -- LD_CHAIN_READ (R596)
  (∀ (mb : Fin 8) (p : List Byte) (s : State), Asked mb 0x0D02 epd 1 p s →
    p8 p 0 ≤ 3 →
    exec (.ldChainRead mb) s = .next (settle mb (okBytes (b1 (boardsOf s (p8 p 0)) ++ [0, 0, 0] ++ (chainAt s (p8 p 0)).words.flatMap (fun w => b4 w.toNat)) s))) ∧
  -- LD_EMITTER_CONFIG (R596)
  (∀ (mb : Fin 8) (p : List Byte) (s : State), Asked mb 0x0D03 epd 22 p s →
    (decide (p8 p 0 < 68) && emitterOk (p8 p 0) (bytesAt p 4 18)) = true →
    holdsEmitters s [p8 p 0] = true →
    exec (.ldEmitterConfig mb) s = .next (settle mb (ok (reconfigure (p8 p 0) (bytesAt p 4 18) s)))) ∧
  -- LD_EMITTER_READ (R596)
  (∀ (mb : Fin 8) (p : List Byte) (s : State), Asked mb 0x0D04 epd 1 p s →
    p8 p 0 < 68 →
    exec (.ldEmitterRead mb) s = .next (
      let e := p8 p 0
      settle mb (okBytes (emConf s e ++ b2 (emAmp s e) ++ b1 (loopCode s e) ++ b1 (bitNat (decide (e < 4) && (sinkAt s e).derated))) s))) ∧
  -- LD_SCHEDULE (R584)
  (∀ (mb : Fin 8) (p : List Byte) (s : State), Asked mb 0x0D05 epd 27 p s →
    let e := schedEntry p
    let es := emittersOf e.sinks e.boards
    (decide (p8 p 0 < 16 ∧ e.sinks < 16 ∧ e.phase < 32 ∧ (e.period = 0 ∨ minPeriod s es ≤ e.period)) && aheadBy s (8000) e.first) = true →
    holdsEmitters s es = true →
    exec (.ldSchedule mb) s = .next (
      let old := ((tget none s.ld.entry (p8 p 0)).map (fun x => emittersOf x.sinks x.boards)).getD []
      settle mb (ok (scheduleTouched (old ++ es) (onLd (fun x => { x with entry := tput none (p8 p 0) (some e) x.entry }) s))))) ∧
  -- LD_CANCEL (R596)
  (∀ (mb : Fin 8) (p : List Byte) (s : State), Asked mb 0x0D06 epdPri 2 p s →
    let named := (entries s).filter (fun e => bit (p16 p 0) e.1)
    let es := named.flatMap (fun e => emittersOf e.2.sinks e.2.boards)
    holdsEmitters s es = true →
    exec (.ldCancel mb) s = .next (settle mb (ok (scheduleTouched es (onLd (fun x => { x with entry := named.foldl (fun t e => tput none e.1 none t) x.entry }) s))))) ∧
  -- LD_SCHEDULE_READ (R596)
  (∀ (mb : Fin 8) (p : List Byte) (s : State), Asked mb 0x0D07 epd 1 p s →
    p8 p 0 < 16 →
    exec (.ldScheduleRead mb) s = .next (settle mb (okBytes (entryBytes (p8 p 0) (tget none s.ld.entry (p8 p 0))) s))) ∧
  -- LD_DIAG_READ (R588)
  (∀ (mb : Fin 8) (p : List Byte) (s : State), Asked mb 0x0D08 epdPri 2 p s →
    1 ≤ p8 p 1 ∧ p8 p 1 ≤ 17 ∧ p8 p 0 + p8 p 1 ≤ 68 →
    exec (.ldDiagRead mb) s = .next (settle mb (okBytes ((List.range (p8 p 1)).flatMap (fun i => diagBytes (emAt s (p8 p 0 + i)))) s))) ∧
  -- LD_PROOF_RUN (R589)
  (∀ (mb : Fin 8) (p : List Byte) (s : State), Asked mb 0x0D09 epd 1 p s →
    p8 p 0 < 68 →
    emOn s (p8 p 0) = true →
    ¬ ((emAt s (p8 p 0)).proofJob.isSome) →
    s.sys.jobs.length < 8 →
    exec (.ldProofRun mb) s = .next (settle mb (okBytes (b2 s.sys.nextJob) ((fun n => modEm (p8 p 0) (fun x => { x with proofJob := some n })) s.sys.nextJob (addJob 0x0D09 (p.take 1) 1 0 s).2)))) ∧
  -- LD_SINK_CONFIG (R578)
  (∀ (mb : Fin 8) (p : List Byte) (s : State), Asked mb 0x0D0A epd 7 p s →
    (decide (p8 p 0 < 4) && tempSourceOk (p8 p 1)) = true →
    holdsEmitters s [p8 p 0] = true →
    exec (.ldSinkConfig mb) s = .next (settle mb (ok (setCfgEntry 0x0D02 6 (p8 p 0) (bytesAt p 1 6) s)))) ∧
  -- LD_STATS (R596)
  (∀ (mb : Fin 8) (p : List Byte) (s : State), Asked mb 0x0D0B epd 2 p s →
    p8 p 0 < 68 →
    exec (.ldStats mb) s = .next (
      settle mb (
        okBytes (statBytes 5 (emAt s (p8 p 0)).stats (emAt s (p8 p 0)).statSat)
          (when (decide (p8 p 1 = 1)) (modEm (p8 p 0) (fun x => { x with stats := [], statSat := 0 })) s))))

/-- Redundancy events and calls run as their rules say: where a command is due, its own effect, whole, is the next state.
The rule of each command stands above its clause. -/
def Obligations.RedundancyRuns : Prop :=
  -- XLINK_HEARTBEAT_SEND (R635)
  (∀ (h : Half) (s : State),
    halfOn s h = true →
    exec (.xlinkHeartbeatSend h) s = .next (
      let s := reachUp ((viewAt s h).sentAt + us 20) s
      modView h (fun v => { v with sentAt := s.up, req := if healthy s h then !v.req else v.req }) s)) ∧
  -- XLINK_HEARTBEAT_RX (R635)
  (∀ (h : Half) (lock : Bool) (s : State),
    (halfOn s h && halfOn s h.other) = true →
    exec (.xlinkHeartbeatRx h lock) s = .next (
      let s := beatGap h s
      let s := modView h (fun v => if lock then { v with beats := min 3 (v.beats + 1), beatAt := s.up } else { v with beats := 0 }) s
      if (viewAt s h).beats = 3 ∧ !(viewAt s h).xlink then linkRestored h s else s)) ∧
  -- XLINK_HEARTBEAT_TIMEOUT (R635)
  (∀ (h : Half) (lock : Bool) (s : State),
    (halfOn s h && ((viewAt s h).xlink || (!lock && !(viewAt s h).noLock))) = true →
    exec (.xlinkHeartbeatTimeout h lock) s = .next (
      let s := if lock then reachUp ((viewAt s h).beatAt + us 60) s else s
      if (viewAt s h).xlink then linkLost h lock (if lock then missBeats h 3 s else s)
      else rejoinFails false (modView h (fun v => { v with noLock := true }) s))) ∧
  -- ARB_POLL (R637)
  (∀ (h : Half) (reaches : Bool) (s : State),
    halfOn s h = true →
    exec (.arbPoll h reaches) s = .next (
      let s := reachUp ((viewAt s h).askedAt + us 20) s
      let s := if (viewAt s h).asked then missPoll h s else s
      let s := modView h (fun v => { v with asked := true, askedAt := s.up, heard := false }) s
      let s := if (viewAt s h).misses = 3 then judgeMissed h s else s
      if halfOn s h then pollArrives h reaches s else s)) ∧
  -- ARB_POLL_ANSWER (R636)
  (∀ (h : Half) (failed : Bool) (s : State),
    (halfOn s h && (viewAt s h).asked && (viewAt s h).heard && decide (s.up ≤ (viewAt s h).askedAt + us 5)) = true →
    exec (.arbPollAnswer h failed) s = .next (
      let failed := failed && !twoGet s.sys.restarting h
      let s := modView h (fun v => { v with
        asked := false, misses := 0, answer := some (seesOther s h, failed), pathLost := false, impossible := v.impossible && failed }) s
      if failed then declareFailed h s else answerSettles h s)) ∧
  -- ARB_LOST_TIMEOUT (R639)
  (∀ (h : Half) (s : State),
    (halfOn s h && !(viewAt s h).arbLost) = true →
    exec (.arbLostTimeout h) s = .next (
      let s := reachUp ((viewAt s h).polledAt + us 60) s
      isolate h (raiseBy h 595 [] (modView h (fun v => { v with arbLost := true, polled := 0 }) s)))) ∧
  -- TAKEOVER_COMPLETE (R645)
  (∀ (s : State),
    ∀ x r1,
    s.red.takeover = some (x, r1) →
    exec (.takeoverComplete) s = .next (finishTakeover x s)) ∧
  -- ARB_GNT_CHANGE (R641)
  (∀ (gntS gntB : Bool) (s : State),
    (!s.sys.por) = true →
    exec (.arbGntChange gntS gntB) s = .next (
      let oldS := (viewAt s .s).gnt
      let oldB := (viewAt s .b).gnt
      let s := modView .b (fun v => { v with gnt := gntB }) (modView .s (fun v => { v with gnt := gntS }) s)
      if !s.red.ext || !s.red.started then s
      else if !gntS && !gntB then raiseIf (oldS || oldB) 602 [] s
      else if oldS && !gntS then grantFalls .s s
      else if oldB && !gntB then grantFalls .b s else s)) ∧
  -- REJOIN_TICK (R648)
  (∀ (s : State),
    ∀ r,
    s.red.rejoin = some r →
    r.standby = true →
    exec (.rejoinTick) s = .next (
      let s := reachTick r.tick s
      if s.red.noMajority then rejoinFails false s else finishRejoin r s)) ∧
  -- RED_STATUS (R667)
  (∀ (mb : Fin 8) (p : List Byte) (s : State), Asked mb 0x0F00 epdPri 0 p s →
    exec (.redStatus mb) s = .next (
      settle mb (
        okBytes (b4 (claimsWord s) ++ b4 (viewAt s .s).missed ++ b4 (viewAt s .b).missed ++ b4 (viewAt s .s).polls
          ++ b4 (viewAt s .b).polls ++ b4 s.red.takeovers ++ stampBytes s.red.last) s))) ∧
  -- RED_CLAIM_READ (R667)
  (∀ (mb : Fin 8) (p : List Byte) (s : State), Asked mb 0x0F01 epd 0 p s →
    exec (.redClaimRead mb) s = .next (settle mb (okBytes ((List.range 18).flatMap (fun r => b2 (claimOf s r .s) ++ b2 (claimOf s r .b))) s))) ∧
  -- RED_REJOIN (R648)
  (∀ (mb : Fin 8) (p : List Byte) (s : State), Asked mb 0x0F02 epd 10 p s →
    p8 p 0 ≤ 1 →
    let h := Half.ofCode (p8 p 0)
    let t := if tickOf (stampAt p 2) = 0 then s.tc.now + 40000 else stampAt p 2
    (!s.red.ext || (viewAt s h).gnt) = true →
    (decide ((viewAt s h).state = 3) && linkSound s && s.red.takeover.isNone) = true →
    aheadBy s 40000 t = true →
    s.sys.jobs.length < 8 →
    exec (.redRejoin mb) s = .next (settle mb (okBytes (b2 s.sys.nextJob) (rejoinBegin h t s.sys.nextJob (addJob 0x0F02 p 1 0 s).2)))) ∧
  -- FLOG_MIRROR (R664)
  (∀ (mb : Fin 8) (p : List Byte) (s : State), Asked mb 0x0F09 epd 0 p s →
    (flashOk s && decide (s.sys.image.signedLen + 64 ≤ mirrorHead)) = true →
    s.sys.jobs.length < 8 →
    exec (.flogMirror mb) s = .next (settle mb (okBytes (b2 s.sys.nextJob) (addJob 0x0F09 [] 1 0 s).2))) ∧
  -- FLOG_MIRROR_READ (R664)
  (∀ (mb : Fin 8) (p : List Byte) (s : State), Asked mb 0x0F0A epd 5 p s →
    p8 p 0 ≤ 1 ∧ 1 ≤ p8 p 4 ∧ p8 p 4 ≤ 3 →
    flashOk s = true →
    exec (.flogMirrorRead mb) s = .next (
      settle mb (
        match mirrorOf s (p8 p 0) with
          | some (gen, n, rs) =>
            okBytes (b4 gen ++ [1, 0, 0, 0] ++ bytesAt rs (64 * p16 p 2) (64 * min (p8 p 4) (n - p16 p 2))) s
          | none => okBytes (b4 0 ++ [0, 0, 0, 0]) s))) ∧
  -- ARBITER_TMR_VOTE (R652)
  (∀ (disagree : List (Fin 3)) (s : State),
    (s.red.started && decide (disagree ≠ [])) = true →
    exec (.arbiterTmrVote disagree) s = .next (
      if disagree.eraseDups.length ≤ 1 then raise 603 [] s
      else if s.red.noMajority then s
      else raise 604 [] (onRed (fun r => { r with noMajority := true }) s)))

/-- Trouble record events and calls run as their rules say: where a command is due, its own effect, whole, is the next
state. The rule of each command stands above its clause. -/
def Obligations.TroubleRecordRuns : Prop :=
  -- ALARM_PENDING_COMMIT (R658)
  (∀ (src : Nat) (s : State),
    (tget none s.ev.recent src).isSome = true →
    exec (.alarmPendingCommit src) s = .next (
      let s := reachUp ((tget none s.ev.recent src).getD 0 + us 100) s
      match tget none s.ev.pending src with
      | none => onEv (fun e => { e with recent := tput none src none e.recent }) s
      | some p => if 64 ≤ s.ev.tc0.length then holdPending src p s else commitPending src s)) ∧
  -- ALARM_HELD_RELEASE (R658)
  (∀ (s : State),
    (decide (s.ev.tc0.length < 64) && !(waitingAlarms s).isEmpty) = true →
    exec (.alarmHeldRelease) s = .next (
      let s := forAll (waitingAlarms s) (fun _ => releaseOne) s
      onEv (fun e => { e with holdSeen := !(waitingAlarms s).isEmpty }) s)) ∧
  -- INCIDENT_CALM_EXPIRY (R661)
  (∀ (s : State),
    (s.ev.incident.isOpen && s.ev.pending.isEmpty && s.ev.tc0.isEmpty) = true →
    exec (.incidentCalmExpiry) s = .next (    closeIncident (reachUp (s.ev.incident.lastUp + ms (cfg16 s 0x0F03 0)) s))) ∧
  -- EVT_READ (R667)
  (∀ (mb : Fin 8) (p : List Byte) (s : State), Asked mb 0x0F03 epdPri 3 p s →
    1 ≤ p8 p 2 ∧ p8 p 2 ≤ 19 ∧ p16 p 0 + p8 p 2 ≤ 640 →
    exec (.evtRead mb) s = .next (settle mb (okBytes ((List.range (p8 p 2)).flatMap (fun i => sourceBytes s (p16 p 0 + i))) s))) ∧
  -- EVT_CLEAR (R654)
  (∀ (mb : Fin 8) (p : List Byte) (s : State), Asked mb 0x0F04 epdPri 5 p s →
    let a := p16 p 0
    let b := p16 p 0 + p16 p 2
    1 ≤ p16 p 2 ∧ p16 p 2 ≤ 640 ∧ b ≤ 640 ∧ p8 p 4 < 4 →
    exec (.evtClear mb) s = .next (
      let s := when (bit (p8 p 4) 0) (onEv (fun e => { e with
        sticky := e.sticky &&& ~~~ BitVec.ofNat 640 (2 ^ b - 2 ^ a) })) s
      settle mb (
        ok (when (bit (p8 p 4) 1) (onEv (fun e => { e with
          count := clearRange a b e.count, last := clearRange a b e.last, arg := clearRange a b e.arg })) s)))) ∧
  -- EVT_CONFIG (R655)
  (∀ (mb : Fin 8) (p : List Byte) (s : State), Asked mb 0x0F05 epd 5 p s →
    let n := p16 p 0
    (isDefined n && decide (p8 p 2 ≤ 2 ∧ p8 p 3 ≤ 1 ∧ p8 p 4 ≤ 1)) = true →
    exec (.evtConfig mb) s = .next (
      settle mb (
        ok (onEv (fun e => { e with
          cfg := tput none n (some (p8 p 2, decide (p8 p 3 = 1))) e.cfg
          en := if p8 p 4 = 1 then e.en ||| BitVec.ofNat 640 (2 ^ n) else e.en &&& ~~~ BitVec.ofNat 640 (2 ^ n) }) s)))) ∧
  -- EVT_SUMMARY (R661)
  (∀ (mb : Fin 8) (p : List Byte) (s : State), Asked mb 0x0F06 epdPri 0 p s →
    exec (.evtSummary mb) s = .next (settle mb (okBytes (recBytes (summaryOf s)) s))) ∧
  -- FLOG_READ (R663)
  (∀ (mb : Fin 8) (p : List Byte) (s : State), Asked mb 0x0F07 epd 3 p s →
    1 ≤ p8 p 2 ∧ p8 p 2 ≤ 3 →
    exec (.flogRead mb) s = .next (settle mb (okBytes (b2 (faultLog s).length ++ [0, 0] ++ (((faultLog s).drop (p16 p 0)).take (p8 p 2)).flatMap recBytes) s))) ∧
  -- FLOG_CLEAR (R663)
  (∀ (mb : Fin 8) (p : List Byte) (s : State), Asked mb 0x0F08 epd 0 p s →
    exec (.flogClear mb) s = .next (settle mb (ok (onEv (fun e => { e with flogFirst := [], flogRing := [], flogPos := 0 }) s)))) ∧
  -- EVT_STATS (R667)
  (∀ (mb : Fin 8) (p : List Byte) (s : State), Asked mb 0x0F0B epd 1 p s →
    exec (.evtStats mb) s = .next (
      settle mb (
        okBytes (statBytes 9 s.ev.stats s.ev.statSat)
          (when (decide (p8 p 0 = 1)) (onEv (fun e => { e with stats := [], statSat := 0 })) s)))) ∧
  -- EVT_TRACE_CONFIG (R660)
  (∀ (mb : Fin 8) (p : List Byte) (s : State), Asked mb 0x0F0C epd 4 p s →
    exec (.evtTraceConfig mb) s = .next (settle mb (ok (setCfgEntry 0x0F03 4 1 (p.take 4) s)))) ∧
  -- EVENT_STATE_TMR_VOTE (R652)
  (∀ (upset : List EventUpset) (s : State),
    (!s.sys.por) = true →
    exec (.eventStateTmrVote upset) s = .next (forAll upset eventVote s))

/-- R63: fuses change only through three calls, each change is one-way, and a confirm word that does not match changes none. -/
def Obligations.FusesOneWay : Prop :=
  (∀ (c : Instr) (s t : State), exec c s = .next t →
    (fuses t = fuses s ∨
      ∃ mb, c = .sysRollbackAdvance mb ∨ c = .sysLifecycleAdvance mb ∨ c = .sysKeyRevoke mb) ∧
    (fuses s).oneWay (fuses t)) ∧
  (∀ (mb : Fin 8) (p : List Byte) (s : State), Asked mb 0x010E epdBh 5 p s → p32 p 1 ≠ confirmWord s →
    ∃ t, exec (.sysLifecycleAdvance mb) s = .next t ∧ t = respond mb stBadParam [] s ∧ fuses t = fuses s) ∧
  (∀ (mb : Fin 8) (p : List Byte) (s : State), Asked mb 0x010F epd 5 p s → p32 p 1 ≠ confirmWord s →
    ∃ t, exec (.sysKeyRevoke mb) s = .next t ∧ t = respond mb stBadParam [] s ∧ fuses t = fuses s)

/-- R89: a lifecycle state is changed only by SYS_LIFECYCLE_ADVANCE, and only to the next state. -/
def Obligations.LifecycleOrder : Prop :=
  (∀ (c : Instr) (s t : State), exec c s = .next t →
    t.sys.lc = s.sys.lc ∨ ∃ mb, c = .sysLifecycleAdvance mb ∧ nextLc s.sys.lc.toNat = some t.sys.lc.toNat) ∧
  nextLc 0b0001 = some 0b0011 ∧ nextLc 0b0011 = some 0b0111 ∧ nextLc 0b0111 = some 0b1111 ∧ nextLc 0b1111 = none

/-- R90: to DEVELOP only with the key hash of at least one key slot fused. -/
def Obligations.DevelopNeedsKey : Prop :=
  ∀ (mb : Fin 8) (p : List Byte) (s : State), Asked mb 0x010E epdBh 5 p s → p32 p 1 = confirmWord s →
    nextLc s.sys.lc.toNat = some (p8 p 0) → p8 p 0 = 0b0011 →
    exec (.sysLifecycleAdvance mb) s = .next (
      if tget none s.sys.keyHash 0 = none ∧ tget none s.sys.keyHash 1 = none then respond mb stState [] s
      else respond mb stOk [3] (onSys (fun x => { x with lc := 0b0011 }) s))

/-- R74: RB_COUNT rises only by its call, to no more than the running image's RB_VERSION. -/
def Obligations.RollbackCounter : Prop :=
  (∀ (c : Instr) (s t : State), exec c s = .next t →
    t.sys.rbCount = s.sys.rbCount ∨ ∃ mb, c = .sysRollbackAdvance mb) ∧
  (∀ (mb : Fin 8) (p : List Byte) (s : State), Asked mb 0x010D epd 1 p s → inManufacture s = false →
    p8 p 0 = s.sys.rbCount → p8 p 0 ≤ s.sys.image.rbVersion →
    ∃ t, exec (.sysRollbackAdvance mb) s = .next t ∧ t = respond mb stOk (b1 (p8 p 0)) s ∧ fuses t = fuses s) ∧
  (∀ (mb : Fin 8) (p : List Byte) (s : State), Asked mb 0x010D epd 1 p s → inManufacture s = false →
    (p8 p 0 < s.sys.rbCount ∨ s.sys.image.rbVersion < p8 p 0) →
    ∃ t, exec (.sysRollbackAdvance mb) s = .next t ∧ t = respond mb stBadParam [] s ∧ fuses t = fuses s)

/-- R696: the sideband slave under POR_N, before the window is ready, and after. -/
def Obligations.WindowReady : Prop :=
  (∀ (addr : Word) (n : Nat) (d : List Byte) (b : Byte) (s : State), s.sys.por = true →
    exec (.sbRead addr n) s = .next s ∧ exec (.sbWrite addr d) s = .next s ∧ exec .sbStatus s = .next s ∧
    exec (.sbUnknownCommand b) s = .next s) ∧
  (∀ s : State, ∃ t, exec .porAssert s = .next t ∧ t.sys.por = true ∧ t.sys.sbOut = none ∧ t.sys.windowReady = false) ∧
  (∀ (c : Instr) (s t : State), s.sys.por = true → s.sys.sbOut = none → exec c s = .next t → t.sys.sbOut = none) ∧
  (∀ (addr : Word) (n : Nat) (d : List Byte) (s : State), s.sys.por = false → s.sys.windowReady = false →
    exec (.sbRead addr n) s = .next (onSys (fun x => { x with sbOut := some (List.replicate (4 * n) 0) }) s) ∧
    exec (.sbWrite addr d) s = .next (onSys (fun x => { x with discarded := true, sbOut := none }) s)) ∧
  (∀ s : State, s.sys.por = false → ∃ t b, exec .sbStatus s = .next t ∧ t.sys.sbOut = some [b] ∧
    b.getLsbD 0 = s.sys.windowReady ∧ b.getLsbD 1 = s.sys.bootHold ∧ b.getLsbD 2 = s.sys.discarded ∧
    ∀ k, 3 ≤ k → b.getLsbD k = false) ∧
  (∀ s : State, s.sys.por = false → s.sys.testMode = false → s.sys.bootStep = 1 →
    ∃ t, exec .pd0Running s = .next t ∧ t.sys.windowReady = true ∧ t.sys.bootStep = 2) ∧
  (∀ (c : Instr) (s t : State), exec c s = .next t → s.sys.windowReady = true → c ≠ .porAssert → t.sys.windowReady = true)

/-- R695: a misaligned sideband access is not carried out. -/
def Obligations.MisalignedSideband : Prop :=
  ∀ (addr : Word) (n : Nat) (d : List Byte) (s : State), s.sys.por = false → addr.toNat % 4 ≠ 0 →
    exec (.sbRead addr n) s = .next (onSys (fun x => { x with sbOut := some (List.replicate (4 * n) 0) }) s) ∧
    ∃ t, exec (.sbWrite addr d) s = .next t ∧ t = onSys (fun x => { x with discarded := true, sbOut := none }) s ∧
      ∃ u b, exec .sbStatus t = .next u ∧ u.sys.sbOut = some [b] ∧ b.getLsbD 2 = true

/-- R51: a busy mailbox ignores writes, each with EV_016. -/
def Obligations.BusyMailboxWritesIgnored : Prop :=
  ∀ (n off : Nat) (w : Word) (s : State), n < 8 → off < 256 → off % 4 = 0 → (mbAt s n).busy = true →
    (off = 0 ∧ w.getLsbD 0 = true ∧ s.sys.noCox = false) ∨ off = 8 ∨ off = 12 ∨ 16 ≤ off →
    windowWrite (0x100 + 0x100 * n + off) w s = raise 16 [] s ∧
    (s.sys.por = false → s.sys.windowReady = true →
      exec (.windowWrite (BitVec.ofNat 32 (0x100 + 0x100 * n + off)) w) s = .next (raise 16 [] s) ∧
      exec (.sbWrite (BitVec.ofNat 32 (0x100 + 0x100 * n + off)) (b4 w.toNat)) s =
        .next (raise 16 [] (onSys (fun x => { x with discarded := false, sbOut := none }) s)))

/-- R697: in the boot a RING write is accepted, and the request waits. -/
def Obligations.RingWaitsInBoot : Prop :=
  ∀ (n : Nat) (s : State), n < 8 → MailWf s → s.sys.por = false → s.sys.windowReady = true → s.sys.power = .boot →
    s.sys.bootHold = false → s.sys.noCox = false → (mbAt s n).busy = false →
    ∃ t, exec (.windowWrite (BitVec.ofNat 32 (0x100 + 0x100 * n)) 1) s = .next t ∧
      (mbAt t n).busy = true ∧ t.sys.waitQ = (if 2 ≤ n then s.sys.waitQ ++ [n] else s.sys.waitQ) ∧
      ∀ (i : Instr) (r : CallRow), callRow i = some r → exec i t = .next t

/-- R56: no call is carried out in HOLD. -/
def Obligations.NoCallInHold : Prop :=
  ∀ (i : Instr) (r : CallRow) (s : State), callRow i = some r → s.sys.power = .hold → s.sys.bootHold = false →
    exec i s = .next s

/-- R651: as the lead, an isolated half answers every newly rung mailbox with DENIED. -/
def Obligations.IsolatedLeadDenies : Prop :=
  ∀ (i : Instr) (r : CallRow) (s : State), callRow i = some r → callReady r.mb r.code r.sel s = true →
    leadIsolated s = true → r.code ≠ 0x0100 → r.code ≠ 0x0101 → exec i s = .next (respond r.mb stDenied [] s)

/-- R52: what is answered to a request out of form, and to a code unknown or not allowed in its mailbox. -/
def Obligations.BadRequestsRefused : Prop :=
  (∀ (i : Instr) (r : CallRow) (s : State), callRow i = some r → callReady r.mb r.code r.sel s = true →
    leadIsolated s = false →
    ((mbAt s r.mb).reqLen < 4 ∨ 240 < (mbAt s r.mb).reqLen ∨ reservedZero (mbAt s r.mb) = false →
      exec i s = .next (respond r.mb stBadParam [] s)) ∧
    (4 ≤ (mbAt s r.mb).reqLen → (mbAt s r.mb).reqLen ≤ 240 → reservedZero (mbAt s r.mb) = true → r.mb.val < 2 →
      r.allowed.pri = false → exec i s = .next (respond r.mb stBadCall [] s))) ∧
  (∀ (mb : Fin 8) (s : State), knownCall mb (reqCode (mbAt s mb)) = false →
    callReady mb (reqCode (mbAt s mb)) anyParams s = true → leadIsolated s = false →
    4 ≤ (mbAt s mb).reqLen → (mbAt s mb).reqLen ≤ 240 → reservedZero (mbAt s mb) = true →
    (s.sys.bootHold = true → s.sys.bootResult ≠ 0x13) →
    exec (.unknownCall mb) s = .next (respond mb stBadCall [] s))

/-- The states of the catalogue rows: a call outside them is answered STATE. -/
def Obligations.CallsOutsideTheirStates : Prop :=
  ∀ (i : Instr) (r : CallRow) (s : State), callRow i = some r → callReady r.mb r.code r.sel s = true →
    leadIsolated s = false → 4 ≤ (mbAt s r.mb).reqLen → (mbAt s r.mb).reqLen ≤ 240 →
    reservedZero (mbAt s r.mb) = true → (2 ≤ r.mb.val ∨ r.allowed.pri = true) →
    (allowedNow r.allowed s = false ∨
      (s.sys.bootHold = true ∧ s.sys.bootResult = 0x13 ∧ r.code ≠ 0x0100 ∧ r.code ≠ 0x0101 ∧ r.code ≠ 0x0104)) →
    exec i s = .next (respond r.mb stState [] s)

/-- R48 and R49: what a response leaves in its mailbox. -/
def Obligations.ResponseLayout : Prop :=
  ∀ (n st : Nat) (bytes : List Byte) (s : State), n < 8 → st < 256 → bytes.length ≤ 236 → MailWf s →
    (tslice 0 (mbAt (respond n st bytes s) n).payload 0 (4 + bytes.length) =
      b2 (reqCode (mbAt s n)) ++ [BitVec.ofNat 8 st, 0] ++ bytes) ∧
    (mbAt (respond n st bytes s) n).rspLen = 4 + bytes.length ∧
    (mbAt (respond n st bytes s) n).rspSeq = (mbAt s n).reqSeq ∧ (mbAt (respond n st bytes s) n).code = st ∧
    (mbAt (respond n st bytes s) n).done = true ∧ (mbAt (respond n st bytes s) n).busy = false ∧
    (respond n st bytes s).ev.sticky.getLsbD (8 + n) = true ∧
    ∀ k, k ≠ n → mbAt (respond n st bytes s) k = mbAt s k

/-- The mailboxes stay in canonical form under every step. -/
def Obligations.MailboxesCanonical : Prop :=
  ∀ (s t : State), MailWf s → step s = .next t → MailWf t

/-- R55: at most 8 jobs are open at once, and a ninth job call is answered BUSY. -/
def Obligations.NinthJobBusy : Prop :=
  (∀ (code : Nat) (par : List Byte) (f : Nat → State → State) (start : Stamp) (s : State), 8 ≤ s.sys.jobs.length →
    startJob code par f s = refuse stBusy s ∧ deferJob code par start s = refuse stBusy s) ∧
  (∀ (mb : Fin 8) (p : List Byte) (s : State), 8 ≤ s.sys.jobs.length → flashOk s = true →
    (Asked mb 0x0107 epd 0 p s → s.sys.imageOk = true →
      exec (.sysSettingsSave mb) s = .next (respond mb stBusy [] s)) ∧
    (Asked mb 0x010A epdBh 1 p s → p8 p 0 ≤ 1 → exec (.sysImageBegin mb) s = .next (respond mb stBusy [] s)) ∧
    (Asked mb 0x010C epdBh 0 p s → exec (.sysImageVerify mb) s = .next (respond mb stBusy [] s)))

/-- R55 and R698: the bounds of the job table under every step. -/
def Obligations.JobTableKept : Prop :=
  ∀ (s t : State), JobTable s → step s = .next t → JobTable t

/-- R524: a step engages only over engaged lower ones and releases only under released higher ones, so the engaged steps
stay a cascade. -/
def Obligations.GovernorCascade : Prop :=
  ∀ (s t : State), cascade s.pw.steps = true → step s = .next t → cascade t.pw.steps = true

/-- R601, R605, R614: what stands until the next power-on reset. -/
def Obligations.SealsAndStrapsStand : Prop :=
  ∀ (c : Instr) (s t : State), exec c s = .next t → c ≠ .porAssert →
    (s.sf.started = true → t.sf.started = true) ∧ s.sf.soFault &&& t.sf.soFault = s.sf.soFault ∧
    ((∀ st, c ≠ .porRelease st) → t.sys.bootSel = s.sys.bootSel ∧ t.sys.tileId = s.sys.tileId ∧ t.sys.testMode = s.sys.testMode) ∧
    ((∀ ok v, c ≠ .sfRomStart ok v) → t.sf.sealRaw = s.sf.sealRaw ∧ t.sf.sealsRead = s.sf.sealsRead)

/-- R606: the pairs are read again, and a change or an invalid pair is LOCKOUT. -/
def Obligations.SealReread : Prop :=
  ∀ (v : BitVec 12) (s : State), s.sf.started = true → s.sf.sealsRead = true → s.sf.part ≠ 2 →
    (v = s.sf.sealRaw → sealsValid v = true → ∃ u, u = reachUp (s.sf.sealAt + ms 100) s ∧
      exec (.sealReread v) s = .next (onSf (fun x => { x with sealAt := u.up }) u)) ∧
    (v ≠ s.sf.sealRaw ∨ sealsValid v = false →
      ∃ t, exec (.sealReread v) s = .next t ∧ t.sf.part = 2 ∧ t.sf.cause = 2 ∧ t.ev.sticky.getLsbD 581 = true)

/-- R632: clearing the HV request and closing the shutter are never refused. -/
def Obligations.ClearingNeverRefused : Prop :=
  ∀ (mb : Fin 8) (p : List Byte) (s : State),
    (Asked mb 0x0E01 epdPri 1 p s → p8 p 0 = 0 →
      ∃ bs t, exec (.sfHvRequest mb) s = .next (respond mb stOk bs t) ∧ t.sf.hvReq = false) ∧
    (Asked mb 0x0E03 epdPri 1 p s → p8 p 0 = 1 →
      ∃ bs t, exec (.sfShutterRequest mb) s = .next (respond mb stOk bs t) ∧ t.sf.hostClose = true)

/-- R654: the W1C sticky words. -/
def Obligations.StickyClear : Prop :=
  ∀ (k : Nat) (w : Word) (s : State), s.sys.por = false → s.sys.windowReady = true → k < 20 →
    ∃ t, exec (.eventStickyClear k w) s = .next t ∧
      (∀ b, t.ev.sticky.getLsbD b =
        (s.ev.sticky.getLsbD b && !(decide (32 * k ≤ b ∧ b < 32 * k + 32) && w.getLsbD (b - 32 * k)))) ∧
      t.ev.count = s.ev.count ∧ t.ev.last = s.ev.last ∧ t.ev.arg = s.ev.arg ∧ t.ev.en = s.ev.en

/-- R122: POL changes only with the block OFF. -/
def Obligations.PolarityChangeRefused : Prop :=
  ∀ (mb : Fin 8) (p : List Byte) (s : State) (k : Nat), Asked mb 0x0200 epd 3 p s →
    1 ≤ p8 p 1 → p8 p 1 ≤ 224 → p8 p 0 + p8 p 1 ≤ 256 → (bytesAt p 2 (p8 p 1)).length = p8 p 1 →
    (bytesAt p 2 (p8 p 1)).all modeByteOk = true →
    (∀ j, j < p8 p 1 → (blockAt s (p8 p 0 + j)).scan = none) → k < p8 p 1 →
    (blockAt s (p8 p 0 + k)).conf.mode.getLsbD 2 ≠ (BitVec.ofNat 8 (p8 p (2 + k))).getLsbD 2 →
    (blockAt s (p8 p 0 + k)).conf.mode.toNat % 4 ≠ 0 → p8 p (2 + k) % 4 ≠ 0 →
    exec (.feModeSet mb) s = .next (respond mb stState [] s)

/-- R300, R301, R316, R336: when a core issues nothing. -/
def Obligations.IdleCoreIssuesNothing : Prop :=
  ∀ (i : Instr) (n : Fin 4) (s : State), issuesOn i = some n →
    ((coreAt s n).state ≠ .running ∨ (coreAt s n).stall ≠ none ∨ busyState s = false) → exec i s = .next s

/-- R679: what the fall of POR_N leaves. -/
def Obligations.PowerOnReset : Prop :=
  ∀ (s : State), ∃ t, exec .porAssert s = .next t ∧ t.seq.en = 0 ∧ fuses t = fuses s ∧
    t.sys.cs0.cells = s.sys.cs0.cells ∧ t.sys.cs1.cells = s.sys.cs1.cells ∧ t.ev = State.reset.ev ∧ t.pending = s.pending

/-- R371: the syndrome of a read, its results, and what they guarantee. -/
def Obligations.SecDed : Prop :=
  (∀ (data : BitVec 256) (addr : BitVec 28) (e : LineErr),
    cleanCheck (data ^^^ e.data).toNat (addr ^^^ e.addr).toNat ^^^ (cleanCheck data.toNat addr.toNat ^^^ e.check.toNat) =
      syndrome e) ∧
  (∀ d, checkResult 0 = 0 ∧ delivered d 0 = d) ∧
  (∀ d i, i < 256 → checkResult (weight3.getD i 0) = 1 ∧ delivered d (weight3.getD i 0) = d ^^^ 2 ^ i) ∧
  (∀ d k, k < 16 → checkResult (2 ^ k) = 1 ∧ delivered d (2 ^ k) = d) ∧
  (∀ d j, j < 28 → checkResult (weight3.getD (256 + j) 0) = 2 ∧ delivered d (weight3.getD (256 + j) 0) = d) ∧
  (∀ d x, x ≠ 0 → (∀ i, i < 284 → x ≠ weight3.getD i 0) → (∀ k, k < 16 → x ≠ 2 ^ k) →
    checkResult x = (if 10 ≤ (maskList 16 x).length then 3 else 4) ∧ delivered d x = d) ∧
  (∀ e : LineErr, badWord e = decide (2 ≤ checkResult (syndrome e))) ∧
  (∀ d i, i < 256 → checkResult (syndrome { data := BitVec.ofNat 256 (2 ^ i), check := 0, addr := 0 }) = 1 ∧
    delivered (d ^^^ 2 ^ i) (syndrome { data := BitVec.ofNat 256 (2 ^ i), check := 0, addr := 0 }) = d) ∧
  (∀ d k, k < 16 → checkResult (syndrome { data := 0, check := BitVec.ofNat 16 (2 ^ k), addr := 0 }) = 1 ∧
    delivered d (syndrome { data := 0, check := BitVec.ofNat 16 (2 ^ k), addr := 0 }) = d) ∧
  (∀ (a : BitVec 272), (maskList 272 a.toNat).length = 2 →
    badWord { data := a.setWidth 256, check := (a >>> 256).setWidth 16, addr := 0 } = true) ∧
  (∀ (a : BitVec 272), (maskList 272 a.toNat).length ≤ 2 →
    checkResult (syndrome { data := a.setWidth 256, check := 0xFFFF ^^^ (a >>> 256).setWidth 16, addr := 0 }) = 3) ∧
  (∀ (a : BitVec 272), (maskList 272 a.toNat).length ≤ 3 →
    checkResult (syndrome { data := a.setWidth 256, check := (a >>> 256).setWidth 16, addr := 0 }) ≠ 3)

end
end

