-- ==== Sys2Proof/Laws/Calls.lean ====
section
/-! SUPPORT. The answering of calls: what an accepted request leads to, what a refusal leads to, and what a response leaves. -/
namespace Sys2Proof.Machine

/-- A call whose request is accepted is carried out. -/
theorem checkCall_accepted (n code : Nat) (a : Allowed) (len : Nat) (act : List Byte → State → Reply) (s : State)
    (h : accepted n code a len s = true) : checkCall n code a len act s = act (params (mbAt s n)) s := by
  simp only [accepted, Bool.and_eq_true, Bool.or_eq_true, Bool.not_eq_true', decide_eq_true_eq] at h
  unfold checkCall
  dsimp only
  rw [if_neg, if_neg, if_neg, if_neg, if_neg, if_neg, if_neg]
  · exact fun hl => absurd h.2 (by omega)
  · simp [h.1.2]
  · simp only [Bool.and_eq_true, decide_eq_true_eq, Bool.not_eq_true']
    intro hb
    obtain hb' | hb' := h.1.1.2
    · obtain hb' | hb' := hb'
      · rw [hb'] at hb; exact absurd hb.1.1 (by decide)
      · exact hb' hb.1.2
    · rw [hb'] at hb; exact absurd hb.2 (by decide)
  · simp only [Bool.and_eq_true, decide_eq_true_eq, Bool.not_eq_true']
    intro hb
    obtain hb' | hb' := h.1.1.1.2
    · omega
    · rw [hb'] at hb; exact absurd hb.2 (by decide)
  · simp [h.1.1.1.1.2]
  · have := h.1.1.1.1.1.2; omega
  · simp only [Bool.and_eq_true, decide_eq_true_eq]
    intro hb
    obtain hb' | hb' := h.1.1.1.1.1.1.2
    · rw [hb'] at hb; exact absurd hb.1 (by decide)
    · exact hb'.elim hb.2.1 hb.2.2

/-- A call row with a condition on the parameters, accepted. -/
theorem callSel_accepted (n code : Nat) (sel : List Byte → Bool) (a : Allowed) (len : Nat) (act : List Byte → State → Reply)
    (s : State) (h : accepted n code a len s = true) (hs : sel (params (mbAt s n)) = true) :
    callSel n code sel a len act s = .next (settle n (act (params (mbAt s n)) s)) := by
  have hc := checkCall_accepted n code a len act s h
  simp only [accepted, Bool.and_eq_true] at h
  have hr : callReady n code sel s = true := by
    have := h.1.1.1.1.1.1.1
    simp only [callReady, Bool.and_eq_true, Bool.and_true] at this ⊢
    exact ⟨this, hs⟩
  unfold callSel event
  rw [if_pos hr]
  exact congrArg (fun r => Host.Outcome.next (settle n r)) hc

/-- A call row, accepted. -/
theorem call_accepted (n code : Nat) (a : Allowed) (len : Nat) (act : List Byte → State → Reply) (s : State)
    (h : accepted n code a len s = true) : call n code a len act s = .next (settle n (act (params (mbAt s n)) s)) :=
  callSel_accepted n code _ a len act s h rfl

/-- A call row whose effect follows its answer, accepted. -/
theorem callThen_accepted (n code : Nat) (sel : List Byte → Bool) (a : Allowed) (len : Nat) (act : List Byte → State → Reply)
    (after : List Byte → State → State) (s : State) (h : accepted n code a len s = true)
    (hs : sel (params (mbAt s n)) = true) :
    callThen n code sel a len act after s = .next (match act (params (mbAt s n)) s with
      | .done st bs t => if st = stOk then after (params (mbAt s n)) (respond n st bs t) else respond n st bs t
      | .later t => settle n (.later t)) := by
  have hc := checkCall_accepted n code a len act s h
  simp only [accepted, Bool.and_eq_true] at h
  have hr : callReady n code sel s = true := by
    have := h.1.1.1.1.1.1.1
    simp only [callReady, Bool.and_eq_true, Bool.and_true] at this ⊢
    exact ⟨this, hs⟩
  unfold callThen event
  rw [if_pos hr]
  dsimp only
  first | (rw [hc]; done) | (rw [hc]; rfl)

end Sys2Proof.Machine
end

