-- ==== Sys2Proof/Laws/CallRows.lean ====
section
/-! SUPPORT. How each call command runs as its catalogue row says, and what a request that is not ready or refused leads to. -/
namespace Sys2Proof.Machine

/-- How a call runs: its request is checked, its act answers, and a reply that is not OK is placed as it is. -/
def RunsAs (r : CallRow) (s : State) (o : Out) : Prop :=
  ∃ (act : List Byte → State → Reply) (fin : List Byte → Reply → State),
    (∀ p st bs t, st ≠ stOk → fin p (.done st bs t) = respond r.mb st bs t) ∧
    o = event (callReady r.mb r.code r.sel s)
      (fun s => fin (params (mbAt s r.mb)) (checkCall r.mb r.code r.allowed r.len act s)) s

/-- A call row with a condition on the parameters. -/
theorem callSel_runs (mb : Fin 8) (code : Nat) (a : Allowed) (len : Nat) (sel : List Byte → Bool) (act : List Byte → State → Reply)
    (s : State) : RunsAs ⟨mb, code, a, len, sel⟩ s (callSel mb code sel a len act s) :=
  ⟨act, fun _ => settle mb, fun _ _ _ _ _ => rfl, rfl⟩

/-- A call row. -/
theorem call_runs (mb : Fin 8) (code : Nat) (a : Allowed) (len : Nat) (act : List Byte → State → Reply) (s : State) :
    RunsAs ⟨mb, code, a, len, anyParams⟩ s (call mb code a len act s) :=
  callSel_runs mb code a len anyParams act s

/-- A call row whose effect follows its answer. -/
theorem callThen_runs (mb : Fin 8) (code : Nat) (a : Allowed) (len : Nat) (sel : List Byte → Bool) (act : List Byte → State → Reply)
    (f : List Byte → State → State) (s : State) : RunsAs ⟨mb, code, a, len, sel⟩ s (callThen mb code sel a len act f s) :=
  ⟨act, fun p x => match x with
    | .done st bs t => if st = stOk then f p (respond mb st bs t) else respond mb st bs t
    | .later t => settle mb (.later t), fun _ _ _ _ h => if_neg h, rfl⟩

theorem execSysNop_runs (mb : Fin 8) (s : State) : RunsAs ⟨mb, 0x0100, epdBhPri, 0, anyParams⟩ s (execSysNop mb s) := call_runs _ _ _ _ _ _
theorem execSysIdent_runs (mb : Fin 8) (s : State) : RunsAs ⟨mb, 0x0101, epdBhPri, 0, anyParams⟩ s (execSysIdent mb s) := call_runs _ _ _ _ _ _
theorem execSysResetWarm_runs (mb : Fin 8) (s : State) : RunsAs ⟨mb, 0x0102, epdBh, 2, (fun p => decide (p8 p 0 ≠ 1 ∧ p8 p 0 ≠ 2))⟩ s (execSysResetWarm mb s) := callThen_runs _ _ _ _ _ _ _ _
theorem execSysResetCox_runs (mb : Fin 8) (s : State) : RunsAs ⟨mb, 0x0102, epdBh, 2, (fun p => decide (p8 p 0 = 1))⟩ s (execSysResetCox mb s) := callThen_runs _ _ _ _ _ _ _ _
theorem execSysResetBoth_runs (mb : Fin 8) (s : State) : RunsAs ⟨mb, 0x0102, epdBh, 2, (fun p => decide (p8 p 0 = 2))⟩ s (execSysResetBoth mb s) := callThen_runs _ _ _ _ _ _ _ _
theorem execSysLeadSet_runs (mb : Fin 8) (s : State) : RunsAs ⟨mb, 0x0103, epd, 1, anyParams⟩ s (execSysLeadSet mb s) := call_runs _ _ _ _ _ _
theorem execSysBootReport_runs (mb : Fin 8) (s : State) : RunsAs ⟨mb, 0x0104, epdBh, 1, anyParams⟩ s (execSysBootReport mb s) := call_runs _ _ _ _ _ _
theorem execSysFlashInfo_runs (mb : Fin 8) (s : State) : RunsAs ⟨mb, 0x0105, epdBh, 1, anyParams⟩ s (execSysFlashInfo mb s) := call_runs _ _ _ _ _ _
theorem execSysSettingRead_runs (mb : Fin 8) (s : State) : RunsAs ⟨mb, 0x0106, epd, 4, anyParams⟩ s (execSysSettingRead mb s) := call_runs _ _ _ _ _ _
theorem execSysSettingsSave_runs (mb : Fin 8) (s : State) : RunsAs ⟨mb, 0x0107, epd, 0, anyParams⟩ s (execSysSettingsSave mb s) := call_runs _ _ _ _ _ _
theorem execSysImageCommit_runs (mb : Fin 8) (s : State) : RunsAs ⟨mb, 0x0108, epdBh, 1, anyParams⟩ s (execSysImageCommit mb s) := call_runs _ _ _ _ _ _
theorem execSysJobStatus_runs (mb : Fin 8) (s : State) : RunsAs ⟨mb, 0x0109, epdBhPri, 2, anyParams⟩ s (execSysJobStatus mb s) := call_runs _ _ _ _ _ _
theorem execSysImageBegin_runs (mb : Fin 8) (s : State) : RunsAs ⟨mb, 0x010A, epdBh, 1, anyParams⟩ s (execSysImageBegin mb s) := call_runs _ _ _ _ _ _
theorem execSysImageData_runs (mb : Fin 8) (s : State) : RunsAs ⟨mb, 0x010B, epdBh, 8, anyParams⟩ s (execSysImageData mb s) := call_runs _ _ _ _ _ _
theorem execSysImageVerify_runs (mb : Fin 8) (s : State) : RunsAs ⟨mb, 0x010C, epdBh, 0, anyParams⟩ s (execSysImageVerify mb s) := call_runs _ _ _ _ _ _
theorem execSysRollbackAdvance_runs (mb : Fin 8) (s : State) : RunsAs ⟨mb, 0x010D, epd, 1, anyParams⟩ s (execSysRollbackAdvance mb s) := call_runs _ _ _ _ _ _
theorem execSysLifecycleAdvance_runs (mb : Fin 8) (s : State) : RunsAs ⟨mb, 0x010E, epdBh, 5, anyParams⟩ s (execSysLifecycleAdvance mb s) := call_runs _ _ _ _ _ _
theorem execSysKeyRevoke_runs (mb : Fin 8) (s : State) : RunsAs ⟨mb, 0x010F, epd, 5, anyParams⟩ s (execSysKeyRevoke mb s) := call_runs _ _ _ _ _ _
theorem execFeModeSet_runs (mb : Fin 8) (s : State) : RunsAs ⟨mb, 0x0200, epd, 3, anyParams⟩ s (execFeModeSet mb s) := call_runs _ _ _ _ _ _
theorem execFeModeGet_runs (mb : Fin 8) (s : State) : RunsAs ⟨mb, 0x0201, epd, 2, anyParams⟩ s (execFeModeGet mb s) := call_runs _ _ _ _ _ _
theorem execFeDacSet_runs (mb : Fin 8) (s : State) : RunsAs ⟨mb, 0x0202, epd, 4, anyParams⟩ s (execFeDacSet mb s) := call_runs _ _ _ _ _ _
theorem execFeDacGet_runs (mb : Fin 8) (s : State) : RunsAs ⟨mb, 0x0203, epd, 1, anyParams⟩ s (execFeDacGet mb s) := call_runs _ _ _ _ _ _
theorem execFePixelWrite_runs (mb : Fin 8) (s : State) : RunsAs ⟨mb, 0x0204, epd, 8, anyParams⟩ s (execFePixelWrite mb s) := call_runs _ _ _ _ _ _
theorem execFePixelRead_runs (mb : Fin 8) (s : State) : RunsAs ⟨mb, 0x0205, epd, 6, anyParams⟩ s (execFePixelRead mb s) := call_runs _ _ _ _ _ _
theorem execFeTrimRun_runs (mb : Fin 8) (s : State) : RunsAs ⟨mb, 0x0206, pOrD, 6, anyParams⟩ s (execFeTrimRun mb s) := call_runs _ _ _ _ _ _
theorem execFeScurve_runs (mb : Fin 8) (s : State) : RunsAs ⟨mb, 0x0207, pOrD, 9, anyParams⟩ s (execFeScurve mb s) := call_runs _ _ _ _ _ _
theorem execFeScanResult_runs (mb : Fin 8) (s : State) : RunsAs ⟨mb, 0x0208, epd, 8, anyParams⟩ s (execFeScanResult mb s) := call_runs _ _ _ _ _ _
theorem execFeBumpTest_runs (mb : Fin 8) (s : State) : RunsAs ⟨mb, 0x0209, pOrD, 2, anyParams⟩ s (execFeBumpTest mb s) := call_runs _ _ _ _ _ _
theorem execFeBumpResult_runs (mb : Fin 8) (s : State) : RunsAs ⟨mb, 0x020A, epd, 6, anyParams⟩ s (execFeBumpResult mb s) := call_runs _ _ _ _ _ _
theorem execFeTpInject_runs (mb : Fin 8) (s : State) : RunsAs ⟨mb, 0x020B, pOrD, 9, anyParams⟩ s (execFeTpInject mb s) := call_runs _ _ _ _ _ _
theorem execFeCrabConfig_runs (mb : Fin 8) (s : State) : RunsAs ⟨mb, 0x020C, epd, 11, anyParams⟩ s (execFeCrabConfig mb s) := call_runs _ _ _ _ _ _
theorem execFeCrabList_runs (mb : Fin 8) (s : State) : RunsAs ⟨mb, 0x020D, epd, 2, anyParams⟩ s (execFeCrabList mb s) := call_runs _ _ _ _ _ _
theorem execFeLeakConfig_runs (mb : Fin 8) (s : State) : RunsAs ⟨mb, 0x020E, epd, 7, anyParams⟩ s (execFeLeakConfig mb s) := call_runs _ _ _ _ _ _
theorem execFeFrameConfig_runs (mb : Fin 8) (s : State) : RunsAs ⟨mb, 0x020F, epd, 12, anyParams⟩ s (execFeFrameConfig mb s) := call_runs _ _ _ _ _ _
theorem execFeChargeCal_runs (mb : Fin 8) (s : State) : RunsAs ⟨mb, 0x0210, pOrD, 2, anyParams⟩ s (execFeChargeCal mb s) := call_runs _ _ _ _ _ _
theorem execFeChargeRead_runs (mb : Fin 8) (s : State) : RunsAs ⟨mb, 0x0211, epd, 1, anyParams⟩ s (execFeChargeRead mb s) := call_runs _ _ _ _ _ _
theorem execFeChargeWrite_runs (mb : Fin 8) (s : State) : RunsAs ⟨mb, 0x0212, epd, 67, anyParams⟩ s (execFeChargeWrite mb s) := call_runs _ _ _ _ _ _
theorem execFeScrubStatus_runs (mb : Fin 8) (s : State) : RunsAs ⟨mb, 0x0213, epdPri, 1, anyParams⟩ s (execFeScrubStatus mb s) := call_runs _ _ _ _ _ _
theorem execFeStatus_runs (mb : Fin 8) (s : State) : RunsAs ⟨mb, 0x0214, epdPri, 1, anyParams⟩ s (execFeStatus mb s) := call_runs _ _ _ _ _ _
theorem execTmStatus_runs (mb : Fin 8) (s : State) : RunsAs ⟨mb, 0x0300, epdPri, 1, anyParams⟩ s (execTmStatus mb s) := call_runs _ _ _ _ _ _
theorem execTmCalStatus_runs (mb : Fin 8) (s : State) : RunsAs ⟨mb, 0x0301, epd, 2, anyParams⟩ s (execTmCalStatus mb s) := call_runs _ _ _ _ _ _
theorem execTmCalRun_runs (mb : Fin 8) (s : State) : RunsAs ⟨mb, 0x0302, epd, 3, anyParams⟩ s (execTmCalRun mb s) := call_runs _ _ _ _ _ _
theorem execTmBandConfig_runs (mb : Fin 8) (s : State) : RunsAs ⟨mb, 0x0303, epd, 7, anyParams⟩ s (execTmBandConfig mb s) := call_runs _ _ _ _ _ _
theorem execTmPeriodRead_runs (mb : Fin 8) (s : State) : RunsAs ⟨mb, 0x0304, epd, 4, anyParams⟩ s (execTmPeriodRead mb s) := call_runs _ _ _ _ _ _
theorem execTmPeriodWrite_runs (mb : Fin 8) (s : State) : RunsAs ⟨mb, 0x0305, epd, 4, anyParams⟩ s (execTmPeriodWrite mb s) := call_runs _ _ _ _ _ _
theorem execTmSkewRead_runs (mb : Fin 8) (s : State) : RunsAs ⟨mb, 0x0306, epd, 4, anyParams⟩ s (execTmSkewRead mb s) := call_runs _ _ _ _ _ _
theorem execTmSkewWrite_runs (mb : Fin 8) (s : State) : RunsAs ⟨mb, 0x0307, epd, 4, anyParams⟩ s (execTmSkewWrite mb s) := call_runs _ _ _ _ _ _
theorem execTmWalkRead_runs (mb : Fin 8) (s : State) : RunsAs ⟨mb, 0x0308, epd, 1, anyParams⟩ s (execTmWalkRead mb s) := call_runs _ _ _ _ _ _
theorem execTmWalkWrite_runs (mb : Fin 8) (s : State) : RunsAs ⟨mb, 0x0309, epd, 164, anyParams⟩ s (execTmWalkWrite mb s) := call_runs _ _ _ _ _ _
theorem execTmWalkCal_runs (mb : Fin 8) (s : State) : RunsAs ⟨mb, 0x030A, pOrD, 4, anyParams⟩ s (execTmWalkCal mb s) := call_runs _ _ _ _ _ _
theorem execTmSkewCal_runs (mb : Fin 8) (s : State) : RunsAs ⟨mb, 0x030B, pOrD, 6, anyParams⟩ s (execTmSkewCal mb s) := call_runs _ _ _ _ _ _
theorem execTmInlRead_runs (mb : Fin 8) (s : State) : RunsAs ⟨mb, 0x030C, epd, 1, anyParams⟩ s (execTmInlRead mb s) := call_runs _ _ _ _ _ _
theorem execTmTempConfig_runs (mb : Fin 8) (s : State) : RunsAs ⟨mb, 0x030D, epd, 5, anyParams⟩ s (execTmTempConfig mb s) := call_runs _ _ _ _ _ _
theorem execTmDroopRead_runs (mb : Fin 8) (s : State) : RunsAs ⟨mb, 0x030E, epdPri, 2, anyParams⟩ s (execTmDroopRead mb s) := call_runs _ _ _ _ _ _
theorem execTmStats_runs (mb : Fin 8) (s : State) : RunsAs ⟨mb, 0x030F, epd, 2, anyParams⟩ s (execTmStats mb s) := call_runs _ _ _ _ _ _
theorem execHpStatus_runs (mb : Fin 8) (s : State) : RunsAs ⟨mb, 0x0400, epdPri, 1, anyParams⟩ s (execHpStatus mb s) := call_runs _ _ _ _ _ _
theorem execHpOutputSet_runs (mb : Fin 8) (s : State) : RunsAs ⟨mb, 0x0401, epd, 3, anyParams⟩ s (execHpOutputSet mb s) := call_runs _ _ _ _ _ _
theorem execHpClusterConfig_runs (mb : Fin 8) (s : State) : RunsAs ⟨mb, 0x0402, epd, 4, anyParams⟩ s (execHpClusterConfig mb s) := call_runs _ _ _ _ _ _
theorem execHpLossConfig_runs (mb : Fin 8) (s : State) : RunsAs ⟨mb, 0x0403, epd, 13, anyParams⟩ s (execHpLossConfig mb s) := call_runs _ _ _ _ _ _
theorem execHpLossStatus_runs (mb : Fin 8) (s : State) : RunsAs ⟨mb, 0x0404, epdPri, 1, anyParams⟩ s (execHpLossStatus mb s) := call_runs _ _ _ _ _ _
theorem execHpGateConfig_runs (mb : Fin 8) (s : State) : RunsAs ⟨mb, 0x0405, epd, 6, anyParams⟩ s (execHpGateConfig mb s) := call_runs _ _ _ _ _ _
theorem execHpMergeConfig_runs (mb : Fin 8) (s : State) : RunsAs ⟨mb, 0x0406, epd, 4, anyParams⟩ s (execHpMergeConfig mb s) := call_runs _ _ _ _ _ _
theorem execHpMergeStatus_runs (mb : Fin 8) (s : State) : RunsAs ⟨mb, 0x0407, epd, 0, anyParams⟩ s (execHpMergeStatus mb s) := call_runs _ _ _ _ _ _
theorem execHpReorderConfig_runs (mb : Fin 8) (s : State) : RunsAs ⟨mb, 0x0408, epd, 2, anyParams⟩ s (execHpReorderConfig mb s) := call_runs _ _ _ _ _ _
theorem execHpStats_runs (mb : Fin 8) (s : State) : RunsAs ⟨mb, 0x0409, epd, 2, anyParams⟩ s (execHpStats mb s) := call_runs _ _ _ _ _ _
theorem execHpTpRead_runs (mb : Fin 8) (s : State) : RunsAs ⟨mb, 0x040A, epd, 2, anyParams⟩ s (execHpTpRead mb s) := call_runs _ _ _ _ _ _
theorem execTrStatus_runs (mb : Fin 8) (s : State) : RunsAs ⟨mb, 0x0500, epdPri, 0, anyParams⟩ s (execTrStatus mb s) := call_runs _ _ _ _ _ _
theorem execTrUnitConfig_runs (mb : Fin 8) (s : State) : RunsAs ⟨mb, 0x0501, epd, 68, anyParams⟩ s (execTrUnitConfig mb s) := call_runs _ _ _ _ _ _
theorem execTrUnitRead_runs (mb : Fin 8) (s : State) : RunsAs ⟨mb, 0x0502, epd, 1, anyParams⟩ s (execTrUnitRead mb s) := call_runs _ _ _ _ _ _
theorem execTrUnitEnable_runs (mb : Fin 8) (s : State) : RunsAs ⟨mb, 0x0503, epdPri, 4, anyParams⟩ s (execTrUnitEnable mb s) := call_runs _ _ _ _ _ _
theorem execTrPatchConfig_runs (mb : Fin 8) (s : State) : RunsAs ⟨mb, 0x0504, epd, 2, anyParams⟩ s (execTrPatchConfig mb s) := call_runs _ _ _ _ _ _
theorem execTrAdcStatus_runs (mb : Fin 8) (s : State) : RunsAs ⟨mb, 0x0505, pOrD, 1, anyParams⟩ s (execTrAdcStatus mb s) := call_runs _ _ _ _ _ _
theorem execTrAdcFreeze_runs (mb : Fin 8) (s : State) : RunsAs ⟨mb, 0x0506, pOrD, 9, anyParams⟩ s (execTrAdcFreeze mb s) := call_runs _ _ _ _ _ _
theorem execTrDomainConfig_runs (mb : Fin 8) (s : State) : RunsAs ⟨mb, 0x0507, epd, 8, anyParams⟩ s (execTrDomainConfig mb s) := call_runs _ _ _ _ _ _
theorem execTrArm_runs (mb : Fin 8) (s : State) : RunsAs ⟨mb, 0x0508, pOrDPri, 4, anyParams⟩ s (execTrArm mb s) := call_runs _ _ _ _ _ _
theorem execTrDisarm_runs (mb : Fin 8) (s : State) : RunsAs ⟨mb, 0x0509, pOrDPri, 0, anyParams⟩ s (execTrDisarm mb s) := call_runs _ _ _ _ _ _
theorem execTrDomainStatus_runs (mb : Fin 8) (s : State) : RunsAs ⟨mb, 0x050A, epd, 0, anyParams⟩ s (execTrDomainStatus mb s) := call_runs _ _ _ _ _ _
theorem execTrSoftFire_runs (mb : Fin 8) (s : State) : RunsAs ⟨mb, 0x050B, pOrD, 10, anyParams⟩ s (execTrSoftFire mb s) := call_runs _ _ _ _ _ _
theorem execTrStats_runs (mb : Fin 8) (s : State) : RunsAs ⟨mb, 0x050C, epd, 2, anyParams⟩ s (execTrStats mb s) := call_runs _ _ _ _ _ _
theorem execTrTrigioConfig_runs (mb : Fin 8) (s : State) : RunsAs ⟨mb, 0x050D, epd, 4, anyParams⟩ s (execTrTrigioConfig mb s) := call_runs _ _ _ _ _ _
theorem execTrSampleRead_runs (mb : Fin 8) (s : State) : RunsAs ⟨mb, 0x050E, pOrD, 4, anyParams⟩ s (execTrSampleRead mb s) := call_runs _ _ _ _ _ _
theorem execWeStatus_runs (mb : Fin 8) (s : State) : RunsAs ⟨mb, 0x0600, epdPri, 1, anyParams⟩ s (execWeStatus mb s) := call_runs _ _ _ _ _ _
theorem execWeLoadBegin_runs (mb : Fin 8) (s : State) : RunsAs ⟨mb, 0x0601, pOrD, 1, anyParams⟩ s (execWeLoadBegin mb s) := call_runs _ _ _ _ _ _
theorem execWeLoadData_runs (mb : Fin 8) (s : State) : RunsAs ⟨mb, 0x0602, pOrD, 8, anyParams⟩ s (execWeLoadData mb s) := call_runs _ _ _ _ _ _
theorem execWeLoadEnd_runs (mb : Fin 8) (s : State) : RunsAs ⟨mb, 0x0603, pOrD, 1, anyParams⟩ s (execWeLoadEnd mb s) := call_runs _ _ _ _ _ _
theorem execWeStart_runs (mb : Fin 8) (s : State) : RunsAs ⟨mb, 0x0604, pOrD, 1, anyParams⟩ s (execWeStart mb s) := call_runs _ _ _ _ _ _
theorem execWeStop_runs (mb : Fin 8) (s : State) : RunsAs ⟨mb, 0x0605, epdPri, 1, anyParams⟩ s (execWeStop mb s) := call_runs _ _ _ _ _ _
theorem execWeMemRead_runs (mb : Fin 8) (s : State) : RunsAs ⟨mb, 0x0606, pOrD, 8, anyParams⟩ s (execWeMemRead mb s) := call_runs _ _ _ _ _ _
theorem execWeParamWrite_runs (mb : Fin 8) (s : State) : RunsAs ⟨mb, 0x0607, pOrD, 8, anyParams⟩ s (execWeParamWrite mb s) := call_runs _ _ _ _ _ _
theorem execWeRegRead_runs (mb : Fin 8) (s : State) : RunsAs ⟨mb, 0x0608, pOrD, 3, anyParams⟩ s (execWeRegRead mb s) := call_runs _ _ _ _ _ _
theorem execWeSignal_runs (mb : Fin 8) (s : State) : RunsAs ⟨mb, 0x0609, pOrDPri, 5, anyParams⟩ s (execWeSignal mb s) := call_runs _ _ _ _ _ _
theorem execWeStats_runs (mb : Fin 8) (s : State) : RunsAs ⟨mb, 0x060A, epd, 2, anyParams⟩ s (execWeStats mb s) := call_runs _ _ _ _ _ _
theorem execBbStatus_runs (mb : Fin 8) (s : State) : RunsAs ⟨mb, 0x0700, epdPri, 1, anyParams⟩ s (execBbStatus mb s) := call_runs _ _ _ _ _ _
theorem execBbQueueMapSet_runs (mb : Fin 8) (s : State) : RunsAs ⟨mb, 0x0701, epd, 12, anyParams⟩ s (execBbQueueMapSet mb s) := call_runs _ _ _ _ _ _
theorem execBbQueueMapGet_runs (mb : Fin 8) (s : State) : RunsAs ⟨mb, 0x0702, epd, 0, anyParams⟩ s (execBbQueueMapGet mb s) := call_runs _ _ _ _ _ _
theorem execBbRegionSet_runs (mb : Fin 8) (s : State) : RunsAs ⟨mb, 0x0703, epd, 32, anyParams⟩ s (execBbRegionSet mb s) := call_runs _ _ _ _ _ _
theorem execBbRegionGet_runs (mb : Fin 8) (s : State) : RunsAs ⟨mb, 0x0704, epd, 0, anyParams⟩ s (execBbRegionGet mb s) := call_runs _ _ _ _ _ _
theorem execBbHoldOutput_runs (mb : Fin 8) (s : State) : RunsAs ⟨mb, 0x0705, epdPri, 4, anyParams⟩ s (execBbHoldOutput mb s) := call_runs _ _ _ _ _ _
theorem execBbFlush_runs (mb : Fin 8) (s : State) : RunsAs ⟨mb, 0x0706, epd, 2, anyParams⟩ s (execBbFlush mb s) := call_runs _ _ _ _ _ _
theorem execBbReset_runs (mb : Fin 8) (s : State) : RunsAs ⟨mb, 0x0707, epd, 1, anyParams⟩ s (execBbReset mb s) := call_runs _ _ _ _ _ _
theorem execBbPeek_runs (mb : Fin 8) (s : State) : RunsAs ⟨mb, 0x0708, epd, 4, anyParams⟩ s (execBbPeek mb s) := call_runs _ _ _ _ _ _
theorem execBbStats_runs (mb : Fin 8) (s : State) : RunsAs ⟨mb, 0x0709, epd, 2, anyParams⟩ s (execBbStats mb s) := call_runs _ _ _ _ _ _
theorem execMemStatus_runs (mb : Fin 8) (s : State) : RunsAs ⟨mb, 0x070A, epdPri, 0, anyParams⟩ s (execMemStatus mb s) := call_runs _ _ _ _ _ _
theorem execMemScrubConfig_runs (mb : Fin 8) (s : State) : RunsAs ⟨mb, 0x070B, epd, 3, anyParams⟩ s (execMemScrubConfig mb s) := call_runs _ _ _ _ _ _
theorem execMemScrubRange_runs (mb : Fin 8) (s : State) : RunsAs ⟨mb, 0x070C, epd, 12, anyParams⟩ s (execMemScrubRange mb s) := call_runs _ _ _ _ _ _
theorem execMemScrubSummary_runs (mb : Fin 8) (s : State) : RunsAs ⟨mb, 0x070D, epd, 2, anyParams⟩ s (execMemScrubSummary mb s) := call_runs _ _ _ _ _ _
theorem execMemDefectRead_runs (mb : Fin 8) (s : State) : RunsAs ⟨mb, 0x070E, epd, 2, anyParams⟩ s (execMemDefectRead mb s) := call_runs _ _ _ _ _ _
theorem execMemCheckerWrite_runs (mb : Fin 8) (s : State) : RunsAs ⟨mb, 0x070F, epd, 40, anyParams⟩ s (execMemCheckerWrite mb s) := call_runs _ _ _ _ _ _
theorem execMemCheckerRead_runs (mb : Fin 8) (s : State) : RunsAs ⟨mb, 0x0710, epd, 4, anyParams⟩ s (execMemCheckerRead mb s) := call_runs _ _ _ _ _ _
theorem execMemTrain_runs (mb : Fin 8) (s : State) : RunsAs ⟨mb, 0x0711, epd, 0, anyParams⟩ s (execMemTrain mb s) := call_runs _ _ _ _ _ _
theorem execCxStatus_runs (mb : Fin 8) (s : State) : RunsAs ⟨mb, 0x0800, epdPri, 1, anyParams⟩ s (execCxStatus mb s) := call_runs _ _ _ _ _ _
theorem execCxQueueConfig_runs (mb : Fin 8) (s : State) : RunsAs ⟨mb, 0x0801, epd, 5, anyParams⟩ s (execCxQueueConfig mb s) := call_runs _ _ _ _ _ _
theorem execCxQueueGet_runs (mb : Fin 8) (s : State) : RunsAs ⟨mb, 0x0802, epd, 0, anyParams⟩ s (execCxQueueGet mb s) := call_runs _ _ _ _ _ _
theorem execCxChainRead_runs (mb : Fin 8) (s : State) : RunsAs ⟨mb, 0x0803, epd, 3, anyParams⟩ s (execCxChainRead mb s) := call_runs _ _ _ _ _ _
theorem execCxStats_runs (mb : Fin 8) (s : State) : RunsAs ⟨mb, 0x0804, epd, 2, anyParams⟩ s (execCxStats mb s) := call_runs _ _ _ _ _ _
theorem execCxCodeTest_runs (mb : Fin 8) (s : State) : RunsAs ⟨mb, 0x0805, epd, 4, anyParams⟩ s (execCxCodeTest mb s) := call_runs _ _ _ _ _ _
theorem execLkStatus_runs (mb : Fin 8) (s : State) : RunsAs ⟨mb, 0x0900, epdPri, 1, anyParams⟩ s (execLkStatus mb s) := call_runs _ _ _ _ _ _
theorem execLkLaneStatus_runs (mb : Fin 8) (s : State) : RunsAs ⟨mb, 0x0901, epd, 1, anyParams⟩ s (execLkLaneStatus mb s) := call_runs _ _ _ _ _ _
theorem execLkConfig_runs (mb : Fin 8) (s : State) : RunsAs ⟨mb, 0x0902, epd, 9, anyParams⟩ s (execLkConfig mb s) := call_runs _ _ _ _ _ _
theorem execLkRenegotiate_runs (mb : Fin 8) (s : State) : RunsAs ⟨mb, 0x0903, epd, 1, anyParams⟩ s (execLkRenegotiate mb s) := call_runs _ _ _ _ _ _
theorem execLkRateSet_runs (mb : Fin 8) (s : State) : RunsAs ⟨mb, 0x0904, pOrD, 2, anyParams⟩ s (execLkRateSet mb s) := call_runs _ _ _ _ _ _
theorem execLkClassConfig_runs (mb : Fin 8) (s : State) : RunsAs ⟨mb, 0x0905, epd, 4, anyParams⟩ s (execLkClassConfig mb s) := call_runs _ _ _ _ _ _
theorem execLkTc2WeightSet_runs (mb : Fin 8) (s : State) : RunsAs ⟨mb, 0x0906, epd, 16, anyParams⟩ s (execLkTc2WeightSet mb s) := call_runs _ _ _ _ _ _
theorem execLkPacketCloseSet_runs (mb : Fin 8) (s : State) : RunsAs ⟨mb, 0x0907, epd, 4, anyParams⟩ s (execLkPacketCloseSet mb s) := call_runs _ _ _ _ _ _
theorem execLkRepechageClear_runs (mb : Fin 8) (s : State) : RunsAs ⟨mb, 0x0908, epd, 1, anyParams⟩ s (execLkRepechageClear mb s) := call_runs _ _ _ _ _ _
theorem execLkPrbsConfig_runs (mb : Fin 8) (s : State) : RunsAs ⟨mb, 0x0909, epd, 4, anyParams⟩ s (execLkPrbsConfig mb s) := call_runs _ _ _ _ _ _
theorem execLkPrbsInjectSingle_runs (mb : Fin 8) (s : State) : RunsAs ⟨mb, 0x090A, epd, 4, (fun p => decide (p8 p 1 = 0 ∨ 3 < p8 p 1))⟩ s (execLkPrbsInjectSingle mb s) := callSel_runs _ _ _ _ _ _ _
theorem execLkPrbsInjectBurst_runs (mb : Fin 8) (s : State) : RunsAs ⟨mb, 0x090A, epd, 4, (fun p => decide (p8 p 1 = 1))⟩ s (execLkPrbsInjectBurst mb s) := callSel_runs _ _ _ _ _ _ _
theorem execLkPrbsInjectRate_runs (mb : Fin 8) (s : State) : RunsAs ⟨mb, 0x090A, epd, 4, (fun p => decide (p8 p 1 = 2))⟩ s (execLkPrbsInjectRate mb s) := callSel_runs _ _ _ _ _ _ _
theorem execLkPrbsInjectStop_runs (mb : Fin 8) (s : State) : RunsAs ⟨mb, 0x090A, epd, 4, (fun p => decide (p8 p 1 = 3))⟩ s (execLkPrbsInjectStop mb s) := callSel_runs _ _ _ _ _ _ _
theorem execLkPrbsRead_runs (mb : Fin 8) (s : State) : RunsAs ⟨mb, 0x090B, epd, 2, anyParams⟩ s (execLkPrbsRead mb s) := call_runs _ _ _ _ _ _
theorem execLkEthConfig_runs (mb : Fin 8) (s : State) : RunsAs ⟨mb, 0x090C, epd, 29, anyParams⟩ s (execLkEthConfig mb s) := call_runs _ _ _ _ _ _
theorem execLkEthStatus_runs (mb : Fin 8) (s : State) : RunsAs ⟨mb, 0x090D, epd, 1, anyParams⟩ s (execLkEthStatus mb s) := call_runs _ _ _ _ _ _
theorem execLkSlStatus_runs (mb : Fin 8) (s : State) : RunsAs ⟨mb, 0x090E, epdPri, 1, anyParams⟩ s (execLkSlStatus mb s) := call_runs _ _ _ _ _ _
theorem execLkSlConfig_runs (mb : Fin 8) (s : State) : RunsAs ⟨mb, 0x090F, epd, 1, anyParams⟩ s (execLkSlConfig mb s) := call_runs _ _ _ _ _ _
theorem execLkStats_runs (mb : Fin 8) (s : State) : RunsAs ⟨mb, 0x0910, epd, 2, anyParams⟩ s (execLkStats mb s) := call_runs _ _ _ _ _ _
theorem execLkTc0Load_runs (mb : Fin 8) (s : State) : RunsAs ⟨mb, 0x0911, epdPri, 0, anyParams⟩ s (execLkTc0Load mb s) := call_runs _ _ _ _ _ _
theorem execTimeStatus_runs (mb : Fin 8) (s : State) : RunsAs ⟨mb, 0x0A00, epdPri, 0, anyParams⟩ s (execTimeStatus mb s) := call_runs _ _ _ _ _ _
theorem execTimeNow_runs (mb : Fin 8) (s : State) : RunsAs ⟨mb, 0x0A01, epdPri, 0, anyParams⟩ s (execTimeNow mb s) := call_runs _ _ _ _ _ _
theorem execTimeFreqConfig_runs (mb : Fin 8) (s : State) : RunsAs ⟨mb, 0x0A02, epd, 16, anyParams⟩ s (execTimeFreqConfig mb s) := call_runs _ _ _ _ _ _
theorem execTimeServoConfig_runs (mb : Fin 8) (s : State) : RunsAs ⟨mb, 0x0A03, epd, 24, anyParams⟩ s (execTimeServoConfig mb s) := call_runs _ _ _ _ _ _
theorem execTimeSet_runs (mb : Fin 8) (s : State) : RunsAs ⟨mb, 0x0A04, epd, 16, anyParams⟩ s (execTimeSet mb s) := call_runs _ _ _ _ _ _
theorem execTimePtpConfig_runs (mb : Fin 8) (s : State) : RunsAs ⟨mb, 0x0A05, epd, 16, anyParams⟩ s (execTimePtpConfig mb s) := call_runs _ _ _ _ _ _
theorem execTimePpsConfig_runs (mb : Fin 8) (s : State) : RunsAs ⟨mb, 0x0A06, epd, 16, anyParams⟩ s (execTimePpsConfig mb s) := call_runs _ _ _ _ _ _
theorem execTiConfig_runs (mb : Fin 8) (s : State) : RunsAs ⟨mb, 0x0A07, epd, 16, anyParams⟩ s (execTiConfig mb s) := call_runs _ _ _ _ _ _
theorem execTiStampRead_runs (mb : Fin 8) (s : State) : RunsAs ⟨mb, 0x0A08, epd, 2, anyParams⟩ s (execTiStampRead mb s) := call_runs _ _ _ _ _ _
theorem execSplitConfig_runs (mb : Fin 8) (s : State) : RunsAs ⟨mb, 0x0A09, epd, 12, anyParams⟩ s (execSplitConfig mb s) := call_runs _ _ _ _ _ _
theorem execSplitRead_runs (mb : Fin 8) (s : State) : RunsAs ⟨mb, 0x0A0A, epd, 4, anyParams⟩ s (execSplitRead mb s) := call_runs _ _ _ _ _ _
theorem execFreqStart_runs (mb : Fin 8) (s : State) : RunsAs ⟨mb, 0x0A0B, epd, 14, anyParams⟩ s (execFreqStart mb s) := call_runs _ _ _ _ _ _
theorem execFreqRead_runs (mb : Fin 8) (s : State) : RunsAs ⟨mb, 0x0A0C, epd, 2, anyParams⟩ s (execFreqRead mb s) := call_runs _ _ _ _ _ _
theorem execFreqStop_runs (mb : Fin 8) (s : State) : RunsAs ⟨mb, 0x0A0D, epd, 1, anyParams⟩ s (execFreqStop mb s) := call_runs _ _ _ _ _ _
theorem execTimeStats_runs (mb : Fin 8) (s : State) : RunsAs ⟨mb, 0x0A0E, epd, 1, anyParams⟩ s (execTimeStats mb s) := call_runs _ _ _ _ _ _
theorem execPwStatus_runs (mb : Fin 8) (s : State) : RunsAs ⟨mb, 0x0B00, epdPri, 0, anyParams⟩ s (execPwStatus mb s) := call_runs _ _ _ _ _ _
theorem execPwStateSet_runs (mb : Fin 8) (s : State) : RunsAs ⟨mb, 0x0B01, epd, 2, anyParams⟩ s (execPwStateSet mb s) := callThen_runs _ _ _ _ _ _ _ _
theorem execPwBudgetConfig_runs (mb : Fin 8) (s : State) : RunsAs ⟨mb, 0x0B02, epd, 12, anyParams⟩ s (execPwBudgetConfig mb s) := call_runs _ _ _ _ _ _
theorem execPwThermalConfig_runs (mb : Fin 8) (s : State) : RunsAs ⟨mb, 0x0B03, epd, 4, anyParams⟩ s (execPwThermalConfig mb s) := call_runs _ _ _ _ _ _
theorem execPwThermalRead_runs (mb : Fin 8) (s : State) : RunsAs ⟨mb, 0x0B04, epdPri, 0, anyParams⟩ s (execPwThermalRead mb s) := call_runs _ _ _ _ _ _
theorem execPwWakeSet_runs (mb : Fin 8) (s : State) : RunsAs ⟨mb, 0x0B05, epd, 10, anyParams⟩ s (execPwWakeSet mb s) := call_runs _ _ _ _ _ _
theorem execPwWakeClear_runs (mb : Fin 8) (s : State) : RunsAs ⟨mb, 0x0B06, epd, 1, anyParams⟩ s (execPwWakeClear mb s) := call_runs _ _ _ _ _ _
theorem execPwAutoConfig_runs (mb : Fin 8) (s : State) : RunsAs ⟨mb, 0x0B07, epd, 14, anyParams⟩ s (execPwAutoConfig mb s) := call_runs _ _ _ _ _ _
theorem execPwDomainRead_runs (mb : Fin 8) (s : State) : RunsAs ⟨mb, 0x0B08, epd, 2, anyParams⟩ s (execPwDomainRead mb s) := call_runs _ _ _ _ _ _
theorem execPwStats_runs (mb : Fin 8) (s : State) : RunsAs ⟨mb, 0x0B09, epd, 1, anyParams⟩ s (execPwStats mb s) := call_runs _ _ _ _ _ _
theorem execScStatus_runs (mb : Fin 8) (s : State) : RunsAs ⟨mb, 0x0C00, epdPri, 0, anyParams⟩ s (execScStatus mb s) := call_runs _ _ _ _ _ _
theorem execScChannelConfig_runs (mb : Fin 8) (s : State) : RunsAs ⟨mb, 0x0C01, epd, 36, anyParams⟩ s (execScChannelConfig mb s) := call_runs _ _ _ _ _ _
theorem execScChannelRead_runs (mb : Fin 8) (s : State) : RunsAs ⟨mb, 0x0C02, epd, 1, anyParams⟩ s (execScChannelRead mb s) := call_runs _ _ _ _ _ _
theorem execScSequenceSet_runs (mb : Fin 8) (s : State) : RunsAs ⟨mb, 0x0C03, epd, 31, anyParams⟩ s (execScSequenceSet mb s) := call_runs _ _ _ _ _ _
theorem execScResultRead_runs (mb : Fin 8) (s : State) : RunsAs ⟨mb, 0x0C04, epdPri, 2, anyParams⟩ s (execScResultRead mb s) := call_runs _ _ _ _ _ _
theorem execScInject_runs (mb : Fin 8) (s : State) : RunsAs ⟨mb, 0x0C05, epdPri, 1, anyParams⟩ s (execScInject mb s) := call_runs _ _ _ _ _ _
theorem execScInjectRead_runs (mb : Fin 8) (s : State) : RunsAs ⟨mb, 0x0C06, epdPri, 2, anyParams⟩ s (execScInjectRead mb s) := call_runs _ _ _ _ _ _
theorem execScCalibrate_runs (mb : Fin 8) (s : State) : RunsAs ⟨mb, 0x0C07, epd, 1, anyParams⟩ s (execScCalibrate mb s) := call_runs _ _ _ _ _ _
theorem execScDiagRun_runs (mb : Fin 8) (s : State) : RunsAs ⟨mb, 0x0C08, epd, 2, anyParams⟩ s (execScDiagRun mb s) := call_runs _ _ _ _ _ _
theorem execScChannelStatus_runs (mb : Fin 8) (s : State) : RunsAs ⟨mb, 0x0C09, epd, 1, anyParams⟩ s (execScChannelStatus mb s) := call_runs _ _ _ _ _ _
theorem execScStats_runs (mb : Fin 8) (s : State) : RunsAs ⟨mb, 0x0C0A, epd, 1, anyParams⟩ s (execScStats mb s) := call_runs _ _ _ _ _ _
theorem execLdStatus_runs (mb : Fin 8) (s : State) : RunsAs ⟨mb, 0x0D00, epdPri, 0, anyParams⟩ s (execLdStatus mb s) := call_runs _ _ _ _ _ _
theorem execLdChainDiscover_runs (mb : Fin 8) (s : State) : RunsAs ⟨mb, 0x0D01, epd, 1, anyParams⟩ s (execLdChainDiscover mb s) := call_runs _ _ _ _ _ _
theorem execLdChainRead_runs (mb : Fin 8) (s : State) : RunsAs ⟨mb, 0x0D02, epd, 1, anyParams⟩ s (execLdChainRead mb s) := call_runs _ _ _ _ _ _
theorem execLdEmitterConfig_runs (mb : Fin 8) (s : State) : RunsAs ⟨mb, 0x0D03, epd, 22, anyParams⟩ s (execLdEmitterConfig mb s) := call_runs _ _ _ _ _ _
theorem execLdEmitterRead_runs (mb : Fin 8) (s : State) : RunsAs ⟨mb, 0x0D04, epd, 1, anyParams⟩ s (execLdEmitterRead mb s) := call_runs _ _ _ _ _ _
theorem execLdSchedule_runs (mb : Fin 8) (s : State) : RunsAs ⟨mb, 0x0D05, epd, 27, anyParams⟩ s (execLdSchedule mb s) := call_runs _ _ _ _ _ _
theorem execLdCancel_runs (mb : Fin 8) (s : State) : RunsAs ⟨mb, 0x0D06, epdPri, 2, anyParams⟩ s (execLdCancel mb s) := call_runs _ _ _ _ _ _
theorem execLdScheduleRead_runs (mb : Fin 8) (s : State) : RunsAs ⟨mb, 0x0D07, epd, 1, anyParams⟩ s (execLdScheduleRead mb s) := call_runs _ _ _ _ _ _
theorem execLdDiagRead_runs (mb : Fin 8) (s : State) : RunsAs ⟨mb, 0x0D08, epdPri, 2, anyParams⟩ s (execLdDiagRead mb s) := call_runs _ _ _ _ _ _
theorem execLdProofRun_runs (mb : Fin 8) (s : State) : RunsAs ⟨mb, 0x0D09, epd, 1, anyParams⟩ s (execLdProofRun mb s) := call_runs _ _ _ _ _ _
theorem execLdSinkConfig_runs (mb : Fin 8) (s : State) : RunsAs ⟨mb, 0x0D0A, epd, 7, anyParams⟩ s (execLdSinkConfig mb s) := call_runs _ _ _ _ _ _
theorem execLdStats_runs (mb : Fin 8) (s : State) : RunsAs ⟨mb, 0x0D0B, epd, 2, anyParams⟩ s (execLdStats mb s) := call_runs _ _ _ _ _ _
theorem execSfStatus_runs (mb : Fin 8) (s : State) : RunsAs ⟨mb, 0x0E00, epdPri, 0, anyParams⟩ s (execSfStatus mb s) := call_runs _ _ _ _ _ _
theorem execSfHvRequest_runs (mb : Fin 8) (s : State) : RunsAs ⟨mb, 0x0E01, epdPri, 1, anyParams⟩ s (execSfHvRequest mb s) := call_runs _ _ _ _ _ _
theorem execSfReset_runs (mb : Fin 8) (s : State) : RunsAs ⟨mb, 0x0E02, epdPri, 0, anyParams⟩ s (execSfReset mb s) := call_runs _ _ _ _ _ _
theorem execSfShutterRequest_runs (mb : Fin 8) (s : State) : RunsAs ⟨mb, 0x0E03, epdPri, 1, anyParams⟩ s (execSfShutterRequest mb s) := call_runs _ _ _ _ _ _
theorem execSfDarkTest_runs (mb : Fin 8) (s : State) : RunsAs ⟨mb, 0x0E04, epd, 0, anyParams⟩ s (execSfDarkTest mb s) := call_runs _ _ _ _ _ _
theorem execSfTripLog_runs (mb : Fin 8) (s : State) : RunsAs ⟨mb, 0x0E05, epd, 1, anyParams⟩ s (execSfTripLog mb s) := call_runs _ _ _ _ _ _
theorem execSfStats_runs (mb : Fin 8) (s : State) : RunsAs ⟨mb, 0x0E06, epd, 1, anyParams⟩ s (execSfStats mb s) := call_runs _ _ _ _ _ _
theorem execRedStatus_runs (mb : Fin 8) (s : State) : RunsAs ⟨mb, 0x0F00, epdPri, 0, anyParams⟩ s (execRedStatus mb s) := call_runs _ _ _ _ _ _
theorem execRedClaimRead_runs (mb : Fin 8) (s : State) : RunsAs ⟨mb, 0x0F01, epd, 0, anyParams⟩ s (execRedClaimRead mb s) := call_runs _ _ _ _ _ _
theorem execRedRejoin_runs (mb : Fin 8) (s : State) : RunsAs ⟨mb, 0x0F02, epd, 10, anyParams⟩ s (execRedRejoin mb s) := call_runs _ _ _ _ _ _
theorem execEvtRead_runs (mb : Fin 8) (s : State) : RunsAs ⟨mb, 0x0F03, epdPri, 3, anyParams⟩ s (execEvtRead mb s) := call_runs _ _ _ _ _ _
theorem execEvtClear_runs (mb : Fin 8) (s : State) : RunsAs ⟨mb, 0x0F04, epdPri, 5, anyParams⟩ s (execEvtClear mb s) := call_runs _ _ _ _ _ _
theorem execEvtConfig_runs (mb : Fin 8) (s : State) : RunsAs ⟨mb, 0x0F05, epd, 5, anyParams⟩ s (execEvtConfig mb s) := call_runs _ _ _ _ _ _
theorem execEvtSummary_runs (mb : Fin 8) (s : State) : RunsAs ⟨mb, 0x0F06, epdPri, 0, anyParams⟩ s (execEvtSummary mb s) := call_runs _ _ _ _ _ _
theorem execFlogRead_runs (mb : Fin 8) (s : State) : RunsAs ⟨mb, 0x0F07, epd, 3, anyParams⟩ s (execFlogRead mb s) := call_runs _ _ _ _ _ _
theorem execFlogClear_runs (mb : Fin 8) (s : State) : RunsAs ⟨mb, 0x0F08, epd, 0, anyParams⟩ s (execFlogClear mb s) := call_runs _ _ _ _ _ _
theorem execFlogMirror_runs (mb : Fin 8) (s : State) : RunsAs ⟨mb, 0x0F09, epd, 0, anyParams⟩ s (execFlogMirror mb s) := call_runs _ _ _ _ _ _
theorem execFlogMirrorRead_runs (mb : Fin 8) (s : State) : RunsAs ⟨mb, 0x0F0A, epd, 5, anyParams⟩ s (execFlogMirrorRead mb s) := call_runs _ _ _ _ _ _
theorem execEvtStats_runs (mb : Fin 8) (s : State) : RunsAs ⟨mb, 0x0F0B, epd, 1, anyParams⟩ s (execEvtStats mb s) := call_runs _ _ _ _ _ _
theorem execEvtTraceConfig_runs (mb : Fin 8) (s : State) : RunsAs ⟨mb, 0x0F0C, epd, 4, anyParams⟩ s (execEvtTraceConfig mb s) := call_runs _ _ _ _ _ _
/-- Every call command runs as its row says. -/
theorem exec_runs (i : Instr) (r : CallRow) (s : State) (h : callRow i = some r) : RunsAs r s (exec i s) := by
  cases i
  case sysNop mb => cases h; exact execSysNop_runs mb s
  case sysIdent mb => cases h; exact execSysIdent_runs mb s
  case sysResetWarm mb => cases h; exact execSysResetWarm_runs mb s
  case sysResetCox mb => cases h; exact execSysResetCox_runs mb s
  case sysResetBoth mb => cases h; exact execSysResetBoth_runs mb s
  case sysLeadSet mb => cases h; exact execSysLeadSet_runs mb s
  case sysBootReport mb => cases h; exact execSysBootReport_runs mb s
  case sysFlashInfo mb => cases h; exact execSysFlashInfo_runs mb s
  case sysSettingRead mb => cases h; exact execSysSettingRead_runs mb s
  case sysSettingsSave mb => cases h; exact execSysSettingsSave_runs mb s
  case sysImageCommit mb => cases h; exact execSysImageCommit_runs mb s
  case sysJobStatus mb => cases h; exact execSysJobStatus_runs mb s
  case sysImageBegin mb => cases h; exact execSysImageBegin_runs mb s
  case sysImageData mb => cases h; exact execSysImageData_runs mb s
  case sysImageVerify mb => cases h; exact execSysImageVerify_runs mb s
  case sysRollbackAdvance mb => cases h; exact execSysRollbackAdvance_runs mb s
  case sysLifecycleAdvance mb => cases h; exact execSysLifecycleAdvance_runs mb s
  case sysKeyRevoke mb => cases h; exact execSysKeyRevoke_runs mb s
  case feModeSet mb => cases h; exact execFeModeSet_runs mb s
  case feModeGet mb => cases h; exact execFeModeGet_runs mb s
  case feDacSet mb => cases h; exact execFeDacSet_runs mb s
  case feDacGet mb => cases h; exact execFeDacGet_runs mb s
  case fePixelWrite mb => cases h; exact execFePixelWrite_runs mb s
  case fePixelRead mb => cases h; exact execFePixelRead_runs mb s
  case feTrimRun mb => cases h; exact execFeTrimRun_runs mb s
  case feScurve mb => cases h; exact execFeScurve_runs mb s
  case feScanResult mb => cases h; exact execFeScanResult_runs mb s
  case feBumpTest mb => cases h; exact execFeBumpTest_runs mb s
  case feBumpResult mb => cases h; exact execFeBumpResult_runs mb s
  case feTpInject mb => cases h; exact execFeTpInject_runs mb s
  case feCrabConfig mb => cases h; exact execFeCrabConfig_runs mb s
  case feCrabList mb => cases h; exact execFeCrabList_runs mb s
  case feLeakConfig mb => cases h; exact execFeLeakConfig_runs mb s
  case feFrameConfig mb => cases h; exact execFeFrameConfig_runs mb s
  case feChargeCal mb => cases h; exact execFeChargeCal_runs mb s
  case feChargeRead mb => cases h; exact execFeChargeRead_runs mb s
  case feChargeWrite mb => cases h; exact execFeChargeWrite_runs mb s
  case feScrubStatus mb => cases h; exact execFeScrubStatus_runs mb s
  case feStatus mb => cases h; exact execFeStatus_runs mb s
  case tmStatus mb => cases h; exact execTmStatus_runs mb s
  case tmCalStatus mb => cases h; exact execTmCalStatus_runs mb s
  case tmCalRun mb => cases h; exact execTmCalRun_runs mb s
  case tmBandConfig mb => cases h; exact execTmBandConfig_runs mb s
  case tmPeriodRead mb => cases h; exact execTmPeriodRead_runs mb s
  case tmPeriodWrite mb => cases h; exact execTmPeriodWrite_runs mb s
  case tmSkewRead mb => cases h; exact execTmSkewRead_runs mb s
  case tmSkewWrite mb => cases h; exact execTmSkewWrite_runs mb s
  case tmWalkRead mb => cases h; exact execTmWalkRead_runs mb s
  case tmWalkWrite mb => cases h; exact execTmWalkWrite_runs mb s
  case tmWalkCal mb => cases h; exact execTmWalkCal_runs mb s
  case tmSkewCal mb => cases h; exact execTmSkewCal_runs mb s
  case tmInlRead mb => cases h; exact execTmInlRead_runs mb s
  case tmTempConfig mb => cases h; exact execTmTempConfig_runs mb s
  case tmDroopRead mb => cases h; exact execTmDroopRead_runs mb s
  case tmStats mb => cases h; exact execTmStats_runs mb s
  case hpStatus mb => cases h; exact execHpStatus_runs mb s
  case hpOutputSet mb => cases h; exact execHpOutputSet_runs mb s
  case hpClusterConfig mb => cases h; exact execHpClusterConfig_runs mb s
  case hpLossConfig mb => cases h; exact execHpLossConfig_runs mb s
  case hpLossStatus mb => cases h; exact execHpLossStatus_runs mb s
  case hpGateConfig mb => cases h; exact execHpGateConfig_runs mb s
  case hpMergeConfig mb => cases h; exact execHpMergeConfig_runs mb s
  case hpMergeStatus mb => cases h; exact execHpMergeStatus_runs mb s
  case hpReorderConfig mb => cases h; exact execHpReorderConfig_runs mb s
  case hpStats mb => cases h; exact execHpStats_runs mb s
  case hpTpRead mb => cases h; exact execHpTpRead_runs mb s
  case trStatus mb => cases h; exact execTrStatus_runs mb s
  case trUnitConfig mb => cases h; exact execTrUnitConfig_runs mb s
  case trUnitRead mb => cases h; exact execTrUnitRead_runs mb s
  case trUnitEnable mb => cases h; exact execTrUnitEnable_runs mb s
  case trPatchConfig mb => cases h; exact execTrPatchConfig_runs mb s
  case trAdcStatus mb => cases h; exact execTrAdcStatus_runs mb s
  case trAdcFreeze mb => cases h; exact execTrAdcFreeze_runs mb s
  case trDomainConfig mb => cases h; exact execTrDomainConfig_runs mb s
  case trArm mb => cases h; exact execTrArm_runs mb s
  case trDisarm mb => cases h; exact execTrDisarm_runs mb s
  case trDomainStatus mb => cases h; exact execTrDomainStatus_runs mb s
  case trSoftFire mb => cases h; exact execTrSoftFire_runs mb s
  case trStats mb => cases h; exact execTrStats_runs mb s
  case trTrigioConfig mb => cases h; exact execTrTrigioConfig_runs mb s
  case trSampleRead mb => cases h; exact execTrSampleRead_runs mb s
  case weStatus mb => cases h; exact execWeStatus_runs mb s
  case weLoadBegin mb => cases h; exact execWeLoadBegin_runs mb s
  case weLoadData mb => cases h; exact execWeLoadData_runs mb s
  case weLoadEnd mb => cases h; exact execWeLoadEnd_runs mb s
  case weStart mb => cases h; exact execWeStart_runs mb s
  case weStop mb => cases h; exact execWeStop_runs mb s
  case weMemRead mb => cases h; exact execWeMemRead_runs mb s
  case weParamWrite mb => cases h; exact execWeParamWrite_runs mb s
  case weRegRead mb => cases h; exact execWeRegRead_runs mb s
  case weSignal mb => cases h; exact execWeSignal_runs mb s
  case weStats mb => cases h; exact execWeStats_runs mb s
  case bbStatus mb => cases h; exact execBbStatus_runs mb s
  case bbQueueMapSet mb => cases h; exact execBbQueueMapSet_runs mb s
  case bbQueueMapGet mb => cases h; exact execBbQueueMapGet_runs mb s
  case bbRegionSet mb => cases h; exact execBbRegionSet_runs mb s
  case bbRegionGet mb => cases h; exact execBbRegionGet_runs mb s
  case bbHoldOutput mb => cases h; exact execBbHoldOutput_runs mb s
  case bbFlush mb => cases h; exact execBbFlush_runs mb s
  case bbReset mb => cases h; exact execBbReset_runs mb s
  case bbPeek mb => cases h; exact execBbPeek_runs mb s
  case bbStats mb => cases h; exact execBbStats_runs mb s
  case memStatus mb => cases h; exact execMemStatus_runs mb s
  case memScrubConfig mb => cases h; exact execMemScrubConfig_runs mb s
  case memScrubRange mb => cases h; exact execMemScrubRange_runs mb s
  case memScrubSummary mb => cases h; exact execMemScrubSummary_runs mb s
  case memDefectRead mb => cases h; exact execMemDefectRead_runs mb s
  case memCheckerWrite mb => cases h; exact execMemCheckerWrite_runs mb s
  case memCheckerRead mb => cases h; exact execMemCheckerRead_runs mb s
  case memTrain mb => cases h; exact execMemTrain_runs mb s
  case cxStatus mb => cases h; exact execCxStatus_runs mb s
  case cxQueueConfig mb => cases h; exact execCxQueueConfig_runs mb s
  case cxQueueGet mb => cases h; exact execCxQueueGet_runs mb s
  case cxChainRead mb => cases h; exact execCxChainRead_runs mb s
  case cxStats mb => cases h; exact execCxStats_runs mb s
  case cxCodeTest mb => cases h; exact execCxCodeTest_runs mb s
  case lkStatus mb => cases h; exact execLkStatus_runs mb s
  case lkLaneStatus mb => cases h; exact execLkLaneStatus_runs mb s
  case lkConfig mb => cases h; exact execLkConfig_runs mb s
  case lkRenegotiate mb => cases h; exact execLkRenegotiate_runs mb s
  case lkRateSet mb => cases h; exact execLkRateSet_runs mb s
  case lkClassConfig mb => cases h; exact execLkClassConfig_runs mb s
  case lkTc2WeightSet mb => cases h; exact execLkTc2WeightSet_runs mb s
  case lkPacketCloseSet mb => cases h; exact execLkPacketCloseSet_runs mb s
  case lkRepechageClear mb => cases h; exact execLkRepechageClear_runs mb s
  case lkPrbsConfig mb => cases h; exact execLkPrbsConfig_runs mb s
  case lkPrbsInjectSingle mb => cases h; exact execLkPrbsInjectSingle_runs mb s
  case lkPrbsInjectBurst mb => cases h; exact execLkPrbsInjectBurst_runs mb s
  case lkPrbsInjectRate mb => cases h; exact execLkPrbsInjectRate_runs mb s
  case lkPrbsInjectStop mb => cases h; exact execLkPrbsInjectStop_runs mb s
  case lkPrbsRead mb => cases h; exact execLkPrbsRead_runs mb s
  case lkEthConfig mb => cases h; exact execLkEthConfig_runs mb s
  case lkEthStatus mb => cases h; exact execLkEthStatus_runs mb s
  case lkSlStatus mb => cases h; exact execLkSlStatus_runs mb s
  case lkSlConfig mb => cases h; exact execLkSlConfig_runs mb s
  case lkStats mb => cases h; exact execLkStats_runs mb s
  case lkTc0Load mb => cases h; exact execLkTc0Load_runs mb s
  case timeStatus mb => cases h; exact execTimeStatus_runs mb s
  case timeNow mb => cases h; exact execTimeNow_runs mb s
  case timeFreqConfig mb => cases h; exact execTimeFreqConfig_runs mb s
  case timeServoConfig mb => cases h; exact execTimeServoConfig_runs mb s
  case timeSet mb => cases h; exact execTimeSet_runs mb s
  case timePtpConfig mb => cases h; exact execTimePtpConfig_runs mb s
  case timePpsConfig mb => cases h; exact execTimePpsConfig_runs mb s
  case tiConfig mb => cases h; exact execTiConfig_runs mb s
  case tiStampRead mb => cases h; exact execTiStampRead_runs mb s
  case splitConfig mb => cases h; exact execSplitConfig_runs mb s
  case splitRead mb => cases h; exact execSplitRead_runs mb s
  case freqStart mb => cases h; exact execFreqStart_runs mb s
  case freqRead mb => cases h; exact execFreqRead_runs mb s
  case freqStop mb => cases h; exact execFreqStop_runs mb s
  case timeStats mb => cases h; exact execTimeStats_runs mb s
  case pwStatus mb => cases h; exact execPwStatus_runs mb s
  case pwStateSet mb => cases h; exact execPwStateSet_runs mb s
  case pwBudgetConfig mb => cases h; exact execPwBudgetConfig_runs mb s
  case pwThermalConfig mb => cases h; exact execPwThermalConfig_runs mb s
  case pwThermalRead mb => cases h; exact execPwThermalRead_runs mb s
  case pwWakeSet mb => cases h; exact execPwWakeSet_runs mb s
  case pwWakeClear mb => cases h; exact execPwWakeClear_runs mb s
  case pwAutoConfig mb => cases h; exact execPwAutoConfig_runs mb s
  case pwDomainRead mb => cases h; exact execPwDomainRead_runs mb s
  case pwStats mb => cases h; exact execPwStats_runs mb s
  case scStatus mb => cases h; exact execScStatus_runs mb s
  case scChannelConfig mb => cases h; exact execScChannelConfig_runs mb s
  case scChannelRead mb => cases h; exact execScChannelRead_runs mb s
  case scSequenceSet mb => cases h; exact execScSequenceSet_runs mb s
  case scResultRead mb => cases h; exact execScResultRead_runs mb s
  case scInject mb => cases h; exact execScInject_runs mb s
  case scInjectRead mb => cases h; exact execScInjectRead_runs mb s
  case scCalibrate mb => cases h; exact execScCalibrate_runs mb s
  case scDiagRun mb => cases h; exact execScDiagRun_runs mb s
  case scChannelStatus mb => cases h; exact execScChannelStatus_runs mb s
  case scStats mb => cases h; exact execScStats_runs mb s
  case ldStatus mb => cases h; exact execLdStatus_runs mb s
  case ldChainDiscover mb => cases h; exact execLdChainDiscover_runs mb s
  case ldChainRead mb => cases h; exact execLdChainRead_runs mb s
  case ldEmitterConfig mb => cases h; exact execLdEmitterConfig_runs mb s
  case ldEmitterRead mb => cases h; exact execLdEmitterRead_runs mb s
  case ldSchedule mb => cases h; exact execLdSchedule_runs mb s
  case ldCancel mb => cases h; exact execLdCancel_runs mb s
  case ldScheduleRead mb => cases h; exact execLdScheduleRead_runs mb s
  case ldDiagRead mb => cases h; exact execLdDiagRead_runs mb s
  case ldProofRun mb => cases h; exact execLdProofRun_runs mb s
  case ldSinkConfig mb => cases h; exact execLdSinkConfig_runs mb s
  case ldStats mb => cases h; exact execLdStats_runs mb s
  case sfStatus mb => cases h; exact execSfStatus_runs mb s
  case sfHvRequest mb => cases h; exact execSfHvRequest_runs mb s
  case sfReset mb => cases h; exact execSfReset_runs mb s
  case sfShutterRequest mb => cases h; exact execSfShutterRequest_runs mb s
  case sfDarkTest mb => cases h; exact execSfDarkTest_runs mb s
  case sfTripLog mb => cases h; exact execSfTripLog_runs mb s
  case sfStats mb => cases h; exact execSfStats_runs mb s
  case redStatus mb => cases h; exact execRedStatus_runs mb s
  case redClaimRead mb => cases h; exact execRedClaimRead_runs mb s
  case redRejoin mb => cases h; exact execRedRejoin_runs mb s
  case evtRead mb => cases h; exact execEvtRead_runs mb s
  case evtClear mb => cases h; exact execEvtClear_runs mb s
  case evtConfig mb => cases h; exact execEvtConfig_runs mb s
  case evtSummary mb => cases h; exact execEvtSummary_runs mb s
  case flogRead mb => cases h; exact execFlogRead_runs mb s
  case flogClear mb => cases h; exact execFlogClear_runs mb s
  case flogMirror mb => cases h; exact execFlogMirror_runs mb s
  case flogMirrorRead mb => cases h; exact execFlogMirrorRead_runs mb s
  case evtStats mb => cases h; exact execEvtStats_runs mb s
  case evtTraceConfig mb => cases h; exact execEvtTraceConfig_runs mb s
  all_goals cases h

/-- Where no request is ready for a call, the command leaves the state. -/
theorem RunsAs.idle {r : CallRow} {s : State} {o : Out} (h : RunsAs r s o) (hr : callReady r.mb r.code r.sel s = false) : o = .next s := by
  obtain ⟨act, fin, _, rfl⟩ := h
  unfold event
  rw [if_neg (by rw [hr]; decide)]

/-- A request that the checks refuse is answered with the status, and nothing else is done. -/
theorem RunsAs.refused {r : CallRow} {s : State} {o : Out} {st : Nat} (h : RunsAs r s o)
    (hr : callReady r.mb r.code r.sel s = true) (hn : st ≠ stOk)
    (hc : ∀ act, checkCall r.mb r.code r.allowed r.len act s = refuse st s) : o = .next (respond r.mb st [] s) := by
  obtain ⟨act, fin, hf, rfl⟩ := h
  unfold event
  rw [if_pos hr]
  dsimp only
  rw [hc]
  exact congrArg Host.Outcome.next (hf _ _ _ _ hn)

end Sys2Proof.Machine
end

