-- ==== Sys2Proof/Laws/Data.lean ====
section
/-! SUPPORT. The laws of the canonical tables: read after write, and that every table operation keeps the canonical form. -/
namespace Sys2Proof.Machine

variable {α : Type}

/-- Below the first key every entry is the default. -/
theorem tget_below (d : α) [DecidableEq α] : ∀ (t : Table α) (lo i : Nat), twf d lo t = true → i < lo → tget d t i = d
  | [], _, _, _, _ => rfl
  | (k, v) :: r, lo, i, h, hi => by
    simp only [twf, Bool.and_eq_true, decide_eq_true_eq] at h
    have h1 : i ≠ k := by omega
    have h2 : i < k := by omega
    simp [tget, h1, h2]

/-- A canonical table is canonical from any lower bound. -/
theorem twf_mono (d : α) [DecidableEq α] (t : Table α) (lo lo' : Nat) (h : twf d lo t = true) (hl : lo' ≤ lo) :
    twf d lo' t = true := by
  cases t with
  | nil => rfl
  | cons e r =>
    obtain ⟨k, v⟩ := e
    simp only [twf, Bool.and_eq_true, decide_eq_true_eq] at h ⊢
    exact ⟨⟨by omega, h.1.2⟩, h.2⟩

/-- A write keeps the canonical form. -/
theorem tput_twf (d : α) [DecidableEq α] (i : Nat) (v : α) :
    ∀ (t : Table α) (lo : Nat), twf d lo t = true → lo ≤ i → twf d lo (tput d i v t) = true
  | [], lo, _, hi => by
    by_cases hv : v = d <;> simp [tput, twf, hv, hi]
  | (k, w) :: r, lo, h, hi => by
    have h' := h
    simp only [twf, Bool.and_eq_true, decide_eq_true_eq] at h
    obtain ⟨⟨h1, h2⟩, h3⟩ := h
    unfold tput
    split
    · subst i
      split
      · exact twf_mono d r _ _ h3 (by omega)
      · next hv => simp [twf, hi, hv, h3]
    · split
      · split
        · exact h'
        · next hv => simp [twf, hi, hv, h2, h3]; omega
      · simp only [twf, Bool.and_eq_true, decide_eq_true_eq]
        exact ⟨⟨h1, h2⟩, tput_twf d i v r (k + 1) h3 (by omega)⟩

/-- An entry written is read back. -/
theorem tget_tput_same (d : α) [DecidableEq α] (i : Nat) (v : α) :
    ∀ (t : Table α) (lo : Nat), twf d lo t = true → tget d (tput d i v t) i = v
  | [], _, _ => by
    by_cases hv : v = d <;> simp [tput, tget, hv]
  | (k, w) :: r, lo, h => by
    simp only [twf, Bool.and_eq_true, decide_eq_true_eq] at h
    obtain ⟨⟨h1, h2⟩, h3⟩ := h
    unfold tput
    split
    · subst i
      split
      · next hv => rw [tget_below d r _ _ h3 (by omega), hv]
      · simp [tget]
    · next hik =>
      split
      · next hlt =>
        split
        · next hv => simp [tget, hik, hlt, hv]
        · simp [tget]
      · next hlt => simp [tget, hik, hlt, tget_tput_same d i v r (k + 1) h3]

/-- An entry written leaves every other one as it was. -/
theorem tget_tput_other (d : α) [DecidableEq α] (i j : Nat) (v : α) (hij : j ≠ i) :
    ∀ (t : Table α) (lo : Nat), twf d lo t = true → tget d (tput d i v t) j = tget d t j
  | [], _, _ => by
    by_cases hv : v = d <;> simp [tput, tget, hv, hij]
  | (k, w) :: r, lo, h => by
    simp only [twf, Bool.and_eq_true, decide_eq_true_eq] at h
    obtain ⟨⟨h1, h2⟩, h3⟩ := h
    unfold tput
    split
    · subst i
      split
      · by_cases hj : j < k
        · rw [tget_below d r _ _ h3 (by omega)]; simp [tget, hij, hj]
        · simp [tget, hij, hj]
      · by_cases hj : j < k
        · simp [tget, hij, hj]
        · simp [tget, hij, hj]
    · next hik =>
      split
      · next hlt =>
        split
        · rfl
        · by_cases hj : j < i
          · simp [tget, hij, hj, show j ≠ k by omega, show j < k by omega]
          · simp [tget, hij, hj]
      · next hlt =>
        by_cases hjk : j = k
        · simp [tget, hjk]
        · by_cases hj : j < k
          · simp [tget, hjk, hj]
          · simp [tget, hjk, hj, tget_tput_other d i j v hij r (k + 1) h3]

/-- A change of one entry keeps the canonical form. -/
theorem tmod_twf (d : α) [DecidableEq α] (i : Nat) (f : α → α) (t : Table α) (h : twf d 0 t = true) :
    twf d 0 (tmod d i f t) = true := tput_twf d i _ t 0 h (Nat.zero_le i)

/-- Consecutive writes keep the canonical form. -/
theorem tfill_twf (d : α) [DecidableEq α] :
    ∀ (vs : List α) (i : Nat) (t : Table α), twf d 0 t = true → twf d 0 (tfill d i vs t) = true
  | [], _, _, h => h
  | v :: vs, i, t, h => by
    simp only [tfill]
    exact tfill_twf d vs (i + 1) _ (tput_twf d i v t 0 h (Nat.zero_le i))

/-- Consecutive writes leave every other entry as it was. -/
theorem tget_tfill_other (d : α) [DecidableEq α] :
    ∀ (vs : List α) (i j : Nat) (t : Table α), twf d 0 t = true → (j < i ∨ i + vs.length ≤ j) →
      tget d (tfill d i vs t) j = tget d t j
  | [], _, _, _, _, _ => rfl
  | v :: vs, i, j, t, h, hj => by
    simp only [tfill, List.length_cons] at hj ⊢
    rw [tget_tfill_other d vs (i + 1) j _ (tput_twf d i v t 0 h (Nat.zero_le i)) (by omega)]
    exact tget_tput_other d i j v (by omega) t 0 h

/-- The k-th of consecutive entries written is read back. -/
theorem tget_tfill_same (d : α) [DecidableEq α] :
    ∀ (vs : List α) (i k : Nat) (t : Table α), twf d 0 t = true → (hk : k < vs.length) →
      tget d (tfill d i vs t) (i + k) = vs[k]
  | v :: vs, i, 0, t, h, _ => by
    simp only [tfill, Nat.add_zero]
    rw [tget_tfill_other d vs (i + 1) i _ (tput_twf d i v t 0 h (Nat.zero_le i)) (by omega)]
    simpa using tget_tput_same d i v t 0 h
  | v :: vs, i, k + 1, t, h, hk => by
    simp only [tfill]
    have := tget_tfill_same d vs (i + 1) k (tput d i v t) (tput_twf d i v t 0 h (Nat.zero_le i)) (by simpa using hk)
    rw [show i + (k + 1) = i + 1 + k by omega, this]; rfl

/-- A function over a whole table keeps its canonical form. -/
theorem tmap_twf {α β : Type} [DecidableEq α] [DecidableEq β] (c : α) (d : β) (f : α → β) :
    ∀ (t : Table α) (lo : Nat), twf c lo t = true → twf d lo (tmap d f t) = true
  | [], _, _ => rfl
  | (k, v) :: r, lo, h => by
    simp only [twf, Bool.and_eq_true, decide_eq_true_eq] at h
    have ih := tmap_twf c d f r (k + 1) h.2
    by_cases hv : f v = d
    · have e : tmap d f ((k, v) :: r) = tmap d f r := by simp [tmap, hv]
      rw [e]
      exact twf_mono d _ _ _ ih (by omega)
    · have e : tmap d f ((k, v) :: r) = (k, f v) :: tmap d f r := by simp [tmap, hv]
      rw [e]
      simp [twf, h.1.1, hv, ih]

end Sys2Proof.Machine
end

