-- ==== Sys2Proof/Laws/State.lean ====
section
/-! SUPPORT. What each update of one subsystem leaves in every field of the state. -/
namespace Sys2Proof.Machine

@[simp] theorem onSys_sys (g) (s : State) : (onSys g s).sys = g s.sys := rfl
@[simp] theorem onSys_ev (g) (s : State) : (onSys g s).ev = s.ev := rfl
@[simp] theorem onSys_fe (g) (s : State) : (onSys g s).fe = s.fe := rfl
@[simp] theorem onSys_tm (g) (s : State) : (onSys g s).tm = s.tm := rfl
@[simp] theorem onSys_hp (g) (s : State) : (onSys g s).hp = s.hp := rfl
@[simp] theorem onSys_tr (g) (s : State) : (onSys g s).tr = s.tr := rfl
@[simp] theorem onSys_we (g) (s : State) : (onSys g s).we = s.we := rfl
@[simp] theorem onSys_bb (g) (s : State) : (onSys g s).bb = s.bb := rfl
@[simp] theorem onSys_cx (g) (s : State) : (onSys g s).cx = s.cx := rfl
@[simp] theorem onSys_lk (g) (s : State) : (onSys g s).lk = s.lk := rfl
@[simp] theorem onSys_tc (g) (s : State) : (onSys g s).tc = s.tc := rfl
@[simp] theorem onSys_pw (g) (s : State) : (onSys g s).pw = s.pw := rfl
@[simp] theorem onSys_sc (g) (s : State) : (onSys g s).sc = s.sc := rfl
@[simp] theorem onSys_ld (g) (s : State) : (onSys g s).ld = s.ld := rfl
@[simp] theorem onSys_sf (g) (s : State) : (onSys g s).sf = s.sf := rfl
@[simp] theorem onSys_red (g) (s : State) : (onSys g s).red = s.red := rfl
@[simp] theorem onSys_seq (g) (s : State) : (onSys g s).seq = s.seq := rfl
@[simp] theorem onSys_up (g) (s : State) : (onSys g s).up = s.up := rfl
@[simp] theorem onSys_freeCtr (g) (s : State) : (onSys g s).freeCtr = s.freeCtr := rfl
@[simp] theorem onSys_pending (g) (s : State) : (onSys g s).pending = s.pending := rfl

@[simp] theorem onEv_sys (g) (s : State) : (onEv g s).sys = s.sys := rfl
@[simp] theorem onEv_ev (g) (s : State) : (onEv g s).ev = g s.ev := rfl
@[simp] theorem onEv_fe (g) (s : State) : (onEv g s).fe = s.fe := rfl
@[simp] theorem onEv_tm (g) (s : State) : (onEv g s).tm = s.tm := rfl
@[simp] theorem onEv_hp (g) (s : State) : (onEv g s).hp = s.hp := rfl
@[simp] theorem onEv_tr (g) (s : State) : (onEv g s).tr = s.tr := rfl
@[simp] theorem onEv_we (g) (s : State) : (onEv g s).we = s.we := rfl
@[simp] theorem onEv_bb (g) (s : State) : (onEv g s).bb = s.bb := rfl
@[simp] theorem onEv_cx (g) (s : State) : (onEv g s).cx = s.cx := rfl
@[simp] theorem onEv_lk (g) (s : State) : (onEv g s).lk = s.lk := rfl
@[simp] theorem onEv_tc (g) (s : State) : (onEv g s).tc = s.tc := rfl
@[simp] theorem onEv_pw (g) (s : State) : (onEv g s).pw = s.pw := rfl
@[simp] theorem onEv_sc (g) (s : State) : (onEv g s).sc = s.sc := rfl
@[simp] theorem onEv_ld (g) (s : State) : (onEv g s).ld = s.ld := rfl
@[simp] theorem onEv_sf (g) (s : State) : (onEv g s).sf = s.sf := rfl
@[simp] theorem onEv_red (g) (s : State) : (onEv g s).red = s.red := rfl
@[simp] theorem onEv_seq (g) (s : State) : (onEv g s).seq = s.seq := rfl
@[simp] theorem onEv_up (g) (s : State) : (onEv g s).up = s.up := rfl
@[simp] theorem onEv_freeCtr (g) (s : State) : (onEv g s).freeCtr = s.freeCtr := rfl
@[simp] theorem onEv_pending (g) (s : State) : (onEv g s).pending = s.pending := rfl

@[simp] theorem onFe_sys (g) (s : State) : (onFe g s).sys = s.sys := rfl
@[simp] theorem onFe_ev (g) (s : State) : (onFe g s).ev = s.ev := rfl
@[simp] theorem onFe_fe (g) (s : State) : (onFe g s).fe = g s.fe := rfl
@[simp] theorem onFe_tm (g) (s : State) : (onFe g s).tm = s.tm := rfl
@[simp] theorem onFe_hp (g) (s : State) : (onFe g s).hp = s.hp := rfl
@[simp] theorem onFe_tr (g) (s : State) : (onFe g s).tr = s.tr := rfl
@[simp] theorem onFe_we (g) (s : State) : (onFe g s).we = s.we := rfl
@[simp] theorem onFe_bb (g) (s : State) : (onFe g s).bb = s.bb := rfl
@[simp] theorem onFe_cx (g) (s : State) : (onFe g s).cx = s.cx := rfl
@[simp] theorem onFe_lk (g) (s : State) : (onFe g s).lk = s.lk := rfl
@[simp] theorem onFe_tc (g) (s : State) : (onFe g s).tc = s.tc := rfl
@[simp] theorem onFe_pw (g) (s : State) : (onFe g s).pw = s.pw := rfl
@[simp] theorem onFe_sc (g) (s : State) : (onFe g s).sc = s.sc := rfl
@[simp] theorem onFe_ld (g) (s : State) : (onFe g s).ld = s.ld := rfl
@[simp] theorem onFe_sf (g) (s : State) : (onFe g s).sf = s.sf := rfl
@[simp] theorem onFe_red (g) (s : State) : (onFe g s).red = s.red := rfl
@[simp] theorem onFe_seq (g) (s : State) : (onFe g s).seq = s.seq := rfl
@[simp] theorem onFe_up (g) (s : State) : (onFe g s).up = s.up := rfl
@[simp] theorem onFe_freeCtr (g) (s : State) : (onFe g s).freeCtr = s.freeCtr := rfl
@[simp] theorem onFe_pending (g) (s : State) : (onFe g s).pending = s.pending := rfl

@[simp] theorem onTm_sys (g) (s : State) : (onTm g s).sys = s.sys := rfl
@[simp] theorem onTm_ev (g) (s : State) : (onTm g s).ev = s.ev := rfl
@[simp] theorem onTm_fe (g) (s : State) : (onTm g s).fe = s.fe := rfl
@[simp] theorem onTm_tm (g) (s : State) : (onTm g s).tm = g s.tm := rfl
@[simp] theorem onTm_hp (g) (s : State) : (onTm g s).hp = s.hp := rfl
@[simp] theorem onTm_tr (g) (s : State) : (onTm g s).tr = s.tr := rfl
@[simp] theorem onTm_we (g) (s : State) : (onTm g s).we = s.we := rfl
@[simp] theorem onTm_bb (g) (s : State) : (onTm g s).bb = s.bb := rfl
@[simp] theorem onTm_cx (g) (s : State) : (onTm g s).cx = s.cx := rfl
@[simp] theorem onTm_lk (g) (s : State) : (onTm g s).lk = s.lk := rfl
@[simp] theorem onTm_tc (g) (s : State) : (onTm g s).tc = s.tc := rfl
@[simp] theorem onTm_pw (g) (s : State) : (onTm g s).pw = s.pw := rfl
@[simp] theorem onTm_sc (g) (s : State) : (onTm g s).sc = s.sc := rfl
@[simp] theorem onTm_ld (g) (s : State) : (onTm g s).ld = s.ld := rfl
@[simp] theorem onTm_sf (g) (s : State) : (onTm g s).sf = s.sf := rfl
@[simp] theorem onTm_red (g) (s : State) : (onTm g s).red = s.red := rfl
@[simp] theorem onTm_seq (g) (s : State) : (onTm g s).seq = s.seq := rfl
@[simp] theorem onTm_up (g) (s : State) : (onTm g s).up = s.up := rfl
@[simp] theorem onTm_freeCtr (g) (s : State) : (onTm g s).freeCtr = s.freeCtr := rfl
@[simp] theorem onTm_pending (g) (s : State) : (onTm g s).pending = s.pending := rfl

@[simp] theorem onHp_sys (g) (s : State) : (onHp g s).sys = s.sys := rfl
@[simp] theorem onHp_ev (g) (s : State) : (onHp g s).ev = s.ev := rfl
@[simp] theorem onHp_fe (g) (s : State) : (onHp g s).fe = s.fe := rfl
@[simp] theorem onHp_tm (g) (s : State) : (onHp g s).tm = s.tm := rfl
@[simp] theorem onHp_hp (g) (s : State) : (onHp g s).hp = g s.hp := rfl
@[simp] theorem onHp_tr (g) (s : State) : (onHp g s).tr = s.tr := rfl
@[simp] theorem onHp_we (g) (s : State) : (onHp g s).we = s.we := rfl
@[simp] theorem onHp_bb (g) (s : State) : (onHp g s).bb = s.bb := rfl
@[simp] theorem onHp_cx (g) (s : State) : (onHp g s).cx = s.cx := rfl
@[simp] theorem onHp_lk (g) (s : State) : (onHp g s).lk = s.lk := rfl
@[simp] theorem onHp_tc (g) (s : State) : (onHp g s).tc = s.tc := rfl
@[simp] theorem onHp_pw (g) (s : State) : (onHp g s).pw = s.pw := rfl
@[simp] theorem onHp_sc (g) (s : State) : (onHp g s).sc = s.sc := rfl
@[simp] theorem onHp_ld (g) (s : State) : (onHp g s).ld = s.ld := rfl
@[simp] theorem onHp_sf (g) (s : State) : (onHp g s).sf = s.sf := rfl
@[simp] theorem onHp_red (g) (s : State) : (onHp g s).red = s.red := rfl
@[simp] theorem onHp_seq (g) (s : State) : (onHp g s).seq = s.seq := rfl
@[simp] theorem onHp_up (g) (s : State) : (onHp g s).up = s.up := rfl
@[simp] theorem onHp_freeCtr (g) (s : State) : (onHp g s).freeCtr = s.freeCtr := rfl
@[simp] theorem onHp_pending (g) (s : State) : (onHp g s).pending = s.pending := rfl

@[simp] theorem onTr_sys (g) (s : State) : (onTr g s).sys = s.sys := rfl
@[simp] theorem onTr_ev (g) (s : State) : (onTr g s).ev = s.ev := rfl
@[simp] theorem onTr_fe (g) (s : State) : (onTr g s).fe = s.fe := rfl
@[simp] theorem onTr_tm (g) (s : State) : (onTr g s).tm = s.tm := rfl
@[simp] theorem onTr_hp (g) (s : State) : (onTr g s).hp = s.hp := rfl
@[simp] theorem onTr_tr (g) (s : State) : (onTr g s).tr = g s.tr := rfl
@[simp] theorem onTr_we (g) (s : State) : (onTr g s).we = s.we := rfl
@[simp] theorem onTr_bb (g) (s : State) : (onTr g s).bb = s.bb := rfl
@[simp] theorem onTr_cx (g) (s : State) : (onTr g s).cx = s.cx := rfl
@[simp] theorem onTr_lk (g) (s : State) : (onTr g s).lk = s.lk := rfl
@[simp] theorem onTr_tc (g) (s : State) : (onTr g s).tc = s.tc := rfl
@[simp] theorem onTr_pw (g) (s : State) : (onTr g s).pw = s.pw := rfl
@[simp] theorem onTr_sc (g) (s : State) : (onTr g s).sc = s.sc := rfl
@[simp] theorem onTr_ld (g) (s : State) : (onTr g s).ld = s.ld := rfl
@[simp] theorem onTr_sf (g) (s : State) : (onTr g s).sf = s.sf := rfl
@[simp] theorem onTr_red (g) (s : State) : (onTr g s).red = s.red := rfl
@[simp] theorem onTr_seq (g) (s : State) : (onTr g s).seq = s.seq := rfl
@[simp] theorem onTr_up (g) (s : State) : (onTr g s).up = s.up := rfl
@[simp] theorem onTr_freeCtr (g) (s : State) : (onTr g s).freeCtr = s.freeCtr := rfl
@[simp] theorem onTr_pending (g) (s : State) : (onTr g s).pending = s.pending := rfl

@[simp] theorem onWe_sys (g) (s : State) : (onWe g s).sys = s.sys := rfl
@[simp] theorem onWe_ev (g) (s : State) : (onWe g s).ev = s.ev := rfl
@[simp] theorem onWe_fe (g) (s : State) : (onWe g s).fe = s.fe := rfl
@[simp] theorem onWe_tm (g) (s : State) : (onWe g s).tm = s.tm := rfl
@[simp] theorem onWe_hp (g) (s : State) : (onWe g s).hp = s.hp := rfl
@[simp] theorem onWe_tr (g) (s : State) : (onWe g s).tr = s.tr := rfl
@[simp] theorem onWe_we (g) (s : State) : (onWe g s).we = g s.we := rfl
@[simp] theorem onWe_bb (g) (s : State) : (onWe g s).bb = s.bb := rfl
@[simp] theorem onWe_cx (g) (s : State) : (onWe g s).cx = s.cx := rfl
@[simp] theorem onWe_lk (g) (s : State) : (onWe g s).lk = s.lk := rfl
@[simp] theorem onWe_tc (g) (s : State) : (onWe g s).tc = s.tc := rfl
@[simp] theorem onWe_pw (g) (s : State) : (onWe g s).pw = s.pw := rfl
@[simp] theorem onWe_sc (g) (s : State) : (onWe g s).sc = s.sc := rfl
@[simp] theorem onWe_ld (g) (s : State) : (onWe g s).ld = s.ld := rfl
@[simp] theorem onWe_sf (g) (s : State) : (onWe g s).sf = s.sf := rfl
@[simp] theorem onWe_red (g) (s : State) : (onWe g s).red = s.red := rfl
@[simp] theorem onWe_seq (g) (s : State) : (onWe g s).seq = s.seq := rfl
@[simp] theorem onWe_up (g) (s : State) : (onWe g s).up = s.up := rfl
@[simp] theorem onWe_freeCtr (g) (s : State) : (onWe g s).freeCtr = s.freeCtr := rfl
@[simp] theorem onWe_pending (g) (s : State) : (onWe g s).pending = s.pending := rfl

@[simp] theorem onBb_sys (g) (s : State) : (onBb g s).sys = s.sys := rfl
@[simp] theorem onBb_ev (g) (s : State) : (onBb g s).ev = s.ev := rfl
@[simp] theorem onBb_fe (g) (s : State) : (onBb g s).fe = s.fe := rfl
@[simp] theorem onBb_tm (g) (s : State) : (onBb g s).tm = s.tm := rfl
@[simp] theorem onBb_hp (g) (s : State) : (onBb g s).hp = s.hp := rfl
@[simp] theorem onBb_tr (g) (s : State) : (onBb g s).tr = s.tr := rfl
@[simp] theorem onBb_we (g) (s : State) : (onBb g s).we = s.we := rfl
@[simp] theorem onBb_bb (g) (s : State) : (onBb g s).bb = g s.bb := rfl
@[simp] theorem onBb_cx (g) (s : State) : (onBb g s).cx = s.cx := rfl
@[simp] theorem onBb_lk (g) (s : State) : (onBb g s).lk = s.lk := rfl
@[simp] theorem onBb_tc (g) (s : State) : (onBb g s).tc = s.tc := rfl
@[simp] theorem onBb_pw (g) (s : State) : (onBb g s).pw = s.pw := rfl
@[simp] theorem onBb_sc (g) (s : State) : (onBb g s).sc = s.sc := rfl
@[simp] theorem onBb_ld (g) (s : State) : (onBb g s).ld = s.ld := rfl
@[simp] theorem onBb_sf (g) (s : State) : (onBb g s).sf = s.sf := rfl
@[simp] theorem onBb_red (g) (s : State) : (onBb g s).red = s.red := rfl
@[simp] theorem onBb_seq (g) (s : State) : (onBb g s).seq = s.seq := rfl
@[simp] theorem onBb_up (g) (s : State) : (onBb g s).up = s.up := rfl
@[simp] theorem onBb_freeCtr (g) (s : State) : (onBb g s).freeCtr = s.freeCtr := rfl
@[simp] theorem onBb_pending (g) (s : State) : (onBb g s).pending = s.pending := rfl

@[simp] theorem onCx_sys (g) (s : State) : (onCx g s).sys = s.sys := rfl
@[simp] theorem onCx_ev (g) (s : State) : (onCx g s).ev = s.ev := rfl
@[simp] theorem onCx_fe (g) (s : State) : (onCx g s).fe = s.fe := rfl
@[simp] theorem onCx_tm (g) (s : State) : (onCx g s).tm = s.tm := rfl
@[simp] theorem onCx_hp (g) (s : State) : (onCx g s).hp = s.hp := rfl
@[simp] theorem onCx_tr (g) (s : State) : (onCx g s).tr = s.tr := rfl
@[simp] theorem onCx_we (g) (s : State) : (onCx g s).we = s.we := rfl
@[simp] theorem onCx_bb (g) (s : State) : (onCx g s).bb = s.bb := rfl
@[simp] theorem onCx_cx (g) (s : State) : (onCx g s).cx = g s.cx := rfl
@[simp] theorem onCx_lk (g) (s : State) : (onCx g s).lk = s.lk := rfl
@[simp] theorem onCx_tc (g) (s : State) : (onCx g s).tc = s.tc := rfl
@[simp] theorem onCx_pw (g) (s : State) : (onCx g s).pw = s.pw := rfl
@[simp] theorem onCx_sc (g) (s : State) : (onCx g s).sc = s.sc := rfl
@[simp] theorem onCx_ld (g) (s : State) : (onCx g s).ld = s.ld := rfl
@[simp] theorem onCx_sf (g) (s : State) : (onCx g s).sf = s.sf := rfl
@[simp] theorem onCx_red (g) (s : State) : (onCx g s).red = s.red := rfl
@[simp] theorem onCx_seq (g) (s : State) : (onCx g s).seq = s.seq := rfl
@[simp] theorem onCx_up (g) (s : State) : (onCx g s).up = s.up := rfl
@[simp] theorem onCx_freeCtr (g) (s : State) : (onCx g s).freeCtr = s.freeCtr := rfl
@[simp] theorem onCx_pending (g) (s : State) : (onCx g s).pending = s.pending := rfl

@[simp] theorem onLk_sys (g) (s : State) : (onLk g s).sys = s.sys := rfl
@[simp] theorem onLk_ev (g) (s : State) : (onLk g s).ev = s.ev := rfl
@[simp] theorem onLk_fe (g) (s : State) : (onLk g s).fe = s.fe := rfl
@[simp] theorem onLk_tm (g) (s : State) : (onLk g s).tm = s.tm := rfl
@[simp] theorem onLk_hp (g) (s : State) : (onLk g s).hp = s.hp := rfl
@[simp] theorem onLk_tr (g) (s : State) : (onLk g s).tr = s.tr := rfl
@[simp] theorem onLk_we (g) (s : State) : (onLk g s).we = s.we := rfl
@[simp] theorem onLk_bb (g) (s : State) : (onLk g s).bb = s.bb := rfl
@[simp] theorem onLk_cx (g) (s : State) : (onLk g s).cx = s.cx := rfl
@[simp] theorem onLk_lk (g) (s : State) : (onLk g s).lk = g s.lk := rfl
@[simp] theorem onLk_tc (g) (s : State) : (onLk g s).tc = s.tc := rfl
@[simp] theorem onLk_pw (g) (s : State) : (onLk g s).pw = s.pw := rfl
@[simp] theorem onLk_sc (g) (s : State) : (onLk g s).sc = s.sc := rfl
@[simp] theorem onLk_ld (g) (s : State) : (onLk g s).ld = s.ld := rfl
@[simp] theorem onLk_sf (g) (s : State) : (onLk g s).sf = s.sf := rfl
@[simp] theorem onLk_red (g) (s : State) : (onLk g s).red = s.red := rfl
@[simp] theorem onLk_seq (g) (s : State) : (onLk g s).seq = s.seq := rfl
@[simp] theorem onLk_up (g) (s : State) : (onLk g s).up = s.up := rfl
@[simp] theorem onLk_freeCtr (g) (s : State) : (onLk g s).freeCtr = s.freeCtr := rfl
@[simp] theorem onLk_pending (g) (s : State) : (onLk g s).pending = s.pending := rfl

@[simp] theorem onTc_sys (g) (s : State) : (onTc g s).sys = s.sys := rfl
@[simp] theorem onTc_ev (g) (s : State) : (onTc g s).ev = s.ev := rfl
@[simp] theorem onTc_fe (g) (s : State) : (onTc g s).fe = s.fe := rfl
@[simp] theorem onTc_tm (g) (s : State) : (onTc g s).tm = s.tm := rfl
@[simp] theorem onTc_hp (g) (s : State) : (onTc g s).hp = s.hp := rfl
@[simp] theorem onTc_tr (g) (s : State) : (onTc g s).tr = s.tr := rfl
@[simp] theorem onTc_we (g) (s : State) : (onTc g s).we = s.we := rfl
@[simp] theorem onTc_bb (g) (s : State) : (onTc g s).bb = s.bb := rfl
@[simp] theorem onTc_cx (g) (s : State) : (onTc g s).cx = s.cx := rfl
@[simp] theorem onTc_lk (g) (s : State) : (onTc g s).lk = s.lk := rfl
@[simp] theorem onTc_tc (g) (s : State) : (onTc g s).tc = g s.tc := rfl
@[simp] theorem onTc_pw (g) (s : State) : (onTc g s).pw = s.pw := rfl
@[simp] theorem onTc_sc (g) (s : State) : (onTc g s).sc = s.sc := rfl
@[simp] theorem onTc_ld (g) (s : State) : (onTc g s).ld = s.ld := rfl
@[simp] theorem onTc_sf (g) (s : State) : (onTc g s).sf = s.sf := rfl
@[simp] theorem onTc_red (g) (s : State) : (onTc g s).red = s.red := rfl
@[simp] theorem onTc_seq (g) (s : State) : (onTc g s).seq = s.seq := rfl
@[simp] theorem onTc_up (g) (s : State) : (onTc g s).up = s.up := rfl
@[simp] theorem onTc_freeCtr (g) (s : State) : (onTc g s).freeCtr = s.freeCtr := rfl
@[simp] theorem onTc_pending (g) (s : State) : (onTc g s).pending = s.pending := rfl

@[simp] theorem onPw_sys (g) (s : State) : (onPw g s).sys = s.sys := rfl
@[simp] theorem onPw_ev (g) (s : State) : (onPw g s).ev = s.ev := rfl
@[simp] theorem onPw_fe (g) (s : State) : (onPw g s).fe = s.fe := rfl
@[simp] theorem onPw_tm (g) (s : State) : (onPw g s).tm = s.tm := rfl
@[simp] theorem onPw_hp (g) (s : State) : (onPw g s).hp = s.hp := rfl
@[simp] theorem onPw_tr (g) (s : State) : (onPw g s).tr = s.tr := rfl
@[simp] theorem onPw_we (g) (s : State) : (onPw g s).we = s.we := rfl
@[simp] theorem onPw_bb (g) (s : State) : (onPw g s).bb = s.bb := rfl
@[simp] theorem onPw_cx (g) (s : State) : (onPw g s).cx = s.cx := rfl
@[simp] theorem onPw_lk (g) (s : State) : (onPw g s).lk = s.lk := rfl
@[simp] theorem onPw_tc (g) (s : State) : (onPw g s).tc = s.tc := rfl
@[simp] theorem onPw_pw (g) (s : State) : (onPw g s).pw = g s.pw := rfl
@[simp] theorem onPw_sc (g) (s : State) : (onPw g s).sc = s.sc := rfl
@[simp] theorem onPw_ld (g) (s : State) : (onPw g s).ld = s.ld := rfl
@[simp] theorem onPw_sf (g) (s : State) : (onPw g s).sf = s.sf := rfl
@[simp] theorem onPw_red (g) (s : State) : (onPw g s).red = s.red := rfl
@[simp] theorem onPw_seq (g) (s : State) : (onPw g s).seq = s.seq := rfl
@[simp] theorem onPw_up (g) (s : State) : (onPw g s).up = s.up := rfl
@[simp] theorem onPw_freeCtr (g) (s : State) : (onPw g s).freeCtr = s.freeCtr := rfl
@[simp] theorem onPw_pending (g) (s : State) : (onPw g s).pending = s.pending := rfl

@[simp] theorem onSc_sys (g) (s : State) : (onSc g s).sys = s.sys := rfl
@[simp] theorem onSc_ev (g) (s : State) : (onSc g s).ev = s.ev := rfl
@[simp] theorem onSc_fe (g) (s : State) : (onSc g s).fe = s.fe := rfl
@[simp] theorem onSc_tm (g) (s : State) : (onSc g s).tm = s.tm := rfl
@[simp] theorem onSc_hp (g) (s : State) : (onSc g s).hp = s.hp := rfl
@[simp] theorem onSc_tr (g) (s : State) : (onSc g s).tr = s.tr := rfl
@[simp] theorem onSc_we (g) (s : State) : (onSc g s).we = s.we := rfl
@[simp] theorem onSc_bb (g) (s : State) : (onSc g s).bb = s.bb := rfl
@[simp] theorem onSc_cx (g) (s : State) : (onSc g s).cx = s.cx := rfl
@[simp] theorem onSc_lk (g) (s : State) : (onSc g s).lk = s.lk := rfl
@[simp] theorem onSc_tc (g) (s : State) : (onSc g s).tc = s.tc := rfl
@[simp] theorem onSc_pw (g) (s : State) : (onSc g s).pw = s.pw := rfl
@[simp] theorem onSc_sc (g) (s : State) : (onSc g s).sc = g s.sc := rfl
@[simp] theorem onSc_ld (g) (s : State) : (onSc g s).ld = s.ld := rfl
@[simp] theorem onSc_sf (g) (s : State) : (onSc g s).sf = s.sf := rfl
@[simp] theorem onSc_red (g) (s : State) : (onSc g s).red = s.red := rfl
@[simp] theorem onSc_seq (g) (s : State) : (onSc g s).seq = s.seq := rfl
@[simp] theorem onSc_up (g) (s : State) : (onSc g s).up = s.up := rfl
@[simp] theorem onSc_freeCtr (g) (s : State) : (onSc g s).freeCtr = s.freeCtr := rfl
@[simp] theorem onSc_pending (g) (s : State) : (onSc g s).pending = s.pending := rfl

@[simp] theorem onLd_sys (g) (s : State) : (onLd g s).sys = s.sys := rfl
@[simp] theorem onLd_ev (g) (s : State) : (onLd g s).ev = s.ev := rfl
@[simp] theorem onLd_fe (g) (s : State) : (onLd g s).fe = s.fe := rfl
@[simp] theorem onLd_tm (g) (s : State) : (onLd g s).tm = s.tm := rfl
@[simp] theorem onLd_hp (g) (s : State) : (onLd g s).hp = s.hp := rfl
@[simp] theorem onLd_tr (g) (s : State) : (onLd g s).tr = s.tr := rfl
@[simp] theorem onLd_we (g) (s : State) : (onLd g s).we = s.we := rfl
@[simp] theorem onLd_bb (g) (s : State) : (onLd g s).bb = s.bb := rfl
@[simp] theorem onLd_cx (g) (s : State) : (onLd g s).cx = s.cx := rfl
@[simp] theorem onLd_lk (g) (s : State) : (onLd g s).lk = s.lk := rfl
@[simp] theorem onLd_tc (g) (s : State) : (onLd g s).tc = s.tc := rfl
@[simp] theorem onLd_pw (g) (s : State) : (onLd g s).pw = s.pw := rfl
@[simp] theorem onLd_sc (g) (s : State) : (onLd g s).sc = s.sc := rfl
@[simp] theorem onLd_ld (g) (s : State) : (onLd g s).ld = g s.ld := rfl
@[simp] theorem onLd_sf (g) (s : State) : (onLd g s).sf = s.sf := rfl
@[simp] theorem onLd_red (g) (s : State) : (onLd g s).red = s.red := rfl
@[simp] theorem onLd_seq (g) (s : State) : (onLd g s).seq = s.seq := rfl
@[simp] theorem onLd_up (g) (s : State) : (onLd g s).up = s.up := rfl
@[simp] theorem onLd_freeCtr (g) (s : State) : (onLd g s).freeCtr = s.freeCtr := rfl
@[simp] theorem onLd_pending (g) (s : State) : (onLd g s).pending = s.pending := rfl

@[simp] theorem onSf_sys (g) (s : State) : (onSf g s).sys = s.sys := rfl
@[simp] theorem onSf_ev (g) (s : State) : (onSf g s).ev = s.ev := rfl
@[simp] theorem onSf_fe (g) (s : State) : (onSf g s).fe = s.fe := rfl
@[simp] theorem onSf_tm (g) (s : State) : (onSf g s).tm = s.tm := rfl
@[simp] theorem onSf_hp (g) (s : State) : (onSf g s).hp = s.hp := rfl
@[simp] theorem onSf_tr (g) (s : State) : (onSf g s).tr = s.tr := rfl
@[simp] theorem onSf_we (g) (s : State) : (onSf g s).we = s.we := rfl
@[simp] theorem onSf_bb (g) (s : State) : (onSf g s).bb = s.bb := rfl
@[simp] theorem onSf_cx (g) (s : State) : (onSf g s).cx = s.cx := rfl
@[simp] theorem onSf_lk (g) (s : State) : (onSf g s).lk = s.lk := rfl
@[simp] theorem onSf_tc (g) (s : State) : (onSf g s).tc = s.tc := rfl
@[simp] theorem onSf_pw (g) (s : State) : (onSf g s).pw = s.pw := rfl
@[simp] theorem onSf_sc (g) (s : State) : (onSf g s).sc = s.sc := rfl
@[simp] theorem onSf_ld (g) (s : State) : (onSf g s).ld = s.ld := rfl
@[simp] theorem onSf_sf (g) (s : State) : (onSf g s).sf = g s.sf := rfl
@[simp] theorem onSf_red (g) (s : State) : (onSf g s).red = s.red := rfl
@[simp] theorem onSf_seq (g) (s : State) : (onSf g s).seq = s.seq := rfl
@[simp] theorem onSf_up (g) (s : State) : (onSf g s).up = s.up := rfl
@[simp] theorem onSf_freeCtr (g) (s : State) : (onSf g s).freeCtr = s.freeCtr := rfl
@[simp] theorem onSf_pending (g) (s : State) : (onSf g s).pending = s.pending := rfl

@[simp] theorem onRed_sys (g) (s : State) : (onRed g s).sys = s.sys := rfl
@[simp] theorem onRed_ev (g) (s : State) : (onRed g s).ev = s.ev := rfl
@[simp] theorem onRed_fe (g) (s : State) : (onRed g s).fe = s.fe := rfl
@[simp] theorem onRed_tm (g) (s : State) : (onRed g s).tm = s.tm := rfl
@[simp] theorem onRed_hp (g) (s : State) : (onRed g s).hp = s.hp := rfl
@[simp] theorem onRed_tr (g) (s : State) : (onRed g s).tr = s.tr := rfl
@[simp] theorem onRed_we (g) (s : State) : (onRed g s).we = s.we := rfl
@[simp] theorem onRed_bb (g) (s : State) : (onRed g s).bb = s.bb := rfl
@[simp] theorem onRed_cx (g) (s : State) : (onRed g s).cx = s.cx := rfl
@[simp] theorem onRed_lk (g) (s : State) : (onRed g s).lk = s.lk := rfl
@[simp] theorem onRed_tc (g) (s : State) : (onRed g s).tc = s.tc := rfl
@[simp] theorem onRed_pw (g) (s : State) : (onRed g s).pw = s.pw := rfl
@[simp] theorem onRed_sc (g) (s : State) : (onRed g s).sc = s.sc := rfl
@[simp] theorem onRed_ld (g) (s : State) : (onRed g s).ld = s.ld := rfl
@[simp] theorem onRed_sf (g) (s : State) : (onRed g s).sf = s.sf := rfl
@[simp] theorem onRed_red (g) (s : State) : (onRed g s).red = g s.red := rfl
@[simp] theorem onRed_seq (g) (s : State) : (onRed g s).seq = s.seq := rfl
@[simp] theorem onRed_up (g) (s : State) : (onRed g s).up = s.up := rfl
@[simp] theorem onRed_freeCtr (g) (s : State) : (onRed g s).freeCtr = s.freeCtr := rfl
@[simp] theorem onRed_pending (g) (s : State) : (onRed g s).pending = s.pending := rfl

@[simp] theorem onSeq_sys (g) (s : State) : (onSeq g s).sys = s.sys := rfl
@[simp] theorem onSeq_ev (g) (s : State) : (onSeq g s).ev = s.ev := rfl
@[simp] theorem onSeq_fe (g) (s : State) : (onSeq g s).fe = s.fe := rfl
@[simp] theorem onSeq_tm (g) (s : State) : (onSeq g s).tm = s.tm := rfl
@[simp] theorem onSeq_hp (g) (s : State) : (onSeq g s).hp = s.hp := rfl
@[simp] theorem onSeq_tr (g) (s : State) : (onSeq g s).tr = s.tr := rfl
@[simp] theorem onSeq_we (g) (s : State) : (onSeq g s).we = s.we := rfl
@[simp] theorem onSeq_bb (g) (s : State) : (onSeq g s).bb = s.bb := rfl
@[simp] theorem onSeq_cx (g) (s : State) : (onSeq g s).cx = s.cx := rfl
@[simp] theorem onSeq_lk (g) (s : State) : (onSeq g s).lk = s.lk := rfl
@[simp] theorem onSeq_tc (g) (s : State) : (onSeq g s).tc = s.tc := rfl
@[simp] theorem onSeq_pw (g) (s : State) : (onSeq g s).pw = s.pw := rfl
@[simp] theorem onSeq_sc (g) (s : State) : (onSeq g s).sc = s.sc := rfl
@[simp] theorem onSeq_ld (g) (s : State) : (onSeq g s).ld = s.ld := rfl
@[simp] theorem onSeq_sf (g) (s : State) : (onSeq g s).sf = s.sf := rfl
@[simp] theorem onSeq_red (g) (s : State) : (onSeq g s).red = s.red := rfl
@[simp] theorem onSeq_seq (g) (s : State) : (onSeq g s).seq = g s.seq := rfl
@[simp] theorem onSeq_up (g) (s : State) : (onSeq g s).up = s.up := rfl
@[simp] theorem onSeq_freeCtr (g) (s : State) : (onSeq g s).freeCtr = s.freeCtr := rfl
@[simp] theorem onSeq_pending (g) (s : State) : (onSeq g s).pending = s.pending := rfl

end Sys2Proof.Machine
end

