-- ==== Sys2Proof/Laws/Events.lean ====
section
/-! SUPPORT. What a raise and the passing of time change: an event touches the event state alone. -/
namespace Sys2Proof.Machine

/-- A raise of one source changes the event state alone. -/
theorem raiseFrom_only_ev (o n : Nat) (a : List Byte) (s : State) : ∃ e, raiseFrom o n a s = { s with ev := e } := ⟨_, rfl⟩

/-- What changes the event state alone still does with the saturation of EVT_STATS reported. -/
theorem evChange_only_ev (f : State → State) (s : State) (hf : ∃ e, f s = { s with ev := e }) :
    ∃ e, evChange f s = { s with ev := e } := by
  obtain ⟨e, h⟩ := hf
  unfold evChange
  rw [h]
  by_cases hc : e.statSat = s.ev.statSat
  · exact ⟨e, if_pos hc⟩
  · exact ⟨_, if_neg hc⟩

/-- A raise changes the event state alone. -/
theorem raise_only_ev (n : Nat) (a : List Byte) (s : State) : ∃ e, raise n a s = { s with ev := e } :=
  evChange_only_ev _ s (raiseFrom_only_ev _ n a s)

/-- A raise by a half changes the event state alone. -/
theorem raiseBy_only_ev (h : Half) (n : Nat) (a : List Byte) (s : State) : ∃ e, raiseBy h n a s = { s with ev := e } :=
  evChange_only_ev _ s (raiseFrom_only_ev _ n a s)

/-- A conditional raise changes the event state alone. -/
theorem raiseIf_only_ev (c : Bool) (n : Nat) (a : List Byte) (s : State) : ∃ e, raiseIf c n a s = { s with ev := e } := by
  unfold raiseIf
  split
  · exact raise_only_ev n a s
  · exact ⟨s.ev, rfl⟩

@[simp] theorem raise_sys (n) (a) (s : State) : (raise n a s).sys = s.sys := by
  obtain ⟨e, h⟩ := raise_only_ev n a s; rw [h]
@[simp] theorem raise_fe (n) (a) (s : State) : (raise n a s).fe = s.fe := by
  obtain ⟨e, h⟩ := raise_only_ev n a s; rw [h]
@[simp] theorem raise_tm (n) (a) (s : State) : (raise n a s).tm = s.tm := by
  obtain ⟨e, h⟩ := raise_only_ev n a s; rw [h]
@[simp] theorem raise_hp (n) (a) (s : State) : (raise n a s).hp = s.hp := by
  obtain ⟨e, h⟩ := raise_only_ev n a s; rw [h]
@[simp] theorem raise_tr (n) (a) (s : State) : (raise n a s).tr = s.tr := by
  obtain ⟨e, h⟩ := raise_only_ev n a s; rw [h]
@[simp] theorem raise_we (n) (a) (s : State) : (raise n a s).we = s.we := by
  obtain ⟨e, h⟩ := raise_only_ev n a s; rw [h]
@[simp] theorem raise_bb (n) (a) (s : State) : (raise n a s).bb = s.bb := by
  obtain ⟨e, h⟩ := raise_only_ev n a s; rw [h]
@[simp] theorem raise_cx (n) (a) (s : State) : (raise n a s).cx = s.cx := by
  obtain ⟨e, h⟩ := raise_only_ev n a s; rw [h]
@[simp] theorem raise_lk (n) (a) (s : State) : (raise n a s).lk = s.lk := by
  obtain ⟨e, h⟩ := raise_only_ev n a s; rw [h]
@[simp] theorem raise_tc (n) (a) (s : State) : (raise n a s).tc = s.tc := by
  obtain ⟨e, h⟩ := raise_only_ev n a s; rw [h]
@[simp] theorem raise_pw (n) (a) (s : State) : (raise n a s).pw = s.pw := by
  obtain ⟨e, h⟩ := raise_only_ev n a s; rw [h]
@[simp] theorem raise_sc (n) (a) (s : State) : (raise n a s).sc = s.sc := by
  obtain ⟨e, h⟩ := raise_only_ev n a s; rw [h]
@[simp] theorem raise_ld (n) (a) (s : State) : (raise n a s).ld = s.ld := by
  obtain ⟨e, h⟩ := raise_only_ev n a s; rw [h]
@[simp] theorem raise_sf (n) (a) (s : State) : (raise n a s).sf = s.sf := by
  obtain ⟨e, h⟩ := raise_only_ev n a s; rw [h]
@[simp] theorem raise_red (n) (a) (s : State) : (raise n a s).red = s.red := by
  obtain ⟨e, h⟩ := raise_only_ev n a s; rw [h]
@[simp] theorem raise_seq (n) (a) (s : State) : (raise n a s).seq = s.seq := by
  obtain ⟨e, h⟩ := raise_only_ev n a s; rw [h]
@[simp] theorem raise_up (n) (a) (s : State) : (raise n a s).up = s.up := by
  obtain ⟨e, h⟩ := raise_only_ev n a s; rw [h]
@[simp] theorem raise_freeCtr (n) (a) (s : State) : (raise n a s).freeCtr = s.freeCtr := by
  obtain ⟨e, h⟩ := raise_only_ev n a s; rw [h]
@[simp] theorem raise_pending (n) (a) (s : State) : (raise n a s).pending = s.pending := by
  obtain ⟨e, h⟩ := raise_only_ev n a s; rw [h]
@[simp] theorem raiseBy_sys (h) (n) (a) (s : State) : (raiseBy h n a s).sys = s.sys := by
  obtain ⟨e, h⟩ := raiseBy_only_ev h n a s; rw [h]
@[simp] theorem raiseBy_fe (h) (n) (a) (s : State) : (raiseBy h n a s).fe = s.fe := by
  obtain ⟨e, h⟩ := raiseBy_only_ev h n a s; rw [h]
@[simp] theorem raiseBy_tm (h) (n) (a) (s : State) : (raiseBy h n a s).tm = s.tm := by
  obtain ⟨e, h⟩ := raiseBy_only_ev h n a s; rw [h]
@[simp] theorem raiseBy_hp (h) (n) (a) (s : State) : (raiseBy h n a s).hp = s.hp := by
  obtain ⟨e, h⟩ := raiseBy_only_ev h n a s; rw [h]
@[simp] theorem raiseBy_tr (h) (n) (a) (s : State) : (raiseBy h n a s).tr = s.tr := by
  obtain ⟨e, h⟩ := raiseBy_only_ev h n a s; rw [h]
@[simp] theorem raiseBy_we (h) (n) (a) (s : State) : (raiseBy h n a s).we = s.we := by
  obtain ⟨e, h⟩ := raiseBy_only_ev h n a s; rw [h]
@[simp] theorem raiseBy_bb (h) (n) (a) (s : State) : (raiseBy h n a s).bb = s.bb := by
  obtain ⟨e, h⟩ := raiseBy_only_ev h n a s; rw [h]
@[simp] theorem raiseBy_cx (h) (n) (a) (s : State) : (raiseBy h n a s).cx = s.cx := by
  obtain ⟨e, h⟩ := raiseBy_only_ev h n a s; rw [h]
@[simp] theorem raiseBy_lk (h) (n) (a) (s : State) : (raiseBy h n a s).lk = s.lk := by
  obtain ⟨e, h⟩ := raiseBy_only_ev h n a s; rw [h]
@[simp] theorem raiseBy_tc (h) (n) (a) (s : State) : (raiseBy h n a s).tc = s.tc := by
  obtain ⟨e, h⟩ := raiseBy_only_ev h n a s; rw [h]
@[simp] theorem raiseBy_pw (h) (n) (a) (s : State) : (raiseBy h n a s).pw = s.pw := by
  obtain ⟨e, h⟩ := raiseBy_only_ev h n a s; rw [h]
@[simp] theorem raiseBy_sc (h) (n) (a) (s : State) : (raiseBy h n a s).sc = s.sc := by
  obtain ⟨e, h⟩ := raiseBy_only_ev h n a s; rw [h]
@[simp] theorem raiseBy_ld (h) (n) (a) (s : State) : (raiseBy h n a s).ld = s.ld := by
  obtain ⟨e, h⟩ := raiseBy_only_ev h n a s; rw [h]
@[simp] theorem raiseBy_sf (h) (n) (a) (s : State) : (raiseBy h n a s).sf = s.sf := by
  obtain ⟨e, h⟩ := raiseBy_only_ev h n a s; rw [h]
@[simp] theorem raiseBy_red (h) (n) (a) (s : State) : (raiseBy h n a s).red = s.red := by
  obtain ⟨e, h⟩ := raiseBy_only_ev h n a s; rw [h]
@[simp] theorem raiseBy_seq (h) (n) (a) (s : State) : (raiseBy h n a s).seq = s.seq := by
  obtain ⟨e, h⟩ := raiseBy_only_ev h n a s; rw [h]
@[simp] theorem raiseBy_up (h) (n) (a) (s : State) : (raiseBy h n a s).up = s.up := by
  obtain ⟨e, h⟩ := raiseBy_only_ev h n a s; rw [h]
@[simp] theorem raiseBy_freeCtr (h) (n) (a) (s : State) : (raiseBy h n a s).freeCtr = s.freeCtr := by
  obtain ⟨e, h⟩ := raiseBy_only_ev h n a s; rw [h]
@[simp] theorem raiseBy_pending (h) (n) (a) (s : State) : (raiseBy h n a s).pending = s.pending := by
  obtain ⟨e, h⟩ := raiseBy_only_ev h n a s; rw [h]
@[simp] theorem raiseIf_sys (c) (n) (a) (s : State) : (raiseIf c n a s).sys = s.sys := by
  obtain ⟨e, h⟩ := raiseIf_only_ev c n a s; rw [h]
@[simp] theorem raiseIf_fe (c) (n) (a) (s : State) : (raiseIf c n a s).fe = s.fe := by
  obtain ⟨e, h⟩ := raiseIf_only_ev c n a s; rw [h]
@[simp] theorem raiseIf_tm (c) (n) (a) (s : State) : (raiseIf c n a s).tm = s.tm := by
  obtain ⟨e, h⟩ := raiseIf_only_ev c n a s; rw [h]
@[simp] theorem raiseIf_hp (c) (n) (a) (s : State) : (raiseIf c n a s).hp = s.hp := by
  obtain ⟨e, h⟩ := raiseIf_only_ev c n a s; rw [h]
@[simp] theorem raiseIf_tr (c) (n) (a) (s : State) : (raiseIf c n a s).tr = s.tr := by
  obtain ⟨e, h⟩ := raiseIf_only_ev c n a s; rw [h]
@[simp] theorem raiseIf_we (c) (n) (a) (s : State) : (raiseIf c n a s).we = s.we := by
  obtain ⟨e, h⟩ := raiseIf_only_ev c n a s; rw [h]
@[simp] theorem raiseIf_bb (c) (n) (a) (s : State) : (raiseIf c n a s).bb = s.bb := by
  obtain ⟨e, h⟩ := raiseIf_only_ev c n a s; rw [h]
@[simp] theorem raiseIf_cx (c) (n) (a) (s : State) : (raiseIf c n a s).cx = s.cx := by
  obtain ⟨e, h⟩ := raiseIf_only_ev c n a s; rw [h]
@[simp] theorem raiseIf_lk (c) (n) (a) (s : State) : (raiseIf c n a s).lk = s.lk := by
  obtain ⟨e, h⟩ := raiseIf_only_ev c n a s; rw [h]
@[simp] theorem raiseIf_tc (c) (n) (a) (s : State) : (raiseIf c n a s).tc = s.tc := by
  obtain ⟨e, h⟩ := raiseIf_only_ev c n a s; rw [h]
@[simp] theorem raiseIf_pw (c) (n) (a) (s : State) : (raiseIf c n a s).pw = s.pw := by
  obtain ⟨e, h⟩ := raiseIf_only_ev c n a s; rw [h]
@[simp] theorem raiseIf_sc (c) (n) (a) (s : State) : (raiseIf c n a s).sc = s.sc := by
  obtain ⟨e, h⟩ := raiseIf_only_ev c n a s; rw [h]
@[simp] theorem raiseIf_ld (c) (n) (a) (s : State) : (raiseIf c n a s).ld = s.ld := by
  obtain ⟨e, h⟩ := raiseIf_only_ev c n a s; rw [h]
@[simp] theorem raiseIf_sf (c) (n) (a) (s : State) : (raiseIf c n a s).sf = s.sf := by
  obtain ⟨e, h⟩ := raiseIf_only_ev c n a s; rw [h]
@[simp] theorem raiseIf_red (c) (n) (a) (s : State) : (raiseIf c n a s).red = s.red := by
  obtain ⟨e, h⟩ := raiseIf_only_ev c n a s; rw [h]
@[simp] theorem raiseIf_seq (c) (n) (a) (s : State) : (raiseIf c n a s).seq = s.seq := by
  obtain ⟨e, h⟩ := raiseIf_only_ev c n a s; rw [h]
@[simp] theorem raiseIf_up (c) (n) (a) (s : State) : (raiseIf c n a s).up = s.up := by
  obtain ⟨e, h⟩ := raiseIf_only_ev c n a s; rw [h]
@[simp] theorem raiseIf_freeCtr (c) (n) (a) (s : State) : (raiseIf c n a s).freeCtr = s.freeCtr := by
  obtain ⟨e, h⟩ := raiseIf_only_ev c n a s; rw [h]
@[simp] theorem raiseIf_pending (c) (n) (a) (s : State) : (raiseIf c n a s).pending = s.pending := by
  obtain ⟨e, h⟩ := raiseIf_only_ev c n a s; rw [h]

end Sys2Proof.Machine
end

