-- ==== Sys2Proof/Laws/Frame.lean ====
section
/-! SUPPORT. What an operation may change: the parts of a state outside a set of parts, and the updates, combinators and calls
that leave them. Further files say it of each operation and each command. -/
namespace Sys2Proof.Machine

/-- A value, or nothing where it may have changed. -/
def veil {α : Type} (b : Bool) (x : α) : Option α := if b then none else some x

/-- A set of parts has a part. -/
class May (m : StatePart → Bool) (p : StatePart) : Prop where
  may : m p = true

@[simp] theorem veil_may {α : Type} (m : StatePart → Bool) (p : StatePart) [May m p] (x : α) : veil (m p) x = none := by
  unfold veil; rw [show m p = true from May.may, if_pos rfl]

/-- The host part, without what a set of parts may have changed. -/
structure HostView where
  mail : Option (Table Mailbox × List Nat)
  settings : Option (Table (Option (List Byte)))
  jobs : Option (List Job × List Job × Nat)
  flash : Option (FlashChip × FlashChip × Bool)
  sideband : Option (Option (List Byte) × Bool)
  host : Option SysState

/-- The host part, without what a set of parts may have changed. -/
@[simp] def viewSys (m : StatePart → Bool) (x : SysState) : HostView where
  mail := veil (m .mail) (x.mb, x.waitQ)
  settings := veil (m .settings) x.cfg
  jobs := veil (m .jobs) (x.jobs, x.ended, x.nextJob)
  flash := veil (m .flash) (x.cs0, x.cs1, x.imageOpen)
  sideband := veil (m .sideband) (x.sbOut, x.discarded)
  host := veil (m .host) x.rest

/-- A state, without what a set of parts may have changed. -/
structure View where
  sys : HostView
  ev : Option EvState
  fe : Option FeState
  tm : Option TmState
  hp : Option HpState
  tr : Option TrState
  we : Option WeState
  bb : Option BbState
  cx : Option CxState
  lk : Option LkState
  tc : Option TcState
  pw : Option PwState
  sc : Option ScState
  ld : Option LdState
  sf : Option SfState
  red : Option RedState
  seq : Option SeqState
  up : Option Nat
  freeCtr : Option Nat

/-- A state, without what a set of parts may have changed. -/
def hide (m : StatePart → Bool) (s : State) : View where
  sys := viewSys m s.sys
  ev := veil (m .events) s.ev
  fe := veil (m .frontEnd) s.fe
  tm := veil (m .timing) s.tm
  hp := veil (m .hitPath) s.hp
  tr := veil (m .trigger) s.tr
  we := veil (m .waveform) s.we
  bb := veil (m .buffer) s.bb
  cx := veil (m .compression) s.cx
  lk := veil (m .links) s.lk
  tc := veil (m .time) s.tc
  pw := veil (m .power) s.pw
  sc := veil (m .slowControl) s.sc
  ld := veil (m .light) s.ld
  sf := veil (m .safety) s.sf
  red := veil (m .redundancy) s.red
  seq := veil (m .sequencer) s.seq
  up := veil (m .clock) s.up
  freeCtr := veil (m .free) s.freeCtr

variable {m : StatePart → Bool}
@[simp] theorem hide_onEv [May m .events] (g) (s : State) : hide m (onEv g s) = hide m s := by simp [hide]
@[simp] theorem hide_ev [May m .events] (v) (s : State) : hide m { s with ev := v } = hide m s := by simp [hide]
@[simp] theorem hide_onFe [May m .frontEnd] (g) (s : State) : hide m (onFe g s) = hide m s := by simp [hide]
@[simp] theorem hide_fe [May m .frontEnd] (v) (s : State) : hide m { s with fe := v } = hide m s := by simp [hide]
@[simp] theorem hide_onTm [May m .timing] (g) (s : State) : hide m (onTm g s) = hide m s := by simp [hide]
@[simp] theorem hide_tm [May m .timing] (v) (s : State) : hide m { s with tm := v } = hide m s := by simp [hide]
@[simp] theorem hide_onHp [May m .hitPath] (g) (s : State) : hide m (onHp g s) = hide m s := by simp [hide]
@[simp] theorem hide_hp [May m .hitPath] (v) (s : State) : hide m { s with hp := v } = hide m s := by simp [hide]
@[simp] theorem hide_onTr [May m .trigger] (g) (s : State) : hide m (onTr g s) = hide m s := by simp [hide]
@[simp] theorem hide_tr [May m .trigger] (v) (s : State) : hide m { s with tr := v } = hide m s := by simp [hide]
@[simp] theorem hide_onWe [May m .waveform] (g) (s : State) : hide m (onWe g s) = hide m s := by simp [hide]
@[simp] theorem hide_we [May m .waveform] (v) (s : State) : hide m { s with we := v } = hide m s := by simp [hide]
@[simp] theorem hide_onBb [May m .buffer] (g) (s : State) : hide m (onBb g s) = hide m s := by simp [hide]
@[simp] theorem hide_bb [May m .buffer] (v) (s : State) : hide m { s with bb := v } = hide m s := by simp [hide]
@[simp] theorem hide_onCx [May m .compression] (g) (s : State) : hide m (onCx g s) = hide m s := by simp [hide]
@[simp] theorem hide_cx [May m .compression] (v) (s : State) : hide m { s with cx := v } = hide m s := by simp [hide]
@[simp] theorem hide_onLk [May m .links] (g) (s : State) : hide m (onLk g s) = hide m s := by simp [hide]
@[simp] theorem hide_lk [May m .links] (v) (s : State) : hide m { s with lk := v } = hide m s := by simp [hide]
@[simp] theorem hide_onTc [May m .time] (g) (s : State) : hide m (onTc g s) = hide m s := by simp [hide]
@[simp] theorem hide_tc [May m .time] (v) (s : State) : hide m { s with tc := v } = hide m s := by simp [hide]
@[simp] theorem hide_onPw [May m .power] (g) (s : State) : hide m (onPw g s) = hide m s := by simp [hide]
@[simp] theorem hide_pw [May m .power] (v) (s : State) : hide m { s with pw := v } = hide m s := by simp [hide]
@[simp] theorem hide_onSc [May m .slowControl] (g) (s : State) : hide m (onSc g s) = hide m s := by simp [hide]
@[simp] theorem hide_sc [May m .slowControl] (v) (s : State) : hide m { s with sc := v } = hide m s := by simp [hide]
@[simp] theorem hide_onLd [May m .light] (g) (s : State) : hide m (onLd g s) = hide m s := by simp [hide]
@[simp] theorem hide_ld [May m .light] (v) (s : State) : hide m { s with ld := v } = hide m s := by simp [hide]
@[simp] theorem hide_onSf [May m .safety] (g) (s : State) : hide m (onSf g s) = hide m s := by simp [hide]
@[simp] theorem hide_sf [May m .safety] (v) (s : State) : hide m { s with sf := v } = hide m s := by simp [hide]
@[simp] theorem hide_onRed [May m .redundancy] (g) (s : State) : hide m (onRed g s) = hide m s := by simp [hide]
@[simp] theorem hide_red [May m .redundancy] (v) (s : State) : hide m { s with red := v } = hide m s := by simp [hide]
@[simp] theorem hide_onSeq [May m .sequencer] (g) (s : State) : hide m (onSeq g s) = hide m s := by simp [hide]
@[simp] theorem hide_seq [May m .sequencer] (v) (s : State) : hide m { s with seq := v } = hide m s := by simp [hide]
@[simp] theorem hide_up [May m .clock] (v) (s : State) : hide m { s with up := v } = hide m s := by simp [hide]
@[simp] theorem hide_freeCtr [May m .free] (v) (s : State) : hide m { s with freeCtr := v } = hide m s := by simp [hide]
@[simp] theorem SysState.rest_eq (x : SysState) : x.rest =
    { x with mb := [], waitQ := [], cfg := [], jobs := [], ended := [], nextJob := 0, cs0 := {}, cs1 := {}, imageOpen := false
             sbOut := none, discarded := false } := id rfl
@[simp] theorem hide_onSys (g : SysState → SysState) (s : State) (h : ∀ x, viewSys m (g x) = viewSys m x) :
    hide m (onSys g s) = hide m s := by
  unfold hide; rw [onSys_sys, h]; rfl
@[simp] theorem hide_ite {c : Prop} [Decidable c] (a b : State) :
    hide m (if c then a else b) = if c then hide m a else hide m b := apply_ite ..
@[simp] theorem hide_when (c : Bool) (f : State → State) (s : State) (h : ∀ s, hide m (f s) = hide m s) :
    hide m (when c f s) = hide m s := by unfold when; split <;> simp [h]
@[simp] theorem hide_forAll {α : Type} (xs : List α) (f : α → State → State) (s : State)
    (h : ∀ x s, hide m (f x s) = hide m s) : hide m (forAll xs f s) = hide m s := by
  unfold forAll
  induction xs generalizing s with
  | nil => rfl
  | cons x xs ih => exact (ih (f x s)).trans (h x s)
/-- What a reply leaves. -/
def hideR (m : StatePart → Bool) : Reply → View
  | .done _ _ s => hide m s
  | .later s => hide m s
/-- What a next state leaves. -/
def hideO (m : StatePart → Bool) : Out → Option View
  | .next s => some (hide m s)
  | _ => none
@[simp] theorem hideO_next (s : State) : hideO m (.next s) = some (hide m s) := id rfl
@[simp] theorem okBytes_hide (b) (s : State) : hideR m (okBytes b s) = hide m s := id rfl
@[simp] theorem ok_hide (s : State) : hideR m (ok s) = hide m s := id rfl
@[simp] theorem refuse_hide (c) (s : State) : hideR m (refuse c s) = hide m s := id rfl
@[simp] theorem done_hide (c b) (s : State) : hideR m (Reply.done c b s) = hide m s := id rfl
@[simp] theorem later_hide (s : State) : hideR m (Reply.later s) = hide m s := id rfl
@[simp] theorem hideR_ite {c : Prop} [Decidable c] (a b : Reply) :
    hideR m (if c then a else b) = if c then hideR m a else hideR m b := apply_ite ..
@[simp] theorem need_hide (c k) (s : State) (h : ∀ s, hideR m (k s) = hide m s) :
    hideR m (need c k s) = hide m s := by unfold need; split <;> simp [h]
@[simp] theorem needState_hide (c k) (s : State) (h : ∀ s, hideR m (k s) = hide m s) :
    hideR m (needState c k s) = hide m s := by unfold needState; split <;> simp [h]
@[simp] theorem needClaim_hide (c k) (s : State) (h : ∀ s, hideR m (k s) = hide m s) :
    hideR m (needClaim c k s) = hide m s := by unfold needClaim; split <;> simp [h]
@[simp] theorem raiseFrom_hide [May m .events] (o n a) (s : State) : hide m (raiseFrom o n a s) = hide m s := by
  simp [raiseFrom]
@[simp] theorem evChange_hide [May m .events] (f) (s : State) (h : ∀ s, hide m (f s) = hide m s) :
    hide m (evChange f s) = hide m s := by
  unfold evChange; dsimp only; split <;> simp [h]
@[simp] theorem raise_hide [May m .events] (n a) (s : State) : hide m (raise n a s) = hide m s :=
  evChange_hide _ _ (raiseFrom_hide _ _ _)
@[simp] theorem raiseBy_hide [May m .events] (h n a) (s : State) : hide m (raiseBy h n a s) = hide m s :=
  evChange_hide _ _ (raiseFrom_hide _ _ _)
@[simp] theorem raiseIf_hide [May m .events] (c n a) (s : State) : hide m (raiseIf c n a s) = hide m s := by
  unfold raiseIf; split <;> simp
@[simp] theorem event_hide (c f) (s : State) (h : ∀ s, hide m (f s) = hide m s) : hideO m (event c f s) = some (hide m s) := by
  unfold event; split <;> simp [h]
@[simp] theorem eventTo_hide (c) (t s : State) (h : hide m t = hide m s) : hideO m (event c (fun _ => t) s) = some (hide m s) := by
  unfold event; split <;> simp [h]

/-- What two states agree on outside a set of parts, part by part. -/
theorem StatePart.same_of_hide (s t : State) (h : hide m t = hide m s) (q : StatePart) (hq : m q = false) : q.same s t := by
  cases q <;> simp only [hide, View.mk.injEq, viewSys, HostView.mk.injEq, veil, hq, Bool.false_eq_true, if_false, Option.some.injEq, Prod.mk.injEq] at h <;> simp only [StatePart.same, h, and_self]

/-- A part of a list, as a set that has it. -/
theorem May.of_mem (l : List StatePart) (p : StatePart) (h : p ∈ l) : May (fun q => decide (q ∈ l)) p := ⟨decide_eq_true h⟩

end Sys2Proof.Machine
end

