-- ==== Sys2Proof/Laws/FrameOps.lean ====
section
/-! SUPPORT. The parts that each operation and each command may change, in the order of the files that hold them: up to the
waveform engine's operations. -/
namespace Sys2Proof.Machine
variable {m : StatePart → Bool}

/-! Ops -/

@[simp] theorem modMb_hide [May m .mail] (a0) (a1) (s : State) : hide m (modMb a0 a1 s) = hide m s := by simp [modMb]
@[simp] theorem modBlock_hide [May m .frontEnd] (a0) (a1) (s : State) : hide m (modBlock a0 a1 s) = hide m s := by simp [modBlock]
@[simp] theorem modEngine_hide [May m .hitPath] (a0) (a1) (s : State) : hide m (modEngine a0 a1 s) = hide m s := by simp [modEngine]
@[simp] theorem modLossQ_hide [May m .hitPath] (a0) (a1) (s : State) : hide m (modLossQ a0 a1 s) = hide m s := by simp [modLossQ]
@[simp] theorem modMside_hide [May m .hitPath] (a0) (a1) (s : State) : hide m (modMside a0 a1 s) = hide m s := by simp [modMside]
@[simp] theorem modUnit_hide [May m .trigger] (a0) (a1) (s : State) : hide m (modUnit a0 a1 s) = hide m s := by simp [modUnit]
@[simp] theorem modAdc_hide [May m .trigger] (a0) (a1) (s : State) : hide m (modAdc a0 a1 s) = hide m s := by simp [modAdc]
@[simp] theorem modCore_hide [May m .waveform] (a0) (a1) (s : State) : hide m (modCore a0 a1 s) = hide m s := by simp [modCore]
@[simp] theorem modQueue_hide [May m .buffer] (a0) (a1) (s : State) : hide m (modQueue a0 a1 s) = hide m s := by simp [modQueue]
@[simp] theorem modCxq_hide [May m .compression] (a0) (a1) (s : State) : hide m (modCxq a0 a1 s) = hide m s := by simp [modCxq]
@[simp] theorem modLane_hide [May m .links] (a0) (a1) (s : State) : hide m (modLane a0 a1 s) = hide m s := by simp [modLane]
@[simp] theorem modGroup_hide [May m .links] (a0) (a1) (s : State) : hide m (modGroup a0 a1 s) = hide m s := by simp [modGroup]
@[simp] theorem modSlink_hide [May m .links] (a0) (a1) (s : State) : hide m (modSlink a0 a1 s) = hide m s := by simp [modSlink]
@[simp] theorem modTi_hide [May m .time] (a0) (a1) (s : State) : hide m (modTi a0 a1 s) = hide m s := by simp [modTi]
@[simp] theorem modSplit_hide [May m .time] (a0) (a1) (s : State) : hide m (modSplit a0 a1 s) = hide m s := by simp [modSplit]
@[simp] theorem modChan_hide [May m .slowControl] (a0) (a1) (s : State) : hide m (modChan a0 a1 s) = hide m s := by simp [modChan]
@[simp] theorem modChain_hide [May m .light] (a0) (a1) (s : State) : hide m (modChain a0 a1 s) = hide m s := by simp [modChain]
@[simp] theorem modEm_hide [May m .light] (a0) (a1) (s : State) : hide m (modEm a0 a1 s) = hide m s := by simp [modEm]
@[simp] theorem modSink_hide [May m .light] (a0) (a1) (s : State) : hide m (modSink a0 a1 s) = hide m s := by simp [modSink]
@[simp] theorem modIlk_hide [May m .safety] (a0) (a1) (s : State) : hide m (modIlk a0 a1 s) = hide m s := by simp [modIlk]
@[simp] theorem modView_hide [May m .redundancy] (a0) (a1) (s : State) : hide m (modView a0 a1 s) = hide m s := by simp [modView]
@[simp] theorem drawBool_hide [May m .free] (s : State) : hide m (drawBool s).2 = hide m s := by simp [drawBool]
@[simp] theorem drawNat_hide [May m .free] (s : State) : hide m (drawNat s).2 = hide m s := by simp [drawNat]

/-! Events -/

@[simp] theorem logRecord_hide [May m .events] (a0) (s : State) : hide m (logRecord a0 s) = hide m s := by
  unfold logRecord
  try dsimp only
  repeat' (first | (simp; done) | intro _ | split | with_reducible apply evChange_hide | with_reducible apply event_hide | with_reducible apply Eq.trans (hide_forAll _ _ _ _) | with_reducible apply Eq.trans (hide_when _ _ _ _) | with_reducible apply need_hide | with_reducible apply needState_hide | with_reducible apply needClaim_hide | with_reducible assumption)
  done
@[simp] theorem tc0Send_hide [May m .events] (a0) (s : State) : hide m (tc0Send a0 s) = hide m s := by simp [tc0Send]
@[simp] theorem advance_hide [May m .events] [May m .time] [May m .clock] (a0) (s : State) : hide m (advance a0 s) = hide m s := by simp [advance]
@[simp] theorem reachUp_hide [May m .events] [May m .time] [May m .clock] (a0) (s : State) : hide m (reachUp a0 s) = hide m s := by simp [reachUp]
@[simp] theorem reachTick_hide [May m .events] [May m .time] [May m .clock] (a0) (s : State) : hide m (reachTick a0 s) = hide m s := by simp [reachTick]

/-! Settings -/

@[simp] theorem setCfg_hide [May m .settings] (a0) (a1) (s : State) : hide m (setCfg a0 a1 s) = hide m s := by simp [setCfg]
@[simp] theorem setCfgEntry_hide [May m .settings] (a0) (a1) (a2) (a3) (s : State) : hide m (setCfgEntry a0 a1 a2 a3 s) = hide m s := by simp [setCfgEntry]

/-! Calls -/

@[simp] theorem respond_hide [May m .mail] [May m .events] (a0) (a1) (a2) (s : State) : hide m (respond a0 a1 a2 s) = hide m s := by simp [respond]
@[simp] theorem checkCall_hide (n code a len) (act : List Byte → State → Reply) (s : State)
    (h : ∀ p s, hideR m (act p s) = hide m s) : hideR m (checkCall n code a len act s) = hide m s := by
  unfold checkCall; dsimp only; (repeat' split) <;> simp [h]
@[simp] theorem settle_hide [May m .mail] [May m .events] (n r) : hide m (settle n r) = hideR m r := by
  cases r <;> simp [settle, hideR]
@[simp] theorem callSel_hide [May m .mail] [May m .events] (n code sel a len) (act : List Byte → State → Reply) (s : State)
    (h : ∀ p s, hideR m (act p s) = hide m s) : hideO m (callSel n code sel a len act s) = some (hide m s) := by
  simp [callSel, h]
@[simp] theorem call_hide [May m .mail] [May m .events] (n code a len) (act : List Byte → State → Reply) (s : State)
    (h : ∀ p s, hideR m (act p s) = hide m s) : hideO m (call n code a len act s) = some (hide m s) := by
  simp [call, h]
@[simp] theorem addJob_hide [May m .jobs] (a0) (a1) (a2) (a3) (s : State) : hide m (addJob a0 a1 a2 a3 s).2 = hide m s := by simp [addJob]
@[simp] theorem startJob_hide [May m .jobs] (c p) (f : Nat → State → State) (s : State)
    (h : ∀ n s, hide m (f n s) = hide m s) : hideR m (startJob c p f s) = hide m s := by
  unfold startJob addJob; dsimp only; split <;> simp [h]
@[simp] theorem deferJob_hide [May m .jobs] (a0) (a1) (a2) (s : State) : hideR m (deferJob a0 a1 a2 s) = hide m s := by simp [deferJob]
@[simp] theorem endJob_hide [May m .jobs] [May m .events] (a0) (a1) (a2) (a3) (s : State) : hide m (endJob a0 a1 a2 a3 s) = hide m s := by
  unfold endJob; (repeat' split) <;> simp
@[simp] theorem jobDone_hide [May m .jobs] [May m .events] (a0) (s : State) : hide m (jobDone a0 s) = hide m s := by simp [jobDone]
@[simp] theorem jobFail_hide [May m .jobs] [May m .events] (a0) (s : State) : hide m (jobFail a0 s) = hide m s := by simp [jobFail]
@[simp] theorem satEvent_hide [May m .events] (a0) (a1) (s : State) : hide m (satEvent a0 a1 s) = hide m s := by simp [satEvent]

/-! SafetyOps -/

@[simp] theorem sfStat_hide [May m .events] [May m .safety] (a0) (s : State) : hide m (sfStat a0 s) = hide m s := by simp [sfStat]
@[simp] theorem logTrip_hide [May m .safety] (a0) (a1) (s : State) : hide m (logTrip a0 a1 s) = hide m s := by simp [logTrip]
@[simp] theorem settleDark_hide [May m .mail] [May m .events] [May m .safety] (s : State) : hide m (settleDark s) = hide m s := by
  unfold settleDark; (repeat' split) <;> simp
@[simp] theorem tripHv_hide [May m .events] [May m .safety] (s : State) : hide m (tripHv s) = hide m s := by simp [tripHv]
@[simp] theorem tripShutter_hide [May m .events] [May m .safety] (s : State) : hide m (tripShutter s) = hide m s := by simp [tripShutter]
@[simp] theorem setFunctions_hide [May m .safety] (s : State) : hide m (setFunctions s) = hide m s := by simp [setFunctions]
@[simp] theorem sfEval_hide [May m .mail] [May m .events] [May m .safety] (s : State) : hide m (sfEval s) = hide m s := by simp [sfEval]
@[simp] theorem lockout_hide [May m .mail] [May m .events] [May m .safety] (a0) (s : State) : hide m (lockout a0 s) = hide m s := by simp [lockout]
@[simp] theorem outputFault_hide [May m .mail] [May m .events] [May m .safety] (a0) (a1) (s : State) : hide m (outputFault a0 a1 s) = hide m s := by simp [outputFault]
@[simp] theorem sfReset_hide [May m .mail] [May m .events] [May m .safety] (s : State) : hide m (sfReset s).2 = hide m s := by
  unfold sfReset; dsimp only; (repeat' split) <;> simp
@[simp] theorem copyMirror_hide [May m .safety] (s : State) : hide m (copyMirror s) = hide m s := by simp [copyMirror]
@[simp] theorem sendStatus_hide [May m .events] [May m .safety] (s : State) : hide m (sendStatus s) = hide m s := by simp [sendStatus]
@[simp] theorem bootClaims_hide [May m .redundancy] (s : State) : hide m (bootClaims s) = hide m s := by simp [bootClaims]
@[simp] theorem coolingReport_hide [May m .mail] [May m .events] [May m .safety] (s : State) : hide m (coolingReport s) = hide m s := by simp [coolingReport]
@[simp] theorem coolingClear_hide [May m .mail] [May m .events] [May m .safety] (s : State) : hide m (coolingClear s) = hide m s := by simp [coolingClear]
@[simp] theorem handOver_hide [May m .safety] (s : State) : hide m (handOver s) = hide m s := by simp [handOver]
@[simp] theorem hvmonResult_hide [May m .mail] [May m .events] [May m .safety] (a0) (a1) (a2) (s : State) : hide m (hvmonResult a0 a1 a2 s) = hide m s := by simp [hvmonResult]

/-! ScOps -/

@[simp] theorem scStat_hide [May m .events] [May m .slowControl] (a0) (s : State) : hide m (scStat a0 s) = hide m s := by simp [scStat]
@[simp] theorem beginConv_hide [May m .slowControl] (a0) (a1) (s : State) : hide m (beginConv a0 a1 s) = hide m s := by simp [beginConv]
@[simp] theorem holdGuard_hide [May m .slowControl] (a0) (a1) (a2) (s : State) : hide m (holdGuard a0 a1 a2 s) = hide m s := by
  unfold holdGuard; (repeat' split) <;> simp
@[simp] theorem holdGuardOpen_hide [May m .slowControl] [May m .free] (a0) (s : State) : hide m (holdGuardOpen a0 s) = hide m s := by
  unfold holdGuardOpen; dsimp only; (repeat' split) <;> simp
@[simp] theorem setReq_hide [May m .slowControl] (a0) (a1) (a2) (s : State) : hide m (setReq a0 a1 a2 s) = hide m s := by simp [setReq]
@[simp] theorem jobRuns_hide [May m .jobs] (a0) (s : State) : hide m (jobRuns a0 s) = hide m s := by simp [jobRuns]
@[simp] theorem calBegin_hide [May m .jobs] [May m .slowControl] (s : State) : hide m (calBegin s) = hide m s := by
  unfold calBegin; (repeat' split) <;> simp
@[simp] theorem gapWork_hide [May m .jobs] [May m .slowControl] (s : State) : hide m (gapWork s) = hide m s := by
  unfold gapWork; (repeat' split) <;> simp
@[simp] theorem regularNext_hide [May m .jobs] [May m .events] [May m .slowControl] (s : State) : hide m (regularNext s) = hide m s := by
  unfold regularNext; (repeat' split) <;> simp
@[simp] theorem scNext_hide [May m .jobs] [May m .events] [May m .slowControl] (s : State) : hide m (scNext s) = hide m s := by
  unfold scNext; (repeat' split) <;> simp
@[simp] theorem abandon_hide [May m .events] [May m .slowControl] [May m .free] (s : State) : hide m (abandon s) = hide m s := by
  unfold abandon; (repeat' split) <;> simp
@[simp] theorem valueOf_hide [May m .free] (a0) (a1) (a2) (s : State) : hide m (valueOf s a0 a1 a2).2 = hide m s := by
  unfold valueOf; split <;> simp
@[simp] theorem checkLimits_hide [May m .events] [May m .slowControl] (a0) (a1) (a2) (a3) (s : State) : hide m (checkLimits a0 a1 a2 a3 s) = hide m s := by
  unfold checkLimits; (repeat' split) <;> simp
@[simp] theorem storeResult_hide [May m .events] [May m .slowControl] [May m .free] (a0) (a1) (s : State) : hide m (storeResult a0 a1 s) = hide m s := by simp [storeResult]
@[simp] theorem scPowerUp_hide [May m .jobs] [May m .slowControl] (s : State) : hide m (scPowerUp s) = hide m s := by simp [scPowerUp]
@[simp] theorem scPowerDown_hide [May m .slowControl] (s : State) : hide m (scPowerDown s) = hide m s := by simp [scPowerDown]
@[simp] theorem addCal_hide [May m .slowControl] (a0) (a1) (s : State) : hide m (addCal a0 a1 s) = hide m s := by simp [addCal]
@[simp] theorem diagDone_hide [May m .jobs] [May m .events] [May m .slowControl] (a0) (s : State) : hide m (diagDone a0 s) = hide m s := by simp [diagDone]
@[simp] theorem classify_hide [May m .events] [May m .slowControl] (a0) (a1) (s : State) : hide m (classify a0 a1 s) = hide m s := by simp [classify]

/-! LdOps -/

@[simp] theorem ldStat_hide [May m .events] [May m .light] (a0) (a1) (s : State) : hide m (ldStat a0 a1 s) = hide m s := by simp [ldStat]
@[simp] theorem skipFlash_hide [May m .events] [May m .light] (a0) (s : State) : hide m (skipFlash a0 s) = hide m s := by simp [skipFlash]
@[simp] theorem openWindow_hide [May m .light] (a0) (s : State) : hide m (openWindow a0 s) = hide m s := by simp [openWindow]
@[simp] theorem fireSink_hide [May m .events] [May m .light] (a0) (a1) (s : State) : hide m (fireSink a0 a1 s) = hide m s := by simp [fireSink]
@[simp] theorem fireChain_hide [May m .events] [May m .light] (a0) (a1) (s : State) : hide m (fireChain a0 a1 s) = hide m s := by simp [fireChain]
@[simp] theorem diagnose_hide [May m .events] [May m .light] (a0) (a1) (a2) (a3) (s : State) : hide m (diagnose a0 a1 a2 a3 s) = hide m s := by simp [diagnose]
@[simp] theorem loopAmp_hide [May m .free] (a0) (a1) (a2) (a3) (a4) (a5) (s : State) : hide m (loopAmp a0 a1 a2 a3 a4 a5 s).2 = hide m s := by
  unfold loopAmp; (repeat' split) <;> simp
@[simp] theorem loopUpdate_hide [May m .events] [May m .light] [May m .free] (a0) (a1) (a2) (s : State) : hide m (loopUpdate a0 a1 a2 s) = hide m s := by simp [loopUpdate]
@[simp] theorem colourUpdate_hide [May m .events] [May m .light] [May m .free] (a0) (a1) (a2) (a3) (s : State) : hide m (colourUpdate a0 a1 a2 a3 s) = hide m s := by simp [colourUpdate]
@[simp] theorem chainFound_hide [May m .events] [May m .light] (a0) (a1) (a2) (s : State) : hide m (chainFound a0 a1 a2 s) = hide m s := by simp [chainFound]
@[simp] theorem chainsFound_hide [May m .events] [May m .light] (ks) (cs) (ws) (s : State) : hide m (chainsFound ks cs ws s) = hide m s := by
  induction cs generalizing ws s with
  | nil => rfl
  | cons c cs ih => rw [chainsFound, ih]; simp
@[simp] theorem discoverEnds_hide [May m .jobs] [May m .events] [May m .light] (a0) (a1) (s : State) : hide m (discoverEnds a0 a1 s) = hide m s := by
  unfold discoverEnds; (repeat' split) <;> simp
@[simp] theorem discoverChains_hide [May m .light] (a0) (a1) (s : State) : hide m (discoverChains a0 a1 s) = hide m s := by simp [discoverChains]
@[simp] theorem hotEvents_hide [May m .events] (a0) (a1) (s : State) : hide m (hotEvents a0 a1 s) = hide m s := by simp [hotEvents]
@[simp] theorem proofDone_hide [May m .jobs] [May m .events] [May m .light] (a0) (s : State) : hide m (proofDone a0 s) = hide m s := by
  unfold proofDone; dsimp only; (repeat' split) <;> simp
@[simp] theorem boardReports_hide [May m .jobs] [May m .events] [May m .light] (a0) (a1) (s : State) : hide m (boardReports a0 a1 s) = hide m s := by simp [boardReports]
@[simp] theorem cancelAll_hide [May m .light] (s : State) : hide m (cancelAll s) = hide m s := by simp [cancelAll]
@[simp] theorem scheduleTouched_hide [May m .light] (a0) (s : State) : hide m (scheduleTouched a0 s) = hide m s := by simp [scheduleTouched]

/-! PwOps -/

@[simp] theorem lowJob_hide [May m .jobs] (c p) (f : Nat → State → State) (s : State)
    (h : ∀ n s, hide m (f n s) = hide m s) : hideR m (lowJob c p f s) = hide m s := by
  unfold lowJob; split <;> simp [h]
@[simp] theorem pwStat_hide [May m .events] [May m .power] (a0) (a1) (s : State) : hide m (pwStat a0 a1 s) = hide m s := by simp [pwStat]
@[simp] theorem pwTime_hide [May m .events] [May m .power] (a0) (a1) (s : State) : hide m (pwTime a0 a1 s) = hide m s := by simp [pwTime]
@[simp] theorem pwAccount_hide [May m .events] [May m .power] (s : State) : hide m (pwAccount s) = hide m s := by
  unfold pwAccount; (repeat' split) <;> simp

/-! BbOps -/

@[simp] theorem bbStat_hide [May m .events] [May m .buffer] (a0) (a1) (a2) (s : State) : hide m (bbStat a0 a1 a2 s) = hide m s := by simp [bbStat]
@[simp] theorem bbBytes_hide [May m .events] [May m .buffer] (a0) (a1) (a2) (s : State) : hide m (bbBytes a0 a1 a2 s) = hide m s := by simp [bbBytes]
@[simp] theorem peakFill_hide [May m .buffer] (a0) (s : State) : hide m (peakFill a0 s) = hide m s := by simp [peakFill]
@[simp] theorem releasePage_hide [May m .events] [May m .buffer] (a0) (s : State) : hide m (releasePage a0 s) = hide m s := by simp [releasePage]
@[simp] theorem releasePages_hide [May m .events] [May m .buffer] (a0) (s : State) : hide m (releasePages a0 s) = hide m s := by simp [releasePages]
@[simp] theorem dropErrs_hide [May m .events] [May m .buffer] (a0) (a1) (a2) (s : State) : hide m (dropErrs a0 a1 a2 s) = hide m s := by simp [dropErrs]
@[simp] theorem drainQueue_hide [May m .buffer] (a0) (s : State) : hide m (drainQueue a0 s) = hide m s := by simp [drainQueue]
@[simp] theorem moveWord_hide [May m .events] [May m .buffer] (a0) (a1) (s : State) : hide m (moveWord a0 a1 s) = hide m s := by
  unfold moveWord; (repeat' split) <;> simp
@[simp] theorem takeChunk_hide [May m .events] [May m .buffer] (a0) (a1) (a2) (s : State) : hide m (takeChunk a0 a1 a2 s) = hide m s := by simp [takeChunk]
@[simp] theorem dropChunks_hide [May m .events] [May m .buffer] (q) : ∀ (l : List (List Nat)) (s : State), hide m (dropChunks q l s) = hide m s
  | [], s => by simp [dropChunks]
  | p :: r, s => by
    unfold dropChunks; split
    · rfl
    · simp [dropChunks_hide q r]
@[simp] theorem spillChunk_hide [May m .events] [May m .buffer] (a0) (s : State) : hide m (spillChunk a0 s) = hide m s := by simp [spillChunk]
@[simp] theorem relieveTail_hide [May m .events] [May m .buffer] (a0) (s : State) : hide m (relieveTail a0 s) = hide m s := by simp [relieveTail]
@[simp] theorem wakeUnits_hide [May m .compression] (a0) (s : State) : hide m (wakeUnits a0 s) = hide m s := by simp [wakeUnits]
@[simp] theorem placeFrame_hide [May m .events] [May m .buffer] [May m .compression] (a0) (a1) (s : State) : hide m (placeFrame a0 a1 s) = hide m s := by simp [placeFrame]
@[simp] theorem closeFrame_hide [May m .events] [May m .buffer] [May m .compression] (a0) (a1) (s : State) : hide m (closeFrame a0 a1 s) = hide m s := by simp [closeFrame]
@[simp] theorem closeAll_hide [May m .events] [May m .buffer] [May m .compression] (a0) (s : State) : hide m (closeAll a0 s) = hide m s := by simp [closeAll]
@[simp] theorem lossTotal_hide [May m .hitPath] (a0) (a1) (s : State) : hide m (lossTotal a0 a1 s) = hide m s := by simp [lossTotal]
@[simp] theorem writeLoss_hide [May m .events] [May m .hitPath] [May m .buffer] [May m .compression] (a0) (a1) (a2) (s : State) : hide m (writeLoss a0 a1 a2 s) = hide m s := by simp [writeLoss]
@[simp] theorem noteLoss_hide [May m .hitPath] (a0) (a1) (s : State) : hide m (noteLoss a0 a1 s) = hide m s := by simp [noteLoss]
@[simp] theorem flushLosses_hide [May m .events] [May m .hitPath] [May m .buffer] [May m .compression] (a0) (s : State) : hide m (flushLosses a0 s) = hide m s := by simp [flushLosses]
@[simp] theorem replaceFrames_hide [May m .events] [May m .hitPath] [May m .buffer] (q n k l) (s : State) : hide m (replaceFrames q n k l s) = hide m s := by
  unfold replaceFrames; dsimp only; (repeat' split) <;> simp
@[simp] theorem dropOldestStep_hide [May m .events] [May m .hitPath] [May m .buffer] (a0) (s : State) : hide m (dropOldestStep a0 s) = hide m s := by
  unfold dropOldestStep; dsimp only; (repeat' split) <;> simp
@[simp] theorem lossStart_hide [May m .events] [May m .frontEnd] [May m .hitPath] (a0) (s : State) : hide m (lossStart a0 s) = hide m s := by simp [lossStart]
@[simp] theorem lossEnd_hide [May m .events] [May m .hitPath] [May m .buffer] [May m .compression] (a0) (s : State) : hide m (lossEnd a0 s) = hide m s := by simp [lossEnd]
@[simp] theorem lossEval_hide [May m .events] [May m .frontEnd] [May m .hitPath] [May m .buffer] [May m .compression] (a0) (s : State) : hide m (lossEval a0 s) = hide m s := by simp [lossEval]
@[simp] theorem appendRecord_hide [May m .events] [May m .buffer] [May m .compression] (a0) (a1) (s : State) : hide m (appendRecord a0 a1 s) = hide m s := by
  unfold appendRecord; dsimp only; (repeat' split) <;> simp
@[simp] theorem putWith_hide [May m .events] [May m .frontEnd] [May m .hitPath] [May m .buffer] [May m .compression] (p z) (f : Nat → State → State) (s : State) (h : ∀ q s, hide m (f q s) = hide m s) :
    hide m (putWith p z f s) = hide m s := by
  unfold putWith; dsimp only; (repeat' split) <;> simp [h]
@[simp] theorem putRecord_hide [May m .events] [May m .frontEnd] [May m .hitPath] [May m .buffer] [May m .compression] (a0) (s : State) : hide m (putRecord a0 s) = hide m s := by simp [putRecord]
@[simp] theorem putFrame_hide [May m .events] [May m .frontEnd] [May m .hitPath] [May m .buffer] [May m .compression] (a0) (a1) (a2) (s : State) : hide m (putFrame a0 a1 a2 s) = hide m s := by simp [putFrame]
@[simp] theorem putLossRecord_hide [May m .events] [May m .frontEnd] [May m .hitPath] [May m .buffer] [May m .compression] (a0) (a1) (a2) (s : State) : hide m (putLossRecord a0 a1 a2 s) = hide m s := by
  unfold putLossRecord; (repeat' split) <;> simp
@[simp] theorem lossEvalAll_hide [May m .events] [May m .frontEnd] [May m .hitPath] [May m .buffer] [May m .compression] (s : State) : hide m (lossEvalAll s) = hide m s := by simp [lossEvalAll]
@[simp] theorem updateQueue_hide [May m .events] [May m .buffer] (a0) (s : State) : hide m (updateQueue a0 s) = hide m s := by simp [updateQueue]
@[simp] theorem updateQueues_hide [May m .events] [May m .buffer] (s : State) : hide m (updateQueues s) = hide m s := by simp [updateQueues]
@[simp] theorem startReset_hide [May m .buffer] (a0) (s : State) : hide m (startReset a0 s) = hide m s := by simp [startReset]
@[simp] theorem finishReset_hide [May m .events] [May m .frontEnd] [May m .hitPath] [May m .buffer] [May m .compression] (a0) (s : State) : hide m (finishReset a0 s) = hide m s := by simp [finishReset]
@[simp] theorem upsetWords_hide [May m .buffer] (a0) (a1) (a2) (s : State) : hide m (upsetWords a0 a1 a2 s) = hide m s := by simp [upsetWords]
@[simp] theorem demandWord_hide [May m .events] (a0) (s : State) : hide m (demandWord a0 s) = hide m s := by
  unfold demandWord; (repeat' split) <;> simp
@[simp] theorem skipDescriptor_hide [May m .events] [May m .frontEnd] [May m .hitPath] [May m .buffer] [May m .compression] (a0) (s : State) : hide m (skipDescriptor a0 s) = hide m s := by
  unfold skipDescriptor; dsimp only; (repeat' split) <;> simp
@[simp] theorem takeFrame_hide [May m .events] [May m .frontEnd] [May m .hitPath] [May m .buffer] [May m .compression] (a0) (a1) (s : State) : hide m (takeFrame a0 a1 s).2 = hide m s := by
  unfold takeFrame; dsimp only; (repeat' split) <;> simp
@[simp] theorem retirePage_hide [May m .events] [May m .frontEnd] [May m .hitPath] [May m .buffer] [May m .compression] (a0) (s : State) : hide m (retirePage a0 s) = hide m s := by simp [retirePage]
@[simp] theorem weakLine_hide [May m .events] [May m .frontEnd] [May m .hitPath] [May m .buffer] [May m .compression] (a0) (s : State) : hide m (weakLine a0 s) = hide m s := by
  unfold weakLine; dsimp only; (repeat' split) <;> simp
@[simp] theorem watchCorrected_hide [May m .events] [May m .frontEnd] [May m .hitPath] [May m .buffer] [May m .compression] (a0) (s : State) : hide m (watchCorrected a0 s) = hide m s := by
  unfold watchCorrected; (repeat' split) <;> simp
@[simp] theorem trained_hide [May m .events] [May m .buffer] (a0) (s : State) : hide m (trained a0 s) = hide m s := by simp [trained]
@[simp] theorem mapEffect_hide [May m .events] [May m .buffer] [May m .compression] (a0) (a1) (s : State) : hide m (mapEffect a0 a1 s) = hide m s := by simp [mapEffect]
@[simp] theorem resize_hide [May m .events] [May m .frontEnd] [May m .hitPath] [May m .buffer] [May m .compression] (a0) (s : State) : hide m (resize a0 s) = hide m s := by simp [resize]

/-! TmOps -/

@[simp] theorem sealStops_hide [May m .frontEnd] (a0) (s : State) : hide m (sealStops a0 s) = hide m s := by simp [sealStops]
@[simp] theorem bandUpdate_hide [May m .frontEnd] [May m .timing] (a0) (s : State) : hide m (bandUpdate a0 s) = hide m s := by simp [bandUpdate]
@[simp] theorem bandsFollow_hide [May m .frontEnd] [May m .timing] (s : State) : hide m (bandsFollow s) = hide m s := by simp [bandsFollow]
@[simp] theorem droopSample_hide [May m .events] [May m .frontEnd] [May m .timing] (a0) (a1) (s : State) : hide m (droopSample a0 a1 s) = hide m s := by
  unfold droopSample; dsimp only; (repeat' split) <;> simp
@[simp] theorem tmStat_hide [May m .events] [May m .timing] (a0) (a1) (s : State) : hide m (tmStat a0 a1 s) = hide m s := by simp [tmStat]
@[simp] theorem dmMaskUpdate_hide [May m .timing] (a0) (a1) (s : State) : hide m (dmMaskUpdate a0 a1 s) = hide m s := by simp [dmMaskUpdate]
@[simp] theorem updateK_hide [May m .timing] (a0) (s : State) : hide m (updateK a0 s) = hide m s := by simp [updateK]
@[simp] theorem countBin_hide [May m .timing] (a0) (a1) (s : State) : hide m (countBin a0 a1 s) = hide m s := by simp [countBin]
@[simp] theorem beginFill_hide [May m .timing] (a0) (a1) (a2) (a3) (s : State) : hide m (beginFill a0 a1 a2 a3 s) = hide m s := by
  unfold beginFill; (repeat' split) <;> simp
@[simp] theorem updateTc_hide [May m .timing] (a0) (a1) (s : State) : hide m (updateTc a0 a1 s) = hide m s := by simp [updateTc]
@[simp] theorem fillJobEnds_hide [May m .jobs] [May m .events] (a0) (s : State) : hide m (fillJobEnds a0 s) = hide m s := by simp [fillJobEnds]
@[simp] theorem finishFill_hide [May m .jobs] [May m .events] [May m .timing] (a0) (a1) (s : State) : hide m (finishFill a0 a1 s) = hide m s := by simp [finishFill]
@[simp] theorem fillCheck_hide [May m .jobs] [May m .events] [May m .timing] (a0) (a1) (s : State) : hide m (fillCheck a0 a1 s) = hide m s := by
  unfold fillCheck; (repeat' split) <;> simp
@[simp] theorem startRun_hide [May m .timing] (a0) (a1) (s : State) : hide m (startRun a0 a1 s) = hide m s := by
  unfold startRun; (repeat' split) <;> simp
@[simp] theorem startRuns_hide [May m .timing] (a0) (s : State) : hide m (startRuns a0 s) = hide m s := by simp [startRuns]
@[simp] theorem wakeEngine_hide [May m .power] (a0) (s : State) : hide m (wakeEngine a0 s) = hide m s := by simp [wakeEngine]
@[simp] theorem bandMissed_hide [May m .events] [May m .timing] (a0) (a1) (s : State) : hide m (bandMissed a0 a1 s) = hide m s := by simp [bandMissed]
@[simp] theorem staleUpdate_hide [May m .events] [May m .timing] (a0) (s : State) : hide m (staleUpdate a0 s) = hide m s := by simp [staleUpdate]
@[simp] theorem skewAdd_hide [May m .timing] (a0) (a1) (s : State) : hide m (skewAdd a0 a1 s) = hide m s := by
  unfold skewAdd; (repeat' split) <;> simp
@[simp] theorem skewFinish_hide [May m .timing] (a0) (s : State) : hide m (skewFinish a0 s) = hide m s := by
  unfold skewFinish; (repeat' split) <;> simp
@[simp] theorem inlRebuild_hide [May m .events] [May m .timing] (a0) (s : State) : hide m (inlRebuild a0 s) = hide m s := by simp [inlRebuild]

/-! FeOps -/

@[simp] theorem setPulse_hide [May m .frontEnd] (a0) (a1) (s : State) : hide m (setPulse a0 a1 s) = hide m s := by simp [setPulse]
@[simp] theorem atPs_hide [May m .events] [May m .time] [May m .clock] (a0) (s : State) : hide m (atPs a0 s) = hide m s := by simp [atPs]
@[simp] theorem reachHalf_hide [May m .events] [May m .time] [May m .clock] (a0) (a1) (s : State) : hide m (reachHalf a0 a1 s) = hide m s := by simp [reachHalf]
@[simp] theorem noteDiscard_hide [May m .frontEnd] (a0) (a1) (a2) (s : State) : hide m (noteDiscard a0 a1 a2 s) = hide m s := by simp [noteDiscard]
@[simp] theorem pushHit_hide [May m .frontEnd] (a0) (a1) (s : State) : hide m (pushHit a0 a1 s) = hide m s := by simp [pushHit]
@[simp] theorem endBridge_hide [May m .frontEnd] (a0) (s : State) : hide m (endBridge a0 s) = hide m s := by simp [endBridge]
@[simp] theorem deliverPulse_hide [May m .frontEnd] (a0) (a1) (a2) (a3) (a4) (s : State) : hide m (deliverPulse a0 a1 a2 a3 a4 s) = hide m s := by simp [deliverPulse]
@[simp] theorem riseSeen_hide [May m .frontEnd] [May m .timing] (a0) (a1) (a2) (s : State) : hide m (riseSeen a0 a1 a2 s) = hide m s := by simp [riseSeen]
@[simp] theorem eventRise_hide [May m .frontEnd] [May m .timing] (a0) (a1) (a2) (s : State) : hide m (eventRise a0 a1 a2 s) = hide m s := by simp [eventRise]
@[simp] theorem countRise_hide [May m .frontEnd] [May m .timing] (a0) (a1) (a2) (s : State) : hide m (countRise a0 a1 a2 s) = hide m s := by simp [countRise]
@[simp] theorem swapBank_hide [May m .frontEnd] (a0) (a1) (a2) (s : State) : hide m (swapBank a0 a1 a2 s) = hide m s := by simp [swapBank]
@[simp] theorem crabSeen_hide [May m .frontEnd] (a0) (a1) (s : State) : hide m (crabSeen a0 a1 s) = hide m s := by simp [crabSeen]
@[simp] theorem crabCounts_hide [May m .frontEnd] (a0) (s : State) : hide m (crabCounts a0 s) = hide m s := by simp [crabCounts]
@[simp] theorem frameBoundary_hide [May m .events] [May m .frontEnd] [May m .time] [May m .clock] (s : State) : hide m (frameBoundary s) = hide m s := by
  unfold frameBoundary; dsimp only; (repeat' split) <;> simp
@[simp] theorem dropPulses_hide [May m .frontEnd] (a0) (a1) (s : State) : hide m (dropPulses a0 a1 s) = hide m s := by simp [dropPulses]
@[simp] theorem reloadBlocks_hide [May m .frontEnd] (a0) (s : State) : hide m (reloadBlocks a0 s) = hide m s := by simp [reloadBlocks]
@[simp] theorem rowUpdate_hide [May m .events] [May m .frontEnd] (a0) (s : State) : hide m (rowUpdate a0 s) = hide m s := by simp [rowUpdate]
@[simp] theorem writeConf_hide [May m .frontEnd] (a0) (a1) (s : State) : hide m (writeConf a0 a1 s) = hide m s := by simp [writeConf]
@[simp] theorem writePixels_hide [May m .frontEnd] (a0) (s : State) : hide m (writePixels a0 s) = hide m s := by simp [writePixels]
@[simp] theorem takeMode_hide [May m .frontEnd] (a0) (a1) (a2) (s : State) : hide m (takeMode a0 a1 a2 s) = hide m s := by simp [takeMode]
@[simp] theorem modesEffect_hide [May m .events] [May m .frontEnd] (a0) (a1) (a2) (s : State) : hide m (modesEffect a0 a1 a2 s) = hide m s := by simp [modesEffect]
@[simp] theorem markStuck_hide [May m .frontEnd] (a0) (s : State) : hide m (markStuck a0 s) = hide m s := by simp [markStuck]
@[simp] theorem maskCrab_hide [May m .events] [May m .frontEnd] (a0) (a1) (s : State) : hide m (maskCrab a0 a1 s) = hide m s := by simp [maskCrab]
@[simp] theorem judgeRetest_hide [May m .events] [May m .frontEnd] (a0) (s : State) : hide m (judgeRetest a0 s) = hide m s := by simp [judgeRetest]
@[simp] theorem crabJudge_hide [May m .events] [May m .frontEnd] (s : State) : hide m (crabJudge s) = hide m s := by simp [crabJudge]
@[simp] theorem crabWindow_hide [May m .events] [May m .frontEnd] (s : State) : hide m (crabWindow s) = hide m s := by simp [crabWindow]
@[simp] theorem leakBlock_hide [May m .events] [May m .frontEnd] (a0) (s : State) : hide m (leakBlock a0 s) = hide m s := by simp [leakBlock]
@[simp] theorem leakBits_hide [May m .events] [May m .frontEnd] (a0) (s : State) : hide m (leakBits a0 s) = hide m s := by simp [leakBits]
@[simp] theorem scrubAdd_hide [May m .frontEnd] (a0) (a1) (a2) (s : State) : hide m (scrubAdd a0 a1 a2 s) = hide m s := by simp [scrubAdd]
@[simp] theorem scrubBlock_hide [May m .events] [May m .frontEnd] [May m .free] (a0) (a1) (s : State) : hide m (scrubBlock a0 a1 s) = hide m s := by
  unfold scrubBlock; (repeat' split) <;> simp
@[simp] theorem trimStart_hide [May m .frontEnd] (a0) (a1) (s : State) : hide m (trimStart a0 a1 s) = hide m s := by simp [trimStart]
@[simp] theorem scanBegin_hide [May m .jobs] [May m .events] [May m .frontEnd] (a0) (a1) (a2) (s : State) : hide m (scanBegin a0 a1 a2 s) = hide m s := by simp [scanBegin]
@[simp] theorem scanRelease_hide [May m .frontEnd] (a0) (s : State) : hide m (scanRelease a0 s) = hide m s := by simp [scanRelease]
@[simp] theorem blockJob_hide [May m .jobs] (c p b) (g : Nat → Bool) (f : Nat → State → State) (s : State)
    (h : ∀ n s, hide m (f n s) = hide m s) : hideR m (blockJob c p b g f s) = hide m s := by
  unfold blockJob; dsimp only; apply need_hide; intro s; (repeat' split) <;> simp [h]
@[simp] theorem scanCall_hide [May m .jobs] [May m .events] [May m .frontEnd] (c p b) (s : State) : hideR m (scanCall c p b s) = hide m s := by
  unfold scanCall; apply blockJob_hide; intro n s; simp

/-! CxOps -/

@[simp] theorem setCx_hide [May m .compression] (a0) (a1) (s : State) : hide m (setCx a0 a1 s) = hide m s := by simp [setCx]
@[simp] theorem cxStat_hide [May m .events] [May m .compression] (a0) (a1) (a2) (s : State) : hide m (cxStat a0 a1 a2 s) = hide m s := by simp [cxStat]
@[simp] theorem cxBytes_hide [May m .events] [May m .compression] (a0) (a1) (a2) (s : State) : hide m (cxBytes a0 a1 a2 s) = hide m s := by simp [cxBytes]
@[simp] theorem modBufs_hide [May m .compression] (a0) (a1) (s : State) : hide m (modBufs a0 a1 s) = hide m s := by simp [modBufs]
@[simp] theorem writeIndex_hide [May m .compression] (a0) (a1) (s : State) : hide m (writeIndex a0 a1 s) = hide m s := by simp [writeIndex]
@[simp] theorem cxSettle_hide [May m .events] [May m .compression] (a0) (a1) (s : State) : hide m (cxSettle a0 a1 s) = hide m s := by
  unfold cxSettle; (repeat' split) <;> simp
@[simp] theorem countCoded_hide [May m .events] [May m .compression] (a0) (a1) (a2) (s : State) : hide m (countCoded a0 a1 a2 s) = hide m s := by simp [countCoded]
@[simp] theorem cxWork_hide [May m .compression] (a0) (a1) (a2) (a3) (s : State) : hide m (cxWork a0 a1 a2 a3 s) = hide m s := by simp [cxWork]
@[simp] theorem codeFrameUnit_hide [May m .events] [May m .compression] (a0) (a1) (a2) (a3) (s : State) : hide m (codeFrameUnit a0 a1 a2 a3 s) = hide m s := by simp [codeFrameUnit]
@[simp] theorem codeWave_hide [May m .events] [May m .compression] (a0) (a1) (a2) (s : State) : hide m (codeWave a0 a1 a2 s) = hide m s := by simp [codeWave]
@[simp] theorem copyFrame_hide [May m .events] [May m .compression] (a0) (a1) (a2) (a3) (s : State) : hide m (copyFrame a0 a1 a2 a3 s) = hide m s := by simp [copyFrame]
@[simp] theorem codeClusters_hide [May m .events] [May m .compression] (a0) (a1) (a2) (s : State) : hide m (codeClusters a0 a1 a2 s) = hide m s := by
  unfold codeClusters; (repeat' split) <;> simp
@[simp] theorem codeFrame_hide [May m .events] [May m .compression] (a0) (a1) (a2) (a3) (s : State) : hide m (codeFrame a0 a1 a2 a3 s) = hide m s := by
  unfold codeFrame; dsimp only; (repeat' split) <;> simp
@[simp] theorem cxDefer_hide [May m .events] [May m .compression] (s : State) : hide m (cxDefer s) = hide m s := by simp [cxDefer]
@[simp] theorem cxResume_hide [May m .events] [May m .compression] (s : State) : hide m (cxResume s) = hide m s := by simp [cxResume]

/-! HpOps -/

@[simp] theorem hpStat_hide [May m .events] [May m .hitPath] (a0) (a1) (s : State) : hide m (hpStat a0 a1 s) = hide m s := by simp [hpStat]
@[simp] theorem passHeld_hide [May m .events] [May m .frontEnd] [May m .hitPath] [May m .buffer] [May m .compression] (a0) (a1) (a2) (s : State) : hide m (passHeld a0 a1 a2 s) = hide m s := by
  unfold passHeld; (repeat' split) <;> simp
@[simp] theorem offer_hide [May m .events] [May m .frontEnd] [May m .hitPath] [May m .buffer] [May m .compression] (a0) (s : State) : hide m (offer a0 s) = hide m s := by
  unfold offer; (repeat' split) <;> simp
@[simp] theorem offerLoss_hide [May m .events] [May m .frontEnd] [May m .hitPath] [May m .buffer] [May m .compression] (a0) (a1) (a2) (s : State) : hide m (offerLoss a0 a1 a2 s) = hide m s := by
  unfold offerLoss; dsimp only; (repeat' split) <;> simp
@[simp] theorem sideCount_hide [May m .hitPath] (a0) (a1) (s : State) : hide m (sideCount a0 a1 s) = hide m s := by simp [sideCount]
@[simp] theorem emitCluster_hide [May m .events] [May m .frontEnd] [May m .hitPath] [May m .buffer] [May m .compression] (a0) (s : State) : hide m (emitCluster a0 s) = hide m s := by simp [emitCluster]
@[simp] theorem sendMerge_hide [May m .links] (a0) (a1) (s : State) : hide m (sendMerge a0 a1 s) = hide m s := by simp [sendMerge]
@[simp] theorem slPacketIn_hide [May m .links] (a0) (s : State) : hide m (slPacketIn a0 s) = hide m s := by simp [slPacketIn]
@[simp] theorem meetFragment_hide [May m .events] [May m .frontEnd] [May m .hitPath] [May m .buffer] [May m .compression] [May m .links] (a0) (a1) (a2) (a3) (s : State) : hide m (meetFragment a0 a1 a2 a3 s) = hide m s := by simp [meetFragment]
@[simp] theorem fragArrives_hide [May m .events] [May m .frontEnd] [May m .hitPath] [May m .buffer] [May m .compression] [May m .links] (a0) (a1) (a2) (s : State) : hide m (fragArrives a0 a1 a2 s) = hide m s := by
  unfold fragArrives; dsimp only; (repeat' split) <;> simp
@[simp] theorem keepCluster_hide [May m .events] [May m .frontEnd] [May m .hitPath] [May m .buffer] [May m .compression] [May m .links] (a0) (a1) (s : State) : hide m (keepCluster a0 a1 s) = hide m s := by
  unfold keepCluster
  try dsimp only
  repeat' (first | (simp; done) | intro _ | split | with_reducible apply evChange_hide | with_reducible apply event_hide | with_reducible apply Eq.trans (hide_forAll _ _ _ _) | with_reducible apply Eq.trans (hide_when _ _ _ _) | with_reducible apply need_hide | with_reducible apply needState_hide | with_reducible apply needClaim_hide | with_reducible apply call_hide | with_reducible apply callSel_hide | with_reducible assumption)
  done
@[simp] theorem sendFragment_hide [May m .hitPath] [May m .links] (a0) (a1) (s : State) : hide m (sendFragment a0 a1 s) = hide m s := by simp [sendFragment]
@[simp] theorem routeClosed_hide [May m .events] [May m .frontEnd] [May m .hitPath] [May m .buffer] [May m .compression] [May m .links] (a0) (s : State) : hide m (routeClosed a0 s) = hide m s := by
  unfold routeClosed; dsimp only; (repeat' split) <;> simp
@[simp] theorem takeCluster_hide [May m .hitPath] (a0) (a1) (s : State) : hide m (takeCluster a0 a1 s) = hide m s := by simp [takeCluster]
@[simp] theorem ownerTakes_hide [May m .hitPath] (a0) (a1) (a2) (s : State) : hide m (ownerTakes a0 a1 a2 s).2 = hide m s := by
  unfold ownerTakes; dsimp only; (repeat' split) <;> simp
@[simp] theorem emitClosed_hide [May m .events] [May m .frontEnd] [May m .hitPath] [May m .buffer] [May m .compression] [May m .links] (a0) (a1) (s : State) : hide m (emitClosed a0 a1 s) = hide m s := by simp [emitClosed]
@[simp] theorem closeCluster_hide [May m .events] [May m .frontEnd] [May m .hitPath] [May m .buffer] [May m .compression] [May m .links] (a0) (a1) (s : State) : hide m (closeCluster a0 a1 s) = hide m s := by
  unfold closeCluster; dsimp only; (repeat' split) <;> simp
@[simp] theorem joinHit_hide [May m .events] [May m .frontEnd] [May m .hitPath] [May m .buffer] [May m .compression] [May m .links] (a0) (a1) (s : State) : hide m (joinHit a0 a1 s) = hide m s := by
  unfold joinHit; dsimp only; (repeat' split) <;> simp
@[simp] theorem sideEnds_hide [May m .events] [May m .frontEnd] [May m .hitPath] [May m .buffer] [May m .compression] (a0) (s : State) : hide m (sideEnds a0 s) = hide m s := by simp [sideEnds]
@[simp] theorem setSide_hide [May m .events] [May m .frontEnd] [May m .hitPath] [May m .buffer] [May m .compression] (a0) (a1) (s : State) : hide m (setSide a0 a1 s) = hide m s := by simp [setSide]
@[simp] theorem hpChange_hide [May m .hitPath] (a0) (a1) (s : State) : hide m (hpChange a0 a1 s) = hide m s := by simp [hpChange]
@[simp] theorem hpDue_hide [May m .settings] [May m .hitPath] (s : State) : hide m (hpDue s) = hide m s := by simp [hpDue]
@[simp] theorem mergeSet_hide [May m .settings] [May m .events] [May m .frontEnd] [May m .hitPath] [May m .buffer] [May m .compression] (a0) (s : State) : hide m (mergeSet a0 s) = hide m s := by simp [mergeSet]

/-! TrOps -/

@[simp] theorem trStat_hide [May m .events] [May m .trigger] (a0) (a1) (s : State) : hide m (trStat a0 a1 s) = hide m s := by simp [trStat]
@[simp] theorem recordSample_hide [May m .trigger] (a0) (a1) (a2) (s : State) : hide m (recordSample a0 a1 a2 s) = hide m s := by simp [recordSample]
@[simp] theorem stepUnit_hide [May m .trigger] (u n c r v) (a : List UnitFire × State) : hide m (stepUnit u n c r v a).2 = hide m a.2 := by
  unfold stepUnit
  dsimp only
  (repeat' split) <;> simp
@[simp] theorem evalUnit_hide [May m .trigger] (u n r v) (s : State) : hide m (evalUnit u n r v s).2 = hide m s := by
  have h : ∀ (v : List (Nat × Int)) (a : List UnitFire × State),
      hide m (v.foldl (fun a v => stepUnit u n (unitConf s u) r v a) a).2 = hide m a.2 := by
    intro v
    induction v with
    | nil => intro a; rfl
    | cons x v ih => intro a; rw [List.foldl_cons, ih]; simp
  simpa [evalUnit] using h v ([], s)
@[simp] theorem letFire_hide [May m .events] [May m .trigger] (a0) (a1) (s : State) : hide m (letFire a0 a1 s).2 = hide m s := by
  unfold letFire; dsimp only; (repeat' split) <;> simp
@[simp] theorem openGate_hide [May m .events] [May m .trigger] (a0) (a1) (a2) (s : State) : hide m (openGate a0 a1 a2 s) = hide m s := by
  unfold openGate; dsimp only; (repeat' split) <;> simp
@[simp] theorem pulseFrom_hide [May m .trigger] (a0) (s : State) : hide m (pulseFrom a0 s) = hide m s := by simp [pulseFrom]
@[simp] theorem pulseOut_hide [May m .trigger] (a0) (a1) (s : State) : hide m (pulseOut a0 a1 s) = hide m s := by simp [pulseOut]
@[simp] theorem claimCapture_hide [May m .events] [May m .trigger] (a0) (a1) (a2) (s : State) : hide m (claimCapture a0 a1 a2 s).2 = hide m s := by
  unfold claimCapture; (repeat' split) <;> simp
@[simp] theorem addFire_hide [May m .trigger] (a0) (s : State) : hide m (addFire a0 s) = hide m s := by simp [addFire]
@[simp] theorem sendOn_hide [May m .trigger] [May m .links] (a0) (a1) (s : State) : hide m (sendOn a0 a1 s) = hide m s := by simp [sendOn]
@[simp] theorem copyWord_hide [May m .links] (a0) (s : State) : hide m (copyWord a0 s) = hide m s := by simp [copyWord]
@[simp] theorem onDomain_hide [May m .trigger] (a0) (s : State) : hide m (onDomain a0 s) = hide m s := by simp [onDomain]
@[simp] theorem domainCount_hide [May m .trigger] (a0) (s : State) : hide m (domainCount a0 s) = hide m s := by simp [domainCount]
@[simp] theorem sendWord_hide [May m .trigger] [May m .links] (a0) (s : State) : hide m (sendWord a0 s) = hide m s := by simp [sendWord]
@[simp] theorem forwardWord_hide [May m .trigger] [May m .links] (a0) (a1) (s : State) : hide m (forwardWord a0 a1 s) = hide m s := by simp [forwardWord]
@[simp] theorem domainFire_hide [May m .trigger] [May m .links] (a0) (a1) (s : State) : hide m (domainFire a0 a1 s) = hide m s := by simp [domainFire]
@[simp] theorem fireUnit_hide [May m .events] [May m .trigger] (a0) (a1) (a2) (s : State) : hide m (fireUnit a0 a1 a2 s) = hide m s := by simp [fireUnit]
@[simp] theorem fireGroup_hide [May m .events] [May m .trigger] [May m .links] (a0) (a1) (a2) (a3) (s : State) : hide m (fireGroup a0 a1 a2 a3 s) = hide m s := by
  unfold fireGroup; dsimp only; (repeat' split) <;> simp
@[simp] theorem admitAll_hide [May m .events] [May m .trigger] (g hits) (s : State) : hide m (admitAll g hits s).2 = hide m s := by
  have h : ∀ (v : List (List UnitFire)) (a : List UnitFire × State),
      hide m (v.foldl (fun a h => match letFire g h a.2 with
        | (some f, s) => (a.1 ++ [f], s)
        | (none, s) => (a.1, s)) a).2 = hide m a.2 := by
    intro v
    induction v with
    | nil => intro a; rfl
    | cons x v ih =>
      intro a
      have hx : hide m (letFire g x a.2).2 = hide m a.2 := letFire_hide g x a.2
      rw [List.foldl_cons, ih]
      revert hx
      cases letFire g x a.2 with
      | mk f t => cases f <;> simp
  exact h hits ([], s)
@[simp] theorem evalRaw_hide [May m .events] [May m .trigger] [May m .links] (g) (s : State) : hide m (evalRaw g s) = hide m s := by
  have h : ∀ (us : List Nat) (a : List (List UnitFire) × State),
      hide m (us.foldl (fun (a : List (List UnitFire) × State) u =>
        let c := unitConf s u
        let raw := fallbackAt s u g
        let row (p : Nat) : Option Int := if cfSource c = 0 ∨ raw then histSample s p g else some 0
        let x := evalUnit u g raw (unitInputs s c row) a.2
        (a.1 ++ [x.1], x.2)) a).2 = hide m a.2 := by
    intro v
    induction v with
    | nil => intro a; rfl
    | cons x v ih => intro a; rw [List.foldl_cons, ih]; simp
  unfold evalRaw
  dsimp only
  rw [fireGroup_hide, admitAll_hide]
  exact h _ _
@[simp] theorem fireNamed_hide [May m .events] [May m .trigger] [May m .links] (a0) (a1) (a2) (a3) (s : State) : hide m (fireNamed a0 a1 a2 a3 s) = hide m s := by simp [fireNamed]
@[simp] theorem evalCoreUnit_hide [May m .events] [May m .trigger] [May m .links] (a0) (a1) (s : State) : hide m (evalCoreUnit a0 a1 s) = hide m s := by simp [evalCoreUnit]
@[simp] theorem evalCore_hide [May m .events] [May m .trigger] [May m .links] (a0) (s : State) : hide m (evalCore a0 s) = hide m s := by simp [evalCore]
@[simp] theorem remoteFire_hide [May m .events] [May m .trigger] (a0) (a1) (a2) (s : State) : hide m (remoteFire a0 a1 a2 s) = hide m s := by
  unfold remoteFire; dsimp only; (repeat' split) <;> simp
@[simp] theorem domainDetach_hide [May m .events] [May m .trigger] (s : State) : hide m (domainDetach s) = hide m s := by
  unfold domainDetach; (repeat' split) <;> simp
@[simp] theorem domainJoin_hide [May m .events] [May m .trigger] (s : State) : hide m (domainJoin s) = hide m s := by simp [domainJoin]
@[simp] theorem placeUnit_hide [May m .trigger] (a0) (a1) (s : State) : hide m (placeUnit a0 a1 s) = hide m s := by simp [placeUnit]
@[simp] theorem installUnit_hide [May m .events] [May m .trigger] (a0) (a1) (s : State) : hide m (installUnit a0 a1 s) = hide m s := by simp [installUnit]
@[simp] theorem applyUnits_hide [May m .events] [May m .trigger] (s : State) : hide m (applyUnits s) = hide m s := by simp [applyUnits]
@[simp] theorem setDomain_hide [May m .settings] [May m .events] [May m .trigger] (a0) (s : State) : hide m (setDomain a0 s) = hide m s := by simp [setDomain]
@[simp] theorem setTrigio_hide [May m .settings] [May m .trigger] (a0) (s : State) : hide m (setTrigio a0 s) = hide m s := by simp [setTrigio]
@[simp] theorem setTrigger_hide [May m .settings] [May m .events] [May m .trigger] (a0) (s : State) : hide m (setTrigger a0 s) = hide m s := by simp [setTrigger]
@[simp] theorem acceptTrigger_hide [May m .settings] [May m .events] [May m .trigger] (a0) (a1) (s : State) : hide m (acceptTrigger a0 a1 s) = hide m s := by simp [acceptTrigger]
@[simp] theorem trPowerUp_hide [May m .settings] [May m .events] [May m .trigger] (s : State) : hide m (trPowerUp s) = hide m s := by simp [trPowerUp]
@[simp] theorem trPowerDown_hide [May m .events] [May m .trigger] (a0) (s : State) : hide m (trPowerDown a0 s) = hide m s := by simp [trPowerDown]
@[simp] theorem shiftSamples_hide [May m .trigger] [May m .waveform] (a0) (s : State) : hide m (shiftSamples a0 s) = hide m s := by simp [shiftSamples]

/-! TcOps -/

@[simp] theorem timeStat_hide [May m .events] [May m .time] (a0) (a1) (s : State) : hide m (timeStat a0 a1 s) = hide m s := by simp [timeStat]
@[simp] theorem drawWords_hide [May m .free] : ∀ (n) (s : State), hide m (drawWords n s).2 = hide m s
  | 0, s => rfl
  | n + 1, s => by simp [drawWords, drawWords_hide n]
@[simp] theorem selectFreq_hide [May m .events] [May m .time] (a0) (s : State) : hide m (selectFreq a0 s) = hide m s := by simp [selectFreq]
@[simp] theorem trackUsable_hide [May m .time] (s : State) : hide m (trackUsable s) = hide m s := by simp [trackUsable]
@[simp] theorem freqRefresh_hide [May m .events] [May m .time] (s : State) : hide m (freqRefresh s) = hide m s := by simp [freqRefresh]
@[simp] theorem modFreqSrc_hide [May m .time] (a0) (a1) (s : State) : hide m (modFreqSrc a0 a1 s) = hide m s := by simp [modFreqSrc]
@[simp] theorem trackOcxo_hide [May m .time] (s : State) : hide m (trackOcxo s) = hide m s := by simp [trackOcxo]
@[simp] theorem freqLost_hide [May m .events] [May m .time] (a0) (s : State) : hide m (freqLost a0 s) = hide m s := by simp [freqLost]
@[simp] theorem startMonitors_hide [May m .time] (s : State) : hide m (startMonitors s) = hide m s := by simp [startMonitors]
@[simp] theorem freqGood_hide [May m .events] [May m .time] (a0) (s : State) : hide m (freqGood a0 s) = hide m s := by simp [freqGood]
@[simp] theorem setTime_hide [May m .events] [May m .time] (a0) (s : State) : hide m (setTime a0 s) = hide m s := by simp [setTime]
@[simp] theorem steerOn_hide [May m .time] (s : State) : hide m (steerOn s) = hide m s := by simp [steerOn]
@[simp] theorem decideStep_hide [May m .time] (a0) (s : State) : hide m (decideStep a0 s) = hide m s := by simp [decideStep]
@[simp] theorem steer_hide [May m .time] (a0) (s : State) : hide m (steer a0 s) = hide m s := by simp [steer]
@[simp] theorem acquire_hide [May m .events] [May m .time] (a0) (s : State) : hide m (acquire a0 s) = hide m s := by simp [acquire]
@[simp] theorem trackSync_hide [May m .events] [May m .time] (a0) (s : State) : hide m (trackSync a0 s) = hide m s := by simp [trackSync]
@[simp] theorem timeMeasure_hide [May m .events] [May m .time] (a0) (a1) (s : State) : hide m (timeMeasure a0 a1 s) = hide m s := by
  unfold timeMeasure; dsimp only; (repeat' split) <;> simp
@[simp] theorem followMaster_hide [May m .events] [May m .time] (s : State) : hide m (followMaster s) = hide m s := by
  unfold followMaster; dsimp only; (repeat' split) <;> simp
@[simp] theorem announce_hide [May m .events] [May m .time] (a0) (s : State) : hide m (announce a0 s) = hide m s := by simp [announce]
@[simp] theorem openExchange_hide [May m .time] (a0) (s : State) : hide m (openExchange a0 s) = hide m s := by simp [openExchange]
@[simp] theorem completeExchange_hide [May m .events] [May m .time] (a0) (s : State) : hide m (completeExchange a0 s) = hide m s := by
  unfold completeExchange; (repeat' split) <;> simp
@[simp] theorem onExchange_hide [May m .events] [May m .time] (a0) (a1) (a2) (s : State) : hide m (onExchange a0 a1 a2 s) = hide m s := by
  unfold onExchange; (repeat' split) <;> simp
@[simp] theorem stampNow_hide [May m .events] [May m .time] [May m .clock] (a0) (s : State) : hide m (stampNow a0 s).2 = hide m s := by simp [stampNow]
@[simp] theorem splitAdd_hide [May m .events] [May m .time] (a0) (a1) (s : State) : hide m (splitAdd a0 a1 s) = hide m s := by simp [splitAdd]
@[simp] theorem splitCount_hide [May m .events] [May m .time] (a0) (a1) (s : State) : hide m (splitCount a0 a1 s) = hide m s := by simp [splitCount]
@[simp] theorem splitStop_hide [May m .events] [May m .time] (a0) (a1) (s : State) : hide m (splitStop a0 a1 s) = hide m s := by
  unfold splitStop; dsimp only; (repeat' split) <;> simp
@[simp] theorem splitStart_hide [May m .time] (a0) (a1) (s : State) : hide m (splitStart a0 a1 s) = hide m s := by simp [splitStart]
@[simp] theorem splitStamp_hide [May m .events] [May m .time] (a0) (a1) (a2) (s : State) : hide m (splitStamp a0 a1 a2 s) = hide m s := by simp [splitStamp]
@[simp] theorem endGate_hide [May m .jobs] [May m .events] [May m .time] (a0) (a1) (s : State) : hide m (endGate a0 a1 s) = hide m s := by
  unfold endGate; (repeat' split) <;> simp
@[simp] theorem takeStep_hide [May m .jobs] [May m .events] [May m .frontEnd] [May m .trigger] [May m .waveform] [May m .buffer] [May m .compression] [May m .time] [May m .clock] (a0) (s : State) : hide m (takeStep a0 s) = hide m s := by simp [takeStep]

/-! Window -/

@[simp] theorem ring_hide [May m .mail] (a0) (s : State) : hide m (ring a0 s) = hide m s := by simp [ring]
@[simp] theorem mailboxWrite_hide [May m .mail] [May m .events] (a0) (a1) (a2) (s : State) : hide m (mailboxWrite a0 a1 a2 s) = hide m s := by simp [mailboxWrite]
@[simp] theorem stickyClear_hide [May m .events] (a0) (a1) (s : State) : hide m (stickyClear a0 a1 s) = hide m s := by simp [stickyClear]
@[simp] theorem enableWrite_hide [May m .events] (a0) (a1) (s : State) : hide m (enableWrite a0 a1 s) = hide m s := by simp [enableWrite]
@[simp] theorem windowWrite_hide [May m .mail] [May m .events] (a0) (a1) (s : State) : hide m (windowWrite a0 a1 s) = hide m s := by simp [windowWrite]
@[simp] theorem windowWrites_hide [May m .mail] [May m .events] : ∀ (a) (l : List Word) (s : State), hide m (windowWrites a l s) = hide m s
  | _, [], s => rfl
  | a, w :: ws, s => by simp [windowWrites, windowWrites_hide _ ws]
@[simp] theorem execSbRead_hide [May m .sideband] (a0) (a1) (s : State) : hideO m (execSbRead a0 a1 s) = some (hide m s) := by simp [execSbRead]
@[simp] theorem execSbWrite_hide [May m .mail] [May m .sideband] [May m .events] (a0) (a1) (s : State) : hideO m (execSbWrite a0 a1 s) = some (hide m s) := by simp [execSbWrite]
@[simp] theorem execSbStatus_hide [May m .sideband] (s : State) : hideO m (execSbStatus s) = some (hide m s) := by simp [execSbStatus]
@[simp] theorem execSbUnknownCommand_hide [May m .sideband] (a0) (s : State) : hideO m (execSbUnknownCommand a0 s) = some (hide m s) := by simp [execSbUnknownCommand]
@[simp] theorem execWindowWrite_hide [May m .mail] [May m .events] (a0) (a1) (s : State) : hideO m (execWindowWrite a0 a1 s) = some (hide m s) := by simp [execWindowWrite]
@[simp] theorem execEventStickyClear_hide [May m .events] (a0) (a1) (s : State) : hideO m (execEventStickyClear a0 a1 s) = some (hide m s) := by simp [execEventStickyClear]
@[simp] theorem lkStat_hide [May m .events] [May m .links] (a0) (a1) (a2) (s : State) : hide m (lkStat a0 a1 a2 s) = hide m s := by simp [lkStat]
@[simp] theorem ctrlAnswer_hide [May m .events] [May m .links] (a0) (a1) (s : State) : hide m (ctrlAnswer a0 a1 s) = hide m s := by
  unfold ctrlAnswer; dsimp only; (repeat' split) <;> simp
@[simp] theorem execCtrlRead_hide [May m .events] [May m .links] (a0) (s : State) : hideO m (execCtrlRead a0 s) = some (hide m s) := by simp [execCtrlRead]
@[simp] theorem execCtrlWrite_hide [May m .mail] [May m .events] [May m .links] (a0) (s : State) : hideO m (execCtrlWrite a0 s) = some (hide m s) := by simp [execCtrlWrite]

/-! TroubleRecord -/

@[simp] theorem commitPending_hide [May m .events] (n) (s : State) : hide m (commitPending n s) = hide m s := by
  unfold commitPending; split
  · rfl
  · dsimp only; rw [raiseIf_hide]; apply evChange_hide; intro s; split <;> simp
@[simp] theorem holdPending_hide [May m .events] (a0) (a1) (s : State) : hide m (holdPending a0 a1 s) = hide m s := by
  unfold holdPending; dsimp only; (repeat' split) <;> simp
@[simp] theorem execAlarmPendingCommit_hide [May m .events] [May m .time] [May m .clock] (a0) (s : State) : hideO m (execAlarmPendingCommit a0 s) = some (hide m s) := by
  unfold execAlarmPendingCommit
  try dsimp only
  repeat' (first | (simp; done) | intro _ | split | with_reducible apply evChange_hide | with_reducible apply event_hide | with_reducible apply Eq.trans (hide_forAll _ _ _ _) | with_reducible apply Eq.trans (hide_when _ _ _ _) | with_reducible apply need_hide | with_reducible apply needState_hide | with_reducible apply needClaim_hide | with_reducible apply call_hide | with_reducible apply callSel_hide | with_reducible assumption)
  done
@[simp] theorem releaseOne_hide [May m .events] (s : State) : hide m (releaseOne s) = hide m s := by
  unfold releaseOne; (repeat' split) <;> simp
@[simp] theorem execAlarmHeldRelease_hide [May m .events] (s : State) : hideO m (execAlarmHeldRelease s) = some (hide m s) := by simp [execAlarmHeldRelease]
@[simp] theorem closeIncident_hide [May m .events] (s : State) : hide m (closeIncident s) = hide m s := by simp [closeIncident]
@[simp] theorem execIncidentCalmExpiry_hide [May m .events] [May m .time] [May m .clock] (s : State) : hideO m (execIncidentCalmExpiry s) = some (hide m s) := by simp [execIncidentCalmExpiry]
@[simp] theorem eventVote_hide [May m .events] (a0) (s : State) : hide m (eventVote a0 s) = hide m s := by simp [eventVote]
@[simp] theorem execEventStateTmrVote_hide [May m .events] (a0) (s : State) : hideO m (execEventStateTmrVote a0 s) = some (hide m s) := by simp [execEventStateTmrVote]
@[simp] theorem execEvtRead_hide [May m .mail] [May m .events] (a0) (s : State) : hideO m (execEvtRead a0 s) = some (hide m s) := by simp [execEvtRead]
@[simp] theorem execEvtClear_hide [May m .mail] [May m .events] (a0) (s : State) : hideO m (execEvtClear a0 s) = some (hide m s) := by
  unfold execEvtClear; apply call_hide; intro p s; apply need_hide; intro s; simp
@[simp] theorem execEvtConfig_hide [May m .mail] [May m .events] (a0) (s : State) : hideO m (execEvtConfig a0 s) = some (hide m s) := by simp [execEvtConfig]
@[simp] theorem execEvtSummary_hide [May m .mail] [May m .events] (a0) (s : State) : hideO m (execEvtSummary a0 s) = some (hide m s) := by simp [execEvtSummary]
@[simp] theorem execFlogRead_hide [May m .mail] [May m .events] (a0) (s : State) : hideO m (execFlogRead a0 s) = some (hide m s) := by simp [execFlogRead]
@[simp] theorem execFlogClear_hide [May m .mail] [May m .events] (a0) (s : State) : hideO m (execFlogClear a0 s) = some (hide m s) := by simp [execFlogClear]
@[simp] theorem execEvtStats_hide [May m .mail] [May m .events] (a0) (s : State) : hideO m (execEvtStats a0 s) = some (hide m s) := by simp [execEvtStats]
@[simp] theorem execEvtTraceConfig_hide [May m .mail] [May m .settings] [May m .events] (a0) (s : State) : hideO m (execEvtTraceConfig a0 s) = some (hide m s) := by simp [execEvtTraceConfig]

/-! LkOps -/

@[simp] theorem enterLane_hide [May m .links] (a0) (a1) (s : State) : hide m (enterLane a0 a1 s) = hide m s := by simp [enterLane]
@[simp] theorem toDetect_hide [May m .links] (a0) (s : State) : hide m (toDetect a0 s) = hide m s := by simp [toDetect]
@[simp] theorem toRate_hide [May m .links] (a0) (a1) (s : State) : hide m (toRate a0 a1 s) = hide m s := by simp [toRate]
@[simp] theorem stepDown_hide [May m .links] (a0) (s : State) : hide m (stepDown a0 s) = hide m s := by simp [stepDown]
@[simp] theorem putBlocks_hide [May m .links] (a0) (a1) (s : State) : hide m (putBlocks a0 a1 s) = hide m s := by simp [putBlocks]
@[simp] theorem putOnAll_hide [May m .links] (a0) (a1) (s : State) : hide m (putOnAll a0 a1 s) = hide m s := by simp [putOnAll]
@[simp] theorem idleGap_hide [May m .links] (a0) (a1) (s : State) : hide m (idleGap a0 a1 s) = hide m s := by simp [idleGap]
@[simp] theorem takeBack_hide [May m .links] [May m .free] (a0) (s : State) : hide m (takeBack a0 s).2 = hide m s := by simp [takeBack]
@[simp] theorem cutFlight_hide [May m .links] [May m .free] (a0) (s : State) : hide m (cutFlight a0 s) = hide m s := by simp [cutFlight]
@[simp] theorem pathLost_hide [May m .events] (s : State) : hide m (pathLost s) = hide m s := by simp [pathLost]
@[simp] theorem leaveRunning_hide [May m .events] [May m .buffer] [May m .links] [May m .free] (a0) (a1) (s : State) : hide m (leaveRunning a0 a1 s) = hide m s := by simp [leaveRunning]
@[simp] theorem groupDown_hide [May m .events] [May m .buffer] [May m .links] [May m .free] (a0) (s : State) : hide m (groupDown a0 s) = hide m s := by simp [groupDown]
@[simp] theorem governorAnswer_hide [May m .links] [May m .power] (a0) (a1) (a2) (a3) (s : State) : hide m (governorAnswer a0 a1 a2 a3 s) = hide m s := by
  unfold governorAnswer; (repeat' split) <;> simp
@[simp] theorem rateAnswer_hide [May m .mail] [May m .events] [May m .links] [May m .power] (a0) (a1) (s : State) : hide m (rateAnswer a0 a1 s) = hide m s := by
  unfold rateAnswer; (repeat' split) <;> simp
@[simp] theorem requestRate_hide [May m .links] (a0) (a1) (a2) (s : State) : hide m (requestRate a0 a1 a2 s) = hide m s := by simp [requestRate]
@[simp] theorem restartGroup_hide [May m .mail] [May m .events] [May m .buffer] [May m .links] [May m .power] [May m .free] (a0) (s : State) : hide m (restartGroup a0 s) = hide m s := by
  unfold restartGroup
  try dsimp only
  repeat' (first | (simp; done) | intro _ | split | with_reducible apply evChange_hide | with_reducible apply event_hide | with_reducible apply Eq.trans (hide_forAll _ _ _ _) | with_reducible apply Eq.trans (hide_when _ _ _ _) | with_reducible apply need_hide | with_reducible apply needState_hide | with_reducible apply needClaim_hide | with_reducible apply call_hide | with_reducible apply callSel_hide | with_reducible assumption)
  done
@[simp] theorem fixWidth_hide [May m .links] (a0) (s : State) : hide m (fixWidth a0 s) = hide m s := by
  unfold fixWidth; (repeat' split) <;> simp
@[simp] theorem tryAlign_hide [May m .links] (a0) (s : State) : hide m (tryAlign a0 s) = hide m s := by
  unfold tryAlign; (repeat' split) <;> simp
@[simp] theorem tryMap_hide [May m .links] (a0) (s : State) : hide m (tryMap a0 s) = hide m s := by simp [tryMap]
@[simp] theorem wakeNaks_hide [May m .links] (a0) (s : State) : hide m (wakeNaks a0 s) = hide m s := by simp [wakeNaks]
@[simp] theorem enterRunning_hide [May m .events] [May m .buffer] [May m .links] (a0) (s : State) : hide m (enterRunning a0 s) = hide m s := by simp [enterRunning]
@[simp] theorem laneRunning_hide [May m .events] [May m .buffer] [May m .links] (a0) (s : State) : hide m (laneRunning a0 s) = hide m s := by simp [laneRunning]
@[simp] theorem noteNeg_hide [May m .links] (a0) (a1) (a2) (s : State) : hide m (noteNeg a0 a1 a2 s) = hide m s := by simp [noteNeg]
@[simp] theorem tryFec_hide [May m .links] (a0) (s : State) : hide m (tryFec a0 s) = hide m s := by simp [tryFec]
@[simp] theorem rateAgreed_hide [May m .events] [May m .buffer] [May m .links] [May m .time] [May m .free] (a0) (a1) (s : State) : hide m (rateAgreed a0 a1 s) = hide m s := by simp [rateAgreed]
@[simp] theorem ethCheck_hide [May m .events] [May m .buffer] [May m .links] (a0) (s : State) : hide m (ethCheck a0 s) = hide m s := by simp [ethCheck]
@[simp] theorem resolveMac_hide [May m .events] [May m .buffer] [May m .links] (a0) (s : State) : hide m (resolveMac a0 s) = hide m s := by simp [resolveMac]
@[simp] theorem ethCount_hide [May m .links] (a0) (a1) (s : State) : hide m (ethCount a0 a1 s) = hide m s := by simp [ethCount]
@[simp] theorem putWire_hide [May m .events] [May m .links] [May m .free] (a0) (a1) (a2) (a3) (s : State) : hide m (putWire a0 a1 a2 a3 s) = hide m s := by simp [putWire]
@[simp] theorem sendPacket_hide [May m .events] [May m .links] [May m .free] (a0) (a1) (a2) (a3) (a4) (a5) (a6) (a7) (s : State) : hide m (sendPacket a0 a1 a2 a3 a4 a5 a6 a7 s) = hide m s := by simp [sendPacket]
@[simp] theorem sendOwn_hide [May m .events] [May m .links] [May m .free] (a0) (a1) (a2) (a3) (a4) (s : State) : hide m (sendOwn a0 a1 a2 a3 a4 s) = hide m s := by simp [sendOwn]
@[simp] theorem stampRequest_hide [May m .events] [May m .time] [May m .free] (a0) (a1) (s : State) : hide m (stampRequest a0 a1 s) = hide m s := by simp [stampRequest]
@[simp] theorem sendTc0_hide [May m .events] [May m .links] [May m .time] [May m .free] (a0) (a1) (s : State) : hide m (sendTc0 a0 a1 s) = hide m s := by simp [sendTc0]
@[simp] theorem reportGone_hide [May m .events] [May m .links] (a0) (a1) (s : State) : hide m (reportGone a0 a1 s) = hide m s := by simp [reportGone]
@[simp] theorem dropGone_hide [May m .events] [May m .links] (a0) (s : State) : hide m (dropGone a0 s) = hide m s := by simp [dropGone]
@[simp] theorem sendOut_hide [May m .events] [May m .links] [May m .free] (a0) (a1) (s : State) : hide m (sendOut a0 a1 s) = hide m s := by simp [sendOut]
@[simp] theorem sendAgain_hide [May m .events] [May m .links] [May m .free] (a0) (a1) (a2) (s : State) : hide m (sendAgain a0 a1 a2 s) = hide m s := by
  unfold sendAgain; dsimp only; (repeat' split) <;> simp
@[simp] theorem sendBuf_hide [May m .events] [May m .compression] [May m .links] [May m .free] (a0) (a1) (a2) (a3) (s : State) : hide m (sendBuf a0 a1 a2 a3 s) = hide m s := by simp [sendBuf]
@[simp] theorem sendFrame_hide [May m .events] [May m .frontEnd] [May m .hitPath] [May m .buffer] [May m .compression] [May m .links] [May m .free] (g q f ups) (s : State) : hide m (sendFrame g q f ups s) = hide m s := by
  unfold sendFrame
  dsimp only
  split
  · simp
  · have ht := takeFrame_hide (m := m) q f (upsetWords q f.pos (ups.filter (fun u => decide (32 * u.word < frameSize f.payload.length))) (cxSettle q f s))
    revert ht
    cases takeFrame q f (upsetWords q f.pos (ups.filter (fun u => decide (32 * u.word < frameSize f.payload.length))) (cxSettle q f s)) with
    | mk o t => cases o <;> simp
@[simp] theorem sendQueue_hide [May m .events] [May m .frontEnd] [May m .hitPath] [May m .buffer] [May m .compression] [May m .links] [May m .free] (a0) (a1) (a2) (a3) (s : State) : hide m (sendQueue a0 a1 a2 a3 s) = hide m s := by
  unfold sendQueue; (repeat' split) <;> simp
@[simp] theorem fillTokens_hide [May m .links] (a0) (s : State) : hide m (fillTokens a0 s) = hide m s := by simp [fillTokens]
@[simp] theorem sendLog_hide [May m .events] [May m .links] [May m .free] (a0) (s : State) : hide m (sendLog a0 s) = hide m s := by simp [sendLog]
@[simp] theorem sendNext_hide [May m .events] [May m .frontEnd] [May m .hitPath] [May m .buffer] [May m .compression] [May m .links] [May m .time] [May m .free] (a0) (a1) (a2) (s : State) : hide m (sendNext a0 a1 a2 s) = hide m s := by
  unfold sendNext; dsimp only; (repeat' split) <;> simp
@[simp] theorem slBlocks_hide [May m .links] (a0) (a1) (s : State) : hide m (slBlocks a0 a1 s) = hide m s := by simp [slBlocks]
@[simp] theorem slBytes_hide [May m .links] [May m .free] (a0) (a1) (s : State) : hide m (slBytes a0 a1 s).2 = hide m s := by simp [slBytes]
@[simp] theorem slSend_hide [May m .links] [May m .free] (a0) (a1) (s : State) : hide m (slSend a0 a1 s) = hide m s := by simp [slSend]
@[simp] theorem sendSide_hide [May m .events] [May m .links] [May m .free] (a0) (s : State) : hide m (sendSide a0 s) = hide m s := by
  unfold sendSide; dsimp only; (repeat' split) <;> simp
@[simp] theorem slDown_hide [May m .events] [May m .frontEnd] [May m .hitPath] [May m .trigger] [May m .buffer] [May m .compression] [May m .links] (a0) (a1) (s : State) : hide m (slDown a0 a1 s) = hide m s := by simp [slDown]
@[simp] theorem startSides_hide [May m .events] [May m .frontEnd] [May m .hitPath] [May m .trigger] [May m .buffer] [May m .compression] [May m .links] (s : State) : hide m (startSides s) = hide m s := by simp [startSides]
@[simp] theorem lkPowerUp_hide [May m .mail] [May m .events] [May m .frontEnd] [May m .hitPath] [May m .trigger] [May m .buffer] [May m .compression] [May m .links] [May m .power] [May m .free] (s : State) : hide m (lkPowerUp s) = hide m s := by simp [lkPowerUp]
@[simp] theorem lkPowerDown_hide [May m .mail] [May m .events] [May m .frontEnd] [May m .hitPath] [May m .trigger] [May m .buffer] [May m .compression] [May m .links] [May m .power] [May m .free] (s : State) : hide m (lkPowerDown s) = hide m s := by simp [lkPowerDown]

/-! Links -/

@[simp] theorem execLaneSignalDetect_hide [May m .events] [May m .links] [May m .time] [May m .clock] (a0) (s : State) : hideO m (execLaneSignalDetect a0 s) = some (hide m s) := by simp [execLaneSignalDetect]
@[simp] theorem execLaneBlockLock_hide [May m .events] [May m .buffer] [May m .links] (a0) (s : State) : hideO m (execLaneBlockLock a0 s) = some (hide m s) := by
  unfold execLaneBlockLock
  try dsimp only
  repeat' (first | (simp; done) | intro _ | split | with_reducible apply evChange_hide | with_reducible apply event_hide | with_reducible apply Eq.trans (hide_forAll _ _ _ _) | with_reducible apply Eq.trans (hide_when _ _ _ _) | with_reducible apply need_hide | with_reducible apply needState_hide | with_reducible apply needClaim_hide | with_reducible apply call_hide | with_reducible apply callSel_hide | with_reducible assumption)
  done
@[simp] theorem execLaneLockLost_hide [May m .events] [May m .frontEnd] [May m .hitPath] [May m .trigger] [May m .buffer] [May m .compression] [May m .links] [May m .time] [May m .free] (a0) (s : State) : hideO m (execLaneLockLost a0 s) = some (hide m s) := by simp [execLaneLockLost]
@[simp] theorem execNegAdvRx_hide [May m .links] (a0) (a1) (s : State) : hideO m (execNegAdvRx a0 a1 s) = some (hide m s) := by simp [execNegAdvRx]
@[simp] theorem execNegFecRx_hide [May m .links] (a0) (a1) (s : State) : hideO m (execNegFecRx a0 a1 s) = some (hide m s) := by
  unfold execNegFecRx
  try dsimp only
  repeat' (first | (simp; done) | intro _ | split | with_reducible apply evChange_hide | with_reducible apply event_hide | with_reducible apply Eq.trans (hide_forAll _ _ _ _) | with_reducible apply Eq.trans (hide_when _ _ _ _) | with_reducible apply need_hide | with_reducible apply needState_hide | with_reducible apply needClaim_hide | with_reducible apply call_hide | with_reducible apply callSel_hide | with_reducible assumption)
  done
@[simp] theorem execNegGroupRx_hide [May m .links] (a0) (a1) (s : State) : hideO m (execNegGroupRx a0 a1 s) = some (hide m s) := by simp [execNegGroupRx]
@[simp] theorem execNegMapRx_hide [May m .events] [May m .links] (a0) (a1) (s : State) : hideO m (execNegMapRx a0 a1 s) = some (hide m s) := by simp [execNegMapRx]
@[simp] theorem execNegReadyRx_hide [May m .events] [May m .buffer] [May m .links] (a0) (s : State) : hideO m (execNegReadyRx a0 s) = some (hide m s) := by simp [execNegReadyRx]
@[simp] theorem execNegRateReqRx_hide [May m .events] [May m .buffer] [May m .links] [May m .time] [May m .free] (a0) (a1) (s : State) : hideO m (execNegRateReqRx a0 a1 s) = some (hide m s) := by simp [execNegRateReqRx]
@[simp] theorem execNegRateAckRx_hide [May m .mail] [May m .events] [May m .buffer] [May m .links] [May m .time] [May m .power] [May m .free] (a0) (a1) (s : State) : hideO m (execNegRateAckRx a0 a1 s) = some (hide m s) := by
  unfold execNegRateAckRx
  try dsimp only
  repeat' (first | (simp; done) | intro _ | split | with_reducible apply evChange_hide | with_reducible apply event_hide | with_reducible apply Eq.trans (hide_forAll _ _ _ _) | with_reducible apply Eq.trans (hide_when _ _ _ _) | with_reducible apply need_hide | with_reducible apply needState_hide | with_reducible apply needClaim_hide | with_reducible apply call_hide | with_reducible apply callSel_hide | with_reducible assumption)
  done
@[simp] theorem execAlignMarkerRx_hide [May m .events] [May m .buffer] [May m .links] (a0) (a1) (a2) (s : State) : hideO m (execAlignMarkerRx a0 a1 a2 s) = some (hide m s) := by
  unfold execAlignMarkerRx
  try dsimp only
  repeat' (first | (simp; done) | intro _ | split | with_reducible apply evChange_hide | with_reducible apply event_hide | with_reducible apply Eq.trans (hide_forAll _ _ _ _) | with_reducible apply Eq.trans (hide_when _ _ _ _) | with_reducible apply need_hide | with_reducible apply needState_hide | with_reducible apply needClaim_hide | with_reducible apply call_hide | with_reducible apply callSel_hide | with_reducible assumption)
  done
@[simp] theorem execAlignMarkerSend_hide [May m .events] [May m .links] [May m .time] [May m .clock] (a0) (s : State) : hideO m (execAlignMarkerSend a0 s) = some (hide m s) := by simp [execAlignMarkerSend]
@[simp] theorem execMarkerMissed_hide [May m .events] [May m .buffer] [May m .links] [May m .free] (a0) (s : State) : hideO m (execMarkerMissed a0 s) = some (hide m s) := by simp [execMarkerMissed]
@[simp] theorem execFecCodewordUncorrectable_hide [May m .events] [May m .buffer] [May m .links] [May m .free] (a0) (s : State) : hideO m (execFecCodewordUncorrectable a0 s) = some (hide m s) := by simp [execFecCodewordUncorrectable]
@[simp] theorem execLaneRateDwellTimeout_hide [May m .events] [May m .links] [May m .time] [May m .clock] (a0) (s : State) : hideO m (execLaneRateDwellTimeout a0 s) = some (hide m s) := by simp [execLaneRateDwellTimeout]
@[simp] theorem execLaneTxOffEnd_hide [May m .events] [May m .links] [May m .time] [May m .clock] (a0) (s : State) : hideO m (execLaneTxOffEnd a0 s) = some (hide m s) := by simp [execLaneTxOffEnd]
@[simp] theorem execLaneFecTimeout_hide [May m .events] [May m .links] [May m .time] [May m .clock] (a0) (s : State) : hideO m (execLaneFecTimeout a0 s) = some (hide m s) := by simp [execLaneFecTimeout]
@[simp] theorem execGroupTimeout_hide [May m .events] [May m .links] [May m .time] [May m .clock] (a0) (s : State) : hideO m (execGroupTimeout a0 s) = some (hide m s) := by simp [execGroupTimeout]
@[simp] theorem regroup_hide [May m .links] (a0) (s : State) : hide m (regroup a0 s) = hide m s := by simp [regroup]
@[simp] theorem execAlignTimeout_hide [May m .events] [May m .links] [May m .time] [May m .clock] (a0) (s : State) : hideO m (execAlignTimeout a0 s) = some (hide m s) := by simp [execAlignTimeout]
@[simp] theorem execMapTimeout_hide [May m .events] [May m .buffer] [May m .links] [May m .time] [May m .clock] (a0) (s : State) : hideO m (execMapTimeout a0 s) = some (hide m s) := by simp [execMapTimeout]
@[simp] theorem execRateReqTimeout_hide [May m .mail] [May m .events] [May m .links] [May m .time] [May m .power] [May m .clock] (a0) (s : State) : hideO m (execRateReqTimeout a0 s) = some (hide m s) := by simp [execRateReqTimeout]
@[simp] theorem execRegroupTimeout_hide [May m .events] [May m .links] [May m .time] [May m .clock] (a0) (s : State) : hideO m (execRegroupTimeout a0 s) = some (hide m s) := by simp [execRegroupTimeout]
@[simp] theorem execPacketSend_hide [May m .events] [May m .frontEnd] [May m .hitPath] [May m .buffer] [May m .compression] [May m .links] [May m .time] [May m .free] (a0) (a1) (a2) (s : State) : hideO m (execPacketSend a0 a1 a2 s) = some (hide m s) := by simp [execPacketSend]
@[simp] theorem execRxPacketBad_hide [May m .events] [May m .links] (a0) (s : State) : hideO m (execRxPacketBad a0 s) = some (hide m s) := by simp [execRxPacketBad]
@[simp] theorem execRxReservedStream_hide [May m .links] (a0) (a1) (s : State) : hideO m (execRxReservedStream a0 a1 s) = some (hide m s) := by simp [execRxReservedStream]
@[simp] theorem execNakRx_hide [May m .events] [May m .links] (g p) (s : State) : hideO m (execNakRx g p s) = some (hide m s) := by
  unfold execNakRx; apply event_hide; intro s; dsimp only; split
  · simp
  · rw [reportGone_hide, hide_forAll]
    · simp
    · intro x s; split <;> simp
@[simp] theorem execNakGroupWaitExpiry_hide [May m .events] [May m .links] [May m .time] [May m .clock] (a0) (s : State) : hideO m (execNakGroupWaitExpiry a0 s) = some (hide m s) := by
  unfold execNakGroupWaitExpiry; (repeat' split) <;> simp
@[simp] theorem execTailSend_hide [May m .events] [May m .links] [May m .time] [May m .clock] (a0) (s : State) : hideO m (execTailSend a0 s) = some (hide m s) := by simp [execTailSend]
@[simp] theorem execArpRequestRx_hide [May m .links] (a0) (a1) (a2) (a3) (s : State) : hideO m (execArpRequestRx a0 a1 a2 a3 s) = some (hide m s) := by simp [execArpRequestRx]
@[simp] theorem execArpReplyRx_hide [May m .events] [May m .buffer] [May m .links] (a0) (a1) (a2) (s : State) : hideO m (execArpReplyRx a0 a1 a2 s) = some (hide m s) := by simp [execArpReplyRx]
@[simp] theorem execArpRetry_hide [May m .events] [May m .links] [May m .time] [May m .clock] (a0) (s : State) : hideO m (execArpRetry a0 s) = some (hide m s) := by simp [execArpRetry]
@[simp] theorem execArpFailTimeout_hide [May m .events] [May m .time] [May m .clock] (a0) (s : State) : hideO m (execArpFailTimeout a0 s) = some (hide m s) := by simp [execArpFailTimeout]
@[simp] theorem execPauseRx_hide [May m .events] [May m .links] (a0) (a1) (s : State) : hideO m (execPauseRx a0 a1 s) = some (hide m s) := by simp [execPauseRx]
@[simp] theorem execPauseExpiry_hide [May m .events] [May m .links] [May m .time] [May m .clock] (a0) (s : State) : hideO m (execPauseExpiry a0 s) = some (hide m s) := by simp [execPauseExpiry]
@[simp] theorem execEthFrameDiscard_hide [May m .links] (a0) (s : State) : hideO m (execEthFrameDiscard a0 s) = some (hide m s) := by simp [execEthFrameDiscard]
@[simp] theorem slUp_hide [May m .events] [May m .frontEnd] [May m .hitPath] [May m .buffer] [May m .compression] [May m .links] (a0) (a1) (s : State) : hide m (slUp a0 a1 s) = hide m s := by simp [slUp]
@[simp] theorem slRefuse_hide [May m .events] [May m .frontEnd] [May m .hitPath] [May m .trigger] [May m .buffer] [May m .compression] [May m .links] (a0) (s : State) : hide m (slRefuse a0 s) = hide m s := by simp [slRefuse]
@[simp] theorem execSlHelloRx_hide [May m .events] [May m .frontEnd] [May m .hitPath] [May m .trigger] [May m .buffer] [May m .compression] [May m .links] (a0) (a1) (s : State) : hideO m (execSlHelloRx a0 a1 s) = some (hide m s) := by simp [execSlHelloRx]
@[simp] theorem execSlHelloSend_hide [May m .events] [May m .links] [May m .time] [May m .clock] (a0) (s : State) : hideO m (execSlHelloSend a0 s) = some (hide m s) := by simp [execSlHelloSend]
@[simp] theorem execSlHelloTimeout_hide [May m .events] [May m .frontEnd] [May m .hitPath] [May m .trigger] [May m .buffer] [May m .compression] [May m .links] [May m .time] [May m .clock] (a0) (s : State) : hideO m (execSlHelloTimeout a0 s) = some (hide m s) := by simp [execSlHelloTimeout]
@[simp] theorem execLkStatus_hide [May m .mail] [May m .events] (a0) (s : State) : hideO m (execLkStatus a0 s) = some (hide m s) := by simp [execLkStatus]
@[simp] theorem fecCatchUp_hide [May m .links] [May m .free] (a0) (s : State) : hide m (fecCatchUp a0 s) = hide m s := by simp [fecCatchUp]
@[simp] theorem execLkLaneStatus_hide [May m .mail] [May m .events] [May m .links] [May m .free] (a0) (s : State) : hideO m (execLkLaneStatus a0 s) = some (hide m s) := by
  unfold execLkLaneStatus; apply call_hide; intro p s; apply need_hide; intro s; simp
@[simp] theorem execLkConfig_hide [May m .mail] [May m .settings] [May m .events] [May m .buffer] [May m .links] [May m .power] [May m .free] (a0) (s : State) : hideO m (execLkConfig a0 s) = some (hide m s) := by simp [execLkConfig]
@[simp] theorem execLkRenegotiate_hide [May m .mail] [May m .events] [May m .buffer] [May m .links] [May m .power] [May m .free] (a0) (s : State) : hideO m (execLkRenegotiate a0 s) = some (hide m s) := by
  unfold execLkRenegotiate; apply call_hide; intro p s; apply need_hide; intro s; simp
@[simp] theorem execLkRateSet_hide [May m .mail] [May m .events] [May m .links] (a0) (s : State) : hideO m (execLkRateSet a0 s) = some (hide m s) := by
  unfold execLkRateSet; apply call_hide; intro p s; apply need_hide; intro s; simp
@[simp] theorem execLkClassConfig_hide [May m .mail] [May m .settings] [May m .events] (a0) (s : State) : hideO m (execLkClassConfig a0 s) = some (hide m s) := by simp [execLkClassConfig]
@[simp] theorem execLkTc2WeightSet_hide [May m .mail] [May m .settings] [May m .events] (a0) (s : State) : hideO m (execLkTc2WeightSet a0 s) = some (hide m s) := by simp [execLkTc2WeightSet]
@[simp] theorem execLkPacketCloseSet_hide [May m .mail] [May m .settings] [May m .events] (a0) (s : State) : hideO m (execLkPacketCloseSet a0 s) = some (hide m s) := by simp [execLkPacketCloseSet]
@[simp] theorem execLkRepechageClear_hide [May m .mail] [May m .events] [May m .links] (a0) (s : State) : hideO m (execLkRepechageClear a0 s) = some (hide m s) := by
  unfold execLkRepechageClear; apply call_hide; intro p s; apply need_hide; intro s; simp
@[simp] theorem execLkPrbsConfig_hide [May m .mail] [May m .events] [May m .buffer] [May m .links] [May m .free] (a0) (s : State) : hideO m (execLkPrbsConfig a0 s) = some (hide m s) := by
  unfold execLkPrbsConfig; apply call_hide; intro p s; apply need_hide; intro s; simp
@[simp] theorem prbsInject_hide [May m .mail] [May m .events] [May m .links] (mb sel l f) (s : State) : hideO m (prbsInject mb sel l f s) = some (hide m s) := by
  unfold prbsInject; apply callSel_hide; intro p s; simp
@[simp] theorem execLkPrbsInjectSingle_hide [May m .mail] [May m .events] [May m .links] (a0) (s : State) : hideO m (execLkPrbsInjectSingle a0 s) = some (hide m s) := by simp [execLkPrbsInjectSingle]
@[simp] theorem execLkPrbsInjectBurst_hide [May m .mail] [May m .events] [May m .links] (a0) (s : State) : hideO m (execLkPrbsInjectBurst a0 s) = some (hide m s) := by simp [execLkPrbsInjectBurst]
@[simp] theorem execLkPrbsInjectRate_hide [May m .mail] [May m .events] [May m .links] (a0) (s : State) : hideO m (execLkPrbsInjectRate a0 s) = some (hide m s) := by simp [execLkPrbsInjectRate]
@[simp] theorem execLkPrbsInjectStop_hide [May m .mail] [May m .events] [May m .links] (a0) (s : State) : hideO m (execLkPrbsInjectStop a0 s) = some (hide m s) := by simp [execLkPrbsInjectStop]
@[simp] theorem prbsCatchUp_hide [May m .links] [May m .free] (a0) (s : State) : hide m (prbsCatchUp a0 s) = hide m s := by simp [prbsCatchUp]
@[simp] theorem execLkPrbsRead_hide [May m .mail] [May m .events] [May m .links] [May m .free] (a0) (s : State) : hideO m (execLkPrbsRead a0 s) = some (hide m s) := by
  unfold execLkPrbsRead; apply call_hide; intro p s; apply need_hide; intro s; simp
@[simp] theorem execPrbsCheckerLock_hide [May m .links] (a0) (a1) (s : State) : hideO m (execPrbsCheckerLock a0 a1 s) = some (hide m s) := by simp [execPrbsCheckerLock]
@[simp] theorem execPrbsLockLost_hide [May m .events] [May m .links] (a0) (a1) (a2) (s : State) : hideO m (execPrbsLockLost a0 a1 a2 s) = some (hide m s) := by simp [execPrbsLockLost]
@[simp] theorem execLkEthConfig_hide [May m .mail] [May m .settings] [May m .events] [May m .buffer] [May m .links] [May m .free] (a0) (s : State) : hideO m (execLkEthConfig a0 s) = some (hide m s) := by simp [execLkEthConfig]
@[simp] theorem execLkEthStatus_hide [May m .mail] [May m .events] (a0) (s : State) : hideO m (execLkEthStatus a0 s) = some (hide m s) := by simp [execLkEthStatus]
@[simp] theorem execLkSlStatus_hide [May m .mail] [May m .events] (a0) (s : State) : hideO m (execLkSlStatus a0 s) = some (hide m s) := by simp [execLkSlStatus]
@[simp] theorem execLkSlConfig_hide [May m .mail] [May m .settings] [May m .events] [May m .frontEnd] [May m .hitPath] [May m .trigger] [May m .buffer] [May m .compression] [May m .links] (a0) (s : State) : hideO m (execLkSlConfig a0 s) = some (hide m s) := by simp [execLkSlConfig]
@[simp] theorem execLkStats_hide [May m .mail] [May m .events] [May m .links] (a0) (s : State) : hideO m (execLkStats a0 s) = some (hide m s) := by
  unfold execLkStats; apply call_hide; intro p s; apply need_hide; intro s; simp
@[simp] theorem execLkTc0Load_hide [May m .mail] [May m .events] (a0) (s : State) : hideO m (execLkTc0Load a0 s) = some (hide m s) := by simp [execLkTc0Load]

/-! FrontEnd -/

@[simp] theorem execDiscriminatorRise_hide [May m .events] [May m .frontEnd] [May m .timing] [May m .time] [May m .clock] (a0) (a1) (a2) (s : State) : hideO m (execDiscriminatorRise a0 a1 a2 s) = some (hide m s) := by simp [execDiscriminatorRise]
@[simp] theorem execRingCountSaturated_hide [May m .events] [May m .frontEnd] [May m .timing] [May m .time] [May m .clock] (a0) (s : State) : hideO m (execRingCountSaturated a0 s) = some (hide m s) := by
  unfold execRingCountSaturated; (repeat' split) <;> simp
@[simp] theorem execRangeSwitch_hide [May m .events] [May m .frontEnd] [May m .time] [May m .clock] (a0) (a1) (s : State) : hideO m (execRangeSwitch a0 a1 s) = some (hide m s) := by
  unfold execRangeSwitch; (repeat' split) <;> simp
@[simp] theorem execRangeBlankEnd_hide [May m .events] [May m .frontEnd] [May m .time] [May m .clock] (a0) (s : State) : hideO m (execRangeBlankEnd a0 s) = some (hide m s) := by
  unfold execRangeBlankEnd; (repeat' split) <;> simp
@[simp] theorem execDiscriminatorFall_hide [May m .events] [May m .frontEnd] [May m .time] [May m .clock] (a0) (a1) (s : State) : hideO m (execDiscriminatorFall a0 a1 s) = some (hide m s) := by
  unfold execDiscriminatorFall; (repeat' split) <;> simp
@[simp] theorem execTotSaturated_hide [May m .events] [May m .frontEnd] [May m .time] [May m .clock] (a0) (s : State) : hideO m (execTotSaturated a0 s) = some (hide m s) := by
  unfold execTotSaturated; (repeat' split) <;> simp
@[simp] theorem execPixelDeadTimeEnd_hide [May m .events] [May m .frontEnd] [May m .time] [May m .clock] (a0) (s : State) : hideO m (execPixelDeadTimeEnd a0 s) = some (hide m s) := by
  unfold execPixelDeadTimeEnd; (repeat' split) <;> simp
@[simp] theorem execBlockClockReady_hide [May m .events] [May m .frontEnd] [May m .time] [May m .clock] (a0) (s : State) : hideO m (execBlockClockReady a0 s) = some (hide m s) := by
  unfold execBlockClockReady; (repeat' split) <;> simp
@[simp] theorem execBlockClockIdleGate_hide [May m .events] [May m .frontEnd] [May m .time] [May m .clock] (a0) (s : State) : hideO m (execBlockClockIdleGate a0 s) = some (hide m s) := by simp [execBlockClockIdleGate]
@[simp] theorem execBridgeSaturated_hide [May m .events] [May m .frontEnd] [May m .time] [May m .clock] (a0) (s : State) : hideO m (execBridgeSaturated a0 s) = some (hide m s) := by
  unfold execBridgeSaturated; (repeat' split) <;> simp
@[simp] theorem execPortRecordAgeOut_hide [May m .events] [May m .frontEnd] [May m .time] [May m .clock] (a0) (s : State) : hideO m (execPortRecordAgeOut a0 s) = some (hide m s) := by
  unfold execPortRecordAgeOut; (repeat' split) <;> simp
@[simp] theorem execPortLossSend_hide [May m .frontEnd] (a0) (a1) (s : State) : hideO m (execPortLossSend a0 a1 s) = some (hide m s) := by
  unfold execPortLossSend; (repeat' split) <;> simp
@[simp] theorem execWatermarkSend_hide [May m .frontEnd] (a0) (s : State) : hideO m (execWatermarkSend a0 s) = some (hide m s) := by simp [execWatermarkSend]
@[simp] theorem execFrameBoundary_hide [May m .events] [May m .frontEnd] [May m .time] [May m .clock] (s : State) : hideO m (execFrameBoundary s) = some (hide m s) := by simp [execFrameBoundary]
@[simp] theorem writeUnit_hide [May m .events] [May m .frontEnd] [May m .hitPath] [May m .buffer] [May m .compression] (a0) (a1) (a2) (a3) (a4) (s : State) : hide m (writeUnit a0 a1 a2 a3 a4 s) = hide m s := by simp [writeUnit]
@[simp] theorem execFrameUnitAssemble_hide [May m .events] [May m .frontEnd] [May m .hitPath] [May m .buffer] [May m .compression] [May m .time] [May m .clock] [May m .free] (a0) (a1) (s : State) : hideO m (execFrameUnitAssemble a0 a1 s) = some (hide m s) := by
  unfold execFrameUnitAssemble; (repeat' split) <;> simp
@[simp] theorem execFeModeEffect_hide [May m .events] [May m .frontEnd] [May m .time] [May m .clock] (s : State) : hideO m (execFeModeEffect s) = some (hide m s) := by
  unfold execFeModeEffect; (repeat' split) <;> simp
@[simp] theorem execCrabWindowEnd_hide [May m .events] [May m .frontEnd] [May m .time] [May m .clock] (s : State) : hideO m (execCrabWindowEnd s) = some (hide m s) := by simp [execCrabWindowEnd]
@[simp] theorem execCrabRetest_hide [May m .events] [May m .frontEnd] [May m .time] [May m .clock] (a0) (s : State) : hideO m (execCrabRetest a0 s) = some (hide m s) := by
  unfold execCrabRetest; (repeat' split) <;> simp
@[simp] theorem execLeakUpdate_hide [May m .events] [May m .frontEnd] (a0) (s : State) : hideO m (execLeakUpdate a0 s) = some (hide m s) := by simp [execLeakUpdate]
@[simp] theorem execFeScrub_hide [May m .events] [May m .frontEnd] [May m .free] (a0) (s : State) : hideO m (execFeScrub a0 s) = some (hide m s) := by simp [execFeScrub]
@[simp] theorem droopSamples_hide [May m .events] [May m .frontEnd] [May m .timing] (a0) (s : State) : hide m (droopSamples a0 s) = hide m s := by simp [droopSamples]
@[simp] theorem execFeTmrVote_hide [May m .events] [May m .frontEnd] [May m .timing] [May m .time] [May m .clock] (a0) (a1) (s : State) : hideO m (execFeTmrVote a0 a1 s) = some (hide m s) := by
  unfold execFeTmrVote
  try dsimp only
  repeat' (first | (simp; done) | intro _ | split | with_reducible apply evChange_hide | with_reducible apply event_hide | with_reducible apply Eq.trans (hide_forAll _ _ _ _) | with_reducible apply Eq.trans (hide_when _ _ _ _) | with_reducible apply need_hide | with_reducible apply needState_hide | with_reducible apply needClaim_hide | with_reducible assumption)
  done
@[simp] theorem execTpStep_hide [May m .events] [May m .frontEnd] [May m .time] [May m .clock] (s : State) : hideO m (execTpStep s) = some (hide m s) := by
  unfold execTpStep; (repeat' split) <;> simp
@[simp] theorem execFeModeSet_hide [May m .mail] [May m .events] [May m .frontEnd] (mb) (s : State) : hideO m (execFeModeSet mb s) = some (hide m s) := by
  unfold execFeModeSet; apply call_hide; intro p s; dsimp only; apply need_hide; intro s
  (repeat' split) <;> simp
@[simp] theorem execFeModeGet_hide [May m .mail] [May m .events] (a0) (s : State) : hideO m (execFeModeGet a0 s) = some (hide m s) := by simp [execFeModeGet]
@[simp] theorem execFeDacSet_hide [May m .mail] [May m .events] [May m .frontEnd] (a0) (s : State) : hideO m (execFeDacSet a0 s) = some (hide m s) := by
  unfold execFeDacSet; apply call_hide; intro p s; apply need_hide; intro s; simp
@[simp] theorem execFeDacGet_hide [May m .mail] [May m .events] (a0) (s : State) : hideO m (execFeDacGet a0 s) = some (hide m s) := by simp [execFeDacGet]
@[simp] theorem execFePixelWrite_hide [May m .mail] [May m .events] [May m .frontEnd] (a0) (s : State) : hideO m (execFePixelWrite a0 s) = some (hide m s) := by simp [execFePixelWrite]
@[simp] theorem execFePixelRead_hide [May m .mail] [May m .events] (a0) (s : State) : hideO m (execFePixelRead a0 s) = some (hide m s) := by simp [execFePixelRead]
@[simp] theorem execFeTrimRun_hide [May m .mail] [May m .jobs] [May m .events] [May m .frontEnd] (a0) (s : State) : hideO m (execFeTrimRun a0 s) = some (hide m s) := by simp [execFeTrimRun]
@[simp] theorem execFeScurve_hide [May m .mail] [May m .jobs] [May m .events] [May m .frontEnd] (a0) (s : State) : hideO m (execFeScurve a0 s) = some (hide m s) := by simp [execFeScurve]
@[simp] theorem execFeScanResult_hide [May m .mail] [May m .events] (a0) (s : State) : hideO m (execFeScanResult a0 s) = some (hide m s) := by simp [execFeScanResult]
@[simp] theorem execFeBumpTest_hide [May m .mail] [May m .jobs] [May m .events] [May m .frontEnd] (a0) (s : State) : hideO m (execFeBumpTest a0 s) = some (hide m s) := by simp [execFeBumpTest]
@[simp] theorem execFeBumpResult_hide [May m .mail] [May m .events] (a0) (s : State) : hideO m (execFeBumpResult a0 s) = some (hide m s) := by simp [execFeBumpResult]
@[simp] theorem execFeTpInject_hide [May m .mail] [May m .events] [May m .frontEnd] [May m .hitPath] (a0) (s : State) : hideO m (execFeTpInject a0 s) = some (hide m s) := by
  unfold execFeTpInject; apply call_hide; intro p s; apply need_hide; intro s; simp
@[simp] theorem execFeCrabConfig_hide [May m .mail] [May m .settings] [May m .events] (a0) (s : State) : hideO m (execFeCrabConfig a0 s) = some (hide m s) := by simp [execFeCrabConfig]
@[simp] theorem execFeCrabList_hide [May m .mail] [May m .events] (a0) (s : State) : hideO m (execFeCrabList a0 s) = some (hide m s) := by simp [execFeCrabList]
@[simp] theorem execFeLeakConfig_hide [May m .mail] [May m .settings] [May m .events] (a0) (s : State) : hideO m (execFeLeakConfig a0 s) = some (hide m s) := by simp [execFeLeakConfig]
@[simp] theorem execFeFrameConfig_hide [May m .mail] [May m .events] [May m .frontEnd] (a0) (s : State) : hideO m (execFeFrameConfig a0 s) = some (hide m s) := by simp [execFeFrameConfig]
@[simp] theorem execFeChargeCal_hide [May m .mail] [May m .jobs] [May m .events] [May m .frontEnd] (a0) (s : State) : hideO m (execFeChargeCal a0 s) = some (hide m s) := by simp [execFeChargeCal]
@[simp] theorem execFeChargeRead_hide [May m .mail] [May m .events] (a0) (s : State) : hideO m (execFeChargeRead a0 s) = some (hide m s) := by simp [execFeChargeRead]
@[simp] theorem execFeChargeWrite_hide [May m .mail] [May m .events] [May m .frontEnd] (a0) (s : State) : hideO m (execFeChargeWrite a0 s) = some (hide m s) := by simp [execFeChargeWrite]
@[simp] theorem execFeScrubStatus_hide [May m .mail] [May m .events] (a0) (s : State) : hideO m (execFeScrubStatus a0 s) = some (hide m s) := by simp [execFeScrubStatus]
@[simp] theorem execFeStatus_hide [May m .mail] [May m .events] (a0) (s : State) : hideO m (execFeStatus a0 s) = some (hide m s) := by simp [execFeStatus]

/-! Timing -/

@[simp] theorem execBlockCounterCheck_hide [May m .events] [May m .frontEnd] (a0) (a1) (s : State) : hideO m (execBlockCounterCheck a0 a1 s) = some (hide m s) := by simp [execBlockCounterCheck]
@[simp] theorem execInlUpdate_hide [May m .events] [May m .timing] (a0) (s : State) : hideO m (execInlUpdate a0 s) = some (hide m s) := by simp [execInlUpdate]
@[simp] theorem tempUpdate_hide [May m .events] [May m .timing] (a0) (s : State) : hide m (tempUpdate a0 s) = hide m s := by simp [tempUpdate]
@[simp] theorem execTmTempUpdate_hide [May m .events] [May m .timing] (s : State) : hideO m (execTmTempUpdate s) = some (hide m s) := by simp [execTmTempUpdate]
@[simp] theorem runCounts_hide [May m .events] [May m .timing] (a0) (a1) (a2) (a3) (s : State) : hide m (runCounts a0 a1 a2 a3 s) = hide m s := by simp [runCounts]
@[simp] theorem latchRun_hide [May m .jobs] [May m .events] [May m .timing] [May m .time] [May m .clock] (a0) (a1) (s : State) : hide m (latchRun a0 a1 s) = hide m s := by simp [latchRun]
@[simp] theorem execCalRunLatch_hide [May m .jobs] [May m .events] [May m .timing] [May m .time] [May m .clock] (a0) (a1) (s : State) : hideO m (execCalRunLatch a0 a1 s) = some (hide m s) := by
  unfold execCalRunLatch
  try dsimp only
  repeat' (first | (simp; done) | intro _ | split | with_reducible apply evChange_hide | with_reducible apply event_hide | with_reducible apply Eq.trans (hide_forAll _ _ _ _) | with_reducible apply Eq.trans (hide_when _ _ _ _) | with_reducible apply need_hide | with_reducible apply needState_hide | with_reducible apply needClaim_hide | with_reducible assumption)
  done
@[simp] theorem execCalBandAgeExpiry_hide [May m .events] [May m .timing] [May m .time] [May m .clock] (a0) (a1) (s : State) : hideO m (execCalBandAgeExpiry a0 a1 s) = some (hide m s) := by simp [execCalBandAgeExpiry]
@[simp] theorem execTmStatus_hide [May m .mail] [May m .events] (a0) (s : State) : hideO m (execTmStatus a0 s) = some (hide m s) := by simp [execTmStatus]
@[simp] theorem execTmCalStatus_hide [May m .mail] [May m .events] (a0) (s : State) : hideO m (execTmCalStatus a0 s) = some (hide m s) := by simp [execTmCalStatus]
@[simp] theorem calRunBegin_hide [May m .jobs] [May m .events] [May m .timing] [May m .power] (a0) (a1) (s : State) : hide m (calRunBegin a0 a1 s) = hide m s := by simp [calRunBegin]
@[simp] theorem execTmCalRun_hide [May m .mail] [May m .jobs] [May m .events] [May m .timing] [May m .power] (a0) (s : State) : hideO m (execTmCalRun a0 s) = some (hide m s) := by
  unfold execTmCalRun; apply call_hide; intro p s; apply need_hide; intro s; simp
@[simp] theorem execTmBandConfig_hide [May m .mail] [May m .settings] [May m .events] [May m .frontEnd] [May m .timing] (a0) (s : State) : hideO m (execTmBandConfig a0 s) = some (hide m s) := by simp [execTmBandConfig]
@[simp] theorem execTmPeriodRead_hide [May m .mail] [May m .events] (a0) (s : State) : hideO m (execTmPeriodRead a0 s) = some (hide m s) := by simp [execTmPeriodRead]
@[simp] theorem periodsWritten_hide [May m .jobs] [May m .events] [May m .timing] (a0) (a1) (s : State) : hide m (periodsWritten a0 a1 s) = hide m s := by simp [periodsWritten]
@[simp] theorem execTmPeriodWrite_hide [May m .mail] [May m .jobs] [May m .events] [May m .timing] (a0) (s : State) : hideO m (execTmPeriodWrite a0 s) = some (hide m s) := by
  unfold execTmPeriodWrite; apply call_hide; intro p s; apply need_hide; intro s; simp
@[simp] theorem execTmSkewRead_hide [May m .mail] [May m .events] (a0) (s : State) : hideO m (execTmSkewRead a0 s) = some (hide m s) := by simp [execTmSkewRead]
@[simp] theorem execTmSkewWrite_hide [May m .mail] [May m .events] [May m .timing] (a0) (s : State) : hideO m (execTmSkewWrite a0 s) = some (hide m s) := by simp [execTmSkewWrite]
@[simp] theorem execTmWalkRead_hide [May m .mail] [May m .events] (a0) (s : State) : hideO m (execTmWalkRead a0 s) = some (hide m s) := by simp [execTmWalkRead]
@[simp] theorem execTmWalkWrite_hide [May m .mail] [May m .events] [May m .timing] (a0) (s : State) : hideO m (execTmWalkWrite a0 s) = some (hide m s) := by simp [execTmWalkWrite]
@[simp] theorem execTmWalkCal_hide [May m .mail] [May m .jobs] [May m .events] (mb) (s : State) : hideO m (execTmWalkCal mb s) = some (hide m s) := by
  unfold execTmWalkCal; apply call_hide; intro p s; apply blockJob_hide; intro n s; rfl
@[simp] theorem skewBegin_hide [May m .timing] (a0) (a1) (s : State) : hide m (skewBegin a0 a1 s) = hide m s := by simp [skewBegin]
@[simp] theorem execTmSkewCal_hide [May m .mail] [May m .jobs] [May m .events] [May m .timing] (a0) (s : State) : hideO m (execTmSkewCal a0 s) = some (hide m s) := by
  unfold execTmSkewCal; apply call_hide; intro p s; apply need_hide; intro s; simp
@[simp] theorem execTmInlRead_hide [May m .mail] [May m .events] (a0) (s : State) : hideO m (execTmInlRead a0 s) = some (hide m s) := by simp [execTmInlRead]
@[simp] theorem execTmTempConfig_hide [May m .mail] [May m .settings] [May m .events] (a0) (s : State) : hideO m (execTmTempConfig a0 s) = some (hide m s) := by simp [execTmTempConfig]
@[simp] theorem execTmDroopRead_hide [May m .mail] [May m .events] (a0) (s : State) : hideO m (execTmDroopRead a0 s) = some (hide m s) := by simp [execTmDroopRead]
@[simp] theorem execTmStats_hide [May m .mail] [May m .events] [May m .timing] (a0) (s : State) : hideO m (execTmStats a0 s) = some (hide m s) := by simp [execTmStats]

/-! WeOps -/

@[simp] theorem weStat_hide [May m .events] [May m .waveform] (a0) (a1) (a2) (s : State) : hide m (weStat a0 a1 a2 s) = hide m s := by simp [weStat]
@[simp] theorem passWords_hide [May m .waveform] (a0) (s : State) : hide m (passWords a0 s) = hide m s := by
  unfold passWords; (repeat' split) <;> simp
@[simp] theorem flushRecords_hide [May m .events] [May m .frontEnd] [May m .hitPath] [May m .waveform] [May m .buffer] [May m .compression] (a0) (s : State) : hide m (flushRecords a0 s) = hide m s := by simp [flushRecords]
@[simp] theorem closeRecord_hide [May m .events] [May m .frontEnd] [May m .hitPath] [May m .waveform] [May m .buffer] [May m .compression] (a0) (a1) (a2) (s : State) : hide m (closeRecord a0 a1 a2 s) = hide m s := by simp [closeRecord]
@[simp] theorem abandonRecord_hide [May m .events] [May m .frontEnd] [May m .hitPath] [May m .waveform] [May m .buffer] [May m .compression] [May m .free] (a0) (s : State) : hide m (abandonRecord a0 s) = hide m s := by simp [abandonRecord]
@[simp] theorem finishFlights_hide [May m .waveform] (a0) (s : State) : hide m (finishFlights a0 s) = hide m s := by simp [finishFlights]
@[simp] theorem switchUnits_hide [May m .events] [May m .waveform] (a0) (a1) (s : State) : hide m (switchUnits a0 a1 s) = hide m s := by simp [switchUnits]
@[simp] theorem leaveCore_hide [May m .events] [May m .waveform] (a0) (a1) (s : State) : hide m (leaveCore a0 a1 s) = hide m s := by simp [leaveCore]
@[simp] theorem coreLive_hide [May m .events] [May m .waveform] (a0) (a1) (s : State) : hide m (coreLive a0 a1 s) = hide m s := by simp [coreLive]
@[simp] theorem weFault_hide [May m .events] [May m .frontEnd] [May m .hitPath] [May m .waveform] [May m .buffer] [May m .compression] [May m .free] (a0) (a1) (s : State) : hide m (weFault a0 a1 s) = hide m s := by simp [weFault]
@[simp] theorem passCycles_hide [May m .events] [May m .frontEnd] [May m .hitPath] [May m .waveform] [May m .buffer] [May m .compression] [May m .free] (n) : ∀ (k) (s : State), hide m (passCycles n k s) = hide m s
  | 0, s => rfl
  | k + 1, s => by
    unfold passCycles; dsimp only; (repeat' split) <;> simp [passCycles_hide n k]
@[simp] theorem startCore_hide [May m .events] [May m .waveform] (a0) (s : State) : hide m (startCore a0 s) = hide m s := by simp [startCore]
@[simp] theorem stopCore_hide [May m .events] [May m .frontEnd] [May m .hitPath] [May m .waveform] [May m .buffer] [May m .compression] [May m .free] (a0) (s : State) : hide m (stopCore a0 s) = hide m s := by simp [stopCore]
@[simp] theorem deferCore_hide [May m .events] [May m .waveform] (a0) (s : State) : hide m (deferCore a0 s) = hide m s := by simp [deferCore]
@[simp] theorem resumeCore_hide [May m .events] [May m .waveform] (a0) (s : State) : hide m (resumeCore a0 s) = hide m s := by simp [resumeCore]
@[simp] theorem suspendCore_hide [May m .events] [May m .waveform] (a0) (s : State) : hide m (suspendCore a0 s) = hide m s := by
  unfold suspendCore; (repeat' split) <;> simp
@[simp] theorem wakeCore_hide [May m .events] [May m .waveform] (a0) (s : State) : hide m (wakeCore a0 s) = hide m s := by simp [wakeCore]
@[simp] theorem loseCore_hide [May m .events] [May m .waveform] (a0) (s : State) : hide m (loseCore a0 s) = hide m s := by simp [loseCore]
@[simp] theorem pickPending_hide [May m .free] {α : Type} (l : List (α → α)) (v : α) (s : State) : hide m (pickPending l v s).2 = hide m s := by
  have h : ∀ (l : List (α → α)) (a : α × State),
      hide m (l.foldl (fun a f => let d := drawBool a.2; (if d.1 then f a.1 else a.1, d.2)) a).2 = hide m a.2 := by
    intro v
    induction v with
    | nil => intro a; rfl
    | cons x v ih => intro a; rw [List.foldl_cons, ih]; simp
  exact h l (v, s)
@[simp] theorem readReg_hide [May m .free] (a0) (a1) (s : State) : hide m (readReg a0 a1 s).2 = hide m s := by simp [readReg]
@[simp] theorem readAcc_hide [May m .free] (a0) (a1) (s : State) : hide m (readAcc a0 a1 s).2 = hide m s := by simp [readAcc]
@[simp] theorem readB_hide [May m .free] (a0) (a1) (s : State) : hide m (readB a0 a1 s).2 = hide m s := by
  unfold readB; (repeat' split) <;> simp
@[simp] theorem launch_hide [May m .waveform] (a0) (a1) (a2) (s : State) : hide m (launch a0 a1 a2 s) = hide m s := by simp [launch]
@[simp] theorem launchReg_hide [May m .waveform] (a0) (a1) (a2) (a3) (s : State) : hide m (launchReg a0 a1 a2 a3 s) = hide m s := by simp [launchReg]
@[simp] theorem setSat_hide [May m .waveform] (a0) (a1) (s : State) : hide m (setSat a0 a1 s) = hide m s := by simp [setSat]
@[simp] theorem launchMove_hide [May m .waveform] [May m .free] (a0) (s : State) (a2) : hide m (launchMove a0 s a2) = hide m s := by simp [launchMove]
@[simp] theorem goOn_hide [May m .events] [May m .frontEnd] [May m .hitPath] [May m .waveform] [May m .buffer] [May m .compression] [May m .free] (n l) (s : State) : hide m (goOn n l s) = hide m s := by
  unfold goOn; dsimp only; rw [passCycles_hide, modCore_hide]
/-- What an act leaves: the state it ends in, and what it does after the moves. -/
def hideA (m : StatePart → Bool) (s : State) : WeAct → Prop
  | .done _ f t => hide m t = hide m s ∧ ∀ x, hide m (f x) = hide m x
  | .go _ _ t => hide m t = hide m s
  | .jump _ t => hide m t = hide m s
  | .fault _ t => hide m t = hide m s
  | .stall _ t => hide m t = hide m s
@[simp] theorem go_hide (a b) (s t : State) : hideA m s (.go a b t) ↔ hide m t = hide m s := Iff.rfl
@[simp] theorem jump_hide (a) (s t : State) : hideA m s (.jump a t) ↔ hide m t = hide m s := Iff.rfl
@[simp] theorem fault_hide (a) (s t : State) : hideA m s (.fault a t) ↔ hide m t = hide m s := Iff.rfl
@[simp] theorem stall_hide (a) (s t : State) : hideA m s (.stall a t) ↔ hide m t = hide m s := Iff.rfl
@[simp] theorem doneA_hide (a f) (s t : State) :
    hideA m s (.done a f t) ↔ hide m t = hide m s ∧ ∀ x, hide m (f x) = hide m x := Iff.rfl
theorem foldMoves_hide [May m .waveform] [May m .free] (n) : ∀ (ms : List WeMove) (s : State), hide m (ms.foldl (launchMove n) s) = hide m s
  | [], s => rfl
  | m :: ms, s => by rw [List.foldl_cons, foldMoves_hide n ms]; simp
theorem settleAct_hide [May m .events] [May m .frontEnd] [May m .hitPath] [May m .waveform] [May m .buffer] [May m .compression] [May m .free] (n ms) (s : State) (a) (h : hideA m s a) : hide m (settleAct n ms a) = hide m s := by
  cases a <;> simp_all [settleAct]
@[simp] theorem issueNow_hide [May m .events] [May m .frontEnd] [May m .hitPath] [May m .waveform] [May m .buffer] [May m .compression] [May m .free] (n o l) (act : WeIns → State → WeAct) (s : State)
    (h : ∀ i s, hideA m s (act i s)) : hide m (issueNow n o l act s) = hide m s := by
  unfold issueNow; dsimp only
  iterate 5 (split; · simp)
  generalize weDecode (tget 0 (coreAt s n).p (coreAt s n).index) = i
  have hm : hide m ((movesOf i).foldl (launchMove n) (weStat n 0 1 s)) = hide m s := by simp [foldMoves_hide]
  have hA := h i ((movesOf i).foldl (launchMove n) (weStat n 0 1 s))
  revert hA
  cases act i ((movesOf i).foldl (launchMove n) (weStat n 0 1 s)) with
  | stall k t => simp
  | fault c t => simp
  | go a b t => intro hA; rw [settleAct_hide n _ _ _ hA, hm]
  | jump a t => intro hA; rw [settleAct_hide n _ _ _ hA, hm]
  | done a f t => intro hA; rw [settleAct_hide n _ _ _ hA, hm]
@[simp] theorem issue_hide [May m .events] [May m .frontEnd] [May m .hitPath] [May m .waveform] [May m .buffer] [May m .compression] [May m .free] (n o l) (act : WeIns → State → WeAct) (s : State)
    (h : ∀ i s, hideA m s (act i s)) : hideO m (issue n o l act s) = some (hide m s) := by
  unfold issue; apply event_hide; intro s; exact issueNow_hide n o l act s h
@[simp] theorem goAct_hide (n) (s t : State) : hideA m s (goAct n t) ↔ hide m t = hide m s := Iff.rfl
@[simp] theorem branchAct_hide (n k) (s t : State) (h : hide m t = hide m s) : hideA m s (branchAct n k t) := by
  unfold branchAct; split <;> simp [h]
@[simp] theorem binary_hide [May m .waveform] [May m .free] (n l f i) (s : State) : hideA m s (binary n l f i s) := by
  unfold binary; dsimp only; (repeat' split) <;> simp
@[simp] theorem macAct_hide [May m .waveform] [May m .free] (n f i) (s : State) : hideA m s (macAct n f i s) := by
  unfold macAct; dsimp only; (repeat' split) <;> simp
@[simp] theorem setAccAct_hide [May m .waveform] (n a v) (s t : State) (h : hide m t = hide m s) : hideA m s (setAccAct n a v t) := by
  unfold setAccAct; (repeat' split) <;> simp [h]
@[simp] theorem ftapAct_hide [May m .waveform] (b n i) (s : State) : hideA m s (ftapAct b n i s) := by
  unfold ftapAct; dsimp only; (repeat' split) <;> simp
theorem popInput_hide [May m .waveform] (n c) (s : State) : ∀ v ∈ popInput n c s, hide m v.2 = hide m s := by
  intro v hv
  unfold popInput at hv
  (repeat' split at hv) <;> cases hv
  simp
@[simp] theorem inAct_hide [May m .waveform] (n i) (s : State) : hideA m s (inAct n i s) := by
  have h : ∀ v ∈ popInput n (i.src1 % 16) s, hide m v.2 = hide m s := popInput_hide n (i.src1 % 16) s
  unfold inAct
  revert h
  cases popInput n (i.src1 % 16) s with
  | none => intro _; simp
  | some v => intro h; have := h v rfl; obtain ⟨a, t⟩ := v; simpa using this
@[simp] theorem lateOutput_hide [May m .events] [May m .frontEnd] [May m .hitPath] [May m .waveform] [May m .buffer] [May m .compression] [May m .free] (a0) (a1) (a2) (s : State) : hide m (lateOutput a0 a1 a2 s) = hide m s := by simp [lateOutput]
@[simp] theorem pushOutput_hide [May m .events] [May m .frontEnd] [May m .hitPath] [May m .trigger] [May m .waveform] [May m .buffer] [May m .compression] [May m .links] [May m .free] (a0) (a1) (a2) (s : State) : hide m (pushOutput a0 a1 a2 s) = hide m s := by
  unfold pushOutput; dsimp only; (repeat' split) <;> simp
@[simp] theorem outAct_hide [May m .events] [May m .frontEnd] [May m .hitPath] [May m .trigger] [May m .waveform] [May m .buffer] [May m .compression] [May m .links] [May m .free] (n i) (s : State) : hideA m s (outAct n i s) := by
  unfold outAct; dsimp only; (repeat' split) <;> simp
@[simp] theorem qputAct_hide [May m .events] [May m .frontEnd] [May m .hitPath] [May m .waveform] [May m .buffer] [May m .compression] [May m .free] (n i) (s : State) : hideA m s (qputAct n i s) := by
  unfold qputAct; dsimp only; (repeat' split) <;> simp
@[simp] theorem endStall_hide [May m .events] [May m .waveform] (a0) (a1) (s : State) : hide m (endStall a0 a1 s) = hide m s := by simp [endStall]
@[simp] theorem coreToNow_hide [May m .events] [May m .waveform] (a0) (s : State) : hide m (coreToNow a0 s) = hide m s := by
  unfold coreToNow; dsimp only; (repeat' split) <;> simp
@[simp] theorem irqReach_hide [May m .events] [May m .frontEnd] [May m .hitPath] [May m .waveform] [May m .buffer] [May m .compression] [May m .time] [May m .clock] (a0) (a1) (s : State) : hide m (irqReach a0 a1 s) = hide m s := by simp [irqReach]
@[simp] theorem entrySamples_hide [May m .free] (e) (s : State) : hide m (entrySamples e s).2 = hide m s := by
  have h : ∀ (l : List Nat) (a : List Byte × State),
      hide m (l.foldl (fun (a : List Byte × State) k =>
        if k < e.lost then (a.1 ++ b2 0, a.2)
        else match histSample a.2 e.patch (e.start + k) with
          | some v => (a.1 ++ b2 (unsigned 16 (if e.neg then min 32767 (-v) else v)), a.2)
          | none => let d := drawNat a.2; (a.1 ++ b2 (unsigned 16 (signed 10 (d.1 % 1024))), d.2)) a).2 = hide m a.2 := by
    intro l
    induction l with
    | nil => intro a; rfl
    | cons x v ih =>
      intro a; rw [List.foldl_cons, ih]
      split
      · rfl
      · split <;> simp
  exact h _ _
@[simp] theorem completeEntries_hide [May m .events] [May m .waveform] [May m .free] (a0) (s : State) : hide m (completeEntries a0 s) = hide m s := by simp [completeEntries]
@[simp] theorem deliverRecord_hide [May m .events] [May m .waveform] [May m .free] (f b) (s : State) : hide m (deliverRecord f b s) = hide m s := by
  have h : ∀ (t : State) (o w p : Nat) (l : List Nat) (a : List Byte × State),
      hide m (l.foldl (fun (a : List Byte × State) k =>
        if w + k < o then (a.1 ++ b2 0, a.2)
        else match histSample t p (w + k) with
          | some v => (a.1 ++ b2 (unsigned 16 (polSample f.conf v)), a.2)
          | none => let d := drawNat a.2; (a.1 ++ b2 (unsigned 16 (signed 10 (d.1 % 1024))), d.2)) a).2 = hide m a.2 := by
    intro t o w p l
    induction l with
    | nil => intro a; rfl
    | cons x v ih =>
      intro a; rw [List.foldl_cons, ih]
      split
      · rfl
      · split <;> simp
  unfold deliverRecord
  apply hide_forAll
  intro n s
  dsimp only
  repeat' split
  all_goals first | (simp; done) | (rw [weStat_hide, modCore_hide]; exact h _ _ _ _ _ _)

end Sys2Proof.Machine
end

