-- ==== Sys2Proof/Laws/FrameCommands.lean ====
section
/-! SUPPORT. The parts that each operation and each command may change, continued: from the trigger engine's commands on. -/
namespace Sys2Proof.Machine
variable {m : StatePart → Bool}

/-! Trigger -/

@[simp] theorem updateAdc_hide [May m .events] [May m .trigger] (a0) (a1) (s : State) : hide m (updateAdc a0 a1 s) = hide m s := by
  unfold updateAdc; (repeat' split) <;> simp
@[simp] theorem execAdcCalUpdate_hide [May m .events] [May m .trigger] [May m .time] [May m .clock] (a0) (s : State) : hideO m (execAdcCalUpdate a0 s) = some (hide m s) := by simp [execAdcCalUpdate]
@[simp] theorem execAdcConvergeTimeout_hide [May m .events] [May m .trigger] [May m .time] [May m .clock] (a0) (s : State) : hideO m (execAdcConvergeTimeout a0 s) = some (hide m s) := by simp [execAdcConvergeTimeout]
@[simp] theorem takeSample_hide [May m .events] [May m .trigger] [May m .links] (a0) (a1) (a2) (s : State) : hide m (takeSample a0 a1 a2 s) = hide m s := by simp [takeSample]
@[simp] theorem execTriggerFire_hide [May m .events] [May m .trigger] [May m .waveform] [May m .links] [May m .time] [May m .clock] [May m .free] (a0) (a1) (s : State) : hideO m (execTriggerFire a0 a1 s) = some (hide m s) := by simp [execTriggerFire]
@[simp] theorem execHoldoffEnd_hide [May m .events] [May m .trigger] [May m .time] [May m .clock] (a0) (s : State) : hideO m (execHoldoffEnd a0 s) = some (hide m s) := by
  unfold execHoldoffEnd; (repeat' split) <;> simp
@[simp] theorem execSoftFireTick_hide [May m .events] [May m .trigger] [May m .links] [May m .time] [May m .clock] (s : State) : hideO m (execSoftFireTick s) = some (hide m s) := by
  unfold execSoftFireTick; (repeat' split) <;> simp
@[simp] theorem execTriggerRecordWrite_hide [May m .events] [May m .frontEnd] [May m .hitPath] [May m .trigger] [May m .waveform] [May m .buffer] [May m .compression] [May m .time] [May m .clock] [May m .free] (s : State) : hideO m (execTriggerRecordWrite s) = some (hide m s) := by
  unfold execTriggerRecordWrite; (repeat' split) <;> simp
@[simp] theorem execWaveCaptureDone_hide [May m .events] [May m .frontEnd] [May m .hitPath] [May m .trigger] [May m .buffer] [May m .compression] [May m .time] [May m .clock] (a0) (s : State) : hideO m (execWaveCaptureDone a0 s) = some (hide m s) := by
  unfold execWaveCaptureDone; (repeat' split) <;> simp
@[simp] theorem execTrConfigEffect_hide [May m .events] [May m .trigger] [May m .time] [May m .clock] (s : State) : hideO m (execTrConfigEffect s) = some (hide m s) := by
  unfold execTrConfigEffect; (repeat' split) <;> simp
@[simp] theorem execTrigInEdge_hide [May m .events] [May m .trigger] [May m .links] [May m .time] [May m .clock] (a0) (s : State) : hideO m (execTrigInEdge a0 s) = some (hide m s) := by simp [execTrigInEdge]
@[simp] theorem domainRx_hide [May m .events] [May m .trigger] [May m .links] (t p w) (f : State → State) (s : State) (h : ∀ s, hide m (f s) = hide m s) :
    hideO m (domainRx t p w f s) = some (hide m s) := by
  unfold domainRx; apply event_hide; intro s; dsimp only; (repeat' split) <;> simp [h]
@[simp] theorem armLate_hide [May m .events] [May m .trigger] (s : State) : hide m (armLate s) = hide m s := by simp [armLate]
@[simp] theorem takeArm_hide [May m .events] [May m .trigger] (a0) (s : State) : hide m (takeArm a0 s) = hide m s := by simp [takeArm]
@[simp] theorem execDomainArmRx_hide [May m .events] [May m .trigger] [May m .links] (a0) (a1) (s : State) : hideO m (execDomainArmRx a0 a1 s) = some (hide m s) := by simp [execDomainArmRx]
@[simp] theorem disarm_hide [May m .trigger] (s : State) : hide m (disarm s) = hide m s := by simp [disarm]
@[simp] theorem execDomainDisarmRx_hide [May m .events] [May m .trigger] [May m .links] (a0) (a1) (s : State) : hideO m (execDomainDisarmRx a0 a1 s) = some (hide m s) := by simp [execDomainDisarmRx]
@[simp] theorem execDomainFireRx_hide [May m .events] [May m .trigger] [May m .links] (a0) (a1) (s : State) : hideO m (execDomainFireRx a0 a1 s) = some (hide m s) := by simp [execDomainFireRx]
@[simp] theorem execDomainBeatRx_hide [May m .events] [May m .trigger] [May m .links] (a0) (a1) (s : State) : hideO m (execDomainBeatRx a0 a1 s) = some (hide m s) := by simp [execDomainBeatRx]
@[simp] theorem execDomainBeatSend_hide [May m .events] [May m .trigger] [May m .links] [May m .time] [May m .clock] (s : State) : hideO m (execDomainBeatSend s) = some (hide m s) := by simp [execDomainBeatSend]
@[simp] theorem execDomainBeatTimeout_hide [May m .events] [May m .trigger] [May m .time] [May m .clock] (s : State) : hideO m (execDomainBeatTimeout s) = some (hide m s) := by simp [execDomainBeatTimeout]
@[simp] theorem execDomainArmTick_hide [May m .events] [May m .trigger] [May m .time] [May m .clock] (s : State) : hideO m (execDomainArmTick s) = some (hide m s) := by
  unfold execDomainArmTick; (repeat' split) <;> simp
@[simp] theorem execDomainRearm_hide [May m .events] [May m .trigger] [May m .time] [May m .clock] (s : State) : hideO m (execDomainRearm s) = some (hide m s) := by
  unfold execDomainRearm; (repeat' split) <;> simp
@[simp] theorem execDomainDisarmEffect_hide [May m .events] [May m .trigger] [May m .time] [May m .clock] (s : State) : hideO m (execDomainDisarmEffect s) = some (hide m s) := by
  unfold execDomainDisarmEffect; (repeat' split) <;> simp
@[simp] theorem execTrStatus_hide [May m .mail] [May m .events] (a0) (s : State) : hideO m (execTrStatus a0 s) = some (hide m s) := by simp [execTrStatus]
@[simp] theorem pendUnits_hide [May m .trigger] (a0) (s : State) : hideR m (pendUnits a0 s) = hide m s := by simp [pendUnits]
@[simp] theorem execTrUnitConfig_hide [May m .mail] [May m .events] [May m .trigger] (a0) (s : State) : hideO m (execTrUnitConfig a0 s) = some (hide m s) := by simp [execTrUnitConfig]
@[simp] theorem execTrUnitRead_hide [May m .mail] [May m .events] (a0) (s : State) : hideO m (execTrUnitRead a0 s) = some (hide m s) := by simp [execTrUnitRead]
@[simp] theorem execTrUnitEnable_hide [May m .mail] [May m .events] [May m .trigger] (a0) (s : State) : hideO m (execTrUnitEnable a0 s) = some (hide m s) := by simp [execTrUnitEnable]
@[simp] theorem execTrPatchConfig_hide [May m .mail] [May m .settings] [May m .events] [May m .trigger] (a0) (s : State) : hideO m (execTrPatchConfig a0 s) = some (hide m s) := by simp [execTrPatchConfig]
@[simp] theorem execTrAdcStatus_hide [May m .mail] [May m .events] (a0) (s : State) : hideO m (execTrAdcStatus a0 s) = some (hide m s) := by simp [execTrAdcStatus]
@[simp] theorem freezeAdc_hide [May m .trigger] (a0) (a1) (s : State) : hide m (freezeAdc a0 a1 s) = hide m s := by simp [freezeAdc]
@[simp] theorem execTrAdcFreeze_hide [May m .mail] [May m .events] [May m .trigger] (a0) (s : State) : hideO m (execTrAdcFreeze a0 s) = some (hide m s) := by
  unfold execTrAdcFreeze; apply call_hide; intro p s; apply need_hide; intro s; simp
@[simp] theorem execTrDomainConfig_hide [May m .mail] [May m .settings] [May m .events] [May m .trigger] (a0) (s : State) : hideO m (execTrDomainConfig a0 s) = some (hide m s) := by simp [execTrDomainConfig]
@[simp] theorem execTrArm_hide [May m .mail] [May m .events] [May m .trigger] [May m .links] (a0) (s : State) : hideO m (execTrArm a0 s) = some (hide m s) := by
  unfold execTrArm
  try dsimp only
  repeat' (first | (simp; done) | intro _ | split | with_reducible apply evChange_hide | with_reducible apply event_hide | with_reducible apply Eq.trans (hide_forAll _ _ _ _) | with_reducible apply Eq.trans (hide_when _ _ _ _) | with_reducible apply need_hide | with_reducible apply needState_hide | with_reducible apply needClaim_hide | with_reducible apply issue_hide | with_reducible apply call_hide | with_reducible apply callSel_hide | with_reducible assumption)
  done
@[simp] theorem execTrDisarm_hide [May m .mail] [May m .events] [May m .trigger] [May m .links] (a0) (s : State) : hideO m (execTrDisarm a0 s) = some (hide m s) := by simp [execTrDisarm]
@[simp] theorem execTrDomainStatus_hide [May m .mail] [May m .events] (a0) (s : State) : hideO m (execTrDomainStatus a0 s) = some (hide m s) := by simp [execTrDomainStatus]
@[simp] theorem execTrSoftFire_hide [May m .mail] [May m .events] [May m .trigger] (a0) (s : State) : hideO m (execTrSoftFire a0 s) = some (hide m s) := by simp [execTrSoftFire]
@[simp] theorem execTrStats_hide [May m .mail] [May m .events] [May m .trigger] (a0) (s : State) : hideO m (execTrStats a0 s) = some (hide m s) := by
  unfold execTrStats; apply call_hide; intro p s; apply need_hide; intro s; simp
@[simp] theorem execTrTrigioConfig_hide [May m .mail] [May m .settings] [May m .events] [May m .trigger] (a0) (s : State) : hideO m (execTrTrigioConfig a0 s) = some (hide m s) := by
  unfold execTrTrigioConfig; apply call_hide; intro p s; apply need_hide; intro s; simp
@[simp] theorem readSample_hide [May m .free] (p src g) (a : List Byte × State) : hide m (readSample p src g a).2 = hide m a.2 := by
  unfold readSample; split <;> simp
theorem readSamples_hide [May m .free] (p src t) : ∀ (l : List Nat) (a : List Byte × State),
    hide m (l.foldl (fun a k => readSample p src (25 * t + k) a) a).2 = hide m a.2
  | [], _ => rfl
  | k :: l, a => by rw [List.foldl_cons, readSamples_hide p src t l]; simp
@[simp] theorem execTrSampleRead_hide [May m .mail] [May m .events] [May m .free] (mb) (s : State) : hideO m (execTrSampleRead mb s) = some (hide m s) := by
  unfold execTrSampleRead; apply call_hide; intro p s; dsimp only; apply need_hide; intro s
  simp [readSamples_hide]

/-! Waveform -/

@[simp] theorem execWeNop_hide [May m .events] [May m .frontEnd] [May m .hitPath] [May m .waveform] [May m .buffer] [May m .compression] [May m .free] (a0) (s : State) : hideO m (execWeNop a0 s) = some (hide m s) := by simp [execWeNop]
@[simp] theorem execWeAdd_hide [May m .events] [May m .frontEnd] [May m .hitPath] [May m .waveform] [May m .buffer] [May m .compression] [May m .free] (a0) (s : State) : hideO m (execWeAdd a0 s) = some (hide m s) := by simp [execWeAdd]
@[simp] theorem execWeSub_hide [May m .events] [May m .frontEnd] [May m .hitPath] [May m .waveform] [May m .buffer] [May m .compression] [May m .free] (a0) (s : State) : hideO m (execWeSub a0 s) = some (hide m s) := by simp [execWeSub]
@[simp] theorem execWeAdds_hide [May m .events] [May m .frontEnd] [May m .hitPath] [May m .waveform] [May m .buffer] [May m .compression] [May m .free] (a0) (s : State) : hideO m (execWeAdds a0 s) = some (hide m s) := by simp [execWeAdds]
@[simp] theorem execWeSubs_hide [May m .events] [May m .frontEnd] [May m .hitPath] [May m .waveform] [May m .buffer] [May m .compression] [May m .free] (a0) (s : State) : hideO m (execWeSubs a0 s) = some (hide m s) := by simp [execWeSubs]
@[simp] theorem execWeAnd_hide [May m .events] [May m .frontEnd] [May m .hitPath] [May m .waveform] [May m .buffer] [May m .compression] [May m .free] (a0) (s : State) : hideO m (execWeAnd a0 s) = some (hide m s) := by simp [execWeAnd]
@[simp] theorem execWeOr_hide [May m .events] [May m .frontEnd] [May m .hitPath] [May m .waveform] [May m .buffer] [May m .compression] [May m .free] (a0) (s : State) : hideO m (execWeOr a0 s) = some (hide m s) := by simp [execWeOr]
@[simp] theorem execWeXor_hide [May m .events] [May m .frontEnd] [May m .hitPath] [May m .waveform] [May m .buffer] [May m .compression] [May m .free] (a0) (s : State) : hideO m (execWeXor a0 s) = some (hide m s) := by simp [execWeXor]
@[simp] theorem execWeShl_hide [May m .events] [May m .frontEnd] [May m .hitPath] [May m .waveform] [May m .buffer] [May m .compression] [May m .free] (a0) (s : State) : hideO m (execWeShl a0 s) = some (hide m s) := by simp [execWeShl]
@[simp] theorem execWeShr_hide [May m .events] [May m .frontEnd] [May m .hitPath] [May m .waveform] [May m .buffer] [May m .compression] [May m .free] (a0) (s : State) : hideO m (execWeShr a0 s) = some (hide m s) := by simp [execWeShr]
@[simp] theorem execWeSar_hide [May m .events] [May m .frontEnd] [May m .hitPath] [May m .waveform] [May m .buffer] [May m .compression] [May m .free] (a0) (s : State) : hideO m (execWeSar a0 s) = some (hide m s) := by simp [execWeSar]
@[simp] theorem execWeMin_hide [May m .events] [May m .frontEnd] [May m .hitPath] [May m .waveform] [May m .buffer] [May m .compression] [May m .free] (a0) (s : State) : hideO m (execWeMin a0 s) = some (hide m s) := by simp [execWeMin]
@[simp] theorem execWeMax_hide [May m .events] [May m .frontEnd] [May m .hitPath] [May m .waveform] [May m .buffer] [May m .compression] [May m .free] (a0) (s : State) : hideO m (execWeMax a0 s) = some (hide m s) := by simp [execWeMax]
@[simp] theorem execWeAbs_hide [May m .events] [May m .frontEnd] [May m .hitPath] [May m .waveform] [May m .buffer] [May m .compression] [May m .free] (a0) (s : State) : hideO m (execWeAbs a0 s) = some (hide m s) := by simp [execWeAbs]
@[simp] theorem execWeAdd2h_hide [May m .events] [May m .frontEnd] [May m .hitPath] [May m .waveform] [May m .buffer] [May m .compression] [May m .free] (a0) (s : State) : hideO m (execWeAdd2h a0 s) = some (hide m s) := by simp [execWeAdd2h]
@[simp] theorem execWeSub2h_hide [May m .events] [May m .frontEnd] [May m .hitPath] [May m .waveform] [May m .buffer] [May m .compression] [May m .free] (a0) (s : State) : hideO m (execWeSub2h a0 s) = some (hide m s) := by simp [execWeSub2h]
@[simp] theorem execWePack_hide [May m .events] [May m .frontEnd] [May m .hitPath] [May m .waveform] [May m .buffer] [May m .compression] [May m .free] (a0) (s : State) : hideO m (execWePack a0 s) = some (hide m s) := by simp [execWePack]
@[simp] theorem execWeCmplt_hide [May m .events] [May m .frontEnd] [May m .hitPath] [May m .waveform] [May m .buffer] [May m .compression] [May m .free] (a0) (s : State) : hideO m (execWeCmplt a0 s) = some (hide m s) := by simp [execWeCmplt]
@[simp] theorem execWeCmpeq_hide [May m .events] [May m .frontEnd] [May m .hitPath] [May m .waveform] [May m .buffer] [May m .compression] [May m .free] (a0) (s : State) : hideO m (execWeCmpeq a0 s) = some (hide m s) := by simp [execWeCmpeq]
@[simp] theorem execWeMov_hide [May m .events] [May m .frontEnd] [May m .hitPath] [May m .waveform] [May m .buffer] [May m .compression] [May m .free] (a0) (s : State) : hideO m (execWeMov a0 s) = some (hide m s) := by simp [execWeMov]
@[simp] theorem execWeMovs_hide [May m .events] [May m .frontEnd] [May m .hitPath] [May m .waveform] [May m .buffer] [May m .compression] [May m .free] (a0) (s : State) : hideO m (execWeMovs a0 s) = some (hide m s) := by simp [execWeMovs]
@[simp] theorem execWeMovsr_hide [May m .events] [May m .frontEnd] [May m .hitPath] [May m .waveform] [May m .buffer] [May m .compression] [May m .free] (a0) (s : State) : hideO m (execWeMovsr a0 s) = some (hide m s) := by simp [execWeMovsr]
@[simp] theorem execWeMul_hide [May m .events] [May m .frontEnd] [May m .hitPath] [May m .waveform] [May m .buffer] [May m .compression] [May m .free] (a0) (s : State) : hideO m (execWeMul a0 s) = some (hide m s) := by simp [execWeMul]
@[simp] theorem execWeMul2h_hide [May m .events] [May m .frontEnd] [May m .hitPath] [May m .waveform] [May m .buffer] [May m .compression] [May m .free] (a0) (s : State) : hideO m (execWeMul2h a0 s) = some (hide m s) := by simp [execWeMul2h]
@[simp] theorem execWeMac_hide [May m .events] [May m .frontEnd] [May m .hitPath] [May m .waveform] [May m .buffer] [May m .compression] [May m .free] (a0) (s : State) : hideO m (execWeMac a0 s) = some (hide m s) := by simp [execWeMac]
@[simp] theorem execWeMsu_hide [May m .events] [May m .frontEnd] [May m .hitPath] [May m .waveform] [May m .buffer] [May m .compression] [May m .free] (a0) (s : State) : hideO m (execWeMsu a0 s) = some (hide m s) := by simp [execWeMsu]
@[simp] theorem execWeMac0_hide [May m .events] [May m .frontEnd] [May m .hitPath] [May m .waveform] [May m .buffer] [May m .compression] [May m .free] (a0) (s : State) : hideO m (execWeMac0 a0 s) = some (hide m s) := by simp [execWeMac0]
@[simp] theorem execWeFtap_hide [May m .events] [May m .frontEnd] [May m .hitPath] [May m .waveform] [May m .buffer] [May m .compression] [May m .free] (a0) (s : State) : hideO m (execWeFtap a0 s) = some (hide m s) := by simp [execWeFtap]
@[simp] theorem execWeFtap0_hide [May m .events] [May m .frontEnd] [May m .hitPath] [May m .waveform] [May m .buffer] [May m .compression] [May m .free] (a0) (s : State) : hideO m (execWeFtap0 a0 s) = some (hide m s) := by simp [execWeFtap0]
@[simp] theorem execWeClra_hide [May m .events] [May m .frontEnd] [May m .hitPath] [May m .waveform] [May m .buffer] [May m .compression] [May m .free] (a0) (s : State) : hideO m (execWeClra a0 s) = some (hide m s) := by simp [execWeClra]
@[simp] theorem execWeAdda_hide [May m .events] [May m .frontEnd] [May m .hitPath] [May m .waveform] [May m .buffer] [May m .compression] [May m .free] (a0) (s : State) : hideO m (execWeAdda a0 s) = some (hide m s) := by
  unfold execWeAdda
  try dsimp only
  repeat' (first | (simp; done) | intro _ | split | with_reducible apply evChange_hide | with_reducible apply event_hide | with_reducible apply Eq.trans (hide_forAll _ _ _ _) | with_reducible apply Eq.trans (hide_when _ _ _ _) | with_reducible apply need_hide | with_reducible apply needState_hide | with_reducible apply needClaim_hide | with_reducible assumption)
  done
@[simp] theorem execWeLda_hide [May m .events] [May m .frontEnd] [May m .hitPath] [May m .waveform] [May m .buffer] [May m .compression] [May m .free] (a0) (s : State) : hideO m (execWeLda a0 s) = some (hide m s) := by
  unfold execWeLda
  try dsimp only
  repeat' (first | (simp; done) | intro _ | split | with_reducible apply evChange_hide | with_reducible apply event_hide | with_reducible apply Eq.trans (hide_forAll _ _ _ _) | with_reducible apply Eq.trans (hide_when _ _ _ _) | with_reducible apply need_hide | with_reducible apply needState_hide | with_reducible apply needClaim_hide | with_reducible assumption)
  done
@[simp] theorem execWeMova_hide [May m .events] [May m .frontEnd] [May m .hitPath] [May m .waveform] [May m .buffer] [May m .compression] [May m .free] (a0) (s : State) : hideO m (execWeMova a0 s) = some (hide m s) := by simp [execWeMova]
@[simp] theorem execWeMovaw_hide [May m .events] [May m .frontEnd] [May m .hitPath] [May m .waveform] [May m .buffer] [May m .compression] [May m .free] (a0) (s : State) : hideO m (execWeMovaw a0 s) = some (hide m s) := by simp [execWeMovaw]
@[simp] theorem execWeIn_hide [May m .events] [May m .frontEnd] [May m .hitPath] [May m .waveform] [May m .buffer] [May m .compression] [May m .free] (a0) (s : State) : hideO m (execWeIn a0 s) = some (hide m s) := by simp [execWeIn]
@[simp] theorem execWeOut_hide [May m .events] [May m .frontEnd] [May m .hitPath] [May m .trigger] [May m .waveform] [May m .buffer] [May m .compression] [May m .links] [May m .free] (a0) (s : State) : hideO m (execWeOut a0 s) = some (hide m s) := by simp [execWeOut]
@[simp] theorem execWeQput_hide [May m .events] [May m .frontEnd] [May m .hitPath] [May m .waveform] [May m .buffer] [May m .compression] [May m .free] (a0) (s : State) : hideO m (execWeQput a0 s) = some (hide m s) := by simp [execWeQput]
@[simp] theorem execWeQend_hide [May m .events] [May m .frontEnd] [May m .hitPath] [May m .waveform] [May m .buffer] [May m .compression] [May m .free] (a0) (s : State) : hideO m (execWeQend a0 s) = some (hide m s) := by simp [execWeQend]
@[simp] theorem execWeBr_hide [May m .events] [May m .frontEnd] [May m .hitPath] [May m .waveform] [May m .buffer] [May m .compression] [May m .free] (a0) (s : State) : hideO m (execWeBr a0 s) = some (hide m s) := by simp [execWeBr]
@[simp] theorem execWeBrz_hide [May m .events] [May m .frontEnd] [May m .hitPath] [May m .waveform] [May m .buffer] [May m .compression] [May m .free] (a0) (s : State) : hideO m (execWeBrz a0 s) = some (hide m s) := by
  unfold execWeBrz; apply issue_hide; intro i s; dsimp only; (repeat' split) <;> simp
@[simp] theorem execWeBrnz_hide [May m .events] [May m .frontEnd] [May m .hitPath] [May m .waveform] [May m .buffer] [May m .compression] [May m .free] (a0) (s : State) : hideO m (execWeBrnz a0 s) = some (hide m s) := by
  unfold execWeBrnz; apply issue_hide; intro i s; dsimp only; (repeat' split) <;> simp
@[simp] theorem execWeCall_hide [May m .events] [May m .frontEnd] [May m .hitPath] [May m .waveform] [May m .buffer] [May m .compression] [May m .free] (a0) (s : State) : hideO m (execWeCall a0 s) = some (hide m s) := by
  unfold execWeCall; apply issue_hide; intro i s; dsimp only; (repeat' split) <;> simp
@[simp] theorem execWeRet_hide [May m .events] [May m .frontEnd] [May m .hitPath] [May m .waveform] [May m .buffer] [May m .compression] [May m .free] (a0) (s : State) : hideO m (execWeRet a0 s) = some (hide m s) := by
  unfold execWeRet; apply issue_hide; intro i s; dsimp only; (repeat' split) <;> simp
@[simp] theorem execWeLoop_hide [May m .events] [May m .frontEnd] [May m .hitPath] [May m .waveform] [May m .buffer] [May m .compression] [May m .free] (a0) (s : State) : hideO m (execWeLoop a0 s) = some (hide m s) := by
  unfold execWeLoop; apply issue_hide; intro i s; dsimp only; (repeat' split) <;> simp
@[simp] theorem execWePloop_hide [May m .events] [May m .frontEnd] [May m .hitPath] [May m .waveform] [May m .buffer] [May m .compression] [May m .free] (a0) (s : State) : hideO m (execWePloop a0 s) = some (hide m s) := by
  unfold execWePloop; apply issue_hide; intro i s; dsimp only; (repeat' split) <;> simp
@[simp] theorem execWeWait_hide [May m .events] [May m .frontEnd] [May m .hitPath] [May m .waveform] [May m .buffer] [May m .compression] [May m .free] (a0) (s : State) : hideO m (execWeWait a0 s) = some (hide m s) := by simp [execWeWait]
@[simp] theorem execWeRti_hide [May m .events] [May m .frontEnd] [May m .hitPath] [May m .waveform] [May m .buffer] [May m .compression] [May m .free] (a0) (s : State) : hideO m (execWeRti a0 s) = some (hide m s) := by
  unfold execWeRti; apply issue_hide; intro i s; dsimp only; (repeat' split) <;> simp
@[simp] theorem execWeSwi_hide [May m .events] [May m .frontEnd] [May m .hitPath] [May m .waveform] [May m .buffer] [May m .compression] [May m .free] (a0) (s : State) : hideO m (execWeSwi a0 s) = some (hide m s) := by simp [execWeSwi]
@[simp] theorem execWeHalt_hide [May m .events] [May m .frontEnd] [May m .hitPath] [May m .waveform] [May m .buffer] [May m .compression] [May m .free] (a0) (s : State) : hideO m (execWeHalt a0 s) = some (hide m s) := by simp [execWeHalt]
@[simp] theorem resume_hide (n k r) (f : State → State) (s : State) (h : ∀ s, hide m (f s) = hide m s) :
    hideO m (resume n k r f s) = some (hide m s) := by
  unfold resume; apply event_hide; intro s; (repeat' split) <;> simp [h]
@[simp] theorem execWeInResume_hide [May m .events] [May m .frontEnd] [May m .hitPath] [May m .waveform] [May m .buffer] [May m .compression] [May m .free] (a0) (s : State) : hideO m (execWeInResume a0 s) = some (hide m s) := by
  unfold execWeInResume; (repeat' split) <;> simp
@[simp] theorem execWeOutResume_hide [May m .events] [May m .frontEnd] [May m .hitPath] [May m .trigger] [May m .waveform] [May m .buffer] [May m .compression] [May m .links] [May m .free] (a0) (s : State) : hideO m (execWeOutResume a0 s) = some (hide m s) := by simp [execWeOutResume]
@[simp] theorem execWeQputResume_hide [May m .events] [May m .frontEnd] [May m .hitPath] [May m .waveform] [May m .buffer] [May m .compression] [May m .free] (a0) (s : State) : hideO m (execWeQputResume a0 s) = some (hide m s) := by simp [execWeQputResume]
@[simp] theorem execWeIrqLevel1_hide [May m .events] [May m .frontEnd] [May m .hitPath] [May m .waveform] [May m .buffer] [May m .compression] [May m .time] [May m .clock] (a0) (s : State) : hideO m (execWeIrqLevel1 a0 s) = some (hide m s) := by
  unfold execWeIrqLevel1; dsimp only; (repeat' split) <;> simp
@[simp] theorem execWeIrqLevel2_hide [May m .events] [May m .frontEnd] [May m .hitPath] [May m .waveform] [May m .buffer] [May m .compression] [May m .time] [May m .clock] [May m .free] (a0) (s : State) : hideO m (execWeIrqLevel2 a0 s) = some (hide m s) := by
  unfold execWeIrqLevel2; (repeat' split) <;> simp
@[simp] theorem execWeInputSample_hide [May m .events] [May m .frontEnd] [May m .hitPath] [May m .waveform] [May m .buffer] [May m .compression] [May m .time] [May m .clock] [May m .free] (a0) (a1) (a2) (s : State) : hideO m (execWeInputSample a0 a1 a2 s) = some (hide m s) := by
  unfold execWeInputSample; dsimp only; (repeat' split) <;> simp
@[simp] theorem execWePatrolScrub_hide [May m .events] [May m .waveform] (a0) (a1) (a2) (a3) (a4) (s : State) : hideO m (execWePatrolScrub a0 a1 a2 a3 a4 s) = some (hide m s) := by simp [execWePatrolScrub]
@[simp] theorem execWeStatus_hide [May m .mail] [May m .events] (a0) (s : State) : hideO m (execWeStatus a0 s) = some (hide m s) := by simp [execWeStatus]
@[simp] theorem execWeLoadBegin_hide [May m .mail] [May m .events] [May m .waveform] (a0) (s : State) : hideO m (execWeLoadBegin a0 s) = some (hide m s) := by
  unfold execWeLoadBegin; apply call_hide; intro p s; apply need_hide; intro s; simp
@[simp] theorem execWeLoadData_hide [May m .mail] [May m .events] [May m .waveform] (a0) (s : State) : hideO m (execWeLoadData a0 s) = some (hide m s) := by
  unfold execWeLoadData; apply call_hide; intro p s; apply need_hide; intro s; simp
@[simp] theorem execWeLoadEnd_hide [May m .mail] [May m .events] [May m .waveform] (a0) (s : State) : hideO m (execWeLoadEnd a0 s) = some (hide m s) := by
  unfold execWeLoadEnd; apply call_hide; intro p s; apply need_hide; intro s; simp
@[simp] theorem execWeStart_hide [May m .mail] [May m .events] [May m .waveform] (mb) (s : State) : hideO m (execWeStart mb s) = some (hide m s) := by
  unfold execWeStart; apply call_hide; intro p s; apply need_hide; intro s
  rw [ok_hide]; apply hide_forAll; intro n s; split <;> simp
@[simp] theorem execWeStop_hide [May m .mail] [May m .events] [May m .frontEnd] [May m .hitPath] [May m .waveform] [May m .buffer] [May m .compression] [May m .free] (mb) (s : State) : hideO m (execWeStop mb s) = some (hide m s) := by
  unfold execWeStop; apply call_hide; intro p s; apply need_hide; intro s
  rw [ok_hide]; apply hide_forAll; intro n s; split <;> simp
@[simp] theorem execWeMemRead_hide [May m .mail] [May m .events] (a0) (s : State) : hideO m (execWeMemRead a0 s) = some (hide m s) := by simp [execWeMemRead]
@[simp] theorem execWeParamWrite_hide [May m .mail] [May m .events] [May m .waveform] [May m .free] (a0) (s : State) : hideO m (execWeParamWrite a0 s) = some (hide m s) := by simp [execWeParamWrite]
@[simp] theorem execWeRegRead_hide [May m .mail] [May m .events] (a0) (s : State) : hideO m (execWeRegRead a0 s) = some (hide m s) := by
  unfold execWeRegRead; apply call_hide; intro p s; apply need_hide; intro s; simp
@[simp] theorem execWeSignal_hide [May m .mail] [May m .events] [May m .waveform] (a0) (s : State) : hideO m (execWeSignal a0 s) = some (hide m s) := by simp [execWeSignal]
@[simp] theorem execWeStats_hide [May m .mail] [May m .events] [May m .waveform] (a0) (s : State) : hideO m (execWeStats a0 s) = some (hide m s) := by
  unfold execWeStats; apply call_hide; intro p s; apply need_hide; intro s; simp

/-! Buffer -/

@[simp] theorem execFrameCloseTimeout_hide [May m .events] [May m .buffer] [May m .compression] [May m .time] [May m .clock] (a0) (a1) (a2) (s : State) : hideO m (execFrameCloseTimeout a0 a1 a2 s) = some (hide m s) := by
  unfold execFrameCloseTimeout; (repeat' split) <;> simp
@[simp] theorem execDrain_hide [May m .buffer] (a0) (s : State) : hideO m (execDrain a0 s) = some (hide m s) := by simp [execDrain]
@[simp] theorem execSpill_hide [May m .events] [May m .buffer] (a0) (s : State) : hideO m (execSpill a0 s) = some (hide m s) := by simp [execSpill]
@[simp] theorem refillChunk_hide [May m .events] [May m .frontEnd] [May m .hitPath] [May m .buffer] [May m .compression] (a0) (s : State) : hide m (refillChunk a0 s) = hide m s := by
  unfold refillChunk; (repeat' split) <;> simp
@[simp] theorem execRefill_hide [May m .events] [May m .frontEnd] [May m .hitPath] [May m .buffer] [May m .compression] (q ups) (s : State) : hideO m (execRefill q ups s) = some (hide m s) := by
  unfold execRefill; apply event_hide; intro s; simp
@[simp] theorem execPointerCheck_hide [May m .events] [May m .buffer] (a0) (a1) (s : State) : hideO m (execPointerCheck a0 a1 s) = some (hide m s) := by
  unfold execPointerCheck
  try dsimp only
  repeat' (first | (simp; done) | intro _ | split | with_reducible apply evChange_hide | with_reducible apply event_hide | with_reducible apply Eq.trans (hide_forAll _ _ _ _) | with_reducible apply Eq.trans (hide_when _ _ _ _) | with_reducible apply need_hide | with_reducible apply needState_hide | with_reducible apply needClaim_hide | with_reducible assumption)
  done
@[simp] theorem abortScrubs_hide [May m .jobs] [May m .events] [May m .buffer] (a0) (s : State) : hide m (abortScrubs a0 s) = hide m s := by simp [abortScrubs]
@[simp] theorem execQueueResetComplete_hide [May m .jobs] [May m .events] [May m .frontEnd] [May m .hitPath] [May m .buffer] [May m .compression] (a0) (s : State) : hideO m (execQueueResetComplete a0 s) = some (hide m s) := by simp [execQueueResetComplete]
@[simp] theorem beginPass_hide [May m .buffer] (s : State) : hide m (beginPass s) = hide m s := by simp [beginPass]
@[simp] theorem endPass_hide [May m .events] [May m .buffer] (s : State) : hide m (endPass s) = hide m s := by simp [endPass]
@[simp] theorem scrubLine_hide [May m .events] [May m .frontEnd] [May m .hitPath] [May m .buffer] [May m .compression] (a0) (a1) (a2) (a3) (s : State) : hide m (scrubLine a0 a1 a2 a3 s) = hide m s := by
  unfold scrubLine; (repeat' split) <;> simp
@[simp] theorem storedLine_hide [May m .free] (a0) (a1) (s : State) : hide m (storedLine a0 a1 s).2 = hide m s := by
  unfold storedLine; dsimp only; (repeat' split) <;> simp
@[simp] theorem countVisit_hide [May m .buffer] (a0) (a1) (a2) (s : State) : hide m (countVisit a0 a1 a2 s) = hide m s := by
  unfold countVisit; (repeat' split) <;> simp
@[simp] theorem scrubVisit_hide [May m .events] [May m .frontEnd] [May m .hitPath] [May m .buffer] [May m .compression] [May m .free] (a0) (a1) (s : State) : hide m (scrubVisit a0 a1 s) = hide m s := by
  unfold scrubVisit; (repeat' split) <;> simp
@[simp] theorem execScrubLineVisit_hide [May m .events] [May m .frontEnd] [May m .hitPath] [May m .buffer] [May m .compression] [May m .time] [May m .clock] [May m .free] (a0) (a1) (s : State) : hideO m (execScrubLineVisit a0 a1 s) = some (hide m s) := by simp [execScrubLineVisit]
@[simp] theorem putSramErr_hide [May m .buffer] (a0) (a1) (a2) (a3) (s : State) : hide m (putSramErr a0 a1 a2 a3 s) = hide m s := by simp [putSramErr]
@[simp] theorem sramLost_hide [May m .events] [May m .buffer] (a0) (a1) (a2) (a3) (s : State) : hide m (sramLost a0 a1 a2 a3 s) = hide m s := by simp [sramLost]
@[simp] theorem sramWord_hide [May m .events] [May m .buffer] (a0) (s : State) : hide m (sramWord a0 s) = hide m s := by
  unfold sramWord; dsimp only; (repeat' split) <;> simp
@[simp] theorem execSramScrub_hide [May m .events] [May m .buffer] [May m .time] [May m .clock] (a0) (s : State) : hideO m (execSramScrub a0 s) = some (hide m s) := by simp [execSramScrub]
@[simp] theorem execMemLayerIdleSelfRefresh_hide [May m .events] [May m .buffer] [May m .time] [May m .clock] (s : State) : hideO m (execMemLayerIdleSelfRefresh s) = some (hide m s) := by simp [execMemLayerIdleSelfRefresh]
@[simp] theorem execBbStatus_hide [May m .mail] [May m .events] (a0) (s : State) : hideO m (execBbStatus a0 s) = some (hide m s) := by simp [execBbStatus]
@[simp] theorem execBbQueueMapSet_hide [May m .mail] [May m .events] [May m .buffer] (a0) (s : State) : hideO m (execBbQueueMapSet a0 s) = some (hide m s) := by simp [execBbQueueMapSet]
@[simp] theorem execBbQueueMapGet_hide [May m .mail] [May m .events] (a0) (s : State) : hideO m (execBbQueueMapGet a0 s) = some (hide m s) := by simp [execBbQueueMapGet]
@[simp] theorem execBbRegionSet_hide [May m .mail] [May m .jobs] [May m .events] [May m .frontEnd] [May m .hitPath] [May m .buffer] [May m .compression] (a0) (s : State) : hideO m (execBbRegionSet a0 s) = some (hide m s) := by
  unfold execBbRegionSet; apply call_hide; intro p s; apply need_hide; intro s; simp
@[simp] theorem execBbRegionGet_hide [May m .mail] [May m .events] (a0) (s : State) : hideO m (execBbRegionGet a0 s) = some (hide m s) := by simp [execBbRegionGet]
@[simp] theorem execBbHoldOutput_hide [May m .mail] [May m .events] [May m .buffer] (a0) (s : State) : hideO m (execBbHoldOutput a0 s) = some (hide m s) := by simp [execBbHoldOutput]
@[simp] theorem flushQueue_hide [May m .events] [May m .frontEnd] [May m .hitPath] [May m .buffer] [May m .compression] (a0) (s : State) : hide m (flushQueue a0 s) = hide m s := by
  unfold flushQueue; dsimp only; (repeat' split) <;> simp
@[simp] theorem execBbFlush_hide [May m .mail] [May m .events] [May m .frontEnd] [May m .hitPath] [May m .buffer] [May m .compression] (a0) (s : State) : hideO m (execBbFlush a0 s) = some (hide m s) := by simp [execBbFlush]
@[simp] theorem execBbReset_hide [May m .mail] [May m .jobs] [May m .events] [May m .buffer] (a0) (s : State) : hideO m (execBbReset a0 s) = some (hide m s) := by simp [execBbReset]
@[simp] theorem execBbPeek_hide [May m .mail] [May m .events] (a0) (s : State) : hideO m (execBbPeek a0 s) = some (hide m s) := by simp [execBbPeek]
@[simp] theorem execBbStats_hide [May m .mail] [May m .events] [May m .buffer] (a0) (s : State) : hideO m (execBbStats a0 s) = some (hide m s) := by
  unfold execBbStats; apply call_hide; intro p s; apply need_hide; intro s; simp
@[simp] theorem execMemStatus_hide [May m .mail] [May m .events] (a0) (s : State) : hideO m (execMemStatus a0 s) = some (hide m s) := by simp [execMemStatus]
@[simp] theorem execMemScrubConfig_hide [May m .mail] [May m .settings] [May m .events] (a0) (s : State) : hideO m (execMemScrubConfig a0 s) = some (hide m s) := by simp [execMemScrubConfig]
@[simp] theorem scrubBegin_hide [May m .buffer] (a0) (s : State) : hide m (scrubBegin a0 s) = hide m s := by simp [scrubBegin]
@[simp] theorem execMemScrubRange_hide [May m .mail] [May m .jobs] [May m .events] [May m .buffer] (a0) (s : State) : hideO m (execMemScrubRange a0 s) = some (hide m s) := by
  unfold execMemScrubRange; apply call_hide; intro p s; apply need_hide; intro s; simp
@[simp] theorem execMemScrubSummary_hide [May m .mail] [May m .events] (a0) (s : State) : hideO m (execMemScrubSummary a0 s) = some (hide m s) := by
  unfold execMemScrubSummary
  try dsimp only
  repeat' (first | (simp; done) | intro _ | split | with_reducible apply evChange_hide | with_reducible apply event_hide | with_reducible apply Eq.trans (hide_forAll _ _ _ _) | with_reducible apply Eq.trans (hide_when _ _ _ _) | with_reducible apply need_hide | with_reducible apply needState_hide | with_reducible apply needClaim_hide | with_reducible apply issue_hide | with_reducible apply call_hide | with_reducible apply callSel_hide | with_reducible assumption)
  done
@[simp] theorem execMemDefectRead_hide [May m .mail] [May m .events] (a0) (s : State) : hideO m (execMemDefectRead a0 s) = some (hide m s) := by simp [execMemDefectRead]
@[simp] theorem checkerPut_hide [May m .buffer] (a0) (a1) (a2) (s : State) : hide m (checkerPut a0 a1 a2 s) = hide m s := by simp [checkerPut]
@[simp] theorem execMemCheckerWrite_hide [May m .mail] [May m .events] [May m .buffer] (a0) (s : State) : hideO m (execMemCheckerWrite a0 s) = some (hide m s) := by
  unfold execMemCheckerWrite; apply call_hide; intro p s; apply need_hide; intro s; simp
@[simp] theorem execMemCheckerRead_hide [May m .mail] [May m .events] (a0) (s : State) : hideO m (execMemCheckerRead a0 s) = some (hide m s) := by simp [execMemCheckerRead]
@[simp] theorem execMemTrain_hide [May m .mail] [May m .jobs] [May m .events] (a0) (s : State) : hideO m (execMemTrain a0 s) = some (hide m s) := by
  unfold execMemTrain
  try dsimp only
  repeat' (first | (simp; done) | intro _ | split | with_reducible apply evChange_hide | with_reducible apply event_hide | with_reducible apply Eq.trans (hide_forAll _ _ _ _) | with_reducible apply Eq.trans (hide_when _ _ _ _) | with_reducible apply need_hide | with_reducible apply needState_hide | with_reducible apply needClaim_hide | with_reducible apply issue_hide | with_reducible apply call_hide | with_reducible apply callSel_hide | with_reducible assumption)
  done

/-! Compression -/

@[simp] theorem execCxUnitCode_hide [May m .events] [May m .frontEnd] [May m .hitPath] [May m .buffer] [May m .compression] [May m .time] [May m .clock] (u q) (s : State) : hideO m (execCxUnitCode u q s) = some (hide m s) := by
  unfold execCxUnitCode
  split
  · rfl
  · rename_i f _
    dsimp only
    have h1 : hide m (cxSettle q.val f (reachUp (divUp (tget 0 s.cx.freeAt u.val) 55) s)) = hide m s := by simp
    revert h1
    generalize cxSettle q.val f (reachUp (divUp (tget 0 s.cx.freeAt u.val) 55) s) = s1
    intro h1
    split
    · rfl
    · have h3 : hide m (takeFrame q.val f (when (decide (s1.sys.power = .easy)) (onCx (fun x => { x with awake := true })) s1)).2 =
          hide m s := by simp [h1]
      revert h3
      generalize takeFrame q.val f (when (decide (s1.sys.power = .easy)) (onCx (fun x => { x with awake := true })) s1) = r
      obtain ⟨o, s3⟩ := r
      cases o with
      | none => intro h3; simpa using h3
      | some x =>
        intro h3
        dsimp only
        unfold event
        split
        · simpa using h3
        · rfl
@[simp] theorem execCxBufferCloseTimeout_hide [May m .events] [May m .compression] [May m .time] [May m .clock] (a0) (a1) (s : State) : hideO m (execCxBufferCloseTimeout a0 a1 s) = some (hide m s) := by
  unfold execCxBufferCloseTimeout; (repeat' split) <;> simp
@[simp] theorem execCxIdleGate_hide [May m .events] [May m .compression] [May m .time] [May m .clock] (s : State) : hideO m (execCxIdleGate s) = some (hide m s) := by simp [execCxIdleGate]
@[simp] theorem execCxStalled_hide [May m .events] [May m .compression] [May m .time] [May m .clock] (a0) (s : State) : hideO m (execCxStalled a0 s) = some (hide m s) := by
  unfold execCxStalled; (repeat' split) <;> simp
@[simp] theorem execCxStatus_hide [May m .mail] [May m .events] (a0) (s : State) : hideO m (execCxStatus a0 s) = some (hide m s) := by simp [execCxStatus]
@[simp] theorem execCxQueueConfig_hide [May m .mail] [May m .events] [May m .compression] (a0) (s : State) : hideO m (execCxQueueConfig a0 s) = some (hide m s) := by simp [execCxQueueConfig]
@[simp] theorem execCxQueueGet_hide [May m .mail] [May m .events] (a0) (s : State) : hideO m (execCxQueueGet a0 s) = some (hide m s) := by simp [execCxQueueGet]
@[simp] theorem execCxChainRead_hide [May m .mail] [May m .events] (a0) (s : State) : hideO m (execCxChainRead a0 s) = some (hide m s) := by simp [execCxChainRead]
@[simp] theorem execCxStats_hide [May m .mail] [May m .events] [May m .compression] (a0) (s : State) : hideO m (execCxStats a0 s) = some (hide m s) := by
  unfold execCxStats; apply call_hide; intro p s; apply need_hide; intro s; simp
@[simp] theorem execCxCodeTest_hide [May m .mail] [May m .events] (a0) (s : State) : hideO m (execCxCodeTest a0 s) = some (hide m s) := by simp [execCxCodeTest]

/-! TimeCore -/

@[simp] theorem loadReplica_hide [May m .time] (a0) (s : State) : hide m (loadReplica a0 s) = hide m s := by simp [loadReplica]
@[simp] theorem timeVote_hide [May m .events] [May m .time] (a0) (a1) (a2) (s : State) : hide m (timeVote a0 a1 a2 s) = hide m s := by
  unfold timeVote; (repeat' split) <;> simp
@[simp] theorem execTimeTmrVote_hide [May m .events] [May m .time] (a0) (s : State) : hideO m (execTimeTmrVote a0 s) = some (hide m s) := by simp [execTimeTmrVote]
@[simp] theorem execFreqSourceWatchdog_hide [May m .events] [May m .time] (a0) (s : State) : hideO m (execFreqSourceWatchdog a0 s) = some (hide m s) := by simp [execFreqSourceWatchdog]
@[simp] theorem execFreqWindowCheck_hide [May m .events] [May m .time] [May m .clock] (a0) (a1) (s : State) : hideO m (execFreqWindowCheck a0 a1 s) = some (hide m s) := by simp [execFreqWindowCheck]
@[simp] theorem execOcxoRdyFall_hide [May m .events] [May m .time] (s : State) : hideO m (execOcxoRdyFall s) = some (hide m s) := by simp [execOcxoRdyFall]
@[simp] theorem execOcxoRdyRise_hide [May m .time] (s : State) : hideO m (execOcxoRdyRise s) = some (hide m s) := by simp [execOcxoRdyRise]
@[simp] theorem execOcxoWarmHoldExpiry_hide [May m .events] [May m .time] [May m .clock] (s : State) : hideO m (execOcxoWarmHoldExpiry s) = some (hide m s) := by
  unfold execOcxoWarmHoldExpiry; (repeat' split) <;> simp
@[simp] theorem execFreqRestoreTimer_hide [May m .events] [May m .time] [May m .clock] (a0) (s : State) : hideO m (execFreqRestoreTimer a0 s) = some (hide m s) := by
  unfold execFreqRestoreTimer; (repeat' split) <;> simp
@[simp] theorem steerTo_hide [May m .time] (a0) (s : State) : hide m (steerTo a0 s) = hide m s := by simp [steerTo]
@[simp] theorem freqLocked_hide [May m .events] [May m .time] (s : State) : hide m (freqLocked s) = hide m s := by simp [freqLocked]
@[simp] theorem execFreqLockCheck_hide [May m .events] [May m .time] [May m .clock] (a0) (a1) (s : State) : hideO m (execFreqLockCheck a0 a1 s) = some (hide m s) := by simp [execFreqLockCheck]
@[simp] theorem timeMessage_hide [May m .events] (g b p) (f : State → State) (s : State) (h : ∀ s, hide m (f s) = hide m s) :
    hideO m (timeMessage g b p f s) = some (hide m s) := by
  unfold timeMessage; apply event_hide; intro s; (repeat' split) <;> simp [h]
@[simp] theorem execTimeSyncRx_hide [May m .events] [May m .time] [May m .clock] (a0) (a1) (a2) (s : State) : hideO m (execTimeSyncRx a0 a1 a2 s) = some (hide m s) := by simp [execTimeSyncRx]
@[simp] theorem execTimeFollowUpRx_hide [May m .events] [May m .time] (a0) (a1) (s : State) : hideO m (execTimeFollowUpRx a0 a1 s) = some (hide m s) := by simp [execTimeFollowUpRx]
@[simp] theorem execTimeDelayRespRx_hide [May m .events] [May m .time] (a0) (a1) (s : State) : hideO m (execTimeDelayRespRx a0 a1 s) = some (hide m s) := by simp [execTimeDelayRespRx]
@[simp] theorem execTimeAnnounceRx_hide [May m .events] [May m .time] (a0) (a1) (s : State) : hideO m (execTimeAnnounceRx a0 a1 s) = some (hide m s) := by simp [execTimeAnnounceRx]
@[simp] theorem execTimeExchangeTimeout_hide [May m .events] [May m .time] [May m .clock] (s : State) : hideO m (execTimeExchangeTimeout s) = some (hide m s) := by
  unfold execTimeExchangeTimeout; (repeat' split) <;> simp
@[simp] theorem execMasterAnnounceTimeout_hide [May m .events] [May m .time] [May m .clock] (a0) (s : State) : hideO m (execMasterAnnounceTimeout a0 s) = some (hide m s) := by
  unfold execMasterAnnounceTimeout; (repeat' split) <;> simp
@[simp] theorem execTimeHoldoverTimeout_hide [May m .events] [May m .time] [May m .clock] (s : State) : hideO m (execTimeHoldoverTimeout s) = some (hide m s) := by simp [execTimeHoldoverTimeout]
@[simp] theorem execTimeStepEdge_hide [May m .jobs] [May m .events] [May m .frontEnd] [May m .trigger] [May m .waveform] [May m .buffer] [May m .compression] [May m .time] [May m .clock] (s : State) : hideO m (execTimeStepEdge s) = some (hide m s) := by
  unfold execTimeStepEdge
  try dsimp only
  repeat' (first | (simp; done) | intro _ | split | with_reducible apply evChange_hide | with_reducible apply event_hide | with_reducible apply Eq.trans (hide_forAll _ _ _ _) | with_reducible apply Eq.trans (hide_when _ _ _ _) | with_reducible apply need_hide | with_reducible apply needState_hide | with_reducible apply needClaim_hide | with_reducible apply issue_hide | with_reducible apply call_hide | with_reducible apply callSel_hide | with_reducible assumption)
  done
@[simp] theorem ptpMessage_hide [May m .events] (g t b) (f : State → State) (s : State) (h : ∀ s, hide m (f s) = hide m s) :
    hideO m (ptpMessage g t b f s) = some (hide m s) := by
  unfold ptpMessage; apply event_hide; intro s; (repeat' split) <;> simp [h]
@[simp] theorem sendDelayReq_hide [May m .events] [May m .time] [May m .free] (a0) (a1) (s : State) : hide m (sendDelayReq a0 a1 s) = hide m s := by simp [sendDelayReq]
@[simp] theorem execPtpSyncRx_hide [May m .events] [May m .time] [May m .clock] [May m .free] (a0) (a1) (a2) (s : State) : hideO m (execPtpSyncRx a0 a1 a2 s) = some (hide m s) := by
  unfold execPtpSyncRx
  try dsimp only
  repeat' (first | (simp; done) | intro _ | split | with_reducible apply evChange_hide | with_reducible apply event_hide | with_reducible apply Eq.trans (hide_forAll _ _ _ _) | with_reducible apply Eq.trans (hide_when _ _ _ _) | with_reducible apply need_hide | with_reducible apply needState_hide | with_reducible apply needClaim_hide | with_reducible assumption)
  done
@[simp] theorem execPtpFollowUpRx_hide [May m .events] [May m .time] (a0) (a1) (s : State) : hideO m (execPtpFollowUpRx a0 a1 s) = some (hide m s) := by simp [execPtpFollowUpRx]
@[simp] theorem execPtpDelayRespRx_hide [May m .events] [May m .time] (a0) (a1) (s : State) : hideO m (execPtpDelayRespRx a0 a1 s) = some (hide m s) := by simp [execPtpDelayRespRx]
@[simp] theorem execPtpAnnounceRx_hide [May m .events] [May m .time] (a0) (a1) (s : State) : hideO m (execPtpAnnounceRx a0 a1 s) = some (hide m s) := by simp [execPtpAnnounceRx]
@[simp] theorem execPpsInEdge_hide [May m .events] [May m .time] [May m .clock] (a0) (s : State) : hideO m (execPpsInEdge a0 s) = some (hide m s) := by simp [execPpsInEdge]
@[simp] theorem execPpsLossTimeout_hide [May m .events] [May m .time] [May m .clock] (s : State) : hideO m (execPpsLossTimeout s) = some (hide m s) := by simp [execPpsLossTimeout]
@[simp] theorem execPpsOutPulse_hide [May m .events] [May m .time] [May m .clock] (s : State) : hideO m (execPpsOutPulse s) = some (hide m s) := by simp [execPpsOutPulse]
@[simp] theorem takeStamp_hide [May m .events] [May m .time] (a0) (a1) (s : State) : hide m (takeStamp a0 a1 s) = hide m s := by simp [takeStamp]
@[simp] theorem execTiEdge_hide [May m .events] [May m .time] [May m .clock] (a0) (a1) (s : State) : hideO m (execTiEdge a0 a1 s) = some (hide m s) := by simp [execTiEdge]
@[simp] theorem execFreqGateEnd_hide [May m .jobs] [May m .events] [May m .time] [May m .clock] (a0) (s : State) : hideO m (execFreqGateEnd a0 s) = some (hide m s) := by
  unfold execFreqGateEnd
  try dsimp only
  repeat' (first | (simp; done) | intro _ | split | with_reducible apply evChange_hide | with_reducible apply event_hide | with_reducible apply Eq.trans (hide_forAll _ _ _ _) | with_reducible apply Eq.trans (hide_when _ _ _ _) | with_reducible apply need_hide | with_reducible apply needState_hide | with_reducible apply needClaim_hide | with_reducible apply issue_hide | with_reducible apply call_hide | with_reducible apply callSel_hide | with_reducible assumption)
  done
@[simp] theorem execTimeStatus_hide [May m .mail] [May m .events] (a0) (s : State) : hideO m (execTimeStatus a0 s) = some (hide m s) := by simp [execTimeStatus]
@[simp] theorem execTimeNow_hide [May m .mail] [May m .events] (a0) (s : State) : hideO m (execTimeNow a0 s) = some (hide m s) := by simp [execTimeNow]
@[simp] theorem execTimeFreqConfig_hide [May m .mail] [May m .settings] [May m .events] [May m .time] (a0) (s : State) : hideO m (execTimeFreqConfig a0 s) = some (hide m s) := by simp [execTimeFreqConfig]
@[simp] theorem execTimeServoConfig_hide [May m .mail] [May m .settings] [May m .events] [May m .time] (a0) (s : State) : hideO m (execTimeServoConfig a0 s) = some (hide m s) := by simp [execTimeServoConfig]
@[simp] theorem execTimeSet_hide [May m .mail] [May m .events] [May m .time] (a0) (s : State) : hideO m (execTimeSet a0 s) = some (hide m s) := by
  unfold execTimeSet
  try dsimp only
  repeat' (first | (simp; done) | intro _ | split | with_reducible apply evChange_hide | with_reducible apply event_hide | with_reducible apply Eq.trans (hide_forAll _ _ _ _) | with_reducible apply Eq.trans (hide_when _ _ _ _) | with_reducible apply need_hide | with_reducible apply needState_hide | with_reducible apply needClaim_hide | with_reducible apply issue_hide | with_reducible apply call_hide | with_reducible apply callSel_hide | with_reducible assumption)
  done
@[simp] theorem execTimePtpConfig_hide [May m .mail] [May m .settings] [May m .events] (a0) (s : State) : hideO m (execTimePtpConfig a0 s) = some (hide m s) := by simp [execTimePtpConfig]
@[simp] theorem execTimePpsConfig_hide [May m .mail] [May m .settings] [May m .events] (a0) (s : State) : hideO m (execTimePpsConfig a0 s) = some (hide m s) := by simp [execTimePpsConfig]
@[simp] theorem execTiConfig_hide [May m .mail] [May m .settings] [May m .events] (a0) (s : State) : hideO m (execTiConfig a0 s) = some (hide m s) := by simp [execTiConfig]
@[simp] theorem execTiStampRead_hide [May m .mail] [May m .events] [May m .time] (a0) (s : State) : hideO m (execTiStampRead a0 s) = some (hide m s) := by simp [execTiStampRead]
@[simp] theorem execSplitConfig_hide [May m .mail] [May m .events] [May m .time] (a0) (s : State) : hideO m (execSplitConfig a0 s) = some (hide m s) := by simp [execSplitConfig]
@[simp] theorem splitResult_hide [May m .free] (a0) (s : State) : hide m (splitResult a0 s).2 = hide m s := by
  unfold splitResult; dsimp only; (repeat' split) <;> simp
@[simp] theorem execSplitRead_hide [May m .mail] [May m .events] [May m .time] [May m .free] (a0) (s : State) : hideO m (execSplitRead a0 s) = some (hide m s) := by
  unfold execSplitRead; apply call_hide; intro p s; apply need_hide; intro s; simp
@[simp] theorem execFreqStart_hide [May m .mail] [May m .jobs] [May m .events] [May m .time] (a0) (s : State) : hideO m (execFreqStart a0 s) = some (hide m s) := by
  unfold execFreqStart; apply call_hide; intro p s; apply need_hide; intro s; simp
@[simp] theorem execFreqRead_hide [May m .mail] [May m .events] [May m .free] (a0) (s : State) : hideO m (execFreqRead a0 s) = some (hide m s) := by
  unfold execFreqRead
  try dsimp only
  repeat' (first | (simp; done) | intro _ | split | with_reducible apply evChange_hide | with_reducible apply event_hide | with_reducible apply Eq.trans (hide_forAll _ _ _ _) | with_reducible apply Eq.trans (hide_when _ _ _ _) | with_reducible apply need_hide | with_reducible apply needState_hide | with_reducible apply needClaim_hide | with_reducible apply issue_hide | with_reducible apply call_hide | with_reducible apply callSel_hide | with_reducible assumption)
  done
@[simp] theorem execFreqStop_hide [May m .mail] [May m .jobs] [May m .events] [May m .time] (a0) (s : State) : hideO m (execFreqStop a0 s) = some (hide m s) := by simp [execFreqStop]
@[simp] theorem execTimeStats_hide [May m .mail] [May m .events] [May m .time] (a0) (s : State) : hideO m (execTimeStats a0 s) = some (hide m s) := by simp [execTimeStats]

/-! ImageOps -/

@[simp] theorem modChip_hide [May m .flash] (a0) (a1) (s : State) : hide m (modChip a0 a1 s) = hide m s := by
  unfold modChip; (repeat' split) <;> simp
@[simp] theorem setPol_hide [May m .frontEnd] (a0) (s : State) : hide m (setPol a0 s) = hide m s := by simp [setPol]
@[simp] theorem installValue_hide [May m .settings] [May m .events] [May m .frontEnd] [May m .trigger] [May m .buffer] [May m .compression] (a0) (a1) (s : State) : hide m (installValue a0 a1 s) = hide m s := by
  unfold installValue; (repeat' split) <;> simp
@[simp] theorem applyRecord_hide [May m .settings] [May m .events] [May m .frontEnd] [May m .trigger] [May m .buffer] [May m .compression] (a0) (a1) (s : State) : hide m (applyRecord a0 a1 s) = hide m s := by simp [applyRecord]
@[simp] theorem loadFrontEnd_hide [May m .events] [May m .frontEnd] (s : State) : hide m (loadFrontEnd s) = hide m s := by
  unfold loadFrontEnd; (repeat' split) <;> simp
@[simp] theorem loadTmCal_hide [May m .events] [May m .timing] (s : State) : hide m (loadTmCal s) = hide m s := by
  unfold loadTmCal; (repeat' split) <;> simp
@[simp] theorem loadSkew_hide [May m .events] [May m .timing] (s : State) : hide m (loadSkew s) = hide m s := by
  unfold loadSkew; (repeat' split) <;> simp
@[simp] theorem loadWalk_hide [May m .events] [May m .timing] (s : State) : hide m (loadWalk s) = hide m s := by
  unfold loadWalk; (repeat' split) <;> simp
@[simp] theorem loadInl_hide [May m .events] [May m .timing] (s : State) : hide m (loadInl s) = hide m s := by
  unfold loadInl; (repeat' split) <;> simp
@[simp] theorem loadTmOthers_hide [May m .events] [May m .timing] (s : State) : hide m (loadTmOthers s) = hide m s := by simp [loadTmOthers]
@[simp] theorem loadTables_hide [May m .events] [May m .timing] (s : State) : hide m (loadTables s) = hide m s := by simp [loadTables]
@[simp] theorem loadKernel_hide [May m .events] [May m .waveform] (a0) (s : State) : hide m (loadKernel a0 s) = hide m s := by
  unfold loadKernel; dsimp only; (repeat' split) <;> simp
@[simp] theorem loadKernels_hide [May m .events] [May m .waveform] (s : State) : hide m (loadKernels s) = hide m s := by simp [loadKernels]
@[simp] theorem applyDefects_hide [May m .buffer] (a0) (s : State) : hide m (applyDefects a0 s) = hide m s := by
  unfold applyDefects
  try dsimp only
  repeat' (first | (simp; done) | intro _ | split | with_reducible apply evChange_hide | with_reducible apply event_hide | with_reducible apply Eq.trans (hide_forAll _ _ _ _) | with_reducible apply Eq.trans (hide_when _ _ _ _) | with_reducible apply need_hide | with_reducible apply needState_hide | with_reducible apply needClaim_hide | with_reducible apply issue_hide | with_reducible apply call_hide | with_reducible apply callSel_hide | with_reducible assumption)
  done
@[simp] theorem autoTrim_hide [May m .jobs] [May m .frontEnd] [May m .free] (s : State) : hide m (autoTrim s) = hide m s := by simp [autoTrim]

/-! RedOps -/

@[simp] theorem dropJob_hide [May m .jobs] [May m .events] [May m .frontEnd] [May m .timing] [May m .buffer] [May m .time] [May m .slowControl] [May m .light] (a0) (a1) (a2) (s : State) : hide m (dropJob a0 a1 a2 s) = hide m s := by
  unfold dropJob
  try dsimp only
  repeat' (first | (simp; done) | intro _ | split | with_reducible apply evChange_hide | with_reducible apply event_hide | with_reducible apply Eq.trans (hide_forAll _ _ _ _) | with_reducible apply Eq.trans (hide_when _ _ _ _) | with_reducible apply need_hide | with_reducible apply needState_hide | with_reducible apply needClaim_hide | with_reducible apply issue_hide | with_reducible apply call_hide | with_reducible apply callSel_hide | with_reducible assumption)
  done
@[simp] theorem giveClaim_hide [May m .redundancy] (a0) (a1) (s : State) : hide m (giveClaim a0 a1 s) = hide m s := by simp [giveClaim]
@[simp] theorem claimLog_hide [May m .events] (a0) (a1) (a2) (a3) (s : State) : hide m (claimLog a0 a1 a2 a3 s) = hide m s := by simp [claimLog]
@[simp] theorem raiseClaims_hide [May m .events] [May m .links] [May m .redundancy] [May m .free] (a0) (a1) (a2) (a3) (s : State) : hide m (raiseClaims a0 a1 a2 a3 s) = hide m s := by simp [raiseClaims]
@[simp] theorem halfOff_hide [May m .host] [May m .redundancy] (a0) (s : State) : hide m (halfOff a0 s) = hide m s := by simp [halfOff]
@[simp] theorem rejoinFails_hide [May m .jobs] [May m .host] [May m .events] [May m .hitPath] [May m .redundancy] (a0) (s : State) : hide m (rejoinFails a0 s) = hide m s := by
  unfold rejoinFails; (repeat' split) <;> simp
@[simp] theorem abandonJob_hide [May m .jobs] [May m .host] [May m .events] [May m .frontEnd] [May m .timing] [May m .hitPath] [May m .buffer] [May m .time] [May m .slowControl] [May m .light] [May m .redundancy] (a0) (a1) (a2) (s : State) : hide m (abandonJob a0 a1 a2 s) = hide m s := by simp [abandonJob]
@[simp] theorem redStat_hide [May m .events] [May m .redundancy] (a0) (a1) (a2) (a3) (s : State) : hide m (redStat a0 a1 a2 a3 s) = hide m s := by simp [redStat]
@[simp] theorem failHold_hide [May m .events] [May m .buffer] (a0) (s : State) : hide m (failHold a0 s) = hide m s := by simp [failHold]
@[simp] theorem takeover_hide [May m .host] [May m .events] [May m .buffer] [May m .links] [May m .redundancy] [May m .free] (a0) (a1) (s : State) : hide m (takeover a0 a1 s) = hide m s := by simp [takeover]
@[simp] theorem tryTakeover_hide [May m .host] [May m .events] [May m .buffer] [May m .links] [May m .redundancy] [May m .free] (a0) (s : State) : hide m (tryTakeover a0 s) = hide m s := by simp [tryTakeover]
@[simp] theorem markFailed_hide [May m .jobs] [May m .host] [May m .events] [May m .hitPath] [May m .redundancy] (a0) (s : State) : hide m (markFailed a0 s) = hide m s := by simp [markFailed]
@[simp] theorem declareFailed_hide [May m .jobs] [May m .host] [May m .events] [May m .hitPath] [May m .buffer] [May m .links] [May m .redundancy] [May m .free] (a0) (s : State) : hide m (declareFailed a0 s) = hide m s := by simp [declareFailed]
@[simp] theorem judgeMissed_hide [May m .jobs] [May m .host] [May m .events] [May m .hitPath] [May m .buffer] [May m .links] [May m .redundancy] [May m .free] (a0) (s : State) : hide m (judgeMissed a0 s) = hide m s := by
  unfold judgeMissed; dsimp only; (repeat' split) <;> simp
@[simp] theorem isolate_hide [May m .events] [May m .redundancy] (a0) (s : State) : hide m (isolate a0 s) = hide m s := by simp [isolate]
@[simp] theorem serveRows_hide [May m .hitPath] (a0) (s : State) : hide m (serveRows a0 s) = hide m s := by simp [serveRows]
@[simp] theorem reassign_hide [May m .events] [May m .frontEnd] [May m .hitPath] [May m .buffer] [May m .compression] [May m .redundancy] (a0) (s : State) : hide m (reassign a0 s) = hide m s := by simp [reassign]
@[simp] theorem dropWaiters_hide [May m .links] [May m .power] [May m .safety] (s : State) : hide m (dropWaiters s) = hide m s := by simp [dropWaiters]
@[simp] theorem failMailboxes_hide [May m .mail] [May m .events] [May m .links] [May m .power] [May m .safety] (s : State) : hide m (failMailboxes s) = hide m s := by simp [failMailboxes]
@[simp] theorem finishTakeover_hide [May m .mail] [May m .jobs] [May m .host] [May m .events] [May m .frontEnd] [May m .timing] [May m .hitPath] [May m .buffer] [May m .compression] [May m .links] [May m .time] [May m .power] [May m .slowControl] [May m .light] [May m .safety] [May m .redundancy] (a0) (s : State) : hide m (finishTakeover a0 s) = hide m s := by simp [finishTakeover]
@[simp] theorem closeMoving_hide [May m .events] [May m .frontEnd] [May m .hitPath] [May m .buffer] [May m .compression] [May m .links] : ∀ (k n) (s : State), hide m (closeMoving k n s) = hide m s
  | 0, _, s => rfl
  | k + 1, n, s => by unfold closeMoving; split <;> simp [closeMoving_hide k]
@[simp] theorem finishRejoin_hide [May m .jobs] [May m .events] [May m .frontEnd] [May m .hitPath] [May m .buffer] [May m .compression] [May m .links] [May m .redundancy] [May m .free] (a0) (s : State) : hide m (finishRejoin a0 s) = hide m s := by simp [finishRejoin]

/-! BootOps -/

@[simp] theorem bootRecord_hide [May m .host] (a0) (a1) (a2) (a3) (a4) (s : State) : hide m (bootRecord a0 a1 a2 a3 a4 s) = hide m s := by simp [bootRecord]
@[simp] theorem enterBootHold_hide [May m .host] [May m .events] [May m .power] (a0) (s : State) : hide m (enterBootHold a0 s) = hide m s := by simp [enterBootHold]
@[simp] theorem moveLead_hide [May m .host] [May m .events] (a0) (s : State) : hide m (moveLead a0 s) = hide m s := by simp [moveLead]
@[simp] theorem unconfigure_hide [May m .mail] [May m .host] [May m .events] [May m .frontEnd] [May m .timing] [May m .hitPath] [May m .trigger] [May m .waveform] [May m .buffer] [May m .compression] [May m .links] [May m .power] [May m .slowControl] [May m .light] [May m .free] (s : State) : hide m (unconfigure s) = hide m s := by simp [unconfigure]
@[simp] theorem bootFrom4_hide [May m .mail] [May m .host] [May m .events] [May m .power] (a0) (s : State) : hide m (bootFrom4 a0 s) = hide m s := by simp [bootFrom4]
@[simp] theorem warmReset_hide [May m .mail] [May m .jobs] [May m .host] [May m .events] [May m .frontEnd] [May m .timing] [May m .hitPath] [May m .trigger] [May m .waveform] [May m .buffer] [May m .compression] [May m .links] [May m .time] [May m .power] [May m .slowControl] [May m .light] [May m .safety] [May m .redundancy] [May m .free] (s : State) : hide m (warmReset s) = hide m s := by simp [warmReset]
@[simp] theorem imagesSpent_hide [May m .host] [May m .events] [May m .power] (s : State) : hide m (imagesSpent s) = hide m s := by simp [imagesSpent]
@[simp] theorem negotiate_hide [May m .flash] [May m .host] [May m .events] (a0) (a1) (s : State) : hide m (negotiate a0 a1 s) = hide m s := by simp [negotiate]
@[simp] theorem bootNegotiate_hide [May m .flash] [May m .host] [May m .events] [May m .power] (a0) (a1) (s : State) : hide m (bootNegotiate a0 a1 s) = hide m s := by simp [bootNegotiate]
@[simp] theorem answerFlashInfo_hide [May m .mail] [May m .events] (a0) (s : State) : hide m (answerFlashInfo a0 s) = hide m s := by simp [answerFlashInfo]
@[simp] theorem startFirmware_hide [May m .host] [May m .redundancy] (a0) (s : State) : hide m (startFirmware a0 s) = hide m s := by simp [startFirmware]
@[simp] theorem acceptImage_hide [May m .host] [May m .redundancy] [May m .free] (a0) (a1) (s : State) : hide m (acceptImage a0 a1 s) = hide m s := by simp [acceptImage]
@[simp] theorem tryImage_hide [May m .host] [May m .events] [May m .power] [May m .redundancy] [May m .free] (a0) (a1) (a2) (s : State) : hide m (tryImage a0 a1 a2 s) = hide m s := by simp [tryImage]
@[simp] theorem defaultSettings_hide [May m .settings] [May m .buffer] (s : State) : hide m (defaultSettings s) = hide m s := by simp [defaultSettings]
@[simp] theorem applySettings_hide [May m .settings] [May m .host] [May m .events] [May m .frontEnd] [May m .trigger] [May m .buffer] [May m .compression] (s : State) : hide m (applySettings s) = hide m s := by
  unfold applySettings
  dsimp only
  split
  · simp
  · rw [hide_forAll]
    · simp
    · intro x s; simp
@[simp] theorem leadSetting_hide [May m .host] [May m .events] (s : State) : hide m (leadSetting s) = hide m s := by simp [leadSetting]
@[simp] theorem configure_hide [May m .jobs] [May m .events] [May m .frontEnd] [May m .timing] [May m .hitPath] [May m .waveform] [May m .buffer] [May m .compression] [May m .slowControl] [May m .light] [May m .safety] [May m .free] (s : State) : hide m (configure s) = hide m s := by simp [configure]
@[simp] theorem discardQueue_hide [May m .events] [May m .hitPath] [May m .buffer] [May m .compression] (a0) (s : State) : hide m (discardQueue a0 s) = hide m s := by simp [discardQueue]
@[simp] theorem failHalf_hide [May m .jobs] [May m .host] [May m .events] [May m .hitPath] [May m .buffer] [May m .links] [May m .redundancy] [May m .free] (a0) (s : State) : hide m (failHalf a0 s) = hide m s := by simp [failHalf]
@[simp] theorem failBootLead_hide [May m .jobs] [May m .host] [May m .events] [May m .hitPath] [May m .links] [May m .redundancy] [May m .free] (a0) (s : State) : hide m (failBootLead a0 s) = hide m s := by simp [failBootLead]
@[simp] theorem stopBoot_hide [May m .jobs] [May m .host] [May m .events] [May m .hitPath] [May m .redundancy] (s : State) : hide m (stopBoot s) = hide m s := by simp [stopBoot]
@[simp] theorem writeErase_hide [May m .flash] (a0) (a1) (s : State) : hide m (writeErase a0 a1 s) = hide m s := by simp [writeErase]
@[simp] theorem writeSave_hide [May m .flash] (a0) (a1) (a2) (s : State) : hide m (writeSave a0 a1 a2 s) = hide m s := by simp [writeSave]
@[simp] theorem writeFailed_hide [May m .flash] (a0) (s : State) : hide m (writeFailed a0 s) = hide m s := by simp [writeFailed]
@[simp] theorem writeJobEnds_hide [May m .jobs] [May m .events] (a0) (a1) (s : State) : hide m (writeJobEnds a0 a1 s) = hide m s := by simp [writeJobEnds]

/-! PowerOps -/

@[simp] theorem answerChange_hide [May m .mail] [May m .events] [May m .power] (a0) (a1) (s : State) : hide m (answerChange a0 a1 s) = hide m s := by
  unfold answerChange; (repeat' split) <;> simp
@[simp] theorem stateRates_hide [May m .mail] [May m .events] [May m .links] [May m .power] (s : State) : hide m (stateRates s) = hide m s := by simp [stateRates]
@[simp] theorem setPower_hide [May m .host] [May m .events] [May m .power] (a0) (a1) (s : State) : hide m (setPower a0 a1 s) = hide m s := by simp [setPower]
@[simp] theorem upToPaddle_hide [May m .settings] [May m .events] [May m .trigger] [May m .waveform] [May m .buffer] [May m .power] (s : State) : hide m (upToPaddle s) = hide m s := by simp [upToPaddle]
@[simp] theorem downToEasy_hide [May m .jobs] [May m .host] [May m .events] [May m .frontEnd] [May m .timing] [May m .hitPath] [May m .trigger] [May m .waveform] [May m .buffer] [May m .compression] [May m .time] [May m .slowControl] [May m .light] [May m .redundancy] (s : State) : hide m (downToEasy s) = hide m s := by simp [downToEasy]
@[simp] theorem enterState_hide [May m .mail] [May m .settings] [May m .jobs] [May m .host] [May m .events] [May m .frontEnd] [May m .timing] [May m .hitPath] [May m .trigger] [May m .waveform] [May m .buffer] [May m .compression] [May m .links] [May m .time] [May m .power] [May m .slowControl] [May m .light] [May m .redundancy] (a0) (a1) (s : State) : hide m (enterState a0 a1 s) = hide m s := by simp [enterState]
@[simp] theorem beginChange_hide [May m .power] (a0) (a1) (a2) (s : State) : hide m (beginChange a0 a1 a2 s) = hide m s := by simp [beginChange]
@[simp] theorem followTarget_hide [May m .power] (a0) (s : State) : hide m (followTarget a0 s) = hide m s := by
  unfold followTarget; (repeat' split) <;> simp
@[simp] theorem settleQueue_hide [May m .events] [May m .frontEnd] [May m .hitPath] [May m .buffer] [May m .compression] (a0) (s : State) : hide m (settleQueue a0 s) = hide m s := by simp [settleQueue]
@[simp] theorem beginHold_hide [May m .mail] [May m .jobs] [May m .host] [May m .events] [May m .frontEnd] [May m .timing] [May m .hitPath] [May m .buffer] [May m .compression] [May m .links] [May m .time] [May m .power] [May m .slowControl] [May m .light] [May m .redundancy] (a0) (s : State) : hide m (beginHold a0 s) = hide m s := by
  unfold beginHold; (repeat' split) <;> simp
@[simp] theorem stopTime_hide [May m .jobs] [May m .events] [May m .time] [May m .free] (s : State) : hide m (stopTime s) = hide m s := by simp [stopTime]
@[simp] theorem dropRing_hide [May m .events] (s : State) : hide m (dropRing s) = hide m s := by simp [dropRing]
@[simp] theorem halvesDown_hide [May m .host] [May m .redundancy] (s : State) : hide m (halvesDown s) = hide m s := by simp [halvesDown]
@[simp] theorem wakeStart_hide [May m .events] [May m .time] [May m .power] [May m .safety] [May m .sequencer] [May m .clock] (a0) (a1) (a2) (a3) (s : State) : hide m (wakeStart a0 a1 a2 a3 s) = hide m s := by simp [wakeStart]
@[simp] theorem holdOff_hide [May m .mail] [May m .jobs] [May m .host] [May m .events] [May m .frontEnd] [May m .timing] [May m .hitPath] [May m .trigger] [May m .waveform] [May m .buffer] [May m .compression] [May m .links] [May m .time] [May m .power] [May m .slowControl] [May m .light] [May m .redundancy] [May m .free] (s : State) : hide m (holdOff s) = hide m s := by simp [holdOff]
@[simp] theorem enterHold_hide [May m .mail] [May m .jobs] [May m .host] [May m .events] [May m .frontEnd] [May m .timing] [May m .hitPath] [May m .trigger] [May m .waveform] [May m .buffer] [May m .compression] [May m .links] [May m .time] [May m .power] [May m .slowControl] [May m .light] [May m .safety] [May m .redundancy] [May m .sequencer] [May m .clock] [May m .free] (s : State) : hide m (enterHold s) = hide m s := by
  unfold enterHold; (repeat' split) <;> simp
@[simp] theorem cyclesOver_hide [May m .free] (a0) (s : State) : hide m (cyclesOver a0 s).2 = hide m s := by simp [cyclesOver]
@[simp] theorem restartTime_hide [May m .events] [May m .time] [May m .free] (s : State) : hide m (restartTime s) = hide m s := by
  unfold restartTime; dsimp only; (repeat' split) <;> simp
@[simp] theorem reloadFrom_hide [May m .host] [May m .events] : ∀ (l) (s : State), hide m (reloadFrom l s).2 = hide m s
  | [], s => rfl
  | (cs, k) :: r, s => by unfold reloadFrom; dsimp only; split <;> simp [reloadFrom_hide r]
@[simp] theorem restoreHalf_hide [May m .host] [May m .events] (a0) (a1) (s : State) : hide m (restoreHalf a0 a1 s) = hide m s := by
  unfold restoreHalf; (repeat' split) <;> simp
@[simp] theorem restoreFails_hide [May m .jobs] [May m .host] [May m .events] [May m .hitPath] [May m .buffer] [May m .links] [May m .redundancy] [May m .free] (a0) (s : State) : hide m (restoreFails a0 s) = hide m s := by simp [restoreFails]
@[simp] theorem restoreQueues_hide [May m .events] [May m .buffer] (a0) (s : State) : hide m (restoreQueues a0 s) = hide m s := by simp [restoreQueues]
@[simp] theorem restoreTables_hide [May m .events] [May m .frontEnd] [May m .timing] [May m .waveform] (s : State) : hide m (restoreTables s) = hide m s := by simp [restoreTables]
@[simp] theorem startWindows_hide [May m .power] (s : State) : hide m (startWindows s) = hide m s := by simp [startWindows]
@[simp] theorem watchesBegin_hide [May m .frontEnd] [May m .power] (s : State) : hide m (watchesBegin s) = hide m s := by simp [watchesBegin]
@[simp] theorem enginesBegin_hide [May m .hitPath] (s : State) : hide m (enginesBegin s) = hide m s := by simp [enginesBegin]
@[simp] theorem unitsWake_hide [May m .compression] (s : State) : hide m (unitsWake s) = hide m s := by simp [unitsWake]
@[simp] theorem startEasy_hide [May m .events] [May m .frontEnd] [May m .hitPath] [May m .waveform] [May m .compression] [May m .power] (s : State) : hide m (startEasy s) = hide m s := by simp [startEasy]
@[simp] theorem engageStep_hide [May m .events] [May m .frontEnd] [May m .hitPath] [May m .waveform] [May m .buffer] [May m .compression] [May m .power] (a0) (s : State) : hide m (engageStep a0 s) = hide m s := by
  unfold engageStep; (repeat' split) <;> simp
@[simp] theorem unforce_hide [May m .events] [May m .frontEnd] [May m .hitPath] [May m .buffer] [May m .compression] (a0) (s : State) : hide m (unforce a0 s) = hide m s := by simp [unforce]
@[simp] theorem releaseStep_hide [May m .events] [May m .frontEnd] [May m .hitPath] [May m .waveform] [May m .buffer] [May m .compression] [May m .power] (a0) (s : State) : hide m (releaseStep a0 s) = hide m s := by
  unfold releaseStep; (repeat' split) <;> simp
@[simp] theorem tryEngage_hide [May m .events] [May m .frontEnd] [May m .hitPath] [May m .waveform] [May m .buffer] [May m .compression] [May m .power] (a0) (s : State) : hide m (tryEngage a0 s) = hide m s := by simp [tryEngage]
@[simp] theorem tryRelease_hide [May m .events] [May m .frontEnd] [May m .hitPath] [May m .waveform] [May m .buffer] [May m .compression] [May m .power] (a0) (s : State) : hide m (tryRelease a0 s) = hide m s := by simp [tryRelease]
@[simp] theorem tryUnreachable_hide [May m .events] [May m .power] (s : State) : hide m (tryUnreachable s) = hide m s := by simp [tryUnreachable]
@[simp] theorem governor_hide [May m .events] [May m .frontEnd] [May m .hitPath] [May m .waveform] [May m .buffer] [May m .compression] [May m .power] (s : State) : hide m (governor s) = hide m s := by simp [governor]
@[simp] theorem restoreGroup_hide [May m .links] [May m .power] (a0) (s : State) : hide m (restoreGroup a0 s) = hide m s := by simp [restoreGroup]

/-! Redundancy -/

@[simp] theorem execXlinkHeartbeatSend_hide [May m .events] [May m .time] [May m .redundancy] [May m .clock] (a0) (s : State) : hideO m (execXlinkHeartbeatSend a0 s) = some (hide m s) := by simp [execXlinkHeartbeatSend]
@[simp] theorem linkRestored_hide [May m .events] [May m .redundancy] (a0) (s : State) : hide m (linkRestored a0 s) = hide m s := by simp [linkRestored]
@[simp] theorem missBeats_hide [May m .events] [May m .redundancy] (a0) (a1) (s : State) : hide m (missBeats a0 a1 s) = hide m s := by simp [missBeats]
@[simp] theorem linkLost_hide [May m .jobs] [May m .host] [May m .events] [May m .hitPath] [May m .redundancy] (a0) (a1) (s : State) : hide m (linkLost a0 a1 s) = hide m s := by simp [linkLost]
@[simp] theorem beatGap_hide [May m .jobs] [May m .host] [May m .events] [May m .hitPath] [May m .redundancy] (a0) (s : State) : hide m (beatGap a0 s) = hide m s := by simp [beatGap]
@[simp] theorem execXlinkHeartbeatRx_hide [May m .jobs] [May m .host] [May m .events] [May m .hitPath] [May m .redundancy] (a0) (a1) (s : State) : hideO m (execXlinkHeartbeatRx a0 a1 s) = some (hide m s) := by simp [execXlinkHeartbeatRx]
@[simp] theorem execXlinkHeartbeatTimeout_hide [May m .jobs] [May m .host] [May m .events] [May m .hitPath] [May m .time] [May m .redundancy] [May m .clock] (a0) (a1) (s : State) : hideO m (execXlinkHeartbeatTimeout a0 a1 s) = some (hide m s) := by simp [execXlinkHeartbeatTimeout]
@[simp] theorem missPoll_hide [May m .events] [May m .redundancy] (a0) (s : State) : hide m (missPoll a0 s) = hide m s := by simp [missPoll]
@[simp] theorem pollArrives_hide [May m .events] [May m .redundancy] (a0) (a1) (s : State) : hide m (pollArrives a0 a1 s) = hide m s := by simp [pollArrives]
@[simp] theorem execArbPoll_hide [May m .jobs] [May m .host] [May m .events] [May m .hitPath] [May m .buffer] [May m .links] [May m .time] [May m .redundancy] [May m .clock] [May m .free] (a0) (a1) (s : State) : hideO m (execArbPoll a0 a1 s) = some (hide m s) := by simp [execArbPoll]
@[simp] theorem answerSettles_hide [May m .jobs] [May m .host] [May m .events] [May m .hitPath] [May m .buffer] [May m .links] [May m .redundancy] [May m .free] (a0) (s : State) : hide m (answerSettles a0 s) = hide m s := by simp [answerSettles]
@[simp] theorem execArbPollAnswer_hide [May m .jobs] [May m .host] [May m .events] [May m .hitPath] [May m .buffer] [May m .links] [May m .redundancy] [May m .free] (a0) (a1) (s : State) : hideO m (execArbPollAnswer a0 a1 s) = some (hide m s) := by simp [execArbPollAnswer]
@[simp] theorem execArbLostTimeout_hide [May m .events] [May m .time] [May m .redundancy] [May m .clock] (a0) (s : State) : hideO m (execArbLostTimeout a0 s) = some (hide m s) := by simp [execArbLostTimeout]
@[simp] theorem execTakeoverComplete_hide [May m .mail] [May m .jobs] [May m .host] [May m .events] [May m .frontEnd] [May m .timing] [May m .hitPath] [May m .buffer] [May m .compression] [May m .links] [May m .time] [May m .power] [May m .slowControl] [May m .light] [May m .safety] [May m .redundancy] (s : State) : hideO m (execTakeoverComplete s) = some (hide m s) := by
  unfold execTakeoverComplete; (repeat' split) <;> simp
@[simp] theorem grantFalls_hide [May m .jobs] [May m .host] [May m .events] [May m .hitPath] [May m .buffer] [May m .links] [May m .redundancy] [May m .free] (a0) (s : State) : hide m (grantFalls a0 s) = hide m s := by simp [grantFalls]
@[simp] theorem execArbGntChange_hide [May m .jobs] [May m .host] [May m .events] [May m .hitPath] [May m .buffer] [May m .links] [May m .redundancy] [May m .free] (a0) (a1) (s : State) : hideO m (execArbGntChange a0 a1 s) = some (hide m s) := by simp [execArbGntChange]
@[simp] theorem execRejoinTick_hide [May m .jobs] [May m .host] [May m .events] [May m .frontEnd] [May m .hitPath] [May m .buffer] [May m .compression] [May m .links] [May m .time] [May m .redundancy] [May m .clock] [May m .free] (s : State) : hideO m (execRejoinTick s) = some (hide m s) := by
  unfold execRejoinTick; (repeat' split) <;> simp
@[simp] theorem execArbiterTmrVote_hide [May m .events] [May m .redundancy] (a0) (s : State) : hideO m (execArbiterTmrVote a0 s) = some (hide m s) := by simp [execArbiterTmrVote]
@[simp] theorem execRedStatus_hide [May m .mail] [May m .events] (a0) (s : State) : hideO m (execRedStatus a0 s) = some (hide m s) := by simp [execRedStatus]
@[simp] theorem execRedClaimRead_hide [May m .mail] [May m .events] (a0) (s : State) : hideO m (execRedClaimRead a0 s) = some (hide m s) := by simp [execRedClaimRead]
@[simp] theorem rejoinBegin_hide [May m .redundancy] (a0) (a1) (a2) (s : State) : hide m (rejoinBegin a0 a1 a2 s) = hide m s := by simp [rejoinBegin]
@[simp] theorem execRedRejoin_hide [May m .mail] [May m .jobs] [May m .events] [May m .redundancy] (a0) (s : State) : hideO m (execRedRejoin a0 s) = some (hide m s) := by
  unfold execRedRejoin
  try dsimp only
  repeat' (first | (simp; done) | intro _ | split | with_reducible apply evChange_hide | with_reducible apply event_hide | with_reducible apply Eq.trans (hide_forAll _ _ _ _) | with_reducible apply Eq.trans (hide_when _ _ _ _) | with_reducible apply need_hide | with_reducible apply needState_hide | with_reducible apply needClaim_hide | with_reducible apply issue_hide | with_reducible apply call_hide | with_reducible apply callSel_hide | with_reducible assumption)
  done
@[simp] theorem writeMirror_hide [May m .flash] (a0) (a1) (s : State) : hide m (writeMirror a0 a1 s) = hide m s := by simp [writeMirror]
@[simp] theorem execFlogMirror_hide [May m .mail] [May m .jobs] [May m .events] (a0) (s : State) : hideO m (execFlogMirror a0 s) = some (hide m s) := by
  unfold execFlogMirror
  try dsimp only
  repeat' (first | (simp; done) | intro _ | split | with_reducible apply evChange_hide | with_reducible apply event_hide | with_reducible apply Eq.trans (hide_forAll _ _ _ _) | with_reducible apply Eq.trans (hide_when _ _ _ _) | with_reducible apply need_hide | with_reducible apply needState_hide | with_reducible apply needClaim_hide | with_reducible apply issue_hide | with_reducible apply call_hide | with_reducible apply callSel_hide | with_reducible assumption)
  done
@[simp] theorem execFlogMirrorRead_hide [May m .mail] [May m .events] (a0) (s : State) : hideO m (execFlogMirrorRead a0 s) = some (hide m s) := by
  unfold execFlogMirrorRead
  try dsimp only
  repeat' (first | (simp; done) | intro _ | split | with_reducible apply evChange_hide | with_reducible apply event_hide | with_reducible apply Eq.trans (hide_forAll _ _ _ _) | with_reducible apply Eq.trans (hide_when _ _ _ _) | with_reducible apply need_hide | with_reducible apply needState_hide | with_reducible apply needClaim_hide | with_reducible apply issue_hide | with_reducible apply call_hide | with_reducible apply callSel_hide | with_reducible assumption)
  done

/-! System -/

@[simp] theorem execUnknownCall_hide [May m .mail] [May m .events] (a0) (s : State) : hideO m (execUnknownCall a0 s) = some (hide m s) := by simp [execUnknownCall]
@[simp] theorem callThen_hide [May m .mail] [May m .events] (n code sel a len) (act : List Byte → State → Reply) (f : List Byte → State → State) (s : State)
    (h : ∀ p s, hideR m (act p s) = hide m s) (hf : ∀ p s, hide m (f p s) = hide m s) :
    hideO m (callThen n code sel a len act f s) = some (hide m s) := by
  unfold callThen; apply event_hide; intro s; dsimp only
  have hc : hideR m (checkCall n code a len act s) = hide m s := checkCall_hide n code a len act s h
  revert hc
  cases checkCall n code a len act s with
  | done st bs t => intro hc; dsimp only; split <;> simpa [hf] using hc
  | later t => intro hc; simpa using hc
@[simp] theorem execSysNop_hide [May m .mail] [May m .events] (a0) (s : State) : hideO m (execSysNop a0 s) = some (hide m s) := by simp [execSysNop]
@[simp] theorem execSysIdent_hide [May m .mail] [May m .events] (a0) (s : State) : hideO m (execSysIdent a0 s) = some (hide m s) := by simp [execSysIdent]
@[simp] theorem execSysResetWarm_hide [May m .mail] [May m .jobs] [May m .host] [May m .events] [May m .frontEnd] [May m .timing] [May m .hitPath] [May m .trigger] [May m .waveform] [May m .buffer] [May m .compression] [May m .links] [May m .time] [May m .power] [May m .slowControl] [May m .light] [May m .safety] [May m .redundancy] [May m .free] (a0) (s : State) : hideO m (execSysResetWarm a0 s) = some (hide m s) := by simp [execSysResetWarm]
@[simp] theorem restartCox_hide [May m .jobs] [May m .host] [May m .events] [May m .frontEnd] [May m .timing] [May m .hitPath] [May m .buffer] [May m .time] [May m .slowControl] [May m .light] [May m .redundancy] (a0) (s : State) : hide m (restartCox a0 s) = hide m s := by simp [restartCox]
@[simp] theorem execSysResetCox_hide [May m .mail] [May m .jobs] [May m .host] [May m .events] [May m .frontEnd] [May m .timing] [May m .hitPath] [May m .buffer] [May m .time] [May m .slowControl] [May m .light] [May m .redundancy] (mb) (s : State) : hideO m (execSysResetCox mb s) = some (hide m s) := by
  unfold execSysResetCox
  apply callThen_hide
  · intro p s; simp
  · intro p s; dsimp only; rw [restartCox_hide]; split <;> simp
@[simp] theorem execSysResetBoth_hide [May m .mail] [May m .jobs] [May m .host] [May m .events] [May m .frontEnd] [May m .timing] [May m .hitPath] [May m .trigger] [May m .waveform] [May m .buffer] [May m .compression] [May m .links] [May m .time] [May m .power] [May m .slowControl] [May m .light] [May m .safety] [May m .redundancy] [May m .free] (a0) (s : State) : hideO m (execSysResetBoth a0 s) = some (hide m s) := by simp [execSysResetBoth]
@[simp] theorem execSysLeadSet_hide [May m .mail] [May m .host] [May m .events] (a0) (s : State) : hideO m (execSysLeadSet a0 s) = some (hide m s) := by
  unfold execSysLeadSet; apply call_hide; intro p s; apply need_hide; intro s; simp
@[simp] theorem execSysBootReport_hide [May m .mail] [May m .events] (a0) (s : State) : hideO m (execSysBootReport a0 s) = some (hide m s) := by simp [execSysBootReport]
@[simp] theorem execSysFlashInfo_hide [May m .mail] [May m .events] (a0) (s : State) : hideO m (execSysFlashInfo a0 s) = some (hide m s) := by
  unfold execSysFlashInfo; apply call_hide; intro p s; apply need_hide; intro s; simp
@[simp] theorem execSysSettingRead_hide [May m .mail] [May m .events] (a0) (s : State) : hideO m (execSysSettingRead a0 s) = some (hide m s) := by
  unfold execSysSettingRead
  try dsimp only
  repeat' (first | (simp; done) | intro _ | split | with_reducible apply evChange_hide | with_reducible apply event_hide | with_reducible apply Eq.trans (hide_forAll _ _ _ _) | with_reducible apply Eq.trans (hide_when _ _ _ _) | with_reducible apply need_hide | with_reducible apply needState_hide | with_reducible apply needClaim_hide | with_reducible apply issue_hide | with_reducible apply call_hide | with_reducible apply callSel_hide | with_reducible assumption)
  done
@[simp] theorem touchInactive_hide [May m .flash] (s : State) : hide m (touchInactive s) = hide m s := by simp [touchInactive]
@[simp] theorem execSysSettingsSave_hide [May m .mail] [May m .jobs] [May m .flash] [May m .events] (a0) (s : State) : hideO m (execSysSettingsSave a0 s) = some (hide m s) := by
  unfold execSysSettingsSave
  try dsimp only
  repeat' (first | (simp; done) | intro _ | split | with_reducible apply evChange_hide | with_reducible apply event_hide | with_reducible apply Eq.trans (hide_forAll _ _ _ _) | with_reducible apply Eq.trans (hide_when _ _ _ _) | with_reducible apply need_hide | with_reducible apply needState_hide | with_reducible apply needClaim_hide | with_reducible apply issue_hide | with_reducible apply call_hide | with_reducible apply callSel_hide | with_reducible assumption)
  done
@[simp] theorem commitOn_hide [May m .flash] [May m .events] [May m .free] (a0) (a1) (s : State) : hide m (commitOn a0 a1 s).2 = hide m s := by
  unfold commitOn; dsimp only; (repeat' split) <;> simp
@[simp] theorem execSysImageCommit_hide [May m .mail] [May m .flash] [May m .events] [May m .free] (a0) (s : State) : hideO m (execSysImageCommit a0 s) = some (hide m s) := by
  unfold execSysImageCommit; apply call_hide; intro p s; apply need_hide; intro s; simp
@[simp] theorem execSysJobStatus_hide [May m .mail] [May m .events] [May m .free] (a0) (s : State) : hideO m (execSysJobStatus a0 s) = some (hide m s) := by
  unfold execSysJobStatus
  try dsimp only
  repeat' (first | (simp; done) | intro _ | split | with_reducible apply evChange_hide | with_reducible apply event_hide | with_reducible apply Eq.trans (hide_forAll _ _ _ _) | with_reducible apply Eq.trans (hide_when _ _ _ _) | with_reducible apply need_hide | with_reducible apply needState_hide | with_reducible apply needClaim_hide | with_reducible apply issue_hide | with_reducible apply call_hide | with_reducible apply callSel_hide | with_reducible assumption)
  done
@[simp] theorem execSysImageBegin_hide [May m .mail] [May m .jobs] [May m .flash] [May m .events] (a0) (s : State) : hideO m (execSysImageBegin a0 s) = some (hide m s) := by
  unfold execSysImageBegin
  try dsimp only
  repeat' (first | (simp; done) | intro _ | split | with_reducible apply evChange_hide | with_reducible apply event_hide | with_reducible apply Eq.trans (hide_forAll _ _ _ _) | with_reducible apply Eq.trans (hide_when _ _ _ _) | with_reducible apply need_hide | with_reducible apply needState_hide | with_reducible apply needClaim_hide | with_reducible apply issue_hide | with_reducible apply call_hide | with_reducible apply callSel_hide | with_reducible assumption)
  done
@[simp] theorem execSysImageData_hide [May m .mail] [May m .flash] [May m .events] (a0) (s : State) : hideO m (execSysImageData a0 s) = some (hide m s) := by
  unfold execSysImageData; apply call_hide; intro p s; apply need_hide; intro s; simp
@[simp] theorem execSysImageVerify_hide [May m .mail] [May m .jobs] [May m .events] (a0) (s : State) : hideO m (execSysImageVerify a0 s) = some (hide m s) := by
  unfold execSysImageVerify
  try dsimp only
  repeat' (first | (simp; done) | intro _ | split | with_reducible apply evChange_hide | with_reducible apply event_hide | with_reducible apply Eq.trans (hide_forAll _ _ _ _) | with_reducible apply Eq.trans (hide_when _ _ _ _) | with_reducible apply need_hide | with_reducible apply needState_hide | with_reducible apply needClaim_hide | with_reducible apply issue_hide | with_reducible apply call_hide | with_reducible apply callSel_hide | with_reducible assumption)
  done
@[simp] theorem execSysRollbackAdvance_hide [May m .mail] [May m .host] [May m .events] (a0) (s : State) : hideO m (execSysRollbackAdvance a0 s) = some (hide m s) := by
  unfold execSysRollbackAdvance
  try dsimp only
  repeat' (first | (simp; done) | intro _ | split | with_reducible apply evChange_hide | with_reducible apply event_hide | with_reducible apply Eq.trans (hide_forAll _ _ _ _) | with_reducible apply Eq.trans (hide_when _ _ _ _) | with_reducible apply need_hide | with_reducible apply needState_hide | with_reducible apply needClaim_hide | with_reducible apply issue_hide | with_reducible apply call_hide | with_reducible apply callSel_hide | with_reducible assumption)
  done
@[simp] theorem execSysLifecycleAdvance_hide [May m .mail] [May m .host] [May m .events] (a0) (s : State) : hideO m (execSysLifecycleAdvance a0 s) = some (hide m s) := by
  unfold execSysLifecycleAdvance; apply call_hide; intro p s; apply need_hide; intro s; simp
@[simp] theorem execSysKeyRevoke_hide [May m .mail] [May m .host] [May m .events] (a0) (s : State) : hideO m (execSysKeyRevoke a0 s) = some (hide m s) := by
  unfold execSysKeyRevoke; apply call_hide; intro p s; apply need_hide; intro s; simp
@[simp] theorem trimDone_hide [May m .events] [May m .frontEnd] (a0) (a1) (s : State) : hide m (trimDone a0 a1 s) = hide m s := by simp [trimDone]
@[simp] theorem scurveDone_hide [May m .frontEnd] (a0) (a1) (s : State) : hide m (scurveDone a0 a1 s) = hide m s := by simp [scurveDone]
@[simp] theorem bumpDone_hide [May m .events] [May m .frontEnd] (a0) (a1) (a2) (s : State) : hide m (bumpDone a0 a1 a2 s) = hide m s := by simp [bumpDone]
@[simp] theorem chargeDone_hide [May m .frontEnd] (a0) (a1) (s : State) : hide m (chargeDone a0 a1 s) = hide m s := by simp [chargeDone]
@[simp] theorem walkBlock_hide [May m .timing] (a0) (a1) (s : State) : hide m (walkBlock a0 a1 s) = hide m s := by simp [walkBlock]
@[simp] theorem walkDone_hide [May m .timing] (a0) (a1) (s : State) : hide m (walkDone a0 a1 s) = hide m s := by simp [walkDone]
@[simp] theorem saveDone_hide [May m .jobs] [May m .flash] [May m .events] (a0) (a1) (s : State) : hide m (saveDone a0 a1 s) = hide m s := by simp [saveDone]
@[simp] theorem beginDone_hide [May m .jobs] [May m .flash] [May m .events] (a0) (a1) (s : State) : hide m (beginDone a0 a1 s) = hide m s := by simp [beginDone]
@[simp] theorem verifyDone_hide [May m .jobs] [May m .flash] [May m .events] (a0) (a1) (s : State) : hide m (verifyDone a0 a1 s) = hide m s := by simp [verifyDone]
@[simp] theorem trainDone_hide [May m .jobs] [May m .events] [May m .frontEnd] [May m .hitPath] [May m .buffer] [May m .compression] (a0) (a1) (s : State) : hide m (trainDone a0 a1 s) = hide m s := by simp [trainDone]
@[simp] theorem scrubDone_hide [May m .jobs] [May m .events] [May m .buffer] (a0) (s : State) : hide m (scrubDone a0 s) = hide m s := by simp [scrubDone]
@[simp] theorem mirrorDone_hide [May m .jobs] [May m .flash] [May m .events] (a0) (a1) (s : State) : hide m (mirrorDone a0 a1 s) = hide m s := by simp [mirrorDone]
@[simp] theorem scanDone_hide [May m .jobs] [May m .events] [May m .frontEnd] [May m .timing] (a0) (a1) (s : State) : hide m (scanDone a0 a1 s) = hide m s := by
  unfold scanDone; (repeat' split) <;> simp
@[simp] theorem skewReach_hide [May m .events] [May m .time] [May m .clock] (a0) (s : State) : hide m (skewReach a0 s) = hide m s := by
  unfold skewReach; (repeat' split) <;> simp
@[simp] theorem finishJob_hide [May m .jobs] [May m .flash] [May m .host] [May m .events] [May m .frontEnd] [May m .timing] [May m .hitPath] [May m .buffer] [May m .compression] [May m .time] [May m .light] [May m .redundancy] [May m .clock] (a0) (a1) (s : State) : hide m (finishJob a0 a1 s) = hide m s := by
  unfold finishJob; (repeat' split) <;> simp
@[simp] theorem execJobComplete_hide [May m .jobs] [May m .flash] [May m .host] [May m .events] [May m .frontEnd] [May m .timing] [May m .hitPath] [May m .buffer] [May m .compression] [May m .time] [May m .light] [May m .redundancy] [May m .clock] (a0) (a1) (s : State) : hideO m (execJobComplete a0 a1 s) = some (hide m s) := by
  unfold execJobComplete; (repeat' split) <;> simp
@[simp] theorem beginJob_hide [May m .jobs] [May m .events] [May m .frontEnd] [May m .timing] [May m .buffer] [May m .power] (a0) (s : State) : hide m (beginJob a0 s) = hide m s := by
  unfold beginJob; (repeat' split) <;> simp
@[simp] theorem execJobDeferredStart_hide [May m .jobs] [May m .events] [May m .frontEnd] [May m .timing] [May m .buffer] [May m .power] (a0) (s : State) : hideO m (execJobDeferredStart a0 s) = some (hide m s) := by
  unfold execJobDeferredStart; (repeat' split) <;> simp

/-! Boot -/

@[simp] theorem execPd0Running_hide [May m .host] (s : State) : hideO m (execPd0Running s) = some (hide m s) := by simp [execPd0Running]
@[simp] theorem execCoxBootRomStart_hide [May m .host] (s : State) : hideO m (execCoxBootRomStart s) = some (hide m s) := by simp [execCoxBootRomStart]
@[simp] theorem leadReady_hide [May m .host] [May m .events] [May m .power] (s : State) : hide m (leadReady s) = hide m s := by simp [leadReady]
@[simp] theorem execCoxRomReady_hide [May m .host] [May m .events] [May m .power] [May m .redundancy] (a0) (s : State) : hideO m (execCoxRomReady a0 s) = some (hide m s) := by
  unfold execCoxRomReady
  try dsimp only
  repeat' (first | (simp; done) | intro _ | split | with_reducible apply evChange_hide | with_reducible apply event_hide | with_reducible apply Eq.trans (hide_forAll _ _ _ _) | with_reducible apply Eq.trans (hide_when _ _ _ _) | with_reducible apply need_hide | with_reducible apply needState_hide | with_reducible apply needClaim_hide | with_reducible apply issue_hide | with_reducible apply call_hide | with_reducible apply callSel_hide | with_reducible assumption)
  done
@[simp] theorem romFails_hide [May m .jobs] [May m .host] [May m .events] [May m .hitPath] [May m .links] [May m .power] [May m .redundancy] [May m .free] (a0) (s : State) : hide m (romFails a0 s) = hide m s := by simp [romFails]
@[simp] theorem execBootRomReadyTimeout_hide [May m .jobs] [May m .host] [May m .events] [May m .hitPath] [May m .links] [May m .time] [May m .power] [May m .redundancy] [May m .clock] [May m .free] (s : State) : hideO m (execBootRomReadyTimeout s) = some (hide m s) := by simp [execBootRomReadyTimeout]
@[simp] theorem execFlashNegotiation_hide [May m .mail] [May m .flash] [May m .host] [May m .events] [May m .power] (a0) (a1) (s : State) : hideO m (execFlashNegotiation a0 a1 s) = some (hide m s) := by simp [execFlashNegotiation]
@[simp] theorem execBootImageCheck_hide [May m .host] [May m .events] [May m .power] [May m .redundancy] [May m .free] (a0) (a1) (a2) (s : State) : hideO m (execBootImageCheck a0 a1 a2 s) = some (hide m s) := by simp [execBootImageCheck]
@[simp] theorem execSettingsApply_hide [May m .settings] [May m .jobs] [May m .host] [May m .events] [May m .frontEnd] [May m .timing] [May m .hitPath] [May m .trigger] [May m .waveform] [May m .buffer] [May m .compression] [May m .slowControl] [May m .light] [May m .safety] [May m .free] (s : State) : hideO m (execSettingsApply s) = some (hide m s) := by simp [execSettingsApply]
@[simp] theorem execMemTrainingDone_hide [May m .host] [May m .events] [May m .frontEnd] [May m .hitPath] [May m .buffer] [May m .compression] (a0) (s : State) : hideO m (execMemTrainingDone a0 s) = some (hide m s) := by
  unfold execMemTrainingDone
  try dsimp only
  repeat' (first | (simp; done) | intro _ | split | with_reducible apply evChange_hide | with_reducible apply event_hide | with_reducible apply Eq.trans (hide_forAll _ _ _ _) | with_reducible apply Eq.trans (hide_when _ _ _ _) | with_reducible apply need_hide | with_reducible apply needState_hide | with_reducible apply needClaim_hide | with_reducible apply issue_hide | with_reducible apply call_hide | with_reducible apply callSel_hide | with_reducible assumption)
  done
@[simp] theorem execTimeCoreStart_hide [May m .mail] [May m .host] [May m .events] [May m .frontEnd] [May m .hitPath] [May m .trigger] [May m .buffer] [May m .compression] [May m .links] [May m .time] [May m .power] [May m .free] (s : State) : hideO m (execTimeCoreStart s) = some (hide m s) := by simp [execTimeCoreStart]
@[simp] theorem execBootLinkWaitExpiry_hide [May m .host] [May m .events] [May m .time] [May m .clock] (s : State) : hideO m (execBootLinkWaitExpiry s) = some (hide m s) := by simp [execBootLinkWaitExpiry]
@[simp] theorem execBootEnterEasy_hide [May m .host] [May m .events] [May m .frontEnd] [May m .hitPath] [May m .waveform] [May m .compression] [May m .power] (s : State) : hideO m (execBootEnterEasy s) = some (hide m s) := by simp [execBootEnterEasy]
@[simp] theorem execCoxFirmwareReloaded_hide [May m .host] [May m .redundancy] (a0) (s : State) : hideO m (execCoxFirmwareReloaded a0 s) = some (hide m s) := by simp [execCoxFirmwareReloaded]
@[simp] theorem execCoxRestartTimeout_hide [May m .jobs] [May m .host] [May m .events] [May m .hitPath] [May m .buffer] [May m .links] [May m .time] [May m .redundancy] [May m .clock] [May m .free] (a0) (s : State) : hideO m (execCoxRestartTimeout a0 s) = some (hide m s) := by simp [execCoxRestartTimeout]
@[simp] theorem execCoxMemScrub_hide [May m .jobs] [May m .host] [May m .events] [May m .frontEnd] [May m .timing] [May m .hitPath] [May m .buffer] [May m .links] [May m .time] [May m .slowControl] [May m .light] [May m .redundancy] [May m .free] (a0) (a1) (a2) (s : State) : hideO m (execCoxMemScrub a0 a1 a2 s) = some (hide m s) := by simp [execCoxMemScrub]
@[simp] theorem execWakeHalfAnswerTimeout_hide [May m .jobs] [May m .host] [May m .events] [May m .hitPath] [May m .buffer] [May m .links] [May m .time] [May m .redundancy] [May m .clock] [May m .free] (a0) (s : State) : hideO m (execWakeHalfAnswerTimeout a0 s) = some (hide m s) := by simp [execWakeHalfAnswerTimeout]

/-! HitPath -/

@[simp] theorem popPort_hide [May m .frontEnd] (a0) (a1) (s : State) : hide m (popPort a0 a1 s) = hide m s := by simp [popPort]
@[simp] theorem countHit_hide [May m .events] [May m .timing] [May m .hitPath] [May m .power] (a0) (a1) (a2) (a3) (a4) (s : State) : hide m (countHit a0 a1 a2 a3 a4 s) = hide m s := by simp [countHit]
@[simp] theorem divertHit_hide [May m .events] [May m .hitPath] (a0) (s : State) : hide m (divertHit a0 s) = hide m s := by simp [divertHit]
@[simp] theorem forwardHit_hide [May m .events] [May m .frontEnd] [May m .timing] [May m .hitPath] [May m .buffer] [May m .compression] [May m .links] (a0) (a1) (a2) (a3) (s : State) : hide m (forwardHit a0 a1 a2 a3 s) = hide m s := by simp [forwardHit]
@[simp] theorem takeHit_hide [May m .events] [May m .frontEnd] [May m .timing] [May m .hitPath] [May m .buffer] [May m .compression] [May m .links] (a0) (a1) (s : State) : hide m (takeHit a0 a1 s) = hide m s := by simp [takeHit]
@[simp] theorem drainInBuf_hide [May m .events] [May m .frontEnd] [May m .timing] [May m .hitPath] [May m .buffer] [May m .compression] [May m .links] (a0) (s : State) : hide m (drainInBuf a0 s) = hide m s := by simp [drainInBuf]
@[simp] theorem zeroEntry_hide [May m .timing] (a0) (s : State) : hide m (zeroEntry a0 s) = hide m s := by simp [zeroEntry]
@[simp] theorem checkEntry_hide [May m .events] [May m .timing] (a0) (a1) (a2) (a3) (s : State) : hide m (checkEntry a0 a1 a2 a3 s) = hide m s := by simp [checkEntry]
@[simp] theorem dropHit_hide [May m .events] [May m .frontEnd] [May m .hitPath] [May m .buffer] [May m .compression] (a0) (a1) (s : State) : hide m (dropHit a0 a1 s) = hide m s := by simp [dropHit]
@[simp] theorem hearHit_hide [May m .events] [May m .frontEnd] [May m .timing] [May m .hitPath] [May m .buffer] [May m .compression] [May m .links] [May m .power] (a0) (a1) (a2) (a3) (s : State) : hide m (hearHit a0 a1 a2 a3 s) = hide m s := by simp [hearHit]
@[simp] theorem portReach_hide [May m .events] [May m .time] [May m .clock] (a0) (a1) (s : State) : hide m (portReach a0 a1 s) = hide m s := by
  unfold portReach; dsimp only; (repeat' split) <;> simp
@[simp] theorem execHitFrameReceived_hide [May m .events] [May m .frontEnd] [May m .timing] [May m .hitPath] [May m .buffer] [May m .compression] [May m .links] [May m .time] [May m .power] [May m .clock] (a0) (a1) (a2) (s : State) : hideO m (execHitFrameReceived a0 a1 a2 s) = some (hide m s) := by
  unfold execHitFrameReceived; dsimp only; (repeat' split) <;> simp
@[simp] theorem execWatermarkReceived_hide [May m .events] [May m .frontEnd] [May m .hitPath] [May m .time] [May m .clock] (a0) (s : State) : hideO m (execWatermarkReceived a0 s) = some (hide m s) := by
  unfold execWatermarkReceived; (repeat' split) <;> simp
@[simp] theorem execPortLossReceived_hide [May m .events] [May m .frontEnd] [May m .hitPath] [May m .buffer] [May m .compression] [May m .time] [May m .clock] (a0) (s : State) : hideO m (execPortLossReceived a0 s) = some (hide m s) := by
  unfold execPortLossReceived; (repeat' split) <;> simp
@[simp] theorem execPortFramingError_hide [May m .events] [May m .frontEnd] [May m .hitPath] (a0) (a1) (s : State) : hideO m (execPortFramingError a0 a1 s) = some (hide m s) := by simp [execPortFramingError]
@[simp] theorem execClusterClose_hide [May m .events] [May m .frontEnd] [May m .timing] [May m .hitPath] [May m .buffer] [May m .compression] [May m .links] [May m .time] [May m .clock] (a0) (a1) (s : State) : hideO m (execClusterClose a0 a1 s) = some (hide m s) := by
  unfold execClusterClose; dsimp only; (repeat' split) <;> simp
@[simp] theorem drainFeeders_hide [May m .events] [May m .frontEnd] [May m .timing] [May m .hitPath] [May m .buffer] [May m .compression] [May m .links] (a0) (s : State) : hide m (drainFeeders a0 s) = hide m s := by simp [drainFeeders]
@[simp] theorem execReorderRelease_hide [May m .events] [May m .frontEnd] [May m .timing] [May m .hitPath] [May m .buffer] [May m .compression] [May m .links] [May m .time] [May m .clock] (a0) (s : State) : hideO m (execReorderRelease a0 s) = some (hide m s) := by
  unfold execReorderRelease; (repeat' split) <;> simp
@[simp] theorem execBlockOffRelease_hide [May m .events] [May m .frontEnd] [May m .hitPath] [May m .time] [May m .clock] (a0) (s : State) : hideO m (execBlockOffRelease a0 s) = some (hide m s) := by
  unfold execBlockOffRelease; (repeat' split) <;> simp
@[simp] theorem execEdgeFragRx_hide [May m .events] [May m .frontEnd] [May m .hitPath] [May m .buffer] [May m .compression] [May m .links] (a0) (a1) (s : State) : hideO m (execEdgeFragRx a0 a1 s) = some (hide m s) := by simp [execEdgeFragRx]
@[simp] theorem dropSent_hide [May m .hitPath] (a0) (a1) (s : State) : hide m (dropSent a0 a1 s) = hide m s := by simp [dropSent]
@[simp] theorem execMergeReplyRx_hide [May m .events] [May m .frontEnd] [May m .hitPath] [May m .buffer] [May m .compression] [May m .links] (a0) (a1) (a2) (s : State) : hideO m (execMergeReplyRx a0 a1 a2 s) = some (hide m s) := by
  unfold execMergeReplyRx; (repeat' split) <;> simp
@[simp] theorem emitKept_hide [May m .events] [May m .frontEnd] [May m .hitPath] [May m .buffer] [May m .compression] (a0) (a1) (s : State) : hide m (emitKept a0 a1 s) = hide m s := by simp [emitKept]
@[simp] theorem execMergeWaitExpiry_hide [May m .events] [May m .frontEnd] [May m .hitPath] [May m .buffer] [May m .compression] [May m .links] [May m .time] [May m .clock] (a0) (a1) (s : State) : hideO m (execMergeWaitExpiry a0 a1 s) = some (hide m s) := by
  unfold execMergeWaitExpiry; (repeat' split) <;> simp
@[simp] theorem execMergeReplyTimeout_hide [May m .events] [May m .frontEnd] [May m .hitPath] [May m .buffer] [May m .compression] [May m .time] [May m .clock] (a0) (a1) (s : State) : hideO m (execMergeReplyTimeout a0 a1 s) = some (hide m s) := by
  unfold execMergeReplyTimeout; (repeat' split) <;> simp
@[simp] theorem execHpStatus_hide [May m .mail] [May m .events] (a0) (s : State) : hideO m (execHpStatus a0 s) = some (hide m s) := by simp [execHpStatus]
@[simp] theorem execHpOutputSet_hide [May m .mail] [May m .events] [May m .hitPath] (a0) (s : State) : hideO m (execHpOutputSet a0 s) = some (hide m s) := by simp [execHpOutputSet]
@[simp] theorem execHpClusterConfig_hide [May m .mail] [May m .events] [May m .hitPath] (a0) (s : State) : hideO m (execHpClusterConfig a0 s) = some (hide m s) := by simp [execHpClusterConfig]
@[simp] theorem execHpLossConfig_hide [May m .mail] [May m .settings] [May m .events] [May m .frontEnd] [May m .hitPath] [May m .buffer] [May m .compression] (a0) (s : State) : hideO m (execHpLossConfig a0 s) = some (hide m s) := by simp [execHpLossConfig]
@[simp] theorem execHpLossStatus_hide [May m .mail] [May m .events] (a0) (s : State) : hideO m (execHpLossStatus a0 s) = some (hide m s) := by simp [execHpLossStatus]
@[simp] theorem execHpGateConfig_hide [May m .mail] [May m .events] [May m .hitPath] (a0) (s : State) : hideO m (execHpGateConfig a0 s) = some (hide m s) := by simp [execHpGateConfig]
@[simp] theorem execHpMergeConfig_hide [May m .mail] [May m .settings] [May m .events] [May m .frontEnd] [May m .hitPath] [May m .buffer] [May m .compression] (a0) (s : State) : hideO m (execHpMergeConfig a0 s) = some (hide m s) := by simp [execHpMergeConfig]
@[simp] theorem execHpMergeStatus_hide [May m .mail] [May m .events] (a0) (s : State) : hideO m (execHpMergeStatus a0 s) = some (hide m s) := by simp [execHpMergeStatus]
@[simp] theorem execHpReorderConfig_hide [May m .mail] [May m .events] [May m .hitPath] (a0) (s : State) : hideO m (execHpReorderConfig a0 s) = some (hide m s) := by simp [execHpReorderConfig]
@[simp] theorem execHpStats_hide [May m .mail] [May m .events] [May m .hitPath] (a0) (s : State) : hideO m (execHpStats a0 s) = some (hide m s) := by simp [execHpStats]
@[simp] theorem execHpTpRead_hide [May m .mail] [May m .events] [May m .hitPath] (a0) (s : State) : hideO m (execHpTpRead a0 s) = some (hide m s) := by simp [execHpTpRead]

/-! Light -/

@[simp] theorem execLdPreWake_hide [May m .events] [May m .time] [May m .light] [May m .clock] (s : State) : hideO m (execLdPreWake s) = some (hide m s) := by
  unfold execLdPreWake
  try dsimp only
  repeat' (first | (simp; done) | intro _ | split | with_reducible apply evChange_hide | with_reducible apply event_hide | with_reducible apply Eq.trans (hide_forAll _ _ _ _) | with_reducible apply Eq.trans (hide_when _ _ _ _) | with_reducible apply need_hide | with_reducible apply needState_hide | with_reducible apply needClaim_hide | with_reducible assumption)
  done
@[simp] theorem shiftFor_hide [May m .events] [May m .time] [May m .light] [May m .clock] (a0) (a1) (s : State) : hide m (shiftFor a0 a1 s) = hide m s := by simp [shiftFor]
@[simp] theorem execLampShiftStart_hide [May m .events] [May m .time] [May m .light] [May m .clock] (a0) (s : State) : hideO m (execLampShiftStart a0 s) = some (hide m s) := by
  unfold execLampShiftStart; (repeat' split) <;> simp
@[simp] theorem entryFlashed_hide [May m .events] [May m .light] (a0) (a1) (a2) (s : State) : hide m (entryFlashed a0 a1 a2 s) = hide m s := by simp [entryFlashed]
@[simp] theorem flashAt_hide [May m .events] [May m .time] [May m .light] [May m .clock] (a0) (s : State) : hide m (flashAt a0 s) = hide m s := by simp [flashAt]
@[simp] theorem execFlashInstant_hide [May m .events] [May m .time] [May m .light] [May m .clock] (s : State) : hideO m (execFlashInstant s) = some (hide m s) := by
  unfold execFlashInstant; (repeat' split) <;> simp
@[simp] theorem execLedDiagSample_hide [May m .events] [May m .time] [May m .light] [May m .clock] (a0) (a1) (a2) (s : State) : hideO m (execLedDiagSample a0 a1 a2 s) = some (hide m s) := by
  unfold execLedDiagSample; (repeat' split) <;> simp
@[simp] theorem execLedPulseEnd_hide [May m .events] [May m .time] [May m .light] [May m .clock] (a0) (s : State) : hideO m (execLedPulseEnd a0 s) = some (hide m s) := by
  unfold execLedPulseEnd; (repeat' split) <;> simp
@[simp] theorem execFlashWindowEnd_hide [May m .events] [May m .time] [May m .light] [May m .clock] (s : State) : hideO m (execFlashWindowEnd s) = some (hide m s) := by
  unfold execFlashWindowEnd
  try dsimp only
  repeat' (first | (simp; done) | intro _ | split | with_reducible apply evChange_hide | with_reducible apply event_hide | with_reducible apply Eq.trans (hide_forAll _ _ _ _) | with_reducible apply Eq.trans (hide_when _ _ _ _) | with_reducible apply need_hide | with_reducible apply needState_hide | with_reducible apply needClaim_hide | with_reducible apply issue_hide | with_reducible apply call_hide | with_reducible apply callSel_hide | with_reducible assumption)
  done
@[simp] theorem execLdIdleGate_hide [May m .events] [May m .time] [May m .light] [May m .clock] (s : State) : hideO m (execLdIdleGate s) = some (hide m s) := by simp [execLdIdleGate]
@[simp] theorem captureCycle_hide [May m .jobs] [May m .events] [May m .light] (a0) (a1) (s : State) : hide m (captureCycle a0 a1 s) = hide m s := by simp [captureCycle]
@[simp] theorem execLampCaptureCycle_hide [May m .jobs] [May m .events] [May m .time] [May m .light] [May m .clock] (a0) (a1) (s : State) : hideO m (execLampCaptureCycle a0 a1 s) = some (hide m s) := by simp [execLampCaptureCycle]
@[simp] theorem loopDerated_hide [May m .events] [May m .light] (a0) (s : State) : hide m (loopDerated a0 s) = hide m s := by simp [loopDerated]
@[simp] theorem sinkTempUpdate_hide [May m .events] [May m .light] (a0) (s : State) : hide m (sinkTempUpdate a0 s) = hide m s := by simp [sinkTempUpdate]
@[simp] theorem execLedTempUpdate_hide [May m .events] [May m .time] [May m .light] [May m .clock] (s : State) : hideO m (execLedTempUpdate s) = some (hide m s) := by simp [execLedTempUpdate]
@[simp] theorem execProofPulseDue_hide [May m .events] [May m .time] [May m .light] [May m .clock] (a0) (s : State) : hideO m (execProofPulseDue a0 s) = some (hide m s) := by simp [execProofPulseDue]
@[simp] theorem sinkProof_hide [May m .jobs] [May m .events] [May m .time] [May m .light] [May m .clock] (a0) (a1) (a2) (s : State) : hide m (sinkProof a0 a1 a2 s) = hide m s := by
  unfold sinkProof; (repeat' split) <;> simp
@[simp] theorem boardProof_hide [May m .jobs] [May m .events] [May m .light] (a0) (a1) (s : State) : hide m (boardProof a0 a1 s) = hide m s := by simp [boardProof]
@[simp] theorem proofPulse_hide [May m .jobs] [May m .events] [May m .time] [May m .light] [May m .clock] (a0) (a1) (a2) (a3) (s : State) : hide m (proofPulse a0 a1 a2 a3 s) = hide m s := by
  unfold proofPulse; dsimp only; (repeat' split) <;> simp
@[simp] theorem execProofPulse_hide [May m .jobs] [May m .events] [May m .time] [May m .light] [May m .clock] (a0) (a1) (a2) (a3) (s : State) : hideO m (execProofPulse a0 a1 a2 a3 s) = some (hide m s) := by simp [execProofPulse]
@[simp] theorem execDiagAgeExpiry_hide [May m .events] [May m .time] [May m .light] [May m .clock] (a0) (s : State) : hideO m (execDiagAgeExpiry a0 s) = some (hide m s) := by simp [execDiagAgeExpiry]
@[simp] theorem execLdLineReadbackFault_hide [May m .events] [May m .light] (a0) (s : State) : hideO m (execLdLineReadbackFault a0 s) = some (hide m s) := by simp [execLdLineReadbackFault]
@[simp] theorem execLdStatus_hide [May m .mail] [May m .events] (a0) (s : State) : hideO m (execLdStatus a0 s) = some (hide m s) := by simp [execLdStatus]
@[simp] theorem execLdChainDiscover_hide [May m .mail] [May m .jobs] [May m .events] [May m .light] (a0) (s : State) : hideO m (execLdChainDiscover a0 s) = some (hide m s) := by
  unfold execLdChainDiscover; apply call_hide; intro p s; apply need_hide; intro s; simp
@[simp] theorem execLdChainRead_hide [May m .mail] [May m .events] (a0) (s : State) : hideO m (execLdChainRead a0 s) = some (hide m s) := by simp [execLdChainRead]
@[simp] theorem reconfigure_hide [May m .settings] [May m .light] (a0) (a1) (s : State) : hide m (reconfigure a0 a1 s) = hide m s := by simp [reconfigure]
@[simp] theorem execLdEmitterConfig_hide [May m .mail] [May m .settings] [May m .events] [May m .light] (a0) (s : State) : hideO m (execLdEmitterConfig a0 s) = some (hide m s) := by
  unfold execLdEmitterConfig; apply call_hide; intro p s; apply need_hide; intro s; simp
@[simp] theorem execLdEmitterRead_hide [May m .mail] [May m .events] (a0) (s : State) : hideO m (execLdEmitterRead a0 s) = some (hide m s) := by simp [execLdEmitterRead]
@[simp] theorem execLdSchedule_hide [May m .mail] [May m .events] [May m .light] (a0) (s : State) : hideO m (execLdSchedule a0 s) = some (hide m s) := by
  unfold execLdSchedule; apply call_hide; intro p s; apply need_hide; intro s; simp
@[simp] theorem execLdCancel_hide [May m .mail] [May m .events] [May m .light] (a0) (s : State) : hideO m (execLdCancel a0 s) = some (hide m s) := by simp [execLdCancel]
@[simp] theorem execLdScheduleRead_hide [May m .mail] [May m .events] (a0) (s : State) : hideO m (execLdScheduleRead a0 s) = some (hide m s) := by simp [execLdScheduleRead]
@[simp] theorem execLdDiagRead_hide [May m .mail] [May m .events] (a0) (s : State) : hideO m (execLdDiagRead a0 s) = some (hide m s) := by simp [execLdDiagRead]
@[simp] theorem execLdProofRun_hide [May m .mail] [May m .jobs] [May m .events] [May m .light] (a0) (s : State) : hideO m (execLdProofRun a0 s) = some (hide m s) := by
  unfold execLdProofRun; apply call_hide; intro p s; apply need_hide; intro s; simp
@[simp] theorem execLdSinkConfig_hide [May m .mail] [May m .settings] [May m .events] (a0) (s : State) : hideO m (execLdSinkConfig a0 s) = some (hide m s) := by
  unfold execLdSinkConfig; apply call_hide; intro p s; apply need_hide; intro s; simp
@[simp] theorem execLdStats_hide [May m .mail] [May m .events] [May m .light] (a0) (s : State) : hideO m (execLdStats a0 s) = some (hide m s) := by
  unfold execLdStats; apply call_hide; intro p s; apply need_hide; intro s; simp

/-! Power -/

@[simp] theorem execGovernorEval_hide [May m .events] [May m .frontEnd] [May m .hitPath] [May m .waveform] [May m .buffer] [May m .compression] [May m .time] [May m .power] [May m .clock] (a0) (s : State) : hideO m (execGovernorEval a0 s) = some (hide m s) := by simp [execGovernorEval]
@[simp] theorem execGovernorStep2Tick_hide [May m .events] [May m .links] [May m .time] [May m .power] [May m .clock] (s : State) : hideO m (execGovernorStep2Tick s) = some (hide m s) := by
  unfold execGovernorStep2Tick
  try dsimp only
  repeat' (first | (simp; done) | intro _ | split | with_reducible apply evChange_hide | with_reducible apply event_hide | with_reducible apply Eq.trans (hide_forAll _ _ _ _) | with_reducible apply Eq.trans (hide_when _ _ _ _) | with_reducible apply need_hide | with_reducible apply needState_hide | with_reducible apply needClaim_hide | with_reducible apply issue_hide | with_reducible apply call_hide | with_reducible apply callSel_hide | with_reducible assumption)
  done
@[simp] theorem execGovernorRestoreRetry_hide [May m .events] [May m .links] [May m .time] [May m .power] [May m .clock] (s : State) : hideO m (execGovernorRestoreRetry s) = some (hide m s) := by
  unfold execGovernorRestoreRetry
  try dsimp only
  repeat' (first | (simp; done) | intro _ | split | with_reducible apply evChange_hide | with_reducible apply event_hide | with_reducible apply Eq.trans (hide_forAll _ _ _ _) | with_reducible apply Eq.trans (hide_when _ _ _ _) | with_reducible apply need_hide | with_reducible apply needState_hide | with_reducible apply needClaim_hide | with_reducible apply issue_hide | with_reducible apply call_hide | with_reducible apply callSel_hide | with_reducible assumption)
  done
@[simp] theorem takeReadings_hide [May m .events] [May m .power] (a0) (s : State) : hide m (takeReadings a0 s) = hide m s := by simp [takeReadings]
@[simp] theorem warn_hide [May m .events] [May m .power] (s : State) : hide m (warn s) = hide m s := by simp [warn]
@[simp] theorem throttle_hide [May m .events] [May m .frontEnd] [May m .hitPath] [May m .waveform] [May m .buffer] [May m .compression] [May m .power] (s : State) : hide m (throttle s) = hide m s := by
  unfold throttle; (repeat' split) <;> simp
@[simp] theorem shutdown_hide [May m .mail] [May m .jobs] [May m .host] [May m .events] [May m .frontEnd] [May m .timing] [May m .hitPath] [May m .trigger] [May m .waveform] [May m .buffer] [May m .compression] [May m .links] [May m .time] [May m .power] [May m .slowControl] [May m .light] [May m .safety] [May m .redundancy] [May m .sequencer] [May m .free] (s : State) : hide m (shutdown s) = hide m s := by
  unfold shutdown; dsimp only; (repeat' split) <;> simp
@[simp] theorem coolTime_hide [May m .power] (s : State) : hide m (coolTime s) = hide m s := by simp [coolTime]
@[simp] theorem scanNow_hide [May m .events] [May m .time] [May m .power] [May m .clock] (s : State) : hide m (scanNow s) = hide m s := by simp [scanNow]
@[simp] theorem execThermalScan_hide [May m .mail] [May m .jobs] [May m .host] [May m .events] [May m .frontEnd] [May m .timing] [May m .hitPath] [May m .trigger] [May m .waveform] [May m .buffer] [May m .compression] [May m .links] [May m .time] [May m .power] [May m .slowControl] [May m .light] [May m .safety] [May m .redundancy] [May m .sequencer] [May m .clock] [May m .free] (a0) (s : State) : hideO m (execThermalScan a0 s) = some (hide m s) := by
  unfold execThermalScan
  try dsimp only
  repeat' (first | (simp; done) | intro _ | split | with_reducible apply evChange_hide | with_reducible apply event_hide | with_reducible apply Eq.trans (hide_forAll _ _ _ _) | with_reducible apply Eq.trans (hide_when _ _ _ _) | with_reducible apply need_hide | with_reducible apply needState_hide | with_reducible apply needClaim_hide | with_reducible assumption)
  done
@[simp] theorem execThrottleStepTimer_hide [May m .events] [May m .frontEnd] [May m .hitPath] [May m .waveform] [May m .buffer] [May m .compression] [May m .time] [May m .power] [May m .clock] (s : State) : hideO m (execThrottleStepTimer s) = some (hide m s) := by simp [execThrottleStepTimer]
@[simp] theorem execShutdownHoldTimeout_hide [May m .mail] [May m .jobs] [May m .host] [May m .events] [May m .frontEnd] [May m .timing] [May m .hitPath] [May m .trigger] [May m .waveform] [May m .buffer] [May m .compression] [May m .links] [May m .time] [May m .power] [May m .slowControl] [May m .light] [May m .safety] [May m .redundancy] [May m .sequencer] [May m .clock] [May m .free] (s : State) : hideO m (execShutdownHoldTimeout s) = some (hide m s) := by simp [execShutdownHoldTimeout]
@[simp] theorem execThermalLatchClear_hide [May m .mail] [May m .events] [May m .time] [May m .power] [May m .safety] [May m .clock] (s : State) : hideO m (execThermalLatchClear s) = some (hide m s) := by simp [execThermalLatchClear]
@[simp] theorem autoWindow_hide [May m .power] (s : State) : hide m (autoWindow s) = hide m s := by simp [autoWindow]
@[simp] theorem execAutoRateWindow_hide [May m .events] [May m .time] [May m .power] [May m .clock] (s : State) : hideO m (execAutoRateWindow s) = some (hide m s) := by simp [execAutoRateWindow]
@[simp] theorem timerActs_hide [May m .events] [May m .time] [May m .power] [May m .safety] [May m .sequencer] [May m .clock] (a0) (a1) (s : State) : hide m (timerActs a0 a1 s) = hide m s := by
  unfold timerActs; (repeat' split) <;> simp
@[simp] theorem reachWake_hide [May m .events] [May m .time] [May m .clock] [May m .free] (a0) (s : State) : hide m (reachWake a0 s) = hide m s := by
  unfold reachWake; dsimp only; (repeat' split) <;> simp
@[simp] theorem execWakeTimerFire_hide [May m .events] [May m .time] [May m .power] [May m .safety] [May m .sequencer] [May m .clock] [May m .free] (a0) (s : State) : hideO m (execWakeTimerFire a0 s) = some (hide m s) := by
  unfold execWakeTimerFire
  try dsimp only
  repeat' (first | (simp; done) | intro _ | split | with_reducible apply evChange_hide | with_reducible apply event_hide | with_reducible apply Eq.trans (hide_forAll _ _ _ _) | with_reducible apply Eq.trans (hide_when _ _ _ _) | with_reducible apply need_hide | with_reducible apply needState_hide | with_reducible apply needClaim_hide | with_reducible apply issue_hide | with_reducible apply call_hide | with_reducible apply callSel_hide | with_reducible assumption)
  done
@[simp] theorem setPhase_hide [May m .power] (a0) (s : State) : hide m (setPhase a0 s) = hide m s := by simp [setPhase]
@[simp] theorem execQueueSave_hide [May m .events] [May m .frontEnd] [May m .hitPath] [May m .buffer] [May m .compression] [May m .power] (s : State) : hideO m (execQueueSave s) = some (hide m s) := by simp [execQueueSave]
@[simp] theorem execHoldReached_hide [May m .mail] [May m .jobs] [May m .host] [May m .events] [May m .frontEnd] [May m .timing] [May m .hitPath] [May m .trigger] [May m .waveform] [May m .buffer] [May m .compression] [May m .links] [May m .time] [May m .power] [May m .slowControl] [May m .light] [May m .safety] [May m .redundancy] [May m .sequencer] [May m .clock] [May m .free] (s : State) : hideO m (execHoldReached s) = some (hide m s) := by simp [execHoldReached]
@[simp] theorem execHoldWake_hide [May m .events] [May m .time] [May m .power] [May m .safety] [May m .sequencer] [May m .clock] [May m .free] (a0) (a1) (s : State) : hideO m (execHoldWake a0 a1 s) = some (hide m s) := by
  unfold execHoldWake
  try dsimp only
  repeat' (first | (simp; done) | intro _ | split | with_reducible apply evChange_hide | with_reducible apply event_hide | with_reducible apply Eq.trans (hide_forAll _ _ _ _) | with_reducible apply Eq.trans (hide_when _ _ _ _) | with_reducible apply need_hide | with_reducible apply needState_hide | with_reducible apply needClaim_hide | with_reducible apply issue_hide | with_reducible apply call_hide | with_reducible apply callSel_hide | with_reducible assumption)
  done
@[simp] theorem wakeRestore_hide [May m .mail] [May m .jobs] [May m .host] [May m .events] [May m .frontEnd] [May m .timing] [May m .hitPath] [May m .trigger] [May m .waveform] [May m .buffer] [May m .compression] [May m .links] [May m .time] [May m .power] [May m .slowControl] [May m .light] [May m .safety] [May m .redundancy] [May m .free] (a0) (a1) (a2) (a3) (s : State) : hide m (wakeRestore a0 a1 a2 a3 s) = hide m s := by simp [wakeRestore]
@[simp] theorem execHoldWakeRestore_hide [May m .mail] [May m .jobs] [May m .host] [May m .events] [May m .frontEnd] [May m .timing] [May m .hitPath] [May m .trigger] [May m .waveform] [May m .buffer] [May m .compression] [May m .links] [May m .time] [May m .power] [May m .slowControl] [May m .light] [May m .safety] [May m .redundancy] [May m .free] (a0) (a1) (a2) (s : State) : hideO m (execHoldWakeRestore a0 a1 a2 s) = some (hide m s) := by
  unfold execHoldWakeRestore
  try dsimp only
  repeat' (first | (simp; done) | intro _ | split | with_reducible apply evChange_hide | with_reducible apply event_hide | with_reducible apply Eq.trans (hide_forAll _ _ _ _) | with_reducible apply Eq.trans (hide_when _ _ _ _) | with_reducible apply need_hide | with_reducible apply needState_hide | with_reducible apply needClaim_hide | with_reducible apply issue_hide | with_reducible apply call_hide | with_reducible apply callSel_hide | with_reducible assumption)
  done
@[simp] theorem wakeEasy_hide [May m .mail] [May m .jobs] [May m .host] [May m .events] [May m .frontEnd] [May m .hitPath] [May m .trigger] [May m .waveform] [May m .buffer] [May m .compression] [May m .links] [May m .power] [May m .slowControl] [May m .light] [May m .free] (a0) (s : State) : hide m (wakeEasy a0 s) = hide m s := by simp [wakeEasy]
@[simp] theorem execHoldWakeEasy_hide [May m .mail] [May m .jobs] [May m .host] [May m .events] [May m .frontEnd] [May m .hitPath] [May m .trigger] [May m .waveform] [May m .buffer] [May m .compression] [May m .links] [May m .power] [May m .slowControl] [May m .light] [May m .free] (s : State) : hideO m (execHoldWakeEasy s) = some (hide m s) := by
  unfold execHoldWakeEasy
  try dsimp only
  repeat' (first | (simp; done) | intro _ | split | with_reducible apply evChange_hide | with_reducible apply event_hide | with_reducible apply Eq.trans (hide_forAll _ _ _ _) | with_reducible apply Eq.trans (hide_when _ _ _ _) | with_reducible apply need_hide | with_reducible apply needState_hide | with_reducible apply needClaim_hide | with_reducible apply issue_hide | with_reducible apply call_hide | with_reducible apply callSel_hide | with_reducible assumption)
  done
@[simp] theorem changeStep_hide [May m .mail] [May m .settings] [May m .jobs] [May m .host] [May m .events] [May m .frontEnd] [May m .timing] [May m .hitPath] [May m .trigger] [May m .waveform] [May m .buffer] [May m .compression] [May m .links] [May m .time] [May m .power] [May m .slowControl] [May m .light] [May m .redundancy] (a0) (s : State) : hide m (changeStep a0 s) = hide m s := by simp [changeStep]
@[simp] theorem execPowerStateChangeDone_hide [May m .mail] [May m .settings] [May m .jobs] [May m .host] [May m .events] [May m .frontEnd] [May m .timing] [May m .hitPath] [May m .trigger] [May m .waveform] [May m .buffer] [May m .compression] [May m .links] [May m .time] [May m .power] [May m .slowControl] [May m .light] [May m .redundancy] (s : State) : hideO m (execPowerStateChangeDone s) = some (hide m s) := by
  unfold execPowerStateChangeDone
  try dsimp only
  repeat' (first | (simp; done) | intro _ | split | with_reducible apply evChange_hide | with_reducible apply event_hide | with_reducible apply Eq.trans (hide_forAll _ _ _ _) | with_reducible apply Eq.trans (hide_when _ _ _ _) | with_reducible apply need_hide | with_reducible apply needState_hide | with_reducible apply needClaim_hide | with_reducible apply issue_hide | with_reducible apply call_hide | with_reducible apply callSel_hide | with_reducible assumption)
  done
@[simp] theorem execClusterEngineIdleGate_hide [May m .events] [May m .time] [May m .power] [May m .clock] (a0) (s : State) : hideO m (execClusterEngineIdleGate a0 s) = some (hide m s) := by simp [execClusterEngineIdleGate]
@[simp] theorem execPwStatus_hide [May m .mail] [May m .events] (a0) (s : State) : hideO m (execPwStatus a0 s) = some (hide m s) := by simp [execPwStatus]
@[simp] theorem execPwStateSet_hide [May m .mail] [May m .jobs] [May m .host] [May m .events] [May m .frontEnd] [May m .timing] [May m .hitPath] [May m .buffer] [May m .compression] [May m .links] [May m .time] [May m .power] [May m .slowControl] [May m .light] [May m .redundancy] (a0) (s : State) : hideO m (execPwStateSet a0 s) = some (hide m s) := by simp [execPwStateSet]
@[simp] theorem execPwBudgetConfig_hide [May m .mail] [May m .settings] [May m .events] (a0) (s : State) : hideO m (execPwBudgetConfig a0 s) = some (hide m s) := by simp [execPwBudgetConfig]
@[simp] theorem execPwThermalConfig_hide [May m .mail] [May m .settings] [May m .events] (a0) (s : State) : hideO m (execPwThermalConfig a0 s) = some (hide m s) := by simp [execPwThermalConfig]
@[simp] theorem execPwThermalRead_hide [May m .mail] [May m .events] (a0) (s : State) : hideO m (execPwThermalRead a0 s) = some (hide m s) := by simp [execPwThermalRead]
@[simp] theorem execPwWakeSet_hide [May m .mail] [May m .events] [May m .power] (a0) (s : State) : hideO m (execPwWakeSet a0 s) = some (hide m s) := by
  unfold execPwWakeSet; apply call_hide; intro p s; apply need_hide; intro s; simp
@[simp] theorem execPwWakeClear_hide [May m .mail] [May m .events] [May m .power] (a0) (s : State) : hideO m (execPwWakeClear a0 s) = some (hide m s) := by
  unfold execPwWakeClear; apply call_hide; intro p s; apply need_hide; intro s; simp
@[simp] theorem execPwAutoConfig_hide [May m .mail] [May m .settings] [May m .events] [May m .power] (a0) (s : State) : hideO m (execPwAutoConfig a0 s) = some (hide m s) := by simp [execPwAutoConfig]
@[simp] theorem execPwDomainRead_hide [May m .mail] [May m .events] (a0) (s : State) : hideO m (execPwDomainRead a0 s) = some (hide m s) := by simp [execPwDomainRead]
@[simp] theorem execPwStats_hide [May m .mail] [May m .events] [May m .power] (a0) (s : State) : hideO m (execPwStats a0 s) = some (hide m s) := by simp [execPwStats]

/-! SafetyPartition -/

@[simp] theorem execSfRomStart_hide [May m .mail] [May m .host] [May m .events] [May m .time] [May m .safety] [May m .redundancy] [May m .clock] (a0) (a1) (s : State) : hideO m (execSfRomStart a0 a1 s) = some (hide m s) := by simp [execSfRomStart]
@[simp] theorem execSfSelfTestDone_hide [May m .mail] [May m .events] [May m .safety] (a0) (s : State) : hideO m (execSfSelfTestDone a0 s) = some (hide m s) := by simp [execSfSelfTestDone]
@[simp] theorem execSfLogicCycle_hide [May m .mail] [May m .events] [May m .time] [May m .safety] [May m .clock] (a0) (s : State) : hideO m (execSfLogicCycle a0 s) = some (hide m s) := by simp [execSfLogicCycle]
@[simp] theorem latchDisc_hide [May m .events] [May m .safety] (a0) (s : State) : hide m (latchDisc a0 s) = hide m s := by simp [latchDisc]
@[simp] theorem ilkChange_hide [May m .events] [May m .safety] (a0) (a1) (a2) (s : State) : hide m (ilkChange a0 a1 a2 s) = hide m s := by simp [ilkChange]
@[simp] theorem execIlkChannelChange_hide [May m .mail] [May m .events] [May m .safety] (a0) (a1) (a2) (s : State) : hideO m (execIlkChannelChange a0 a1 a2 s) = some (hide m s) := by simp [execIlkChannelChange]
@[simp] theorem execIlkDiscrepancyTimeout_hide [May m .mail] [May m .events] [May m .time] [May m .safety] [May m .clock] [May m .free] (a0) (s : State) : hideO m (execIlkDiscrepancyTimeout a0 s) = some (hide m s) := by simp [execIlkDiscrepancyTimeout]
@[simp] theorem execSealReread_hide [May m .mail] [May m .events] [May m .time] [May m .safety] [May m .clock] (a0) (s : State) : hideO m (execSealReread a0 s) = some (hide m s) := by
  unfold execSealReread
  try dsimp only
  repeat' (first | (simp; done) | intro _ | split | with_reducible apply evChange_hide | with_reducible apply event_hide | with_reducible apply Eq.trans (hide_forAll _ _ _ _) | with_reducible apply Eq.trans (hide_when _ _ _ _) | with_reducible apply need_hide | with_reducible apply needState_hide | with_reducible apply needClaim_hide | with_reducible assumption)
  done
@[simp] theorem readback_hide [May m .mail] [May m .events] [May m .safety] (a0) (s : State) : hide m (readback a0 s) = hide m s := by simp [readback]
@[simp] theorem execSoReadback_hide [May m .mail] [May m .events] [May m .time] [May m .safety] [May m .clock] (a0) (s : State) : hideO m (execSoReadback a0 s) = some (hide m s) := by simp [execSoReadback]
@[simp] theorem reachDark_hide [May m .events] [May m .time] [May m .clock] [May m .free] (a0) (s : State) : hide m (reachDark a0 s) = hide m s := by simp [reachDark]
@[simp] theorem execSoDarkTest_hide [May m .mail] [May m .events] [May m .time] [May m .safety] [May m .clock] [May m .free] (a0) (a1) (s : State) : hideO m (execSoDarkTest a0 a1 s) = some (hide m s) := by simp [execSoDarkTest]
@[simp] theorem connLost_hide [May m .mail] [May m .events] [May m .safety] (s : State) : hide m (connLost s) = hide m s := by simp [connLost]
@[simp] theorem execSfCommandRx_hide [May m .mail] [May m .events] [May m .safety] (a0) (s : State) : hideO m (execSfCommandRx a0 s) = some (hide m s) := by simp [execSfCommandRx]
@[simp] theorem execSfConnExpiry_hide [May m .mail] [May m .events] [May m .time] [May m .safety] [May m .clock] [May m .free] (s : State) : hideO m (execSfConnExpiry s) = some (hide m s) := by simp [execSfConnExpiry]
@[simp] theorem execSfHvmonPoll_hide [May m .events] [May m .time] [May m .slowControl] [May m .safety] [May m .clock] (s : State) : hideO m (execSfHvmonPoll s) = some (hide m s) := by simp [execSfHvmonPoll]
@[simp] theorem execSfStatus_hide [May m .mail] [May m .events] (a0) (s : State) : hideO m (execSfStatus a0 s) = some (hide m s) := by simp [execSfStatus]
@[simp] theorem sfDenied_hide (s : State) : hideR m (sfDenied s) = hide m s := by simp [sfDenied]
@[simp] theorem execSfHvRequest_hide [May m .mail] [May m .events] [May m .safety] (a0) (s : State) : hideO m (execSfHvRequest a0 s) = some (hide m s) := by simp [execSfHvRequest]
@[simp] theorem execSfReset_hide [May m .mail] [May m .events] [May m .safety] (a0) (s : State) : hideO m (execSfReset a0 s) = some (hide m s) := by simp [execSfReset]
@[simp] theorem execSfShutterRequest_hide [May m .mail] [May m .events] [May m .safety] (a0) (s : State) : hideO m (execSfShutterRequest a0 s) = some (hide m s) := by simp [execSfShutterRequest]
@[simp] theorem execSfDarkTest_hide [May m .mail] [May m .events] [May m .safety] (a0) (s : State) : hideO m (execSfDarkTest a0 s) = some (hide m s) := by simp [execSfDarkTest]
@[simp] theorem execSfTripLog_hide [May m .mail] [May m .events] (a0) (s : State) : hideO m (execSfTripLog a0 s) = some (hide m s) := by simp [execSfTripLog]
@[simp] theorem execSfStats_hide [May m .mail] [May m .events] [May m .safety] (a0) (s : State) : hideO m (execSfStats a0 s) = some (hide m s) := by simp [execSfStats]

/-! Sequencer -/

@[simp] theorem porState_hide [May m .mail] [May m .settings] [May m .jobs] [May m .flash] [May m .sideband] [May m .host] [May m .events] [May m .frontEnd] [May m .timing] [May m .hitPath] [May m .trigger] [May m .waveform] [May m .buffer] [May m .compression] [May m .links] [May m .time] [May m .power] [May m .slowControl] [May m .light] [May m .safety] [May m .redundancy] [May m .sequencer] (s : State) : hide m (porState s) = hide m s := by simp [hide, porState]
@[simp] theorem execPorAssert_hide [May m .mail] [May m .settings] [May m .jobs] [May m .flash] [May m .sideband] [May m .host] [May m .events] [May m .frontEnd] [May m .timing] [May m .hitPath] [May m .trigger] [May m .waveform] [May m .buffer] [May m .compression] [May m .links] [May m .time] [May m .power] [May m .slowControl] [May m .light] [May m .safety] [May m .redundancy] [May m .sequencer] (s : State) : hideO m (execPorAssert s) = some (hide m s) := by simp [execPorAssert]
@[simp] theorem enable_hide [May m .events] [May m .time] [May m .sequencer] [May m .clock] (a0) (s : State) : hide m (enable a0 s) = hide m s := by simp [enable]
@[simp] theorem execPorRelease_hide [May m .host] [May m .events] [May m .time] [May m .safety] [May m .redundancy] [May m .sequencer] [May m .clock] (a0) (s : State) : hideO m (execPorRelease a0 s) = some (hide m s) := by simp [execPorRelease]
@[simp] theorem execPwrGoodRise_hide [May m .events] [May m .time] [May m .sequencer] [May m .clock] (s : State) : hideO m (execPwrGoodRise s) = some (hide m s) := by
  unfold execPwrGoodRise
  try dsimp only
  repeat' (first | (simp; done) | intro _ | split | with_reducible apply evChange_hide | with_reducible apply event_hide | with_reducible apply Eq.trans (hide_forAll _ _ _ _) | with_reducible apply Eq.trans (hide_when _ _ _ _) | with_reducible apply need_hide | with_reducible apply needState_hide | with_reducible apply needClaim_hide | with_reducible assumption)
  done
@[simp] theorem execSeqEnableTimeout_hide [May m .events] [May m .time] [May m .sequencer] [May m .clock] (s : State) : hideO m (execSeqEnableTimeout s) = some (hide m s) := by simp [execSeqEnableTimeout]
@[simp] theorem execSeqRetryTimer_hide [May m .events] [May m .time] [May m .sequencer] [May m .clock] (s : State) : hideO m (execSeqRetryTimer s) = some (hide m s) := by simp [execSeqRetryTimer]
@[simp] theorem goodLost_hide [May m .events] [May m .sequencer] (a0) (s : State) : hide m (goodLost a0 s) = hide m s := by simp [goodLost]
@[simp] theorem railsLost_hide [May m .mail] [May m .jobs] [May m .host] [May m .events] [May m .frontEnd] [May m .timing] [May m .hitPath] [May m .trigger] [May m .waveform] [May m .buffer] [May m .compression] [May m .links] [May m .time] [May m .power] [May m .slowControl] [May m .light] [May m .safety] [May m .redundancy] [May m .sequencer] [May m .free] (s : State) : hide m (railsLost s) = hide m s := by simp [railsLost]
@[simp] theorem goodLostInHold_hide [May m .mail] [May m .jobs] [May m .host] [May m .events] [May m .frontEnd] [May m .timing] [May m .hitPath] [May m .trigger] [May m .waveform] [May m .buffer] [May m .compression] [May m .links] [May m .time] [May m .power] [May m .slowControl] [May m .light] [May m .redundancy] [May m .sequencer] [May m .free] (s : State) : hide m (goodLostInHold s) = hide m s := by
  unfold goodLostInHold; (repeat' split) <;> simp
@[simp] theorem execPwrGoodFall_hide [May m .mail] [May m .jobs] [May m .host] [May m .events] [May m .frontEnd] [May m .timing] [May m .hitPath] [May m .trigger] [May m .waveform] [May m .buffer] [May m .compression] [May m .links] [May m .time] [May m .power] [May m .slowControl] [May m .light] [May m .safety] [May m .redundancy] [May m .sequencer] [May m .free] (a0) (a1) (s : State) : hideO m (execPwrGoodFall a0 a1 s) = some (hide m s) := by simp [execPwrGoodFall]
@[simp] theorem execPwrGoodRetryTimer_hide [May m .events] [May m .time] [May m .sequencer] [May m .clock] (s : State) : hideO m (execPwrGoodRetryTimer s) = some (hide m s) := by simp [execPwrGoodRetryTimer]
@[simp] theorem execWakePwrGoodTimeout_hide [May m .mail] [May m .jobs] [May m .host] [May m .events] [May m .frontEnd] [May m .timing] [May m .hitPath] [May m .trigger] [May m .waveform] [May m .buffer] [May m .compression] [May m .links] [May m .time] [May m .power] [May m .slowControl] [May m .light] [May m .redundancy] [May m .sequencer] [May m .clock] [May m .free] (a0) (s : State) : hideO m (execWakePwrGoodTimeout a0 s) = some (hide m s) := by simp [execWakePwrGoodTimeout]
@[simp] theorem pinReset_hide [May m .mail] [May m .jobs] [May m .host] [May m .events] [May m .frontEnd] [May m .timing] [May m .hitPath] [May m .trigger] [May m .waveform] [May m .buffer] [May m .compression] [May m .links] [May m .time] [May m .power] [May m .slowControl] [May m .light] [May m .safety] [May m .redundancy] [May m .sequencer] [May m .clock] [May m .free] (s : State) : hide m (pinReset s) = hide m s := by
  unfold pinReset; (repeat' split) <;> simp
@[simp] theorem execRstNPulse_hide [May m .mail] [May m .jobs] [May m .host] [May m .events] [May m .frontEnd] [May m .timing] [May m .hitPath] [May m .trigger] [May m .waveform] [May m .buffer] [May m .compression] [May m .links] [May m .time] [May m .power] [May m .slowControl] [May m .light] [May m .safety] [May m .redundancy] [May m .sequencer] [May m .clock] [May m .free] (a0) (s : State) : hideO m (execRstNPulse a0 s) = some (hide m s) := by simp [execRstNPulse]

/-! SlowControl -/

@[simp] theorem execScPassStart_hide [May m .jobs] [May m .events] [May m .time] [May m .slowControl] [May m .clock] (s : State) : hideO m (execScPassStart s) = some (hide m s) := by simp [execScPassStart]
@[simp] theorem injectDone_hide [May m .events] [May m .slowControl] (a0) (s : State) : hide m (injectDone a0 s) = hide m s := by
  unfold injectDone; (repeat' split) <;> simp
@[simp] theorem execScConversionDone_hide [May m .mail] [May m .jobs] [May m .events] [May m .time] [May m .slowControl] [May m .light] [May m .safety] [May m .clock] [May m .free] (a0) (s : State) : hideO m (execScConversionDone a0 s) = some (hide m s) := by
  unfold execScConversionDone; (repeat' split) <;> simp
@[simp] theorem execScSafetyInjectRequest_hide [May m .jobs] [May m .events] [May m .slowControl] [May m .free] (s : State) : hideO m (execScSafetyInjectRequest s) = some (hide m s) := by simp [execScSafetyInjectRequest]
@[simp] theorem execScInjectedConversionStart_hide [May m .jobs] [May m .events] [May m .time] [May m .slowControl] [May m .clock] [May m .free] (s : State) : hideO m (execScInjectedConversionStart s) = some (hide m s) := by simp [execScInjectedConversionStart]
@[simp] theorem takeCoef_hide [May m .events] [May m .slowControl] (a0) (a1) (a2) (s : State) : hide m (takeCoef a0 a1 a2 s) = hide m s := by simp [takeCoef]
@[simp] theorem takeExc_hide [May m .slowControl] (a0) (a1) (s : State) : hide m (takeExc a0 a1 s) = hide m s := by simp [takeExc]
@[simp] theorem calDone_hide [May m .jobs] [May m .events] [May m .slowControl] (a0) (a1) (a2) (s : State) : hide m (calDone a0 a1 a2 s) = hide m s := by
  unfold calDone; (repeat' split) <;> simp
@[simp] theorem execScCalStepDone_hide [May m .jobs] [May m .events] [May m .time] [May m .slowControl] [May m .clock] (a0) (a1) (a2) (a3) (s : State) : hideO m (execScCalStepDone a0 a1 a2 a3 s) = some (hide m s) := by
  unfold execScCalStepDone
  try dsimp only
  repeat' (first | (simp; done) | intro _ | split | with_reducible apply evChange_hide | with_reducible apply event_hide | with_reducible apply Eq.trans (hide_forAll _ _ _ _) | with_reducible apply Eq.trans (hide_when _ _ _ _) | with_reducible apply need_hide | with_reducible apply needState_hide | with_reducible apply needClaim_hide | with_reducible apply issue_hide | with_reducible apply call_hide | with_reducible apply callSel_hide | with_reducible assumption)
  done
@[simp] theorem execScAutoCalDue_hide [May m .jobs] [May m .events] [May m .time] [May m .slowControl] [May m .clock] (s : State) : hideO m (execScAutoCalDue s) = some (hide m s) := by simp [execScAutoCalDue]
@[simp] theorem execScPinBreak_hide [May m .jobs] [May m .events] [May m .slowControl] (a0) (a1) (a2) (s : State) : hideO m (execScPinBreak a0 a1 a2 s) = some (hide m s) := by simp [execScPinBreak]
@[simp] theorem execScExcMonitorDone_hide [May m .jobs] [May m .events] [May m .time] [May m .slowControl] [May m .clock] (a0) (s : State) : hideO m (execScExcMonitorDone a0 s) = some (hide m s) := by
  unfold execScExcMonitorDone
  try dsimp only
  repeat' (first | (simp; done) | intro _ | split | with_reducible apply evChange_hide | with_reducible apply event_hide | with_reducible apply Eq.trans (hide_forAll _ _ _ _) | with_reducible apply Eq.trans (hide_when _ _ _ _) | with_reducible apply need_hide | with_reducible apply needState_hide | with_reducible apply needClaim_hide | with_reducible apply issue_hide | with_reducible apply call_hide | with_reducible apply callSel_hide | with_reducible assumption)
  done
@[simp] theorem execScStatus_hide [May m .mail] [May m .events] (a0) (s : State) : hideO m (execScStatus a0 s) = some (hide m s) := by simp [execScStatus]
@[simp] theorem execScChannelConfig_hide [May m .mail] [May m .settings] [May m .events] (a0) (s : State) : hideO m (execScChannelConfig a0 s) = some (hide m s) := by simp [execScChannelConfig]
@[simp] theorem execScChannelRead_hide [May m .mail] [May m .events] (a0) (s : State) : hideO m (execScChannelRead a0 s) = some (hide m s) := by simp [execScChannelRead]
@[simp] theorem execScSequenceSet_hide [May m .mail] [May m .settings] [May m .events] (a0) (s : State) : hideO m (execScSequenceSet a0 s) = some (hide m s) := by simp [execScSequenceSet]
@[simp] theorem execScResultRead_hide [May m .mail] [May m .events] (a0) (s : State) : hideO m (execScResultRead a0 s) = some (hide m s) := by simp [execScResultRead]
@[simp] theorem execScInject_hide [May m .mail] [May m .events] [May m .slowControl] (a0) (s : State) : hideO m (execScInject a0 s) = some (hide m s) := by
  unfold execScInject; apply call_hide; intro p s; apply need_hide; intro s; simp
@[simp] theorem execScInjectRead_hide [May m .mail] [May m .events] (a0) (s : State) : hideO m (execScInjectRead a0 s) = some (hide m s) := by simp [execScInjectRead]
@[simp] theorem acceptCal_hide [May m .jobs] [May m .events] [May m .slowControl] [May m .free] (a0) (a1) (s : State) : hide m (acceptCal a0 a1 s) = hide m s := by simp [acceptCal]
@[simp] theorem execScCalibrate_hide [May m .mail] [May m .jobs] [May m .events] [May m .slowControl] [May m .free] (mb) (s : State) : hideO m (execScCalibrate mb s) = some (hide m s) := by
  unfold execScCalibrate
  apply call_hide; intro p s; apply need_hide; intro s; dsimp only
  split
  · simp
  · have h : hideR m (deferJob 0x0C07 (p.take 1) (now s + BitVec.ofNat 64 (injectedTicks s)) s) = hide m s := deferJob_hide 0x0C07 (p.take 1) (now s + BitVec.ofNat 64 (injectedTicks s)) s
    revert h
    cases deferJob 0x0C07 (p.take 1) (now s + BitVec.ofNat 64 (injectedTicks s)) s with
    | done c b t => intro h; have h : hide m t = hide m s := h; dsimp only; split <;> simpa using h
    | later t => intro h; exact h
@[simp] theorem execScDiagRun_hide [May m .mail] [May m .jobs] [May m .events] [May m .slowControl] (a0) (s : State) : hideO m (execScDiagRun a0 s) = some (hide m s) := by
  unfold execScDiagRun; apply call_hide; intro p s; apply need_hide; intro s; simp
@[simp] theorem execScChannelStatus_hide [May m .mail] [May m .events] (a0) (s : State) : hideO m (execScChannelStatus a0 s) = some (hide m s) := by simp [execScChannelStatus]
@[simp] theorem execScStats_hide [May m .mail] [May m .events] [May m .slowControl] (a0) (s : State) : hideO m (execScStats a0 s) = some (hide m s) := by simp [execScStats]

/-! Idle -/

@[simp] theorem mapDue_hide [May m .events] [May m .buffer] [May m .compression] (s : State) : hide m (mapDue s) = hide m s := by simp [mapDue]
@[simp] theorem mergeDue_hide [May m .hitPath] [May m .redundancy] (s : State) : hide m (mergeDue s) = hide m s := by simp [mergeDue]
@[simp] theorem idleTick_hide [May m .settings] [May m .events] [May m .hitPath] [May m .buffer] [May m .compression] [May m .time] [May m .redundancy] [May m .clock] (s : State) : hide m (idleTick s) = hide m s := by simp [idleTick]

end Sys2Proof.Machine
end

