-- ==== Sys2Proof/Laws/Standing.lean ====
section
/-! SUPPORT. What leaves the standing part of a state as it is: the updates of parts, the combinators, and the answering of
calls. Further files say it of each operation and each command. -/
namespace Sys2Proof.Machine

@[simp] theorem standingOf_eq (x f g q) : standingOf x f g q =
    ⟨x.por, x.windowReady, x.partNum, x.stepping, x.screen, x.romVer, x.serial, x.lc, x.keyRevoked, x.rbCount, x.keyHash,
      x.bootSel, x.tileId, x.testMode, f.sealRaw, f.sealsRead, f.started, f.soFault, g, q⟩ := id rfl
@[simp] theorem standing_onEv (g) (s : State) : standing (onEv g s) = standing s := id rfl
@[simp] theorem standing_onFe (g) (s : State) : standing (onFe g s) = standing s := id rfl
@[simp] theorem standing_onTm (g) (s : State) : standing (onTm g s) = standing s := id rfl
@[simp] theorem standing_onHp (g) (s : State) : standing (onHp g s) = standing s := id rfl
@[simp] theorem standing_onTr (g) (s : State) : standing (onTr g s) = standing s := id rfl
@[simp] theorem standing_onWe (g) (s : State) : standing (onWe g s) = standing s := id rfl
@[simp] theorem standing_onBb (g) (s : State) : standing (onBb g s) = standing s := id rfl
@[simp] theorem standing_onCx (g) (s : State) : standing (onCx g s) = standing s := id rfl
@[simp] theorem standing_onLk (g) (s : State) : standing (onLk g s) = standing s := id rfl
@[simp] theorem standing_onTc (g) (s : State) : standing (onTc g s) = standing s := id rfl
@[simp] theorem standing_onSc (g) (s : State) : standing (onSc g s) = standing s := id rfl
@[simp] theorem standing_onLd (g) (s : State) : standing (onLd g s) = standing s := id rfl
@[simp] theorem standing_onRed (g) (s : State) : standing (onRed g s) = standing s := id rfl
@[simp] theorem standing_onSeq (g) (s : State) : standing (onSeq g s) = standing s := id rfl
@[simp] theorem standing_ev (v) (s : State) : standing { s with ev := v } = standing s := id rfl
@[simp] theorem standing_fe (v) (s : State) : standing { s with fe := v } = standing s := id rfl
@[simp] theorem standing_tm (v) (s : State) : standing { s with tm := v } = standing s := id rfl
@[simp] theorem standing_hp (v) (s : State) : standing { s with hp := v } = standing s := id rfl
@[simp] theorem standing_tr (v) (s : State) : standing { s with tr := v } = standing s := id rfl
@[simp] theorem standing_we (v) (s : State) : standing { s with we := v } = standing s := id rfl
@[simp] theorem standing_bb (v) (s : State) : standing { s with bb := v } = standing s := id rfl
@[simp] theorem standing_cx (v) (s : State) : standing { s with cx := v } = standing s := id rfl
@[simp] theorem standing_lk (v) (s : State) : standing { s with lk := v } = standing s := id rfl
@[simp] theorem standing_tc (v) (s : State) : standing { s with tc := v } = standing s := id rfl
@[simp] theorem standing_sc (v) (s : State) : standing { s with sc := v } = standing s := id rfl
@[simp] theorem standing_ld (v) (s : State) : standing { s with ld := v } = standing s := id rfl
@[simp] theorem standing_red (v) (s : State) : standing { s with red := v } = standing s := id rfl
@[simp] theorem standing_seq (v) (s : State) : standing { s with seq := v } = standing s := id rfl
@[simp] theorem standing_up (v) (s : State) : standing { s with up := v } = standing s := id rfl
@[simp] theorem standing_freeCtr (v) (s : State) : standing { s with freeCtr := v } = standing s := id rfl
@[simp] theorem standing_onSys (g : SysState → SysState) (s : State)
    (h : ∀ x f a b, standingOf (g x) f a b = standingOf x f a b) : standing (onSys g s) = standing s := h _ _ _ _
@[simp] theorem standing_onSf (g : SfState → SfState) (s : State)
    (h : ∀ x f a b, standingOf x (g f) a b = standingOf x f a b) : standing (onSf g s) = standing s := h _ _ _ _
@[simp] theorem standing_onPw (g : PwState → PwState) (s : State)
    (h : ∀ x, (g x).steps = x.steps) : standing (onPw g s) = standing s :=
  congrArg (fun v => standingOf s.sys s.sf v s.pending) (h s.pw)
@[simp] theorem standing_ite {c : Prop} [Decidable c] (a b : State) :
    standing (if c then a else b) = if c then standing a else standing b := apply_ite ..
@[simp] theorem standing_when (c : Bool) (f : State → State) (s : State) (h : ∀ s, standing (f s) = standing s) :
    standing (when c f s) = standing s := by unfold when; split <;> simp [h]
@[simp] theorem standing_forAll {α : Type} (xs : List α) (f : α → State → State) (s : State)
    (h : ∀ x s, standing (f x s) = standing s) : standing (forAll xs f s) = standing s := by
  unfold forAll
  induction xs generalizing s with
  | nil => rfl
  | cons x xs ih => exact (ih (f x s)).trans (h x s)
/-- The standing part that a reply leaves. -/
def standingR : Reply → Standing
  | .done _ _ s => standing s
  | .later s => standing s
/-- The standing part of a next state. -/
def standingO : Out → Option Standing
  | .next s => some (standing s)
  | _ => none
@[simp] theorem standingO_next (s : State) : standingO (.next s) = some (standing s) := id rfl
@[simp] theorem okBytes_standing (b) (s : State) : standingR (okBytes b s) = standing s := id rfl
@[simp] theorem ok_standing (s : State) : standingR (ok s) = standing s := id rfl
@[simp] theorem refuse_standing (c) (s : State) : standingR (refuse c s) = standing s := id rfl
@[simp] theorem done_standing (c b) (s : State) : standingR (Reply.done c b s) = standing s := id rfl
@[simp] theorem later_standing (s : State) : standingR (Reply.later s) = standing s := id rfl
@[simp] theorem reply_ite {c : Prop} [Decidable c] (a b : Reply) :
    standingR (if c then a else b) = if c then standingR a else standingR b := apply_ite ..
@[simp] theorem need_standing (c k) (s : State) (h : ∀ s, standingR (k s) = standing s) :
    standingR (need c k s) = standing s := by unfold need; split <;> simp [h]
@[simp] theorem needState_standing (c k) (s : State) (h : ∀ s, standingR (k s) = standing s) :
    standingR (needState c k s) = standing s := by unfold needState; split <;> simp [h]
@[simp] theorem needClaim_standing (c k) (s : State) (h : ∀ s, standingR (k s) = standing s) :
    standingR (needClaim c k s) = standing s := by unfold needClaim; split <;> simp [h]
@[simp] theorem raiseFrom_standing (o n a) (s : State) : standing (raiseFrom o n a s) = standing s := id rfl
@[simp] theorem evChange_standing (f) (s : State) (h : ∀ s, standing (f s) = standing s) : standing (evChange f s) = standing s := by
  unfold evChange; dsimp only; split <;> simp [h]
@[simp] theorem raise_standing (n a) (s : State) : standing (raise n a s) = standing s := evChange_standing _ _ (raiseFrom_standing _ _ _)
@[simp] theorem raiseBy_standing (h n a) (s : State) : standing (raiseBy h n a s) = standing s := evChange_standing _ _ (raiseFrom_standing _ _ _)
@[simp] theorem raiseIf_standing (c n a) (s : State) : standing (raiseIf c n a s) = standing s := by unfold raiseIf; split <;> simp
@[simp] theorem event_standing (c f) (s : State) (h : ∀ s, standing (f s) = standing s) : standingO (event c f s) = some (standing s) := by
  unfold event; split <;> simp [h]
@[simp] theorem eventTo_standing (c) (t s : State) (h : standing t = standing s) : standingO (event c (fun _ => t) s) = some (standing s) := by
  unfold event; split <;> simp [h]

end Sys2Proof.Machine
end

