-- ==== Sys2Proof/Laws/StandingOps.lean ====
section
/-! SUPPORT. Operations that leave the standing part as it is, in the order of the files that hold them: the operations and the
commands up to the waveform engine's operations. -/
namespace Sys2Proof.Machine

/-! Ops -/

@[simp] theorem modMb_standing (a0) (a1) (s : State) : standing (modMb a0 a1 s) = standing s := by simp [modMb]
@[simp] theorem modBlock_standing (a0) (a1) (s : State) : standing (modBlock a0 a1 s) = standing s := by simp [modBlock]
@[simp] theorem modEngine_standing (a0) (a1) (s : State) : standing (modEngine a0 a1 s) = standing s := by simp [modEngine]
@[simp] theorem modLossQ_standing (a0) (a1) (s : State) : standing (modLossQ a0 a1 s) = standing s := by simp [modLossQ]
@[simp] theorem modMside_standing (a0) (a1) (s : State) : standing (modMside a0 a1 s) = standing s := by simp [modMside]
@[simp] theorem modUnit_standing (a0) (a1) (s : State) : standing (modUnit a0 a1 s) = standing s := by simp [modUnit]
@[simp] theorem modAdc_standing (a0) (a1) (s : State) : standing (modAdc a0 a1 s) = standing s := by simp [modAdc]
@[simp] theorem modCore_standing (a0) (a1) (s : State) : standing (modCore a0 a1 s) = standing s := by simp [modCore]
@[simp] theorem modQueue_standing (a0) (a1) (s : State) : standing (modQueue a0 a1 s) = standing s := by simp [modQueue]
@[simp] theorem modCxq_standing (a0) (a1) (s : State) : standing (modCxq a0 a1 s) = standing s := by simp [modCxq]
@[simp] theorem modLane_standing (a0) (a1) (s : State) : standing (modLane a0 a1 s) = standing s := by simp [modLane]
@[simp] theorem modGroup_standing (a0) (a1) (s : State) : standing (modGroup a0 a1 s) = standing s := by simp [modGroup]
@[simp] theorem modSlink_standing (a0) (a1) (s : State) : standing (modSlink a0 a1 s) = standing s := by simp [modSlink]
@[simp] theorem modTi_standing (a0) (a1) (s : State) : standing (modTi a0 a1 s) = standing s := by simp [modTi]
@[simp] theorem modSplit_standing (a0) (a1) (s : State) : standing (modSplit a0 a1 s) = standing s := by simp [modSplit]
@[simp] theorem modChan_standing (a0) (a1) (s : State) : standing (modChan a0 a1 s) = standing s := by simp [modChan]
@[simp] theorem modChain_standing (a0) (a1) (s : State) : standing (modChain a0 a1 s) = standing s := by simp [modChain]
@[simp] theorem modEm_standing (a0) (a1) (s : State) : standing (modEm a0 a1 s) = standing s := by simp [modEm]
@[simp] theorem modSink_standing (a0) (a1) (s : State) : standing (modSink a0 a1 s) = standing s := by simp [modSink]
@[simp] theorem modIlk_standing (a0) (a1) (s : State) : standing (modIlk a0 a1 s) = standing s := by simp [modIlk]
@[simp] theorem modView_standing (a0) (a1) (s : State) : standing (modView a0 a1 s) = standing s := by simp [modView]
@[simp] theorem drawBool_standing (s : State) : standing (drawBool s).2 = standing s := by simp [drawBool]
@[simp] theorem drawNat_standing (s : State) : standing (drawNat s).2 = standing s := by simp [drawNat]

/-! Events -/

@[simp] theorem logRecord_standing (a0) (s : State) : standing (logRecord a0 s) = standing s := by
  unfold logRecord
  try dsimp only
  repeat' (first | (simp; done) | intro _ | split | with_reducible apply evChange_standing | with_reducible apply event_standing | with_reducible apply Eq.trans (standing_forAll _ _ _ _) | with_reducible apply Eq.trans (standing_when _ _ _ _) | with_reducible apply need_standing | with_reducible apply needState_standing | with_reducible apply needClaim_standing)
  done
@[simp] theorem tc0Send_standing (a0) (s : State) : standing (tc0Send a0 s) = standing s := by simp [tc0Send]
@[simp] theorem advance_standing (a0) (s : State) : standing (advance a0 s) = standing s := by simp [advance]
@[simp] theorem reachUp_standing (a0) (s : State) : standing (reachUp a0 s) = standing s := by simp [reachUp]
@[simp] theorem reachTick_standing (a0) (s : State) : standing (reachTick a0 s) = standing s := by simp [reachTick]

/-! Settings -/

@[simp] theorem setCfg_standing (a0) (a1) (s : State) : standing (setCfg a0 a1 s) = standing s := by simp [setCfg]
@[simp] theorem setCfgEntry_standing (a0) (a1) (a2) (a3) (s : State) : standing (setCfgEntry a0 a1 a2 a3 s) = standing s := by simp [setCfgEntry]

/-! Calls -/

@[simp] theorem respond_standing (a0) (a1) (a2) (s : State) : standing (respond a0 a1 a2 s) = standing s := by simp [respond]
@[simp] theorem checkCall_standing (n code a len) (act : List Byte → State → Reply) (s : State)
    (h : ∀ p s, standingR (act p s) = standing s) : standingR (checkCall n code a len act s) = standing s := by
  unfold checkCall; dsimp only; (repeat' split) <;> simp [h]
@[simp] theorem settle_standing (n r) : standing (settle n r) = standingR r := by
  cases r <;> simp [settle, standingR]
@[simp] theorem callSel_standing (n code sel a len) (act : List Byte → State → Reply) (s : State)
    (h : ∀ p s, standingR (act p s) = standing s) : standingO (callSel n code sel a len act s) = some (standing s) := by
  simp [callSel, h]
@[simp] theorem call_standing (n code a len) (act : List Byte → State → Reply) (s : State)
    (h : ∀ p s, standingR (act p s) = standing s) : standingO (call n code a len act s) = some (standing s) := by
  simp [call, h]
@[simp] theorem addJob_standing (a0) (a1) (a2) (a3) (s : State) : standing (addJob a0 a1 a2 a3 s).2 = standing s := by simp [addJob]
@[simp] theorem startJob_standing (c p) (f : Nat → State → State) (s : State)
    (h : ∀ n s, standing (f n s) = standing s) : standingR (startJob c p f s) = standing s := by
  unfold startJob addJob; dsimp only; split <;> simp [h]
@[simp] theorem deferJob_standing (a0) (a1) (a2) (s : State) : standingR (deferJob a0 a1 a2 s) = standing s := by simp [deferJob]
@[simp] theorem endJob_standing (a0) (a1) (a2) (a3) (s : State) : standing (endJob a0 a1 a2 a3 s) = standing s := by
  unfold endJob; (repeat' split) <;> simp
@[simp] theorem jobDone_standing (a0) (s : State) : standing (jobDone a0 s) = standing s := by simp [jobDone]
@[simp] theorem jobFail_standing (a0) (s : State) : standing (jobFail a0 s) = standing s := by simp [jobFail]
@[simp] theorem satEvent_standing (a0) (a1) (s : State) : standing (satEvent a0 a1 s) = standing s := by simp [satEvent]

/-! SafetyOps -/

@[simp] theorem sfStat_standing (a0) (s : State) : standing (sfStat a0 s) = standing s := by simp [sfStat]
@[simp] theorem logTrip_standing (a0) (a1) (s : State) : standing (logTrip a0 a1 s) = standing s := by simp [logTrip]
@[simp] theorem settleDark_standing (s : State) : standing (settleDark s) = standing s := by
  unfold settleDark; (repeat' split) <;> simp
@[simp] theorem tripHv_standing (s : State) : standing (tripHv s) = standing s := by simp [tripHv]
@[simp] theorem tripShutter_standing (s : State) : standing (tripShutter s) = standing s := by simp [tripShutter]
@[simp] theorem setFunctions_standing (s : State) : standing (setFunctions s) = standing s := by simp [setFunctions]
@[simp] theorem sfEval_standing (s : State) : standing (sfEval s) = standing s := by simp [sfEval]
@[simp] theorem lockout_standing (a0) (s : State) : standing (lockout a0 s) = standing s := by simp [lockout]
@[simp] theorem sfReset_standing (s : State) : standing (sfReset s).2 = standing s := by
  unfold sfReset; dsimp only; (repeat' split) <;> simp
@[simp] theorem copyMirror_standing (s : State) : standing (copyMirror s) = standing s := by simp [copyMirror]
@[simp] theorem sendStatus_standing (s : State) : standing (sendStatus s) = standing s := by simp [sendStatus]
@[simp] theorem bootClaims_standing (s : State) : standing (bootClaims s) = standing s := by simp [bootClaims]
@[simp] theorem coolingReport_standing (s : State) : standing (coolingReport s) = standing s := by simp [coolingReport]
@[simp] theorem coolingClear_standing (s : State) : standing (coolingClear s) = standing s := by simp [coolingClear]
@[simp] theorem handOver_standing (s : State) : standing (handOver s) = standing s := by simp [handOver]
@[simp] theorem hvmonResult_standing (a0) (a1) (a2) (s : State) : standing (hvmonResult a0 a1 a2 s) = standing s := by simp [hvmonResult]

/-! ScOps -/

@[simp] theorem scStat_standing (a0) (s : State) : standing (scStat a0 s) = standing s := by simp [scStat]
@[simp] theorem beginConv_standing (a0) (a1) (s : State) : standing (beginConv a0 a1 s) = standing s := by simp [beginConv]
@[simp] theorem holdGuard_standing (a0) (a1) (a2) (s : State) : standing (holdGuard a0 a1 a2 s) = standing s := by
  unfold holdGuard; (repeat' split) <;> simp
@[simp] theorem holdGuardOpen_standing (a0) (s : State) : standing (holdGuardOpen a0 s) = standing s := by
  unfold holdGuardOpen; dsimp only; (repeat' split) <;> simp
@[simp] theorem setReq_standing (a0) (a1) (a2) (s : State) : standing (setReq a0 a1 a2 s) = standing s := by simp [setReq]
@[simp] theorem jobRuns_standing (a0) (s : State) : standing (jobRuns a0 s) = standing s := by simp [jobRuns]
@[simp] theorem calBegin_standing (s : State) : standing (calBegin s) = standing s := by
  unfold calBegin; (repeat' split) <;> simp
@[simp] theorem gapWork_standing (s : State) : standing (gapWork s) = standing s := by
  unfold gapWork; (repeat' split) <;> simp
@[simp] theorem regularNext_standing (s : State) : standing (regularNext s) = standing s := by
  unfold regularNext; (repeat' split) <;> simp
@[simp] theorem scNext_standing (s : State) : standing (scNext s) = standing s := by
  unfold scNext; (repeat' split) <;> simp
@[simp] theorem abandon_standing (s : State) : standing (abandon s) = standing s := by
  unfold abandon; (repeat' split) <;> simp
@[simp] theorem valueOf_standing (a0) (a1) (a2) (s : State) : standing (valueOf s a0 a1 a2).2 = standing s := by
  unfold valueOf; split <;> simp
@[simp] theorem checkLimits_standing (a0) (a1) (a2) (a3) (s : State) : standing (checkLimits a0 a1 a2 a3 s) = standing s := by
  unfold checkLimits; (repeat' split) <;> simp
@[simp] theorem storeResult_standing (a0) (a1) (s : State) : standing (storeResult a0 a1 s) = standing s := by simp [storeResult]
@[simp] theorem scPowerUp_standing (s : State) : standing (scPowerUp s) = standing s := by simp [scPowerUp]
@[simp] theorem scPowerDown_standing (s : State) : standing (scPowerDown s) = standing s := by simp [scPowerDown]
@[simp] theorem addCal_standing (a0) (a1) (s : State) : standing (addCal a0 a1 s) = standing s := by simp [addCal]
@[simp] theorem diagDone_standing (a0) (s : State) : standing (diagDone a0 s) = standing s := by simp [diagDone]
@[simp] theorem classify_standing (a0) (a1) (s : State) : standing (classify a0 a1 s) = standing s := by simp [classify]

/-! LdOps -/

@[simp] theorem ldStat_standing (a0) (a1) (s : State) : standing (ldStat a0 a1 s) = standing s := by simp [ldStat]
@[simp] theorem skipFlash_standing (a0) (s : State) : standing (skipFlash a0 s) = standing s := by simp [skipFlash]
@[simp] theorem openWindow_standing (a0) (s : State) : standing (openWindow a0 s) = standing s := by simp [openWindow]
@[simp] theorem fireSink_standing (a0) (a1) (s : State) : standing (fireSink a0 a1 s) = standing s := by simp [fireSink]
@[simp] theorem fireChain_standing (a0) (a1) (s : State) : standing (fireChain a0 a1 s) = standing s := by simp [fireChain]
@[simp] theorem diagnose_standing (a0) (a1) (a2) (a3) (s : State) : standing (diagnose a0 a1 a2 a3 s) = standing s := by simp [diagnose]
@[simp] theorem loopAmp_standing (a0) (a1) (a2) (a3) (a4) (a5) (s : State) : standing (loopAmp a0 a1 a2 a3 a4 a5 s).2 = standing s := by
  unfold loopAmp; (repeat' split) <;> simp
@[simp] theorem loopUpdate_standing (a0) (a1) (a2) (s : State) : standing (loopUpdate a0 a1 a2 s) = standing s := by simp [loopUpdate]
@[simp] theorem colourUpdate_standing (a0) (a1) (a2) (a3) (s : State) : standing (colourUpdate a0 a1 a2 a3 s) = standing s := by simp [colourUpdate]
@[simp] theorem chainFound_standing (a0) (a1) (a2) (s : State) : standing (chainFound a0 a1 a2 s) = standing s := by simp [chainFound]
@[simp] theorem chainsFound_standing (ks) (cs) (ws) (s : State) : standing (chainsFound ks cs ws s) = standing s := by
  induction cs generalizing ws s with
  | nil => rfl
  | cons c cs ih => rw [chainsFound, ih]; simp
@[simp] theorem discoverEnds_standing (a0) (a1) (s : State) : standing (discoverEnds a0 a1 s) = standing s := by
  unfold discoverEnds; (repeat' split) <;> simp
@[simp] theorem discoverChains_standing (a0) (a1) (s : State) : standing (discoverChains a0 a1 s) = standing s := by simp [discoverChains]
@[simp] theorem hotEvents_standing (a0) (a1) (s : State) : standing (hotEvents a0 a1 s) = standing s := by simp [hotEvents]
@[simp] theorem proofDone_standing (a0) (s : State) : standing (proofDone a0 s) = standing s := by
  unfold proofDone; dsimp only; (repeat' split) <;> simp
@[simp] theorem boardReports_standing (a0) (a1) (s : State) : standing (boardReports a0 a1 s) = standing s := by simp [boardReports]
@[simp] theorem cancelAll_standing (s : State) : standing (cancelAll s) = standing s := by simp [cancelAll]
@[simp] theorem scheduleTouched_standing (a0) (s : State) : standing (scheduleTouched a0 s) = standing s := by simp [scheduleTouched]

/-! PwOps -/

@[simp] theorem lowJob_standing (c p) (f : Nat → State → State) (s : State)
    (h : ∀ n s, standing (f n s) = standing s) : standingR (lowJob c p f s) = standing s := by
  unfold lowJob; split <;> simp [h]
@[simp] theorem pwStat_standing (a0) (a1) (s : State) : standing (pwStat a0 a1 s) = standing s := by simp [pwStat]
@[simp] theorem pwTime_standing (a0) (a1) (s : State) : standing (pwTime a0 a1 s) = standing s := by simp [pwTime]
@[simp] theorem pwAccount_standing (s : State) : standing (pwAccount s) = standing s := by
  unfold pwAccount; (repeat' split) <;> simp

/-! BbOps -/

@[simp] theorem bbStat_standing (a0) (a1) (a2) (s : State) : standing (bbStat a0 a1 a2 s) = standing s := by simp [bbStat]
@[simp] theorem bbBytes_standing (a0) (a1) (a2) (s : State) : standing (bbBytes a0 a1 a2 s) = standing s := by simp [bbBytes]
@[simp] theorem peakFill_standing (a0) (s : State) : standing (peakFill a0 s) = standing s := by simp [peakFill]
@[simp] theorem releasePage_standing (a0) (s : State) : standing (releasePage a0 s) = standing s := by simp [releasePage]
@[simp] theorem releasePages_standing (a0) (s : State) : standing (releasePages a0 s) = standing s := by simp [releasePages]
@[simp] theorem dropErrs_standing (a0) (a1) (a2) (s : State) : standing (dropErrs a0 a1 a2 s) = standing s := by simp [dropErrs]
@[simp] theorem drainQueue_standing (a0) (s : State) : standing (drainQueue a0 s) = standing s := by simp [drainQueue]
@[simp] theorem moveWord_standing (a0) (a1) (s : State) : standing (moveWord a0 a1 s) = standing s := by
  unfold moveWord; (repeat' split) <;> simp
@[simp] theorem takeChunk_standing (a0) (a1) (a2) (s : State) : standing (takeChunk a0 a1 a2 s) = standing s := by simp [takeChunk]
@[simp] theorem dropChunks_standing (q) : ∀ (l : List (List Nat)) (s : State), standing (dropChunks q l s) = standing s
  | [], s => by simp [dropChunks]
  | p :: r, s => by
    unfold dropChunks; split
    · rfl
    · simp [dropChunks_standing q r]
@[simp] theorem spillChunk_standing (a0) (s : State) : standing (spillChunk a0 s) = standing s := by simp [spillChunk]
@[simp] theorem relieveTail_standing (a0) (s : State) : standing (relieveTail a0 s) = standing s := by simp [relieveTail]
@[simp] theorem wakeUnits_standing (a0) (s : State) : standing (wakeUnits a0 s) = standing s := by simp [wakeUnits]
@[simp] theorem placeFrame_standing (a0) (a1) (s : State) : standing (placeFrame a0 a1 s) = standing s := by simp [placeFrame]
@[simp] theorem closeFrame_standing (a0) (a1) (s : State) : standing (closeFrame a0 a1 s) = standing s := by simp [closeFrame]
@[simp] theorem closeAll_standing (a0) (s : State) : standing (closeAll a0 s) = standing s := by simp [closeAll]
@[simp] theorem lossTotal_standing (a0) (a1) (s : State) : standing (lossTotal a0 a1 s) = standing s := by simp [lossTotal]
@[simp] theorem writeLoss_standing (a0) (a1) (a2) (s : State) : standing (writeLoss a0 a1 a2 s) = standing s := by simp [writeLoss]
@[simp] theorem noteLoss_standing (a0) (a1) (s : State) : standing (noteLoss a0 a1 s) = standing s := by simp [noteLoss]
@[simp] theorem flushLosses_standing (a0) (s : State) : standing (flushLosses a0 s) = standing s := by simp [flushLosses]
@[simp] theorem replaceFrames_standing (q n k l) (s : State) : standing (replaceFrames q n k l s) = standing s := by
  unfold replaceFrames; dsimp only; (repeat' split) <;> simp
@[simp] theorem dropOldestStep_standing (a0) (s : State) : standing (dropOldestStep a0 s) = standing s := by
  unfold dropOldestStep; dsimp only; (repeat' split) <;> simp
@[simp] theorem lossStart_standing (a0) (s : State) : standing (lossStart a0 s) = standing s := by simp [lossStart]
@[simp] theorem lossEnd_standing (a0) (s : State) : standing (lossEnd a0 s) = standing s := by simp [lossEnd]
@[simp] theorem lossEval_standing (a0) (s : State) : standing (lossEval a0 s) = standing s := by simp [lossEval]
@[simp] theorem appendRecord_standing (a0) (a1) (s : State) : standing (appendRecord a0 a1 s) = standing s := by
  unfold appendRecord; dsimp only; (repeat' split) <;> simp
@[simp] theorem putWith_standing (p z) (f : Nat → State → State) (s : State) (h : ∀ q s, standing (f q s) = standing s) :
    standing (putWith p z f s) = standing s := by
  unfold putWith; dsimp only; (repeat' split) <;> simp [h]
@[simp] theorem putRecord_standing (a0) (s : State) : standing (putRecord a0 s) = standing s := by simp [putRecord]
@[simp] theorem putFrame_standing (a0) (a1) (a2) (s : State) : standing (putFrame a0 a1 a2 s) = standing s := by simp [putFrame]
@[simp] theorem putLossRecord_standing (a0) (a1) (a2) (s : State) : standing (putLossRecord a0 a1 a2 s) = standing s := by
  unfold putLossRecord; (repeat' split) <;> simp
@[simp] theorem lossEvalAll_standing (s : State) : standing (lossEvalAll s) = standing s := by simp [lossEvalAll]
@[simp] theorem updateQueue_standing (a0) (s : State) : standing (updateQueue a0 s) = standing s := by simp [updateQueue]
@[simp] theorem updateQueues_standing (s : State) : standing (updateQueues s) = standing s := by simp [updateQueues]
@[simp] theorem startReset_standing (a0) (s : State) : standing (startReset a0 s) = standing s := by simp [startReset]
@[simp] theorem finishReset_standing (a0) (s : State) : standing (finishReset a0 s) = standing s := by simp [finishReset]
@[simp] theorem upsetWords_standing (a0) (a1) (a2) (s : State) : standing (upsetWords a0 a1 a2 s) = standing s := by simp [upsetWords]
@[simp] theorem demandWord_standing (a0) (s : State) : standing (demandWord a0 s) = standing s := by
  unfold demandWord; (repeat' split) <;> simp
@[simp] theorem skipDescriptor_standing (a0) (s : State) : standing (skipDescriptor a0 s) = standing s := by
  unfold skipDescriptor; dsimp only; (repeat' split) <;> simp
@[simp] theorem takeFrame_standing (a0) (a1) (s : State) : standing (takeFrame a0 a1 s).2 = standing s := by
  unfold takeFrame; dsimp only; (repeat' split) <;> simp
@[simp] theorem retirePage_standing (a0) (s : State) : standing (retirePage a0 s) = standing s := by simp [retirePage]
@[simp] theorem weakLine_standing (a0) (s : State) : standing (weakLine a0 s) = standing s := by
  unfold weakLine; dsimp only; (repeat' split) <;> simp
@[simp] theorem watchCorrected_standing (a0) (s : State) : standing (watchCorrected a0 s) = standing s := by
  unfold watchCorrected; (repeat' split) <;> simp
@[simp] theorem trained_standing (a0) (s : State) : standing (trained a0 s) = standing s := by simp [trained]
@[simp] theorem mapEffect_standing (a0) (a1) (s : State) : standing (mapEffect a0 a1 s) = standing s := by simp [mapEffect]
@[simp] theorem resize_standing (a0) (s : State) : standing (resize a0 s) = standing s := by simp [resize]

/-! TmOps -/

@[simp] theorem sealStops_standing (a0) (s : State) : standing (sealStops a0 s) = standing s := by simp [sealStops]
@[simp] theorem bandUpdate_standing (a0) (s : State) : standing (bandUpdate a0 s) = standing s := by simp [bandUpdate]
@[simp] theorem bandsFollow_standing (s : State) : standing (bandsFollow s) = standing s := by simp [bandsFollow]
@[simp] theorem droopSample_standing (a0) (a1) (s : State) : standing (droopSample a0 a1 s) = standing s := by
  unfold droopSample; dsimp only; (repeat' split) <;> simp
@[simp] theorem tmStat_standing (a0) (a1) (s : State) : standing (tmStat a0 a1 s) = standing s := by simp [tmStat]
@[simp] theorem dmMaskUpdate_standing (a0) (a1) (s : State) : standing (dmMaskUpdate a0 a1 s) = standing s := by simp [dmMaskUpdate]
@[simp] theorem updateK_standing (a0) (s : State) : standing (updateK a0 s) = standing s := by simp [updateK]
@[simp] theorem countBin_standing (a0) (a1) (s : State) : standing (countBin a0 a1 s) = standing s := by simp [countBin]
@[simp] theorem beginFill_standing (a0) (a1) (a2) (a3) (s : State) : standing (beginFill a0 a1 a2 a3 s) = standing s := by
  unfold beginFill; (repeat' split) <;> simp
@[simp] theorem updateTc_standing (a0) (a1) (s : State) : standing (updateTc a0 a1 s) = standing s := by simp [updateTc]
@[simp] theorem fillJobEnds_standing (a0) (s : State) : standing (fillJobEnds a0 s) = standing s := by simp [fillJobEnds]
@[simp] theorem finishFill_standing (a0) (a1) (s : State) : standing (finishFill a0 a1 s) = standing s := by simp [finishFill]
@[simp] theorem fillCheck_standing (a0) (a1) (s : State) : standing (fillCheck a0 a1 s) = standing s := by
  unfold fillCheck; (repeat' split) <;> simp
@[simp] theorem startRun_standing (a0) (a1) (s : State) : standing (startRun a0 a1 s) = standing s := by
  unfold startRun; (repeat' split) <;> simp
@[simp] theorem startRuns_standing (a0) (s : State) : standing (startRuns a0 s) = standing s := by simp [startRuns]
@[simp] theorem wakeEngine_standing (a0) (s : State) : standing (wakeEngine a0 s) = standing s := by simp [wakeEngine]
@[simp] theorem bandMissed_standing (a0) (a1) (s : State) : standing (bandMissed a0 a1 s) = standing s := by simp [bandMissed]
@[simp] theorem staleUpdate_standing (a0) (s : State) : standing (staleUpdate a0 s) = standing s := by simp [staleUpdate]
@[simp] theorem skewAdd_standing (a0) (a1) (s : State) : standing (skewAdd a0 a1 s) = standing s := by
  unfold skewAdd; (repeat' split) <;> simp
@[simp] theorem skewFinish_standing (a0) (s : State) : standing (skewFinish a0 s) = standing s := by
  unfold skewFinish; (repeat' split) <;> simp
@[simp] theorem inlRebuild_standing (a0) (s : State) : standing (inlRebuild a0 s) = standing s := by simp [inlRebuild]

/-! FeOps -/

@[simp] theorem setPulse_standing (a0) (a1) (s : State) : standing (setPulse a0 a1 s) = standing s := by simp [setPulse]
@[simp] theorem atPs_standing (a0) (s : State) : standing (atPs a0 s) = standing s := by simp [atPs]
@[simp] theorem reachHalf_standing (a0) (a1) (s : State) : standing (reachHalf a0 a1 s) = standing s := by simp [reachHalf]
@[simp] theorem noteDiscard_standing (a0) (a1) (a2) (s : State) : standing (noteDiscard a0 a1 a2 s) = standing s := by simp [noteDiscard]
@[simp] theorem pushHit_standing (a0) (a1) (s : State) : standing (pushHit a0 a1 s) = standing s := by simp [pushHit]
@[simp] theorem endBridge_standing (a0) (s : State) : standing (endBridge a0 s) = standing s := by simp [endBridge]
@[simp] theorem deliverPulse_standing (a0) (a1) (a2) (a3) (a4) (s : State) : standing (deliverPulse a0 a1 a2 a3 a4 s) = standing s := by simp [deliverPulse]
@[simp] theorem riseSeen_standing (a0) (a1) (a2) (s : State) : standing (riseSeen a0 a1 a2 s) = standing s := by simp [riseSeen]
@[simp] theorem eventRise_standing (a0) (a1) (a2) (s : State) : standing (eventRise a0 a1 a2 s) = standing s := by simp [eventRise]
@[simp] theorem countRise_standing (a0) (a1) (a2) (s : State) : standing (countRise a0 a1 a2 s) = standing s := by simp [countRise]
@[simp] theorem swapBank_standing (a0) (a1) (a2) (s : State) : standing (swapBank a0 a1 a2 s) = standing s := by simp [swapBank]
@[simp] theorem crabSeen_standing (a0) (a1) (s : State) : standing (crabSeen a0 a1 s) = standing s := by simp [crabSeen]
@[simp] theorem crabCounts_standing (a0) (s : State) : standing (crabCounts a0 s) = standing s := by simp [crabCounts]
@[simp] theorem frameBoundary_standing (s : State) : standing (frameBoundary s) = standing s := by
  unfold frameBoundary; dsimp only; (repeat' split) <;> simp
@[simp] theorem dropPulses_standing (a0) (a1) (s : State) : standing (dropPulses a0 a1 s) = standing s := by simp [dropPulses]
@[simp] theorem reloadBlocks_standing (a0) (s : State) : standing (reloadBlocks a0 s) = standing s := by simp [reloadBlocks]
@[simp] theorem rowUpdate_standing (a0) (s : State) : standing (rowUpdate a0 s) = standing s := by simp [rowUpdate]
@[simp] theorem writeConf_standing (a0) (a1) (s : State) : standing (writeConf a0 a1 s) = standing s := by simp [writeConf]
@[simp] theorem writePixels_standing (a0) (s : State) : standing (writePixels a0 s) = standing s := by simp [writePixels]
@[simp] theorem takeMode_standing (a0) (a1) (a2) (s : State) : standing (takeMode a0 a1 a2 s) = standing s := by simp [takeMode]
@[simp] theorem modesEffect_standing (a0) (a1) (a2) (s : State) : standing (modesEffect a0 a1 a2 s) = standing s := by simp [modesEffect]
@[simp] theorem markStuck_standing (a0) (s : State) : standing (markStuck a0 s) = standing s := by simp [markStuck]
@[simp] theorem maskCrab_standing (a0) (a1) (s : State) : standing (maskCrab a0 a1 s) = standing s := by simp [maskCrab]
@[simp] theorem judgeRetest_standing (a0) (s : State) : standing (judgeRetest a0 s) = standing s := by simp [judgeRetest]
@[simp] theorem crabJudge_standing (s : State) : standing (crabJudge s) = standing s := by simp [crabJudge]
@[simp] theorem crabWindow_standing (s : State) : standing (crabWindow s) = standing s := by simp [crabWindow]
@[simp] theorem leakBlock_standing (a0) (s : State) : standing (leakBlock a0 s) = standing s := by simp [leakBlock]
@[simp] theorem leakBits_standing (a0) (s : State) : standing (leakBits a0 s) = standing s := by simp [leakBits]
@[simp] theorem scrubAdd_standing (a0) (a1) (a2) (s : State) : standing (scrubAdd a0 a1 a2 s) = standing s := by simp [scrubAdd]
@[simp] theorem scrubBlock_standing (a0) (a1) (s : State) : standing (scrubBlock a0 a1 s) = standing s := by
  unfold scrubBlock; (repeat' split) <;> simp
@[simp] theorem trimStart_standing (a0) (a1) (s : State) : standing (trimStart a0 a1 s) = standing s := by simp [trimStart]
@[simp] theorem scanBegin_standing (a0) (a1) (a2) (s : State) : standing (scanBegin a0 a1 a2 s) = standing s := by simp [scanBegin]
@[simp] theorem scanRelease_standing (a0) (s : State) : standing (scanRelease a0 s) = standing s := by simp [scanRelease]
@[simp] theorem blockJob_standing (c p b) (g : Nat → Bool) (f : Nat → State → State) (s : State)
    (h : ∀ n s, standing (f n s) = standing s) : standingR (blockJob c p b g f s) = standing s := by
  unfold blockJob; dsimp only; apply need_standing; intro s; (repeat' split) <;> simp [h]
@[simp] theorem scanCall_standing (c p b) (s : State) : standingR (scanCall c p b s) = standing s := by
  unfold scanCall; apply blockJob_standing; intro n s; simp

/-! CxOps -/

@[simp] theorem setCx_standing (a0) (a1) (s : State) : standing (setCx a0 a1 s) = standing s := by simp [setCx]
@[simp] theorem cxStat_standing (a0) (a1) (a2) (s : State) : standing (cxStat a0 a1 a2 s) = standing s := by simp [cxStat]
@[simp] theorem cxBytes_standing (a0) (a1) (a2) (s : State) : standing (cxBytes a0 a1 a2 s) = standing s := by simp [cxBytes]
@[simp] theorem modBufs_standing (a0) (a1) (s : State) : standing (modBufs a0 a1 s) = standing s := by simp [modBufs]
@[simp] theorem writeIndex_standing (a0) (a1) (s : State) : standing (writeIndex a0 a1 s) = standing s := by simp [writeIndex]
@[simp] theorem cxSettle_standing (a0) (a1) (s : State) : standing (cxSettle a0 a1 s) = standing s := by
  unfold cxSettle; (repeat' split) <;> simp
@[simp] theorem countCoded_standing (a0) (a1) (a2) (s : State) : standing (countCoded a0 a1 a2 s) = standing s := by simp [countCoded]
@[simp] theorem cxWork_standing (a0) (a1) (a2) (a3) (s : State) : standing (cxWork a0 a1 a2 a3 s) = standing s := by simp [cxWork]
@[simp] theorem codeFrameUnit_standing (a0) (a1) (a2) (a3) (s : State) : standing (codeFrameUnit a0 a1 a2 a3 s) = standing s := by simp [codeFrameUnit]
@[simp] theorem codeWave_standing (a0) (a1) (a2) (s : State) : standing (codeWave a0 a1 a2 s) = standing s := by simp [codeWave]
@[simp] theorem copyFrame_standing (a0) (a1) (a2) (a3) (s : State) : standing (copyFrame a0 a1 a2 a3 s) = standing s := by simp [copyFrame]
@[simp] theorem codeClusters_standing (a0) (a1) (a2) (s : State) : standing (codeClusters a0 a1 a2 s) = standing s := by
  unfold codeClusters; (repeat' split) <;> simp
@[simp] theorem codeFrame_standing (a0) (a1) (a2) (a3) (s : State) : standing (codeFrame a0 a1 a2 a3 s) = standing s := by
  unfold codeFrame; dsimp only; (repeat' split) <;> simp
@[simp] theorem cxDefer_standing (s : State) : standing (cxDefer s) = standing s := by simp [cxDefer]
@[simp] theorem cxResume_standing (s : State) : standing (cxResume s) = standing s := by simp [cxResume]

/-! HpOps -/

@[simp] theorem hpStat_standing (a0) (a1) (s : State) : standing (hpStat a0 a1 s) = standing s := by simp [hpStat]
@[simp] theorem passHeld_standing (a0) (a1) (a2) (s : State) : standing (passHeld a0 a1 a2 s) = standing s := by
  unfold passHeld; (repeat' split) <;> simp
@[simp] theorem offer_standing (a0) (s : State) : standing (offer a0 s) = standing s := by
  unfold offer; (repeat' split) <;> simp
@[simp] theorem offerLoss_standing (a0) (a1) (a2) (s : State) : standing (offerLoss a0 a1 a2 s) = standing s := by
  unfold offerLoss; dsimp only; (repeat' split) <;> simp
@[simp] theorem sideCount_standing (a0) (a1) (s : State) : standing (sideCount a0 a1 s) = standing s := by simp [sideCount]
@[simp] theorem emitCluster_standing (a0) (s : State) : standing (emitCluster a0 s) = standing s := by simp [emitCluster]
@[simp] theorem sendMerge_standing (a0) (a1) (s : State) : standing (sendMerge a0 a1 s) = standing s := by simp [sendMerge]
@[simp] theorem slPacketIn_standing (a0) (s : State) : standing (slPacketIn a0 s) = standing s := by simp [slPacketIn]
@[simp] theorem meetFragment_standing (a0) (a1) (a2) (a3) (s : State) : standing (meetFragment a0 a1 a2 a3 s) = standing s := by simp [meetFragment]
@[simp] theorem fragArrives_standing (a0) (a1) (a2) (s : State) : standing (fragArrives a0 a1 a2 s) = standing s := by
  unfold fragArrives; dsimp only; (repeat' split) <;> simp
@[simp] theorem keepCluster_standing (a0) (a1) (s : State) : standing (keepCluster a0 a1 s) = standing s := by
  unfold keepCluster
  try dsimp only
  repeat' (first | (simp; done) | intro _ | split | with_reducible apply evChange_standing | with_reducible apply event_standing | with_reducible apply Eq.trans (standing_forAll _ _ _ _) | with_reducible apply Eq.trans (standing_when _ _ _ _) | with_reducible apply need_standing | with_reducible apply needState_standing | with_reducible apply needClaim_standing | with_reducible apply call_standing | with_reducible apply callSel_standing)
  done
@[simp] theorem sendFragment_standing (a0) (a1) (s : State) : standing (sendFragment a0 a1 s) = standing s := by simp [sendFragment]
@[simp] theorem routeClosed_standing (a0) (s : State) : standing (routeClosed a0 s) = standing s := by
  unfold routeClosed; dsimp only; (repeat' split) <;> simp
@[simp] theorem takeCluster_standing (a0) (a1) (s : State) : standing (takeCluster a0 a1 s) = standing s := by simp [takeCluster]
@[simp] theorem ownerTakes_standing (a0) (a1) (a2) (s : State) : standing (ownerTakes a0 a1 a2 s).2 = standing s := by
  unfold ownerTakes; dsimp only; (repeat' split) <;> simp
@[simp] theorem emitClosed_standing (a0) (a1) (s : State) : standing (emitClosed a0 a1 s) = standing s := by simp [emitClosed]
@[simp] theorem closeCluster_standing (a0) (a1) (s : State) : standing (closeCluster a0 a1 s) = standing s := by
  unfold closeCluster; dsimp only; (repeat' split) <;> simp
@[simp] theorem joinHit_standing (a0) (a1) (s : State) : standing (joinHit a0 a1 s) = standing s := by
  unfold joinHit; dsimp only; (repeat' split) <;> simp
@[simp] theorem sideEnds_standing (a0) (s : State) : standing (sideEnds a0 s) = standing s := by simp [sideEnds]
@[simp] theorem setSide_standing (a0) (a1) (s : State) : standing (setSide a0 a1 s) = standing s := by simp [setSide]
@[simp] theorem hpChange_standing (a0) (a1) (s : State) : standing (hpChange a0 a1 s) = standing s := by simp [hpChange]
@[simp] theorem hpDue_standing (s : State) : standing (hpDue s) = standing s := by simp [hpDue]
@[simp] theorem mergeSet_standing (a0) (s : State) : standing (mergeSet a0 s) = standing s := by simp [mergeSet]

/-! TrOps -/

@[simp] theorem trStat_standing (a0) (a1) (s : State) : standing (trStat a0 a1 s) = standing s := by simp [trStat]
@[simp] theorem recordSample_standing (a0) (a1) (a2) (s : State) : standing (recordSample a0 a1 a2 s) = standing s := by simp [recordSample]
@[simp] theorem stepUnit_standing (u n c r v) (a : List UnitFire × State) : standing (stepUnit u n c r v a).2 = standing a.2 := by
  unfold stepUnit
  dsimp only
  (repeat' split) <;> simp
@[simp] theorem evalUnit_standing (u n r v) (s : State) : standing (evalUnit u n r v s).2 = standing s := by
  have h : ∀ (v : List (Nat × Int)) (a : List UnitFire × State),
      standing (v.foldl (fun a v => stepUnit u n (unitConf s u) r v a) a).2 = standing a.2 := by
    intro v
    induction v with
    | nil => intro a; rfl
    | cons x v ih => intro a; rw [List.foldl_cons, ih]; simp
  simpa [evalUnit] using h v ([], s)
@[simp] theorem letFire_standing (a0) (a1) (s : State) : standing (letFire a0 a1 s).2 = standing s := by
  unfold letFire; dsimp only; (repeat' split) <;> simp
@[simp] theorem openGate_standing (a0) (a1) (a2) (s : State) : standing (openGate a0 a1 a2 s) = standing s := by
  unfold openGate; dsimp only; (repeat' split) <;> simp
@[simp] theorem pulseFrom_standing (a0) (s : State) : standing (pulseFrom a0 s) = standing s := by simp [pulseFrom]
@[simp] theorem pulseOut_standing (a0) (a1) (s : State) : standing (pulseOut a0 a1 s) = standing s := by simp [pulseOut]
@[simp] theorem claimCapture_standing (a0) (a1) (a2) (s : State) : standing (claimCapture a0 a1 a2 s).2 = standing s := by
  unfold claimCapture; (repeat' split) <;> simp
@[simp] theorem addFire_standing (a0) (s : State) : standing (addFire a0 s) = standing s := by simp [addFire]
@[simp] theorem sendOn_standing (a0) (a1) (s : State) : standing (sendOn a0 a1 s) = standing s := by simp [sendOn]
@[simp] theorem copyWord_standing (a0) (s : State) : standing (copyWord a0 s) = standing s := by simp [copyWord]
@[simp] theorem onDomain_standing (a0) (s : State) : standing (onDomain a0 s) = standing s := by simp [onDomain]
@[simp] theorem domainCount_standing (a0) (s : State) : standing (domainCount a0 s) = standing s := by simp [domainCount]
@[simp] theorem sendWord_standing (a0) (s : State) : standing (sendWord a0 s) = standing s := by simp [sendWord]
@[simp] theorem forwardWord_standing (a0) (a1) (s : State) : standing (forwardWord a0 a1 s) = standing s := by simp [forwardWord]
@[simp] theorem domainFire_standing (a0) (a1) (s : State) : standing (domainFire a0 a1 s) = standing s := by simp [domainFire]
@[simp] theorem fireUnit_standing (a0) (a1) (a2) (s : State) : standing (fireUnit a0 a1 a2 s) = standing s := by simp [fireUnit]
@[simp] theorem fireGroup_standing (a0) (a1) (a2) (a3) (s : State) : standing (fireGroup a0 a1 a2 a3 s) = standing s := by
  unfold fireGroup; dsimp only; (repeat' split) <;> simp
@[simp] theorem admitAll_standing (g hits) (s : State) : standing (admitAll g hits s).2 = standing s := by
  have h : ∀ (v : List (List UnitFire)) (a : List UnitFire × State),
      standing (v.foldl (fun a h => match letFire g h a.2 with
        | (some f, s) => (a.1 ++ [f], s)
        | (none, s) => (a.1, s)) a).2 = standing a.2 := by
    intro v
    induction v with
    | nil => intro a; rfl
    | cons x v ih =>
      intro a
      have hx := letFire_standing g x a.2
      rw [List.foldl_cons, ih]
      revert hx
      cases letFire g x a.2 with
      | mk f t => cases f <;> simp
  exact h hits ([], s)
@[simp] theorem evalRaw_standing (g) (s : State) : standing (evalRaw g s) = standing s := by
  have h : ∀ (us : List Nat) (a : List (List UnitFire) × State),
      standing (us.foldl (fun (a : List (List UnitFire) × State) u =>
        let c := unitConf s u
        let raw := fallbackAt s u g
        let row (p : Nat) : Option Int := if cfSource c = 0 ∨ raw then histSample s p g else some 0
        let x := evalUnit u g raw (unitInputs s c row) a.2
        (a.1 ++ [x.1], x.2)) a).2 = standing a.2 := by
    intro v
    induction v with
    | nil => intro a; rfl
    | cons x v ih => intro a; rw [List.foldl_cons, ih]; simp
  unfold evalRaw
  dsimp only
  rw [fireGroup_standing, admitAll_standing]
  exact h _ _
@[simp] theorem fireNamed_standing (a0) (a1) (a2) (a3) (s : State) : standing (fireNamed a0 a1 a2 a3 s) = standing s := by simp [fireNamed]
@[simp] theorem evalCoreUnit_standing (a0) (a1) (s : State) : standing (evalCoreUnit a0 a1 s) = standing s := by simp [evalCoreUnit]
@[simp] theorem evalCore_standing (a0) (s : State) : standing (evalCore a0 s) = standing s := by simp [evalCore]
@[simp] theorem remoteFire_standing (a0) (a1) (a2) (s : State) : standing (remoteFire a0 a1 a2 s) = standing s := by
  unfold remoteFire; dsimp only; (repeat' split) <;> simp
@[simp] theorem domainDetach_standing (s : State) : standing (domainDetach s) = standing s := by
  unfold domainDetach; (repeat' split) <;> simp
@[simp] theorem domainJoin_standing (s : State) : standing (domainJoin s) = standing s := by simp [domainJoin]
@[simp] theorem placeUnit_standing (a0) (a1) (s : State) : standing (placeUnit a0 a1 s) = standing s := by simp [placeUnit]
@[simp] theorem installUnit_standing (a0) (a1) (s : State) : standing (installUnit a0 a1 s) = standing s := by simp [installUnit]
@[simp] theorem applyUnits_standing (s : State) : standing (applyUnits s) = standing s := by simp [applyUnits]
@[simp] theorem setDomain_standing (a0) (s : State) : standing (setDomain a0 s) = standing s := by simp [setDomain]
@[simp] theorem setTrigio_standing (a0) (s : State) : standing (setTrigio a0 s) = standing s := by simp [setTrigio]
@[simp] theorem setTrigger_standing (a0) (s : State) : standing (setTrigger a0 s) = standing s := by simp [setTrigger]
@[simp] theorem acceptTrigger_standing (a0) (a1) (s : State) : standing (acceptTrigger a0 a1 s) = standing s := by simp [acceptTrigger]
@[simp] theorem trPowerUp_standing (s : State) : standing (trPowerUp s) = standing s := by simp [trPowerUp]
@[simp] theorem trPowerDown_standing (a0) (s : State) : standing (trPowerDown a0 s) = standing s := by simp [trPowerDown]
@[simp] theorem shiftSamples_standing (a0) (s : State) : standing (shiftSamples a0 s) = standing s := by simp [shiftSamples]

/-! TcOps -/

@[simp] theorem timeStat_standing (a0) (a1) (s : State) : standing (timeStat a0 a1 s) = standing s := by simp [timeStat]
@[simp] theorem drawWords_standing : ∀ (n) (s : State), standing (drawWords n s).2 = standing s
  | 0, s => rfl
  | n + 1, s => by simp [drawWords, drawWords_standing n]
@[simp] theorem selectFreq_standing (a0) (s : State) : standing (selectFreq a0 s) = standing s := by simp [selectFreq]
@[simp] theorem trackUsable_standing (s : State) : standing (trackUsable s) = standing s := by simp [trackUsable]
@[simp] theorem freqRefresh_standing (s : State) : standing (freqRefresh s) = standing s := by simp [freqRefresh]
@[simp] theorem modFreqSrc_standing (a0) (a1) (s : State) : standing (modFreqSrc a0 a1 s) = standing s := by simp [modFreqSrc]
@[simp] theorem trackOcxo_standing (s : State) : standing (trackOcxo s) = standing s := by simp [trackOcxo]
@[simp] theorem freqLost_standing (a0) (s : State) : standing (freqLost a0 s) = standing s := by simp [freqLost]
@[simp] theorem startMonitors_standing (s : State) : standing (startMonitors s) = standing s := by simp [startMonitors]
@[simp] theorem freqGood_standing (a0) (s : State) : standing (freqGood a0 s) = standing s := by simp [freqGood]
@[simp] theorem setTime_standing (a0) (s : State) : standing (setTime a0 s) = standing s := by simp [setTime]
@[simp] theorem steerOn_standing (s : State) : standing (steerOn s) = standing s := by simp [steerOn]
@[simp] theorem decideStep_standing (a0) (s : State) : standing (decideStep a0 s) = standing s := by simp [decideStep]
@[simp] theorem steer_standing (a0) (s : State) : standing (steer a0 s) = standing s := by simp [steer]
@[simp] theorem acquire_standing (a0) (s : State) : standing (acquire a0 s) = standing s := by simp [acquire]
@[simp] theorem trackSync_standing (a0) (s : State) : standing (trackSync a0 s) = standing s := by simp [trackSync]
@[simp] theorem timeMeasure_standing (a0) (a1) (s : State) : standing (timeMeasure a0 a1 s) = standing s := by
  unfold timeMeasure; dsimp only; (repeat' split) <;> simp
@[simp] theorem followMaster_standing (s : State) : standing (followMaster s) = standing s := by
  unfold followMaster; dsimp only; (repeat' split) <;> simp
@[simp] theorem announce_standing (a0) (s : State) : standing (announce a0 s) = standing s := by simp [announce]
@[simp] theorem openExchange_standing (a0) (s : State) : standing (openExchange a0 s) = standing s := by simp [openExchange]
@[simp] theorem completeExchange_standing (a0) (s : State) : standing (completeExchange a0 s) = standing s := by
  unfold completeExchange; (repeat' split) <;> simp
@[simp] theorem onExchange_standing (a0) (a1) (a2) (s : State) : standing (onExchange a0 a1 a2 s) = standing s := by
  unfold onExchange; (repeat' split) <;> simp
@[simp] theorem stampNow_standing (a0) (s : State) : standing (stampNow a0 s).2 = standing s := by simp [stampNow]
@[simp] theorem splitAdd_standing (a0) (a1) (s : State) : standing (splitAdd a0 a1 s) = standing s := by simp [splitAdd]
@[simp] theorem splitCount_standing (a0) (a1) (s : State) : standing (splitCount a0 a1 s) = standing s := by simp [splitCount]
@[simp] theorem splitStop_standing (a0) (a1) (s : State) : standing (splitStop a0 a1 s) = standing s := by
  unfold splitStop; dsimp only; (repeat' split) <;> simp
@[simp] theorem splitStart_standing (a0) (a1) (s : State) : standing (splitStart a0 a1 s) = standing s := by simp [splitStart]
@[simp] theorem splitStamp_standing (a0) (a1) (a2) (s : State) : standing (splitStamp a0 a1 a2 s) = standing s := by simp [splitStamp]
@[simp] theorem endGate_standing (a0) (a1) (s : State) : standing (endGate a0 a1 s) = standing s := by
  unfold endGate; (repeat' split) <;> simp
@[simp] theorem takeStep_standing (a0) (s : State) : standing (takeStep a0 s) = standing s := by simp [takeStep]

/-! Window -/

@[simp] theorem ring_standing (a0) (s : State) : standing (ring a0 s) = standing s := by simp [ring]
@[simp] theorem mailboxWrite_standing (a0) (a1) (a2) (s : State) : standing (mailboxWrite a0 a1 a2 s) = standing s := by simp [mailboxWrite]
@[simp] theorem stickyClear_standing (a0) (a1) (s : State) : standing (stickyClear a0 a1 s) = standing s := by simp [stickyClear]
@[simp] theorem enableWrite_standing (a0) (a1) (s : State) : standing (enableWrite a0 a1 s) = standing s := by simp [enableWrite]
@[simp] theorem windowWrite_standing (a0) (a1) (s : State) : standing (windowWrite a0 a1 s) = standing s := by simp [windowWrite]
@[simp] theorem windowWrites_standing : ∀ (a) (l : List Word) (s : State), standing (windowWrites a l s) = standing s
  | _, [], s => rfl
  | a, w :: ws, s => by simp [windowWrites, windowWrites_standing _ ws]
@[simp] theorem execSbRead_standing (a0) (a1) (s : State) : standingO (execSbRead a0 a1 s) = some (standing s) := by simp [execSbRead]
@[simp] theorem execSbWrite_standing (a0) (a1) (s : State) : standingO (execSbWrite a0 a1 s) = some (standing s) := by simp [execSbWrite]
@[simp] theorem execSbStatus_standing (s : State) : standingO (execSbStatus s) = some (standing s) := by simp [execSbStatus]
@[simp] theorem execSbUnknownCommand_standing (a0) (s : State) : standingO (execSbUnknownCommand a0 s) = some (standing s) := by simp [execSbUnknownCommand]
@[simp] theorem execWindowWrite_standing (a0) (a1) (s : State) : standingO (execWindowWrite a0 a1 s) = some (standing s) := by simp [execWindowWrite]
@[simp] theorem execEventStickyClear_standing (a0) (a1) (s : State) : standingO (execEventStickyClear a0 a1 s) = some (standing s) := by simp [execEventStickyClear]
@[simp] theorem lkStat_standing (a0) (a1) (a2) (s : State) : standing (lkStat a0 a1 a2 s) = standing s := by simp [lkStat]
@[simp] theorem ctrlAnswer_standing (a0) (a1) (s : State) : standing (ctrlAnswer a0 a1 s) = standing s := by
  unfold ctrlAnswer; dsimp only; (repeat' split) <;> simp
@[simp] theorem execCtrlRead_standing (a0) (s : State) : standingO (execCtrlRead a0 s) = some (standing s) := by simp [execCtrlRead]
@[simp] theorem execCtrlWrite_standing (a0) (s : State) : standingO (execCtrlWrite a0 s) = some (standing s) := by simp [execCtrlWrite]

/-! TroubleRecord -/

@[simp] theorem commitPending_standing (n) (s : State) : standing (commitPending n s) = standing s := by
  unfold commitPending; split
  · rfl
  · dsimp only; rw [raiseIf_standing]; apply evChange_standing; intro s; split <;> simp
@[simp] theorem holdPending_standing (a0) (a1) (s : State) : standing (holdPending a0 a1 s) = standing s := by
  unfold holdPending; dsimp only; (repeat' split) <;> simp
@[simp] theorem execAlarmPendingCommit_standing (a0) (s : State) : standingO (execAlarmPendingCommit a0 s) = some (standing s) := by
  unfold execAlarmPendingCommit
  try dsimp only
  repeat' (first | (simp; done) | intro _ | split | with_reducible apply evChange_standing | with_reducible apply event_standing | with_reducible apply Eq.trans (standing_forAll _ _ _ _) | with_reducible apply Eq.trans (standing_when _ _ _ _) | with_reducible apply need_standing | with_reducible apply needState_standing | with_reducible apply needClaim_standing | with_reducible apply call_standing | with_reducible apply callSel_standing)
  done
@[simp] theorem releaseOne_standing (s : State) : standing (releaseOne s) = standing s := by
  unfold releaseOne; (repeat' split) <;> simp
@[simp] theorem execAlarmHeldRelease_standing (s : State) : standingO (execAlarmHeldRelease s) = some (standing s) := by simp [execAlarmHeldRelease]
@[simp] theorem closeIncident_standing (s : State) : standing (closeIncident s) = standing s := by simp [closeIncident]
@[simp] theorem execIncidentCalmExpiry_standing (s : State) : standingO (execIncidentCalmExpiry s) = some (standing s) := by simp [execIncidentCalmExpiry]
@[simp] theorem eventVote_standing (a0) (s : State) : standing (eventVote a0 s) = standing s := by simp [eventVote]
@[simp] theorem execEventStateTmrVote_standing (a0) (s : State) : standingO (execEventStateTmrVote a0 s) = some (standing s) := by simp [execEventStateTmrVote]
@[simp] theorem execEvtRead_standing (a0) (s : State) : standingO (execEvtRead a0 s) = some (standing s) := by simp [execEvtRead]
@[simp] theorem execEvtClear_standing (a0) (s : State) : standingO (execEvtClear a0 s) = some (standing s) := by
  unfold execEvtClear; apply call_standing; intro p s; apply need_standing; intro s; simp
@[simp] theorem execEvtConfig_standing (a0) (s : State) : standingO (execEvtConfig a0 s) = some (standing s) := by simp [execEvtConfig]
@[simp] theorem execEvtSummary_standing (a0) (s : State) : standingO (execEvtSummary a0 s) = some (standing s) := by simp [execEvtSummary]
@[simp] theorem execFlogRead_standing (a0) (s : State) : standingO (execFlogRead a0 s) = some (standing s) := by simp [execFlogRead]
@[simp] theorem execFlogClear_standing (a0) (s : State) : standingO (execFlogClear a0 s) = some (standing s) := by simp [execFlogClear]
@[simp] theorem execEvtStats_standing (a0) (s : State) : standingO (execEvtStats a0 s) = some (standing s) := by simp [execEvtStats]
@[simp] theorem execEvtTraceConfig_standing (a0) (s : State) : standingO (execEvtTraceConfig a0 s) = some (standing s) := by simp [execEvtTraceConfig]

/-! LkOps -/

@[simp] theorem enterLane_standing (a0) (a1) (s : State) : standing (enterLane a0 a1 s) = standing s := by simp [enterLane]
@[simp] theorem toDetect_standing (a0) (s : State) : standing (toDetect a0 s) = standing s := by simp [toDetect]
@[simp] theorem toRate_standing (a0) (a1) (s : State) : standing (toRate a0 a1 s) = standing s := by simp [toRate]
@[simp] theorem stepDown_standing (a0) (s : State) : standing (stepDown a0 s) = standing s := by simp [stepDown]
@[simp] theorem putBlocks_standing (a0) (a1) (s : State) : standing (putBlocks a0 a1 s) = standing s := by simp [putBlocks]
@[simp] theorem putOnAll_standing (a0) (a1) (s : State) : standing (putOnAll a0 a1 s) = standing s := by simp [putOnAll]
@[simp] theorem idleGap_standing (a0) (a1) (s : State) : standing (idleGap a0 a1 s) = standing s := by simp [idleGap]
@[simp] theorem takeBack_standing (a0) (s : State) : standing (takeBack a0 s).2 = standing s := by simp [takeBack]
@[simp] theorem cutFlight_standing (a0) (s : State) : standing (cutFlight a0 s) = standing s := by simp [cutFlight]
@[simp] theorem pathLost_standing (s : State) : standing (pathLost s) = standing s := by simp [pathLost]
@[simp] theorem leaveRunning_standing (a0) (a1) (s : State) : standing (leaveRunning a0 a1 s) = standing s := by simp [leaveRunning]
@[simp] theorem groupDown_standing (a0) (s : State) : standing (groupDown a0 s) = standing s := by simp [groupDown]
@[simp] theorem governorAnswer_standing (a0) (a1) (a2) (a3) (s : State) : standing (governorAnswer a0 a1 a2 a3 s) = standing s := by
  unfold governorAnswer; (repeat' split) <;> simp
@[simp] theorem rateAnswer_standing (a0) (a1) (s : State) : standing (rateAnswer a0 a1 s) = standing s := by
  unfold rateAnswer; (repeat' split) <;> simp
@[simp] theorem requestRate_standing (a0) (a1) (a2) (s : State) : standing (requestRate a0 a1 a2 s) = standing s := by simp [requestRate]
@[simp] theorem restartGroup_standing (a0) (s : State) : standing (restartGroup a0 s) = standing s := by
  unfold restartGroup
  try dsimp only
  repeat' (first | (simp; done) | intro _ | split | with_reducible apply evChange_standing | with_reducible apply event_standing | with_reducible apply Eq.trans (standing_forAll _ _ _ _) | with_reducible apply Eq.trans (standing_when _ _ _ _) | with_reducible apply need_standing | with_reducible apply needState_standing | with_reducible apply needClaim_standing | with_reducible apply call_standing | with_reducible apply callSel_standing)
  done
@[simp] theorem fixWidth_standing (a0) (s : State) : standing (fixWidth a0 s) = standing s := by
  unfold fixWidth; (repeat' split) <;> simp
@[simp] theorem tryAlign_standing (a0) (s : State) : standing (tryAlign a0 s) = standing s := by
  unfold tryAlign; (repeat' split) <;> simp
@[simp] theorem tryMap_standing (a0) (s : State) : standing (tryMap a0 s) = standing s := by simp [tryMap]
@[simp] theorem wakeNaks_standing (a0) (s : State) : standing (wakeNaks a0 s) = standing s := by simp [wakeNaks]
@[simp] theorem enterRunning_standing (a0) (s : State) : standing (enterRunning a0 s) = standing s := by simp [enterRunning]
@[simp] theorem laneRunning_standing (a0) (s : State) : standing (laneRunning a0 s) = standing s := by simp [laneRunning]
@[simp] theorem noteNeg_standing (a0) (a1) (a2) (s : State) : standing (noteNeg a0 a1 a2 s) = standing s := by simp [noteNeg]
@[simp] theorem tryFec_standing (a0) (s : State) : standing (tryFec a0 s) = standing s := by simp [tryFec]
@[simp] theorem rateAgreed_standing (a0) (a1) (s : State) : standing (rateAgreed a0 a1 s) = standing s := by simp [rateAgreed]
@[simp] theorem ethCheck_standing (a0) (s : State) : standing (ethCheck a0 s) = standing s := by simp [ethCheck]
@[simp] theorem resolveMac_standing (a0) (s : State) : standing (resolveMac a0 s) = standing s := by simp [resolveMac]
@[simp] theorem ethCount_standing (a0) (a1) (s : State) : standing (ethCount a0 a1 s) = standing s := by simp [ethCount]
@[simp] theorem putWire_standing (a0) (a1) (a2) (a3) (s : State) : standing (putWire a0 a1 a2 a3 s) = standing s := by simp [putWire]
@[simp] theorem sendPacket_standing (a0) (a1) (a2) (a3) (a4) (a5) (a6) (a7) (s : State) : standing (sendPacket a0 a1 a2 a3 a4 a5 a6 a7 s) = standing s := by simp [sendPacket]
@[simp] theorem sendOwn_standing (a0) (a1) (a2) (a3) (a4) (s : State) : standing (sendOwn a0 a1 a2 a3 a4 s) = standing s := by simp [sendOwn]
@[simp] theorem stampRequest_standing (a0) (a1) (s : State) : standing (stampRequest a0 a1 s) = standing s := by simp [stampRequest]
@[simp] theorem sendTc0_standing (a0) (a1) (s : State) : standing (sendTc0 a0 a1 s) = standing s := by simp [sendTc0]
@[simp] theorem reportGone_standing (a0) (a1) (s : State) : standing (reportGone a0 a1 s) = standing s := by simp [reportGone]
@[simp] theorem dropGone_standing (a0) (s : State) : standing (dropGone a0 s) = standing s := by simp [dropGone]
@[simp] theorem sendOut_standing (a0) (a1) (s : State) : standing (sendOut a0 a1 s) = standing s := by simp [sendOut]
@[simp] theorem sendAgain_standing (a0) (a1) (a2) (s : State) : standing (sendAgain a0 a1 a2 s) = standing s := by
  unfold sendAgain; dsimp only; (repeat' split) <;> simp
@[simp] theorem sendBuf_standing (a0) (a1) (a2) (a3) (s : State) : standing (sendBuf a0 a1 a2 a3 s) = standing s := by simp [sendBuf]
@[simp] theorem sendFrame_standing (g q f ups) (s : State) : standing (sendFrame g q f ups s) = standing s := by
  unfold sendFrame
  dsimp only
  split
  · simp
  · have ht := takeFrame_standing q f (upsetWords q f.pos (ups.filter (fun u => decide (32 * u.word < frameSize f.payload.length))) (cxSettle q f s))
    revert ht
    cases takeFrame q f (upsetWords q f.pos (ups.filter (fun u => decide (32 * u.word < frameSize f.payload.length))) (cxSettle q f s)) with
    | mk o t => cases o <;> simp
@[simp] theorem sendQueue_standing (a0) (a1) (a2) (a3) (s : State) : standing (sendQueue a0 a1 a2 a3 s) = standing s := by
  unfold sendQueue; (repeat' split) <;> simp
@[simp] theorem fillTokens_standing (a0) (s : State) : standing (fillTokens a0 s) = standing s := by simp [fillTokens]
@[simp] theorem sendLog_standing (a0) (s : State) : standing (sendLog a0 s) = standing s := by simp [sendLog]
@[simp] theorem sendNext_standing (a0) (a1) (a2) (s : State) : standing (sendNext a0 a1 a2 s) = standing s := by
  unfold sendNext; dsimp only; (repeat' split) <;> simp
@[simp] theorem slBlocks_standing (a0) (a1) (s : State) : standing (slBlocks a0 a1 s) = standing s := by simp [slBlocks]
@[simp] theorem slBytes_standing (a0) (a1) (s : State) : standing (slBytes a0 a1 s).2 = standing s := by simp [slBytes]
@[simp] theorem slSend_standing (a0) (a1) (s : State) : standing (slSend a0 a1 s) = standing s := by simp [slSend]
@[simp] theorem sendSide_standing (a0) (s : State) : standing (sendSide a0 s) = standing s := by
  unfold sendSide; dsimp only; (repeat' split) <;> simp
@[simp] theorem slDown_standing (a0) (a1) (s : State) : standing (slDown a0 a1 s) = standing s := by simp [slDown]
@[simp] theorem startSides_standing (s : State) : standing (startSides s) = standing s := by simp [startSides]
@[simp] theorem lkPowerUp_standing (s : State) : standing (lkPowerUp s) = standing s := by simp [lkPowerUp]
@[simp] theorem lkPowerDown_standing (s : State) : standing (lkPowerDown s) = standing s := by simp [lkPowerDown]

/-! Links -/

@[simp] theorem execLaneSignalDetect_standing (a0) (s : State) : standingO (execLaneSignalDetect a0 s) = some (standing s) := by simp [execLaneSignalDetect]
@[simp] theorem execLaneBlockLock_standing (a0) (s : State) : standingO (execLaneBlockLock a0 s) = some (standing s) := by
  unfold execLaneBlockLock
  try dsimp only
  repeat' (first | (simp; done) | intro _ | split | with_reducible apply evChange_standing | with_reducible apply event_standing | with_reducible apply Eq.trans (standing_forAll _ _ _ _) | with_reducible apply Eq.trans (standing_when _ _ _ _) | with_reducible apply need_standing | with_reducible apply needState_standing | with_reducible apply needClaim_standing | with_reducible apply call_standing | with_reducible apply callSel_standing)
  done
@[simp] theorem execLaneLockLost_standing (a0) (s : State) : standingO (execLaneLockLost a0 s) = some (standing s) := by simp [execLaneLockLost]
@[simp] theorem execNegAdvRx_standing (a0) (a1) (s : State) : standingO (execNegAdvRx a0 a1 s) = some (standing s) := by simp [execNegAdvRx]
@[simp] theorem execNegFecRx_standing (a0) (a1) (s : State) : standingO (execNegFecRx a0 a1 s) = some (standing s) := by
  unfold execNegFecRx
  try dsimp only
  repeat' (first | (simp; done) | intro _ | split | with_reducible apply evChange_standing | with_reducible apply event_standing | with_reducible apply Eq.trans (standing_forAll _ _ _ _) | with_reducible apply Eq.trans (standing_when _ _ _ _) | with_reducible apply need_standing | with_reducible apply needState_standing | with_reducible apply needClaim_standing | with_reducible apply call_standing | with_reducible apply callSel_standing)
  done
@[simp] theorem execNegGroupRx_standing (a0) (a1) (s : State) : standingO (execNegGroupRx a0 a1 s) = some (standing s) := by simp [execNegGroupRx]
@[simp] theorem execNegMapRx_standing (a0) (a1) (s : State) : standingO (execNegMapRx a0 a1 s) = some (standing s) := by simp [execNegMapRx]
@[simp] theorem execNegReadyRx_standing (a0) (s : State) : standingO (execNegReadyRx a0 s) = some (standing s) := by simp [execNegReadyRx]
@[simp] theorem execNegRateReqRx_standing (a0) (a1) (s : State) : standingO (execNegRateReqRx a0 a1 s) = some (standing s) := by simp [execNegRateReqRx]
@[simp] theorem execNegRateAckRx_standing (a0) (a1) (s : State) : standingO (execNegRateAckRx a0 a1 s) = some (standing s) := by
  unfold execNegRateAckRx
  try dsimp only
  repeat' (first | (simp; done) | intro _ | split | with_reducible apply evChange_standing | with_reducible apply event_standing | with_reducible apply Eq.trans (standing_forAll _ _ _ _) | with_reducible apply Eq.trans (standing_when _ _ _ _) | with_reducible apply need_standing | with_reducible apply needState_standing | with_reducible apply needClaim_standing | with_reducible apply call_standing | with_reducible apply callSel_standing)
  done
@[simp] theorem execAlignMarkerRx_standing (a0) (a1) (a2) (s : State) : standingO (execAlignMarkerRx a0 a1 a2 s) = some (standing s) := by
  unfold execAlignMarkerRx
  try dsimp only
  repeat' (first | (simp; done) | intro _ | split | with_reducible apply evChange_standing | with_reducible apply event_standing | with_reducible apply Eq.trans (standing_forAll _ _ _ _) | with_reducible apply Eq.trans (standing_when _ _ _ _) | with_reducible apply need_standing | with_reducible apply needState_standing | with_reducible apply needClaim_standing | with_reducible apply call_standing | with_reducible apply callSel_standing)
  done
@[simp] theorem execAlignMarkerSend_standing (a0) (s : State) : standingO (execAlignMarkerSend a0 s) = some (standing s) := by simp [execAlignMarkerSend]
@[simp] theorem execMarkerMissed_standing (a0) (s : State) : standingO (execMarkerMissed a0 s) = some (standing s) := by simp [execMarkerMissed]
@[simp] theorem execFecCodewordUncorrectable_standing (a0) (s : State) : standingO (execFecCodewordUncorrectable a0 s) = some (standing s) := by simp [execFecCodewordUncorrectable]
@[simp] theorem execLaneRateDwellTimeout_standing (a0) (s : State) : standingO (execLaneRateDwellTimeout a0 s) = some (standing s) := by simp [execLaneRateDwellTimeout]
@[simp] theorem execLaneTxOffEnd_standing (a0) (s : State) : standingO (execLaneTxOffEnd a0 s) = some (standing s) := by simp [execLaneTxOffEnd]
@[simp] theorem execLaneFecTimeout_standing (a0) (s : State) : standingO (execLaneFecTimeout a0 s) = some (standing s) := by simp [execLaneFecTimeout]
@[simp] theorem execGroupTimeout_standing (a0) (s : State) : standingO (execGroupTimeout a0 s) = some (standing s) := by simp [execGroupTimeout]
@[simp] theorem regroup_standing (a0) (s : State) : standing (regroup a0 s) = standing s := by simp [regroup]
@[simp] theorem execAlignTimeout_standing (a0) (s : State) : standingO (execAlignTimeout a0 s) = some (standing s) := by simp [execAlignTimeout]
@[simp] theorem execMapTimeout_standing (a0) (s : State) : standingO (execMapTimeout a0 s) = some (standing s) := by simp [execMapTimeout]
@[simp] theorem execRateReqTimeout_standing (a0) (s : State) : standingO (execRateReqTimeout a0 s) = some (standing s) := by simp [execRateReqTimeout]
@[simp] theorem execRegroupTimeout_standing (a0) (s : State) : standingO (execRegroupTimeout a0 s) = some (standing s) := by simp [execRegroupTimeout]
@[simp] theorem execPacketSend_standing (a0) (a1) (a2) (s : State) : standingO (execPacketSend a0 a1 a2 s) = some (standing s) := by simp [execPacketSend]
@[simp] theorem execRxPacketBad_standing (a0) (s : State) : standingO (execRxPacketBad a0 s) = some (standing s) := by simp [execRxPacketBad]
@[simp] theorem execRxReservedStream_standing (a0) (a1) (s : State) : standingO (execRxReservedStream a0 a1 s) = some (standing s) := by simp [execRxReservedStream]
@[simp] theorem execNakRx_standing (g p) (s : State) : standingO (execNakRx g p s) = some (standing s) := by
  unfold execNakRx; apply event_standing; intro s; dsimp only; split
  · simp
  · rw [reportGone_standing, standing_forAll]
    · simp
    · intro x s; split <;> simp
@[simp] theorem execNakGroupWaitExpiry_standing (a0) (s : State) : standingO (execNakGroupWaitExpiry a0 s) = some (standing s) := by
  unfold execNakGroupWaitExpiry; (repeat' split) <;> simp
@[simp] theorem execTailSend_standing (a0) (s : State) : standingO (execTailSend a0 s) = some (standing s) := by simp [execTailSend]
@[simp] theorem execArpRequestRx_standing (a0) (a1) (a2) (a3) (s : State) : standingO (execArpRequestRx a0 a1 a2 a3 s) = some (standing s) := by simp [execArpRequestRx]
@[simp] theorem execArpReplyRx_standing (a0) (a1) (a2) (s : State) : standingO (execArpReplyRx a0 a1 a2 s) = some (standing s) := by simp [execArpReplyRx]
@[simp] theorem execArpRetry_standing (a0) (s : State) : standingO (execArpRetry a0 s) = some (standing s) := by simp [execArpRetry]
@[simp] theorem execArpFailTimeout_standing (a0) (s : State) : standingO (execArpFailTimeout a0 s) = some (standing s) := by simp [execArpFailTimeout]
@[simp] theorem execPauseRx_standing (a0) (a1) (s : State) : standingO (execPauseRx a0 a1 s) = some (standing s) := by simp [execPauseRx]
@[simp] theorem execPauseExpiry_standing (a0) (s : State) : standingO (execPauseExpiry a0 s) = some (standing s) := by simp [execPauseExpiry]
@[simp] theorem execEthFrameDiscard_standing (a0) (s : State) : standingO (execEthFrameDiscard a0 s) = some (standing s) := by simp [execEthFrameDiscard]
@[simp] theorem slUp_standing (a0) (a1) (s : State) : standing (slUp a0 a1 s) = standing s := by simp [slUp]
@[simp] theorem slRefuse_standing (a0) (s : State) : standing (slRefuse a0 s) = standing s := by simp [slRefuse]
@[simp] theorem execSlHelloRx_standing (a0) (a1) (s : State) : standingO (execSlHelloRx a0 a1 s) = some (standing s) := by simp [execSlHelloRx]
@[simp] theorem execSlHelloSend_standing (a0) (s : State) : standingO (execSlHelloSend a0 s) = some (standing s) := by simp [execSlHelloSend]
@[simp] theorem execSlHelloTimeout_standing (a0) (s : State) : standingO (execSlHelloTimeout a0 s) = some (standing s) := by simp [execSlHelloTimeout]
@[simp] theorem execLkStatus_standing (a0) (s : State) : standingO (execLkStatus a0 s) = some (standing s) := by simp [execLkStatus]
@[simp] theorem fecCatchUp_standing (a0) (s : State) : standing (fecCatchUp a0 s) = standing s := by simp [fecCatchUp]
@[simp] theorem execLkLaneStatus_standing (a0) (s : State) : standingO (execLkLaneStatus a0 s) = some (standing s) := by
  unfold execLkLaneStatus; apply call_standing; intro p s; apply need_standing; intro s; simp
@[simp] theorem execLkConfig_standing (a0) (s : State) : standingO (execLkConfig a0 s) = some (standing s) := by simp [execLkConfig]
@[simp] theorem execLkRenegotiate_standing (a0) (s : State) : standingO (execLkRenegotiate a0 s) = some (standing s) := by
  unfold execLkRenegotiate; apply call_standing; intro p s; apply need_standing; intro s; simp
@[simp] theorem execLkRateSet_standing (a0) (s : State) : standingO (execLkRateSet a0 s) = some (standing s) := by
  unfold execLkRateSet; apply call_standing; intro p s; apply need_standing; intro s; simp
@[simp] theorem execLkClassConfig_standing (a0) (s : State) : standingO (execLkClassConfig a0 s) = some (standing s) := by simp [execLkClassConfig]
@[simp] theorem execLkTc2WeightSet_standing (a0) (s : State) : standingO (execLkTc2WeightSet a0 s) = some (standing s) := by simp [execLkTc2WeightSet]
@[simp] theorem execLkPacketCloseSet_standing (a0) (s : State) : standingO (execLkPacketCloseSet a0 s) = some (standing s) := by simp [execLkPacketCloseSet]
@[simp] theorem execLkRepechageClear_standing (a0) (s : State) : standingO (execLkRepechageClear a0 s) = some (standing s) := by
  unfold execLkRepechageClear; apply call_standing; intro p s; apply need_standing; intro s; simp
@[simp] theorem execLkPrbsConfig_standing (a0) (s : State) : standingO (execLkPrbsConfig a0 s) = some (standing s) := by
  unfold execLkPrbsConfig; apply call_standing; intro p s; apply need_standing; intro s; simp
@[simp] theorem prbsInject_standing (mb sel l f) (s : State) : standingO (prbsInject mb sel l f s) = some (standing s) := by
  unfold prbsInject; apply callSel_standing; intro p s; simp
@[simp] theorem execLkPrbsInjectSingle_standing (a0) (s : State) : standingO (execLkPrbsInjectSingle a0 s) = some (standing s) := by simp [execLkPrbsInjectSingle]
@[simp] theorem execLkPrbsInjectBurst_standing (a0) (s : State) : standingO (execLkPrbsInjectBurst a0 s) = some (standing s) := by simp [execLkPrbsInjectBurst]
@[simp] theorem execLkPrbsInjectRate_standing (a0) (s : State) : standingO (execLkPrbsInjectRate a0 s) = some (standing s) := by simp [execLkPrbsInjectRate]
@[simp] theorem execLkPrbsInjectStop_standing (a0) (s : State) : standingO (execLkPrbsInjectStop a0 s) = some (standing s) := by simp [execLkPrbsInjectStop]
@[simp] theorem prbsCatchUp_standing (a0) (s : State) : standing (prbsCatchUp a0 s) = standing s := by simp [prbsCatchUp]
@[simp] theorem execLkPrbsRead_standing (a0) (s : State) : standingO (execLkPrbsRead a0 s) = some (standing s) := by
  unfold execLkPrbsRead; apply call_standing; intro p s; apply need_standing; intro s; simp
@[simp] theorem execPrbsCheckerLock_standing (a0) (a1) (s : State) : standingO (execPrbsCheckerLock a0 a1 s) = some (standing s) := by simp [execPrbsCheckerLock]
@[simp] theorem execPrbsLockLost_standing (a0) (a1) (a2) (s : State) : standingO (execPrbsLockLost a0 a1 a2 s) = some (standing s) := by simp [execPrbsLockLost]
@[simp] theorem execLkEthConfig_standing (a0) (s : State) : standingO (execLkEthConfig a0 s) = some (standing s) := by simp [execLkEthConfig]
@[simp] theorem execLkEthStatus_standing (a0) (s : State) : standingO (execLkEthStatus a0 s) = some (standing s) := by simp [execLkEthStatus]
@[simp] theorem execLkSlStatus_standing (a0) (s : State) : standingO (execLkSlStatus a0 s) = some (standing s) := by simp [execLkSlStatus]
@[simp] theorem execLkSlConfig_standing (a0) (s : State) : standingO (execLkSlConfig a0 s) = some (standing s) := by simp [execLkSlConfig]
@[simp] theorem execLkStats_standing (a0) (s : State) : standingO (execLkStats a0 s) = some (standing s) := by
  unfold execLkStats; apply call_standing; intro p s; apply need_standing; intro s; simp
@[simp] theorem execLkTc0Load_standing (a0) (s : State) : standingO (execLkTc0Load a0 s) = some (standing s) := by simp [execLkTc0Load]

/-! FrontEnd -/

@[simp] theorem execDiscriminatorRise_standing (a0) (a1) (a2) (s : State) : standingO (execDiscriminatorRise a0 a1 a2 s) = some (standing s) := by simp [execDiscriminatorRise]
@[simp] theorem execRingCountSaturated_standing (a0) (s : State) : standingO (execRingCountSaturated a0 s) = some (standing s) := by
  unfold execRingCountSaturated; (repeat' split) <;> simp
@[simp] theorem execRangeSwitch_standing (a0) (a1) (s : State) : standingO (execRangeSwitch a0 a1 s) = some (standing s) := by
  unfold execRangeSwitch; (repeat' split) <;> simp
@[simp] theorem execRangeBlankEnd_standing (a0) (s : State) : standingO (execRangeBlankEnd a0 s) = some (standing s) := by
  unfold execRangeBlankEnd; (repeat' split) <;> simp
@[simp] theorem execDiscriminatorFall_standing (a0) (a1) (s : State) : standingO (execDiscriminatorFall a0 a1 s) = some (standing s) := by
  unfold execDiscriminatorFall; (repeat' split) <;> simp
@[simp] theorem execTotSaturated_standing (a0) (s : State) : standingO (execTotSaturated a0 s) = some (standing s) := by
  unfold execTotSaturated; (repeat' split) <;> simp
@[simp] theorem execPixelDeadTimeEnd_standing (a0) (s : State) : standingO (execPixelDeadTimeEnd a0 s) = some (standing s) := by
  unfold execPixelDeadTimeEnd; (repeat' split) <;> simp
@[simp] theorem execBlockClockReady_standing (a0) (s : State) : standingO (execBlockClockReady a0 s) = some (standing s) := by
  unfold execBlockClockReady; (repeat' split) <;> simp
@[simp] theorem execBlockClockIdleGate_standing (a0) (s : State) : standingO (execBlockClockIdleGate a0 s) = some (standing s) := by simp [execBlockClockIdleGate]
@[simp] theorem execBridgeSaturated_standing (a0) (s : State) : standingO (execBridgeSaturated a0 s) = some (standing s) := by
  unfold execBridgeSaturated; (repeat' split) <;> simp
@[simp] theorem execPortRecordAgeOut_standing (a0) (s : State) : standingO (execPortRecordAgeOut a0 s) = some (standing s) := by
  unfold execPortRecordAgeOut; (repeat' split) <;> simp
@[simp] theorem execPortLossSend_standing (a0) (a1) (s : State) : standingO (execPortLossSend a0 a1 s) = some (standing s) := by
  unfold execPortLossSend; (repeat' split) <;> simp
@[simp] theorem execWatermarkSend_standing (a0) (s : State) : standingO (execWatermarkSend a0 s) = some (standing s) := by simp [execWatermarkSend]
@[simp] theorem execFrameBoundary_standing (s : State) : standingO (execFrameBoundary s) = some (standing s) := by simp [execFrameBoundary]
@[simp] theorem writeUnit_standing (a0) (a1) (a2) (a3) (a4) (s : State) : standing (writeUnit a0 a1 a2 a3 a4 s) = standing s := by simp [writeUnit]
@[simp] theorem execFrameUnitAssemble_standing (a0) (a1) (s : State) : standingO (execFrameUnitAssemble a0 a1 s) = some (standing s) := by
  unfold execFrameUnitAssemble; (repeat' split) <;> simp
@[simp] theorem execFeModeEffect_standing (s : State) : standingO (execFeModeEffect s) = some (standing s) := by
  unfold execFeModeEffect; (repeat' split) <;> simp
@[simp] theorem execCrabWindowEnd_standing (s : State) : standingO (execCrabWindowEnd s) = some (standing s) := by simp [execCrabWindowEnd]
@[simp] theorem execCrabRetest_standing (a0) (s : State) : standingO (execCrabRetest a0 s) = some (standing s) := by
  unfold execCrabRetest; (repeat' split) <;> simp
@[simp] theorem execLeakUpdate_standing (a0) (s : State) : standingO (execLeakUpdate a0 s) = some (standing s) := by simp [execLeakUpdate]
@[simp] theorem execFeScrub_standing (a0) (s : State) : standingO (execFeScrub a0 s) = some (standing s) := by simp [execFeScrub]
@[simp] theorem droopSamples_standing (a0) (s : State) : standing (droopSamples a0 s) = standing s := by simp [droopSamples]
@[simp] theorem execFeTmrVote_standing (a0) (a1) (s : State) : standingO (execFeTmrVote a0 a1 s) = some (standing s) := by
  unfold execFeTmrVote
  try dsimp only
  repeat' (first | (simp; done) | intro _ | split | with_reducible apply evChange_standing | with_reducible apply event_standing | with_reducible apply Eq.trans (standing_forAll _ _ _ _) | with_reducible apply Eq.trans (standing_when _ _ _ _) | with_reducible apply need_standing | with_reducible apply needState_standing | with_reducible apply needClaim_standing)
  done
@[simp] theorem execTpStep_standing (s : State) : standingO (execTpStep s) = some (standing s) := by
  unfold execTpStep; (repeat' split) <;> simp
@[simp] theorem execFeModeSet_standing (mb) (s : State) : standingO (execFeModeSet mb s) = some (standing s) := by
  unfold execFeModeSet; apply call_standing; intro p s; dsimp only; apply need_standing; intro s
  (repeat' split) <;> simp
@[simp] theorem execFeModeGet_standing (a0) (s : State) : standingO (execFeModeGet a0 s) = some (standing s) := by simp [execFeModeGet]
@[simp] theorem execFeDacSet_standing (a0) (s : State) : standingO (execFeDacSet a0 s) = some (standing s) := by
  unfold execFeDacSet; apply call_standing; intro p s; apply need_standing; intro s; simp
@[simp] theorem execFeDacGet_standing (a0) (s : State) : standingO (execFeDacGet a0 s) = some (standing s) := by simp [execFeDacGet]
@[simp] theorem execFePixelWrite_standing (a0) (s : State) : standingO (execFePixelWrite a0 s) = some (standing s) := by simp [execFePixelWrite]
@[simp] theorem execFePixelRead_standing (a0) (s : State) : standingO (execFePixelRead a0 s) = some (standing s) := by simp [execFePixelRead]
@[simp] theorem execFeTrimRun_standing (a0) (s : State) : standingO (execFeTrimRun a0 s) = some (standing s) := by simp [execFeTrimRun]
@[simp] theorem execFeScurve_standing (a0) (s : State) : standingO (execFeScurve a0 s) = some (standing s) := by simp [execFeScurve]
@[simp] theorem execFeScanResult_standing (a0) (s : State) : standingO (execFeScanResult a0 s) = some (standing s) := by simp [execFeScanResult]
@[simp] theorem execFeBumpTest_standing (a0) (s : State) : standingO (execFeBumpTest a0 s) = some (standing s) := by simp [execFeBumpTest]
@[simp] theorem execFeBumpResult_standing (a0) (s : State) : standingO (execFeBumpResult a0 s) = some (standing s) := by simp [execFeBumpResult]
@[simp] theorem execFeTpInject_standing (a0) (s : State) : standingO (execFeTpInject a0 s) = some (standing s) := by
  unfold execFeTpInject; apply call_standing; intro p s; apply need_standing; intro s; simp
@[simp] theorem execFeCrabConfig_standing (a0) (s : State) : standingO (execFeCrabConfig a0 s) = some (standing s) := by simp [execFeCrabConfig]
@[simp] theorem execFeCrabList_standing (a0) (s : State) : standingO (execFeCrabList a0 s) = some (standing s) := by simp [execFeCrabList]
@[simp] theorem execFeLeakConfig_standing (a0) (s : State) : standingO (execFeLeakConfig a0 s) = some (standing s) := by simp [execFeLeakConfig]
@[simp] theorem execFeFrameConfig_standing (a0) (s : State) : standingO (execFeFrameConfig a0 s) = some (standing s) := by simp [execFeFrameConfig]
@[simp] theorem execFeChargeCal_standing (a0) (s : State) : standingO (execFeChargeCal a0 s) = some (standing s) := by simp [execFeChargeCal]
@[simp] theorem execFeChargeRead_standing (a0) (s : State) : standingO (execFeChargeRead a0 s) = some (standing s) := by simp [execFeChargeRead]
@[simp] theorem execFeChargeWrite_standing (a0) (s : State) : standingO (execFeChargeWrite a0 s) = some (standing s) := by simp [execFeChargeWrite]
@[simp] theorem execFeScrubStatus_standing (a0) (s : State) : standingO (execFeScrubStatus a0 s) = some (standing s) := by simp [execFeScrubStatus]
@[simp] theorem execFeStatus_standing (a0) (s : State) : standingO (execFeStatus a0 s) = some (standing s) := by simp [execFeStatus]

/-! Timing -/

@[simp] theorem execBlockCounterCheck_standing (a0) (a1) (s : State) : standingO (execBlockCounterCheck a0 a1 s) = some (standing s) := by simp [execBlockCounterCheck]
@[simp] theorem execInlUpdate_standing (a0) (s : State) : standingO (execInlUpdate a0 s) = some (standing s) := by simp [execInlUpdate]
@[simp] theorem tempUpdate_standing (a0) (s : State) : standing (tempUpdate a0 s) = standing s := by simp [tempUpdate]
@[simp] theorem execTmTempUpdate_standing (s : State) : standingO (execTmTempUpdate s) = some (standing s) := by simp [execTmTempUpdate]
@[simp] theorem runCounts_standing (a0) (a1) (a2) (a3) (s : State) : standing (runCounts a0 a1 a2 a3 s) = standing s := by simp [runCounts]
@[simp] theorem latchRun_standing (a0) (a1) (s : State) : standing (latchRun a0 a1 s) = standing s := by simp [latchRun]
@[simp] theorem execCalRunLatch_standing (a0) (a1) (s : State) : standingO (execCalRunLatch a0 a1 s) = some (standing s) := by
  unfold execCalRunLatch
  try dsimp only
  repeat' (first | (simp; done) | intro _ | split | with_reducible apply evChange_standing | with_reducible apply event_standing | with_reducible apply Eq.trans (standing_forAll _ _ _ _) | with_reducible apply Eq.trans (standing_when _ _ _ _) | with_reducible apply need_standing | with_reducible apply needState_standing | with_reducible apply needClaim_standing)
  done
@[simp] theorem execCalBandAgeExpiry_standing (a0) (a1) (s : State) : standingO (execCalBandAgeExpiry a0 a1 s) = some (standing s) := by simp [execCalBandAgeExpiry]
@[simp] theorem execTmStatus_standing (a0) (s : State) : standingO (execTmStatus a0 s) = some (standing s) := by simp [execTmStatus]
@[simp] theorem execTmCalStatus_standing (a0) (s : State) : standingO (execTmCalStatus a0 s) = some (standing s) := by simp [execTmCalStatus]
@[simp] theorem calRunBegin_standing (a0) (a1) (s : State) : standing (calRunBegin a0 a1 s) = standing s := by simp [calRunBegin]
@[simp] theorem execTmCalRun_standing (a0) (s : State) : standingO (execTmCalRun a0 s) = some (standing s) := by
  unfold execTmCalRun; apply call_standing; intro p s; apply need_standing; intro s; simp
@[simp] theorem execTmBandConfig_standing (a0) (s : State) : standingO (execTmBandConfig a0 s) = some (standing s) := by simp [execTmBandConfig]
@[simp] theorem execTmPeriodRead_standing (a0) (s : State) : standingO (execTmPeriodRead a0 s) = some (standing s) := by simp [execTmPeriodRead]
@[simp] theorem periodsWritten_standing (a0) (a1) (s : State) : standing (periodsWritten a0 a1 s) = standing s := by simp [periodsWritten]
@[simp] theorem execTmPeriodWrite_standing (a0) (s : State) : standingO (execTmPeriodWrite a0 s) = some (standing s) := by
  unfold execTmPeriodWrite; apply call_standing; intro p s; apply need_standing; intro s; simp
@[simp] theorem execTmSkewRead_standing (a0) (s : State) : standingO (execTmSkewRead a0 s) = some (standing s) := by simp [execTmSkewRead]
@[simp] theorem execTmSkewWrite_standing (a0) (s : State) : standingO (execTmSkewWrite a0 s) = some (standing s) := by simp [execTmSkewWrite]
@[simp] theorem execTmWalkRead_standing (a0) (s : State) : standingO (execTmWalkRead a0 s) = some (standing s) := by simp [execTmWalkRead]
@[simp] theorem execTmWalkWrite_standing (a0) (s : State) : standingO (execTmWalkWrite a0 s) = some (standing s) := by simp [execTmWalkWrite]
@[simp] theorem execTmWalkCal_standing (mb) (s : State) : standingO (execTmWalkCal mb s) = some (standing s) := by
  unfold execTmWalkCal; apply call_standing; intro p s; apply blockJob_standing; intro n s; rfl
@[simp] theorem skewBegin_standing (a0) (a1) (s : State) : standing (skewBegin a0 a1 s) = standing s := by simp [skewBegin]
@[simp] theorem execTmSkewCal_standing (a0) (s : State) : standingO (execTmSkewCal a0 s) = some (standing s) := by
  unfold execTmSkewCal; apply call_standing; intro p s; apply need_standing; intro s; simp
@[simp] theorem execTmInlRead_standing (a0) (s : State) : standingO (execTmInlRead a0 s) = some (standing s) := by simp [execTmInlRead]
@[simp] theorem execTmTempConfig_standing (a0) (s : State) : standingO (execTmTempConfig a0 s) = some (standing s) := by simp [execTmTempConfig]
@[simp] theorem execTmDroopRead_standing (a0) (s : State) : standingO (execTmDroopRead a0 s) = some (standing s) := by simp [execTmDroopRead]
@[simp] theorem execTmStats_standing (a0) (s : State) : standingO (execTmStats a0 s) = some (standing s) := by simp [execTmStats]

/-! WeOps -/

@[simp] theorem weStat_standing (a0) (a1) (a2) (s : State) : standing (weStat a0 a1 a2 s) = standing s := by simp [weStat]
@[simp] theorem passWords_standing (a0) (s : State) : standing (passWords a0 s) = standing s := by
  unfold passWords; (repeat' split) <;> simp
@[simp] theorem flushRecords_standing (a0) (s : State) : standing (flushRecords a0 s) = standing s := by simp [flushRecords]
@[simp] theorem closeRecord_standing (a0) (a1) (a2) (s : State) : standing (closeRecord a0 a1 a2 s) = standing s := by simp [closeRecord]
@[simp] theorem abandonRecord_standing (a0) (s : State) : standing (abandonRecord a0 s) = standing s := by simp [abandonRecord]
@[simp] theorem finishFlights_standing (a0) (s : State) : standing (finishFlights a0 s) = standing s := by simp [finishFlights]
@[simp] theorem switchUnits_standing (a0) (a1) (s : State) : standing (switchUnits a0 a1 s) = standing s := by simp [switchUnits]
@[simp] theorem leaveCore_standing (a0) (a1) (s : State) : standing (leaveCore a0 a1 s) = standing s := by simp [leaveCore]
@[simp] theorem coreLive_standing (a0) (a1) (s : State) : standing (coreLive a0 a1 s) = standing s := by simp [coreLive]
@[simp] theorem weFault_standing (a0) (a1) (s : State) : standing (weFault a0 a1 s) = standing s := by simp [weFault]
@[simp] theorem passCycles_standing (n) : ∀ (k) (s : State), standing (passCycles n k s) = standing s
  | 0, s => rfl
  | k + 1, s => by
    unfold passCycles; dsimp only; (repeat' split) <;> simp [passCycles_standing n k]
@[simp] theorem startCore_standing (a0) (s : State) : standing (startCore a0 s) = standing s := by simp [startCore]
@[simp] theorem stopCore_standing (a0) (s : State) : standing (stopCore a0 s) = standing s := by simp [stopCore]
@[simp] theorem deferCore_standing (a0) (s : State) : standing (deferCore a0 s) = standing s := by simp [deferCore]
@[simp] theorem resumeCore_standing (a0) (s : State) : standing (resumeCore a0 s) = standing s := by simp [resumeCore]
@[simp] theorem suspendCore_standing (a0) (s : State) : standing (suspendCore a0 s) = standing s := by
  unfold suspendCore; (repeat' split) <;> simp
@[simp] theorem wakeCore_standing (a0) (s : State) : standing (wakeCore a0 s) = standing s := by simp [wakeCore]
@[simp] theorem loseCore_standing (a0) (s : State) : standing (loseCore a0 s) = standing s := by simp [loseCore]
@[simp] theorem pickPending_standing {α : Type} (l : List (α → α)) (v : α) (s : State) : standing (pickPending l v s).2 = standing s := by
  have h : ∀ (l : List (α → α)) (a : α × State),
      standing (l.foldl (fun a f => let d := drawBool a.2; (if d.1 then f a.1 else a.1, d.2)) a).2 = standing a.2 := by
    intro v
    induction v with
    | nil => intro a; rfl
    | cons x v ih => intro a; rw [List.foldl_cons, ih]; simp
  exact h l (v, s)
@[simp] theorem readReg_standing (a0) (a1) (s : State) : standing (readReg a0 a1 s).2 = standing s := by simp [readReg]
@[simp] theorem readAcc_standing (a0) (a1) (s : State) : standing (readAcc a0 a1 s).2 = standing s := by simp [readAcc]
@[simp] theorem readB_standing (a0) (a1) (s : State) : standing (readB a0 a1 s).2 = standing s := by
  unfold readB; (repeat' split) <;> simp
@[simp] theorem launch_standing (a0) (a1) (a2) (s : State) : standing (launch a0 a1 a2 s) = standing s := by simp [launch]
@[simp] theorem launchReg_standing (a0) (a1) (a2) (a3) (s : State) : standing (launchReg a0 a1 a2 a3 s) = standing s := by simp [launchReg]
@[simp] theorem setSat_standing (a0) (a1) (s : State) : standing (setSat a0 a1 s) = standing s := by simp [setSat]
@[simp] theorem launchMove_standing (a0) (s : State) (a2) : standing (launchMove a0 s a2) = standing s := by simp [launchMove]
@[simp] theorem goOn_standing (n l) (s : State) : standing (goOn n l s) = standing s := by
  unfold goOn; dsimp only; rw [passCycles_standing, modCore_standing]
/-- What an act leaves: the state it ends in, and what it does after the moves. -/
def standingA (s : State) : WeAct → Prop
  | .done _ f t => standing t = standing s ∧ ∀ x, standing (f x) = standing x
  | .go _ _ t => standing t = standing s
  | .jump _ t => standing t = standing s
  | .fault _ t => standing t = standing s
  | .stall _ t => standing t = standing s
@[simp] theorem go_standing (a b) (s t : State) : standingA s (.go a b t) ↔ standing t = standing s := Iff.rfl
@[simp] theorem jump_standing (a) (s t : State) : standingA s (.jump a t) ↔ standing t = standing s := Iff.rfl
@[simp] theorem fault_standing (a) (s t : State) : standingA s (.fault a t) ↔ standing t = standing s := Iff.rfl
@[simp] theorem stall_standing (a) (s t : State) : standingA s (.stall a t) ↔ standing t = standing s := Iff.rfl
@[simp] theorem doneA_standing (a f) (s t : State) :
    standingA s (.done a f t) ↔ standing t = standing s ∧ ∀ x, standing (f x) = standing x := Iff.rfl
theorem foldMoves_standing (n) : ∀ (ms : List WeMove) (s : State), standing (ms.foldl (launchMove n) s) = standing s
  | [], s => rfl
  | m :: ms, s => by rw [List.foldl_cons, foldMoves_standing n ms]; simp
theorem settleAct_standing (n ms) (s : State) (a) (h : standingA s a) : standing (settleAct n ms a) = standing s := by
  cases a <;> simp_all [settleAct]
@[simp] theorem issueNow_standing (n o l) (act : WeIns → State → WeAct) (s : State)
    (h : ∀ i s, standingA s (act i s)) : standing (issueNow n o l act s) = standing s := by
  unfold issueNow; dsimp only
  iterate 5 (split; · simp)
  generalize weDecode (tget 0 (coreAt s n).p (coreAt s n).index) = i
  have hm : standing ((movesOf i).foldl (launchMove n) (weStat n 0 1 s)) = standing s := by simp [foldMoves_standing]
  have hA := h i ((movesOf i).foldl (launchMove n) (weStat n 0 1 s))
  revert hA
  cases act i ((movesOf i).foldl (launchMove n) (weStat n 0 1 s)) with
  | stall k t => simp
  | fault c t => simp
  | go a b t => intro hA; rw [settleAct_standing n _ _ _ hA, hm]
  | jump a t => intro hA; rw [settleAct_standing n _ _ _ hA, hm]
  | done a f t => intro hA; rw [settleAct_standing n _ _ _ hA, hm]
@[simp] theorem issue_standing (n o l) (act : WeIns → State → WeAct) (s : State)
    (h : ∀ i s, standingA s (act i s)) : standingO (issue n o l act s) = some (standing s) := by
  unfold issue; apply event_standing; intro s; exact issueNow_standing n o l act s h
@[simp] theorem goAct_standing (n) (s t : State) : standingA s (goAct n t) ↔ standing t = standing s := Iff.rfl
@[simp] theorem branchAct_standing (n k) (s t : State) (h : standing t = standing s) : standingA s (branchAct n k t) := by
  unfold branchAct; split <;> simp [h]
@[simp] theorem binary_standing (n l f i) (s : State) : standingA s (binary n l f i s) := by
  unfold binary; dsimp only; (repeat' split) <;> simp
@[simp] theorem macAct_standing (n f i) (s : State) : standingA s (macAct n f i s) := by
  unfold macAct; dsimp only; (repeat' split) <;> simp
@[simp] theorem setAccAct_standing (n a v) (s t : State) (h : standing t = standing s) : standingA s (setAccAct n a v t) := by
  unfold setAccAct; (repeat' split) <;> simp [h]
@[simp] theorem ftapAct_standing (b n i) (s : State) : standingA s (ftapAct b n i s) := by
  unfold ftapAct; dsimp only; (repeat' split) <;> simp
theorem popInput_standing (n c) (s : State) : ∀ v ∈ popInput n c s, standing v.2 = standing s := by
  intro v hv
  unfold popInput at hv
  (repeat' split at hv) <;> cases hv
  simp
@[simp] theorem inAct_standing (n i) (s : State) : standingA s (inAct n i s) := by
  have h : ∀ v ∈ popInput n (i.src1 % 16) s, standing v.2 = standing s := popInput_standing n (i.src1 % 16) s
  unfold inAct
  revert h
  cases popInput n (i.src1 % 16) s with
  | none => intro _; simp
  | some v => intro h; have := h v rfl; obtain ⟨a, t⟩ := v; simpa using this
@[simp] theorem lateOutput_standing (a0) (a1) (a2) (s : State) : standing (lateOutput a0 a1 a2 s) = standing s := by simp [lateOutput]
@[simp] theorem pushOutput_standing (a0) (a1) (a2) (s : State) : standing (pushOutput a0 a1 a2 s) = standing s := by
  unfold pushOutput; dsimp only; (repeat' split) <;> simp
@[simp] theorem outAct_standing (n i) (s : State) : standingA s (outAct n i s) := by
  unfold outAct; dsimp only; (repeat' split) <;> simp
@[simp] theorem qputAct_standing (n i) (s : State) : standingA s (qputAct n i s) := by
  unfold qputAct; dsimp only; (repeat' split) <;> simp
@[simp] theorem endStall_standing (a0) (a1) (s : State) : standing (endStall a0 a1 s) = standing s := by simp [endStall]
@[simp] theorem coreToNow_standing (a0) (s : State) : standing (coreToNow a0 s) = standing s := by
  unfold coreToNow; dsimp only; (repeat' split) <;> simp
@[simp] theorem irqReach_standing (a0) (a1) (s : State) : standing (irqReach a0 a1 s) = standing s := by simp [irqReach]
@[simp] theorem entrySamples_standing (e) (s : State) : standing (entrySamples e s).2 = standing s := by
  have h : ∀ (l : List Nat) (a : List Byte × State),
      standing (l.foldl (fun (a : List Byte × State) k =>
        if k < e.lost then (a.1 ++ b2 0, a.2)
        else match histSample a.2 e.patch (e.start + k) with
          | some v => (a.1 ++ b2 (unsigned 16 (if e.neg then min 32767 (-v) else v)), a.2)
          | none => let d := drawNat a.2; (a.1 ++ b2 (unsigned 16 (signed 10 (d.1 % 1024))), d.2)) a).2 = standing a.2 := by
    intro l
    induction l with
    | nil => intro a; rfl
    | cons x v ih =>
      intro a; rw [List.foldl_cons, ih]
      split
      · rfl
      · split <;> simp
  exact h _ _
@[simp] theorem completeEntries_standing (a0) (s : State) : standing (completeEntries a0 s) = standing s := by simp [completeEntries]
@[simp] theorem deliverRecord_standing (f b) (s : State) : standing (deliverRecord f b s) = standing s := by
  have h : ∀ (t : State) (o w p : Nat) (l : List Nat) (a : List Byte × State),
      standing (l.foldl (fun (a : List Byte × State) k =>
        if w + k < o then (a.1 ++ b2 0, a.2)
        else match histSample t p (w + k) with
          | some v => (a.1 ++ b2 (unsigned 16 (polSample f.conf v)), a.2)
          | none => let d := drawNat a.2; (a.1 ++ b2 (unsigned 16 (signed 10 (d.1 % 1024))), d.2)) a).2 = standing a.2 := by
    intro t o w p l
    induction l with
    | nil => intro a; rfl
    | cons x v ih =>
      intro a; rw [List.foldl_cons, ih]
      split
      · rfl
      · split <;> simp
  unfold deliverRecord
  apply standing_forAll
  intro n s
  dsimp only
  repeat' split
  all_goals first | (simp; done) | (rw [weStat_standing, modCore_standing]; exact h _ _ _ _ _ _)

end Sys2Proof.Machine
end

