-- ==== Sys2Proof/Laws/StandingCommands.lean ====
section
/-! SUPPORT. Operations and commands that leave the standing part as it is, continued: from the trigger engine's commands on. -/
namespace Sys2Proof.Machine

/-! Trigger -/

@[simp] theorem updateAdc_standing (a0) (a1) (s : State) : standing (updateAdc a0 a1 s) = standing s := by
  unfold updateAdc; (repeat' split) <;> simp
@[simp] theorem execAdcCalUpdate_standing (a0) (s : State) : standingO (execAdcCalUpdate a0 s) = some (standing s) := by simp [execAdcCalUpdate]
@[simp] theorem execAdcConvergeTimeout_standing (a0) (s : State) : standingO (execAdcConvergeTimeout a0 s) = some (standing s) := by simp [execAdcConvergeTimeout]
@[simp] theorem takeSample_standing (a0) (a1) (a2) (s : State) : standing (takeSample a0 a1 a2 s) = standing s := by simp [takeSample]
@[simp] theorem execTriggerFire_standing (a0) (a1) (s : State) : standingO (execTriggerFire a0 a1 s) = some (standing s) := by simp [execTriggerFire]
@[simp] theorem execHoldoffEnd_standing (a0) (s : State) : standingO (execHoldoffEnd a0 s) = some (standing s) := by
  unfold execHoldoffEnd; (repeat' split) <;> simp
@[simp] theorem execSoftFireTick_standing (s : State) : standingO (execSoftFireTick s) = some (standing s) := by
  unfold execSoftFireTick; (repeat' split) <;> simp
@[simp] theorem execTriggerRecordWrite_standing (s : State) : standingO (execTriggerRecordWrite s) = some (standing s) := by
  unfold execTriggerRecordWrite; (repeat' split) <;> simp
@[simp] theorem execWaveCaptureDone_standing (a0) (s : State) : standingO (execWaveCaptureDone a0 s) = some (standing s) := by
  unfold execWaveCaptureDone; (repeat' split) <;> simp
@[simp] theorem execTrConfigEffect_standing (s : State) : standingO (execTrConfigEffect s) = some (standing s) := by
  unfold execTrConfigEffect; (repeat' split) <;> simp
@[simp] theorem execTrigInEdge_standing (a0) (s : State) : standingO (execTrigInEdge a0 s) = some (standing s) := by simp [execTrigInEdge]
@[simp] theorem domainRx_standing (t p w) (f : State → State) (s : State) (h : ∀ s, standing (f s) = standing s) :
    standingO (domainRx t p w f s) = some (standing s) := by
  unfold domainRx; apply event_standing; intro s; dsimp only; (repeat' split) <;> simp [h]
@[simp] theorem armLate_standing (s : State) : standing (armLate s) = standing s := by simp [armLate]
@[simp] theorem takeArm_standing (a0) (s : State) : standing (takeArm a0 s) = standing s := by simp [takeArm]
@[simp] theorem execDomainArmRx_standing (a0) (a1) (s : State) : standingO (execDomainArmRx a0 a1 s) = some (standing s) := by simp [execDomainArmRx]
@[simp] theorem disarm_standing (s : State) : standing (disarm s) = standing s := by simp [disarm]
@[simp] theorem execDomainDisarmRx_standing (a0) (a1) (s : State) : standingO (execDomainDisarmRx a0 a1 s) = some (standing s) := by simp [execDomainDisarmRx]
@[simp] theorem execDomainFireRx_standing (a0) (a1) (s : State) : standingO (execDomainFireRx a0 a1 s) = some (standing s) := by simp [execDomainFireRx]
@[simp] theorem execDomainBeatRx_standing (a0) (a1) (s : State) : standingO (execDomainBeatRx a0 a1 s) = some (standing s) := by simp [execDomainBeatRx]
@[simp] theorem execDomainBeatSend_standing (s : State) : standingO (execDomainBeatSend s) = some (standing s) := by simp [execDomainBeatSend]
@[simp] theorem execDomainBeatTimeout_standing (s : State) : standingO (execDomainBeatTimeout s) = some (standing s) := by simp [execDomainBeatTimeout]
@[simp] theorem execDomainArmTick_standing (s : State) : standingO (execDomainArmTick s) = some (standing s) := by
  unfold execDomainArmTick; (repeat' split) <;> simp
@[simp] theorem execDomainRearm_standing (s : State) : standingO (execDomainRearm s) = some (standing s) := by
  unfold execDomainRearm; (repeat' split) <;> simp
@[simp] theorem execDomainDisarmEffect_standing (s : State) : standingO (execDomainDisarmEffect s) = some (standing s) := by
  unfold execDomainDisarmEffect; (repeat' split) <;> simp
@[simp] theorem execTrStatus_standing (a0) (s : State) : standingO (execTrStatus a0 s) = some (standing s) := by simp [execTrStatus]
@[simp] theorem pendUnits_standing (a0) (s : State) : standingR (pendUnits a0 s) = standing s := by simp [pendUnits]
@[simp] theorem execTrUnitConfig_standing (a0) (s : State) : standingO (execTrUnitConfig a0 s) = some (standing s) := by simp [execTrUnitConfig]
@[simp] theorem execTrUnitRead_standing (a0) (s : State) : standingO (execTrUnitRead a0 s) = some (standing s) := by simp [execTrUnitRead]
@[simp] theorem execTrUnitEnable_standing (a0) (s : State) : standingO (execTrUnitEnable a0 s) = some (standing s) := by simp [execTrUnitEnable]
@[simp] theorem execTrPatchConfig_standing (a0) (s : State) : standingO (execTrPatchConfig a0 s) = some (standing s) := by simp [execTrPatchConfig]
@[simp] theorem execTrAdcStatus_standing (a0) (s : State) : standingO (execTrAdcStatus a0 s) = some (standing s) := by simp [execTrAdcStatus]
@[simp] theorem freezeAdc_standing (a0) (a1) (s : State) : standing (freezeAdc a0 a1 s) = standing s := by simp [freezeAdc]
@[simp] theorem execTrAdcFreeze_standing (a0) (s : State) : standingO (execTrAdcFreeze a0 s) = some (standing s) := by
  unfold execTrAdcFreeze; apply call_standing; intro p s; apply need_standing; intro s; simp
@[simp] theorem execTrDomainConfig_standing (a0) (s : State) : standingO (execTrDomainConfig a0 s) = some (standing s) := by simp [execTrDomainConfig]
@[simp] theorem execTrArm_standing (a0) (s : State) : standingO (execTrArm a0 s) = some (standing s) := by
  unfold execTrArm
  try dsimp only
  repeat' (first | (simp; done) | intro _ | split | with_reducible apply evChange_standing | with_reducible apply event_standing | with_reducible apply Eq.trans (standing_forAll _ _ _ _) | with_reducible apply Eq.trans (standing_when _ _ _ _) | with_reducible apply need_standing | with_reducible apply needState_standing | with_reducible apply needClaim_standing | with_reducible apply issue_standing | with_reducible apply call_standing | with_reducible apply callSel_standing)
  done
@[simp] theorem execTrDisarm_standing (a0) (s : State) : standingO (execTrDisarm a0 s) = some (standing s) := by simp [execTrDisarm]
@[simp] theorem execTrDomainStatus_standing (a0) (s : State) : standingO (execTrDomainStatus a0 s) = some (standing s) := by simp [execTrDomainStatus]
@[simp] theorem execTrSoftFire_standing (a0) (s : State) : standingO (execTrSoftFire a0 s) = some (standing s) := by simp [execTrSoftFire]
@[simp] theorem execTrStats_standing (a0) (s : State) : standingO (execTrStats a0 s) = some (standing s) := by
  unfold execTrStats; apply call_standing; intro p s; apply need_standing; intro s; simp
@[simp] theorem execTrTrigioConfig_standing (a0) (s : State) : standingO (execTrTrigioConfig a0 s) = some (standing s) := by
  unfold execTrTrigioConfig; apply call_standing; intro p s; apply need_standing; intro s; simp
@[simp] theorem readSample_standing (p src g) (a : List Byte × State) : standing (readSample p src g a).2 = standing a.2 := by
  unfold readSample; split <;> simp
theorem readSamples_standing (p src t) : ∀ (l : List Nat) (a : List Byte × State),
    standing (l.foldl (fun a k => readSample p src (25 * t + k) a) a).2 = standing a.2
  | [], _ => rfl
  | k :: l, a => by rw [List.foldl_cons, readSamples_standing p src t l]; simp
@[simp] theorem execTrSampleRead_standing (mb) (s : State) : standingO (execTrSampleRead mb s) = some (standing s) := by
  unfold execTrSampleRead; apply call_standing; intro p s; dsimp only; apply need_standing; intro s
  simp [readSamples_standing]

/-! Waveform -/

@[simp] theorem execWeNop_standing (a0) (s : State) : standingO (execWeNop a0 s) = some (standing s) := by simp [execWeNop]
@[simp] theorem execWeAdd_standing (a0) (s : State) : standingO (execWeAdd a0 s) = some (standing s) := by simp [execWeAdd]
@[simp] theorem execWeSub_standing (a0) (s : State) : standingO (execWeSub a0 s) = some (standing s) := by simp [execWeSub]
@[simp] theorem execWeAdds_standing (a0) (s : State) : standingO (execWeAdds a0 s) = some (standing s) := by simp [execWeAdds]
@[simp] theorem execWeSubs_standing (a0) (s : State) : standingO (execWeSubs a0 s) = some (standing s) := by simp [execWeSubs]
@[simp] theorem execWeAnd_standing (a0) (s : State) : standingO (execWeAnd a0 s) = some (standing s) := by simp [execWeAnd]
@[simp] theorem execWeOr_standing (a0) (s : State) : standingO (execWeOr a0 s) = some (standing s) := by simp [execWeOr]
@[simp] theorem execWeXor_standing (a0) (s : State) : standingO (execWeXor a0 s) = some (standing s) := by simp [execWeXor]
@[simp] theorem execWeShl_standing (a0) (s : State) : standingO (execWeShl a0 s) = some (standing s) := by simp [execWeShl]
@[simp] theorem execWeShr_standing (a0) (s : State) : standingO (execWeShr a0 s) = some (standing s) := by simp [execWeShr]
@[simp] theorem execWeSar_standing (a0) (s : State) : standingO (execWeSar a0 s) = some (standing s) := by simp [execWeSar]
@[simp] theorem execWeMin_standing (a0) (s : State) : standingO (execWeMin a0 s) = some (standing s) := by simp [execWeMin]
@[simp] theorem execWeMax_standing (a0) (s : State) : standingO (execWeMax a0 s) = some (standing s) := by simp [execWeMax]
@[simp] theorem execWeAbs_standing (a0) (s : State) : standingO (execWeAbs a0 s) = some (standing s) := by simp [execWeAbs]
@[simp] theorem execWeAdd2h_standing (a0) (s : State) : standingO (execWeAdd2h a0 s) = some (standing s) := by simp [execWeAdd2h]
@[simp] theorem execWeSub2h_standing (a0) (s : State) : standingO (execWeSub2h a0 s) = some (standing s) := by simp [execWeSub2h]
@[simp] theorem execWePack_standing (a0) (s : State) : standingO (execWePack a0 s) = some (standing s) := by simp [execWePack]
@[simp] theorem execWeCmplt_standing (a0) (s : State) : standingO (execWeCmplt a0 s) = some (standing s) := by simp [execWeCmplt]
@[simp] theorem execWeCmpeq_standing (a0) (s : State) : standingO (execWeCmpeq a0 s) = some (standing s) := by simp [execWeCmpeq]
@[simp] theorem execWeMov_standing (a0) (s : State) : standingO (execWeMov a0 s) = some (standing s) := by simp [execWeMov]
@[simp] theorem execWeMovs_standing (a0) (s : State) : standingO (execWeMovs a0 s) = some (standing s) := by simp [execWeMovs]
@[simp] theorem execWeMovsr_standing (a0) (s : State) : standingO (execWeMovsr a0 s) = some (standing s) := by simp [execWeMovsr]
@[simp] theorem execWeMul_standing (a0) (s : State) : standingO (execWeMul a0 s) = some (standing s) := by simp [execWeMul]
@[simp] theorem execWeMul2h_standing (a0) (s : State) : standingO (execWeMul2h a0 s) = some (standing s) := by simp [execWeMul2h]
@[simp] theorem execWeMac_standing (a0) (s : State) : standingO (execWeMac a0 s) = some (standing s) := by simp [execWeMac]
@[simp] theorem execWeMsu_standing (a0) (s : State) : standingO (execWeMsu a0 s) = some (standing s) := by simp [execWeMsu]
@[simp] theorem execWeMac0_standing (a0) (s : State) : standingO (execWeMac0 a0 s) = some (standing s) := by simp [execWeMac0]
@[simp] theorem execWeFtap_standing (a0) (s : State) : standingO (execWeFtap a0 s) = some (standing s) := by simp [execWeFtap]
@[simp] theorem execWeFtap0_standing (a0) (s : State) : standingO (execWeFtap0 a0 s) = some (standing s) := by simp [execWeFtap0]
@[simp] theorem execWeClra_standing (a0) (s : State) : standingO (execWeClra a0 s) = some (standing s) := by simp [execWeClra]
@[simp] theorem execWeAdda_standing (a0) (s : State) : standingO (execWeAdda a0 s) = some (standing s) := by simp [execWeAdda]
@[simp] theorem execWeLda_standing (a0) (s : State) : standingO (execWeLda a0 s) = some (standing s) := by simp [execWeLda]
@[simp] theorem execWeMova_standing (a0) (s : State) : standingO (execWeMova a0 s) = some (standing s) := by simp [execWeMova]
@[simp] theorem execWeMovaw_standing (a0) (s : State) : standingO (execWeMovaw a0 s) = some (standing s) := by simp [execWeMovaw]
@[simp] theorem execWeIn_standing (a0) (s : State) : standingO (execWeIn a0 s) = some (standing s) := by simp [execWeIn]
@[simp] theorem execWeOut_standing (a0) (s : State) : standingO (execWeOut a0 s) = some (standing s) := by simp [execWeOut]
@[simp] theorem execWeQput_standing (a0) (s : State) : standingO (execWeQput a0 s) = some (standing s) := by simp [execWeQput]
@[simp] theorem execWeQend_standing (a0) (s : State) : standingO (execWeQend a0 s) = some (standing s) := by simp [execWeQend]
@[simp] theorem execWeBr_standing (a0) (s : State) : standingO (execWeBr a0 s) = some (standing s) := by simp [execWeBr]
@[simp] theorem execWeBrz_standing (a0) (s : State) : standingO (execWeBrz a0 s) = some (standing s) := by
  unfold execWeBrz; apply issue_standing; intro i s; dsimp only; (repeat' split) <;> simp
@[simp] theorem execWeBrnz_standing (a0) (s : State) : standingO (execWeBrnz a0 s) = some (standing s) := by
  unfold execWeBrnz; apply issue_standing; intro i s; dsimp only; (repeat' split) <;> simp
@[simp] theorem execWeCall_standing (a0) (s : State) : standingO (execWeCall a0 s) = some (standing s) := by
  unfold execWeCall; apply issue_standing; intro i s; dsimp only; (repeat' split) <;> simp
@[simp] theorem execWeRet_standing (a0) (s : State) : standingO (execWeRet a0 s) = some (standing s) := by
  unfold execWeRet; apply issue_standing; intro i s; dsimp only; (repeat' split) <;> simp
@[simp] theorem execWeLoop_standing (a0) (s : State) : standingO (execWeLoop a0 s) = some (standing s) := by
  unfold execWeLoop; apply issue_standing; intro i s; dsimp only; (repeat' split) <;> simp
@[simp] theorem execWePloop_standing (a0) (s : State) : standingO (execWePloop a0 s) = some (standing s) := by
  unfold execWePloop; apply issue_standing; intro i s; dsimp only; (repeat' split) <;> simp
@[simp] theorem execWeWait_standing (a0) (s : State) : standingO (execWeWait a0 s) = some (standing s) := by simp [execWeWait]
@[simp] theorem execWeRti_standing (a0) (s : State) : standingO (execWeRti a0 s) = some (standing s) := by
  unfold execWeRti; apply issue_standing; intro i s; dsimp only; (repeat' split) <;> simp
@[simp] theorem execWeSwi_standing (a0) (s : State) : standingO (execWeSwi a0 s) = some (standing s) := by simp [execWeSwi]
@[simp] theorem execWeHalt_standing (a0) (s : State) : standingO (execWeHalt a0 s) = some (standing s) := by simp [execWeHalt]
@[simp] theorem resume_standing (n k r) (f : State → State) (s : State) (h : ∀ s, standing (f s) = standing s) :
    standingO (resume n k r f s) = some (standing s) := by
  unfold resume; apply event_standing; intro s; (repeat' split) <;> simp [h]
@[simp] theorem execWeInResume_standing (a0) (s : State) : standingO (execWeInResume a0 s) = some (standing s) := by
  unfold execWeInResume; (repeat' split) <;> simp
@[simp] theorem execWeOutResume_standing (a0) (s : State) : standingO (execWeOutResume a0 s) = some (standing s) := by simp [execWeOutResume]
@[simp] theorem execWeQputResume_standing (a0) (s : State) : standingO (execWeQputResume a0 s) = some (standing s) := by simp [execWeQputResume]
@[simp] theorem execWeIrqLevel1_standing (a0) (s : State) : standingO (execWeIrqLevel1 a0 s) = some (standing s) := by
  unfold execWeIrqLevel1; dsimp only; (repeat' split) <;> simp
@[simp] theorem execWeIrqLevel2_standing (a0) (s : State) : standingO (execWeIrqLevel2 a0 s) = some (standing s) := by
  unfold execWeIrqLevel2; (repeat' split) <;> simp
@[simp] theorem execWeInputSample_standing (a0) (a1) (a2) (s : State) : standingO (execWeInputSample a0 a1 a2 s) = some (standing s) := by
  unfold execWeInputSample; dsimp only; (repeat' split) <;> simp
@[simp] theorem execWePatrolScrub_standing (a0) (a1) (a2) (a3) (a4) (s : State) : standingO (execWePatrolScrub a0 a1 a2 a3 a4 s) = some (standing s) := by simp [execWePatrolScrub]
@[simp] theorem execWeStatus_standing (a0) (s : State) : standingO (execWeStatus a0 s) = some (standing s) := by simp [execWeStatus]
@[simp] theorem execWeLoadBegin_standing (a0) (s : State) : standingO (execWeLoadBegin a0 s) = some (standing s) := by
  unfold execWeLoadBegin; apply call_standing; intro p s; apply need_standing; intro s; simp
@[simp] theorem execWeLoadData_standing (a0) (s : State) : standingO (execWeLoadData a0 s) = some (standing s) := by
  unfold execWeLoadData; apply call_standing; intro p s; apply need_standing; intro s; simp
@[simp] theorem execWeLoadEnd_standing (a0) (s : State) : standingO (execWeLoadEnd a0 s) = some (standing s) := by
  unfold execWeLoadEnd; apply call_standing; intro p s; apply need_standing; intro s; simp
@[simp] theorem execWeStart_standing (mb) (s : State) : standingO (execWeStart mb s) = some (standing s) := by
  unfold execWeStart; apply call_standing; intro p s; apply need_standing; intro s
  rw [ok_standing]; apply standing_forAll; intro n s; split <;> simp
@[simp] theorem execWeStop_standing (mb) (s : State) : standingO (execWeStop mb s) = some (standing s) := by
  unfold execWeStop; apply call_standing; intro p s; apply need_standing; intro s
  rw [ok_standing]; apply standing_forAll; intro n s; split <;> simp
@[simp] theorem execWeMemRead_standing (a0) (s : State) : standingO (execWeMemRead a0 s) = some (standing s) := by simp [execWeMemRead]
@[simp] theorem execWeParamWrite_standing (a0) (s : State) : standingO (execWeParamWrite a0 s) = some (standing s) := by simp [execWeParamWrite]
@[simp] theorem execWeRegRead_standing (a0) (s : State) : standingO (execWeRegRead a0 s) = some (standing s) := by
  unfold execWeRegRead; apply call_standing; intro p s; apply need_standing; intro s; simp
@[simp] theorem execWeSignal_standing (a0) (s : State) : standingO (execWeSignal a0 s) = some (standing s) := by simp [execWeSignal]
@[simp] theorem execWeStats_standing (a0) (s : State) : standingO (execWeStats a0 s) = some (standing s) := by
  unfold execWeStats; apply call_standing; intro p s; apply need_standing; intro s; simp

/-! Buffer -/

@[simp] theorem execFrameCloseTimeout_standing (a0) (a1) (a2) (s : State) : standingO (execFrameCloseTimeout a0 a1 a2 s) = some (standing s) := by
  unfold execFrameCloseTimeout; (repeat' split) <;> simp
@[simp] theorem execDrain_standing (a0) (s : State) : standingO (execDrain a0 s) = some (standing s) := by simp [execDrain]
@[simp] theorem execSpill_standing (a0) (s : State) : standingO (execSpill a0 s) = some (standing s) := by simp [execSpill]
@[simp] theorem refillChunk_standing (a0) (s : State) : standing (refillChunk a0 s) = standing s := by
  unfold refillChunk; (repeat' split) <;> simp
@[simp] theorem execRefill_standing (q ups) (s : State) : standingO (execRefill q ups s) = some (standing s) := by
  unfold execRefill; apply event_standing; intro s; simp
@[simp] theorem execPointerCheck_standing (a0) (a1) (s : State) : standingO (execPointerCheck a0 a1 s) = some (standing s) := by
  unfold execPointerCheck
  try dsimp only
  repeat' (first | (simp; done) | intro _ | split | with_reducible apply evChange_standing | with_reducible apply event_standing | with_reducible apply Eq.trans (standing_forAll _ _ _ _) | with_reducible apply Eq.trans (standing_when _ _ _ _) | with_reducible apply need_standing | with_reducible apply needState_standing | with_reducible apply needClaim_standing)
  done
@[simp] theorem abortScrubs_standing (a0) (s : State) : standing (abortScrubs a0 s) = standing s := by simp [abortScrubs]
@[simp] theorem execQueueResetComplete_standing (a0) (s : State) : standingO (execQueueResetComplete a0 s) = some (standing s) := by simp [execQueueResetComplete]
@[simp] theorem beginPass_standing (s : State) : standing (beginPass s) = standing s := by simp [beginPass]
@[simp] theorem endPass_standing (s : State) : standing (endPass s) = standing s := by simp [endPass]
@[simp] theorem scrubLine_standing (a0) (a1) (a2) (a3) (s : State) : standing (scrubLine a0 a1 a2 a3 s) = standing s := by
  unfold scrubLine; (repeat' split) <;> simp
@[simp] theorem storedLine_standing (a0) (a1) (s : State) : standing (storedLine a0 a1 s).2 = standing s := by
  unfold storedLine; dsimp only; (repeat' split) <;> simp
@[simp] theorem countVisit_standing (a0) (a1) (a2) (s : State) : standing (countVisit a0 a1 a2 s) = standing s := by
  unfold countVisit; (repeat' split) <;> simp
@[simp] theorem scrubVisit_standing (a0) (a1) (s : State) : standing (scrubVisit a0 a1 s) = standing s := by
  unfold scrubVisit; (repeat' split) <;> simp
@[simp] theorem execScrubLineVisit_standing (a0) (a1) (s : State) : standingO (execScrubLineVisit a0 a1 s) = some (standing s) := by simp [execScrubLineVisit]
@[simp] theorem putSramErr_standing (a0) (a1) (a2) (a3) (s : State) : standing (putSramErr a0 a1 a2 a3 s) = standing s := by simp [putSramErr]
@[simp] theorem sramLost_standing (a0) (a1) (a2) (a3) (s : State) : standing (sramLost a0 a1 a2 a3 s) = standing s := by simp [sramLost]
@[simp] theorem sramWord_standing (a0) (s : State) : standing (sramWord a0 s) = standing s := by
  unfold sramWord; dsimp only; (repeat' split) <;> simp
@[simp] theorem execSramScrub_standing (a0) (s : State) : standingO (execSramScrub a0 s) = some (standing s) := by simp [execSramScrub]
@[simp] theorem execMemLayerIdleSelfRefresh_standing (s : State) : standingO (execMemLayerIdleSelfRefresh s) = some (standing s) := by simp [execMemLayerIdleSelfRefresh]
@[simp] theorem execBbStatus_standing (a0) (s : State) : standingO (execBbStatus a0 s) = some (standing s) := by simp [execBbStatus]
@[simp] theorem execBbQueueMapSet_standing (a0) (s : State) : standingO (execBbQueueMapSet a0 s) = some (standing s) := by simp [execBbQueueMapSet]
@[simp] theorem execBbQueueMapGet_standing (a0) (s : State) : standingO (execBbQueueMapGet a0 s) = some (standing s) := by simp [execBbQueueMapGet]
@[simp] theorem execBbRegionSet_standing (a0) (s : State) : standingO (execBbRegionSet a0 s) = some (standing s) := by
  unfold execBbRegionSet; apply call_standing; intro p s; apply need_standing; intro s; simp
@[simp] theorem execBbRegionGet_standing (a0) (s : State) : standingO (execBbRegionGet a0 s) = some (standing s) := by simp [execBbRegionGet]
@[simp] theorem execBbHoldOutput_standing (a0) (s : State) : standingO (execBbHoldOutput a0 s) = some (standing s) := by simp [execBbHoldOutput]
@[simp] theorem flushQueue_standing (a0) (s : State) : standing (flushQueue a0 s) = standing s := by
  unfold flushQueue; dsimp only; (repeat' split) <;> simp
@[simp] theorem execBbFlush_standing (a0) (s : State) : standingO (execBbFlush a0 s) = some (standing s) := by simp [execBbFlush]
@[simp] theorem execBbReset_standing (a0) (s : State) : standingO (execBbReset a0 s) = some (standing s) := by simp [execBbReset]
@[simp] theorem execBbPeek_standing (a0) (s : State) : standingO (execBbPeek a0 s) = some (standing s) := by simp [execBbPeek]
@[simp] theorem execBbStats_standing (a0) (s : State) : standingO (execBbStats a0 s) = some (standing s) := by
  unfold execBbStats; apply call_standing; intro p s; apply need_standing; intro s; simp
@[simp] theorem execMemStatus_standing (a0) (s : State) : standingO (execMemStatus a0 s) = some (standing s) := by simp [execMemStatus]
@[simp] theorem execMemScrubConfig_standing (a0) (s : State) : standingO (execMemScrubConfig a0 s) = some (standing s) := by simp [execMemScrubConfig]
@[simp] theorem scrubBegin_standing (a0) (s : State) : standing (scrubBegin a0 s) = standing s := by simp [scrubBegin]
@[simp] theorem execMemScrubRange_standing (a0) (s : State) : standingO (execMemScrubRange a0 s) = some (standing s) := by
  unfold execMemScrubRange; apply call_standing; intro p s; apply need_standing; intro s; simp
@[simp] theorem execMemScrubSummary_standing (a0) (s : State) : standingO (execMemScrubSummary a0 s) = some (standing s) := by
  unfold execMemScrubSummary
  try dsimp only
  repeat' (first | (simp; done) | intro _ | split | with_reducible apply evChange_standing | with_reducible apply event_standing | with_reducible apply Eq.trans (standing_forAll _ _ _ _) | with_reducible apply Eq.trans (standing_when _ _ _ _) | with_reducible apply need_standing | with_reducible apply needState_standing | with_reducible apply needClaim_standing | with_reducible apply issue_standing | with_reducible apply call_standing | with_reducible apply callSel_standing)
  done
@[simp] theorem execMemDefectRead_standing (a0) (s : State) : standingO (execMemDefectRead a0 s) = some (standing s) := by simp [execMemDefectRead]
@[simp] theorem checkerPut_standing (a0) (a1) (a2) (s : State) : standing (checkerPut a0 a1 a2 s) = standing s := by simp [checkerPut]
@[simp] theorem execMemCheckerWrite_standing (a0) (s : State) : standingO (execMemCheckerWrite a0 s) = some (standing s) := by
  unfold execMemCheckerWrite; apply call_standing; intro p s; apply need_standing; intro s; simp
@[simp] theorem execMemCheckerRead_standing (a0) (s : State) : standingO (execMemCheckerRead a0 s) = some (standing s) := by simp [execMemCheckerRead]
@[simp] theorem execMemTrain_standing (a0) (s : State) : standingO (execMemTrain a0 s) = some (standing s) := by
  unfold execMemTrain
  try dsimp only
  repeat' (first | (simp; done) | intro _ | split | with_reducible apply evChange_standing | with_reducible apply event_standing | with_reducible apply Eq.trans (standing_forAll _ _ _ _) | with_reducible apply Eq.trans (standing_when _ _ _ _) | with_reducible apply need_standing | with_reducible apply needState_standing | with_reducible apply needClaim_standing | with_reducible apply issue_standing | with_reducible apply call_standing | with_reducible apply callSel_standing)
  done

/-! Compression -/

@[simp] theorem execCxUnitCode_standing (u q) (s : State) : standingO (execCxUnitCode u q s) = some (standing s) := by
  unfold execCxUnitCode
  split
  · rfl
  · rename_i f _
    dsimp only
    have h1 : standing (cxSettle q.val f (reachUp (divUp (tget 0 s.cx.freeAt u.val) 55) s)) = standing s := by simp
    revert h1
    generalize cxSettle q.val f (reachUp (divUp (tget 0 s.cx.freeAt u.val) 55) s) = s1
    intro h1
    split
    · rfl
    · have h3 : standing (takeFrame q.val f (when (decide (s1.sys.power = .easy)) (onCx (fun x => { x with awake := true })) s1)).2 =
          standing s := by simp [h1]
      revert h3
      generalize takeFrame q.val f (when (decide (s1.sys.power = .easy)) (onCx (fun x => { x with awake := true })) s1) = r
      obtain ⟨o, s3⟩ := r
      cases o with
      | none => intro h3; simpa using h3
      | some x =>
        intro h3
        dsimp only
        unfold event
        split
        · simpa using h3
        · rfl
@[simp] theorem execCxBufferCloseTimeout_standing (a0) (a1) (s : State) : standingO (execCxBufferCloseTimeout a0 a1 s) = some (standing s) := by
  unfold execCxBufferCloseTimeout; (repeat' split) <;> simp
@[simp] theorem execCxIdleGate_standing (s : State) : standingO (execCxIdleGate s) = some (standing s) := by simp [execCxIdleGate]
@[simp] theorem execCxStalled_standing (a0) (s : State) : standingO (execCxStalled a0 s) = some (standing s) := by
  unfold execCxStalled; (repeat' split) <;> simp
@[simp] theorem execCxStatus_standing (a0) (s : State) : standingO (execCxStatus a0 s) = some (standing s) := by simp [execCxStatus]
@[simp] theorem execCxQueueConfig_standing (a0) (s : State) : standingO (execCxQueueConfig a0 s) = some (standing s) := by simp [execCxQueueConfig]
@[simp] theorem execCxQueueGet_standing (a0) (s : State) : standingO (execCxQueueGet a0 s) = some (standing s) := by simp [execCxQueueGet]
@[simp] theorem execCxChainRead_standing (a0) (s : State) : standingO (execCxChainRead a0 s) = some (standing s) := by simp [execCxChainRead]
@[simp] theorem execCxStats_standing (a0) (s : State) : standingO (execCxStats a0 s) = some (standing s) := by
  unfold execCxStats; apply call_standing; intro p s; apply need_standing; intro s; simp
@[simp] theorem execCxCodeTest_standing (a0) (s : State) : standingO (execCxCodeTest a0 s) = some (standing s) := by simp [execCxCodeTest]

/-! TimeCore -/

@[simp] theorem loadReplica_standing (a0) (s : State) : standing (loadReplica a0 s) = standing s := by simp [loadReplica]
@[simp] theorem timeVote_standing (a0) (a1) (a2) (s : State) : standing (timeVote a0 a1 a2 s) = standing s := by
  unfold timeVote; (repeat' split) <;> simp
@[simp] theorem execTimeTmrVote_standing (a0) (s : State) : standingO (execTimeTmrVote a0 s) = some (standing s) := by simp [execTimeTmrVote]
@[simp] theorem execFreqSourceWatchdog_standing (a0) (s : State) : standingO (execFreqSourceWatchdog a0 s) = some (standing s) := by simp [execFreqSourceWatchdog]
@[simp] theorem execFreqWindowCheck_standing (a0) (a1) (s : State) : standingO (execFreqWindowCheck a0 a1 s) = some (standing s) := by simp [execFreqWindowCheck]
@[simp] theorem execOcxoRdyFall_standing (s : State) : standingO (execOcxoRdyFall s) = some (standing s) := by simp [execOcxoRdyFall]
@[simp] theorem execOcxoRdyRise_standing (s : State) : standingO (execOcxoRdyRise s) = some (standing s) := by simp [execOcxoRdyRise]
@[simp] theorem execOcxoWarmHoldExpiry_standing (s : State) : standingO (execOcxoWarmHoldExpiry s) = some (standing s) := by
  unfold execOcxoWarmHoldExpiry; (repeat' split) <;> simp
@[simp] theorem execFreqRestoreTimer_standing (a0) (s : State) : standingO (execFreqRestoreTimer a0 s) = some (standing s) := by
  unfold execFreqRestoreTimer; (repeat' split) <;> simp
@[simp] theorem steerTo_standing (a0) (s : State) : standing (steerTo a0 s) = standing s := by simp [steerTo]
@[simp] theorem freqLocked_standing (s : State) : standing (freqLocked s) = standing s := by simp [freqLocked]
@[simp] theorem execFreqLockCheck_standing (a0) (a1) (s : State) : standingO (execFreqLockCheck a0 a1 s) = some (standing s) := by simp [execFreqLockCheck]
@[simp] theorem timeMessage_standing (g m p) (f : State → State) (s : State) (h : ∀ s, standing (f s) = standing s) :
    standingO (timeMessage g m p f s) = some (standing s) := by
  unfold timeMessage; apply event_standing; intro s; (repeat' split) <;> simp [h]
@[simp] theorem execTimeSyncRx_standing (a0) (a1) (a2) (s : State) : standingO (execTimeSyncRx a0 a1 a2 s) = some (standing s) := by simp [execTimeSyncRx]
@[simp] theorem execTimeFollowUpRx_standing (a0) (a1) (s : State) : standingO (execTimeFollowUpRx a0 a1 s) = some (standing s) := by simp [execTimeFollowUpRx]
@[simp] theorem execTimeDelayRespRx_standing (a0) (a1) (s : State) : standingO (execTimeDelayRespRx a0 a1 s) = some (standing s) := by simp [execTimeDelayRespRx]
@[simp] theorem execTimeAnnounceRx_standing (a0) (a1) (s : State) : standingO (execTimeAnnounceRx a0 a1 s) = some (standing s) := by simp [execTimeAnnounceRx]
@[simp] theorem execTimeExchangeTimeout_standing (s : State) : standingO (execTimeExchangeTimeout s) = some (standing s) := by
  unfold execTimeExchangeTimeout; (repeat' split) <;> simp
@[simp] theorem execMasterAnnounceTimeout_standing (a0) (s : State) : standingO (execMasterAnnounceTimeout a0 s) = some (standing s) := by
  unfold execMasterAnnounceTimeout; (repeat' split) <;> simp
@[simp] theorem execTimeHoldoverTimeout_standing (s : State) : standingO (execTimeHoldoverTimeout s) = some (standing s) := by simp [execTimeHoldoverTimeout]
@[simp] theorem execTimeStepEdge_standing (s : State) : standingO (execTimeStepEdge s) = some (standing s) := by
  unfold execTimeStepEdge
  try dsimp only
  repeat' (first | (simp; done) | intro _ | split | with_reducible apply evChange_standing | with_reducible apply event_standing | with_reducible apply Eq.trans (standing_forAll _ _ _ _) | with_reducible apply Eq.trans (standing_when _ _ _ _) | with_reducible apply need_standing | with_reducible apply needState_standing | with_reducible apply needClaim_standing | with_reducible apply issue_standing | with_reducible apply call_standing | with_reducible apply callSel_standing)
  done
@[simp] theorem ptpMessage_standing (g t b) (f : State → State) (s : State) (h : ∀ s, standing (f s) = standing s) :
    standingO (ptpMessage g t b f s) = some (standing s) := by
  unfold ptpMessage; apply event_standing; intro s; (repeat' split) <;> simp [h]
@[simp] theorem sendDelayReq_standing (a0) (a1) (s : State) : standing (sendDelayReq a0 a1 s) = standing s := by simp [sendDelayReq]
@[simp] theorem execPtpSyncRx_standing (a0) (a1) (a2) (s : State) : standingO (execPtpSyncRx a0 a1 a2 s) = some (standing s) := by simp [execPtpSyncRx]
@[simp] theorem execPtpFollowUpRx_standing (a0) (a1) (s : State) : standingO (execPtpFollowUpRx a0 a1 s) = some (standing s) := by simp [execPtpFollowUpRx]
@[simp] theorem execPtpDelayRespRx_standing (a0) (a1) (s : State) : standingO (execPtpDelayRespRx a0 a1 s) = some (standing s) := by simp [execPtpDelayRespRx]
@[simp] theorem execPtpAnnounceRx_standing (a0) (a1) (s : State) : standingO (execPtpAnnounceRx a0 a1 s) = some (standing s) := by simp [execPtpAnnounceRx]
@[simp] theorem execPpsInEdge_standing (a0) (s : State) : standingO (execPpsInEdge a0 s) = some (standing s) := by simp [execPpsInEdge]
@[simp] theorem execPpsLossTimeout_standing (s : State) : standingO (execPpsLossTimeout s) = some (standing s) := by simp [execPpsLossTimeout]
@[simp] theorem execPpsOutPulse_standing (s : State) : standingO (execPpsOutPulse s) = some (standing s) := by simp [execPpsOutPulse]
@[simp] theorem takeStamp_standing (a0) (a1) (s : State) : standing (takeStamp a0 a1 s) = standing s := by simp [takeStamp]
@[simp] theorem execTiEdge_standing (a0) (a1) (s : State) : standingO (execTiEdge a0 a1 s) = some (standing s) := by simp [execTiEdge]
@[simp] theorem execFreqGateEnd_standing (a0) (s : State) : standingO (execFreqGateEnd a0 s) = some (standing s) := by
  unfold execFreqGateEnd
  try dsimp only
  repeat' (first | (simp; done) | intro _ | split | with_reducible apply evChange_standing | with_reducible apply event_standing | with_reducible apply Eq.trans (standing_forAll _ _ _ _) | with_reducible apply Eq.trans (standing_when _ _ _ _) | with_reducible apply need_standing | with_reducible apply needState_standing | with_reducible apply needClaim_standing | with_reducible apply issue_standing | with_reducible apply call_standing | with_reducible apply callSel_standing)
  done
@[simp] theorem execTimeStatus_standing (a0) (s : State) : standingO (execTimeStatus a0 s) = some (standing s) := by simp [execTimeStatus]
@[simp] theorem execTimeNow_standing (a0) (s : State) : standingO (execTimeNow a0 s) = some (standing s) := by simp [execTimeNow]
@[simp] theorem execTimeFreqConfig_standing (a0) (s : State) : standingO (execTimeFreqConfig a0 s) = some (standing s) := by simp [execTimeFreqConfig]
@[simp] theorem execTimeServoConfig_standing (a0) (s : State) : standingO (execTimeServoConfig a0 s) = some (standing s) := by simp [execTimeServoConfig]
@[simp] theorem execTimeSet_standing (a0) (s : State) : standingO (execTimeSet a0 s) = some (standing s) := by
  unfold execTimeSet
  try dsimp only
  repeat' (first | (simp; done) | intro _ | split | with_reducible apply evChange_standing | with_reducible apply event_standing | with_reducible apply Eq.trans (standing_forAll _ _ _ _) | with_reducible apply Eq.trans (standing_when _ _ _ _) | with_reducible apply need_standing | with_reducible apply needState_standing | with_reducible apply needClaim_standing | with_reducible apply issue_standing | with_reducible apply call_standing | with_reducible apply callSel_standing)
  done
@[simp] theorem execTimePtpConfig_standing (a0) (s : State) : standingO (execTimePtpConfig a0 s) = some (standing s) := by simp [execTimePtpConfig]
@[simp] theorem execTimePpsConfig_standing (a0) (s : State) : standingO (execTimePpsConfig a0 s) = some (standing s) := by simp [execTimePpsConfig]
@[simp] theorem execTiConfig_standing (a0) (s : State) : standingO (execTiConfig a0 s) = some (standing s) := by simp [execTiConfig]
@[simp] theorem execTiStampRead_standing (a0) (s : State) : standingO (execTiStampRead a0 s) = some (standing s) := by simp [execTiStampRead]
@[simp] theorem execSplitConfig_standing (a0) (s : State) : standingO (execSplitConfig a0 s) = some (standing s) := by simp [execSplitConfig]
@[simp] theorem splitResult_standing (a0) (s : State) : standing (splitResult a0 s).2 = standing s := by
  unfold splitResult; dsimp only; (repeat' split) <;> simp
@[simp] theorem execSplitRead_standing (a0) (s : State) : standingO (execSplitRead a0 s) = some (standing s) := by
  unfold execSplitRead; apply call_standing; intro p s; apply need_standing; intro s; simp
@[simp] theorem execFreqStart_standing (a0) (s : State) : standingO (execFreqStart a0 s) = some (standing s) := by
  unfold execFreqStart; apply call_standing; intro p s; apply need_standing; intro s; simp
@[simp] theorem execFreqRead_standing (a0) (s : State) : standingO (execFreqRead a0 s) = some (standing s) := by
  unfold execFreqRead
  try dsimp only
  repeat' (first | (simp; done) | intro _ | split | with_reducible apply evChange_standing | with_reducible apply event_standing | with_reducible apply Eq.trans (standing_forAll _ _ _ _) | with_reducible apply Eq.trans (standing_when _ _ _ _) | with_reducible apply need_standing | with_reducible apply needState_standing | with_reducible apply needClaim_standing | with_reducible apply issue_standing | with_reducible apply call_standing | with_reducible apply callSel_standing)
  done
@[simp] theorem execFreqStop_standing (a0) (s : State) : standingO (execFreqStop a0 s) = some (standing s) := by simp [execFreqStop]
@[simp] theorem execTimeStats_standing (a0) (s : State) : standingO (execTimeStats a0 s) = some (standing s) := by simp [execTimeStats]

/-! ImageOps -/

@[simp] theorem modChip_standing (a0) (a1) (s : State) : standing (modChip a0 a1 s) = standing s := by
  unfold modChip; (repeat' split) <;> simp
@[simp] theorem setPol_standing (a0) (s : State) : standing (setPol a0 s) = standing s := by simp [setPol]
@[simp] theorem installValue_standing (a0) (a1) (s : State) : standing (installValue a0 a1 s) = standing s := by
  unfold installValue; (repeat' split) <;> simp
@[simp] theorem applyRecord_standing (a0) (a1) (s : State) : standing (applyRecord a0 a1 s) = standing s := by simp [applyRecord]
@[simp] theorem loadFrontEnd_standing (s : State) : standing (loadFrontEnd s) = standing s := by
  unfold loadFrontEnd; (repeat' split) <;> simp
@[simp] theorem loadTmCal_standing (s : State) : standing (loadTmCal s) = standing s := by
  unfold loadTmCal; (repeat' split) <;> simp
@[simp] theorem loadSkew_standing (s : State) : standing (loadSkew s) = standing s := by
  unfold loadSkew; (repeat' split) <;> simp
@[simp] theorem loadWalk_standing (s : State) : standing (loadWalk s) = standing s := by
  unfold loadWalk; (repeat' split) <;> simp
@[simp] theorem loadInl_standing (s : State) : standing (loadInl s) = standing s := by
  unfold loadInl; (repeat' split) <;> simp
@[simp] theorem loadTmOthers_standing (s : State) : standing (loadTmOthers s) = standing s := by simp [loadTmOthers]
@[simp] theorem loadTables_standing (s : State) : standing (loadTables s) = standing s := by simp [loadTables]
@[simp] theorem loadKernel_standing (a0) (s : State) : standing (loadKernel a0 s) = standing s := by
  unfold loadKernel; dsimp only; (repeat' split) <;> simp
@[simp] theorem loadKernels_standing (s : State) : standing (loadKernels s) = standing s := by simp [loadKernels]
@[simp] theorem applyDefects_standing (a0) (s : State) : standing (applyDefects a0 s) = standing s := by
  unfold applyDefects
  try dsimp only
  repeat' (first | (simp; done) | intro _ | split | with_reducible apply evChange_standing | with_reducible apply event_standing | with_reducible apply Eq.trans (standing_forAll _ _ _ _) | with_reducible apply Eq.trans (standing_when _ _ _ _) | with_reducible apply need_standing | with_reducible apply needState_standing | with_reducible apply needClaim_standing | with_reducible apply issue_standing | with_reducible apply call_standing | with_reducible apply callSel_standing)
  done
@[simp] theorem autoTrim_standing (s : State) : standing (autoTrim s) = standing s := by simp [autoTrim]

/-! RedOps -/

@[simp] theorem dropJob_standing (a0) (a1) (a2) (s : State) : standing (dropJob a0 a1 a2 s) = standing s := by
  unfold dropJob
  try dsimp only
  repeat' (first | (simp; done) | intro _ | split | with_reducible apply evChange_standing | with_reducible apply event_standing | with_reducible apply Eq.trans (standing_forAll _ _ _ _) | with_reducible apply Eq.trans (standing_when _ _ _ _) | with_reducible apply need_standing | with_reducible apply needState_standing | with_reducible apply needClaim_standing | with_reducible apply issue_standing | with_reducible apply call_standing | with_reducible apply callSel_standing)
  done
@[simp] theorem giveClaim_standing (a0) (a1) (s : State) : standing (giveClaim a0 a1 s) = standing s := by simp [giveClaim]
@[simp] theorem claimLog_standing (a0) (a1) (a2) (a3) (s : State) : standing (claimLog a0 a1 a2 a3 s) = standing s := by simp [claimLog]
@[simp] theorem raiseClaims_standing (a0) (a1) (a2) (a3) (s : State) : standing (raiseClaims a0 a1 a2 a3 s) = standing s := by simp [raiseClaims]
@[simp] theorem halfOff_standing (a0) (s : State) : standing (halfOff a0 s) = standing s := by simp [halfOff]
@[simp] theorem rejoinFails_standing (a0) (s : State) : standing (rejoinFails a0 s) = standing s := by
  unfold rejoinFails; (repeat' split) <;> simp
@[simp] theorem abandonJob_standing (a0) (a1) (a2) (s : State) : standing (abandonJob a0 a1 a2 s) = standing s := by simp [abandonJob]
@[simp] theorem redStat_standing (a0) (a1) (a2) (a3) (s : State) : standing (redStat a0 a1 a2 a3 s) = standing s := by simp [redStat]
@[simp] theorem failHold_standing (a0) (s : State) : standing (failHold a0 s) = standing s := by simp [failHold]
@[simp] theorem takeover_standing (a0) (a1) (s : State) : standing (takeover a0 a1 s) = standing s := by simp [takeover]
@[simp] theorem tryTakeover_standing (a0) (s : State) : standing (tryTakeover a0 s) = standing s := by simp [tryTakeover]
@[simp] theorem markFailed_standing (a0) (s : State) : standing (markFailed a0 s) = standing s := by simp [markFailed]
@[simp] theorem declareFailed_standing (a0) (s : State) : standing (declareFailed a0 s) = standing s := by simp [declareFailed]
@[simp] theorem judgeMissed_standing (a0) (s : State) : standing (judgeMissed a0 s) = standing s := by
  unfold judgeMissed; dsimp only; (repeat' split) <;> simp
@[simp] theorem isolate_standing (a0) (s : State) : standing (isolate a0 s) = standing s := by simp [isolate]
@[simp] theorem serveRows_standing (a0) (s : State) : standing (serveRows a0 s) = standing s := by simp [serveRows]
@[simp] theorem reassign_standing (a0) (s : State) : standing (reassign a0 s) = standing s := by simp [reassign]
@[simp] theorem dropWaiters_standing (s : State) : standing (dropWaiters s) = standing s := by simp [dropWaiters]
@[simp] theorem failMailboxes_standing (s : State) : standing (failMailboxes s) = standing s := by simp [failMailboxes]
@[simp] theorem finishTakeover_standing (a0) (s : State) : standing (finishTakeover a0 s) = standing s := by simp [finishTakeover]
@[simp] theorem closeMoving_standing : ∀ (k n) (s : State), standing (closeMoving k n s) = standing s
  | 0, _, s => rfl
  | k + 1, n, s => by unfold closeMoving; split <;> simp [closeMoving_standing k]
@[simp] theorem finishRejoin_standing (a0) (s : State) : standing (finishRejoin a0 s) = standing s := by simp [finishRejoin]

/-! BootOps -/

@[simp] theorem bootRecord_standing (a0) (a1) (a2) (a3) (a4) (s : State) : standing (bootRecord a0 a1 a2 a3 a4 s) = standing s := by simp [bootRecord]
@[simp] theorem enterBootHold_standing (a0) (s : State) : standing (enterBootHold a0 s) = standing s := by simp [enterBootHold]
@[simp] theorem moveLead_standing (a0) (s : State) : standing (moveLead a0 s) = standing s := by simp [moveLead]
@[simp] theorem unconfigure_standing (s : State) : standing (unconfigure s) = standing s := by simp [unconfigure]
@[simp] theorem bootFrom4_standing (a0) (s : State) : standing (bootFrom4 a0 s) = standing s := by simp [bootFrom4]
@[simp] theorem warmReset_standing (s : State) : standing (warmReset s) = standing s := by simp [warmReset]
@[simp] theorem imagesSpent_standing (s : State) : standing (imagesSpent s) = standing s := by simp [imagesSpent]
@[simp] theorem negotiate_standing (a0) (a1) (s : State) : standing (negotiate a0 a1 s) = standing s := by simp [negotiate]
@[simp] theorem bootNegotiate_standing (a0) (a1) (s : State) : standing (bootNegotiate a0 a1 s) = standing s := by simp [bootNegotiate]
@[simp] theorem answerFlashInfo_standing (a0) (s : State) : standing (answerFlashInfo a0 s) = standing s := by simp [answerFlashInfo]
@[simp] theorem startFirmware_standing (a0) (s : State) : standing (startFirmware a0 s) = standing s := by simp [startFirmware]
@[simp] theorem acceptImage_standing (a0) (a1) (s : State) : standing (acceptImage a0 a1 s) = standing s := by simp [acceptImage]
@[simp] theorem tryImage_standing (a0) (a1) (a2) (s : State) : standing (tryImage a0 a1 a2 s) = standing s := by simp [tryImage]
@[simp] theorem defaultSettings_standing (s : State) : standing (defaultSettings s) = standing s := by simp [defaultSettings]
@[simp] theorem applySettings_standing (s : State) : standing (applySettings s) = standing s := by
  unfold applySettings
  dsimp only
  split
  · simp
  · rw [standing_forAll]
    · simp
    · intro x s; simp
@[simp] theorem leadSetting_standing (s : State) : standing (leadSetting s) = standing s := by simp [leadSetting]
@[simp] theorem configure_standing (s : State) : standing (configure s) = standing s := by simp [configure]
@[simp] theorem discardQueue_standing (a0) (s : State) : standing (discardQueue a0 s) = standing s := by simp [discardQueue]
@[simp] theorem failHalf_standing (a0) (s : State) : standing (failHalf a0 s) = standing s := by simp [failHalf]
@[simp] theorem failBootLead_standing (a0) (s : State) : standing (failBootLead a0 s) = standing s := by simp [failBootLead]
@[simp] theorem stopBoot_standing (s : State) : standing (stopBoot s) = standing s := by simp [stopBoot]
@[simp] theorem writeErase_standing (a0) (a1) (s : State) : standing (writeErase a0 a1 s) = standing s := by simp [writeErase]
@[simp] theorem writeSave_standing (a0) (a1) (a2) (s : State) : standing (writeSave a0 a1 a2 s) = standing s := by simp [writeSave]
@[simp] theorem writeFailed_standing (a0) (s : State) : standing (writeFailed a0 s) = standing s := by simp [writeFailed]
@[simp] theorem writeJobEnds_standing (a0) (a1) (s : State) : standing (writeJobEnds a0 a1 s) = standing s := by simp [writeJobEnds]

/-! PowerOps -/

@[simp] theorem answerChange_standing (a0) (a1) (s : State) : standing (answerChange a0 a1 s) = standing s := by
  unfold answerChange; (repeat' split) <;> simp
@[simp] theorem stateRates_standing (s : State) : standing (stateRates s) = standing s := by simp [stateRates]
@[simp] theorem setPower_standing (a0) (a1) (s : State) : standing (setPower a0 a1 s) = standing s := by simp [setPower]
@[simp] theorem upToPaddle_standing (s : State) : standing (upToPaddle s) = standing s := by simp [upToPaddle]
@[simp] theorem downToEasy_standing (s : State) : standing (downToEasy s) = standing s := by simp [downToEasy]
@[simp] theorem enterState_standing (a0) (a1) (s : State) : standing (enterState a0 a1 s) = standing s := by simp [enterState]
@[simp] theorem beginChange_standing (a0) (a1) (a2) (s : State) : standing (beginChange a0 a1 a2 s) = standing s := by simp [beginChange]
@[simp] theorem followTarget_standing (a0) (s : State) : standing (followTarget a0 s) = standing s := by
  unfold followTarget; (repeat' split) <;> simp
@[simp] theorem settleQueue_standing (a0) (s : State) : standing (settleQueue a0 s) = standing s := by simp [settleQueue]
@[simp] theorem beginHold_standing (a0) (s : State) : standing (beginHold a0 s) = standing s := by
  unfold beginHold; (repeat' split) <;> simp
@[simp] theorem stopTime_standing (s : State) : standing (stopTime s) = standing s := by simp [stopTime]
@[simp] theorem dropRing_standing (s : State) : standing (dropRing s) = standing s := by simp [dropRing]
@[simp] theorem halvesDown_standing (s : State) : standing (halvesDown s) = standing s := by simp [halvesDown]
@[simp] theorem wakeStart_standing (a0) (a1) (a2) (a3) (s : State) : standing (wakeStart a0 a1 a2 a3 s) = standing s := by simp [wakeStart]
@[simp] theorem holdOff_standing (s : State) : standing (holdOff s) = standing s := by simp [holdOff]
@[simp] theorem enterHold_standing (s : State) : standing (enterHold s) = standing s := by
  unfold enterHold; (repeat' split) <;> simp
@[simp] theorem cyclesOver_standing (a0) (s : State) : standing (cyclesOver a0 s).2 = standing s := by simp [cyclesOver]
@[simp] theorem restartTime_standing (s : State) : standing (restartTime s) = standing s := by
  unfold restartTime; dsimp only; (repeat' split) <;> simp
@[simp] theorem reloadFrom_standing : ∀ (l) (s : State), standing (reloadFrom l s).2 = standing s
  | [], s => rfl
  | (cs, k) :: r, s => by unfold reloadFrom; dsimp only; split <;> simp [reloadFrom_standing r]
@[simp] theorem restoreHalf_standing (a0) (a1) (s : State) : standing (restoreHalf a0 a1 s) = standing s := by
  unfold restoreHalf; (repeat' split) <;> simp
@[simp] theorem restoreFails_standing (a0) (s : State) : standing (restoreFails a0 s) = standing s := by simp [restoreFails]
@[simp] theorem restoreQueues_standing (a0) (s : State) : standing (restoreQueues a0 s) = standing s := by simp [restoreQueues]
@[simp] theorem restoreTables_standing (s : State) : standing (restoreTables s) = standing s := by simp [restoreTables]
@[simp] theorem startWindows_standing (s : State) : standing (startWindows s) = standing s := by simp [startWindows]
@[simp] theorem watchesBegin_standing (s : State) : standing (watchesBegin s) = standing s := by simp [watchesBegin]
@[simp] theorem enginesBegin_standing (s : State) : standing (enginesBegin s) = standing s := by simp [enginesBegin]
@[simp] theorem unitsWake_standing (s : State) : standing (unitsWake s) = standing s := by simp [unitsWake]
@[simp] theorem startEasy_standing (s : State) : standing (startEasy s) = standing s := by simp [startEasy]
@[simp] theorem unforce_standing (a0) (s : State) : standing (unforce a0 s) = standing s := by simp [unforce]
@[simp] theorem tryUnreachable_standing (s : State) : standing (tryUnreachable s) = standing s := by simp [tryUnreachable]
@[simp] theorem restoreGroup_standing (a0) (s : State) : standing (restoreGroup a0 s) = standing s := by simp [restoreGroup]

/-! Redundancy -/

@[simp] theorem execXlinkHeartbeatSend_standing (a0) (s : State) : standingO (execXlinkHeartbeatSend a0 s) = some (standing s) := by simp [execXlinkHeartbeatSend]
@[simp] theorem linkRestored_standing (a0) (s : State) : standing (linkRestored a0 s) = standing s := by simp [linkRestored]
@[simp] theorem missBeats_standing (a0) (a1) (s : State) : standing (missBeats a0 a1 s) = standing s := by simp [missBeats]
@[simp] theorem linkLost_standing (a0) (a1) (s : State) : standing (linkLost a0 a1 s) = standing s := by simp [linkLost]
@[simp] theorem beatGap_standing (a0) (s : State) : standing (beatGap a0 s) = standing s := by simp [beatGap]
@[simp] theorem execXlinkHeartbeatRx_standing (a0) (a1) (s : State) : standingO (execXlinkHeartbeatRx a0 a1 s) = some (standing s) := by simp [execXlinkHeartbeatRx]
@[simp] theorem execXlinkHeartbeatTimeout_standing (a0) (a1) (s : State) : standingO (execXlinkHeartbeatTimeout a0 a1 s) = some (standing s) := by simp [execXlinkHeartbeatTimeout]
@[simp] theorem missPoll_standing (a0) (s : State) : standing (missPoll a0 s) = standing s := by simp [missPoll]
@[simp] theorem pollArrives_standing (a0) (a1) (s : State) : standing (pollArrives a0 a1 s) = standing s := by simp [pollArrives]
@[simp] theorem execArbPoll_standing (a0) (a1) (s : State) : standingO (execArbPoll a0 a1 s) = some (standing s) := by simp [execArbPoll]
@[simp] theorem answerSettles_standing (a0) (s : State) : standing (answerSettles a0 s) = standing s := by simp [answerSettles]
@[simp] theorem execArbPollAnswer_standing (a0) (a1) (s : State) : standingO (execArbPollAnswer a0 a1 s) = some (standing s) := by simp [execArbPollAnswer]
@[simp] theorem execArbLostTimeout_standing (a0) (s : State) : standingO (execArbLostTimeout a0 s) = some (standing s) := by simp [execArbLostTimeout]
@[simp] theorem execTakeoverComplete_standing (s : State) : standingO (execTakeoverComplete s) = some (standing s) := by
  unfold execTakeoverComplete; (repeat' split) <;> simp
@[simp] theorem grantFalls_standing (a0) (s : State) : standing (grantFalls a0 s) = standing s := by simp [grantFalls]
@[simp] theorem execArbGntChange_standing (a0) (a1) (s : State) : standingO (execArbGntChange a0 a1 s) = some (standing s) := by simp [execArbGntChange]
@[simp] theorem execRejoinTick_standing (s : State) : standingO (execRejoinTick s) = some (standing s) := by
  unfold execRejoinTick; (repeat' split) <;> simp
@[simp] theorem execArbiterTmrVote_standing (a0) (s : State) : standingO (execArbiterTmrVote a0 s) = some (standing s) := by simp [execArbiterTmrVote]
@[simp] theorem execRedStatus_standing (a0) (s : State) : standingO (execRedStatus a0 s) = some (standing s) := by simp [execRedStatus]
@[simp] theorem execRedClaimRead_standing (a0) (s : State) : standingO (execRedClaimRead a0 s) = some (standing s) := by simp [execRedClaimRead]
@[simp] theorem rejoinBegin_standing (a0) (a1) (a2) (s : State) : standing (rejoinBegin a0 a1 a2 s) = standing s := by simp [rejoinBegin]
@[simp] theorem execRedRejoin_standing (a0) (s : State) : standingO (execRedRejoin a0 s) = some (standing s) := by
  unfold execRedRejoin
  try dsimp only
  repeat' (first | (simp; done) | intro _ | split | with_reducible apply evChange_standing | with_reducible apply event_standing | with_reducible apply Eq.trans (standing_forAll _ _ _ _) | with_reducible apply Eq.trans (standing_when _ _ _ _) | with_reducible apply need_standing | with_reducible apply needState_standing | with_reducible apply needClaim_standing | with_reducible apply issue_standing | with_reducible apply call_standing | with_reducible apply callSel_standing)
  done
@[simp] theorem writeMirror_standing (a0) (a1) (s : State) : standing (writeMirror a0 a1 s) = standing s := by simp [writeMirror]
@[simp] theorem execFlogMirror_standing (a0) (s : State) : standingO (execFlogMirror a0 s) = some (standing s) := by
  unfold execFlogMirror
  try dsimp only
  repeat' (first | (simp; done) | intro _ | split | with_reducible apply evChange_standing | with_reducible apply event_standing | with_reducible apply Eq.trans (standing_forAll _ _ _ _) | with_reducible apply Eq.trans (standing_when _ _ _ _) | with_reducible apply need_standing | with_reducible apply needState_standing | with_reducible apply needClaim_standing | with_reducible apply issue_standing | with_reducible apply call_standing | with_reducible apply callSel_standing)
  done
@[simp] theorem execFlogMirrorRead_standing (a0) (s : State) : standingO (execFlogMirrorRead a0 s) = some (standing s) := by
  unfold execFlogMirrorRead
  try dsimp only
  repeat' (first | (simp; done) | intro _ | split | with_reducible apply evChange_standing | with_reducible apply event_standing | with_reducible apply Eq.trans (standing_forAll _ _ _ _) | with_reducible apply Eq.trans (standing_when _ _ _ _) | with_reducible apply need_standing | with_reducible apply needState_standing | with_reducible apply needClaim_standing | with_reducible apply issue_standing | with_reducible apply call_standing | with_reducible apply callSel_standing)
  done

/-! System -/

@[simp] theorem execUnknownCall_standing (a0) (s : State) : standingO (execUnknownCall a0 s) = some (standing s) := by simp [execUnknownCall]
@[simp] theorem callThen_standing (n code sel a len) (act : List Byte → State → Reply) (f : List Byte → State → State) (s : State)
    (h : ∀ p s, standingR (act p s) = standing s) (hf : ∀ p s, standing (f p s) = standing s) :
    standingO (callThen n code sel a len act f s) = some (standing s) := by
  unfold callThen; apply event_standing; intro s; dsimp only
  have hc := checkCall_standing n code a len act s h
  revert hc
  cases checkCall n code a len act s with
  | done st bs t => intro hc; dsimp only; split <;> simpa [hf] using hc
  | later t => intro hc; simpa using hc
@[simp] theorem execSysNop_standing (a0) (s : State) : standingO (execSysNop a0 s) = some (standing s) := by simp [execSysNop]
@[simp] theorem execSysIdent_standing (a0) (s : State) : standingO (execSysIdent a0 s) = some (standing s) := by simp [execSysIdent]
@[simp] theorem execSysResetWarm_standing (a0) (s : State) : standingO (execSysResetWarm a0 s) = some (standing s) := by simp [execSysResetWarm]
@[simp] theorem restartCox_standing (a0) (s : State) : standing (restartCox a0 s) = standing s := by simp [restartCox]
@[simp] theorem execSysResetCox_standing (mb) (s : State) : standingO (execSysResetCox mb s) = some (standing s) := by
  unfold execSysResetCox
  apply callThen_standing
  · intro p s; simp
  · intro p s; dsimp only; rw [restartCox_standing]; split <;> simp
@[simp] theorem execSysResetBoth_standing (a0) (s : State) : standingO (execSysResetBoth a0 s) = some (standing s) := by simp [execSysResetBoth]
@[simp] theorem execSysLeadSet_standing (a0) (s : State) : standingO (execSysLeadSet a0 s) = some (standing s) := by
  unfold execSysLeadSet; apply call_standing; intro p s; apply need_standing; intro s; simp
@[simp] theorem execSysBootReport_standing (a0) (s : State) : standingO (execSysBootReport a0 s) = some (standing s) := by simp [execSysBootReport]
@[simp] theorem execSysFlashInfo_standing (a0) (s : State) : standingO (execSysFlashInfo a0 s) = some (standing s) := by
  unfold execSysFlashInfo; apply call_standing; intro p s; apply need_standing; intro s; simp
@[simp] theorem execSysSettingRead_standing (a0) (s : State) : standingO (execSysSettingRead a0 s) = some (standing s) := by
  unfold execSysSettingRead
  try dsimp only
  repeat' (first | (simp; done) | intro _ | split | with_reducible apply evChange_standing | with_reducible apply event_standing | with_reducible apply Eq.trans (standing_forAll _ _ _ _) | with_reducible apply Eq.trans (standing_when _ _ _ _) | with_reducible apply need_standing | with_reducible apply needState_standing | with_reducible apply needClaim_standing | with_reducible apply issue_standing | with_reducible apply call_standing | with_reducible apply callSel_standing)
  done
@[simp] theorem touchInactive_standing (s : State) : standing (touchInactive s) = standing s := by simp [touchInactive]
@[simp] theorem execSysSettingsSave_standing (a0) (s : State) : standingO (execSysSettingsSave a0 s) = some (standing s) := by
  unfold execSysSettingsSave
  try dsimp only
  repeat' (first | (simp; done) | intro _ | split | with_reducible apply evChange_standing | with_reducible apply event_standing | with_reducible apply Eq.trans (standing_forAll _ _ _ _) | with_reducible apply Eq.trans (standing_when _ _ _ _) | with_reducible apply need_standing | with_reducible apply needState_standing | with_reducible apply needClaim_standing | with_reducible apply issue_standing | with_reducible apply call_standing | with_reducible apply callSel_standing)
  done
@[simp] theorem commitOn_standing (a0) (a1) (s : State) : standing (commitOn a0 a1 s).2 = standing s := by
  unfold commitOn; dsimp only; (repeat' split) <;> simp
@[simp] theorem execSysImageCommit_standing (a0) (s : State) : standingO (execSysImageCommit a0 s) = some (standing s) := by
  unfold execSysImageCommit; apply call_standing; intro p s; apply need_standing; intro s; simp
@[simp] theorem execSysJobStatus_standing (a0) (s : State) : standingO (execSysJobStatus a0 s) = some (standing s) := by
  unfold execSysJobStatus
  try dsimp only
  repeat' (first | (simp; done) | intro _ | split | with_reducible apply evChange_standing | with_reducible apply event_standing | with_reducible apply Eq.trans (standing_forAll _ _ _ _) | with_reducible apply Eq.trans (standing_when _ _ _ _) | with_reducible apply need_standing | with_reducible apply needState_standing | with_reducible apply needClaim_standing | with_reducible apply issue_standing | with_reducible apply call_standing | with_reducible apply callSel_standing)
  done
@[simp] theorem execSysImageBegin_standing (a0) (s : State) : standingO (execSysImageBegin a0 s) = some (standing s) := by
  unfold execSysImageBegin
  try dsimp only
  repeat' (first | (simp; done) | intro _ | split | with_reducible apply evChange_standing | with_reducible apply event_standing | with_reducible apply Eq.trans (standing_forAll _ _ _ _) | with_reducible apply Eq.trans (standing_when _ _ _ _) | with_reducible apply need_standing | with_reducible apply needState_standing | with_reducible apply needClaim_standing | with_reducible apply issue_standing | with_reducible apply call_standing | with_reducible apply callSel_standing)
  done
@[simp] theorem execSysImageData_standing (a0) (s : State) : standingO (execSysImageData a0 s) = some (standing s) := by
  unfold execSysImageData; apply call_standing; intro p s; apply need_standing; intro s; simp
@[simp] theorem execSysImageVerify_standing (a0) (s : State) : standingO (execSysImageVerify a0 s) = some (standing s) := by
  unfold execSysImageVerify
  try dsimp only
  repeat' (first | (simp; done) | intro _ | split | with_reducible apply evChange_standing | with_reducible apply event_standing | with_reducible apply Eq.trans (standing_forAll _ _ _ _) | with_reducible apply Eq.trans (standing_when _ _ _ _) | with_reducible apply need_standing | with_reducible apply needState_standing | with_reducible apply needClaim_standing | with_reducible apply issue_standing | with_reducible apply call_standing | with_reducible apply callSel_standing)
  done
@[simp] theorem trimDone_standing (a0) (a1) (s : State) : standing (trimDone a0 a1 s) = standing s := by simp [trimDone]
@[simp] theorem scurveDone_standing (a0) (a1) (s : State) : standing (scurveDone a0 a1 s) = standing s := by simp [scurveDone]
@[simp] theorem bumpDone_standing (a0) (a1) (a2) (s : State) : standing (bumpDone a0 a1 a2 s) = standing s := by simp [bumpDone]
@[simp] theorem chargeDone_standing (a0) (a1) (s : State) : standing (chargeDone a0 a1 s) = standing s := by simp [chargeDone]
@[simp] theorem walkBlock_standing (a0) (a1) (s : State) : standing (walkBlock a0 a1 s) = standing s := by simp [walkBlock]
@[simp] theorem walkDone_standing (a0) (a1) (s : State) : standing (walkDone a0 a1 s) = standing s := by simp [walkDone]
@[simp] theorem saveDone_standing (a0) (a1) (s : State) : standing (saveDone a0 a1 s) = standing s := by simp [saveDone]
@[simp] theorem beginDone_standing (a0) (a1) (s : State) : standing (beginDone a0 a1 s) = standing s := by simp [beginDone]
@[simp] theorem verifyDone_standing (a0) (a1) (s : State) : standing (verifyDone a0 a1 s) = standing s := by simp [verifyDone]
@[simp] theorem trainDone_standing (a0) (a1) (s : State) : standing (trainDone a0 a1 s) = standing s := by simp [trainDone]
@[simp] theorem scrubDone_standing (a0) (s : State) : standing (scrubDone a0 s) = standing s := by simp [scrubDone]
@[simp] theorem mirrorDone_standing (a0) (a1) (s : State) : standing (mirrorDone a0 a1 s) = standing s := by simp [mirrorDone]
@[simp] theorem scanDone_standing (a0) (a1) (s : State) : standing (scanDone a0 a1 s) = standing s := by
  unfold scanDone; (repeat' split) <;> simp
@[simp] theorem skewReach_standing (a0) (s : State) : standing (skewReach a0 s) = standing s := by
  unfold skewReach; (repeat' split) <;> simp
@[simp] theorem finishJob_standing (a0) (a1) (s : State) : standing (finishJob a0 a1 s) = standing s := by
  unfold finishJob; (repeat' split) <;> simp
@[simp] theorem execJobComplete_standing (a0) (a1) (s : State) : standingO (execJobComplete a0 a1 s) = some (standing s) := by
  unfold execJobComplete; (repeat' split) <;> simp
@[simp] theorem beginJob_standing (a0) (s : State) : standing (beginJob a0 s) = standing s := by
  unfold beginJob; (repeat' split) <;> simp
@[simp] theorem execJobDeferredStart_standing (a0) (s : State) : standingO (execJobDeferredStart a0 s) = some (standing s) := by
  unfold execJobDeferredStart; (repeat' split) <;> simp

/-! Boot -/

@[simp] theorem execCoxBootRomStart_standing (s : State) : standingO (execCoxBootRomStart s) = some (standing s) := by simp [execCoxBootRomStart]
@[simp] theorem leadReady_standing (s : State) : standing (leadReady s) = standing s := by simp [leadReady]
@[simp] theorem execCoxRomReady_standing (a0) (s : State) : standingO (execCoxRomReady a0 s) = some (standing s) := by
  unfold execCoxRomReady
  try dsimp only
  repeat' (first | (simp; done) | intro _ | split | with_reducible apply evChange_standing | with_reducible apply event_standing | with_reducible apply Eq.trans (standing_forAll _ _ _ _) | with_reducible apply Eq.trans (standing_when _ _ _ _) | with_reducible apply need_standing | with_reducible apply needState_standing | with_reducible apply needClaim_standing | with_reducible apply issue_standing | with_reducible apply call_standing | with_reducible apply callSel_standing)
  done
@[simp] theorem romFails_standing (a0) (s : State) : standing (romFails a0 s) = standing s := by simp [romFails]
@[simp] theorem execBootRomReadyTimeout_standing (s : State) : standingO (execBootRomReadyTimeout s) = some (standing s) := by simp [execBootRomReadyTimeout]
@[simp] theorem execFlashNegotiation_standing (a0) (a1) (s : State) : standingO (execFlashNegotiation a0 a1 s) = some (standing s) := by simp [execFlashNegotiation]
@[simp] theorem execBootImageCheck_standing (a0) (a1) (a2) (s : State) : standingO (execBootImageCheck a0 a1 a2 s) = some (standing s) := by simp [execBootImageCheck]
@[simp] theorem execSettingsApply_standing (s : State) : standingO (execSettingsApply s) = some (standing s) := by simp [execSettingsApply]
@[simp] theorem execMemTrainingDone_standing (a0) (s : State) : standingO (execMemTrainingDone a0 s) = some (standing s) := by
  unfold execMemTrainingDone
  try dsimp only
  repeat' (first | (simp; done) | intro _ | split | with_reducible apply evChange_standing | with_reducible apply event_standing | with_reducible apply Eq.trans (standing_forAll _ _ _ _) | with_reducible apply Eq.trans (standing_when _ _ _ _) | with_reducible apply need_standing | with_reducible apply needState_standing | with_reducible apply needClaim_standing | with_reducible apply issue_standing | with_reducible apply call_standing | with_reducible apply callSel_standing)
  done
@[simp] theorem execTimeCoreStart_standing (s : State) : standingO (execTimeCoreStart s) = some (standing s) := by simp [execTimeCoreStart]
@[simp] theorem execBootLinkWaitExpiry_standing (s : State) : standingO (execBootLinkWaitExpiry s) = some (standing s) := by simp [execBootLinkWaitExpiry]
@[simp] theorem execBootEnterEasy_standing (s : State) : standingO (execBootEnterEasy s) = some (standing s) := by simp [execBootEnterEasy]
@[simp] theorem execCoxFirmwareReloaded_standing (a0) (s : State) : standingO (execCoxFirmwareReloaded a0 s) = some (standing s) := by simp [execCoxFirmwareReloaded]
@[simp] theorem execCoxRestartTimeout_standing (a0) (s : State) : standingO (execCoxRestartTimeout a0 s) = some (standing s) := by simp [execCoxRestartTimeout]
@[simp] theorem execCoxMemScrub_standing (a0) (a1) (a2) (s : State) : standingO (execCoxMemScrub a0 a1 a2 s) = some (standing s) := by simp [execCoxMemScrub]
@[simp] theorem execWakeHalfAnswerTimeout_standing (a0) (s : State) : standingO (execWakeHalfAnswerTimeout a0 s) = some (standing s) := by simp [execWakeHalfAnswerTimeout]

/-! HitPath -/

@[simp] theorem popPort_standing (a0) (a1) (s : State) : standing (popPort a0 a1 s) = standing s := by simp [popPort]
@[simp] theorem countHit_standing (a0) (a1) (a2) (a3) (a4) (s : State) : standing (countHit a0 a1 a2 a3 a4 s) = standing s := by simp [countHit]
@[simp] theorem divertHit_standing (a0) (s : State) : standing (divertHit a0 s) = standing s := by simp [divertHit]
@[simp] theorem forwardHit_standing (a0) (a1) (a2) (a3) (s : State) : standing (forwardHit a0 a1 a2 a3 s) = standing s := by simp [forwardHit]
@[simp] theorem takeHit_standing (a0) (a1) (s : State) : standing (takeHit a0 a1 s) = standing s := by simp [takeHit]
@[simp] theorem drainInBuf_standing (a0) (s : State) : standing (drainInBuf a0 s) = standing s := by simp [drainInBuf]
@[simp] theorem zeroEntry_standing (a0) (s : State) : standing (zeroEntry a0 s) = standing s := by simp [zeroEntry]
@[simp] theorem checkEntry_standing (a0) (a1) (a2) (a3) (s : State) : standing (checkEntry a0 a1 a2 a3 s) = standing s := by simp [checkEntry]
@[simp] theorem dropHit_standing (a0) (a1) (s : State) : standing (dropHit a0 a1 s) = standing s := by simp [dropHit]
@[simp] theorem hearHit_standing (a0) (a1) (a2) (a3) (s : State) : standing (hearHit a0 a1 a2 a3 s) = standing s := by simp [hearHit]
@[simp] theorem portReach_standing (a0) (a1) (s : State) : standing (portReach a0 a1 s) = standing s := by
  unfold portReach; dsimp only; (repeat' split) <;> simp
@[simp] theorem execHitFrameReceived_standing (a0) (a1) (a2) (s : State) : standingO (execHitFrameReceived a0 a1 a2 s) = some (standing s) := by
  unfold execHitFrameReceived; dsimp only; (repeat' split) <;> simp
@[simp] theorem execWatermarkReceived_standing (a0) (s : State) : standingO (execWatermarkReceived a0 s) = some (standing s) := by
  unfold execWatermarkReceived; (repeat' split) <;> simp
@[simp] theorem execPortLossReceived_standing (a0) (s : State) : standingO (execPortLossReceived a0 s) = some (standing s) := by
  unfold execPortLossReceived; (repeat' split) <;> simp
@[simp] theorem execPortFramingError_standing (a0) (a1) (s : State) : standingO (execPortFramingError a0 a1 s) = some (standing s) := by simp [execPortFramingError]
@[simp] theorem execClusterClose_standing (a0) (a1) (s : State) : standingO (execClusterClose a0 a1 s) = some (standing s) := by
  unfold execClusterClose; dsimp only; (repeat' split) <;> simp
@[simp] theorem drainFeeders_standing (a0) (s : State) : standing (drainFeeders a0 s) = standing s := by simp [drainFeeders]
@[simp] theorem execReorderRelease_standing (a0) (s : State) : standingO (execReorderRelease a0 s) = some (standing s) := by
  unfold execReorderRelease; (repeat' split) <;> simp
@[simp] theorem execBlockOffRelease_standing (a0) (s : State) : standingO (execBlockOffRelease a0 s) = some (standing s) := by
  unfold execBlockOffRelease; (repeat' split) <;> simp
@[simp] theorem execEdgeFragRx_standing (a0) (a1) (s : State) : standingO (execEdgeFragRx a0 a1 s) = some (standing s) := by simp [execEdgeFragRx]
@[simp] theorem dropSent_standing (a0) (a1) (s : State) : standing (dropSent a0 a1 s) = standing s := by simp [dropSent]
@[simp] theorem execMergeReplyRx_standing (a0) (a1) (a2) (s : State) : standingO (execMergeReplyRx a0 a1 a2 s) = some (standing s) := by
  unfold execMergeReplyRx; (repeat' split) <;> simp
@[simp] theorem emitKept_standing (a0) (a1) (s : State) : standing (emitKept a0 a1 s) = standing s := by simp [emitKept]
@[simp] theorem execMergeWaitExpiry_standing (a0) (a1) (s : State) : standingO (execMergeWaitExpiry a0 a1 s) = some (standing s) := by
  unfold execMergeWaitExpiry; (repeat' split) <;> simp
@[simp] theorem execMergeReplyTimeout_standing (a0) (a1) (s : State) : standingO (execMergeReplyTimeout a0 a1 s) = some (standing s) := by
  unfold execMergeReplyTimeout; (repeat' split) <;> simp
@[simp] theorem execHpStatus_standing (a0) (s : State) : standingO (execHpStatus a0 s) = some (standing s) := by simp [execHpStatus]
@[simp] theorem execHpOutputSet_standing (a0) (s : State) : standingO (execHpOutputSet a0 s) = some (standing s) := by simp [execHpOutputSet]
@[simp] theorem execHpClusterConfig_standing (a0) (s : State) : standingO (execHpClusterConfig a0 s) = some (standing s) := by simp [execHpClusterConfig]
@[simp] theorem execHpLossConfig_standing (a0) (s : State) : standingO (execHpLossConfig a0 s) = some (standing s) := by simp [execHpLossConfig]
@[simp] theorem execHpLossStatus_standing (a0) (s : State) : standingO (execHpLossStatus a0 s) = some (standing s) := by simp [execHpLossStatus]
@[simp] theorem execHpGateConfig_standing (a0) (s : State) : standingO (execHpGateConfig a0 s) = some (standing s) := by simp [execHpGateConfig]
@[simp] theorem execHpMergeConfig_standing (a0) (s : State) : standingO (execHpMergeConfig a0 s) = some (standing s) := by simp [execHpMergeConfig]
@[simp] theorem execHpMergeStatus_standing (a0) (s : State) : standingO (execHpMergeStatus a0 s) = some (standing s) := by simp [execHpMergeStatus]
@[simp] theorem execHpReorderConfig_standing (a0) (s : State) : standingO (execHpReorderConfig a0 s) = some (standing s) := by simp [execHpReorderConfig]
@[simp] theorem execHpStats_standing (a0) (s : State) : standingO (execHpStats a0 s) = some (standing s) := by simp [execHpStats]
@[simp] theorem execHpTpRead_standing (a0) (s : State) : standingO (execHpTpRead a0 s) = some (standing s) := by simp [execHpTpRead]

/-! Light -/

@[simp] theorem execLdPreWake_standing (s : State) : standingO (execLdPreWake s) = some (standing s) := by
  unfold execLdPreWake
  try dsimp only
  repeat' (first | (simp; done) | intro _ | split | with_reducible apply evChange_standing | with_reducible apply event_standing | with_reducible apply Eq.trans (standing_forAll _ _ _ _) | with_reducible apply Eq.trans (standing_when _ _ _ _) | with_reducible apply need_standing | with_reducible apply needState_standing | with_reducible apply needClaim_standing)
  done
@[simp] theorem shiftFor_standing (a0) (a1) (s : State) : standing (shiftFor a0 a1 s) = standing s := by simp [shiftFor]
@[simp] theorem execLampShiftStart_standing (a0) (s : State) : standingO (execLampShiftStart a0 s) = some (standing s) := by
  unfold execLampShiftStart; (repeat' split) <;> simp
@[simp] theorem entryFlashed_standing (a0) (a1) (a2) (s : State) : standing (entryFlashed a0 a1 a2 s) = standing s := by simp [entryFlashed]
@[simp] theorem flashAt_standing (a0) (s : State) : standing (flashAt a0 s) = standing s := by simp [flashAt]
@[simp] theorem execFlashInstant_standing (s : State) : standingO (execFlashInstant s) = some (standing s) := by
  unfold execFlashInstant; (repeat' split) <;> simp
@[simp] theorem execLedDiagSample_standing (a0) (a1) (a2) (s : State) : standingO (execLedDiagSample a0 a1 a2 s) = some (standing s) := by
  unfold execLedDiagSample; (repeat' split) <;> simp
@[simp] theorem execLedPulseEnd_standing (a0) (s : State) : standingO (execLedPulseEnd a0 s) = some (standing s) := by
  unfold execLedPulseEnd; (repeat' split) <;> simp
@[simp] theorem execFlashWindowEnd_standing (s : State) : standingO (execFlashWindowEnd s) = some (standing s) := by
  unfold execFlashWindowEnd
  try dsimp only
  repeat' (first | (simp; done) | intro _ | split | with_reducible apply evChange_standing | with_reducible apply event_standing | with_reducible apply Eq.trans (standing_forAll _ _ _ _) | with_reducible apply Eq.trans (standing_when _ _ _ _) | with_reducible apply need_standing | with_reducible apply needState_standing | with_reducible apply needClaim_standing | with_reducible apply issue_standing | with_reducible apply call_standing | with_reducible apply callSel_standing)
  done
@[simp] theorem execLdIdleGate_standing (s : State) : standingO (execLdIdleGate s) = some (standing s) := by simp [execLdIdleGate]
@[simp] theorem captureCycle_standing (a0) (a1) (s : State) : standing (captureCycle a0 a1 s) = standing s := by simp [captureCycle]
@[simp] theorem execLampCaptureCycle_standing (a0) (a1) (s : State) : standingO (execLampCaptureCycle a0 a1 s) = some (standing s) := by simp [execLampCaptureCycle]
@[simp] theorem loopDerated_standing (a0) (s : State) : standing (loopDerated a0 s) = standing s := by simp [loopDerated]
@[simp] theorem sinkTempUpdate_standing (a0) (s : State) : standing (sinkTempUpdate a0 s) = standing s := by simp [sinkTempUpdate]
@[simp] theorem execLedTempUpdate_standing (s : State) : standingO (execLedTempUpdate s) = some (standing s) := by simp [execLedTempUpdate]
@[simp] theorem execProofPulseDue_standing (a0) (s : State) : standingO (execProofPulseDue a0 s) = some (standing s) := by simp [execProofPulseDue]
@[simp] theorem sinkProof_standing (a0) (a1) (a2) (s : State) : standing (sinkProof a0 a1 a2 s) = standing s := by
  unfold sinkProof; (repeat' split) <;> simp
@[simp] theorem boardProof_standing (a0) (a1) (s : State) : standing (boardProof a0 a1 s) = standing s := by simp [boardProof]
@[simp] theorem proofPulse_standing (a0) (a1) (a2) (a3) (s : State) : standing (proofPulse a0 a1 a2 a3 s) = standing s := by
  unfold proofPulse; dsimp only; (repeat' split) <;> simp
@[simp] theorem execProofPulse_standing (a0) (a1) (a2) (a3) (s : State) : standingO (execProofPulse a0 a1 a2 a3 s) = some (standing s) := by simp [execProofPulse]
@[simp] theorem execDiagAgeExpiry_standing (a0) (s : State) : standingO (execDiagAgeExpiry a0 s) = some (standing s) := by simp [execDiagAgeExpiry]
@[simp] theorem execLdLineReadbackFault_standing (a0) (s : State) : standingO (execLdLineReadbackFault a0 s) = some (standing s) := by simp [execLdLineReadbackFault]
@[simp] theorem execLdStatus_standing (a0) (s : State) : standingO (execLdStatus a0 s) = some (standing s) := by simp [execLdStatus]
@[simp] theorem execLdChainDiscover_standing (a0) (s : State) : standingO (execLdChainDiscover a0 s) = some (standing s) := by
  unfold execLdChainDiscover; apply call_standing; intro p s; apply need_standing; intro s; simp
@[simp] theorem execLdChainRead_standing (a0) (s : State) : standingO (execLdChainRead a0 s) = some (standing s) := by simp [execLdChainRead]
@[simp] theorem reconfigure_standing (a0) (a1) (s : State) : standing (reconfigure a0 a1 s) = standing s := by simp [reconfigure]
@[simp] theorem execLdEmitterConfig_standing (a0) (s : State) : standingO (execLdEmitterConfig a0 s) = some (standing s) := by
  unfold execLdEmitterConfig; apply call_standing; intro p s; apply need_standing; intro s; simp
@[simp] theorem execLdEmitterRead_standing (a0) (s : State) : standingO (execLdEmitterRead a0 s) = some (standing s) := by simp [execLdEmitterRead]
@[simp] theorem execLdSchedule_standing (a0) (s : State) : standingO (execLdSchedule a0 s) = some (standing s) := by
  unfold execLdSchedule; apply call_standing; intro p s; apply need_standing; intro s; simp
@[simp] theorem execLdCancel_standing (a0) (s : State) : standingO (execLdCancel a0 s) = some (standing s) := by simp [execLdCancel]
@[simp] theorem execLdScheduleRead_standing (a0) (s : State) : standingO (execLdScheduleRead a0 s) = some (standing s) := by simp [execLdScheduleRead]
@[simp] theorem execLdDiagRead_standing (a0) (s : State) : standingO (execLdDiagRead a0 s) = some (standing s) := by simp [execLdDiagRead]
@[simp] theorem execLdProofRun_standing (a0) (s : State) : standingO (execLdProofRun a0 s) = some (standing s) := by
  unfold execLdProofRun; apply call_standing; intro p s; apply need_standing; intro s; simp
@[simp] theorem execLdSinkConfig_standing (a0) (s : State) : standingO (execLdSinkConfig a0 s) = some (standing s) := by
  unfold execLdSinkConfig; apply call_standing; intro p s; apply need_standing; intro s; simp
@[simp] theorem execLdStats_standing (a0) (s : State) : standingO (execLdStats a0 s) = some (standing s) := by
  unfold execLdStats; apply call_standing; intro p s; apply need_standing; intro s; simp

/-! Power -/

@[simp] theorem execGovernorStep2Tick_standing (s : State) : standingO (execGovernorStep2Tick s) = some (standing s) := by
  unfold execGovernorStep2Tick
  try dsimp only
  repeat' (first | (simp; done) | intro _ | split | with_reducible apply evChange_standing | with_reducible apply event_standing | with_reducible apply Eq.trans (standing_forAll _ _ _ _) | with_reducible apply Eq.trans (standing_when _ _ _ _) | with_reducible apply need_standing | with_reducible apply needState_standing | with_reducible apply needClaim_standing | with_reducible apply issue_standing | with_reducible apply call_standing | with_reducible apply callSel_standing)
  done
@[simp] theorem execGovernorRestoreRetry_standing (s : State) : standingO (execGovernorRestoreRetry s) = some (standing s) := by
  unfold execGovernorRestoreRetry
  try dsimp only
  repeat' (first | (simp; done) | intro _ | split | with_reducible apply evChange_standing | with_reducible apply event_standing | with_reducible apply Eq.trans (standing_forAll _ _ _ _) | with_reducible apply Eq.trans (standing_when _ _ _ _) | with_reducible apply need_standing | with_reducible apply needState_standing | with_reducible apply needClaim_standing | with_reducible apply issue_standing | with_reducible apply call_standing | with_reducible apply callSel_standing)
  done
@[simp] theorem takeReadings_standing (a0) (s : State) : standing (takeReadings a0 s) = standing s := by simp [takeReadings]
@[simp] theorem warn_standing (s : State) : standing (warn s) = standing s := by simp [warn]
@[simp] theorem shutdown_standing (s : State) : standing (shutdown s) = standing s := by
  unfold shutdown; dsimp only; (repeat' split) <;> simp
@[simp] theorem coolTime_standing (s : State) : standing (coolTime s) = standing s := by simp [coolTime]
@[simp] theorem scanNow_standing (s : State) : standing (scanNow s) = standing s := by simp [scanNow]
@[simp] theorem execShutdownHoldTimeout_standing (s : State) : standingO (execShutdownHoldTimeout s) = some (standing s) := by simp [execShutdownHoldTimeout]
@[simp] theorem execThermalLatchClear_standing (s : State) : standingO (execThermalLatchClear s) = some (standing s) := by simp [execThermalLatchClear]
@[simp] theorem autoWindow_standing (s : State) : standing (autoWindow s) = standing s := by simp [autoWindow]
@[simp] theorem execAutoRateWindow_standing (s : State) : standingO (execAutoRateWindow s) = some (standing s) := by simp [execAutoRateWindow]
@[simp] theorem timerActs_standing (a0) (a1) (s : State) : standing (timerActs a0 a1 s) = standing s := by
  unfold timerActs; (repeat' split) <;> simp
@[simp] theorem reachWake_standing (a0) (s : State) : standing (reachWake a0 s) = standing s := by
  unfold reachWake; dsimp only; (repeat' split) <;> simp
@[simp] theorem execWakeTimerFire_standing (a0) (s : State) : standingO (execWakeTimerFire a0 s) = some (standing s) := by
  unfold execWakeTimerFire
  try dsimp only
  repeat' (first | (simp; done) | intro _ | split | with_reducible apply evChange_standing | with_reducible apply event_standing | with_reducible apply Eq.trans (standing_forAll _ _ _ _) | with_reducible apply Eq.trans (standing_when _ _ _ _) | with_reducible apply need_standing | with_reducible apply needState_standing | with_reducible apply needClaim_standing | with_reducible apply issue_standing | with_reducible apply call_standing | with_reducible apply callSel_standing)
  done
@[simp] theorem setPhase_standing (a0) (s : State) : standing (setPhase a0 s) = standing s := by simp [setPhase]
@[simp] theorem execQueueSave_standing (s : State) : standingO (execQueueSave s) = some (standing s) := by simp [execQueueSave]
@[simp] theorem execHoldReached_standing (s : State) : standingO (execHoldReached s) = some (standing s) := by simp [execHoldReached]
@[simp] theorem execHoldWake_standing (a0) (a1) (s : State) : standingO (execHoldWake a0 a1 s) = some (standing s) := by
  unfold execHoldWake
  try dsimp only
  repeat' (first | (simp; done) | intro _ | split | with_reducible apply evChange_standing | with_reducible apply event_standing | with_reducible apply Eq.trans (standing_forAll _ _ _ _) | with_reducible apply Eq.trans (standing_when _ _ _ _) | with_reducible apply need_standing | with_reducible apply needState_standing | with_reducible apply needClaim_standing | with_reducible apply issue_standing | with_reducible apply call_standing | with_reducible apply callSel_standing)
  done
@[simp] theorem wakeRestore_standing (a0) (a1) (a2) (a3) (s : State) : standing (wakeRestore a0 a1 a2 a3 s) = standing s := by simp [wakeRestore]
@[simp] theorem execHoldWakeRestore_standing (a0) (a1) (a2) (s : State) : standingO (execHoldWakeRestore a0 a1 a2 s) = some (standing s) := by
  unfold execHoldWakeRestore
  try dsimp only
  repeat' (first | (simp; done) | intro _ | split | with_reducible apply evChange_standing | with_reducible apply event_standing | with_reducible apply Eq.trans (standing_forAll _ _ _ _) | with_reducible apply Eq.trans (standing_when _ _ _ _) | with_reducible apply need_standing | with_reducible apply needState_standing | with_reducible apply needClaim_standing | with_reducible apply issue_standing | with_reducible apply call_standing | with_reducible apply callSel_standing)
  done
@[simp] theorem wakeEasy_standing (a0) (s : State) : standing (wakeEasy a0 s) = standing s := by simp [wakeEasy]
@[simp] theorem execHoldWakeEasy_standing (s : State) : standingO (execHoldWakeEasy s) = some (standing s) := by
  unfold execHoldWakeEasy
  try dsimp only
  repeat' (first | (simp; done) | intro _ | split | with_reducible apply evChange_standing | with_reducible apply event_standing | with_reducible apply Eq.trans (standing_forAll _ _ _ _) | with_reducible apply Eq.trans (standing_when _ _ _ _) | with_reducible apply need_standing | with_reducible apply needState_standing | with_reducible apply needClaim_standing | with_reducible apply issue_standing | with_reducible apply call_standing | with_reducible apply callSel_standing)
  done
@[simp] theorem changeStep_standing (a0) (s : State) : standing (changeStep a0 s) = standing s := by simp [changeStep]
@[simp] theorem execPowerStateChangeDone_standing (s : State) : standingO (execPowerStateChangeDone s) = some (standing s) := by
  unfold execPowerStateChangeDone
  try dsimp only
  repeat' (first | (simp; done) | intro _ | split | with_reducible apply evChange_standing | with_reducible apply event_standing | with_reducible apply Eq.trans (standing_forAll _ _ _ _) | with_reducible apply Eq.trans (standing_when _ _ _ _) | with_reducible apply need_standing | with_reducible apply needState_standing | with_reducible apply needClaim_standing | with_reducible apply issue_standing | with_reducible apply call_standing | with_reducible apply callSel_standing)
  done
@[simp] theorem execClusterEngineIdleGate_standing (a0) (s : State) : standingO (execClusterEngineIdleGate a0 s) = some (standing s) := by simp [execClusterEngineIdleGate]
@[simp] theorem execPwStatus_standing (a0) (s : State) : standingO (execPwStatus a0 s) = some (standing s) := by simp [execPwStatus]
@[simp] theorem execPwStateSet_standing (a0) (s : State) : standingO (execPwStateSet a0 s) = some (standing s) := by simp [execPwStateSet]
@[simp] theorem execPwBudgetConfig_standing (a0) (s : State) : standingO (execPwBudgetConfig a0 s) = some (standing s) := by simp [execPwBudgetConfig]
@[simp] theorem execPwThermalConfig_standing (a0) (s : State) : standingO (execPwThermalConfig a0 s) = some (standing s) := by simp [execPwThermalConfig]
@[simp] theorem execPwThermalRead_standing (a0) (s : State) : standingO (execPwThermalRead a0 s) = some (standing s) := by simp [execPwThermalRead]
@[simp] theorem execPwWakeSet_standing (a0) (s : State) : standingO (execPwWakeSet a0 s) = some (standing s) := by
  unfold execPwWakeSet; apply call_standing; intro p s; apply need_standing; intro s; simp
@[simp] theorem execPwWakeClear_standing (a0) (s : State) : standingO (execPwWakeClear a0 s) = some (standing s) := by
  unfold execPwWakeClear; apply call_standing; intro p s; apply need_standing; intro s; simp
@[simp] theorem execPwAutoConfig_standing (a0) (s : State) : standingO (execPwAutoConfig a0 s) = some (standing s) := by
  unfold execPwAutoConfig; apply call_standing; intro p s; apply need_standing; intro s; simp
@[simp] theorem execPwDomainRead_standing (a0) (s : State) : standingO (execPwDomainRead a0 s) = some (standing s) := by simp [execPwDomainRead]
@[simp] theorem execPwStats_standing (a0) (s : State) : standingO (execPwStats a0 s) = some (standing s) := by
  unfold execPwStats
  try dsimp only
  repeat' (first | (simp; done) | intro _ | split | with_reducible apply evChange_standing | with_reducible apply event_standing | with_reducible apply Eq.trans (standing_forAll _ _ _ _) | with_reducible apply Eq.trans (standing_when _ _ _ _) | with_reducible apply need_standing | with_reducible apply needState_standing | with_reducible apply needClaim_standing | with_reducible apply issue_standing | with_reducible apply call_standing | with_reducible apply callSel_standing)
  done

/-! SafetyPartition -/

@[simp] theorem execSfLogicCycle_standing (a0) (s : State) : standingO (execSfLogicCycle a0 s) = some (standing s) := by simp [execSfLogicCycle]
@[simp] theorem latchDisc_standing (a0) (s : State) : standing (latchDisc a0 s) = standing s := by simp [latchDisc]
@[simp] theorem ilkChange_standing (a0) (a1) (a2) (s : State) : standing (ilkChange a0 a1 a2 s) = standing s := by simp [ilkChange]
@[simp] theorem execIlkChannelChange_standing (a0) (a1) (a2) (s : State) : standingO (execIlkChannelChange a0 a1 a2 s) = some (standing s) := by simp [execIlkChannelChange]
@[simp] theorem execIlkDiscrepancyTimeout_standing (a0) (s : State) : standingO (execIlkDiscrepancyTimeout a0 s) = some (standing s) := by simp [execIlkDiscrepancyTimeout]
@[simp] theorem execSealReread_standing (a0) (s : State) : standingO (execSealReread a0 s) = some (standing s) := by
  unfold execSealReread
  try dsimp only
  repeat' (first | (simp; done) | intro _ | split | with_reducible apply evChange_standing | with_reducible apply event_standing | with_reducible apply Eq.trans (standing_forAll _ _ _ _) | with_reducible apply Eq.trans (standing_when _ _ _ _) | with_reducible apply need_standing | with_reducible apply needState_standing | with_reducible apply needClaim_standing)
  done
@[simp] theorem reachDark_standing (a0) (s : State) : standing (reachDark a0 s) = standing s := by simp [reachDark]
@[simp] theorem connLost_standing (s : State) : standing (connLost s) = standing s := by simp [connLost]
@[simp] theorem execSfCommandRx_standing (a0) (s : State) : standingO (execSfCommandRx a0 s) = some (standing s) := by simp [execSfCommandRx]
@[simp] theorem execSfConnExpiry_standing (s : State) : standingO (execSfConnExpiry s) = some (standing s) := by simp [execSfConnExpiry]
@[simp] theorem execSfHvmonPoll_standing (s : State) : standingO (execSfHvmonPoll s) = some (standing s) := by simp [execSfHvmonPoll]
@[simp] theorem execSfStatus_standing (a0) (s : State) : standingO (execSfStatus a0 s) = some (standing s) := by simp [execSfStatus]
@[simp] theorem sfDenied_standing (s : State) : standingR (sfDenied s) = standing s := by simp [sfDenied]
@[simp] theorem execSfHvRequest_standing (a0) (s : State) : standingO (execSfHvRequest a0 s) = some (standing s) := by
  unfold execSfHvRequest; apply call_standing; intro p s; apply need_standing; intro s; simp
@[simp] theorem execSfReset_standing (a0) (s : State) : standingO (execSfReset a0 s) = some (standing s) := by simp [execSfReset]
@[simp] theorem execSfShutterRequest_standing (a0) (s : State) : standingO (execSfShutterRequest a0 s) = some (standing s) := by
  unfold execSfShutterRequest; apply call_standing; intro p s; apply need_standing; intro s; simp
@[simp] theorem execSfDarkTest_standing (a0) (s : State) : standingO (execSfDarkTest a0 s) = some (standing s) := by simp [execSfDarkTest]
@[simp] theorem execSfTripLog_standing (a0) (s : State) : standingO (execSfTripLog a0 s) = some (standing s) := by simp [execSfTripLog]
@[simp] theorem execSfStats_standing (a0) (s : State) : standingO (execSfStats a0 s) = some (standing s) := by
  unfold execSfStats
  try dsimp only
  repeat' (first | (simp; done) | intro _ | split | with_reducible apply evChange_standing | with_reducible apply event_standing | with_reducible apply Eq.trans (standing_forAll _ _ _ _) | with_reducible apply Eq.trans (standing_when _ _ _ _) | with_reducible apply need_standing | with_reducible apply needState_standing | with_reducible apply needClaim_standing | with_reducible apply issue_standing | with_reducible apply call_standing | with_reducible apply callSel_standing)
  done

/-! Sequencer -/

@[simp] theorem enable_standing (a0) (s : State) : standing (enable a0 s) = standing s := by simp [enable]
@[simp] theorem execPwrGoodRise_standing (s : State) : standingO (execPwrGoodRise s) = some (standing s) := by
  unfold execPwrGoodRise
  try dsimp only
  repeat' (first | (simp; done) | intro _ | split | with_reducible apply evChange_standing | with_reducible apply event_standing | with_reducible apply Eq.trans (standing_forAll _ _ _ _) | with_reducible apply Eq.trans (standing_when _ _ _ _) | with_reducible apply need_standing | with_reducible apply needState_standing | with_reducible apply needClaim_standing)
  done
@[simp] theorem execSeqEnableTimeout_standing (s : State) : standingO (execSeqEnableTimeout s) = some (standing s) := by simp [execSeqEnableTimeout]
@[simp] theorem execSeqRetryTimer_standing (s : State) : standingO (execSeqRetryTimer s) = some (standing s) := by simp [execSeqRetryTimer]
@[simp] theorem goodLost_standing (a0) (s : State) : standing (goodLost a0 s) = standing s := by simp [goodLost]
@[simp] theorem railsLost_standing (s : State) : standing (railsLost s) = standing s := by simp [railsLost]
@[simp] theorem goodLostInHold_standing (s : State) : standing (goodLostInHold s) = standing s := by
  unfold goodLostInHold; (repeat' split) <;> simp
@[simp] theorem execPwrGoodFall_standing (a0) (a1) (s : State) : standingO (execPwrGoodFall a0 a1 s) = some (standing s) := by simp [execPwrGoodFall]
@[simp] theorem execPwrGoodRetryTimer_standing (s : State) : standingO (execPwrGoodRetryTimer s) = some (standing s) := by simp [execPwrGoodRetryTimer]
@[simp] theorem execWakePwrGoodTimeout_standing (a0) (s : State) : standingO (execWakePwrGoodTimeout a0 s) = some (standing s) := by simp [execWakePwrGoodTimeout]
@[simp] theorem pinReset_standing (s : State) : standing (pinReset s) = standing s := by
  unfold pinReset; (repeat' split) <;> simp
@[simp] theorem execRstNPulse_standing (a0) (s : State) : standingO (execRstNPulse a0 s) = some (standing s) := by simp [execRstNPulse]

/-! SlowControl -/

@[simp] theorem execScPassStart_standing (s : State) : standingO (execScPassStart s) = some (standing s) := by simp [execScPassStart]
@[simp] theorem injectDone_standing (a0) (s : State) : standing (injectDone a0 s) = standing s := by
  unfold injectDone; (repeat' split) <;> simp
@[simp] theorem execScConversionDone_standing (a0) (s : State) : standingO (execScConversionDone a0 s) = some (standing s) := by
  unfold execScConversionDone; (repeat' split) <;> simp
@[simp] theorem execScSafetyInjectRequest_standing (s : State) : standingO (execScSafetyInjectRequest s) = some (standing s) := by simp [execScSafetyInjectRequest]
@[simp] theorem execScInjectedConversionStart_standing (s : State) : standingO (execScInjectedConversionStart s) = some (standing s) := by simp [execScInjectedConversionStart]
@[simp] theorem takeCoef_standing (a0) (a1) (a2) (s : State) : standing (takeCoef a0 a1 a2 s) = standing s := by simp [takeCoef]
@[simp] theorem takeExc_standing (a0) (a1) (s : State) : standing (takeExc a0 a1 s) = standing s := by simp [takeExc]
@[simp] theorem calDone_standing (a0) (a1) (a2) (s : State) : standing (calDone a0 a1 a2 s) = standing s := by
  unfold calDone; (repeat' split) <;> simp
@[simp] theorem execScCalStepDone_standing (a0) (a1) (a2) (a3) (s : State) : standingO (execScCalStepDone a0 a1 a2 a3 s) = some (standing s) := by
  unfold execScCalStepDone
  try dsimp only
  repeat' (first | (simp; done) | intro _ | split | with_reducible apply evChange_standing | with_reducible apply event_standing | with_reducible apply Eq.trans (standing_forAll _ _ _ _) | with_reducible apply Eq.trans (standing_when _ _ _ _) | with_reducible apply need_standing | with_reducible apply needState_standing | with_reducible apply needClaim_standing | with_reducible apply issue_standing | with_reducible apply call_standing | with_reducible apply callSel_standing)
  done
@[simp] theorem execScAutoCalDue_standing (s : State) : standingO (execScAutoCalDue s) = some (standing s) := by simp [execScAutoCalDue]
@[simp] theorem execScPinBreak_standing (a0) (a1) (a2) (s : State) : standingO (execScPinBreak a0 a1 a2 s) = some (standing s) := by simp [execScPinBreak]
@[simp] theorem execScExcMonitorDone_standing (a0) (s : State) : standingO (execScExcMonitorDone a0 s) = some (standing s) := by
  unfold execScExcMonitorDone
  try dsimp only
  repeat' (first | (simp; done) | intro _ | split | with_reducible apply evChange_standing | with_reducible apply event_standing | with_reducible apply Eq.trans (standing_forAll _ _ _ _) | with_reducible apply Eq.trans (standing_when _ _ _ _) | with_reducible apply need_standing | with_reducible apply needState_standing | with_reducible apply needClaim_standing | with_reducible apply issue_standing | with_reducible apply call_standing | with_reducible apply callSel_standing)
  done
@[simp] theorem execScStatus_standing (a0) (s : State) : standingO (execScStatus a0 s) = some (standing s) := by simp [execScStatus]
@[simp] theorem execScChannelConfig_standing (a0) (s : State) : standingO (execScChannelConfig a0 s) = some (standing s) := by simp [execScChannelConfig]
@[simp] theorem execScChannelRead_standing (a0) (s : State) : standingO (execScChannelRead a0 s) = some (standing s) := by simp [execScChannelRead]
@[simp] theorem execScSequenceSet_standing (a0) (s : State) : standingO (execScSequenceSet a0 s) = some (standing s) := by simp [execScSequenceSet]
@[simp] theorem execScResultRead_standing (a0) (s : State) : standingO (execScResultRead a0 s) = some (standing s) := by simp [execScResultRead]
@[simp] theorem execScInject_standing (a0) (s : State) : standingO (execScInject a0 s) = some (standing s) := by
  unfold execScInject; apply call_standing; intro p s; apply need_standing; intro s; simp
@[simp] theorem execScInjectRead_standing (a0) (s : State) : standingO (execScInjectRead a0 s) = some (standing s) := by simp [execScInjectRead]
@[simp] theorem acceptCal_standing (a0) (a1) (s : State) : standing (acceptCal a0 a1 s) = standing s := by simp [acceptCal]
@[simp] theorem execScCalibrate_standing (mb) (s : State) : standingO (execScCalibrate mb s) = some (standing s) := by
  unfold execScCalibrate
  apply call_standing; intro p s; apply need_standing; intro s; dsimp only
  split
  · simp
  · have h := deferJob_standing 0x0C07 (p.take 1) (now s + BitVec.ofNat 64 (injectedTicks s)) s
    revert h
    cases deferJob 0x0C07 (p.take 1) (now s + BitVec.ofNat 64 (injectedTicks s)) s with
    | done c b t => intro h; have h : standing t = standing s := h; dsimp only; split <;> simpa using h
    | later t => intro h; exact h
@[simp] theorem execScDiagRun_standing (a0) (s : State) : standingO (execScDiagRun a0 s) = some (standing s) := by
  unfold execScDiagRun; apply call_standing; intro p s; apply need_standing; intro s; simp
@[simp] theorem execScChannelStatus_standing (a0) (s : State) : standingO (execScChannelStatus a0 s) = some (standing s) := by simp [execScChannelStatus]
@[simp] theorem execScStats_standing (a0) (s : State) : standingO (execScStats a0 s) = some (standing s) := by simp [execScStats]

/-! Idle -/

@[simp] theorem mapDue_standing (s : State) : standing (mapDue s) = standing s := by simp [mapDue]
@[simp] theorem mergeDue_standing (s : State) : standing (mergeDue s) = standing s := by simp [mergeDue]
@[simp] theorem idleTick_standing (s : State) : standing (idleTick s) = standing s := by simp [idleTick]

end Sys2Proof.Machine
end

