-- ==== Sys2Proof/Laws/StandingExceptions.lean ====
section
/-! SUPPORT. The operations and commands that change the standing part, and how: the fuse calls, the power-on reset, the start of
PD_0, the reading of the seals, and the governor's steps. -/
namespace Sys2Proof.Machine

/-- A call row changes nothing, or leaves what its act leaves. -/
theorem call_standing_cases (P : Standing → Prop) (n code : Nat) (a : Allowed) (len : Nat) (act : List Byte → State → Reply)
    (s : State) (h0 : P (standing s)) (h : ∀ p, P (standingR (act p s))) :
    ∃ x, standingO (call n code a len act s) = some x ∧ P x := by
  unfold call callSel event
  split
  · refine ⟨_, rfl, ?_⟩
    rw [settle_standing]
    unfold checkCall
    dsimp only
    (repeat' split) <;> first | exact h0 | exact h _
  · exact ⟨_, rfl, h0⟩

/-- What `need` leaves. -/
theorem need_standing_cases (P : Standing → Prop) (c : Bool) (k : State → Reply) (s : State) (h0 : P (standing s))
    (h : c = true → P (standingR (k s))) : P (standingR (need c k s)) := by
  unfold need; split
  · exact h ‹_›
  · exact h0

/-- What `needState` leaves. -/
theorem needState_standing_cases (P : Standing → Prop) (c : Bool) (k : State → Reply) (s : State) (h0 : P (standing s))
    (h : c = true → P (standingR (k s))) : P (standingR (needState c k s)) := by
  unfold needState; split
  · exact h ‹_›
  · exact h0

/-- RB_COUNT may have risen, and nothing else has changed. -/
def RbRaised (a x : Standing) : Prop := ∃ n, a.rbCount ≤ n ∧ x = { a with rbCount := n }

/-- LC is as it was or in the next state, and nothing else has changed. -/
def LcMoved (a x : Standing) : Prop :=
  ∃ v, (v = a.lc ∨ nextLc a.lc.toNat = some v.toNat) ∧ a.lc &&& v = a.lc ∧ x = { a with lc := v }

/-- Bits of KEY_REVOKED may have been set, and nothing else has changed. -/
def KeysRevoked (a x : Standing) : Prop := ∃ v, a.keyRevoked &&& v = a.keyRevoked ∧ x = { a with keyRevoked := v }

/-- SYS_ROLLBACK_ADVANCE may raise RB_COUNT. -/
theorem execSysRollbackAdvance_standing (mb) (s : State) :
    ∃ x, standingO (execSysRollbackAdvance mb s) = some x ∧ RbRaised (standing s) x := by
  have h0 : RbRaised (standing s) (standing s) := ⟨_, Nat.le_refl _, rfl⟩
  refine call_standing_cases (RbRaised (standing s)) _ _ _ _ _ s h0 (fun p => ?_)
  refine needState_standing_cases (RbRaised (standing s)) _ _ s h0 (fun _ =>
    need_standing_cases (RbRaised (standing s)) _ _ s h0 (fun h => ?_))
  exact ⟨p8 p 0, (of_decide_eq_true h).1, rfl⟩

/-- The state after another sets bits only. -/
theorem nextLc_bits (v : BitVec 4) (n : Nat) (h : nextLc v.toNat = some n) : v &&& BitVec.ofNat 4 n = v := by
  unfold nextLc at h
  have hv : v = BitVec.ofNat 4 v.toNat := by simp
  revert h hv
  generalize v.toNat = k
  intro h hv
  subst hv
  split at h
  all_goals first | (cases h; decide) | cases h

/-- SYS_LIFECYCLE_ADVANCE leaves LC, or moves it to the next state. -/
theorem execSysLifecycleAdvance_standing (mb) (s : State) :
    ∃ x, standingO (execSysLifecycleAdvance mb s) = some x ∧ LcMoved (standing s) x := by
  have h0 : LcMoved (standing s) (standing s) := ⟨_, .inl rfl, BitVec.and_self, rfl⟩
  refine call_standing_cases (LcMoved (standing s)) _ _ _ _ _ s h0 (fun p => ?_)
  refine need_standing_cases (LcMoved (standing s)) _ _ s h0 (fun h =>
    needState_standing_cases (LcMoved (standing s)) _ _ s h0 (fun _ => ?_))
  have hn := (of_decide_eq_true h).2
  refine ⟨BitVec.ofNat 4 (p8 p 0), .inr ?_, nextLc_bits _ _ hn, rfl⟩
  have : p8 p 0 < 16 := by
    revert hn; unfold nextLc; split <;> intro hn <;> first | (cases hn; done) | (injection hn with hn; omega)
  show nextLc s.sys.lc.toNat = _
  rw [hn]
  simp [Nat.mod_eq_of_lt this]

/-- SYS_KEY_REVOKE may set a bit of KEY_REVOKED. -/
theorem execSysKeyRevoke_standing (mb) (s : State) :
    ∃ x, standingO (execSysKeyRevoke mb s) = some x ∧ KeysRevoked (standing s) x := by
  have h0 : KeysRevoked (standing s) (standing s) := ⟨_, BitVec.and_self, rfl⟩
  refine call_standing_cases (KeysRevoked (standing s)) _ _ _ _ _ s h0 (fun p => ?_)
  refine need_standing_cases (KeysRevoked (standing s)) _ _ s h0 (fun _ =>
    needState_standing_cases (KeysRevoked (standing s)) _ _ s h0 (fun _ => ?_))
  exact ⟨s.sys.keyRevoked ||| BitVec.ofNat 2 (2 ^ p8 p 0), by
    show s.sys.keyRevoked &&& _ = s.sys.keyRevoked; ext i; simp; intro a; simp [a], rfl⟩

/-- POR_N: everything falls to reset but the identity, the fuses and the queue. -/
theorem execPorAssert_standing (s : State) : standingO (execPorAssert s) = some { standing s with
    por := true, windowReady := false, bootSel := 0, tileId := 0, testMode := false, sealRaw := 0, sealsRead := false, started := false, soFault := 0,
    steps := 0 } := rfl

/-- The release of POR_N samples the straps. -/
theorem execPorRelease_standing (st) (s : State) : standingO (execPorRelease st s) = some (if s.sys.por then { standing s with
    por := false, bootSel := st.bootSel, tileId := st.tileId, testMode := st.testEn && honoursTest s } else standing s) := by
  unfold execPorRelease event
  cases h : s.sys.por
  · rfl
  · simp only [if_true, standingO_next]
    rw [enable_standing]
    rfl

/-- PD_0 runs: the window is ready. -/
theorem execPd0Running_standing (s : State) : standingO (execPd0Running s) = some { standing s with
    windowReady := s.sys.windowReady || (!s.sys.por && !s.sys.testMode && decide (s.sys.bootStep = 1)) } := by
  unfold execPd0Running event
  cases h : (!s.sys.por && !s.sys.testMode && decide (s.sys.bootStep = 1))
  · simp only [Bool.or_false]; rfl
  · simp only [Bool.or_true]; rfl

/-- The partition has started, and may have read the seals. -/
def SafetyStarted (v : BitVec 12) (a x : Standing) : Prop :=
  x = { a with started := true } ∨ x = { a with started := true, sealRaw := v, sealsRead := true }

/-- The partition starts once. -/
theorem execSfRomStart_standing (r v) (s : State) : standingO (execSfRomStart r v s) = some (standing s) ∨
    (s.sf.started = false ∧ ∃ x, standingO (execSfRomStart r v s) = some x ∧ SafetyStarted v (standing s) x) := by
  unfold execSfRomStart event
  split
  · next h =>
    have hs : s.sf.started = false := by simp at h; exact h.2
    right
    refine ⟨hs, _, rfl, ?_⟩
    have hb : standing (bootClaims (onSys (fun x => { x with bootStep := max 3 x.bootStep }) (reachUp (s.sf.porAt + ms 5) s))) =
        standing s := by simp
    have up1 (b : State) (hb : standing b = standing s) : standing (onSf (fun x => { x with started := true }) b) = { standing s with started := true } := by
      rw [← hb]; rfl
    have up2 (n : Nat) (b : State) (hb : standing b = standing s) : standing (onSf (fun x => { x with sealRaw := v, sealsRead := true, sealAt := n })
        (onSf (fun x => { x with started := true }) b)) = { standing s with started := true, sealRaw := v, sealsRead := true } := by
      rw [← hb]; rfl
    dsimp only
    cases r
    · left
      rw [if_pos (by rfl), lockout_standing]; exact up1 _ hb
    · right
      rw [if_neg (by decide)]
      split
      · exact up2 _ _ hb
      · rw [lockout_standing]; exact up2 _ _ hb
  · left; rfl

/-- Output faults may have been latched, and nothing else has changed. -/
def FaultsLatched (a x : Standing) : Prop := ∃ v, a.soFault &&& v = a.soFault ∧ x = { a with soFault := v }

/-- Latches in a row. -/
theorem FaultsLatched.trans {a b c : Standing} (h : FaultsLatched a b) (k : FaultsLatched b c) : FaultsLatched a c := by
  obtain ⟨g, hg, rfl⟩ := h
  obtain ⟨v, hv, rfl⟩ := k
  have hv : g &&& v = g := hv
  refine ⟨v, ?_, rfl⟩
  rw [← hg, BitVec.and_assoc, hv]

/-- Nothing has been latched. -/
theorem FaultsLatched.of_eq {a b : Standing} (h : b = a) : FaultsLatched a b := by
  subst h; exact ⟨_, BitVec.and_self, rfl⟩

/-- Effects in order that latch output faults alone. -/
theorem forAll_faults {α : Type} (xs : List α) (f : α → State → State) (h : ∀ x s, FaultsLatched (standing s) (standing (f x s)))
    (s : State) : FaultsLatched (standing s) (standing (forAll xs f s)) := by
  unfold forAll
  induction xs generalizing s with
  | nil => exact .of_eq rfl
  | cons x xs ih => exact (h x s).trans (ih (f x s))

/-- An output fault is latched. -/
theorem outputFault_standing (n ev) (s : State) : FaultsLatched (standing s) (standing (outputFault n ev s)) := by
  unfold outputFault
  split
  · exact .of_eq rfl
  · rw [sfEval_standing, raise_standing]
    exact ⟨s.sf.soFault ||| BitVec.ofNat 2 (2 ^ n), by
      show s.sf.soFault &&& _ = s.sf.soFault; ext i; simp; intro a; simp [a], rfl⟩

/-- A readback latches output faults alone. -/
theorem readback_standing (r) (s : State) : FaultsLatched (standing s) (standing (readback r s)) := by
  unfold readback
  dsimp only
  (repeat' split) <;> first | exact .of_eq rfl | (refine .of_eq ?_; simp; done) |
    (refine .trans (.of_eq ?_) (outputFault_standing _ _ _); simp)

/-- SF_SELF_TEST_DONE latches output faults alone. -/
theorem execSfSelfTestDone_standing (f) (s : State) :
    ∃ x, standingO (execSfSelfTestDone f s) = some x ∧ FaultsLatched (standing s) x := by
  unfold execSfSelfTestDone event
  split
  · refine ⟨_, rfl, .trans (.of_eq ?_) (forAll_faults _ _ (fun n s => outputFault_standing n 579 s) _)⟩
    simp
  · exact ⟨_, rfl, .of_eq rfl⟩

/-- SO_READBACK latches output faults alone. -/
theorem execSoReadback_standing (r) (s : State) :
    ∃ x, standingO (execSoReadback r s) = some x ∧ FaultsLatched (standing s) x := by
  unfold execSoReadback event
  split
  · exact ⟨_, rfl, .trans (.of_eq (by simp)) (forAll_faults _ _ readback_standing _)⟩
  · exact ⟨_, rfl, .of_eq rfl⟩

/-- SO_DARK_TEST latches output faults alone. -/
theorem execSoDarkTest_standing (n p) (s : State) :
    ∃ x, standingO (execSoDarkTest n p s) = some x ∧ FaultsLatched (standing s) x := by
  unfold execSoDarkTest event
  split
  · refine ⟨_, rfl, ?_⟩
    dsimp only
    rw [settleDark_standing]
    split
    · exact .of_eq (by simp)
    · refine .trans (.of_eq ?_) (outputFault_standing _ _ _)
      simp
  · exact ⟨_, rfl, .of_eq rfl⟩

/-- A step engages, and nothing else of the standing part changes. -/
theorem engageStep_standing (k) (s : State) : standing (engageStep k s) = { standing s with
    steps := s.pw.steps ||| (if k = 1 then 1 else if k = 2 then 2 else 4) } := by
  have hp (k) (t : State) : standing (pwStat (4 + k) 1 (raise (33 + k) [] t)) = standing t := by simp
  have hs (k) (t : State) : (pwStat (4 + k) 1 (raise (33 + k) [] t)).pw.steps = t.pw.steps := congrArg Standing.steps (hp k t)
  have up (g : PwState → PwState) (v : BitVec 3 → BitVec 3) (t : State) (h : ∀ x, (g x).steps = v x.steps) :
      standing (onPw g t) = { standing t with steps := v t.pw.steps } := by
    show standingOf _ _ (g t.pw).steps _ = _; rw [h]; rfl
  unfold engageStep
  dsimp only
  split
  · simp only [standing_forAll, deferCore_standing, cxDefer_standing, implies_true]
    rw [up _ (· ||| 1) _ (fun _ => rfl), hp, hs]; simp
  · rw [up _ (· ||| 2) _ (fun _ => rfl), hp, hs]; simp
  · next h1 h2 =>
    rw [standing_forAll]
    · rw [up _ (· ||| 4) _ (fun _ => rfl)]
      have := congrArg Standing.steps (pwAccount_standing (pwStat (4 + k) 1 (raise (33 + k) [] s)))
      have hq : (pwAccount (pwStat (4 + k) 1 (raise (33 + k) [] s))).pw.steps = s.pw.steps := this.trans (hs k s)
      rw [hq, pwAccount_standing, hp, if_neg (fun h => h1 h), if_neg (fun h => h2 h)]
    · intro x t; split <;> simp

/-- A step releases, and nothing else of the standing part changes. -/
theorem releaseStep_standing (k) (s : State) : standing (releaseStep k s) = { standing s with
    steps := s.pw.steps &&& (if k = 1 then 6 else if k = 2 then 5 else 3) } := by
  have up (g : PwState → PwState) (v : BitVec 3 → BitVec 3) (t : State) (h : ∀ x, (g x).steps = v x.steps) :
      standing (onPw g t) = { standing t with steps := v t.pw.steps } := by
    show standingOf _ _ (g t.pw).steps _ = _; rw [h]; rfl
  unfold releaseStep
  dsimp only
  split
  · simp only [raise_standing, standing_forAll, resumeCore_standing, cxResume_standing, implies_true]
    rw [up _ (· &&& 6) _ (fun _ => rfl)]; simp
  · rw [up _ (· &&& 5) _ (fun _ => rfl)]; simp
  · next h1 h2 =>
    rw [standing_forAll]
    · rw [up _ (· &&& 3) _ (fun _ => rfl)]
      have hq : (pwAccount s).pw.steps = s.pw.steps := congrArg Standing.steps (pwAccount_standing s)
      rw [hq, pwAccount_standing, if_neg (fun h => h1 h), if_neg (fun h => h2 h)]
    · intro x t; simp

/-- Nothing but the steps has changed, and a cascade is one still. -/
def StepsMoved (a x : Standing) : Prop :=
  ∃ g, x = { a with steps := g } ∧ (cascade a.steps = true → cascade g = true)

/-- Moves of the steps in a row. -/
theorem StepsMoved.trans {a b c : Standing} (h : StepsMoved a b) (k : StepsMoved b c) : StepsMoved a c := by
  obtain ⟨g, rfl, hg⟩ := h
  obtain ⟨v, rfl, hv⟩ := k
  exact ⟨v, rfl, fun h => hv (hg h)⟩

/-- Nothing has moved. -/
theorem StepsMoved.of_eq {a b : Standing} (h : b = a) : StepsMoved a b := by
  subst h; exact ⟨_, rfl, id⟩

/-- A step engages above engaged ones. -/
theorem tryEngage_standing (k) (hk : k = 1 ∨ k = 2 ∨ k = 3) (s : State) : StepsMoved (standing s) (standing (tryEngage k s)) := by
  unfold tryEngage
  split
  · next h =>
    rw [engageStep_standing]
    refine ⟨_, rfl, fun hc => ?_⟩
    simp only [Bool.and_eq_true, Bool.or_eq_true, decide_eq_true_eq, stepOn] at h
    have hl := h.1.2
    have hc : cascade s.pw.steps = true := hc
    revert hl hc
    generalize s.pw.steps = g
    obtain rfl | rfl | rfl := hk <;> revert g <;> decide
  · exact .of_eq rfl

/-- A step releases below released ones. -/
theorem tryRelease_standing (k) (hk : k = 1 ∨ k = 2 ∨ k = 3) (s : State) : StepsMoved (standing s) (standing (tryRelease k s)) := by
  unfold tryRelease
  split
  · next h =>
    rw [releaseStep_standing]
    refine ⟨_, rfl, fun hc => ?_⟩
    simp only [Bool.and_eq_true, Bool.or_eq_true, decide_eq_true_eq, stepOn] at h
    have hl := h.1.1
    have hc : cascade s.pw.steps = true := hc
    revert hl hc
    generalize s.pw.steps = g
    obtain rfl | rfl | rfl := hk <;> revert g <;> decide
  · exact .of_eq rfl

/-- The governor moves the steps alone. -/
theorem governor_standing (s : State) : StepsMoved (standing s) (standing (governor s)) := by
  unfold governor
  rw [tryUnreachable_standing]
  exact ((((((tryRelease_standing 3 (by simp) s).trans (tryRelease_standing 2 (by simp) _)).trans
    (tryRelease_standing 1 (by simp) _)).trans (tryEngage_standing 1 (by simp) _)).trans
    (tryEngage_standing 2 (by simp) _)).trans (tryEngage_standing 3 (by simp) _))

/-- Throttling moves the steps alone. -/
theorem throttle_standing (s : State) : StepsMoved (standing s) (standing (throttle s)) := by
  unfold throttle
  dsimp only
  split
  · split
    · refine .trans (.of_eq ?_) (tryEngage_standing 1 (by simp) _)
      simp
    · exact .of_eq rfl
  · split
    · exact .of_eq (by simp)
    · split
      · exact .of_eq (by simp)
      · split
        · exact .of_eq (by simp)
        · exact .of_eq rfl

/-- GOVERNOR_EVAL moves the steps alone. -/
theorem execGovernorEval_standing (p) (s : State) :
    ∃ x, standingO (execGovernorEval p s) = some x ∧ StepsMoved (standing s) x := by
  unfold execGovernorEval event
  split
  · refine ⟨_, rfl, .trans (.of_eq ?_) (governor_standing _)⟩
    simp
  · exact ⟨_, rfl, .of_eq rfl⟩

/-- THROTTLE_STEP_TIMER moves the steps alone. -/
theorem execThrottleStepTimer_standing (s : State) :
    ∃ x, standingO (execThrottleStepTimer s) = some x ∧ StepsMoved (standing s) x := by
  unfold execThrottleStepTimer event
  split
  · refine ⟨_, rfl, .trans (.trans (.of_eq ?_) (tryEngage_standing 2 (by simp) _)) (tryEngage_standing 3 (by simp) _)⟩
    simp
  · exact ⟨_, rfl, .of_eq rfl⟩

/-- THERMAL_SCAN moves the steps alone. -/
theorem execThermalScan_standing (v) (s : State) :
    ∃ x, standingO (execThermalScan v s) = some x ∧ StepsMoved (standing s) x := by
  unfold execThermalScan event
  split
  · refine ⟨_, rfl, .trans (.trans (.of_eq ?_) (throttle_standing (warn (takeReadings v (scanNow s))))) (.of_eq ?_)⟩
    · simp
    · dsimp only; split <;> simp
  · exact ⟨_, rfl, .of_eq rfl⟩

end Sys2Proof.Machine
end

