-- ==== Sys2Proof/Laws/Waveform.lean ====
section
/-! SUPPORT. The issue of an instruction of a core: what an instruction that may issue leads to. -/
namespace Sys2Proof.Machine

/-- An instruction that issues and does not stall does what it does. -/
theorem issue_issued (n opc : Nat) (legal : WeCore → WeIns → Bool) (act : WeIns → State → WeAct) (s : State)
    (h : issues n opc s = true) (hl : legal (coreAt s n) (fetched (coreAt s n)) = true)
    (hn : ∀ k t, act (fetched (coreAt s n)) (launched n s) ≠ .stall k t) :
    issue n opc legal act s = .next (issued n act s) := by
  simp only [issues, Bool.and_eq_true, decide_eq_true_eq, Bool.not_eq_true'] at h
  obtain ⟨⟨⟨⟨⟨⟨⟨hr, hst, ho⟩, hb⟩, hp⟩, hq⟩, hlist⟩, hf⟩, hm⟩ := h
  unfold issue event
  rw [if_pos (by simp [hr, hst, hb])]
  refine congrArg Host.Outcome.next ?_
  unfold issueNow issued
  change ∀ k t, act _ ((movesOf _).foldl (launchMove n) (weStat n 0 1 s)) ≠ .stall k t at hn
  dsimp only [fetched, launched] at *
  rw [if_neg (by rw [hp]; decide), if_neg (fun c => c.2 ho), if_neg (by rw [hq]; decide),
    if_neg (by rw [ho, hlist, hf, hl]; decide), if_neg (by rw [hm]; decide)]
  revert hn
  cases act (weDecode (tget 0 (coreAt s n).p (coreAt s n).index))
    ((movesOf (weDecode (tget 0 (coreAt s n).p (coreAt s n).index))).foldl (launchMove n) (weStat n 0 1 s)) with
  | stall k t => exact fun hn => absurd rfl (hn k t)
  | go a b t => exact fun _ => rfl
  | jump a t => exact fun _ => rfl
  | fault c t => exact fun _ => rfl
  | done a f t => exact fun _ => rfl

end Sys2Proof.Machine
end

