-- ==== Sys2Proof/WellFormed.lean ====
section
/-! DEFINITION. Which commands are well formed: their operands lie in the ranges the spec gives the numbered things
they name (pixel addresses R94, blocks R95, super-pixels R95, patches R249, sources R653, emitters R569, channels
R540, lines R369, streams R442). -/
namespace Sys2Proof

/-- The operands of a command lie in their ranges. -/
def WellFormed : Instr → Bool
  | .sbRead _ _ => true
  | .sbWrite _ _ => true
  | .sbStatus => true
  | .sbUnknownCommand _ => true
  | .windowWrite _ _ => true
  | .eventStickyClear k _ => decide (k < 20)
  | .ctrlRead _ => true
  | .ctrlWrite _ => true
  | .unknownCall _ => true
  | .jobComplete _ _ => true
  | .jobDeferredStart _ => true
  | .sysNop _ => true
  | .sysIdent _ => true
  | .sysResetWarm _ => true
  | .sysResetCox _ => true
  | .sysResetBoth _ => true
  | .sysLeadSet _ => true
  | .sysBootReport _ => true
  | .sysFlashInfo _ => true
  | .sysSettingRead _ => true
  | .sysSettingsSave _ => true
  | .sysImageCommit _ => true
  | .sysJobStatus _ => true
  | .sysImageBegin _ => true
  | .sysImageData _ => true
  | .sysImageVerify _ => true
  | .sysRollbackAdvance _ => true
  | .sysLifecycleAdvance _ => true
  | .sysKeyRevoke _ => true
  | .porAssert => true
  | .porRelease _ => true
  | .pwrGoodRise => true
  | .seqEnableTimeout => true
  | .seqRetryTimer => true
  | .pwrGoodFall _ _ => true
  | .pwrGoodRetryTimer => true
  | .rstNPulse _ => true
  | .pd0Running => true
  | .sfRomStart _ _ => true
  | .sfSelfTestDone _ => true
  | .coxBootRomStart => true
  | .coxRomReady _ => true
  | .bootRomReadyTimeout => true
  | .flashNegotiation _ _ => true
  | .bootImageCheck _ _ _ => true
  | .settingsApply => true
  | .memTrainingDone _ => true
  | .timeCoreStart => true
  | .bootLinkWaitExpiry => true
  | .bootEnterEasy => true
  | .coxRestartTimeout _ => true
  | .coxMemScrub _ _ _ => true
  | .discriminatorRise pix _ _ => decide (pix < 1048576)
  | .ringCountSaturated pix => decide (pix < 1048576)
  | .rangeSwitch pix _ => decide (pix < 1048576)
  | .rangeBlankEnd pix => decide (pix < 1048576)
  | .discriminatorFall pix _ => decide (pix < 1048576)
  | .totSaturated pix => decide (pix < 1048576)
  | .pixelDeadTimeEnd pix => decide (pix < 1048576)
  | .blockClockReady block => decide (block < 256)
  | .blockClockIdleGate block => decide (block < 256)
  | .bridgeSaturated pix => decide (pix < 1048576)
  | .portRecordAgeOut block => decide (block < 256)
  | .portLossSend block _ => decide (block < 256)
  | .watermarkSend block => decide (block < 256)
  | .frameBoundary => true
  | .frameUnitAssemble block _ => decide (block < 256)
  | .feModeEffect => true
  | .crabWindowEnd => true
  | .crabRetest pix => decide (pix < 1048576)
  | .leakUpdate _ => true
  | .feScrub _ => true
  | .feTmrVote _ _ => true
  | .tpStep => true
  | .feModeSet _ => true
  | .feModeGet _ => true
  | .feDacSet _ => true
  | .feDacGet _ => true
  | .fePixelWrite _ => true
  | .fePixelRead _ => true
  | .feTrimRun _ => true
  | .feScurve _ => true
  | .feScanResult _ => true
  | .feBumpTest _ => true
  | .feBumpResult _ => true
  | .feTpInject _ => true
  | .feCrabConfig _ => true
  | .feCrabList _ => true
  | .feLeakConfig _ => true
  | .feFrameConfig _ => true
  | .feChargeCal _ => true
  | .feChargeRead _ => true
  | .feChargeWrite _ => true
  | .feScrubStatus _ => true
  | .feStatus _ => true
  | .blockCounterCheck block _ => decide (block < 256)
  | .hitFrameReceived block _ _ => decide (block < 256)
  | .watermarkReceived block => decide (block < 256)
  | .portLossReceived block => decide (block < 256)
  | .portFramingError block _ => decide (block < 256)
  | .inlUpdate block => decide (block < 256)
  | .tmTempUpdate => true
  | .calRunLatch sp _ => decide (sp < 65536)
  | .calBandAgeExpiry block _ => decide (block < 256)
  | .tmStatus _ => true
  | .tmCalStatus _ => true
  | .tmCalRun _ => true
  | .tmBandConfig _ => true
  | .tmPeriodRead _ => true
  | .tmPeriodWrite _ => true
  | .tmSkewRead _ => true
  | .tmSkewWrite _ => true
  | .tmWalkRead _ => true
  | .tmWalkWrite _ => true
  | .tmWalkCal _ => true
  | .tmSkewCal _ => true
  | .tmInlRead _ => true
  | .tmTempConfig _ => true
  | .tmDroopRead _ => true
  | .tmStats _ => true
  | .clusterClose _ first => decide (first < 1048576)
  | .reorderRelease _ => true
  | .blockOffRelease _ => true
  | .edgeFragRx _ _ => true
  | .mergeReplyRx _ _ _ => true
  | .mergeWaitExpiry _ _ => true
  | .mergeReplyTimeout _ _ => true
  | .hpStatus _ => true
  | .hpOutputSet _ => true
  | .hpClusterConfig _ => true
  | .hpLossConfig _ => true
  | .hpLossStatus _ => true
  | .hpGateConfig _ => true
  | .hpMergeConfig _ => true
  | .hpMergeStatus _ => true
  | .hpReorderConfig _ => true
  | .hpStats _ => true
  | .hpTpRead _ => true
  | .adcCalUpdate _ => true
  | .adcConvergeTimeout patch => decide (patch < 64)
  | .triggerFire _ _ => true
  | .holdoffEnd _ => true
  | .softFireTick => true
  | .triggerRecordWrite => true
  | .waveCaptureDone _ => true
  | .trConfigEffect => true
  | .trigInEdge _ => true
  | .domainArmRx _ _ => true
  | .domainDisarmRx _ _ => true
  | .domainFireRx _ _ => true
  | .domainBeatRx _ _ => true
  | .domainBeatSend => true
  | .domainBeatTimeout => true
  | .domainArmTick => true
  | .domainRearm => true
  | .domainDisarmEffect => true
  | .trStatus _ => true
  | .trUnitConfig _ => true
  | .trUnitRead _ => true
  | .trUnitEnable _ => true
  | .trPatchConfig _ => true
  | .trAdcStatus _ => true
  | .trAdcFreeze _ => true
  | .trDomainConfig _ => true
  | .trArm _ => true
  | .trDisarm _ => true
  | .trDomainStatus _ => true
  | .trSoftFire _ => true
  | .trStats _ => true
  | .trTrigioConfig _ => true
  | .trSampleRead _ => true
  | .weNop _ => true
  | .weAdd _ => true
  | .weSub _ => true
  | .weAdds _ => true
  | .weSubs _ => true
  | .weAnd _ => true
  | .weOr _ => true
  | .weXor _ => true
  | .weShl _ => true
  | .weShr _ => true
  | .weSar _ => true
  | .weMin _ => true
  | .weMax _ => true
  | .weAbs _ => true
  | .weAdd2h _ => true
  | .weSub2h _ => true
  | .wePack _ => true
  | .weCmplt _ => true
  | .weCmpeq _ => true
  | .weMov _ => true
  | .weMovs _ => true
  | .weMovsr _ => true
  | .weMul _ => true
  | .weMul2h _ => true
  | .weMac _ => true
  | .weMsu _ => true
  | .weMac0 _ => true
  | .weFtap _ => true
  | .weFtap0 _ => true
  | .weClra _ => true
  | .weAdda _ => true
  | .weLda _ => true
  | .weMova _ => true
  | .weMovaw _ => true
  | .weIn _ => true
  | .weOut _ => true
  | .weQput _ => true
  | .weQend _ => true
  | .weBr _ => true
  | .weBrz _ => true
  | .weBrnz _ => true
  | .weCall _ => true
  | .weRet _ => true
  | .weLoop _ => true
  | .wePloop _ => true
  | .weWait _ => true
  | .weRti _ => true
  | .weSwi _ => true
  | .weHalt _ => true
  | .weInResume _ => true
  | .weOutResume _ => true
  | .weQputResume _ => true
  | .weIrqLevel1 _ => true
  | .weIrqLevel2 _ => true
  | .weInputSample _ _ _ => true
  | .weStatus _ => true
  | .weLoadBegin _ => true
  | .weLoadData _ => true
  | .weLoadEnd _ => true
  | .weStart _ => true
  | .weStop _ => true
  | .weMemRead _ => true
  | .weParamWrite _ => true
  | .weRegRead _ => true
  | .weSignal _ => true
  | .weStats _ => true
  | .frameCloseTimeout _ _ _ => true
  | .drain _ => true
  | .spill _ => true
  | .refill _ _ => true
  | .pointerCheck _ _ => true
  | .queueResetComplete _ => true
  | .scrubLineVisit line _ => decide (line < 2 ^ 28)
  | .sramScrub _ => true
  | .bbStatus _ => true
  | .bbQueueMapSet _ => true
  | .bbQueueMapGet _ => true
  | .bbRegionSet _ => true
  | .bbRegionGet _ => true
  | .bbHoldOutput _ => true
  | .bbFlush _ => true
  | .bbReset _ => true
  | .bbPeek _ => true
  | .bbStats _ => true
  | .memStatus _ => true
  | .memScrubConfig _ => true
  | .memScrubRange _ => true
  | .memScrubSummary _ => true
  | .memDefectRead _ => true
  | .memCheckerWrite _ => true
  | .memCheckerRead _ => true
  | .memTrain _ => true
  | .cxUnitCode _ _ => true
  | .cxBufferCloseTimeout _ _ => true
  | .cxIdleGate => true
  | .cxStatus _ => true
  | .cxQueueConfig _ => true
  | .cxQueueGet _ => true
  | .cxChainRead _ => true
  | .cxStats _ => true
  | .cxCodeTest _ => true
  | .laneSignalDetect _ => true
  | .laneBlockLock _ => true
  | .laneLockLost _ => true
  | .negAdvRx _ _ => true
  | .negFecRx _ _ => true
  | .negGroupRx _ _ => true
  | .negMapRx _ _ => true
  | .negReadyRx _ => true
  | .negRateReqRx _ _ => true
  | .negRateAckRx _ _ => true
  | .alignMarkerRx _ _ _ => true
  | .alignMarkerSend _ => true
  | .markerMissed _ => true
  | .fecCodewordUncorrectable _ => true
  | .laneRateDwellTimeout _ => true
  | .laneTxOffEnd _ => true
  | .laneFecTimeout _ => true
  | .groupTimeout _ => true
  | .alignTimeout _ => true
  | .mapTimeout _ => true
  | .rateReqTimeout _ => true
  | .regroupTimeout _ => true
  | .packetSend _ _ _ => true
  | .rxPacketBad _ => true
  | .rxReservedStream _ stream => decide (stream < 32)
  | .nakRx _ _ => true
  | .nakGroupWaitExpiry _ => true
  | .tailSend _ => true
  | .arpRequestRx _ _ _ _ => true
  | .arpReplyRx _ _ _ => true
  | .arpRetry _ => true
  | .arpFailTimeout _ => true
  | .pauseRx _ _ => true
  | .pauseExpiry _ => true
  | .ethFrameDiscard _ => true
  | .slHelloRx _ _ => true
  | .slHelloSend _ => true
  | .slHelloTimeout _ => true
  | .lkStatus _ => true
  | .lkLaneStatus _ => true
  | .lkConfig _ => true
  | .lkRenegotiate _ => true
  | .lkRateSet _ => true
  | .lkClassConfig _ => true
  | .lkTc2WeightSet _ => true
  | .lkPacketCloseSet _ => true
  | .lkRepechageClear _ => true
  | .lkPrbsConfig _ => true
  | .lkPrbsInjectSingle _ => true
  | .lkPrbsInjectBurst _ => true
  | .lkPrbsInjectRate _ => true
  | .lkPrbsInjectStop _ => true
  | .lkPrbsRead _ => true
  | .lkEthConfig _ => true
  | .lkEthStatus _ => true
  | .lkSlStatus _ => true
  | .lkSlConfig _ => true
  | .lkStats _ => true
  | .lkTc0Load _ => true
  | .timeTmrVote _ => true
  | .freqSourceWatchdog _ => true
  | .freqWindowCheck _ _ => true
  | .ocxoRdyFall => true
  | .ocxoWarmHoldExpiry => true
  | .freqRestoreTimer src => decide (1 ≤ src) && decide (src ≤ 4)
  | .freqLockCheck _ _ => true
  | .timeSyncRx _ _ _ => true
  | .timeFollowUpRx _ _ => true
  | .timeDelayRespRx _ _ => true
  | .timeAnnounceRx _ _ => true
  | .timeExchangeTimeout => true
  | .masterAnnounceTimeout _ => true
  | .timeHoldoverTimeout => true
  | .timeStepEdge => true
  | .ptpSyncRx _ _ _ => true
  | .ptpFollowUpRx _ _ => true
  | .ptpDelayRespRx _ _ => true
  | .ptpAnnounceRx _ _ => true
  | .ppsInEdge _ => true
  | .ppsLossTimeout => true
  | .ppsOutPulse => true
  | .tiEdge _ _ => true
  | .freqGateEnd _ => true
  | .timeStatus _ => true
  | .timeNow _ => true
  | .timeFreqConfig _ => true
  | .timeServoConfig _ => true
  | .timeSet _ => true
  | .timePtpConfig _ => true
  | .timePpsConfig _ => true
  | .tiConfig _ => true
  | .tiStampRead _ => true
  | .splitConfig _ => true
  | .splitRead _ => true
  | .freqStart _ => true
  | .freqRead _ => true
  | .freqStop _ => true
  | .timeStats _ => true
  | .governorEval _ => true
  | .governorStep2Tick => true
  | .governorRestoreRetry => true
  | .thermalScan _ => true
  | .throttleStepTimer => true
  | .shutdownHoldTimeout => true
  | .thermalLatchClear => true
  | .autoRateWindow => true
  | .wakeTimerFire _ => true
  | .queueSave => true
  | .holdReached => true
  | .holdWake _ _ => true
  | .holdWakeRestore _ _ _ => true
  | .holdWakeEasy => true
  | .pwStatus _ => true
  | .pwStateSet _ => true
  | .pwBudgetConfig _ => true
  | .pwThermalConfig _ => true
  | .pwThermalRead _ => true
  | .pwWakeSet _ => true
  | .pwWakeClear _ => true
  | .pwAutoConfig _ => true
  | .pwDomainRead _ => true
  | .pwStats _ => true
  | .scPassStart => true
  | .scConversionDone _ => true
  | .scSafetyInjectRequest => true
  | .scCalStepDone _ _ _ _ => true
  | .scAutoCalDue => true
  | .scPinBreak ch pin _ => decide (ch < 25) && decide (pin < 16)
  | .scExcMonitorDone _ => true
  | .scStatus _ => true
  | .scChannelConfig _ => true
  | .scChannelRead _ => true
  | .scSequenceSet _ => true
  | .scResultRead _ => true
  | .scInject _ => true
  | .scInjectRead _ => true
  | .scCalibrate _ => true
  | .scDiagRun _ => true
  | .scChannelStatus _ => true
  | .scStats _ => true
  | .ldPreWake => true
  | .lampShiftStart _ => true
  | .flashInstant => true
  | .ledDiagSample _ _ _ => true
  | .ledPulseEnd _ => true
  | .flashWindowEnd => true
  | .ldIdleGate => true
  | .lampCaptureCycle _ _ => true
  | .ledTempUpdate => true
  | .proofPulseDue e => decide (e < 68)
  | .proofPulse e _ _ _ => decide (e < 68)
  | .diagAgeExpiry e => decide (e < 68)
  | .ldLineReadbackFault _ => true
  | .ldStatus _ => true
  | .ldChainDiscover _ => true
  | .ldChainRead _ => true
  | .ldEmitterConfig _ => true
  | .ldEmitterRead _ => true
  | .ldSchedule _ => true
  | .ldCancel _ => true
  | .ldScheduleRead _ => true
  | .ldDiagRead _ => true
  | .ldProofRun _ => true
  | .ldSinkConfig _ => true
  | .ldStats _ => true
  | .sfLogicCycle _ => true
  | .ilkChannelChange _ _ _ => true
  | .ilkDiscrepancyTimeout _ => true
  | .sealReread _ => true
  | .soReadback _ => true
  | .soDarkTest _ _ => true
  | .sfCommandRx _ => true
  | .sfConnExpiry => true
  | .sfHvmonPoll => true
  | .sfStatus _ => true
  | .sfHvRequest _ => true
  | .sfReset _ => true
  | .sfShutterRequest _ => true
  | .sfDarkTest _ => true
  | .sfTripLog _ => true
  | .sfStats _ => true
  | .xlinkHeartbeatSend _ => true
  | .xlinkHeartbeatRx _ _ => true
  | .xlinkHeartbeatTimeout _ _ => true
  | .arbPoll _ _ => true
  | .arbPollAnswer _ _ => true
  | .arbLostTimeout _ => true
  | .takeoverComplete => true
  | .arbGntChange _ _ => true
  | .rejoinTick => true
  | .alarmPendingCommit src => decide (src < 640)
  | .alarmHeldRelease => true
  | .incidentCalmExpiry => true
  | .redStatus _ => true
  | .redClaimRead _ => true
  | .redRejoin _ => true
  | .evtRead _ => true
  | .evtClear _ => true
  | .evtConfig _ => true
  | .evtSummary _ => true
  | .flogRead _ => true
  | .flogClear _ => true
  | .flogMirror _ => true
  | .flogMirrorRead _ => true
  | .evtStats _ => true
  | .evtTraceConfig _ => true
  | .powerStateChangeDone => true
  | .memLayerIdleSelfRefresh => true
  | .clusterEngineIdleGate _ => true
  | .wePatrolScrub _ _ _ _ _ => true
  | .cxStalled _ => true
  | .scInjectedConversionStart => true
  | .coxFirmwareReloaded _ => true
  | .prbsCheckerLock _ _ => true
  | .prbsLockLost _ _ _ => true
  | .ocxoRdyRise => true
  | .wakeHalfAnswerTimeout _ => true
  | .wakePwrGoodTimeout _ => true
  | .arbiterTmrVote _ => true
  | .eventStateTmrVote _ => true

end Sys2Proof
end

