-- ==== Sys2Proof/Tests/Slice0.lean ====
section
/-! SUPPORT. Tests: ill-formed commands, the worked examples of the spec, and for every statement with hypotheses a state and
operands that meet them. -/
namespace Sys2Proof.Machine
open Sys2Proof

set_option linter.unusedVariables false
set_option Elab.async false

/-- The module in EASY, with both halves, an image that runs, and the safety partition in RUN. -/
def easy : State :=
  { State.reset with
    sys := { por := false, bootStep := 11, windowReady := true, bootResult := 0, power := .easy, halfOk := ⟨true, true⟩,
             romReady := ⟨true, true⟩, firmware := ⟨true, true⟩, imageOk := true, settingsDone := true, memTrained := true,
             image := { rbVersion := 3 }, serial := 0x11111111 }
    red := { half := ⟨{ xlink := true, gnt := true }, { xlink := true, gnt := true }⟩, started := true }
    sf := { started := true, part := 1, sealsRead := true, handed := true, peer := 7, safeWake := 2 }
    tc := { now := 0x100000, strobe := true }
    sc := { on := true }
    bb := { layer := true, trainedMask := 0xFFFF }
    fe := { rows := 0xFFFF }
    seq := { en := 0xF, good := true, up := true }
    up := 100000000 }


/-- The module in PADDLE. -/
def paddle : State := onSys (fun x => { x with power := .paddle }) easy


/-- The module in DRIVE. -/
def drive : State := onSys (fun x => { x with power := .drive }) easy


/-- A request of a call with its parameters waits in a mailbox. -/
def ask (mb code : Nat) (p : List Byte) (s : State) : State :=
  modMb mb (fun m => { m with busy := true, payload := tfill 0 0 (b2 code ++ [0, 0] ++ p) [], reqLen := 4 + p.length })
    (onSys (fun x => { x with waitQ := [mb] }) s)

/-- Core WE_0 changed. -/
def onCore0 (f : WeCore → WeCore) (s : State) : State := modCore 0 f s

/-- PADDLE, with an instruction word at index 0 of the running core WE_0. -/
def weAt (w : BitVec 64) : State :=
  onCore0 (fun x => { x with state := .running, p := [(0, w)] }) paddle

/-- In boot, at a boot step. -/
def bootAt (n : Nat) : State := onSys (fun x => { x with power := .boot, bootStep := n }) easy

/-- EASY, with the supply sequencer changed. -/
def seqWith (f : SeqState → SeqState) : State := onSeq f easy

/-- An open job of a call in a state. -/
def withJob (n code state : Nat) (s : State) : State :=
  onSys (fun x => { x with jobs := [{ num := n, code := code, params := [], state := state }] }) s

/-- EASY, with group LG_0 running in native mode on its four lanes at 16.0 Gb/s, every class allowed. -/
def linked : State :=
  onSys (fun x => { x with cfg := [(0x0901, some ((List.range 4).flatMap (fun _ => [1, 0, 4, 0, 0, 0, 0, 0])))] })
    (modGroup 0 (fun g => { g with running := true, lanes := 0xF, width := 4, rate := 1, classes := 0xF })
      (forAll (List.range 4) (fun l => modLane l (fun x => { x with state := .running, rate := 1, lock := true })) easy))

/-- PADDLE, with front-end block 0 changed after its mode is set to events with both ranges. -/
def feWith (f : FeBlock → FeBlock) : State := modBlock 0 (fun x => f { x with conf := { x.conf with mode := 0x31 }, clock := true }) paddle

/-- A high pulse that its ring times, rising at tick 0x100000. -/
def high : Pulse :=
  { high := true, rise := 0x100000, ps := 0, stop := 0x100001, timing := .ring, bridged := false, hand := none, switched := false
    swTime := 0, nswp := 0, blankEnd := 0, blank := false, swBridge := false, gatedAt := none, sent := false, tp := false
    per := 50000, fell := none, seen := none }

/-- PADDLE, with a pulse on pixel 0. -/
def pulsing (p : Pulse) : State := onFe (fun x => { x with pulse := [(0, some p)] }) (feWith id)

/-- A HIT frame of pixel 0 of a block. -/
def hit0 : HitFrame :=
  { band := 0, prow := 0, pcol := 0, tickLo := 0, tp := false, n := 3, range := false, ambig := false, bridged := false
    droopLow := false, tot := 9, ext := false, dm := 0, dmValid := false, swTime := 0, hand := false, c := 0, nb := 0, nswp := 0
    swClk := false, second := false, rise := 0x100000, stop := 0x100001
    seen := none, entered := 0x100000 }

/-- A closed cluster of one pixel. -/
def closed0 : Closed :=
  { row := 0, engine := 0, size := 1, n := 1, q := 5, qr := 0, qc := 0, ur := 0, uc := 0, toa := (0x100000, 0), timed := [], flags := 0 }

/-- EASY, with tile side 0 changed. -/
def sideWith (f : MergeSide → MergeSide) : State := modMside 0 f easy

/-- PADDLE, in an arming domain that TRIG_IN hears, its state and more changed. -/
def inDomain (f : ArmDomain → ArmDomain) : State :=
  onDomain (fun d => f { d with state := .disarmed }) (onSys (fun x => { x with cfg := [(0x0503, some [1, 0, 16, 0, 40, 0, 1, 0]), (0x0504, some [1, 0, 0, 0])] }) paddle)

/-- PADDLE, the master of an arming domain. -/
def masterOf (f : ArmDomain → ArmDomain) : State :=
  onDomain (fun d => f { d with state := .disarmed }) (onSys (fun x => { x with cfg := [(0x0503, some [1, 1, 16, 0, 40, 0, 1, 0])] }) paddle)

/-- EASY, with queue BQ_0 changed. -/
def queueWith (f : BurstQueue → BurstQueue) : State := modQueue 0 f easy

/-- EASY, with queue BQ_0 compressing and one frame in it, whose stored words have errors. -/
def coding (errs : Table LineErr) : State :=
  modCxq 0 (fun x => { x with conf := some (1, 0, 4, 1) }) (queueWith (fun x => { x with
    w := 64, spill := 64, refill := 64, state := 1, errs := errs
    frames := [{ pos := 0, kind := 1, flags := 0, base := 0x100000, lastOff := 0, records := 1, source := 0
                 payload := [0, 0, 0, 0, 0, 0, 0, 0] }] }))

/-- EASY, with lane LN_0 of a native group changed. -/
def laneWith (f : Lane → Lane) : State :=
  modLane 0 f (onSys (fun x => { x with cfg := [(0x0901, some ((List.range 4).flatMap (fun _ => [1, 0, 4, 0, 0, 0, 0, 0])))] }) easy)

/-- EASY, with every group in Ethernet mode. -/
def ether : State := onSys (fun x => { x with cfg := [(0x0901, some ((List.range 4).flatMap (fun _ => [2, 0, 4, 0, 0, 0, 0, 0])))] }) easy

/-- EASY, with side link SL_0 changed. -/
def slinkWith (f : SideLink → SideLink) : State := modSlink 0 f easy

/-- EASY, with the time core changed. -/
def timeWith (f : TcState → TcState) : State := onTc f easy

/-- EASY on a running native group, following the master 9 on it. -/
def following : State := onTc (fun x => { x with master := some ⟨9, 9, 0⟩, masters := [⟨9, 9, 0⟩] }) linked

/-- EASY on a running Ethernet group, with PTP the time source, following the master 9 on it. -/
def ptpEasy : State :=
  onTc (fun x => { x with master := some ⟨9, 9, 0⟩ }) (modGroup 0 (fun g => { g with running := true })
    (onSys (fun x => { x with cfg := (tput none 0x0A02 (some [2, 15, 100, 0, 10, 0, 10, 0]) x.cfg) }) ether))

/-- EASY, with the power state machine changed. -/
def powerWith (f : PwState → PwState) : State := onPw f easy

/-- HOLD or a change of state in a phase. -/
def phase (k : Nat) : State :=
  onPw (fun x => { x with change := some { target := 1, cause := 0, mb := none, prev := 2, phase := k, began := 0 } })
    (if k = 3 then onSys (fun x => { x with power := .hold }) easy else easy)

/-- EASY, with channel MC_0 on as a resistance channel. -/
def rtd : State := onSc (fun x => { x with chans := [1, 2, 0, 1, 2, 0, 3, 0, 16, 0] }) easy

/-- PADDLE with the light drive on, its resources claimed by the stroke side, emitter 0 on with proof pulses, a chain of one
board ready, and the drive changed. -/
def lit (f : LdState → LdState) : State :=
  onRed (fun r => { r with claim := [(16, 1), (18, 1), (20, 1), (22, 1), (24, 1), (26, 1), (28, 1), (30, 1)] })
    (onLd (fun x => f { x with awake := true, chain := [(0, { state := 1, words := [0] })] })
      (onSys (fun x => { x with cfg := [(0x0D01, some ([1, 1, 80, 0, 100, 0, 80, 0, 0xFF, 64, 80, 0, 0xA0, 0x0F, 0, 0, 0, 0] ++
        (List.range 67).flatMap (fun _ => [0, 0, 80, 0, 100, 0, 80, 0, 0xFF, 64, 80, 0, 0xA0, 0x0F, 0, 0, 0, 0])))] }) easy))

/-- A schedule entry of sink 0 and of board 0 of chain 0. -/
def sched : SchedEntry := { sinks := 1, boards := [1, 0, 0, 0], first := 0x110000, period := 8000, count := 2, phase := 0 }

/-- EASY, with the safety partition changed with SEAL_4 alone of its switches at 1. -/
def safeWith (f : SfState → SfState) : State := onSf (fun x => f { x with sealRaw := 0x655 }) easy

/-- A command with an operand outside its range is refused by WellFormed: one for each check. -/
theorem test_ill_formed : ([
  .eventStickyClear 20 0,
  .discriminatorRise 1048576 0 0,
  .ringCountSaturated 1048576,
  .rangeSwitch 1048576 0,
  .rangeBlankEnd 1048576,
  .discriminatorFall 1048576 0,
  .totSaturated 1048576,
  .pixelDeadTimeEnd 1048576,
  .blockClockReady 256,
  .blockClockIdleGate 256,
  .bridgeSaturated 1048576,
  .portRecordAgeOut 256,
  .portLossSend 256 0,
  .watermarkSend 256,
  .frameUnitAssemble 256 [],
  .crabRetest 1048576,
  .blockCounterCheck 256 0,
  .hitFrameReceived 256 [] true,
  .watermarkReceived 256,
  .portLossReceived 256,
  .portFramingError 256 0,
  .inlUpdate 256,
  .calRunLatch 65536 0,
  .calBandAgeExpiry 256 0,
  .clusterClose 0 1048576,
  .adcConvergeTimeout 64,
  .scrubLineVisit (2 ^ 28) none,
  .rxReservedStream 0 32,
  .freqRestoreTimer 0,
  .freqRestoreTimer 5,
  .scPinBreak 25 0 0,
  .scPinBreak 0 16 0,
  .proofPulseDue 68,
  .proofPulse 68 0 0 [],
  .diagAgeExpiry 68,
  .alarmPendingCommit 640
  ] : List Instr).all (fun i => !WellFormed i) = true := by decide

/-- Commands at the last values of their ranges are well formed. -/
theorem test_well_formed : ([.eventStickyClear 19 0, .ringCountSaturated 1048575, .blockClockIdleGate 255,
  .adcConvergeTimeout 63, .proofPulseDue 67, .alarmPendingCommit 639, .freqRestoreTimer 1, .freqRestoreTimer 4,
  .scPinBreak 24 15 0] : List Instr).all WellFormed = true := by decide

/-- 00_scope: pixel (256, 5) lies in super-pixel row 64 and column 1, in block 64. -/
theorem test_pixel_address : spOf 256 5 = 256 * 64 + 1 ∧ blockOf 256 5 = 64 ∧ pixBlock 0x40005 = 64 := by decide

/-- 03: pixel (700, 900) has address 0xAF384 and lies in super-pixel 45,025 and block 174. -/
theorem test_super_pixel : 1024 * 700 + 900 = 0xAF384 ∧ pixSp 0xAF384 = 45025 ∧ pixBlock 0xAF384 = 174 := by decide

/-- R110: 2.0 nA, margin 1.5, 7 K over T_ref, silicon: code 19. -/
theorem test_leak_code : leakCode 24 2000 7000 0 = 19 := by decide +kernel

/-- Tables of block 130 as the example of R156 has them. -/
def timedBlock : State :=
  onTc (fun x => { x with now := 1234600 }) (onTm (fun x => { x with
    per := tput 0 (4 * 33312 + 2) 50278 [], inl := tput 0 (128 * 130 + 37) 6 [], skew := tput 0 33312 143 []
    wlk := tput 0 (64 * 130 + 15) 4120 (tput 0 (64 * 130 + 16) 3980 []) }) easy)

/-- The example of R156: N 5,669 in block 130, band 2, ToT 31: tick 1,234,567 and fine code 2,363. -/
theorem test_fine_time :
    (let h := convert timedBlock 130 { hit0 with band := 2, prow := 8, pcol := 2, tickLo := 1234568 % 65536, n := 5669, tot := 31 }
     (h.row, h.col, h.tick, h.fine, h.tot, h.extrap)) = (520, 130, 1234567, 2363, 31, false) := by decide +kernel

/-- The example of R185: bin 37 with 8,192 of 2^20 hits, 299,016 below it and a mean period of 392.8 ps: -15. -/
theorem test_inl : inlValue 299016 8192 1048576 50278 1 37 = -15 := by decide +kernel

/-- A hit of the examples of R209 and R218. -/
def exampleHit (row col tot q fine : Nat) : Hit :=
  { row := row, col := col, tick := 1234567, fine := fine, tot := tot, range := false, ambig := false, sat := false
    extrap := false, untimed := false, q := q * qUnit }

/-- The example of R209: the record of pixel (520, 130) at tick 567 of its packet. -/
theorem test_hit_record : hitWord (exampleHit 520 130 150 0 2372) + 567 * 2 ^ 28 = 0x8208202374A204B0 := by decide +kernel

/-- The example of R218: five hits of one cluster, in order of arrival. -/
theorem test_cluster_record :
    clusterWords (closeForm 8 { hits := [exampleHit 519 129 10 1194 2363, exampleHit 521 131 20 1488 2395,
      exampleHit 521 130 50 2370 2380, exampleHit 520 131 100 3840 2376, exampleHit 520 130 150 5310 2372] }) =
    [0x822C82D023749D89 - 567 * 2 ^ 20, 0x00378FFFC0000000] := by decide +kernel

/-- The example of R268: the FRAC of TU_0 and of TU_3. -/
theorem test_frac : fracRise 100 120 40 = 16 ∧ fracRise 20 40 6 = 38 := by decide

/-- The fire of the example of R274, its samples counted from 64 before sample 10. -/
def exampleFire : Fire :=
  { g := 1067, off := 0, mask := 9, first := 0, patch := 47, ref := 1067, frac := 16, units := 9, origin := 0, flags := 0
    period := none, wants := true, waveId := 0, raw := false, since := 0
    conf := [1, 0, 0, 1] ++ List.replicate 4 0 ++ [0xFF] ++ List.replicate 3 0 ++ [100, 0, 0, 0, 8, 0] ++
      List.replicate 35 0 ++ [6, 0, 0, 3, 0, 0, 0] }

/-- The example of R274: BASELINE 80, PEAK 4,080, AREA 1,150, RISE 44 and WIDTH 80. -/
theorem test_measurements :
    (let m := measure exampleFire (List.replicate 64 5 ++ [4, 6, 40, 120, 210, 260, 250, 200, 140, 90, 50, 25, 12, 7]) 1000 1077
     (m.base, m.peak, m.area, m.rise, m.width)) = (80, 4080, 1150, 44, 80) := by decide +kernel

/-- The example of R371: the clean check bits of line address 1 with byte 0 = 0x21. -/
theorem test_check_bits : cleanCheck 0x21 1 = 0x1213 ∧ syndrome { data := 0, check := 0x15, addr := 0 } = 0x15 := by decide +kernel

/-- The example of R355: the capacity of a queue with its default region. -/
theorem test_capacity : capacity (onBb (fun x => { x with layer := true }) State.reset) 0 = 537395200 := by decide +kernel

/-- The example of R400: the first eight counters of a block. -/
theorem test_counter_codes :
    packCodes (codesOf 17 (blockResidues 0 8 1 none [3, 5, 4, 4, 7, 0, 2, 9])) = [0xA4, 0x11, 0x5C, 0xA5, 0x80, 0, 0, 0] := by
  decide +kernel

/-- The example of R401: the header of a PLANAR unit of 2,048 bytes of block 130, frame 0x21. -/
theorem test_unit_header : unitHeader 2048 0 1 2 0 0 0 130 0x21 = 0x2000000C20800840 := by decide +kernel

/-- R443: the check value of the CRC-32C. -/
theorem test_crc32c : crc32c [0x31, 0x32, 0x33, 0x34, 0x35, 0x36, 0x37, 0x38, 0x39] = 0xE3069283 := by decide +kernel

/-- The example of R441: the header of a packet with the one hit record of R209. -/
theorem test_packet_header :
    (packetBytes 2 4 1 0 0x102 5 2 1234000 [0xB0, 0x04, 0xA2, 0x74, 0x23, 0x20, 0x08, 0x82]).take 24 =
    [0x60, 0x04, 0x01, 0x00, 0x02, 0x01, 0x50, 0xD4, 0x12, 0, 0, 0, 0x08, 0, 0, 0x85,
     0xB0, 0x04, 0xA2, 0x74, 0x23, 0x20, 0x08, 0x82] := by decide +kernel

/-- The example of R492: theta 12,646.5 ps and D 249,853.5 ps, to whole picoseconds. -/
theorem test_exchange :
    (let d21 := timeDiff ⟨1000010, 4096⟩ ⟨1000000, 0⟩
     let d43 := timeDiff ⟨1000109, 4000⟩ ⟨1000100, 0⟩
     (thetaOf d21 d43 0, delayOf d21 d43)) = (12646, 249854) := by decide +kernel

/-- The example of R494: one second after ORIGIN and 12,345,678 ns. -/
theorem test_ptp_time :
    ptpTime State.reset (List.replicate 34 0 ++ [0, 0, 0, 0, 0, 1, 0, 0xBC, 0x61, 0x4E]) 0 = ⟨40493827, 983⟩ := by decide +kernel

/-- The example of R530 to R532: 24.0 W, 2.5 C over T_DERATE at 1 W/K gives 21.5 W. -/
theorem test_derated_cap :
    pEff100 (onPw (fun x => { x with temp := [(3, 925)] }) State.reset) = 215000 := by decide +kernel

/-- The example of R555: a 3-wire Pt100 at 25.000 C. -/
theorem test_three_wire :
    convValue (onSc (fun x => { x with chans := [1, 3, 0, 1, 2, 4, 3, 1, 16, 0, 0xE8, 3, 0, 0] }) easy) 0
      { code := 6025552, code2 := 134218, vp := 0, vn := 0, vl := 0, temp := 0, inside := true } 6025552 = some 25000 := by
  decide +kernel

/-- The example of R562: 0.2375 V at 100,000 nA/V gives 23,750. -/
theorem test_hv_monitor :
    convValue (onSys (fun x => { x with cfg := [(0x0C03, some [1, 0, 0, 0, 0, 0, 0, 0, 0xA0, 0x86, 1, 0])] }) easy) 24
      { code := 796918, code2 := 0, vp := 0, vn := 0, vl := 0, temp := 0, inside := true } 796918 = some 23750 := by decide +kernel

/-- The example of R578: 40.0 mA, 7.5 C over the knee at 2 %/K gives 34.0 mA. -/
theorem test_derated_amplitude :
    sinkAmp (onLd (fun x => { x with sink := [(0, { temp := some 6750 })] })
      (onSys (fun x => { x with cfg := [(0x0D02, some [0, 0, 60, 0, 0xD0, 0x07])] }) easy)) 0 3200 = 2720 := by decide +kernel

/-- The example of R590: AMP 3,200, target 50,000, VALUE 48,000 and LOOP_GAIN 64 give 3,232. -/
theorem test_colour_loop : (loopAmp 3200 64 0 8000 50000 48000 easy).1 = 3232 := by decide +kernel

/-- The example of R656: region 3 and byte offset 0x124000 as EV_331 packs them. -/
theorem test_event_argument :
    lineArg easy (0x124000 / 32 + 128 * regionStart easy 3) = [3, 0, 0x40, 0x12, 0, 0] := by decide +kernel

/-- Window writes of the worked call of R48, through the sideband slave, and then the call. -/
def workedCall : State :=
  let w (a d : Word) (s : State) : State := match exec (.sbWrite a (b4 d.toNat)) s with
    | .next t => t
    | _ => s
  let s := w 0x400 1 (w 0x408 7 (w 0x40C 4 (w 0x410 0x101 easy)))
  match exec (.sysIdent 3) s with
  | .next t => t
  | _ => s

/-- The worked call of R59: STATUS, SEQ and payload word 0 of MB_3 after SYS_IDENT. -/
theorem test_worked_call :
    (windowRead workedCall 0x404, windowRead workedCall 0x408, windowRead workedCall 0x410) = (2, 0x00070007, 0x101) := by
  decide +kernel

/-- The Secure Hash Standard's digest of "abc" (PRESUMED, log 50). -/
theorem test_sha256 :
    sha256 [0x61, 0x62, 0x63] = 0xba7816bf8f01cfea414140de5dae2223b00361a396177a9cb410ff61f20015ad := by decide +kernel

/-- The state a command leaves. -/
def after (c : Instr) (s : State) : State := match exec c s with
  | .next t => t
  | _ => s

/-- A request with all its words set out: mailbox, payload and REQ_LEN. -/
def askRaw (mb : Nat) (bytes : List Byte) (len : Nat) (s : State) : State :=
  modMb mb (fun m => { m with busy := true, payload := tfill 0 0 bytes [], reqLen := len })
    (onSys (fun x => { x with waitQ := if 2 ≤ mb then [mb] else [] }) s)

/-- The module before the window is ready. -/
def blind : State := onSys (fun x => { x with por := false }) State.reset

/-- The premises of the four frames: every part is outside the footprint of SB_STATUS or of NOP, both answer, and SB_STATUS
changes the part it may. -/
theorem witness_frames :
    (∃ t, exec .sbStatus easy = .next t) ∧ (∃ t, exec (.weNop 0) easy = .next t) ∧
    (∀ q ∈ footprint .sbStatus, q ∉ footprint (.weNop 0)) ∧ (after .sbStatus easy).sys.sbOut ≠ easy.sys.sbOut :=
  ⟨⟨_, rfl⟩, ⟨_, rfl⟩, by decide +kernel, by decide +kernel⟩

/-- The premise of IdleStepTicks, and of the clauses over a next state. -/
theorem witness_idle : State.reset.pending = [] ∧ easy.pending = [] ∧ ∃ t, exec .sbStatus easy = .next t :=
  ⟨rfl, rfl, _, rfl⟩

/-- The premises of FusesOneWay: an accepted call of each kind with the wrong confirm word; and a call that changes a fuse. -/
theorem witness_fuses :
    ([accepted 2 0x010E epdBh 5 (ask 2 0x010E [0xF, 0, 0, 0, 0] easy),
      decide (p32 (params (mbAt (ask 2 0x010E [0xF, 0, 0, 0, 0] easy) 2)) 1 ≠ confirmWord easy),
      accepted 2 0x010F epd 5 (ask 2 0x010F [1, 0, 0, 0, 0] easy),
      decide (p32 (params (mbAt (ask 2 0x010F [1, 0, 0, 0, 0] easy) 2)) 1 ≠ confirmWord easy),
      decide ((after (.sysLifecycleAdvance 2) (ask 2 0x010E [0xF, 0x4B, 0x4B, 0x4B, 0x4B] easy)).sys.lc ≠ easy.sys.lc)]
     : List Bool).all id = true := by decide +kernel

/-- The module in MANUFACTURE, with and without a fused key hash. -/
def fresh (key : Option (BitVec 256)) : State :=
  onSys (fun x => { x with lc := 1, keyHash := match key with
    | none => []
    | some k => [(0, some k)] }) easy

/-- The premises of DevelopNeedsKey hold without a fused hash and with one. -/
theorem witness_develop :
    ([none, some 7].map (fun key =>
      let s := ask 2 0x010E ([3] ++ b4 (confirmWord (fresh key))) (fresh key)
      let p := params (mbAt s 2)
      accepted 2 0x010E epdBh 5 s && decide (p32 p 1 = confirmWord s) &&
        decide (nextLc s.sys.lc.toNat = some (p8 p 0) ∧ p8 p 0 = 3) &&
        decide ((tget none s.sys.keyHash 0 = none ∧ tget none s.sys.keyHash 1 = none) ↔ key = none)) : List Bool).all id = true := by
  decide +kernel

/-- The premises of RollbackCounter: at RB_COUNT, below it, and above the running image. -/
theorem witness_rollback :
    ([(0, 0), (3, 3), (3, 2), (0, 4), (2, 1)].map (fun (e : Nat × Nat) =>
      let s := ask 2 0x010D (b1 e.2) (onSys (fun x => { x with rbCount := e.1 }) easy)
      accepted 2 0x010D epd 1 s && !inManufacture s &&
        decide (p8 (params (mbAt s 2)) 0 = e.2 ∧ s.sys.image.rbVersion = 3)) : List Bool).all id = true := by decide +kernel

/-- The premises of WindowReady, clause by clause: POR_N low; high with the window not ready; boot step 1; ready. -/
theorem witness_window_ready :
    (State.reset.sys.por = true ∧ State.reset.sys.sbOut = none) ∧
    (blind.sys.por = false ∧ blind.sys.windowReady = false) ∧
    (let s := onSys (fun x => { x with bootStep := 1 }) blind
     s.sys.por = false ∧ s.sys.testMode = false ∧ s.sys.bootStep = 1) ∧
    easy.sys.windowReady = true ∧ Instr.sbStatus ≠ .porAssert := by decide +kernel

/-- The premises of MisalignedSideband. -/
theorem witness_misaligned :
    easy.sys.por = false ∧ (1 : Word).toNat % 4 ≠ 0 ∧ (0xFFFFFFFF : Word).toNat % 4 ≠ 0 := by decide

/-- The premises of BusyMailboxWritesIgnored, for each place at the limits of its range, in MB_0 and MB_7. -/
theorem witness_busy :
    ([0, 7].flatMap (fun n => [(0, (1 : Word)), (8, 0), (12, 0), (16, 0), (252, 0)].map (fun (e : Nat × Word) =>
      let s := modMb n (fun m => { m with busy := true }) easy
      decide (n < 8 ∧ e.1 < 256 ∧ e.1 % 4 = 0) && (mbAt s n).busy && !s.sys.por && s.sys.windowReady &&
        decide ((e.1 = 0 ∧ e.2.getLsbD 0 = true ∧ s.sys.noCox = false) ∨ e.1 = 8 ∨ e.1 = 12 ∨ 16 ≤ e.1))) : List Bool).all id = true := by decide +kernel

/-- The module in boot. -/
def inBoot : State := bootAt 9

/-- The premises of RingWaitsInBoot, in MB_0, MB_1, MB_2 and MB_7. -/
theorem witness_ring_in_boot :
    (inBoot.sys.por = false ∧ inBoot.sys.windowReady = true ∧ inBoot.sys.power = .boot ∧ inBoot.sys.bootHold = false ∧
      inBoot.sys.noCox = false ∧ ∀ n ∈ [0, 1, 2, 7], (mbAt inBoot n).busy = false) ∧ inBoot.sys.mb = [] := by decide +kernel

/-- The premises of NoCallInHold. -/
theorem witness_hold :
    (callRow (.sysNop 2)).isSome = true ∧ (phase 3).sys.power = .hold ∧ (phase 3).sys.bootHold = false := by decide +kernel

/-- The module with its lead isolated, and a call waiting. -/
def alone : State := onRed (fun r => { r with half := ⟨{ r.half.s with isolated := true }, r.half.b⟩ }) (ask 2 0x0106 [0, 0] easy)

/-- The premises of IsolatedLeadDenies. -/
theorem witness_isolated :
    (match callRow (.sysSettingRead 2) with
     | some r => callReady r.mb r.code r.sel alone && leadIsolated alone && decide (r.code ≠ 0x0100 ∧ r.code ≠ 0x0101)
     | none => false) = true := by decide +kernel

/-- The premises of BadRequestsRefused: REQ_LEN 3 and 241, a reserved bit, a call without pri in MB_0 and MB_1, and an
unknown code. -/
theorem witness_bad_requests :
    ([(3, (0 : Byte)), (0, 0), (241, 0), (4, 1), (255, 0)].map (fun (e : Nat × Byte) =>
      let s := askRaw 2 [0, 1, e.2, 0] e.1 easy
      (match callRow (.sysNop 2) with
       | some r => callReady r.mb r.code r.sel s
       | none => false) && !leadIsolated s &&
      (decide ((mbAt s 2).reqLen < 4 ∨ 240 < (mbAt s 2).reqLen) || !reservedZero (mbAt s 2))) ++
    [0, 1].map (fun (n : Nat) =>
      let s := askRaw n [6, 1, 0, 0, 0, 0] 6 easy
      (match callRow (.sysSettingRead ⟨n % 8, by omega⟩) with
       | some r => callReady r.mb r.code r.sel s && !r.allowed.pri && decide (r.mb.val < 2)
       | none => false) && !leadIsolated s && reservedZero (mbAt s n)) ++
    [let s := askRaw 2 [0xFF, 1, 0, 0] 4 easy
     !knownCall 2 (reqCode (mbAt s 2)) && callReady 2 (reqCode (mbAt s 2)) anyParams s && !leadIsolated s &&
       decide (4 ≤ (mbAt s 2).reqLen ∧ (mbAt s 2).reqLen ≤ 240) && reservedZero (mbAt s 2) && !s.sys.bootHold]
     : List Bool).all id = true := by decide +kernel

/-- The premises of CallsOutsideTheirStates: FE_TP_INJECT in EASY, and a decommissioned module in boot hold. -/
theorem witness_outside :
    ([(Instr.feTpInject 2, ask 2 0x020B [0, 0, 0, 0, 0, 0, 0, 0, 0] easy),
      (Instr.sysImageVerify 2, ask 2 0x010C [] (onSys (fun x => { x with bootHold := true, bootResult := 0x13, power := .boot }) easy))].all
      (fun (e : Instr × State) => match callRow e.1 with
       | some r => callReady r.mb r.code r.sel e.2 && !leadIsolated e.2 &&
           decide (4 ≤ (mbAt e.2 r.mb).reqLen ∧ (mbAt e.2 r.mb).reqLen ≤ 240) && reservedZero (mbAt e.2 r.mb) &&
           decide (2 ≤ r.mb.val) && (!allowedNow r.allowed e.2 ||
             (e.2.sys.bootHold && e.2.sys.bootResult == 0x13 && !([0x0100, 0x0101, 0x0104].contains r.code)))
       | none => false)) = true := by decide +kernel

/-- The premises of ResponseLayout and MailboxesCanonical, with results of 0 and of 236 bytes. -/
theorem witness_response :
    (7 < 8 ∧ 255 < 256 ∧ (List.replicate 236 (1 : Byte)).length ≤ 236 ∧ ([] : List Byte).length ≤ 236) ∧
    twf {} 0 (ask 2 0x0101 [] easy).sys.mb = true ∧ twf 0 0 (mbAt (ask 2 0x0101 [] easy) 2).payload = true := by decide +kernel

/-- Every mailbox of the state with one request is canonical. -/
theorem witness_mailboxes : MailWf (ask 2 0x0101 [] easy) := by
  refine ⟨by decide +kernel, fun n => ?_⟩
  by_cases h : n = 2
  · subst h; decide +kernel
  · have e : mbAt (ask 2 0x0101 [] easy) n = {} := by
      have k : (ask 2 0x0101 [] easy).sys.mb = [(2, mbAt (ask 2 0x0101 [] easy) 2)] := by decide +kernel
      unfold mbAt; rw [k]; simp only [tget]; rw [if_neg h]; split <;> rfl
    rw [e]; rfl

/-- Eight open jobs. -/
def eightJobs : State :=
  onSys (fun x => { x with jobs := (List.range 8).map (fun k => { num := k + 1, code := 0x0107, params := [], state := 1 })
                           nextJob := 9 }) easy

/-- The premises of NinthJobBusy and of JobTableKept. -/
theorem witness_ninth_job :
    ([decide (8 ≤ eightJobs.sys.jobs.length), flashOk eightJobs, eightJobs.sys.imageOk,
      accepted 2 0x0107 epd 0 (ask 2 0x0107 [] eightJobs), accepted 2 0x010A epdBh 1 (ask 2 0x010A [1] eightJobs),
      accepted 2 0x010C epdBh 0 (ask 2 0x010C [] eightJobs)] : List Bool).all id = true ∧ JobTable eightJobs := by
  refine ⟨by decide +kernel, ?_⟩
  unfold JobTable; decide +kernel

/-- The premise of GovernorCascade: each cascade, and a state of no cascade is none. -/
theorem witness_cascade : (∀ g ∈ [0, 1, 3, 7], cascade (onPw (fun x => { x with steps := g }) easy).pw.steps = true) ∧
    cascade 2 = false := by decide +kernel

/-- The premises of SealsAndStrapsStand. -/
theorem witness_stands :
    easy.sf.started = true ∧ (∃ t, exec .sbStatus easy = .next t) ∧ (∀ st, Instr.sbStatus ≠ .porRelease st) ∧
    ∀ ok v, Instr.sbStatus ≠ .sfRomStart ok v := by
  refine ⟨rfl, ⟨_, rfl⟩, ?_, ?_⟩ <;> intros <;> intro h <;> cases h

/-- The premises of SealReread: the same valid pairs, a changed one and an invalid one. -/
theorem witness_seals :
    (let s := safeWith id
     s.sf.started = true ∧ s.sf.sealsRead = true ∧ s.sf.part ≠ 2 ∧ sealsValid s.sf.sealRaw = true ∧
       s.sf.sealRaw ≠ 0x555 ∧ sealsValid 0 = false) := by decide +kernel

/-- The premises of ClearingNeverRefused, in RUN and in LOCKOUT, in MB_0 and in MB_2. -/
theorem witness_clearing :
    ([1, 2].flatMap (fun (part : Nat) =>
      let s := onSf (fun x => { x with part := part }) easy
      [accepted 2 0x0E01 epdPri 1 (askRaw 2 [1, 0x0E, 0, 0, 0] 5 s) && decide (p8 (params (mbAt (askRaw 2 [1, 0x0E, 0, 0, 0] 5 s) 2)) 0 = 0),
       accepted 0 0x0E01 epdPri 1 (askRaw 0 [1, 0x0E, 0, 0, 0] 5 s),
       accepted 2 0x0E03 epdPri 1 (askRaw 2 [3, 0x0E, 0, 0, 1] 5 s) && decide (p8 (params (mbAt (askRaw 2 [3, 0x0E, 0, 0, 1] 5 s) 2)) 0 = 1)])
     : List Bool).all id = true := by decide +kernel

/-- The premises of StickyClear, at the first and last word. -/
theorem witness_sticky : easy.sys.por = false ∧ easy.sys.windowReady = true ∧ 0 < 20 ∧ 19 < 20 := by decide +kernel

/-- The premises of PolarityChangeRefused. -/
theorem witness_polarity :
    (let s := ask 2 0x0200 [0, 1, 0x35] (feWith id)
     let p := params (mbAt s 2)
     accepted 2 0x0200 epd 3 s && decide (1 ≤ p8 p 1 ∧ p8 p 1 ≤ 224 ∧ p8 p 0 + p8 p 1 ≤ 256 ∧ (bytesAt p 2 (p8 p 1)).length = p8 p 1)
       && (bytesAt p 2 (p8 p 1)).all modeByteOk && (blockAt s 0).scan.isNone
       && decide ((blockAt s 0).conf.mode.getLsbD 2 ≠ (BitVec.ofNat 8 (p8 p 2)).getLsbD 2 ∧ (blockAt s 0).conf.mode.toNat % 4 ≠ 0
           ∧ p8 p 2 % 4 ≠ 0)) = true := by decide +kernel

/-- The premises of IdleCoreIssuesNothing: a stopped core, a stalled one, and the module in EASY. -/
theorem witness_idle_core :
    issuesOn (.weNop 0) = some 0 ∧ (coreAt easy 0).state ≠ .running ∧
    (coreAt (onCore0 (fun x => { x with stall := some .input }) (weAt 0)) 0).stall ≠ none ∧ busyState easy = false := by
  decide +kernel

/-- The fall of POR_N from EASY: what PowerOnReset says is kept is there to be kept. -/
theorem witness_power_on_reset : easy.seq.en ≠ 0 ∧ (after .porAssert easy).seq.en = 0 := by decide +kernel

/-- The premises of SecDed: two-bit and three-bit errors, and a syndrome of no column. -/
theorem witness_sec_ded :
    (maskList 272 (3 : BitVec 272).toNat).length = 2 ∧ (maskList 272 (7 : BitVec 272).toNat).length = 3 ∧
    (List.range 284).all (fun i => decide (3 ≠ weight3.getD i 0)) = true ∧
    (List.range 16).all (fun k => decide (3 ≠ 2 ^ k)) = true := by decide +kernel

/-- The hypotheses of every clause of HostWindowRuns are met. -/
theorem witness_host_window_runs : ([
  -- SB_READ
  ((fun (addr : Word) (words : Nat) (s : State) =>
     decide ((!s.sys.por) = true)) 0 0 easy),
  -- SB_WRITE
  ((fun (addr : Word) (data : List Byte) (s : State) =>
     decide ((!s.sys.por) = true)) 0 [] easy),
  -- SB_STATUS
  (let s := easy
   decide ((!s.sys.por) = true)),
  -- SB_UNKNOWN_COMMAND
  ((fun (cmd : Byte) (s : State) =>
     decide ((!s.sys.por && decide (cmd ≠ 0x0B ∧ cmd ≠ 0x02 ∧ cmd ≠ 0x05)) = true)) 0 easy),
  -- WINDOW_WRITE
  ((fun (addr w : Word) (s : State) =>
     decide ((!s.sys.por && s.sys.windowReady) = true)) 0 0 easy),
  -- EVENT_STICKY_CLEAR
  ((fun (k : Nat) (w : Word) (s : State) =>
     decide ((!s.sys.por && s.sys.windowReady && decide (k < 20)) = true)) 0 0 easy),
  -- CTRL_READ
  ((fun (rq : CtrlReq) (s : State) =>
     decide (ctrlArrives rq s = true)) ⟨0, 0, true, 0, 1, 0, []⟩ linked),
  -- CTRL_WRITE
  ((fun (rq : CtrlReq) (s : State) =>
     decide (ctrlArrives rq s = true)) ⟨0, 0, true, 0, 1, 0x1100, [7]⟩ linked)
  ] : List Bool).all id = true := by decide +kernel

/-- The hypotheses of every clause of SystemCallsRun are met. -/
theorem witness_system_calls_run : ([
  -- UNKNOWN_CALL
  ((fun (mb : Fin 8) (s : State) =>
     (
     let code := reqCode (mbAt s mb)
     decide ((!knownCall mb code && callReady mb code (fun _ => true) s) = true))) 2 (ask 2 0x01FF [] easy)),
  -- JOB_COMPLETE
  ((fun (job : Nat) (out : JobOutcome) (s : State) =>
     (match (openJob s job) with
       | some j => decide (j.state = 1)
       | _ => false)) 5 ⟨true, 3, 0, [], [], []⟩ (withJob 5 0x0107 1 easy)),
  ((fun (job : Nat) (out : JobOutcome) (s : State) =>
     (match (openJob s job) with
       | none => decide (job = 0)
       | _ => false)) 0 ⟨true, 3, 0, [(0, 32)], [], [0]⟩ (onLd (fun x => { x with jobs := [(0, 1)] }) easy)),
  -- JOB_DEFERRED_START
  ((fun (job : Nat) (s : State) =>
     (match (openJob s job) with
       | some j => decide ((decide (j.state = 0) && lowCodes.contains j.code && decide (0 ≤ tickAfter s.pw.evalTick j.start) && !lowDeferred s && awake s) = true)
       | _ => false)) 5 (withJob 5 0x0206 0 easy)),
  -- SYS_NOP
  (accepted 2 0x0100 epdBhPri 0 (ask 2 0x0100 [] easy)),
  -- SYS_IDENT
  (accepted 2 0x0101 epdBhPri 0 (ask 2 0x0101 [] easy)),
  -- SYS_RESET_WARM
  (let mb : Fin 8 := 2; let s := ask 2 0x0102 [0, 0] easy
   (accepted mb.val 0x0102 epdBh 2 s && (let p := params (mbAt s mb.val); decide (p8 p 0 = 0 ∧ p8 p 1 = 0)))),
  -- SYS_RESET_COX
  (let mb : Fin 8 := 2; let s := ask 2 0x0102 [1, 1] easy
   (accepted mb.val 0x0102 epdBh 2 s && (let p := params (mbAt s mb.val); (decide (p8 p 0 = 1 ∧ p8 p 1 ≤ 1) && (
   let h := Half.ofCode (p8 p 1)
   decide (mayRestart s h = true)))))),
  -- SYS_RESET_BOTH
  (let mb : Fin 8 := 2; let s := ask 2 0x0102 [2, 0] easy
   (accepted mb.val 0x0102 epdBh 2 s && (let p := params (mbAt s mb.val); decide (p8 p 0 = 2 ∧ p8 p 1 = 0)))),
  -- SYS_LEAD_SET
  (let mb : Fin 8 := 2; let s := ask 2 0x0103 [0] easy
   (accepted mb.val 0x0103 epd 1 s && (let p := params (mbAt s mb.val); (decide (p8 p 0 ≤ 1) && (
   let h := Half.ofCode (p8 p 0)
   decide (alive s h = true)))))),
  -- SYS_BOOT_REPORT
  (accepted 2 0x0104 epdBh 1 (ask 2 0x0104 [0] easy)),
  -- SYS_FLASH_INFO
  (let mb : Fin 8 := 2; let s := ask 2 0x0105 [0] (onSys (fun x => { x with negotiated := 3 }) easy)
   (accepted mb.val 0x0105 epdBh 1 s && (let p := params (mbAt s mb.val); (decide (p8 p 0 ≤ 1) && (decide (flashOk s = true) && decide (wasNegotiated s (p8 p 0))))))),
  (let mb : Fin 8 := 2; let s := ask 2 0x0105 [0] easy
   (accepted mb.val 0x0105 epdBh 1 s && (let p := params (mbAt s mb.val); (decide (p8 p 0 ≤ 1) && (decide (flashOk s = true) && decide (¬ (wasNegotiated s (p8 p 0)))))))),
  -- SYS_SETTING_READ
  (let mb : Fin 8 := 2; let s := ask 2 0x0106 [1, 1, 1, 1] easy
   (accepted mb.val 0x0106 epd 4 s && (let p := params (mbAt s mb.val); (match (tagValue s (p16 p 0)) with
     | some v => true
     | _ => false)))),
  -- SYS_SETTINGS_SAVE
  (let mb : Fin 8 := 2; let s := ask 2 0x0107 [] easy
   (accepted mb.val 0x0107 epd 0 s && (let p := params (mbAt s mb.val); (decide ((flashOk s && s.sys.imageOk) = true) && decide (s.sys.jobs.length < 8))))),
  -- SYS_IMAGE_COMMIT
  (let mb : Fin 8 := 2; let s := ask 2 0x0108 [0] easy
   (accepted mb.val 0x0108 epdBh 1 s && (let p := params (mbAt s mb.val); (decide (p8 p 0 ≤ 1) && decide (flashOk s = true))))),
  -- SYS_JOB_STATUS
  (let mb : Fin 8 := 2; let s := ask 2 0x0109 [5, 0] (withJob 5 0x0107 1 easy)
   (accepted mb.val 0x0109 epdBhPri 2 s && (let p := params (mbAt s mb.val); (match (jobEntry s (p16 p 0)) with
     | some j => true
     | _ => false)))),
  -- SYS_IMAGE_BEGIN
  (let mb : Fin 8 := 2; let s := ask 2 0x010A [0] easy
   (accepted mb.val 0x010A epdBh 1 s && (let p := params (mbAt s mb.val); (decide (p8 p 0 ≤ 1) && (decide (flashOk s = true) && decide (s.sys.jobs.length < 8)))))),
  -- SYS_IMAGE_DATA
  (let mb : Fin 8 := 2; let s := ask 2 0x010B [0, 0, 0, 0, 1, 0, 0, 0, 9] (onSys (fun x => { x with imageOpen := true }) easy)
   (accepted mb.val 0x010B epdBh 8 s && (let p := params (mbAt s mb.val); (
   let n := p16 p 4
   (
   let d := bytesAt p 8 n
   (decide (1 ≤ n ∧ n ≤ 224 ∧ 8 + n ≤ p.length ∧ p32 p 0 + n ≤ 0x7F0000) && decide ((flashOk s && s.sys.imageOpen) = true))))))),
  -- SYS_IMAGE_VERIFY
  (let mb : Fin 8 := 2; let s := ask 2 0x010C [] easy
   (accepted mb.val 0x010C epdBh 0 s && (let p := params (mbAt s mb.val); (decide (flashOk s = true) && decide (s.sys.jobs.length < 8))))),
  -- SYS_ROLLBACK_ADVANCE
  (let mb : Fin 8 := 2; let s := ask 2 0x010D [0] easy
   (accepted mb.val 0x010D epd 1 s && (let p := params (mbAt s mb.val); (decide ((!inManufacture s) = true) && decide (s.sys.rbCount ≤ p8 p 0 ∧ p8 p 0 ≤ s.sys.image.rbVersion))))),
  -- SYS_LIFECYCLE_ADVANCE
  (let mb : Fin 8 := 2; let s := ask 2 0x010E [0xF, 0x4B, 0x4B, 0x4B, 0x4B] easy
   (accepted mb.val 0x010E epdBh 5 s && (let p := params (mbAt s mb.val); (decide (p32 p 1 = confirmWord s ∧ nextLc s.sys.lc.toNat = some (p8 p 0)) && decide ((decide (p8 p 0 ≠ 0b0011) || (tget none s.sys.keyHash 0).isSome || (tget none s.sys.keyHash 1).isSome) = true))))),
  -- SYS_KEY_REVOKE
  (let mb : Fin 8 := 2; let s := ask 2 0x010F [1, 0x4B, 0x4B, 0x4B, 0x4B] easy
   (accepted mb.val 0x010F epd 5 s && (let p := params (mbAt s mb.val); (decide (p8 p 0 ≤ 1 ∧ p32 p 1 = confirmWord s) && decide (p8 p 0 ≠ s.sys.image.keySlot)))))
  ] : List Bool).all id = true := by decide +kernel

/-- The hypotheses of every clause of SupplyAndBootRun are met. -/
theorem witness_supply_and_boot_run : ([
  -- POR_ASSERT
  (let s := easy
   true),
  -- POR_RELEASE
  ((fun (st : StrapLevels) (s : State) =>
     decide (s.sys.por = true)) ⟨0, 0, false, true, true⟩ State.reset),
  -- PWR_GOOD_RISE
  (let s := (seqWith (fun x => { x with good := false }))
   decide ((!s.sys.por && !s.seq.good && decide (s.seq.en ≠ 0)) = true)),
  -- SEQ_ENABLE_TIMEOUT
  (let s := (seqWith (fun x => { x with en := 3, waiting := true }))
   decide ((!s.sys.por && s.seq.waiting) = true)),
  -- SEQ_RETRY_TIMER
  (let s := (seqWith (fun x => { x with retry := true }))
   decide (s.seq.retry = true)),
  -- PWR_GOOD_FALL
  ((fun (ns : Nat) (pmic : Option (List Byte)) (s : State) =>
     decide ((goodExpected s && decide (10000 ≤ ns)) = true)) 10000 none easy),
  -- PWR_GOOD_RETRY_TIMER
  (let s := (seqWith (fun x => { x with lost := true }))
   decide (s.seq.lost = true)),
  -- RST_N_PULSE
  ((fun (ns : Nat) (s : State) =>
     decide ((!s.sys.por && !s.sys.testMode && decide (3 ≤ s.sys.bootStep ∧ 100 ≤ ns)) = true)) 100 easy),
  -- PD0_RUNNING
  (let s := (onSys (fun x => { x with windowReady := false }) (bootAt 1))
   decide ((!s.sys.por && !s.sys.testMode && decide (s.sys.bootStep = 1)) = true)),
  -- COX_BOOT_ROM_START
  (let s := (bootAt 3)
   decide ((booting s && s.sf.started && decide (s.sys.bootStep = 3)) = true)),
  -- COX_ROM_READY
  ((fun (h : Half) (s : State) =>
     decide ((decide ((viewAt s h).state ≠ 3) && (returning s h || (booting s && decide (4 ≤ s.sys.bootStep)))
           && !twoGet s.sys.firmware h) = true)) .s (onSys (fun x => { x with firmware := ⟨false, false⟩ }) (bootAt 4))),
  -- BOOT_ROM_READY_TIMEOUT
  (let s := (bootAt 4)
   decide ((booting s && decide (4 ≤ s.sys.bootStep)) = true)),
  -- FLASH_NEGOTIATION
  ((fun (cs : Fin 2) (probe : FlashProbe) (s : State) =>
     decide ((!wasNegotiated s cs && ((seeking s && decide (csTurn s = some cs.val)) || (serving s && flashOk s))) = true)) 0 ⟨true, 0, false, false, true, (true, true, true), []⟩ (onSys (fun x => { x with imageOk := false }) (bootAt 5))),
  -- BOOT_IMAGE_CHECK
  ((fun (cs slot : Fin 2) (readOk : Bool) (s : State) =>
     decide ((seeking s && decide (csTurn s = some cs.val ∧ slotTurn s cs = some slot.val) && wasNegotiated s cs) = true)) 0 0 true (onSys (fun x => { x with imageOk := false, negotiated := 1, cs0 := { present := true } }) (bootAt 6))),
  -- SETTINGS_APPLY
  (let s := (onSys (fun x => { x with settingsDone := false }) (bootAt 7))
   decide ((booting s && s.sys.imageOk && !s.sys.settingsDone && twoGet s.sys.firmware (lead s)) = true)),
  -- MEM_TRAINING_DONE
  ((fun (okMask : BitVec 16) (s : State) =>
     decide ((booting s && s.sys.settingsDone && !s.sys.memTrained) = true)) 0xFFFF (onSys (fun x => { x with memTrained := false }) (bootAt 8))),
  -- TIME_CORE_START
  (let s := (bootAt 8)
   decide ((booting s && s.sys.settingsDone && decide (s.sys.bootStep = 8) && !s.sys.jobs.any (fun j => decide (j.code = 0x0206))) = true)),
  -- BOOT_LINK_WAIT_EXPIRY
  (let s := (bootAt 10)
   decide ((booting s && decide (s.sys.bootStep = 10)) = true)),
  -- BOOT_ENTER_EASY
  (let s := (onSys (fun x => { x with linkWaitOver := true }) (bootAt 10))
   decide ((booting s && decide (s.sys.bootStep = 10) && s.sys.memTrained && (s.sys.linkWaitOver || lanesUp s)) = true)),
  -- COX_RESTART_TIMEOUT
  ((fun (h : Half) (s : State) =>
     decide (twoGet s.sys.restarting h = true)) .b (onSys (fun x => { x with restarting := ⟨false, true⟩ }) easy)),
  -- COX_MEM_SCRUB
  ((fun (h : Half) (corrected uncorrectable : Bool) (s : State) =>
     decide ((twoGet s.sys.firmware h || twoGet s.sys.romReady h) = true)) .s true true easy),
  -- COX_FIRMWARE_RELOADED
  ((fun (h : Half) (s : State) =>
     decide (returning s h = true)) .b (onSys (fun x => { x with restarting := ⟨false, true⟩ }) easy)),
  -- WAKE_HALF_ANSWER_TIMEOUT
  ((fun (h : Half) (s : State) =>
     decide ((!s.sys.por && twoGet s.sys.firmware h && (viewAt s h).answer.isNone && decide ((viewAt s h).state ≠ 3)
         && s.pw.wokeAt.isSome) = true)) .b (onPw (fun x => { x with wokeAt := some 99000000 }) easy)),
  -- WAKE_PWR_GOOD_TIMEOUT
  ((fun (pmic : Option (List Byte)) (s : State) =>
     decide ((decide ((s.pw.change.map (·.phase)) = some 3) && !s.seq.good) = true)) none (onPw (fun x => { x with change := some ⟨2, 0, none, 1, 3, 0, (0, 0xFF), none, false⟩ }) (seqWith (fun x => { x with good := false }))))
  ] : List Bool).all id = true := by decide +kernel

/-- The hypotheses of every clause of SafetyPartitionRuns are met. -/
theorem witness_safety_partition_runs : ([
  -- SF_ROM_START
  ((fun (romOk : Bool) (seals : BitVec 12) (s : State) =>
     decide ((!s.sys.por && !s.sys.testMode && s.sys.windowReady && !s.sf.started) = true)) true 0x555 (onSf (fun x => { x with started := false, sealsRead := false, part := 0 }) (bootAt 2))),
  -- SF_SELF_TEST_DONE
  ((fun (tests : List SwitchTest) (s : State) =>
     decide ((s.sf.started && s.sf.sealsRead && decide (s.sf.part = 0)) = true)) [] (onSf (fun x => { x with part := 0 }) easy)),
  -- SF_LOGIC_CYCLE
  ((fun (disagree : List (Fin 3)) (s : State) =>
     decide (s.sf.started = true)) [] easy),
  -- ILK_CHANNEL_CHANGE
  ((fun (n : Fin 4) (chB : Bool) (samples : List Nat) (s : State) =>
     (
     let closed := !(if chB then (ilkAt s n).b else (ilkAt s n).a)
     decide ((s.sf.started && decide (samples.length = 3) && samples.all (fun v => readsClosed chB v == closed)) = true))) 0 false [100, 100, 100] easy),
  -- ILK_DISCREPANCY_TIMEOUT
  ((fun (n : Fin 4) (s : State) =>
     decide ((ilkAt s n).running = true)) 0 (safeWith (fun x => { x with ilk := [(0, { a := true, running := true })] }))),
  -- SEAL_REREAD
  ((fun (seals : BitVec 12) (s : State) =>
     decide ((s.sf.started && s.sf.sealsRead && decide (s.sf.part ≠ 2)) = true)) 0 easy),
  -- SO_READBACK
  ((fun (rb : List SoReadback) (s : State) =>
     decide ((s.sf.started && decide (s.sf.part ≠ 0)) = true)) [] easy),
  -- SO_DARK_TEST
  ((fun (n : Fin 2) (r : DarkReadings) (s : State) =>
     decide ((decide (s.sf.part = 1) && bit s.sf.soCmd.toNat n) = true)) 0 ⟨true, 0, 500, true, 0⟩ (safeWith (fun x => { x with soCmd := 1 }))),
  -- SF_COMMAND_RX
  ((fun (payload : List Byte) (s : State) =>
     decide ((s.sf.started && decide (s.sf.part ≠ 0) && (List.range 4).any (fun g => (groupAt s g).running)) = true)) [] linked),
  -- SF_CONN_EXPIRY
  (let s := (safeWith (fun x => { x with conn := true }))
   decide (s.sf.conn = true)),
  -- SF_HVMON_POLL
  (let s := (safeWith (fun x => { x with hv := 2 }))
   decide ((sealOf s 4 && decide (s.sf.part = 1 ∧ s.sf.hv = 2) && s.sc.on && decide (s.sc.safeQ < 2)) = true)),
  -- SF_STATUS
  (accepted 2 0x0E00 epdPri 0 (ask 2 0x0E00 [] easy)),
  -- SF_HV_REQUEST
  (let mb : Fin 8 := 2; let s := ask 2 0x0E01 [0] easy
   (accepted mb.val 0x0E01 epdPri 1 s && (let p := params (mbAt s mb.val); decide (p8 p 0 ≤ 1)))),
  -- SF_RESET
  (let mb : Fin 8 := 2; let s := ask 2 0x0E02 [] (safeWith (fun x => { x with hvReq := true, resetHv := true, ilk := (List.range 4).map (fun n => (n, { a := true, b := true })) }))
   (accepted mb.val 0x0E02 epdPri 0 s && (let p := params (mbAt s mb.val); (
   let r := sfReset s
   decide (r.1))))),
  (let mb : Fin 8 := 2; let s := ask 2 0x0E02 [] easy
   (accepted mb.val 0x0E02 epdPri 0 s && (let p := params (mbAt s mb.val); (
   let r := sfReset s
   decide (¬ (r.1)))))),
  -- SF_SHUTTER_REQUEST
  (let mb : Fin 8 := 2; let s := ask 2 0x0E03 [0] easy
   (accepted mb.val 0x0E03 epdPri 1 s && (let p := params (mbAt s mb.val); decide (p8 p 0 ≤ 1)))),
  -- SF_DARK_TEST
  (let mb : Fin 8 := 2; let s := ask 2 0x0E04 [] easy
   (accepted mb.val 0x0E04 epd 0 s && (let p := params (mbAt s mb.val); decide (s.sf.soCmd = 0)))),
  (let mb : Fin 8 := 2; let s := ask 2 0x0E04 [] (safeWith (fun x => { x with soCmd := 1 }))
   (accepted mb.val 0x0E04 epd 0 s && (let p := params (mbAt s mb.val); decide (¬ (s.sf.soCmd = 0))))),
  -- SF_TRIP_LOG
  (let mb : Fin 8 := 2; let s := ask 2 0x0E05 [0] easy
   (accepted mb.val 0x0E05 epd 1 s && (let p := params (mbAt s mb.val); decide (p8 p 0 ≤ 15)))),
  -- SF_STATS
  (accepted 2 0x0E06 epd 1 (ask 2 0x0E06 [0] easy))
  ] : List Bool).all id = true := by decide +kernel

/-- The hypotheses of every clause of FrontEndEventsRun are met. -/
theorem witness_front_end_events_run : ([
  -- DISCRIMINATOR_RISE
  ((fun (pix ps per : Nat) (s : State) =>
     decide ((pixelLive s pix && s.tc.strobe && (pulseAt s pix).isNone) = true)) 0 10 200 (feWith id)),
  -- RING_COUNT_SATURATED
  ((fun (pix : Nat) (s : State) =>
     (match (pulseAt s pix) with
       | some p => decide ((decide (p.timing ≠ .untimed) && p.seen.isNone && decide (stampDiff s.tc.now p.stop ≤ 0 ∨ !p.sent)) = true)
       | _ => false)) 0 (pulsing high)),
  -- RANGE_SWITCH
  ((fun (pix ps : Nat) (s : State) =>
     (match (pulseAt s pix) with
       | some p => decide ((p.high && !p.switched && !p.sent && bit (blockAt s (pixBlock pix)).conf.mode.toNat 5) = true)
       | _ => false)) 0 100 (pulsing high)),
  -- RANGE_BLANK_END
  ((fun (pix : Nat) (s : State) =>
     (match (pulseAt s pix) with
       | some p => decide (p.blank = true)
       | _ => false)) 0 (pulsing { high with blank := true })),
  -- DISCRIMINATOR_FALL
  ((fun (pix ps : Nat) (s : State) =>
     (match (pulseAt s pix) with
       | some p => decide (p.high = true)
       | _ => false)) 0 5000 (pulsing high)),
  -- TOT_SATURATED
  ((fun (pix : Nat) (s : State) =>
     (match (pulseAt s pix) with
       | some p => (match (totFull p) with
           | some h => decide ((p.high && !p.sent && decide (h ≤ p.gatedAt.getD h)) = true)
           | _ => false)
       | _ => false)) 0 (pulsing high)),
  -- PIXEL_DEAD_TIME_END
  ((fun (pix : Nat) (s : State) =>
     (match (pulseAt s pix) with
       | some p => decide ((!p.high) = true)
       | _ => false)) 0 (pulsing { high with high := false })),
  -- BLOCK_CLOCK_READY
  ((fun (block : Nat) (s : State) =>
     (match ((blockAt s block).clockReq) with
       | some (t, ps) => decide ((decide (blockMode s block ≠ 0) && decide (25000 * (stampDiff s.tc.now t + 1) ≤ 200000 + ps)) = true)
       | _ => false)) 0 (feWith (fun x => { x with clock := false, clockReq := some (0x100000, 0) }))),
  -- BLOCK_CLOCK_IDLE_GATE
  ((fun (block : Nat) (s : State) =>
     decide (((blockAt s block).clock && !clockAlways s block) = true)) 0 (feWith id)),
  -- BRIDGE_SATURATED
  ((fun (pix : Nat) (s : State) =>
     (match (pulseAt s pix) with
       | some p => decide ((p.high && !p.sent && p.bridged && p.hand.isNone && decide (p.timing = .ring)) = true)
       | _ => false)) 0 (pulsing { high with bridged := true })),
  -- PORT_RECORD_AGE_OUT
  ((fun (block : Nat) (s : State) =>
     (match (popHit (blockAt s block).port) with
       | some (h, rest) => decide (awake s = true)
       | _ => false)) 0 (feWith (fun x => { x with port := [.hit { hit0 with entered := 0xF7FFF }] }))),
  -- PORT_LOSS_SEND
  ((fun (block cause : Nat) (s : State) =>
     (match (tget none (blockAt s block).discards cause) with
       | some (n, a, b) => decide ((decide (portHits (blockAt s block) < 512) && [3, 4, 6].contains cause && !(blockAt s block).held) = true)
       | _ => false)) 0 3 (feWith (fun x => { x with discards := [(3, some (2, 0x100000, 0x100000))] }))),
  -- WATERMARK_SEND
  ((fun (block : Nat) (s : State) =>
     (
     let w := watermark s block
     (
     let advanced := match (blockAt s block).lastMark with
       | none => true
       | some v => decide (0 < stampDiff w v)
     decide ((awake s && decide (block < 256) && !unlimited s block && (advanced || decide (0 < portHits (blockAt s block)))) = true)))) 0 (feWith id)),
  -- FRAME_BOUNDARY
  (let s := easy
   decide ((awake s && s.tc.strobe && (List.range 256).all (fun k => (blockAt s k).readout.isNone)) = true)),
  -- FRAME_UNIT_ASSEMBLE
  ((fun (block : Nat) (flips : List (Nat × BitVec 16)) (s : State) =>
     (match ((blockAt s block).readout) with
       | some r => decide (frameIsNext s block r = true)
       | _ => false)) 0 [] (feWith (fun x => { x with readout := some ⟨0, 2441, 0, 1, [(0, 5)], false⟩ }))),
  -- FE_MODE_EFFECT
  (let s := (onFe (fun x => { x with pendingMode := [(0, [0x31], 0x100190)] }) easy)
   (match (modeEffectTick s) with
     | some t => decide (awake s = true)
     | _ => false)),
  -- CRAB_WINDOW_END
  (let s := easy
   decide (awake s = true)),
  -- CRAB_RETEST
  ((fun (pix : Nat) (s : State) =>
     (match (crabOf s pix) with
       | some c => decide ((awake s && c.test.isNone) = true)
       | _ => false)) 5 (onFe (fun x => { x with crabs := [{ pix := 5, reason := 1 }] }) easy)),
  -- LEAK_UPDATE
  ((fun (sat : List Nat) (s : State) =>
     decide (awake s = true)) [] easy),
  -- FE_SCRUB
  ((fun (diffs : List FeDiff) (s : State) =>
     decide (awake s = true)) [] easy),
  -- FE_TMR_VOTE
  ((fun (upset : List TmrUpset) (droop : List (Nat × Nat)) (s : State) =>
     decide ((awake s && s.tc.strobe) = true)) [] [] easy),
  -- TP_STEP
  (let s := (onFe (fun x => { x with tp := some ⟨0, 100, 0, 2, 40, 0, 0x100190, 0x100190⟩ }) paddle)
   (match (s.fe.tp) with
     | some j => decide (awake s = true)
     | _ => false))
  ] : List Bool).all id = true := by decide +kernel

/-- The hypotheses of every clause of FrontEndCallsRun are met. -/
theorem witness_front_end_calls_run : ([
  -- FE_MODE_SET
  (let mb : Fin 8 := 2; let s := ask 2 0x0200 [1, 1, 1] easy
   (accepted mb.val 0x0200 epd 3 s && (let p := params (mbAt s mb.val); (
   let first := p8 p 0
   (
   let n := p8 p 1
   (
   let bytes := bytesAt p 2 n
   (
   let old := bytes.zipIdx.map (fun e => (first + e.2, (blockAt s (first + e.2)).conf.mode.toNat, e.1.toNat))
   (decide ((decide (1 ≤ n ∧ n ≤ 224 ∧ first + n ≤ 256 ∧ bytes.length = n) && bytes.all modeByteOk) = true) && (decide (¬ (old.any (fun e => (blockAt s e.1).scan.isSome))) && decide (¬ (old.any (fun e => decide (bit e.2.1 2 ≠ bit e.2.2 2 ∧ e.2.1 % 4 ≠ 0 ∧ e.2.2 % 4 ≠ 0))))))))))))),
  -- FE_MODE_GET
  (let mb : Fin 8 := 2; let s := ask 2 0x0201 [1, 1] easy
   (accepted mb.val 0x0201 epd 2 s && (let p := params (mbAt s mb.val); decide (1 ≤ p8 p 1 ∧ p8 p 1 ≤ 224 ∧ p8 p 0 + p8 p 1 ≤ 256)))),
  -- FE_DAC_SET
  (let mb : Fin 8 := 2; let s := ask 2 0x0202 [0, 0, 0, 0] easy
   (accepted mb.val 0x0202 epd 4 s && (let p := params (mbAt s mb.val); (
   let bs := blocksNamed (p8 p 0)
   (
   let d := p8 p 1
   decide (d ≤ 6 ∧ p16 p 2 < 2 ^ dacBits d)))))),
  -- FE_DAC_GET
  (accepted 2 0x0203 epd 1 (ask 2 0x0203 [0] easy)),
  -- FE_PIXEL_WRITE
  (let mb : Fin 8 := 2; let s := ask 2 0x0204 [0, 0, 0, 0, 1, 0, 0, 0, 0x3F] easy
   (accepted mb.val 0x0204 epd 8 s && (let p := params (mbAt s mb.val); (
   let n := p16 p 4
   decide (1 ≤ n ∧ n ≤ 224 ∧ p32 p 0 + n ≤ 1048576 ∧ (bytesAt p 8 n).length = n))))),
  -- FE_PIXEL_READ
  (let mb : Fin 8 := 2; let s := ask 2 0x0205 [0, 0, 0, 0, 1, 0] easy
   (accepted mb.val 0x0205 epd 6 s && (let p := params (mbAt s mb.val); (
   let n := p16 p 4
   decide (1 ≤ n ∧ n ≤ 224 ∧ p32 p 0 + n ≤ 1048576))))),
  -- FE_TRIM_RUN
  (let mb : Fin 8 := 2; let s := ask 2 0x0206 [0, 1, 0xF4, 1, 10, 0] (feWith id)
   (accepted mb.val 0x0206 pOrD 6 s && (let p := params (mbAt s mb.val); (decide (0 < p8 p 1 ∧ p8 p 0 + p8 p 1 ≤ 256) && (decide (500 ≤ p16 p 2 ∧ p16 p 2 ≤ 6000 ∧ 10 ≤ p16 p 4 ∧ p16 p 4 ≤ 1000) && (decide ((∀ k ∈ scanBlocks (p8 p 0) (p8 p 1), blockMode s k ≠ 0 ∧ inBlockJob s k = false)) && (decide (lowDeferred s = false) && decide (s.sys.jobs.length < 8)))))))),
  -- FE_SCURVE
  (let mb : Fin 8 := 2; let s := ask 2 0x0207 [0, 1, 0, 0, 1, 0, 5, 1, 0] (feWith id)
   (accepted mb.val 0x0207 pOrD 9 s && (let p := params (mbAt s mb.val); (decide (0 < p8 p 1 ∧ p8 p 0 + p8 p 1 ≤ 256) && (decide (5 ≤ p8 p 6 ∧ p8 p 6 ≤ 64 ∧ p16 p 2 + (p8 p 6 - 1) * p16 p 4 < 4096 ∧ 1 ≤ p16 p 7) && (decide ((∀ k ∈ scanBlocks (p8 p 0) (p8 p 1), blockMode s k ≠ 0 ∧ inBlockJob s k = false)) && (decide (lowDeferred s = false) && decide (s.sys.jobs.length < 8)))))))),
  -- FE_SCAN_RESULT
  (let mb : Fin 8 := 2; let s := ask 2 0x0208 [5, 0, 0, 0, 0, 0, 1, 0] (onFe (fun x => { x with scanJob := 5 }) easy)
   (accepted mb.val 0x0208 epd 8 s && (let p := params (mbAt s mb.val); (
   let n := p16 p 6
   decide (1 ≤ n ∧ n ≤ 56 ∧ p32 p 2 + n ≤ 1048576 ∧ p16 p 0 ≠ 0 ∧ p16 p 0 = s.fe.scanJob))))),
  -- FE_BUMP_TEST
  (let mb : Fin 8 := 2; let s := ask 2 0x0209 [0, 1] (feWith id)
   (accepted mb.val 0x0209 pOrD 2 s && (let p := params (mbAt s mb.val); (decide (0 < p8 p 1 ∧ p8 p 0 + p8 p 1 ≤ 256) && (decide ((∀ k ∈ scanBlocks (p8 p 0) (p8 p 1), blockMode s k ≠ 0 ∧ inBlockJob s k = false)) && (decide (lowDeferred s = false) && decide (s.sys.jobs.length < 8))))))),
  -- FE_BUMP_RESULT
  (let mb : Fin 8 := 2; let s := ask 2 0x020A [0, 0, 0, 0, 1, 0] easy
   (accepted mb.val 0x020A epd 6 s && (let p := params (mbAt s mb.val); (
   let n := p16 p 4
   decide (1 ≤ n ∧ n ≤ 224 ∧ p32 p 0 + n ≤ 1048576))))),
  -- FE_TP_INJECT
  (let mb : Fin 8 := 2; let s := ask 2 0x020B (List.replicate 9 1) paddle
   (accepted mb.val 0x020B pOrD 9 s && (let p := params (mbAt s mb.val); (decide (p16 p 1 < 4096 ∧ p8 p 3 ≤ 31 ∧ 1 ≤ p16 p 4 ∧ 40 ≤ p16 p 6 ∧ p8 p 8 ≤ 1) && decide (¬ (s.fe.tp.isSome)))))),
  -- FE_CRAB_CONFIG
  (let mb : Fin 8 := 2; let s := ask 2 0x020C [0, 0, 0, 0, 0, 1, 0, 1, 0, 0, 0] easy
   (accepted mb.val 0x020C epd 11 s && (let p := params (mbAt s mb.val); decide (crabConfOk p = true)))),
  -- FE_CRAB_LIST
  (accepted 2 0x020D epd 2 (ask 2 0x020D [0, 0] easy)),
  -- FE_LEAK_CONFIG
  (let mb : Fin 8 := 2; let s := ask 2 0x020E (List.replicate 7 0) easy
   (accepted mb.val 0x020E epd 7 s && (let p := params (mbAt s mb.val); decide (leakEntryOk (bytesAt p 1 6) = true)))),
  -- FE_FRAME_CONFIG
  (let mb : Fin 8 := 2; let s := ask 2 0x020F (List.replicate 12 1) easy
   (accepted mb.val 0x020F epd 12 s && (let p := params (mbAt s mb.val); (
   let period := p32 p 0
   (
   let start := stampAt p 4
   decide (657 ≤ period)))))),
  -- FE_CHARGE_CAL
  (let mb : Fin 8 := 2; let s := ask 2 0x0210 [0, 1] (feWith id)
   (accepted mb.val 0x0210 pOrD 2 s && (let p := params (mbAt s mb.val); (decide (0 < p8 p 1 ∧ p8 p 0 + p8 p 1 ≤ 256) && (decide ((∀ k ∈ scanBlocks (p8 p 0) (p8 p 1), blockMode s k ≠ 0 ∧ inBlockJob s k = false)) && (decide (lowDeferred s = false) && decide (s.sys.jobs.length < 8))))))),
  -- FE_CHARGE_READ
  (accepted 2 0x0211 epd 1 (ask 2 0x0211 [0] easy)),
  -- FE_CHARGE_WRITE
  (accepted 2 0x0212 epd 67 (ask 2 0x0212 (List.replicate 67 0) easy)),
  -- FE_SCRUB_STATUS
  (accepted 2 0x0213 epdPri 1 (ask 2 0x0213 [0] easy)),
  -- FE_STATUS
  (accepted 2 0x0214 epdPri 1 (ask 2 0x0214 [0] easy))
  ] : List Bool).all id = true := by decide +kernel

/-- The hypotheses of every clause of TimingRuns are met. -/
theorem witness_timing_runs : ([
  -- BLOCK_COUNTER_CHECK
  ((fun (block : Nat) (seen : BitVec 16) (s : State) =>
     decide ((rowPowered s block && s.tc.strobe) = true)) 0 5 (feWith id)),
  -- INL_UPDATE
  ((fun (block : Nat) (s : State) =>
     decide (2 ^ 20 ≤ (tslice 0 s.tm.bins (128 * block) 128).foldl (· + ·) 0)) 0 (onTm (fun x => { x with bins := [(0, 0x100000)] }) easy)),
  -- TM_TEMP_UPDATE
  (let s := easy
   decide (awake s = true)),
  -- CAL_RUN_LATCH
  ((fun (sp per : Nat) (s : State) =>
     (
     let k := spBlock sp
     decide ((awake s && s.tc.strobe) = true))) 0 3 (onTm (fun x => { x with stale := [(0, 1)] }) paddle)),
  -- CAL_BAND_AGE_EXPIRY
  ((fun (block : Nat) (band : Fin 4) (s : State) =>
     decide ((awake s && decide (cfg16 s 0x0304 2 ≠ 0) && (tget none s.tm.calAt (4 * block + band)).isSome
           && !bit (tget 0 s.tm.aged block).toNat band) = true)) 0 0 (onTm (fun x => { x with calAt := [(0, some 0)] }) easy)),
  -- TM_STATUS
  (accepted 2 0x0300 epdPri 1 (ask 2 0x0300 [0] easy)),
  -- TM_CAL_STATUS
  (let mb : Fin 8 := 2; let s := ask 2 0x0301 [1, 1] easy
   (accepted mb.val 0x0301 epd 2 s && (let p := params (mbAt s mb.val); decide (1 ≤ p8 p 1 ∧ p8 p 1 ≤ 7 ∧ p8 p 0 + p8 p 1 ≤ 256)))),
  -- TM_CAL_RUN
  (let mb : Fin 8 := 2; let s := ask 2 0x0302 [1, 1, 1] easy
   (accepted mb.val 0x0302 epd 3 s && (let p := params (mbAt s mb.val); (
   let p := p.take 3 ++ (scanBlocks (p8 p 0) (p8 p 1)).flatMap (fun k => b1 (bandOf s k))
   (decide (1 ≤ p8 p 1 ∧ p8 p 0 + p8 p 1 ≤ 256 ∧ p8 p 2 ≤ 1) && (decide (lowDeferred s = false) && decide (s.sys.jobs.length < 8))))))),
  -- TM_BAND_CONFIG
  (let mb : Fin 8 := 2; let s := ask 2 0x0303 [0xB0, 4, 0x7E, 4, 0x4C, 4, 5] easy
   (accepted mb.val 0x0303 epd 7 s && (let p := params (mbAt s mb.val); decide (bandsOk p = true)))),
  -- TM_PERIOD_READ
  (let mb : Fin 8 := 2; let s := ask 2 0x0304 [1, 1, 1, 1] easy
   (accepted mb.val 0x0304 epd 4 s && (let p := params (mbAt s mb.val); decide (periodRange p = true)))),
  -- TM_PERIOD_WRITE
  (let mb : Fin 8 := 2; let s := ask 2 0x0305 [0, 0, 0, 1, 5, 0] easy
   (accepted mb.val 0x0305 epd 4 s && (let p := params (mbAt s mb.val); (
   let n := p8 p 3
   (
   let b := p8 p 2
   decide ((periodRange p && decide ((bytesAt p 4 (2 * n)).length = 2 * n)) = true)))))),
  -- TM_SKEW_READ
  (let mb : Fin 8 := 2; let s := ask 2 0x0306 [1, 1, 1, 1] easy
   (accepted mb.val 0x0306 epd 4 s && (let p := params (mbAt s mb.val); (
   let n := p8 p 2
   decide (1 ≤ n ∧ n ≤ 56 ∧ p16 p 0 + n ≤ 65536 ∧ p8 p 3 ≤ 1))))),
  -- TM_SKEW_WRITE
  (let mb : Fin 8 := 2; let s := ask 2 0x0307 [0, 0, 1, 0, 5, 0] easy
   (accepted mb.val 0x0307 epd 4 s && (let p := params (mbAt s mb.val); (
   let n := p8 p 2
   decide (1 ≤ n ∧ n ≤ 112 ∧ p16 p 0 + n ≤ 65536 ∧ (bytesAt p 4 (2 * n)).length = 2 * n))))),
  -- TM_WALK_READ
  (accepted 2 0x0308 epd 1 (ask 2 0x0308 [0] easy)),
  -- TM_WALK_WRITE
  (accepted 2 0x0309 epd 164 (ask 2 0x0309 (List.replicate 164 0) easy)),
  -- TM_WALK_CAL
  (let mb : Fin 8 := 2; let s := ask 2 0x030A [0, 1, 100, 0] (feWith id)
   (accepted mb.val 0x030A pOrD 4 s && (let p := params (mbAt s mb.val); (decide (0 < p8 p 1 ∧ p8 p 0 + p8 p 1 ≤ 256) && (decide (100 ≤ p16 p 2 ∧ p16 p 2 ≤ 10000) && (decide ((∀ k ∈ scanBlocks (p8 p 0) (p8 p 1), blockMode s k ≠ 0 ∧ (blockAt s k).scan = none)) && (decide (lowDeferred s = false) && decide (s.sys.jobs.length < 8)))))))),
  -- TM_SKEW_CAL
  (let mb : Fin 8 := 2; let s := ask 2 0x030B [1, 1, 1, 1, 1, 1] paddle
   (accepted mb.val 0x030B pOrD 6 s && (let p := params (mbAt s mb.val); (decide (1 ≤ p8 p 1 ∧ p8 p 0 + p8 p 1 ≤ 256 ∧ 1 ≤ p32 p 2) && (decide (lowDeferred s = false) && decide (s.sys.jobs.length < 8)))))),
  -- TM_INL_READ
  (accepted 2 0x030C epd 1 (ask 2 0x030C [0] easy)),
  -- TM_TEMP_CONFIG
  (let mb : Fin 8 := 2; let s := ask 2 0x030D [0, 0, 0, 0, 0] easy
   (accepted mb.val 0x030D epd 5 s && (let p := params (mbAt s mb.val); decide (tempSrcOk (p8 p 1) = true)))),
  -- TM_DROOP_READ
  (let mb : Fin 8 := 2; let s := ask 2 0x030E [1, 1] easy
   (accepted mb.val 0x030E epdPri 2 s && (let p := params (mbAt s mb.val); decide (1 ≤ p8 p 1 ∧ p8 p 1 ≤ 224 ∧ p8 p 0 + p8 p 1 ≤ 256)))),
  -- TM_STATS
  (accepted 2 0x030F epd 2 (ask 2 0x030F [0, 0] easy))
  ] : List Bool).all id = true := by decide +kernel

/-- The hypotheses of every clause of HitPathRuns are met. -/
theorem witness_hit_path_runs : ([
  -- HIT_FRAME_RECEIVED
  ((fun (block : Nat) (ecc : List TableCheck) (drop : Bool) (s : State) =>
     (
     let n := engineOf s (block / 16)
     (
     let s0 := drainInBuf n s
     (match ((blockAt s0 block).port) with
       | .hit f :: r1 => decide ((portOpen s0 block && (decide ((blockAt s0 block).sinceMark < 64) || unlimited s0 block)
               && (!drop || engineStalled s0 n)) = true)
       | _ => false)))) 0 [] false (feWith (fun x => { x with port := [.hit hit0] }))),
  -- WATERMARK_RECEIVED
  ((fun (block : Nat) (s : State) =>
     (match ((blockAt s block).port) with
       | .control 1 r1 w r2 r3 :: r4 => decide (portOpen s block = true)
       | _ => false)) 0 (feWith (fun x => { x with port := [.control 1 0 7 0 0] }))),
  -- PORT_LOSS_RECEIVED
  ((fun (block : Nat) (s : State) =>
     (match ((blockAt s block).port) with
       | .control 4 cause n a b :: r1 => decide (portOpen s block = true)
       | _ => false)) 0 (feWith (fun x => { x with port := [.control 4 3 2 0 0] }))),
  -- PORT_FRAMING_ERROR
  ((fun (block : Nat) (word0 : BitVec 16) (s : State) =>
     decide ((awake s && decide (block < 256) && framingError word0) = true)) 0 0x8000 easy),
  -- CLUSTER_CLOSE
  ((fun (engine : Fin 16) (first : Nat) (s : State) =>
     (
     let s0 := drainInBuf engine s
     (match ((engineAt s0 engine).clusters.find? (fun c => match c.hits with
       | h :: _ => decide (1024 * h.row + h.col = first)
       | [] => false)) with
       | some c => decide ((awake s0 && !engineStalled s0 engine && watermarksMet s0 engine c && nothingBelow s0 engine c) = true)
       | _ => false))) 0 0 (modEngine 0 (fun x => { x with clusters := [{ hits := [⟨0, 0, 0x100000, 0, 9, false, false, false, false, false, 5⟩] }] }) easy)),
  -- REORDER_RELEASE
  ((fun (q : Fin 16) (s : State) =>
     (match ((lossQAt s q).held) with
       | h :: r => (
         let s0 := reachUp h.due s
         decide ((awake s0 && !headStalls s0 q) = true))
       | _ => false)) 0 (modLossQ 0 (fun x => { x with held := [⟨0, 0, 0x100000, 0, .words 1 [1, 2], 1000⟩] }) easy)),
  -- BLOCK_OFF_RELEASE
  ((fun (q : Fin 16) (s : State) =>
     (match ((lossQAt s q).releasing) with
       | some (t, bs) => true
       | _ => false)) 0 (modLossQ 0 (fun x => { x with releasing := some (0x100190, []) }) easy)),
  -- EDGE_FRAG_RX
  ((fun (side : Fin 4) (f : EdgeFrag) (s : State) =>
     decide ((awake s && decide ((msideAt s side).state = 2) && (msideAt s side).owner) = true)) 0 ⟨0, 0, 1, 0, 0, 1, 0, 0, 0, 0, 0, 0⟩ (sideWith (fun x => { x with state := 2, owner := true }))),
  -- MERGE_REPLY_RX
  ((fun (side : Fin 4) (fragId : BitVec 16) (result : Nat) (s : State) =>
     (match (sentMerge s side fragId.toNat) with
       | some m => decide ((awake s && decide (result ≤ 2)) = true)
       | _ => false)) 0 7 2 (sideWith (fun x => { x with sent := [⟨7, closed0, 0, 0⟩] }))),
  -- MERGE_WAIT_EXPIRY
  ((fun (side : Fin 4) (fragId : BitVec 16) (s : State) =>
     (match ((msideAt s side).waiting.find? (fun m => decide (m.id = fragId.toNat))) with
       | some w => decide (awake s = true)
       | _ => false)) 0 7 (sideWith (fun x => { x with waiting := [⟨7, closed0, 0, 0⟩] }))),
  ((fun (side : Fin 4) (fragId : BitVec 16) (s : State) =>
     (match ((msideAt s side).waiting.find? (fun m => decide (m.id = fragId.toNat))) with
       | none => (match ((msideAt s side).kept.find? (fun m => decide (m.id = fragId.toNat))) with
           | some k => decide (awake s = true)
           | _ => false)
       | _ => false)) 0 7 (sideWith (fun x => { x with kept := [⟨7, closed0, 0, 0⟩] }))),
  -- MERGE_REPLY_TIMEOUT
  ((fun (side : Fin 4) (fragId : BitVec 16) (s : State) =>
     (match (sentMerge s side fragId.toNat) with
       | some m => decide (awake s = true)
       | _ => false)) 0 7 (sideWith (fun x => { x with sent := [⟨7, closed0, 0, 0⟩] }))),
  -- HP_STATUS
  (let mb : Fin 8 := 2; let s := ask 2 0x0400 [0] easy
   (accepted mb.val 0x0400 epdPri 1 s && (let p := params (mbAt s mb.val); (
   let n := p8 p 0
   decide (n < 16))))),
  -- HP_OUTPUT_SET
  (let mb : Fin 8 := 2; let s := ask 2 0x0401 [0, 0, 0] easy
   (accepted mb.val 0x0401 epd 3 s && (let p := params (mbAt s mb.val); decide (p8 p 2 ≤ 2)))),
  -- HP_CLUSTER_CONFIG
  (let mb : Fin 8 := 2; let s := ask 2 0x0402 [1, 0, 0, 0] easy
   (accepted mb.val 0x0402 epd 4 s && (let p := params (mbAt s mb.val); decide (clusterConfOk p = true)))),
  -- HP_LOSS_CONFIG
  (let mb : Fin 8 := 2; let s := ask 2 0x0403 [0, 1, 50, 10, 0, 0, 0, 0, 0, 0, 0, 0, 0] easy
   (accepted mb.val 0x0403 epd 13 s && (let p := params (mbAt s mb.val); (
   let q := p8 p 0
   (
   let v := bytesAt p 1 12
   decide ((decide (q < 16) && lossConfOk s q v) = true)))))),
  -- HP_LOSS_STATUS
  (let mb : Fin 8 := 2; let s := ask 2 0x0404 [0] easy
   (accepted mb.val 0x0404 epdPri 1 s && (let p := params (mbAt s mb.val); (
   let q := p8 p 0
   decide (q < 16))))),
  -- HP_GATE_CONFIG
  (let mb : Fin 8 := 2; let s := ask 2 0x0405 [0, 0, 0, 0, 0, 0] easy
   (accepted mb.val 0x0405 epd 6 s && (let p := params (mbAt s mb.val); (
   let v := bytesAt p 2 4
   decide (gateConfOk v = true))))),
  -- HP_MERGE_CONFIG
  (let mb : Fin 8 := 2; let s := ask 2 0x0406 [1, 1, 1, 1] easy
   (accepted mb.val 0x0406 epd 4 s && (let p := params (mbAt s mb.val); decide (mergeConfOk p = true)))),
  -- HP_MERGE_STATUS
  (accepted 2 0x0407 epd 0 (ask 2 0x0407 [] easy)),
  -- HP_REORDER_CONFIG
  (let mb : Fin 8 := 2; let s := ask 2 0x0408 [0xE8, 3] easy
   (accepted mb.val 0x0408 epd 2 s && (let p := params (mbAt s mb.val); decide (reorderConfOk p = true)))),
  -- HP_STATS
  (let mb : Fin 8 := 2; let s := ask 2 0x0409 [0, 0] easy
   (accepted mb.val 0x0409 epd 2 s && (let p := params (mbAt s mb.val); (
   let n := p8 p 0
   decide (n < 16))))),
  -- HP_TP_READ
  (let mb : Fin 8 := 2; let s := ask 2 0x040A [1, 0] easy
   (accepted mb.val 0x040A epd 2 s && (let p := params (mbAt s mb.val); decide (1 ≤ p16 p 0 ∧ p16 p 0 ≤ 27))))
  ] : List Bool).all id = true := by decide +kernel

/-- The hypotheses of every clause of TriggerEventsRun are met. -/
theorem witness_trigger_events_run : ([
  -- ADC_CAL_UPDATE
  ((fun (upd : List AdcUpdate) (s : State) =>
     decide (busyState s = true)) [] paddle),
  -- ADC_CONVERGE_TIMEOUT
  ((fun (patch : Nat) (s : State) =>
     decide ((busyState s && decide (patch < 64 ∧ (adcAt s patch).state = .converging)) = true)) 0 (modAdc 0 (fun a => { a with state := .converging }) paddle)),
  -- TRIGGER_FIRE
  ((fun (g : Nat) (xs : List PatchIn) (s : State) =>
     decide ((busyState s && s.tc.strobe) = true)) 0 [] paddle),
  -- HOLDOFF_END
  ((fun (unit : Fin 16) (s : State) =>
     (match ((unitAt s unit.val).holds) with
       | h :: rest => decide ((busyState s && unitPast s unit.val h.2) = true)
       | _ => false)) 0 (modUnit 0 (fun x => { x with holds := [(26214500, 26214600)] }) paddle)),
  -- SOFT_FIRE_TICK
  (let s := (onTr (fun x => { x with soft := [(1, 0x100190)] }) paddle)
   (match (s.tr.soft) with
     | (r1, t) :: r2 => decide (busyState s = true)
     | _ => false)),
  -- TRIGGER_RECORD_WRITE
  (let s := (onTr (fun x => { x with fires := [{ g := 26214400, off := 0, mask := 1, first := 0, patch := 0, ref := 0, frac := 0, units := 1, origin := 0, flags := 0, period := none, wants := true, waveId := 0, conf := [], raw := true, since := 0 }], hist := [(0, { newest := 26214400, samples := [5] })] }) paddle)
   (match (nextRecord s.tr.fires) with
     | some f => (
       let e := windowEnd f
       (
       let waits := coreWaits s f
       decide ((busyState s && (measPatches f.conf f.patch).all (fun p => decide (e ≤ (histAt s p).newest)) && waits.all (coreDone s)) = true)))
     | _ => false)),
  -- WAVE_CAPTURE_DONE
  ((fun (eng : Fin 4) (s : State) =>
     (match (tget none s.tr.capture eng.val) with
       | some c => decide ((busyState s && c.patches.all (fun p => decide (c.g + c.post ≤ (histAt s p).newest))) = true)
       | _ => false)) 0 (onTr (fun x => { x with capture := [(0, some { waveId := 1, g := 26214400, off := 0, patches := [0], pre := 1, post := 1, form := 0, deadband := 0, cal := false, unit := 0, units := 1 })], hist := [(0, { newest := 26214401, samples := [5] })] }) paddle)),
  -- TR_CONFIG_EFFECT
  (let s := (onTr (fun x => { x with pending := [(0, [1], 0x100190)] }) paddle)
   (match (s.tr.pending) with
     | p :: r1 => decide (busyState s = true)
     | _ => false)),
  -- TRIG_IN_EDGE
  ((fun (ns : Nat) (s : State) =>
     decide ((busyState s && decide (cfg8 s 0x0504 0 = 2)) = true)) 3 (onSys (fun x => { x with cfg := [(0x0504, some [2, 0, 0, 0])] }) paddle)),
  -- DOMAIN_ARM_RX
  ((fun (path : Fin 5) (w : BitVec 64) (s : State) =>
     (decide ((pathHears s path.val && decide (s.tr.domain.state ≠ .off)) = true) && (decide (domainCrcOk w = true ∧ field w.toNat 63 60 = 1) && (
     let u := when (decide (path.val < 4)) (slPacketIn path.val) s
     (decide (busyState u = true) && (
     let t := forwardWord w path.val u
     decide (isMaster t = false ∧ t.tr.domain.state ≠ .detached ∧ armKnown w t = false))))))) 4 (domainWord 1 1 2 16 0) (inDomain id)),
  -- DOMAIN_DISARM_RX
  ((fun (path : Fin 5) (w : BitVec 64) (s : State) =>
     (decide ((pathHears s path.val && decide (s.tr.domain.state ≠ .off)) = true) && (decide (domainCrcOk w = true ∧ field w.toNat 63 60 = 2) && (
     let u := when (decide (path.val < 4)) (slPacketIn path.val) s
     (decide (busyState u = true) && (
     let t := forwardWord w path.val u
     decide (t.tr.domain.state ≠ .detached))))))) 4 (domainWord 2 0 2 16 0) (inDomain id)),
  -- DOMAIN_FIRE_RX
  ((fun (path : Fin 5) (w : BitVec 64) (s : State) =>
     (decide ((pathHears s path.val && decide (s.tr.domain.state ≠ .off)) = true) && (decide (domainCrcOk w = true ∧ field w.toNat 63 60 = 3) && (
     let u := when (decide (path.val < 4)) (slPacketIn path.val) s
     (decide (busyState u = true) && (
     let t := forwardWord w path.val u
     (
     let d := t.tr.domain
     (
     let key := (field w.toNat 51 46, domainTick t w, field w.toNat 29 25)
     decide (field w.toNat 59 52 = d.seq ∧ (d.state = .armed ∨ d.state = .fired) ∧ d.seen.contains key = false))))))))) 4 (domainWord 3 0 2 16 0) (inDomain (fun d => { d with state := .armed }))),
  -- DOMAIN_BEAT_RX
  ((fun (path : Fin 5) (w : BitVec 64) (s : State) =>
     (decide ((pathHears s path.val && decide (s.tr.domain.state ≠ .off)) = true) && (decide (domainCrcOk w = true ∧ field w.toNat 63 60 = 4) && (
     let u := when (decide (path.val < 4)) (slPacketIn path.val) s
     decide (busyState u = true))))) 4 (domainWord 4 1 2 16 0) (inDomain id)),
  -- DOMAIN_BEAT_SEND
  (let s := (masterOf id)
   decide ((busyState s && isMaster s && s.tc.strobe && decide (s.tr.domain.state ≠ .off)) = true)),
  -- DOMAIN_BEAT_TIMEOUT
  (let s := (inDomain id)
   decide (s.tr.domain.state ≠ .off ∧ s.tr.domain.state ≠ .detached)),
  -- DOMAIN_ARM_TICK
  (let s := (inDomain (fun d => { d with armAt := some 0x100190 }))
   (match (s.tr.domain.armAt) with
     | some t => decide ((busyState s && decide (s.tr.domain.state ≠ .off)) = true)
     | _ => false)),
  -- DOMAIN_REARM
  (let s := (inDomain (fun d => { d with state := .fired, mode := 1, earliest := some 0x100000, rearm := 40 }))
   (match (s.tr.domain.earliest) with
     | some e => decide ((busyState s && decide (s.tr.domain.state = .fired ∧ s.tr.domain.mode = 1)) = true)
     | _ => false)),
  -- DOMAIN_DISARM_EFFECT
  (let s := (inDomain (fun d => { d with disarmAt := some 0x100190 }))
   (match (s.tr.domain.disarmAt) with
     | some t => decide (busyState s = true)
     | _ => false))
  ] : List Bool).all id = true := by decide +kernel

/-- The hypotheses of every clause of TriggerCallsRun are met. -/
theorem witness_trigger_calls_run : ([
  -- TR_STATUS
  (accepted 2 0x0500 epdPri 0 (ask 2 0x0500 [] easy)),
  -- TR_UNIT_CONFIG
  (let mb : Fin 8 := 2; let s := ask 2 0x0501 (List.replicate 68 0) easy
   (accepted mb.val 0x0501 epd 68 s && (let p := params (mbAt s mb.val); (
   let c := bytesAt p 4 64
   decide ((decide (p8 p 0 < 16) && unitConfOk c) = true))))),
  -- TR_UNIT_READ
  (let mb : Fin 8 := 2; let s := ask 2 0x0502 [0] easy
   (accepted mb.val 0x0502 epd 1 s && (let p := params (mbAt s mb.val); decide (p8 p 0 < 16)))),
  -- TR_UNIT_ENABLE
  (let mb : Fin 8 := 2; let s := ask 2 0x0503 [0, 0, 0, 0] easy
   (accepted mb.val 0x0503 epdPri 4 s && (let p := params (mbAt s mb.val); (
   let us := maskList 16 (p16 p 0 ||| p16 p 2)
   (
   let cs := us.map (fun u => (u, enabledConf s (p16 p 0) (p16 p 2) u))
   decide ((cs.all (fun c => unitConfOk c.2)) = true)))))),
  -- TR_PATCH_CONFIG
  (let mb : Fin 8 := 2; let s := ask 2 0x0504 [0, 1, 3] easy
   (accepted mb.val 0x0504 epd 2 s && (let p := params (mbAt s mb.val); (
   let first := p8 p 0
   (
   let n := p8 p 1
   (
   let v := bytesAt p 2 n
   decide ((decide (1 ≤ n ∧ first + n ≤ 64 ∧ v.length = n) && v.all (fun b => decide (b.toNat ≤ 3))) = true))))))),
  -- TR_ADC_STATUS
  (let mb : Fin 8 := 2; let s := ask 2 0x0505 [0] paddle
   (accepted mb.val 0x0505 pOrD 1 s && (let p := params (mbAt s mb.val); (
   let a := adcAt s (p8 p 0)
   decide (p8 p 0 < 64))))),
  -- TR_ADC_FREEZE
  (let mb : Fin 8 := 2; let s := ask 2 0x0506 (List.replicate 9 0) paddle
   (accepted mb.val 0x0506 pOrD 9 s && (let p := params (mbAt s mb.val); decide (p8 p 0 ≤ 1)))),
  -- TR_DOMAIN_CONFIG
  (let mb : Fin 8 := 2; let s := ask 2 0x0507 [1, 0, 16, 0, 40, 0, 1, 0] easy
   (accepted mb.val 0x0507 epd 8 s && (let p := params (mbAt s mb.val); decide (domainConfOk p = true)))),
  -- TR_ARM
  (let mb : Fin 8 := 2; let s := ask 2 0x0508 [1, 0, 40, 0] (masterOf id)
   (accepted mb.val 0x0508 pOrDPri 4 s && (let p := params (mbAt s mb.val); (decide (isMaster s = true) && (
   let lead := cfg16 s 0x0503 4
   decide (p8 p 0 ≤ 1 ∧ lead ≤ p16 p 2)))))),
  -- TR_DISARM
  (let mb : Fin 8 := 2; let s := ask 2 0x0509 [] (masterOf id)
   (accepted mb.val 0x0509 pOrDPri 0 s && (let p := params (mbAt s mb.val); decide (isMaster s = true)))),
  -- TR_DOMAIN_STATUS
  (accepted 2 0x050A epd 0 (ask 2 0x050A [] easy)),
  -- TR_SOFT_FIRE
  (let mb : Fin 8 := 2; let s := ask 2 0x050B (List.replicate 10 1) paddle
   (accepted mb.val 0x050B pOrD 10 s && (let p := params (mbAt s mb.val); (
   let t := stampAt p 2
   decide (aheadBy s 400 t = true))))),
  -- TR_STATS
  (let mb : Fin 8 := 2; let s := ask 2 0x050C [0, 0] easy
   (accepted mb.val 0x050C epd 2 s && (let p := params (mbAt s mb.val); (
   let u := p8 p 0
   decide (u < 16))))),
  -- TR_TRIGIO_CONFIG
  (let mb : Fin 8 := 2; let s := ask 2 0x050D [1, 1, 1, 1] easy
   (accepted mb.val 0x050D epd 4 s && (let p := params (mbAt s mb.val); decide (trigioOk p = true)))),
  -- TR_SAMPLE_READ
  (let mb : Fin 8 := 2; let s := ask 2 0x050E [0, 0, 1, 0] paddle
   (accepted mb.val 0x050E pOrD 4 s && (let p := params (mbAt s mb.val); (
   let patch := p8 p 0
   (
   let src := p8 p 1
   (
   let n := p16 p 2
   decide (patch < 64 ∧ src ≤ 4 ∧ 1 ≤ n ∧ n ≤ 112)))))))
  ] : List Bool).all id = true := by decide +kernel

/-- The hypotheses of every clause of WaveformArithmeticRuns are met. -/
theorem witness_waveform_arithmetic_runs : ([
  -- NOP
  ((fun (core : Fin 4) (s : State) =>
     decide (issues core.val 0x00 s = true)) 0 (weAt 0x0)),
  -- ADD
  ((fun (core : Fin 4) (s : State) =>
     decide (issues core.val 0x01 s = true)) 0 (weAt 0x200000000000000)),
  -- SUB
  ((fun (core : Fin 4) (s : State) =>
     decide (issues core.val 0x02 s = true)) 0 (weAt 0x400000000000000)),
  -- ADDS
  ((fun (core : Fin 4) (s : State) =>
     decide (issues core.val 0x03 s = true)) 0 (weAt 0x600000000000000)),
  -- SUBS
  ((fun (core : Fin 4) (s : State) =>
     decide (issues core.val 0x04 s = true)) 0 (weAt 0x800000000000000)),
  -- AND
  ((fun (core : Fin 4) (s : State) =>
     decide (issues core.val 0x05 s = true)) 0 (weAt 0xA00000000000000)),
  -- OR
  ((fun (core : Fin 4) (s : State) =>
     decide (issues core.val 0x06 s = true)) 0 (weAt 0xC00000000000000)),
  -- XOR
  ((fun (core : Fin 4) (s : State) =>
     decide (issues core.val 0x07 s = true)) 0 (weAt 0xE00000000000000)),
  -- SHL
  ((fun (core : Fin 4) (s : State) =>
     decide (issues core.val 0x08 s = true)) 0 (weAt 0x1000000000000000)),
  -- SHR
  ((fun (core : Fin 4) (s : State) =>
     decide (issues core.val 0x09 s = true)) 0 (weAt 0x1200000000000000)),
  -- SAR
  ((fun (core : Fin 4) (s : State) =>
     decide (issues core.val 0x0A s = true)) 0 (weAt 0x1400000000000000)),
  -- MIN
  ((fun (core : Fin 4) (s : State) =>
     decide (issues core.val 0x0B s = true)) 0 (weAt 0x1600000000000000)),
  -- MAX
  ((fun (core : Fin 4) (s : State) =>
     decide (issues core.val 0x0C s = true)) 0 (weAt 0x1800000000000000)),
  -- ABS
  ((fun (core : Fin 4) (s : State) =>
     decide (issues core.val 0x0D s = true)) 0 (weAt 0x1A00000000000000)),
  -- ADD2H
  ((fun (core : Fin 4) (s : State) =>
     decide (issues core.val 0x0E s = true)) 0 (weAt 0x1C00000000000000)),
  -- SUB2H
  ((fun (core : Fin 4) (s : State) =>
     decide (issues core.val 0x0F s = true)) 0 (weAt 0x1E00000000000000)),
  -- PACK
  ((fun (core : Fin 4) (s : State) =>
     decide (issues core.val 0x10 s = true)) 0 (weAt 0x2000000000000000)),
  -- CMPLT
  ((fun (core : Fin 4) (s : State) =>
     decide (issues core.val 0x11 s = true)) 0 (weAt 0x2200000000000000)),
  -- CMPEQ
  ((fun (core : Fin 4) (s : State) =>
     decide (issues core.val 0x12 s = true)) 0 (weAt 0x2400000000000000)),
  -- MOV
  ((fun (core : Fin 4) (s : State) =>
     decide (issues core.val 0x13 s = true)) 0 (weAt 0x2600000000000000)),
  -- MUL
  ((fun (core : Fin 4) (s : State) =>
     decide (issues core.val 0x18 s = true)) 0 (weAt 0x3000000000000000)),
  -- MUL2H
  ((fun (core : Fin 4) (s : State) =>
     decide (issues core.val 0x19 s = true)) 0 (weAt 0x3200000000000000)),
  -- MAC
  ((fun (core : Fin 4) (s : State) =>
     decide (issues core.val 0x1A s = true)) 0 (weAt 0x3400000000000000)),
  -- MSU
  ((fun (core : Fin 4) (s : State) =>
     decide (issues core.val 0x1B s = true)) 0 (weAt 0x3600000000000000)),
  -- MAC0
  ((fun (core : Fin 4) (s : State) =>
     decide (issues core.val 0x1C s = true)) 0 (weAt 0x3800000000000000)),
  -- CLRA
  ((fun (core : Fin 4) (s : State) =>
     decide (issues core.val 0x20 s = true)) 0 (weAt 0x4000000000000000)),
  -- ADDA
  ((fun (core : Fin 4) (s : State) =>
     decide (issues core.val 0x21 s = true)) 0 (weAt 0x4200000000000000)),
  -- MOVA
  ((fun (core : Fin 4) (s : State) =>
     decide (issues core.val 0x23 s = true)) 0 (weAt 0x4600000000000000))
  ] : List Bool).all id = true := by decide +kernel

/-- The hypotheses of every clause of WaveformControlRuns are met. -/
theorem witness_waveform_control_runs : ([
  -- MOVS
  ((fun (core : Fin 4) (s : State) =>
     (decide (issues core.val 0x14 s = true) && decide (movsForm (coreAt s core.val) (fetched (coreAt s core.val)) = true))) 0 (weAt 0x2800000000000000)),
  -- MOVSR
  ((fun (core : Fin 4) (s : State) =>
     decide (issues core.val 0x15 s = true)) 0 (weAt 0x2A00000000000000)),
  -- FTAP
  ((fun (core : Fin 4) (s : State) =>
     (decide (issues core.val 0x1D s = true) && decide (ftapForm (coreAt s core.val) (fetched (coreAt s core.val)) = true))) 0 (weAt 0x3A00000000000000)),
  -- FTAP0
  ((fun (core : Fin 4) (s : State) =>
     (decide (issues core.val 0x1E s = true) && decide (ftapForm (coreAt s core.val) (fetched (coreAt s core.val)) = true))) 0 (weAt 0x3C00000000000000)),
  -- LDA
  ((fun (core : Fin 4) (s : State) =>
     decide (issues core.val 0x22 s = true)) 0 (weAt 0x4400000000000000)),
  -- MOVAW
  ((fun (core : Fin 4) (s : State) =>
     decide (issues core.val 0x24 s = true)) 0 (weAt 0x4800000000000000)),
  -- IN
  ((fun (core : Fin 4) (s : State) =>
     (decide (issues core.val 0x28 s = true) && decide ((popInput core.val ((fetched (coreAt s core.val)).src1 % 16) (launched core.val s)).isSome = true))) 0 (onCore0 (fun x => { x with fifo := [(0, [(5, 0, 0)])] }) (weAt 0x5000000000000000))),
  -- OUT
  ((fun (core : Fin 4) (s : State) =>
     (decide (issues core.val 0x29 s = true) && decide ((bufferedOuts (coreAt (launched core.val s) core.val) ((fetched (coreAt s core.val)).dst % 16)).length < 64))) 0 (weAt 0x5200000000000000)),
  -- QPUT
  ((fun (core : Fin 4) (s : State) =>
     (decide (issues core.val 0x2A s = true) && decide (bufferWords (coreAt (flushRecords core.val (launched core.val s)) core.val) < 512))) 0 (weAt 0x5400000000000000)),
  -- QEND
  ((fun (core : Fin 4) (s : State) =>
     decide (issues core.val 0x2B s = true)) 0 (weAt 0x5600000000000000)),
  -- BR
  ((fun (core : Fin 4) (s : State) =>
     (decide (issues core.val 0x30 s = true) && decide (branchForm (coreAt s core.val) (fetched (coreAt s core.val)) = true))) 0 (weAt 0xE000000000000005)),
  -- BRZ
  ((fun (core : Fin 4) (s : State) =>
     (decide (issues core.val 0x31 s = true) && decide (branchForm (coreAt s core.val) (fetched (coreAt s core.val)) = true))) 0 (weAt 0xE200000000000005)),
  -- BRNZ
  ((fun (core : Fin 4) (s : State) =>
     (decide (issues core.val 0x32 s = true) && decide (branchForm (coreAt s core.val) (fetched (coreAt s core.val)) = true))) 0 (weAt 0xE400000000000005)),
  -- CALL
  ((fun (core : Fin 4) (s : State) =>
     (decide (issues core.val 0x33 s = true) && decide (branchForm (coreAt s core.val) (fetched (coreAt s core.val)) = true))) 0 (weAt 0xE600000000000005)),
  -- RET
  ((fun (core : Fin 4) (s : State) =>
     (decide (issues core.val 0x34 s = true) && (
     let x := coreAt s core.val
     decide ((!inPloop x) = true)))) 0 (weAt 0x6800000000000000)),
  -- LOOP
  ((fun (core : Fin 4) (s : State) =>
     (decide (issues core.val 0x35 s = true) && (
     let x := coreAt s core.val
     (
     let i := fetched x
     decide ((decide (i.dst ≠ 0) && !inPloop x) = true))))) 0 (weAt 0xEA00610000000004)),
  -- PLOOP
  ((fun (core : Fin 4) (s : State) =>
     (decide (issues core.val 0x36 s = true) && (
     let x := coreAt s core.val
     (
     let i := fetched x
     decide ((decide (i.dst ≠ 0 ∧ 1 ≤ i.src1 ∧ i.src1 ≤ 16) && !inPloop x) = true))))) 0 (weAt 0xEC00610000000004)),
  -- WAIT
  ((fun (core : Fin 4) (s : State) =>
     decide (issues core.val 0x37 s = true)) 0 (weAt 0x6E00000000000000)),
  -- RTI
  ((fun (core : Fin 4) (s : State) =>
     decide (issues core.val 0x38 s = true)) 0 (weAt 0x7000000000000000)),
  -- SWI
  ((fun (core : Fin 4) (s : State) =>
     decide (issues core.val 0x39 s = true)) 0 (weAt 0x7200000000000000)),
  -- HALT
  ((fun (core : Fin 4) (s : State) =>
     decide (issues core.val 0x3A s = true)) 0 (weAt 0x7400000000000000))
  ] : List Bool).all id = true := by decide +kernel

/-- The hypotheses of every clause of WaveformCallsRun are met. -/
theorem witness_waveform_calls_run : ([
  -- WE_IN_RESUME
  ((fun (core : Fin 4) (s : State) =>
     (match (nextReady (coreAt s core.val)) with
       | some ready => (decide ((coreAt s core.val).state = .running ∧ (coreAt s core.val).stall = some .input) && decide (busyState s = true))
       | _ => false)) 0 (onCore0 (fun x => { x with stall := some .input, fifo := [(0, [(5, 0, 0)])] }) (weAt 0x5000000000000000))),
  -- WE_OUT_RESUME
  ((fun (core : Fin 4) (s : State) =>
     (decide ((coreAt s core.val).state = .running ∧ (coreAt s core.val).stall = some .output) && decide (busyState s = true))) 0 (onCore0 (fun x => { x with stall := some .output }) (weAt 0x5200000000000000))),
  -- WE_QPUT_RESUME
  ((fun (core : Fin 4) (s : State) =>
     (decide ((coreAt s core.val).state = .running ∧ (coreAt s core.val).stall = some .qput) && (decide (busyState s = true) && (
     let f := flushRecords core.val s
     decide (bufferWords (coreAt f core.val) < 512))))) 0 (onCore0 (fun x => { x with stall := some .qput }) (weAt 0x5400000000000000))),
  -- WE_IRQ_LEVEL1
  ((fun (core : Fin 4) (s : State) =>
     (
     let x := coreAt s core.val
     (match (irqSource (coreAt (irqReach core.val 1 s) core.val) 1) with
       | some k => decide ((decide (x.state = .running ∧ weLevel x ≠ 1) && busyState s) = true)
       | _ => false))) 0 (onCore0 (fun x => { x with ien := 1, ipend := 1, ilvl := 1 }) (weAt 0))),
  -- WE_IRQ_LEVEL2
  ((fun (core : Fin 4) (s : State) =>
     (match (irqSource (coreAt (irqReach core.val 2 s) core.val) 2) with
       | some k => decide ((decide ((coreAt s core.val).state = .running ∧ weLevel (coreAt s core.val) = 0) && busyState s) = true)
       | _ => false)) 0 (onCore0 (fun x => { x with ien := 1, ipend := 1 }) (weAt 0))),
  -- WE_INPUT_SAMPLE
  ((fun (core : Fin 4) (ch : Fin 16) (g : Nat) (s : State) =>
     (
     let x := coreAt s core.val
     (
     let c := inChan x ch.val
     (
     let d := 2 ^ c.2.1
     (match (rawGroup s c.1 d g) with
       | some xs => decide ((busyState s && decide (c.2.2.2 = 1 ∧ (g + 1) % d = 0)) = true)
       | _ => false))))) 0 0 26214400 (onTr (fun x => { x with hist := [(0, { newest := 26214400, samples := [5] })] }) (onCore0 (fun x => { x with header := tput 0 51 1 x.header }) (weAt 0)))),
  -- WE_STATUS
  (let mb : Fin 8 := 2; let s := ask 2 0x0600 [0] easy
   (accepted mb.val 0x0600 epdPri 1 s && (let p := params (mbAt s mb.val); (
   let x := coreAt s (p8 p 0)
   decide (p8 p 0 < 4))))),
  -- WE_LOAD_BEGIN
  (let mb : Fin 8 := 2; let s := ask 2 0x0601 [0] paddle
   (accepted mb.val 0x0601 pOrD 1 s && (let p := params (mbAt s mb.val); (
   let n := p8 p 0
   (decide (n < 4) && decide ((coreAt s n).state ≠ .running ∧ (coreAt s n).state ≠ .deferred)))))),
  -- WE_LOAD_DATA
  (let mb : Fin 8 := 2; let s := ask 2 0x0602 [0, 1, 8, 0, 0, 0, 0, 0, 1, 2, 3, 4, 5, 6, 7, 8] (onCore0 (fun x => { x with loading := true }) paddle)
   (accepted mb.val 0x0602 pOrD 8 s && (let p := params (mbAt s mb.val); (
   let n := p8 p 0
   (
   let sp := p8 p 1
   (
   let cnt := p16 p 2
   (
   let off := spaceOffset sp (p32 p 4)
   (
   let data := bytesAt p 8 cnt
   (decide (n < 4 ∧ sp ≤ 4 ∧ 1 ≤ cnt ∧ cnt ≤ 224 ∧ data.length = cnt ∧ off + cnt ≤ spaceSize sp) && decide ((coreAt s n).loading = true)))))))))),
  -- WE_LOAD_END
  (let mb : Fin 8 := 2; let s := ask 2 0x0603 [0] paddle
   (accepted mb.val 0x0603 pOrD 1 s && (let p := params (mbAt s mb.val); (
   let n := p8 p 0
   (decide (n < 4) && (
   let x := coreAt s n
   (decide (x.state = .off ∨ x.state = .stopped ∨ x.state = .fault) && (
   let r := rejectReason x
   decide (r ≠ 0))))))))),
  (let mb : Fin 8 := 2; let s := ask 2 0x0603 [0] (onCore0 (fun x => { x with loading := true, header := tfill 0 112 ((List.range 16).flatMap (fun _ => [0xFF, 0, 0, 0])) (tfill 0 0 [0x54, 0x50, 0x47, 0x4B, 1, 0, 0, 0, 0, 0, 0, 0, 1] []) }) paddle)
   (accepted mb.val 0x0603 pOrD 1 s && (let p := params (mbAt s mb.val); (
   let n := p8 p 0
   (decide (n < 4) && (
   let x := coreAt s n
   (decide (x.state = .off ∨ x.state = .stopped ∨ x.state = .fault) && (
   let r := rejectReason x
   decide (¬ (r ≠ 0)))))))))),
  -- WE_START
  (let mb : Fin 8 := 2; let s := ask 2 0x0604 [0] paddle
   (accepted mb.val 0x0604 pOrD 1 s && (let p := params (mbAt s mb.val); decide (p8 p 0 < 16)))),
  -- WE_STOP
  (let mb : Fin 8 := 2; let s := ask 2 0x0605 [0] easy
   (accepted mb.val 0x0605 epdPri 1 s && (let p := params (mbAt s mb.val); decide (p8 p 0 < 16)))),
  -- WE_MEM_READ
  (let mb : Fin 8 := 2; let s := ask 2 0x0606 [0, 0, 1, 0, 0, 0, 0, 0] paddle
   (accepted mb.val 0x0606 pOrD 8 s && (let p := params (mbAt s mb.val); (
   let sp := p8 p 1
   (
   let cnt := p16 p 2
   (
   let off := spaceOffset sp (p32 p 4)
   decide (p8 p 0 < 4 ∧ sp ≤ 4 ∧ 1 ≤ cnt ∧ cnt ≤ 224 ∧ off + cnt ≤ spaceSize sp))))))),
  -- WE_PARAM_WRITE
  (let mb : Fin 8 := 2; let s := ask 2 0x0607 [0, 2, 4, 0, 0, 0, 0, 0, 1, 2, 3, 4] (weAt 0)
   (accepted mb.val 0x0607 pOrD 8 s && (let p := params (mbAt s mb.val); (
   let n := p8 p 0
   (
   let sp := p8 p 1
   (
   let cnt := p16 p 2
   (
   let off := p32 p 4
   (
   let data := bytesAt p 8 cnt
   decide (n < 4 ∧ 2 ≤ sp ∧ sp ≤ 4 ∧ 1 ≤ cnt ∧ cnt ≤ 224 ∧ data.length = cnt ∧ off + cnt ≤ spaceSize sp))))))))),
  -- WE_REG_READ
  (let mb : Fin 8 := 2; let s := ask 2 0x0608 [0, 1, 1] (onCore0 (fun x => { x with state := .stopped }) paddle)
   (accepted mb.val 0x0608 pOrD 3 s && (let p := params (mbAt s mb.val); (
   let x := coreAt s (p8 p 0)
   (
   let r := bankOf x (p8 p 1)
   (decide (p8 p 0 < 4 ∧ p8 p 1 ≤ 1 ∧ p8 p 2 ≤ 1) && decide (x.state = .stopped ∨ x.state = .fault))))))),
  -- WE_SIGNAL
  (let mb : Fin 8 := 2; let s := ask 2 0x0609 [0, 0, 0, 0, 0] paddle
   (accepted mb.val 0x0609 pOrDPri 5 s && (let p := params (mbAt s mb.val); decide (p8 p 0 < 4)))),
  -- WE_STATS
  (let mb : Fin 8 := 2; let s := ask 2 0x060A [0, 0] easy
   (accepted mb.val 0x060A epd 2 s && (let p := params (mbAt s mb.val); (
   let n := p8 p 0
   (
   let x := coreAt s n
   decide (n < 4)))))),
  -- WE_PATROL_SCRUB
  ((fun (core : Fin 4) (space word : Nat) (syndrome : BitVec 16) (ups : List (Nat × Nat)) (s : State) =>
     decide ((decide ((coreAt s core.val).state ≠ .off ∧ 1 ≤ space ∧ space ≤ 4) && busyState s) = true)) 0 1 3 5 [] (weAt 0))
  ] : List Bool).all id = true := by decide +kernel

/-- The hypotheses of every clause of BufferAndCompressionRun are met. -/
theorem witness_buffer_and_compression_run : ([
  -- FRAME_CLOSE_TIMEOUT
  ((fun (q : Fin 16) (source kind : Nat) (s : State) =>
     (match (openFrame s q source kind) with
       | some o => decide ((queueAt s q).state ≠ 3 ∧ (queueAt s q).state ≠ 4)
       | _ => false)) 0 0 1 (queueWith (fun x => { x with opens := [⟨1, 0, false, false, 0x100000, 0, 1, [1, 2, 3, 4], 0⟩] }))),
  -- DRAIN
  ((fun (q : Fin 16) (s : State) =>
     decide (canDrain s q = true)) 0 (queueWith (fun x => { x with w := 64 }))),
  -- SPILL
  ((fun (q : Fin 16) (s : State) =>
     decide (canSpill s q = true)) 0 (queueWith (fun x => { x with w := 65536, refill := 0, r := 0, chunks := [[0]], spill := 0 }))),
  -- REFILL
  ((fun (q : Fin 16) (ups : List WordUpset) (s : State) =>
     decide ((s.bb.layer && decide ((queueAt s q).chunks ≠ [] ∧ (queueAt s q).refill + 65536 ≤ (queueAt s q).r + 262144)) = true)) 0 [] (queueWith (fun x => { x with w := 65536, spill := 65536, chunks := [List.range 16] }))),
  -- POINTER_CHECK
  ((fun (q : Fin 16) (upset : Option PointerUpset) (s : State) =>
     decide ((queueAt s q).state ≠ 3)) 0 none easy),
  -- QUEUE_RESET_COMPLETE
  ((fun (q : Fin 16) (s : State) =>
     decide ((queueAt s q).state = 3)) 0 (queueWith (fun x => { x with state := 3 }))),
  -- SCRUB_LINE_VISIT
  ((fun (line : Nat) (upset : Option LineUpset) (s : State) =>
     (
     let range := (rangeJob s line).isSome
     decide ((s.bb.layer && !s.bb.selfRefresh && awake s && tget false s.bb.valid (line / 128)
           && (range || (decide (cfg16 s 0x0703 0 ≠ 0 ∧ patrolLine s = some line) && !lowDeferred s))) = true))) 0 none (onBb (fun x => { x with valid := [(0, true)] }) easy)),
  -- SRAM_SCRUB
  ((fun (found : List SramUpset) (s : State) =>
     decide (awake s = true)) [] easy),
  -- BB_STATUS
  (let mb : Fin 8 := 2; let s := ask 2 0x0700 [0] easy
   (accepted mb.val 0x0700 epdPri 1 s && (let p := params (mbAt s mb.val); decide (p8 p 0 < 16)))),
  -- BB_QUEUE_MAP_SET
  (let mb : Fin 8 := 2; let s := ask 2 0x0701 (List.replicate 12 0) easy
   (accepted mb.val 0x0701 epd 12 s && (let p := params (mbAt s mb.val); (
   let q := p8 p 0
   (
   let e := mapEntry (bytesAt p 4 8)
   decide ((decide (q < 16) && mapChangeOk s q e) = true)))))),
  -- BB_QUEUE_MAP_GET
  (accepted 2 0x0702 epd 0 (ask 2 0x0702 [] easy)),
  -- BB_REGION_SET
  (let mb : Fin 8 := 2; let s := ask 2 0x0703 (List.replicate 32 0) easy
   (accepted mb.val 0x0703 epd 32 s && (let p := params (mbAt s mb.val); (decide (regionsOk p = true) && (
   let sizes := regionSizes p
   (decide (resizeFree s sizes = true) && decide (resizeSpares s sizes = true))))))),
  -- BB_REGION_GET
  (accepted 2 0x0704 epd 0 (ask 2 0x0704 [] easy)),
  -- BB_HOLD_OUTPUT
  (accepted 2 0x0705 epdPri 4 (ask 2 0x0705 [0, 0, 0, 0] easy)),
  -- BB_FLUSH
  (accepted 2 0x0706 epd 2 (ask 2 0x0706 [0, 0] easy)),
  -- BB_RESET
  (let mb : Fin 8 := 2; let s := ask 2 0x0707 [0] easy
   (accepted mb.val 0x0707 epd 1 s && (let p := params (mbAt s mb.val); decide (p8 p 0 < 16)))),
  -- BB_PEEK
  (let mb : Fin 8 := 2; let s := ask 2 0x0708 [0, 0, 0, 0] easy
   (accepted mb.val 0x0708 epd 4 s && (let p := params (mbAt s mb.val); decide (p8 p 0 < 16)))),
  -- BB_STATS
  (let mb : Fin 8 := 2; let s := ask 2 0x0709 [0, 0] easy
   (accepted mb.val 0x0709 epd 2 s && (let p := params (mbAt s mb.val); decide (p8 p 0 < 16)))),
  -- MEM_STATUS
  (accepted 2 0x070A epdPri 0 (ask 2 0x070A [] easy)),
  -- MEM_SCRUB_CONFIG
  (let mb : Fin 8 := 2; let s := ask 2 0x070B [1, 1, 1] easy
   (accepted mb.val 0x070B epd 3 s && (let p := params (mbAt s mb.val); decide (patrolOk p = true)))),
  -- MEM_SCRUB_RANGE
  (let mb : Fin 8 := 2; let s := ask 2 0x070C (List.replicate 12 0) easy
   (accepted mb.val 0x070C epd 12 s && (let p := params (mbAt s mb.val); (
   let r := p8 p 0
   (
   let size := if r < 16 then regionPages s r else 2097152
   (decide ((r < 16 ∨ r = 0xFF) ∧ p32 p 4 < size ∧ p32 p 4 + p32 p 8 ≤ size) && (decide (lowDeferred s = false) && decide (s.sys.jobs.length < 8)))))))),
  -- MEM_SCRUB_SUMMARY
  (let mb : Fin 8 := 2; let s := ask 2 0x070D [0xFF, 0xFF] (onBb (fun x => { x with lastPatrol := some {} }) easy)
   (accepted mb.val 0x070D epd 2 s && (let p := params (mbAt s mb.val); (decide (p16 p 0 = 0xFFFF) && (match (s.bb.lastPatrol) with
     | some x => true
     | _ => false))))),
  (let mb : Fin 8 := 2; let s := ask 2 0x070D [5, 0] (onBb (fun x => { x with ranges := [(5, some {})] }) easy)
   (accepted mb.val 0x070D epd 2 s && (let p := params (mbAt s mb.val); (decide (¬ (p16 p 0 = 0xFFFF)) && (match (tget none s.bb.ranges (p16 p 0)) with
     | some x => true
     | _ => false))))),
  -- MEM_DEFECT_READ
  (accepted 2 0x070E epd 2 (ask 2 0x070E [0, 0] easy)),
  -- MEM_CHECKER_WRITE
  (let mb : Fin 8 := 2; let s := ask 2 0x070F (List.replicate 40 0) easy
   (accepted mb.val 0x070F epd 40 s && (let p := params (mbAt s mb.val); (
   let target := p8 p 0
   (
   let data := leNat (bytesAt p 8 32)
   (
   let clean := cleanCheck data (p16 p 2)
   (decide ((checkerOk target (p16 p 2) && decide (p8 p 1 ≤ 1)) = true) && decide (target = 0 ∨ (queueAt s (target - 1)).state = 0)))))))),
  -- MEM_CHECKER_READ
  (let mb : Fin 8 := 2; let s := ask 2 0x0710 [0, 0, 0, 0] easy
   (accepted mb.val 0x0710 epd 4 s && (let p := params (mbAt s mb.val); decide ((checkerOk (p8 p 0) (p16 p 2) && decide (p8 p 1 ≤ 1)) = true)))),
  -- MEM_TRAIN
  (let mb : Fin 8 := 2; let s := ask 2 0x0711 [] easy
   (accepted mb.val 0x0711 epd 0 s && (let p := params (mbAt s mb.val); (decide (((List.range 16).all (fun q => decide ((queueAt s q).chunks = []))) = true) && (decide (lowDeferred s = false) && decide (s.sys.jobs.length < 8)))))),
  -- CX_UNIT_CODE
  ((fun (unit : Fin 2) (q : Fin 16) (s : State) =>
     (match (frameReady s q.val) with
       | some f => (
         let s1 := cxSettle q.val f (reachUp (divUp (tget 0 s.cx.freeAt unit.val) 55) s)
         (decide (¬ (!serves s1 unit.val q.val)) && (
         let s2 := when (decide (s1.sys.power = .easy)) (onCx (fun x => { x with awake := true })) s1
         (match (takeFrame q.val f s2) with
           | (none, s3) => true
           | _ => false))))
       | _ => false)) 0 0 (coding [(0, { data := 3 })])),
  ((fun (unit : Fin 2) (q : Fin 16) (s : State) =>
     (match (frameReady s q.val) with
       | some f => (
         let s1 := cxSettle q.val f (reachUp (divUp (tget 0 s.cx.freeAt unit.val) 55) s)
         (decide (¬ (!serves s1 unit.val q.val)) && (
         let s2 := when (decide (s1.sys.power = .easy)) (onCx (fun x => { x with awake := true })) s1
         (match (takeFrame q.val f s2) with
           | (some (g, poison), s3) => (
             let s4 := codeFrame q.val unit.val g poison s3
             decide (bufsFit s4 unit.val = true))
           | _ => false))))
       | _ => false)) 0 0 (coding [])),
  -- CX_BUFFER_CLOSE_TIMEOUT
  ((fun (unit : Fin 2) (q : Fin 16) (s : State) =>
     (match (openBuf (unitBufs s unit.val) q.val) with
       | some b => decide (awake s = true)
       | _ => false)) 0 0 (onCx (fun x => { x with bufs := [(0, [⟨0, 0, 1, false, false, false, false, 0, 0x100000, 0, 1, [], 0⟩])] }) easy)),
  -- CX_IDLE_GATE
  (let s := (onCx (fun x => { x with awake := true }) easy)
   decide ((decide (s.sys.power = .easy) && s.cx.awake) = true)),
  -- CX_STATUS
  (let mb : Fin 8 := 2; let s := ask 2 0x0800 [0] easy
   (accepted mb.val 0x0800 epdPri 1 s && (let p := params (mbAt s mb.val); (
   let u := p8 p 0
   (
   let w := (tget [] s.cx.work u).filter (fun e => decide (s.up < e.1 + ms 1000))
   decide (u ≤ 1)))))),
  -- CX_QUEUE_CONFIG
  (let mb : Fin 8 := 2; let s := ask 2 0x0801 [0, 0, 0, 0, 0] easy
   (accepted mb.val 0x0801 epd 5 s && (let p := params (mbAt s mb.val); (
   let c := cxEntry (p.drop 1)
   decide ((decide (p8 p 0 < 16) && cxEntryOk c) = true))))),
  -- CX_QUEUE_GET
  (accepted 2 0x0802 epd 0 (ask 2 0x0802 [] easy)),
  -- CX_CHAIN_READ
  (let mb : Fin 8 := 2; let s := ask 2 0x0803 [1, 1, 1] easy
   (accepted mb.val 0x0803 epd 3 s && (let p := params (mbAt s mb.val); decide (p8 p 0 ≤ 1 ∧ 1 ≤ p8 p 2 ∧ p8 p 2 ≤ 7 ∧ p8 p 1 + p8 p 2 ≤ 64)))),
  -- CX_STATS
  (let mb : Fin 8 := 2; let s := ask 2 0x0804 [0, 0] easy
   (accepted mb.val 0x0804 epd 2 s && (let p := params (mbAt s mb.val); (
   let q := p8 p 0
   decide (q < 16))))),
  -- CX_CODE_TEST
  (let mb : Fin 8 := 2; let s := ask 2 0x0805 [0, 1, 1, 0, 5, 0] easy
   (accepted mb.val 0x0805 epd 4 s && (let p := params (mbAt s mb.val); (
   let n := p16 p 2
   (
   let vs := (List.range n).map (fun i => u16At p (4 + 2 * i))
   decide (p8 p 0 ≤ 3 ∧ 1 ≤ p8 p 1 ∧ p8 p 1 ≤ 64 ∧ 1 ≤ n ∧ n ≤ 48 ∧ 4 + 2 * n ≤ p.length)))))),
  -- MEM_LAYER_IDLE_SELF_REFRESH
  (let s := easy
   decide ((decide (s.sys.power = .easy) && s.bb.layer && !s.bb.selfRefresh) = true)),
  -- CX_STALLED
  ((fun (unit : Fin 2) (s : State) =>
     (match (tget none s.cx.fullAt unit.val) with
       | some t => decide ((awake s && decide (64 ≤ (unitBufs s unit.val).length)) = true)
       | _ => false)) 0 (onCx (fun x => { x with fullAt := [(0, some 99990000)], bufs := [(0, (List.range 64).map (fun k => ⟨k, 0, 1, true, false, false, false, 0, 0x100000, 0, 1, [], 0⟩))] }) easy))
  ] : List Bool).all id = true := by decide +kernel

/-- The hypotheses of every clause of LaneEventsRun are met. -/
theorem witness_lane_events_run : ([
  -- LANE_SIGNAL_DETECT
  ((fun (lane : Fin 16) (s : State) =>
     decide ((nativeLane s lane && laneIn s lane .detect) = true)) 0 (laneWith (fun x => { x with state := .detect }))),
  -- LANE_BLOCK_LOCK
  ((fun (lane : Fin 20) (s : State) =>
     true) 0 easy),
  -- LANE_LOCK_LOST
  ((fun (lane : Fin 20) (s : State) =>
     true) 0 easy),
  -- NEG_ADV_RX
  ((fun (lane : Fin 16) (v : BitVec 16) (s : State) =>
     decide ((nativeLane s lane && laneIn s lane .rate) = true)) 0 0 (laneWith (fun x => { x with state := .rate }))),
  -- NEG_FEC_RX
  ((fun (lane : Fin 16) (v : BitVec 16) (s : State) =>
     decide ((nativeLane s lane && laneIn s lane .fec) = true)) 0 3 (laneWith (fun x => { x with state := .fec }))),
  -- NEG_GROUP_RX
  ((fun (lane : Fin 16) (v : BitVec 16) (s : State) =>
     decide ((nativeLane s lane && laneIn s lane .group) = true)) 0 0 (laneWith (fun x => { x with state := .group }))),
  -- NEG_MAP_RX
  ((fun (lane : Fin 16) (v : BitVec 16) (s : State) =>
     decide ((nativeLane s lane && laneIn s lane .map) = true)) 0 15 (laneWith (fun x => { x with state := .map }))),
  -- NEG_READY_RX
  ((fun (lane : Fin 16) (s : State) =>
     decide ((nativeLane s lane && laneIn s lane .map) = true)) 0 (laneWith (fun x => { x with state := .map }))),
  -- NEG_RATE_REQ_RX
  ((fun (lane : Fin 16) (v : BitVec 16) (s : State) =>
     (
     let g := groupOfLane lane
     decide ((nativeLane s lane && (groupAt s g).running && laneIn s lane .running) = true))) 0 1 linked),
  -- NEG_RATE_ACK_RX
  ((fun (lane : Fin 16) (v : BitVec 16) (s : State) =>
     (
     let g := groupOfLane lane
     decide ((nativeLane s lane && (groupAt s g).running && (groupAt s g).rateReq.isSome) = true))) 0 1 (modGroup 0 (fun g => { g with rateReq := some (1, .lower) }) linked)),
  -- ALIGN_MARKER_RX
  ((fun (lane : Fin 16) (d : BitVec 24) (skew : Int) (s : State) =>
     decide ((laneIn s lane .align || laneIn s lane .running || laneIn s lane .eth) = true)) 0 0 0 linked),
  -- ALIGN_MARKER_SEND
  ((fun (g : Fin 4) (s : State) =>
     decide (groupMode s g = 1 ∧ usedLanes s g ≠ [])) 0 linked),
  -- MARKER_MISSED
  ((fun (lane : Fin 16) (s : State) =>
     decide (laneIn s lane .running = true)) 0 linked),
  -- FEC_CODEWORD_UNCORRECTABLE
  ((fun (lane : Fin 16) (s : State) =>
     decide ((laneAt s lane).fecOn = true)) 0 (laneWith (fun x => { x with fecOn := true }))),
  -- LANE_RATE_DWELL_TIMEOUT
  ((fun (lane : Fin 16) (s : State) =>
     decide (laneIn s lane .rate = true)) 0 (laneWith (fun x => { x with state := .rate }))),
  -- LANE_TX_OFF_END
  ((fun (lane : Fin 16) (s : State) =>
     decide (laneIn s lane .txOff = true)) 0 (laneWith (fun x => { x with state := .txOff }))),
  -- LANE_FEC_TIMEOUT
  ((fun (lane : Fin 16) (s : State) =>
     decide (laneIn s lane .fec = true)) 0 (laneWith (fun x => { x with state := .fec }))),
  -- GROUP_TIMEOUT
  ((fun (g : Fin 4) (s : State) =>
     (
     let ls := (groupLanes g).filter (fun l => laneIn s l .group)
     decide ((decide (groupMode s g = 1 ∧ ls ≠ []) && !(groupAt s g).running) = true))) 0 (laneWith (fun x => { x with state := .group }))),
  -- ALIGN_TIMEOUT
  ((fun (g : Fin 4) (s : State) =>
     (
     let ls := usedLanes s g
     decide ((ls.any (fun l => laneIn s l .align)) = true))) 0 (modGroup 0 (fun g => { g with lanes := 1 }) (laneWith (fun x => { x with state := .align })))),
  -- MAP_TIMEOUT
  ((fun (g : Fin 4) (s : State) =>
     (
     let ls := (usedLanes s g).filter (fun l => laneIn s l .map && !(laneAt s l).ready)
     decide (ls ≠ []))) 0 (modGroup 0 (fun g => { g with lanes := 1 }) (laneWith (fun x => { x with state := .map })))),
  -- RATE_REQ_TIMEOUT
  ((fun (g : Fin 4) (s : State) =>
     decide (((groupAt s g).rateReq.isSome) = true)) 0 (modGroup 0 (fun g => { g with rateReq := some (1, .lower) }) linked)),
  -- REGROUP_TIMEOUT
  ((fun (lane : Fin 16) (s : State) =>
     decide (laneIn s lane .group = true)) 0 (laneWith (fun x => { x with state := .group })))
  ] : List Bool).all id = true := by decide +kernel

/-- The hypotheses of every clause of PacketEventsRun are met. -/
theorem witness_packet_events_run : ([
  -- PACKET_SEND
  ((fun (g : Fin 4) (out : WordCheck) (ups : List WordUpset) (s : State) =>
     decide ((!s.sys.por) = true)) 0 .good [] easy),
  -- RX_PACKET_BAD
  ((fun (g : Fin 4) (s : State) =>
     decide ((groupAt s g).running = true)) 0 linked),
  -- RX_RESERVED_STREAM
  ((fun (g : Fin 4) (stream : Nat) (s : State) =>
     decide (((groupAt s g).running && decide (24 ≤ stream ∧ stream < 32)) = true)) 0 24 linked),
  -- NAK_RX
  ((fun (g : Fin 4) (payload : List Byte) (s : State) =>
     decide ((groupAt s g).running = true)) 0 [1, 0, 0, 0] linked),
  -- NAK_GROUP_WAIT_EXPIRY
  ((fun (g : Fin 4) (s : State) =>
     (match ((groupAt s g).nakWait) with
       | w :: r1 => decide ((!(groupAt s g).running) = true)
       | _ => false)) 0 (modGroup 0 (fun g => { g with nakWait := [(1, 2, 0, 0)] }) easy)),
  -- TAIL_SEND
  ((fun (g : Fin 4) (s : State) =>
     decide ((groupAt s g).running = true)) 0 linked),
  -- ARP_REQUEST_RX
  ((fun (g : Fin 4) (targetIp : Word) (senderMac : BitVec 48) (senderIp : Word) (s : State) =>
     decide (groupMode s g = 2)) 0 0 5 6 ether),
  -- ARP_REPLY_RX
  ((fun (g : Fin 4) (senderIp : Word) (mac : BitVec 48) (s : State) =>
     decide (groupMode s g = 2)) 0 0 5 ether),
  -- ARP_RETRY
  ((fun (g : Fin 4) (s : State) =>
     decide ((decide (groupMode s g = 2) && (staticMac s g).isNone) = true)) 0 ether),
  -- ARP_FAIL_TIMEOUT
  ((fun (g : Fin 4) (s : State) =>
     decide ((decide (groupMode s g = 2) && (groupAt s g).mac.isNone) = true)) 0 ether),
  -- PAUSE_RX
  ((fun (g : Fin 4) (quanta : BitVec 16) (s : State) =>
     decide (groupMode s g = 2)) 0 9 ether),
  -- PAUSE_EXPIRY
  ((fun (g : Fin 4) (s : State) =>
     decide ((groupAt s g).pause ≠ 0)) 0 (modGroup 0 (fun g => { g with pause := 9, pauseAt := 100000000 }) ether)),
  -- ETH_FRAME_DISCARD
  ((fun (g : Fin 4) (s : State) =>
     decide (groupMode s g = 2)) 0 ether),
  -- SL_HELLO_RX
  ((fun (side : Fin 4) (v : BitVec 16) (s : State) =>
     decide (2 ≤ (slinkAt s side).state)) 0 0 (slinkWith (fun x => { x with state := 2 }))),
  -- SL_HELLO_SEND
  ((fun (side : Fin 4) (s : State) =>
     decide ((slinkAt s side).state = 4)) 0 (slinkWith (fun x => { x with state := 4 }))),
  -- SL_HELLO_TIMEOUT
  ((fun (side : Fin 4) (s : State) =>
     decide (3 ≤ (slinkAt s side).state)) 0 (slinkWith (fun x => { x with state := 3 }))),
  -- PRBS_CHECKER_LOCK
  ((fun (lane : Fin 16) (rx : BitVec 1024) (s : State) =>
     (
     let x := laneAt s lane
     decide ((laneIn s lane .test && !x.prbsLock && prbsFollows x.prbs.1 x.prbs.2 rx) = true))) 0 0x9249249200000004000000480000041000004920000400400048048004104100492492040000044800004C1000045920004D2040044844804C14C1045965924D2492004800040410004849200414004049680484045041484DA4961441004D6C92044C10044C59204C5D20445D6844CD6C54C54C1DE5DE59E596592D92492082 (laneWith (fun x => { x with state := .test, prbs := (0, false) }))),
  -- PRBS_LOCK_LOST
  ((fun (lane : Fin 16) (errors : Nat) (bad : BitVec 1024) (s : State) =>
     decide ((laneIn s lane .test && (laneAt s lane).prbsLock && decide (256 ≤ onesOf bad.toNat 1024)) = true)) 0 256 (BitVec.ofNat 1024 (2 ^ 256 - 1)) (laneWith (fun x => { x with state := .test, prbsLock := true })))
  ] : List Bool).all id = true := by decide +kernel

/-- The hypotheses of every clause of LinkCallsRun are met. -/
theorem witness_link_calls_run : ([
  -- LK_STATUS
  (let mb : Fin 8 := 2; let s := ask 2 0x0900 [0] easy
   (accepted mb.val 0x0900 epdPri 1 s && (let p := params (mbAt s mb.val); decide (p8 p 0 < 4)))),
  -- LK_LANE_STATUS
  (let mb : Fin 8 := 2; let s := ask 2 0x0901 [0] easy
   (accepted mb.val 0x0901 epd 1 s && (let p := params (mbAt s mb.val); decide (p8 p 0 < 16)))),
  -- LK_CONFIG
  (let mb : Fin 8 := 2; let s := ask 2 0x0902 (List.replicate 9 1) easy
   (accepted mb.val 0x0902 epd 9 s && (let p := params (mbAt s mb.val); (
   let v := bytesAt p 1 8
   decide ((decide (p8 p 0 < 4) && laneEntryOk v) = true))))),
  -- LK_RENEGOTIATE
  (let mb : Fin 8 := 2; let s := ask 2 0x0903 [0] easy
   (accepted mb.val 0x0903 epd 1 s && (let p := params (mbAt s mb.val); decide (p8 p 0 < 16)))),
  -- LK_RATE_SET
  (let mb : Fin 8 := 2; let s := ask 2 0x0904 [0, 1] (onSys (fun x => { x with power := .paddle }) linked)
   (accepted mb.val 0x0904 pOrD 2 s && (let p := params (mbAt s mb.val); (decide (p8 p 0 < 4 ∧ p8 p 1 ≤ 3) && (decide (((groupAt s (p8 p 0)).running && decide (groupMode s (p8 p 0) = 1)) = true) && decide (¬ ((groupAt s (p8 p 0)).rateReq.isSome))))))),
  -- LK_CLASS_CONFIG
  (let mb : Fin 8 := 2; let s := ask 2 0x0905 [0, 0, 0, 0] easy
   (accepted mb.val 0x0905 epd 4 s && (let p := params (mbAt s mb.val); decide (classMapOk p = true)))),
  -- LK_TC2_WEIGHT_SET
  (let mb : Fin 8 := 2; let s := ask 2 0x0906 (List.replicate 16 1) easy
   (accepted mb.val 0x0906 epd 16 s && (let p := params (mbAt s mb.val); decide (weightsOk p = true)))),
  -- LK_PACKET_CLOSE_SET
  (let mb : Fin 8 := 2; let s := ask 2 0x0907 [0, 1, 0, 0] easy
   (accepted mb.val 0x0907 epd 4 s && (let p := params (mbAt s mb.val); decide (packetCloseOk p = true)))),
  -- LK_REPECHAGE_CLEAR
  (let mb : Fin 8 := 2; let s := ask 2 0x0908 [0] easy
   (accepted mb.val 0x0908 epd 1 s && (let p := params (mbAt s mb.val); decide (p8 p 0 < 16)))),
  -- LK_PRBS_CONFIG
  (let mb : Fin 8 := 2; let s := ask 2 0x0909 [1, 1, 1, 1] easy
   (accepted mb.val 0x0909 epd 4 s && (let p := params (mbAt s mb.val); (decide (p8 p 0 < 16 ∧ p8 p 1 ≤ 4 ∧ p8 p 2 ≤ 3 ∧ p8 p 3 ≤ 1) && (
   let l := p8 p 0
   (
   let g := groupOfLane l
   decide (p8 p 1 ≠ 0))))))),
  (let mb : Fin 8 := 2; let s := ask 2 0x0909 [0, 0, 0, 0] (laneWith (fun x => { x with state := .test }))
   (accepted mb.val 0x0909 epd 4 s && (let p := params (mbAt s mb.val); (decide (p8 p 0 < 16 ∧ p8 p 1 ≤ 4 ∧ p8 p 2 ≤ 3 ∧ p8 p 3 ≤ 1) && (
   let l := p8 p 0
   (
   let g := groupOfLane l
   (decide (¬ (p8 p 1 ≠ 0)) && decide (laneIn s l .test)))))))),
  (let mb : Fin 8 := 2; let s := ask 2 0x0909 [0, 0, 0, 0] easy
   (accepted mb.val 0x0909 epd 4 s && (let p := params (mbAt s mb.val); (decide (p8 p 0 < 16 ∧ p8 p 1 ≤ 4 ∧ p8 p 2 ≤ 3 ∧ p8 p 3 ≤ 1) && (
   let l := p8 p 0
   (
   let g := groupOfLane l
   (decide (¬ (p8 p 1 ≠ 0)) && decide (¬ (laneIn s l .test))))))))),
  -- LK_PRBS_INJECT_SINGLE
  (let mb : Fin 8 := 2; let s := ask 2 0x090A [0, 0, 0, 0] linked
   (accepted mb.val 0x090A epd 4 s && (let p := params (mbAt s mb.val); (decide (p8 p 0 < 16 ∧ p8 p 1 = 0) && decide ((laneIn s (p8 p 0) .test || laneIn s (p8 p 0) .running) = true))))),
  -- LK_PRBS_INJECT_BURST
  (let mb : Fin 8 := 2; let s := ask 2 0x090A [0, 1, 64, 0] linked
   (accepted mb.val 0x090A epd 4 s && (let p := params (mbAt s mb.val); (decide (p8 p 0 < 16 ∧ p8 p 1 = 1) && (decide (1 ≤ p16 p 2 ∧ p16 p 2 ≤ 64) && decide ((laneIn s (p8 p 0) .test || laneIn s (p8 p 0) .running) = true)))))),
  -- LK_PRBS_INJECT_RATE
  (let mb : Fin 8 := 2; let s := ask 2 0x090A [0, 2, 30, 0] linked
   (accepted mb.val 0x090A epd 4 s && (let p := params (mbAt s mb.val); (decide (p8 p 0 < 16 ∧ p8 p 1 = 2) && (decide (10 ≤ p16 p 2 ∧ p16 p 2 ≤ 30) && decide ((laneIn s (p8 p 0) .test || laneIn s (p8 p 0) .running) = true)))))),
  -- LK_PRBS_INJECT_STOP
  (let mb : Fin 8 := 2; let s := ask 2 0x090A [0, 3, 0, 0] linked
   (accepted mb.val 0x090A epd 4 s && (let p := params (mbAt s mb.val); (decide (p8 p 0 < 16 ∧ p8 p 1 = 3) && decide ((laneIn s (p8 p 0) .test || laneIn s (p8 p 0) .running) = true))))),
  -- LK_PRBS_READ
  (let mb : Fin 8 := 2; let s := ask 2 0x090B [0, 0] easy
   (accepted mb.val 0x090B epd 2 s && (let p := params (mbAt s mb.val); decide (p8 p 0 < 16)))),
  -- LK_ETH_CONFIG
  (let mb : Fin 8 := 2; let s := ask 2 0x090C ([0] ++ List.replicate 26 0 ++ [0x28, 0x23]) ether
   (accepted mb.val 0x090C epd 29 s && (let p := params (mbAt s mb.val); (
   let v := bytesAt p 1 28
   decide (p8 p 0 < 4 ∧ ethEntryOk v = true))))),
  -- LK_ETH_STATUS
  (let mb : Fin 8 := 2; let s := ask 2 0x090D [0] easy
   (accepted mb.val 0x090D epd 1 s && (let p := params (mbAt s mb.val); decide (p8 p 0 < 4)))),
  -- LK_SL_STATUS
  (let mb : Fin 8 := 2; let s := ask 2 0x090E [0] easy
   (accepted mb.val 0x090E epdPri 1 s && (let p := params (mbAt s mb.val); decide (p8 p 0 < 4)))),
  -- LK_SL_CONFIG
  (let mb : Fin 8 := 2; let s := ask 2 0x090F [0] easy
   (accepted mb.val 0x090F epd 1 s && (let p := params (mbAt s mb.val); decide (p8 p 0 < 16)))),
  -- LK_STATS
  (let mb : Fin 8 := 2; let s := ask 2 0x0910 [0, 0] easy
   (accepted mb.val 0x0910 epd 2 s && (let p := params (mbAt s mb.val); decide (p8 p 0 < 4)))),
  -- LK_TC0_LOAD
  (accepted 2 0x0911 epdPri 0 (ask 2 0x0911 [] easy))
  ] : List Bool).all id = true := by decide +kernel

/-- The hypotheses of every clause of TimeEventsRun are met. -/
theorem witness_time_events_run : ([
  -- TIME_TMR_VOTE
  ((fun (upset : List TimeUpset) (s : State) =>
     decide (s.tc.strobe = true)) [] easy),
  -- FREQ_SOURCE_WATCHDOG
  ((fun (src : Fin 3) (s : State) =>
     decide (s.tc.strobe = true)) 0 easy),
  -- FREQ_WINDOW_CHECK
  ((fun (src : Fin 3) (ppb : Int) (s : State) =>
     decide ((s.tc.strobe && (decide (src.val ≠ 2) || (laneAt s 0).lock)) = true)) 0 0 easy),
  -- OCXO_RDY_FALL
  (let s := (timeWith (fun x => { x with ocxoRdy := true }))
   decide ((s.tc.ocxoRdy && s.tc.strobe) = true)),
  -- OCXO_WARM_HOLD_EXPIRY
  (let s := (timeWith (fun x => { x with ocxoRdy := true, ocxoSince := some 90000000, src := [(2, { present := true })] }))
   (match (s.tc.ocxoSince) with
     | some t => decide (s.tc.strobe = true)
     | _ => false)),
  -- FREQ_RESTORE_TIMER
  ((fun (src : Nat) (s : State) =>
     (match (tget none s.tc.usable src) with
       | some t => decide ((s.tc.strobe && freqUsable s src && decide (s.tc.freqSrc ≠ 0 ∧ freqRank s src < freqRank s s.tc.freqSrc
               ∧ cfg16 s 0x0A01 10 ≠ 0xFFFF)) = true)
       | _ => false)) 1 (timeWith (fun x => { x with freqSrc := 2, src := [(1, { present := true })], usable := [(1, some 90000000)] }))),
  -- FREQ_LOCK_CHECK
  ((fun (diff : Nat) (want : Int) (s : State) =>
     decide ((s.tc.strobe && decide (s.tc.freqSrc ≠ 0)) = true)) 5 3 (timeWith (fun x => { x with freqSrc := 1 }))),
  -- TIME_SYNC_RX
  ((fun (g : Fin 4) (payload : List Byte) (t2 : FineTime) (s : State) =>
     (decide (((groupAt s g).running && s.tc.strobe) = true) && (decide (timeLayout payload = true ∧ byteAt payload 0 = 1) && (decide (timeGroup s 1 1 g = true) && (
     let r := stampNow t2 s
     (decide (fromMaster r.2 (u32At payload 4) = true) && (
     let u := onTc (fun x => { x with logInt := signed 8 (byteAt payload 18) }) r.2
     decide (mayRequest u = true)))))))) 0 ([1, 0, 1, 0, 9, 0, 0, 0] ++ List.replicate 12 0 ++ [0, 0, 0, 0] ++ List.replicate 8 0) ⟨0, 0⟩ following),
  -- TIME_FOLLOW_UP_RX
  ((fun (g : Fin 4) (payload : List Byte) (s : State) =>
     (decide (((groupAt s g).running && s.tc.strobe) = true) && (decide (timeLayout payload = true ∧ byteAt payload 0 = 2) && (decide (timeGroup s 1 1 g = true) && decide (fromMaster s (u32At payload 4) = true))))) 0 ([2, 0, 1, 0, 9, 0, 0, 0] ++ List.replicate 12 0 ++ [0, 0, 0, 0] ++ List.replicate 8 0) following),
  -- TIME_DELAY_RESP_RX
  ((fun (g : Fin 4) (payload : List Byte) (s : State) =>
     (decide (((groupAt s g).running && s.tc.strobe) = true) && (decide (timeLayout payload = true ∧ byteAt payload 0 = 4) && (decide (timeGroup s 1 1 g = true) && decide (fromMaster s (u32At payload 4) = true ∧ u32At payload 20 = serialLo s))))) 0 ([4, 0, 1, 0, 9, 0, 0, 0] ++ List.replicate 12 0 ++ [0x11, 0x11, 0x11, 0x11] ++ List.replicate 8 0) following),
  -- TIME_ANNOUNCE_RX
  ((fun (g : Fin 4) (payload : List Byte) (s : State) =>
     (decide (((groupAt s g).running && s.tc.strobe) = true) && (decide (timeLayout payload = true ∧ byteAt payload 0 = 5) && decide (timeGroup s 1 1 g = true)))) 0 ([5, 0, 1, 0, 9, 0, 0, 0] ++ List.replicate 12 0 ++ [0, 0, 0, 0] ++ List.replicate 8 0) following),
  -- TIME_EXCHANGE_TIMEOUT
  (let s := (timeWith (fun x => { x with exch := [⟨0, 1, none, ⟨0, 0⟩, 0, none, none, (0, 0)⟩] }))
   (match (s.tc.exch) with
     | e :: r1 => decide (s.tc.strobe = true)
     | _ => false)),
  -- MASTER_ANNOUNCE_TIMEOUT
  ((fun (master : Word) (s : State) =>
     (match (s.tc.masters.find? (fun m => decide (m.sender % 2 ^ 32 = master.toNat))) with
       | some m => decide (s.tc.strobe = true)
       | _ => false)) 9 following),
  -- TIME_HOLDOVER_TIMEOUT
  (let s := (timeWith (fun x => { x with timeState := .sync }))
   decide (s.tc.timeState = .sync)),
  -- TIME_STEP_EDGE
  (let s := easy
   decide (s.tc.strobe = true)),
  -- PTP_SYNC_RX
  ((fun (g : Fin 4) (payload : List Byte) (t2 : FineTime) (s : State) =>
     (decide (((groupAt s g).running && timeGroup s 2 2 g) = true) && (decide (ptpOther payload = false ∧ ptpFormed payload = true ∧ ptpType payload = 0) && (decide (ptpDomain payload = cfg8 s 0x0A03 0) && (
     let r := stampNow t2 s
     (decide (fromMaster r.2 (ptpSender payload) = true) && (
     let u := onTc (fun x => { x with logInt := signed 8 (byteAt payload 33) }) r.2
     decide (mayRequest u = true)))))))) 0 [0, 2, 0, 44, 0, 0, 0, 0, 0, 0, 0, 0, 0, 0, 0, 0, 0, 0, 0, 0, 0, 0, 0, 0, 0, 0, 0, 0, 0, 9, 0, 0, 0, 0, 0, 0, 0, 0, 0, 0, 0, 0, 0, 0] ⟨0, 0⟩ ptpEasy),
  -- PTP_FOLLOW_UP_RX
  ((fun (g : Fin 4) (payload : List Byte) (s : State) =>
     (decide (((groupAt s g).running && timeGroup s 2 2 g) = true) && (decide (ptpOther payload = false ∧ ptpFormed payload = true ∧ ptpType payload = 8) && (decide (ptpDomain payload = cfg8 s 0x0A03 0) && decide (fromMaster s (ptpSender payload) = true))))) 0 [8, 2, 0, 44, 0, 0, 0, 0, 0, 0, 0, 0, 0, 0, 0, 0, 0, 0, 0, 0, 0, 0, 0, 0, 0, 0, 0, 0, 0, 9, 0, 0, 0, 0, 0, 0, 0, 0, 0, 0, 0, 0, 0, 0] ptpEasy),
  -- PTP_DELAY_RESP_RX
  ((fun (g : Fin 4) (payload : List Byte) (s : State) =>
     (decide (((groupAt s g).running && timeGroup s 2 2 g) = true) && (decide (ptpOther payload = false ∧ ptpFormed payload = true ∧ ptpType payload = 9) && (decide (ptpDomain payload = cfg8 s 0x0A03 0) && decide (fromMaster s (ptpSender payload) = true ∧ bytesAt payload 44 10 = portIdentity s g))))) 0 [9, 2, 0, 54, 0, 0, 0, 0, 0, 0, 0, 0, 0, 0, 0, 0, 0, 0, 0, 0, 0, 0, 0, 0, 0, 0, 0, 0, 0, 9, 0, 0, 0, 0, 0, 0, 0, 0, 0, 0, 0, 0, 0, 0, 2, 208, 17, 255, 254, 17, 17, 0, 0, 1] ptpEasy),
  -- PTP_ANNOUNCE_RX
  ((fun (g : Fin 4) (payload : List Byte) (s : State) =>
     (decide (((groupAt s g).running && timeGroup s 2 2 g) = true) && (decide (ptpOther payload = false ∧ ptpFormed payload = true ∧ ptpType payload = 11) && decide (ptpDomain payload = cfg8 s 0x0A03 0)))) 0 [11, 2, 0, 64, 0, 0, 0, 0, 0, 0, 0, 0, 0, 0, 0, 0, 0, 0, 0, 0, 0, 0, 0, 0, 0, 0, 0, 0, 0, 9, 0, 0, 0, 0, 0, 0, 0, 0, 0, 0, 0, 0, 0, 0, 0, 0, 0, 0, 0, 0, 0, 0, 0, 0, 0, 0, 0, 0, 0, 0, 0, 0, 0, 0] ptpEasy),
  -- PPS_IN_EDGE
  ((fun (t : FineTime) (s : State) =>
     decide ((s.tc.strobe && decide (timeSrc s = 3)) = true)) ⟨0x100010, 0⟩ (onSys (fun x => { x with cfg := [(0x0A02, some [3, 15])] }) easy)),
  -- PPS_LOSS_TIMEOUT
  (let s := (timeWith (fun x => { x with ppsPresent := true }))
   decide (s.tc.ppsPresent = true)),
  -- PPS_OUT_PULSE
  (let s := (timeWith (fun x => { x with ppsOut := true }))
   decide ((s.tc.strobe && (s.tc.ppsOut || decide (cfg8 s 0x0A04 6 = 1))) = true)),
  -- TI_EDGE
  ((fun (input : Fin 4) (t : FineTime) (s : State) =>
     decide ((s.tc.strobe && decide (byteAt (tiConf s input) 0 ≠ 0)) = true)) 0 ⟨0x100010, 0⟩ (onSys (fun x => { x with cfg := [(0x0A05, some [1, 0, 0, 0, 0, 0, 0, 0, 1, 0, 0, 0])] }) easy)),
  -- FREQ_GATE_END
  ((fun (input : Fin 4) (s : State) =>
     decide ((s.tc.strobe && (tiAt s input).gate.isSome) = true)) 0 (modTi 0 (fun x => { x with gate := some ⟨1, 0x100000, 1, false, [], 0, (0, 0)⟩ }) easy)),
  -- OCXO_RDY_RISE
  (let s := easy
   decide ((!s.tc.ocxoRdy && s.tc.strobe) = true))
  ] : List Bool).all id = true := by decide +kernel

/-- The hypotheses of every clause of TimeCallsRun are met. -/
theorem witness_time_calls_run : ([
  -- TIME_STATUS
  (accepted 2 0x0A00 epdPri 0 (ask 2 0x0A00 [] easy)),
  -- TIME_NOW
  (accepted 2 0x0A01 epdPri 0 (ask 2 0x0A01 [] easy)),
  -- TIME_FREQ_CONFIG
  (let mb : Fin 8 := 2; let s := ask 2 0x0A02 (List.replicate 16 1) easy
   (accepted mb.val 0x0A02 epd 16 s && (let p := params (mbAt s mb.val); decide (freqConfOk p = true)))),
  -- TIME_SERVO_CONFIG
  (let mb : Fin 8 := 2; let s := ask 2 0x0A03 (List.replicate 24 1) easy
   (accepted mb.val 0x0A03 epd 24 s && (let p := params (mbAt s mb.val); decide (servoConfOk s p = true)))),
  -- TIME_SET
  (let mb : Fin 8 := 2; let s := ask 2 0x0A04 [0, 0, 0, 0, 0x20, 0, 0, 0, 0, 0, 0, 0, 0x20, 0, 0, 0] (onSys (fun x => { x with cfg := [(0x0A02, some [0])] }) easy)
   (accepted mb.val 0x0A04 epd 16 s && (let p := params (mbAt s mb.val); (decide (timeSrc s = 0 ∨ timeSrc s = 3) && (decide (¬ (s.tc.step.isSome)) && decide (s.tc.now.toNat < (stampAt p 0).toNat)))))),
  -- TIME_PTP_CONFIG
  (let mb : Fin 8 := 2; let s := ask 2 0x0A05 (List.replicate 16 0) easy
   (accepted mb.val 0x0A05 epd 16 s && (let p := params (mbAt s mb.val); decide (ptpConfOk p = true)))),
  -- TIME_PPS_CONFIG
  (let mb : Fin 8 := 2; let s := ask 2 0x0A06 [0, 0, 0, 0, 100, 0, 1, 0, 0, 0, 0, 0, 40, 0, 0, 0] easy
   (accepted mb.val 0x0A06 epd 16 s && (let p := params (mbAt s mb.val); decide (ppsConfOk p = true)))),
  -- TI_CONFIG
  (let mb : Fin 8 := 2; let s := ask 2 0x0A07 [0, 0, 0, 0, 1, 0, 0, 0, 0, 0, 0, 0, 1, 0, 0, 0] easy
   (accepted mb.val 0x0A07 epd 16 s && (let p := params (mbAt s mb.val); decide ((decide (p8 p 0 < 4) && tiConfOk (bytesAt p 4 12)) = true)))),
  -- TI_STAMP_READ
  (let mb : Fin 8 := 2; let s := ask 2 0x0A08 [1, 1] easy
   (accepted mb.val 0x0A08 epd 2 s && (let p := params (mbAt s mb.val); decide (p8 p 0 < 4 ∧ 1 ≤ p8 p 1 ∧ p8 p 1 ≤ 27)))),
  -- SPLIT_CONFIG
  (let mb : Fin 8 := 2; let s := ask 2 0x0A09 (List.replicate 12 1) easy
   (accepted mb.val 0x0A09 epd 12 s && (let p := params (mbAt s mb.val); decide ((decide (p8 p 0 < 4 ∧ p8 p 1 < 4 ∧ p8 p 2 < 4 ∧ p8 p 3 ≤ 1 ∧ 1 ≤ p32 p 8 ∧ p32 p 8 ≤ 1000000000)
         && decide (tiPrescale s (p8 p 1) = 1 ∧ tiPrescale s (p8 p 2) = 1)) = true)))),
  -- SPLIT_READ
  (let mb : Fin 8 := 2; let s := ask 2 0x0A0A [0, 0, 0, 0] easy
   (accepted mb.val 0x0A0A epd 4 s && (let p := params (mbAt s mb.val); decide (p8 p 0 < 4 ∧ p16 p 2 ≤ 24)))),
  -- FREQ_START
  (let mb : Fin 8 := 2; let s := ask 2 0x0A0B [0, 0, 0, 0, 0, 0, 0, 0, 0, 0, 1, 0, 0, 0] easy
   (accepted mb.val 0x0A0B epd 14 s && (let p := params (mbAt s mb.val); (
   let t := stampAt p 2
   (
   let next := decide (uAt 6 p 4 = 0)
   (decide ((decide (p8 p 0 < 4 ∧ p8 p 1 ≤ 1 ∧ 1 ≤ p32 p 10 ∧ p32 p 10 ≤ 1000000) && (next || decide (s.tc.now.toNat < t.toNat))) = true) && (decide (¬ ((tiAt s (p8 p 0)).gate.isSome)) && decide (s.sys.jobs.length < 8)))))))),
  -- FREQ_READ
  (let mb : Fin 8 := 2; let s := ask 2 0x0A0C [0, 0] easy
   (accepted mb.val 0x0A0C epd 2 s && (let p := params (mbAt s mb.val); decide (p8 p 0 < 4 ∧ p8 p 1 ≤ 15)))),
  -- FREQ_STOP
  (let mb : Fin 8 := 2; let s := ask 2 0x0A0D [0] easy
   (accepted mb.val 0x0A0D epd 1 s && (let p := params (mbAt s mb.val); decide (p8 p 0 < 4)))),
  -- TIME_STATS
  (accepted 2 0x0A0E epd 1 (ask 2 0x0A0E [0] easy))
  ] : List Bool).all id = true := by decide +kernel

/-- The hypotheses of every clause of PowerEventsRun are met. -/
theorem witness_power_events_run : ([
  -- GOVERNOR_EVAL
  ((fun (p : Nat) (s : State) =>
     decide ((s.sys.windowReady && !s.sys.por) = true)) 0 easy),
  -- GOVERNOR_STEP2_TICK
  (let s := easy
   decide ((s.sys.windowReady && !governorBusy s) = true)),
  -- GOVERNOR_RESTORE_RETRY
  (let s := easy
   decide ((s.sys.windowReady && !stepOn s 2 && !governorBusy s) = true)),
  -- THERMAL_SCAN
  ((fun (temps : List Int) (s : State) =>
     decide ((s.sys.windowReady && !s.sys.por) = true)) [] easy),
  -- THROTTLE_STEP_TIMER
  (let s := (powerWith (fun x => { x with throttle := some 1, steps := 1, temp := (List.range 24).map (fun n => (n, 1000)) }))
   decide ((s.pw.throttle.isSome && decide (950 ≤ tHot s)) = true)),
  -- SHUTDOWN_HOLD_TIMEOUT
  (let s := (onPw (fun x => { x with latch := true }) (phase 1))
   decide ((s.pw.latch && (match s.pw.change with
       | some c => decide (c.target = 1 ∧ c.phase ≤ 2)
       | none => false)) = true)),
  -- THERMAL_LATCH_CLEAR
  (let s := (powerWith (fun x => { x with latch := true, below85 := some 0 }))
   decide ((s.pw.latch && s.pw.below85.isSome) = true)),
  -- AUTO_RATE_WINDOW
  (let s := (onSys (fun x => { x with cfg := [(0x0B03, some ([1, 3] ++ b4 10000000 ++ b2 1 ++ b4 1000000 ++ b2 100))] }) easy)
   decide ((awake s && decide (cfg8 s 0x0B03 0 = 1)) = true)),
  -- WAKE_TIMER_FIRE
  ((fun (n : Fin 4) (s : State) =>
     decide ((tget none s.pw.wake n.val).isSome = true)) 0 (powerWith (fun x => { x with wake := [(0, some (2, 0x100100))] }))),
  -- QUEUE_SAVE
  (let s := (phase 1)
   decide (inPhase s 1 = true)),
  -- HOLD_REACHED
  (let s := (phase 2)
   decide ((inPhase s 2 && !linksBusy s) = true)),
  -- HOLD_WAKE
  ((fun (src timer : Nat) (s : State) =>
     decide ((decide (s.sys.power = .hold) && s.pw.change.isNone && wakePresent s src timer) = true)) 2 0 (onSf (fun x => { x with wakeReq := true }) (onSys (fun x => { x with power := .hold }) easy))),
  -- HOLD_WAKE_RESTORE
  ((fun (coxOkS coxOkB queuesOk : Bool) (s : State) =>
     decide ((inPhase s 3 && s.seq.good) = true)) true true true (phase 3)),
  -- HOLD_WAKE_EASY
  (let s := (phase 4)
   decide (inPhase s 4 = true)),
  -- POWER_STATE_CHANGE_DONE
  (let s := (phase 0)
   decide ((awake s && inPhase s 0) = true)),
  -- CLUSTER_ENGINE_IDLE_GATE
  ((fun (h : Half) (s : State) =>
     decide ((decide (s.sys.power = .easy) && alive s h) = true)) .s easy)
  ] : List Bool).all id = true := by decide +kernel

/-- The hypotheses of every clause of PowerCallsRun are met. -/
theorem witness_power_calls_run : ([
  -- PW_STATUS
  (accepted 2 0x0B00 epdPri 0 (ask 2 0x0B00 [] easy)),
  -- PW_STATE_SET
  (let mb : Fin 8 := 2; let s := ask 2 0x0B01 [1, 0] easy
   (accepted mb.val 0x0B01 epd 2 s && (let p := params (mbAt s mb.val); (decide (p8 p 0 = 1) && (decide (s.pw.change = none ∧ s.red.takeover = none) && decide ((runningJobs s = [] ∨ p8 p 1 = 1))))))),
  (let mb : Fin 8 := 2; let s := ask 2 0x0B01 [2, 0] easy
   (accepted mb.val 0x0B01 epd 2 s && (let p := params (mbAt s mb.val); (decide (2 ≤ p8 p 0 ∧ p8 p 0 ≤ 4 ∧ p8 p 0 = powerCode s.sys.power) && (decide (s.pw.change = none ∧ s.red.takeover = none) && decide ((p8 p 0 = 2 ∨ s.pw.latch = false))))))),
  (let mb : Fin 8 := 2; let s := ask 2 0x0B01 [3, 0] easy
   (accepted mb.val 0x0B01 epd 2 s && (let p := params (mbAt s mb.val); (decide (2 ≤ p8 p 0 ∧ p8 p 0 ≤ 4 ∧ p8 p 0 ≠ powerCode s.sys.power) && (decide (s.pw.change = none ∧ s.red.takeover = none) && decide ((p8 p 0 = 2 ∨ s.pw.latch = false))))))),
  -- PW_BUDGET_CONFIG
  (let mb : Fin 8 := 2; let s := ask 2 0x0B02 [0x60, 9, 100, 0, 0, 0, 1, 1, 1, 1, 0xFF, 0] easy
   (accepted mb.val 0x0B02 epd 12 s && (let p := params (mbAt s mb.val); decide (budgetOk p = true)))),
  -- PW_THERMAL_CONFIG
  (let mb : Fin 8 := 2; let s := ask 2 0x0B03 [0x84, 3, 0xE8, 3] easy
   (accepted mb.val 0x0B03 epd 4 s && (let p := params (mbAt s mb.val); decide (thermalOk p = true)))),
  -- PW_THERMAL_READ
  (accepted 2 0x0B04 epdPri 0 (ask 2 0x0B04 [] easy)),
  -- PW_WAKE_SET
  (let mb : Fin 8 := 2; let s := ask 2 0x0B05 [0, 2, 0, 0, 0, 0, 0x20, 0, 0, 0] easy
   (accepted mb.val 0x0B05 epd 10 s && (let p := params (mbAt s mb.val); (
   let t := mkStamp (p16 p 2) (uAt 6 p 4)
   (decide (p8 p 0 ≤ 3 ∧ 2 ≤ p8 p 1 ∧ p8 p 1 ≤ 4) && decide (aheadBy s 1 t = true)))))),
  -- PW_WAKE_CLEAR
  (let mb : Fin 8 := 2; let s := ask 2 0x0B06 [0] easy
   (accepted mb.val 0x0B06 epd 1 s && (let p := params (mbAt s mb.val); decide (p8 p 0 < 16)))),
  -- PW_AUTO_CONFIG
  (let mb : Fin 8 := 2; let s := ask 2 0x0B07 ([1, 3] ++ b4 10000000 ++ b2 1 ++ b4 1000000 ++ b2 100) easy
   (accepted mb.val 0x0B07 epd 14 s && (let p := params (mbAt s mb.val); decide (autoOk p = true)))),
  -- PW_DOMAIN_READ
  (let mb : Fin 8 := 2; let s := ask 2 0x0B08 [1, 1] easy
   (accepted mb.val 0x0B08 epd 2 s && (let p := params (mbAt s mb.val); decide (1 ≤ p8 p 1 ∧ p8 p 0 + p8 p 1 ≤ 34)))),
  -- PW_STATS
  (accepted 2 0x0B09 epd 1 (ask 2 0x0B09 [0] easy))
  ] : List Bool).all id = true := by decide +kernel

/-- The hypotheses of every clause of SlowControlRuns are met. -/
theorem witness_slow_control_runs : ([
  -- SC_PASS_START
  (let s := easy
   decide ((inGap s && s.sc.cals.isEmpty && (dueChecks s).isEmpty) = true)),
  -- SC_CONVERSION_DONE
  ((fun (r : Conversion) (s : State) =>
     (match (s.sc.conv) with
       | some c => decide ((!s.sc.calStep) = true)
       | _ => false)) ⟨5, 5, 0, 0, 0, 200, false⟩ (onSc (fun x => { x with conv := some ⟨0, .regular, 0x100000, 99000000, false⟩ }) rtd)),
  -- SC_SAFETY_INJECT_REQUEST
  (let s := (onSc (fun x => { x with safeQ := 1 }) easy)
   decide ((s.sc.on && decide (s.sc.safeQ ≠ 0) && !(match s.sc.conv with
       | some c => isSafety c.why
       | none => false)) = true)),
  -- SC_CAL_STEP_DONE
  ((fun (offsetNv gainPpm : Int) (exc0 exc1 : Nat) (s : State) =>
     decide (s.sc.calStep = true)) 5 3 100000 100000 (onSc (fun x => { x with calStep := true, cals := [⟨[1], none, [], true⟩] }) easy)),
  -- SC_AUTO_CAL_DUE
  (let s := easy
   decide ((s.sc.on && decide (cfg16 s 0x0C04 0 ≠ 0) && s.sc.cals.all (·.job.isSome) && decide (gainsInUse s ≠ [])) = true)),
  -- SC_PIN_BREAK
  ((fun (ch pin clocks : Nat) (s : State) =>
     decide ((s.sc.on && decide ((ch < 16 ∨ ch = 24) ∧ 8 ≤ clocks ∧ pin ∈ chanPins s ch) && chanOn s ch && !(chanAt s ch).brk) = true)) 0 1 8 rtd),
  -- SC_EXC_MONITOR_DONE
  ((fun (m : ExcMonitor) (s : State) =>
     (match (s.sc.check) with
       | some c => decide (s.sc.on = true)
       | _ => false)) ⟨100, 200, 0, false⟩ (onSc (fun x => { x with check := some (0, 99000000) }) rtd)),
  -- SC_STATUS
  (accepted 2 0x0C00 epdPri 0 (ask 2 0x0C00 [] easy)),
  -- SC_CHANNEL_CONFIG
  (let mb : Fin 8 := 2; let s := ask 2 0x0C01 (List.replicate 36 0) easy
   (accepted mb.val 0x0C01 epd 36 s && (let p := params (mbAt s mb.val); (
   let v := bytesAt p 4 32
   decide ((decide (p8 p 0 < 16) && chanConfOk v && excAgree (bytesPut (cfg s 0x0C01) (32 * p8 p 0) v)) = true))))),
  -- SC_CHANNEL_READ
  (let mb : Fin 8 := 2; let s := ask 2 0x0C02 [0] easy
   (accepted mb.val 0x0C02 epd 1 s && (let p := params (mbAt s mb.val); decide (p8 p 0 ≤ 24)))),
  -- SC_SEQUENCE_SET
  (let mb : Fin 8 := 2; let s := ask 2 0x0C03 ([1] ++ List.replicate 30 0) easy
   (accepted mb.val 0x0C03 epd 31 s && (let p := params (mbAt s mb.val); decide (sequenceOk p = true)))),
  -- SC_RESULT_READ
  (let mb : Fin 8 := 2; let s := ask 2 0x0C04 [1, 1] easy
   (accepted mb.val 0x0C04 epdPri 2 s && (let p := params (mbAt s mb.val); decide (1 ≤ p8 p 1 ∧ p8 p 1 ≤ 14 ∧ p8 p 0 + p8 p 1 ≤ 25)))),
  -- SC_INJECT
  (let mb : Fin 8 := 2; let s := ask 2 0x0C05 [16] easy
   (accepted mb.val 0x0C05 epdPri 1 s && (let p := params (mbAt s mb.val); (decide (p8 p 0 ≤ 24) && (decide (chanOn s (p8 p 0) = true) && decide (¬ (4 ≤ s.sc.hostQ.length))))))),
  -- SC_INJECT_READ
  (accepted 2 0x0C06 epdPri 2 (ask 2 0x0C06 [0, 0] easy)),
  -- SC_CALIBRATE
  (let mb : Fin 8 := 2; let s := ask 2 0x0C07 [1] easy
   (accepted mb.val 0x0C07 epd 1 s && (let p := params (mbAt s mb.val); (decide (p8 p 0 ≠ 0) && (
   let gains := maskList 8 (p8 p 0)
   (
   let t := injectedTicks s
   (decide (t = 0) && decide (s.sys.jobs.length < 8)))))))),
  (let mb : Fin 8 := 2; let s := ask 2 0x0C07 [1] (onSc (fun x => { x with safeQ := 1 }) easy)
   (accepted mb.val 0x0C07 epd 1 s && (let p := params (mbAt s mb.val); (decide (p8 p 0 ≠ 0) && (
   let gains := maskList 8 (p8 p 0)
   (
   let t := injectedTicks s
   decide (¬ (t = 0)))))))),
  -- SC_DIAG_RUN
  (let mb : Fin 8 := 2; let s := ask 2 0x0C08 [1, 0] rtd
   (accepted mb.val 0x0C08 epd 2 s && (let p := params (mbAt s mb.val); (decide ((decide (p16 p 0 ≠ 0) && (maskList 16 (p16 p 0)).all (fun c => chanOn s c && chanRtd s c)) = true) && decide (s.sys.jobs.length < 8))))),
  -- SC_CHANNEL_STATUS
  (let mb : Fin 8 := 2; let s := ask 2 0x0C09 [0] easy
   (accepted mb.val 0x0C09 epd 1 s && (let p := params (mbAt s mb.val); decide (p8 p 0 ≤ 24)))),
  -- SC_STATS
  (accepted 2 0x0C0A epd 1 (ask 2 0x0C0A [0] easy)),
  -- SC_INJECTED_CONVERSION_START
  (let s := (onSc (fun x => { x with hostQ := [1], nextReq := 2, reqs := [⟨1, 0, 0, []⟩] }) rtd)
   decide ((s.sc.on && !s.sc.calStep && s.sc.check.isNone && decide (s.sc.hostQ ≠ []) && (match s.sc.conv with
       | some { why := .regular, .. } => true
       | none => true
       | _ => false)) = true))
  ] : List Bool).all id = true := by decide +kernel

/-- The hypotheses of every clause of LightRuns are met. -/
theorem witness_light_runs : ([
  -- LD_PRE_WAKE
  (let s := (lit (fun x => { x with awake := false, entry := [(0, some sched)] }))
   decide ((awake s && !ldOn s && ((nextFlash s).isSome || proofWaits s)) = true)),
  -- LAMP_SHIFT_START
  ((fun (chain : Fin 4) (s : State) =>
     (match (nextChainFlash s chain) with
       | some t => decide ((ldOn s && decide ((chainAt s chain).state = 1) && !discovering s chain) = true)
       | _ => false)) 0 (lit (fun x => { x with entry := [(0, some sched)] }))),
  -- FLASH_INSTANT
  (let s := (lit (fun x => { x with entry := [(0, some sched)] }))
   (match (nextFlash s) with
     | some t => decide (ldOn s = true)
     | _ => false)),
  -- LED_DIAG_SAMPLE
  ((fun (k : Fin 4) (current pinMv : Nat) (s : State) =>
     (match ((sinkAt s k).pulse) with
       | some (amp, w, at_) => decide (500 ≤ w)
       | _ => false)) 0 100 200 (lit (fun x => { x with sink := [(0, { pulse := some (100, 500, 100000000) })] }))),
  -- LED_PULSE_END
  ((fun (k : Fin 4) (s : State) =>
     (match ((sinkAt s k).pulse) with
       | some (r1, w, at_) => true
       | _ => false)) 0 (lit (fun x => { x with sink := [(0, { pulse := some (100, 500, 100000000) })] }))),
  -- FLASH_WINDOW_END
  (let s := (lit (fun x => { x with winOpen := true, windows := [(0x100000, 0x100100)] }))
   decide (s.ld.winOpen = true)),
  -- LD_IDLE_GATE
  (let s := (lit id)
   decide (s.ld.awake = true)),
  -- LAMP_CAPTURE_CYCLE
  ((fun (chain : Fin 4) (words : List Word) (s : State) =>
     (
     let again := (chainAt s chain).retried
     decide (((busyState s || again) && ldOn s && decide ((chainAt s chain).state = 1 ∧ words.length = boardsOf s chain)
         && !discovering s chain) = true))) 0 [0] (onSys (fun x => { x with power := .paddle }) (lit id))),
  -- LED_TEMP_UPDATE
  (let s := easy
   decide (awake s = true)),
  -- PROOF_PULSE_DUE
  ((fun (e : Nat) (s : State) =>
     decide ((awake s && decide (e < 68) && emProof s e) = true)) 0 (lit id)),
  -- PROOF_PULSE
  ((fun (e current pinMv : Nat) (words : List Word) (s : State) =>
     decide ((ldOn s && decide (e < 68) && ((emAt s e).proofDue || (emAt s e).proofJob.isSome) && !(emAt s e).proofOut) = true)) 0 100 200 [] (lit (fun x => { x with em := [(0, { proofDue := true })] }))),
  -- DIAG_AGE_EXPIRY
  ((fun (e : Nat) (s : State) =>
     decide ((decide (e < 68) && decide ((emAt s e).diag ≠ 0)) = true)) 0 (lit (fun x => { x with em := [(0, { diag := 1 })] }))),
  -- LD_LINE_READBACK_FAULT
  ((fun (chain : Fin 4) (s : State) =>
     decide ((ldOn s && !(chainAt s chain).lineFault) = true)) 0 (lit id)),
  -- LD_STATUS
  (accepted 2 0x0D00 epdPri 0 (ask 2 0x0D00 [] easy)),
  -- LD_CHAIN_DISCOVER
  (let mb : Fin 8 := 2; let s := ask 2 0x0D01 [1] easy
   (accepted mb.val 0x0D01 epd 1 s && (let p := params (mbAt s mb.val); (decide (1 ≤ p8 p 0 ∧ p8 p 0 < 16) && decide (s.sys.jobs.length < 8))))),
  -- LD_CHAIN_READ
  (let mb : Fin 8 := 2; let s := ask 2 0x0D02 [0] easy
   (accepted mb.val 0x0D02 epd 1 s && (let p := params (mbAt s mb.val); decide (p8 p 0 ≤ 3)))),
  -- LD_EMITTER_CONFIG
  (let mb : Fin 8 := 2; let s := ask 2 0x0D03 [0, 0, 0, 0, 1, 1, 80, 0, 100, 0, 80, 0, 0xFF, 64, 80, 0, 0xA0, 0x0F, 0, 0, 0, 0] (lit id)
   (accepted mb.val 0x0D03 epd 22 s && (let p := params (mbAt s mb.val); (decide ((decide (p8 p 0 < 68) && emitterOk (p8 p 0) (bytesAt p 4 18)) = true) && decide (holdsEmitters s [p8 p 0] = true))))),
  -- LD_EMITTER_READ
  (let mb : Fin 8 := 2; let s := ask 2 0x0D04 [0] easy
   (accepted mb.val 0x0D04 epd 1 s && (let p := params (mbAt s mb.val); decide (p8 p 0 < 68)))),
  -- LD_SCHEDULE
  (let mb : Fin 8 := 2; let s := ask 2 0x0D05 [0, 1, 1, 0, 0, 0, 0, 0, 0, 0, 0, 0, 0, 0, 0x20, 0, 0, 0, 0x40, 0x1F, 0, 0, 2, 0, 0, 0, 0] (lit id)
   (accepted mb.val 0x0D05 epd 27 s && (let p := params (mbAt s mb.val); (
   let e := schedEntry p
   (
   let es := emittersOf e.sinks e.boards
   (decide ((decide (p8 p 0 < 16 ∧ e.sinks < 16 ∧ e.phase < 32 ∧ (e.period = 0 ∨ minPeriod s es ≤ e.period)) && aheadBy s (8000) e.first) = true) && decide (holdsEmitters s es = true))))))),
  -- LD_CANCEL
  (let mb : Fin 8 := 2; let s := ask 2 0x0D06 [0, 0] easy
   (accepted mb.val 0x0D06 epdPri 2 s && (let p := params (mbAt s mb.val); (
   let named := (entries s).filter (fun e => bit (p16 p 0) e.1)
   (
   let es := named.flatMap (fun e => emittersOf e.2.sinks e.2.boards)
   decide (holdsEmitters s es = true)))))),
  -- LD_SCHEDULE_READ
  (let mb : Fin 8 := 2; let s := ask 2 0x0D07 [0] easy
   (accepted mb.val 0x0D07 epd 1 s && (let p := params (mbAt s mb.val); decide (p8 p 0 < 16)))),
  -- LD_DIAG_READ
  (let mb : Fin 8 := 2; let s := ask 2 0x0D08 [1, 1] easy
   (accepted mb.val 0x0D08 epdPri 2 s && (let p := params (mbAt s mb.val); decide (1 ≤ p8 p 1 ∧ p8 p 1 ≤ 17 ∧ p8 p 0 + p8 p 1 ≤ 68)))),
  -- LD_PROOF_RUN
  (let mb : Fin 8 := 2; let s := ask 2 0x0D09 [0] (lit id)
   (accepted mb.val 0x0D09 epd 1 s && (let p := params (mbAt s mb.val); (decide (p8 p 0 < 68) && (decide (emOn s (p8 p 0) = true) && (decide (¬ ((emAt s (p8 p 0)).proofJob.isSome)) && decide (s.sys.jobs.length < 8))))))),
  -- LD_SINK_CONFIG
  (let mb : Fin 8 := 2; let s := ask 2 0x0D0A [0, 0xFF, 0, 0, 0, 0, 0] (lit id)
   (accepted mb.val 0x0D0A epd 7 s && (let p := params (mbAt s mb.val); (decide ((decide (p8 p 0 < 4) && tempSourceOk (p8 p 1)) = true) && decide (holdsEmitters s [p8 p 0] = true))))),
  -- LD_STATS
  (let mb : Fin 8 := 2; let s := ask 2 0x0D0B [0, 0] easy
   (accepted mb.val 0x0D0B epd 2 s && (let p := params (mbAt s mb.val); decide (p8 p 0 < 68))))
  ] : List Bool).all id = true := by decide +kernel

/-- The hypotheses of every clause of RedundancyRuns are met. -/
theorem witness_redundancy_runs : ([
  -- XLINK_HEARTBEAT_SEND
  ((fun (h : Half) (s : State) =>
     decide (halfOn s h = true)) .s easy),
  -- XLINK_HEARTBEAT_RX
  ((fun (h : Half) (lock : Bool) (s : State) =>
     decide ((halfOn s h && halfOn s h.other) = true)) .s true easy),
  -- XLINK_HEARTBEAT_TIMEOUT
  ((fun (h : Half) (lock : Bool) (s : State) =>
     decide ((halfOn s h && ((viewAt s h).xlink || (!lock && !(viewAt s h).noLock))) = true)) .s true easy),
  -- ARB_POLL
  ((fun (h : Half) (reaches : Bool) (s : State) =>
     decide (halfOn s h = true)) .s true easy),
  -- ARB_POLL_ANSWER
  ((fun (h : Half) (failed : Bool) (s : State) =>
     decide ((halfOn s h && (viewAt s h).asked && (viewAt s h).heard && decide (s.up ≤ (viewAt s h).askedAt + us 5)) = true)) .s false (modView .s (fun v => { v with asked := true, heard := true, askedAt := 100000000 }) easy)),
  -- ARB_LOST_TIMEOUT
  ((fun (h : Half) (s : State) =>
     decide ((halfOn s h && !(viewAt s h).arbLost) = true)) .s easy),
  -- TAKEOVER_COMPLETE
  (let s := (onRed (fun r => { r with takeover := some (.b, 5) }) easy)
   (match (s.red.takeover) with
     | some (x, r1) => true
     | _ => false)),
  -- ARB_GNT_CHANGE
  ((fun (gntS gntB : Bool) (s : State) =>
     decide ((!s.sys.por) = true)) true true easy),
  -- REJOIN_TICK
  (let s := (onRed (fun r => { r with rejoin := some ⟨.b, 0x110000, 1, true⟩ }) easy)
   (match (s.red.rejoin) with
     | some r => decide (r.standby = true)
     | _ => false)),
  -- RED_STATUS
  (accepted 2 0x0F00 epdPri 0 (ask 2 0x0F00 [] easy)),
  -- RED_CLAIM_READ
  (accepted 2 0x0F01 epd 0 (ask 2 0x0F01 [] easy)),
  -- RED_REJOIN
  (let mb : Fin 8 := 2; let s := ask 2 0x0F02 [1, 0, 0, 0, 0, 0, 0, 0, 0, 0] (modView .b (fun v => { v with state := 3 }) easy)
   (accepted mb.val 0x0F02 epd 10 s && (let p := params (mbAt s mb.val); (decide (p8 p 0 ≤ 1) && (
   let h := Half.ofCode (p8 p 0)
   (
   let t := if tickOf (stampAt p 2) = 0 then s.tc.now + 40000 else stampAt p 2
   (decide ((!s.red.ext || (viewAt s h).gnt) = true) && (decide ((decide ((viewAt s h).state = 3) && linkSound s && s.red.takeover.isNone) = true) && (decide (aheadBy s 40000 t = true) && decide (s.sys.jobs.length < 8)))))))))),
  -- FLOG_MIRROR
  (let mb : Fin 8 := 2; let s := ask 2 0x0F09 [] easy
   (accepted mb.val 0x0F09 epd 0 s && (let p := params (mbAt s mb.val); (decide ((flashOk s && decide (s.sys.image.signedLen + 64 ≤ mirrorHead)) = true) && decide (s.sys.jobs.length < 8))))),
  -- FLOG_MIRROR_READ
  (let mb : Fin 8 := 2; let s := ask 2 0x0F0A [1, 1, 1, 1, 1] easy
   (accepted mb.val 0x0F0A epd 5 s && (let p := params (mbAt s mb.val); (decide (p8 p 0 ≤ 1 ∧ 1 ≤ p8 p 4 ∧ p8 p 4 ≤ 3) && decide (flashOk s = true))))),
  -- ARBITER_TMR_VOTE
  ((fun (disagree : List (Fin 3)) (s : State) =>
     decide ((s.red.started && decide (disagree ≠ [])) = true)) [0] easy)
  ] : List Bool).all id = true := by decide +kernel

/-- The hypotheses of every clause of TroubleRecordRuns are met. -/
theorem witness_trouble_record_runs : ([
  -- ALARM_PENDING_COMMIT
  ((fun (src : Nat) (s : State) =>
     decide ((tget none s.ev.recent src).isSome = true)) 65 (onEv (fun e => { e with recent := [(65, some 99999000)] }) easy)),
  -- ALARM_HELD_RELEASE
  (let s := (onEv (fun e => { e with pending := [(65, some ⟨1, 0, 0, [], true, false, 2⟩)] }) easy)
   decide ((decide (s.ev.tc0.length < 64) && !(waitingAlarms s).isEmpty) = true)),
  -- INCIDENT_CALM_EXPIRY
  (let s := (onEv (fun e => { e with incident := { e.incident with isOpen := true } }) easy)
   decide ((s.ev.incident.isOpen && s.ev.pending.isEmpty && s.ev.tc0.isEmpty) = true)),
  -- EVT_READ
  (let mb : Fin 8 := 2; let s := ask 2 0x0F03 [1, 1, 1] easy
   (accepted mb.val 0x0F03 epdPri 3 s && (let p := params (mbAt s mb.val); decide (1 ≤ p8 p 2 ∧ p8 p 2 ≤ 19 ∧ p16 p 0 + p8 p 2 ≤ 640)))),
  -- EVT_CLEAR
  (let mb : Fin 8 := 2; let s := ask 2 0x0F04 [1, 1, 1, 1, 1] easy
   (accepted mb.val 0x0F04 epdPri 5 s && (let p := params (mbAt s mb.val); (
   let a := p16 p 0
   (
   let b := p16 p 0 + p16 p 2
   decide (1 ≤ p16 p 2 ∧ p16 p 2 ≤ 640 ∧ b ≤ 640 ∧ p8 p 4 < 4)))))),
  -- EVT_CONFIG
  (let mb : Fin 8 := 2; let s := ask 2 0x0F05 [0, 0, 0, 0, 0] easy
   (accepted mb.val 0x0F05 epd 5 s && (let p := params (mbAt s mb.val); (
   let n := p16 p 0
   decide ((isDefined n && decide (p8 p 2 ≤ 2 ∧ p8 p 3 ≤ 1 ∧ p8 p 4 ≤ 1)) = true))))),
  -- EVT_SUMMARY
  (accepted 2 0x0F06 epdPri 0 (ask 2 0x0F06 [] easy)),
  -- FLOG_READ
  (let mb : Fin 8 := 2; let s := ask 2 0x0F07 [1, 1, 1] easy
   (accepted mb.val 0x0F07 epd 3 s && (let p := params (mbAt s mb.val); decide (1 ≤ p8 p 2 ∧ p8 p 2 ≤ 3)))),
  -- FLOG_CLEAR
  (accepted 2 0x0F08 epd 0 (ask 2 0x0F08 [] easy)),
  -- EVT_STATS
  (accepted 2 0x0F0B epd 1 (ask 2 0x0F0B [0] easy)),
  -- EVT_TRACE_CONFIG
  (accepted 2 0x0F0C epd 4 (ask 2 0x0F0C [0, 0, 0, 0] easy)),
  -- EVENT_STATE_TMR_VOTE
  ((fun (upset : List EventUpset) (s : State) =>
     decide ((!s.sys.por) = true)) [] easy)
  ] : List Bool).all id = true := by decide +kernel

end Sys2Proof.Machine
end

section
/-! SUPPORT. How an accepted call runs, whatever its effect; the link calls whose effect branches; and that link calls run as
their rules say. -/
namespace Sys2Proof.Machine

section Accepted
variable {mb : Fin 8} {code len : Nat} {a : Allowed} {p : List Byte} {s : State}

/-- A call row whose request is asked with parameters its row selects carries out its act on them. -/
theorem callSel_asked {sel : List Byte → Bool} {act : List Byte → State → Reply} (ask : Asked mb code a len p s)
    (hsel : sel p = true) : callSel mb code sel a len act s = .next (settle mb (act p s)) := by
  obtain ⟨hacc, rfl⟩ := ask
  exact callSel_accepted _ _ _ _ _ _ _ hacc hsel

/-- A call row whose request is asked carries out its act on the parameters. -/
theorem call_asked {act : List Byte → State → Reply} (ask : Asked mb code a len p s) :
    call mb code a len act s = .next (settle mb (act p s)) :=
  callSel_asked ask rfl

theorem need_of_true {c : Bool} (hc : c = true) (k : State → Reply) : need c k s = k s :=
  if_pos hc

theorem needState_of_true {c : Bool} (hc : c = true) (k : State → Reply) : needState c k s = k s :=
  if_pos hc

/-- A call that asks one condition of its parameters, where they meet it, does what stands behind the condition. -/
theorem call_need_asked {c : List Byte → Bool} {k : List Byte → State → Reply} (ask : Asked mb code a len p s)
    (hc : c p = true) : call mb code a len (fun p => need (c p) (k p)) s = .next (settle mb (k p s)) := by
  rw [call_asked ask, need_of_true hc]

/-- A call that asks a condition of its parameters and then one of the state, where both hold. -/
theorem call_need_needState_asked {c d : List Byte → Bool} {k : List Byte → State → Reply}
    (ask : Asked mb code a len p s) (hc : c p = true) (hd : d p = true) :
    call mb code a len (fun p => need (c p) (needState (d p) (k p))) s = .next (settle mb (k p s)) := by
  rw [call_need_asked ask hc, needState_of_true hd]

end Accepted

section LinkCalls
variable {mb : Fin 8} {p : List Byte} {s : State}

/-- LK_RATE_SET with no rate change of the group under way: RATE_REQ is sent, and the call stays open (R437). -/
theorem lkRateSet_asked (ask : Asked mb 0x0904 pOrD 2 p s) (hp : p8 p 0 < 4 ∧ p8 p 1 ≤ 3)
    (hrun : ((groupAt s (p8 p 0)).running && decide (groupMode s (p8 p 0) = 1)) = true)
    (hfree : ¬ (groupAt s (p8 p 0)).rateReq.isSome) :
    execLkRateSet mb s = .next (settle mb (.later (requestRate (p8 p 0) (p8 p 1) (.call mb.val) s))) := by
  refine (call_need_needState_asked ask (decide_eq_true hp) hrun).trans ?_
  rw [if_neg hfree]

/-- LK_PRBS_INJECT of a kind, its number within the kind's limit, on a lane in TEST or RUNNING: the lane's injection
changes as the kind says (R461). -/
theorem prbsInject_asked {sel limit : Nat → Bool} {f : Nat → Option Nat × Nat → Option Nat × Nat}
    (ask : Asked mb 0x090A epd 4 p s) (hlane : p8 p 0 < 16) (hkind : p8 p 1 ≤ 3) (hsel : sel (p8 p 1) = true)
    (hlimit : limit (p16 p 2) = true) (hstate : (laneIn s (p8 p 0) .test || laneIn s (p8 p 0) .running) = true) :
    prbsInject mb sel limit f s
      = .next (respond mb stOk [] (modLane (p8 p 0) (fun x => { x with inject := f (p16 p 2) x.inject }) s)) := by
  have hparams : (decide (p8 p 0 < 16 ∧ p8 p 1 ≤ 3) && limit (p16 p 2)) = true := by simp [hlane, hkind, hlimit]
  refine (callSel_asked ask hsel).trans ?_
  rw [need_of_true hparams, needState_of_true hstate]
  rfl

/-- LK_ETH_CONFIG with a well-formed entry is answered OK, and the destination is resolved anew only where it changed
(R465, R474). -/
theorem lkEthConfig_asked (ask : Asked mb 0x090C epd 29 p s) (hp : p8 p 0 < 4 ∧ ethEntryOk (bytesAt p 1 28) = true) :
    execLkEthConfig mb s = .next (
      let v := bytesAt p 1 28
      let g := p8 p 0
      let same := decide (destIp s g = u32At v 10 ∧ uAt 6 (ethConf s g) 14 = uAt 6 v 14)
      let t := setCfgEntry 0x0906 28 g v s
      let u := if groupMode t g = 2 ∧ (staticMac t g).isNone then groupDown g t else t
      respond mb stOk [] (if same then t else resolveMac g u)) := by
  refine (call_need_asked ask (by simp [hp.1, hp.2])).trans ?_
  dsimp only
  rw [← apply_ite ok]
  rfl

end LinkCalls

/-- Settles O27: each clause is its call row, accepted; the clauses of a branching call are its branches. -/
theorem linkCallsRun : Obligations.LinkCallsRun := by
  unfold Obligations.LinkCallsRun
  refine ⟨?lkStatus, ?lkLaneStatus, ?lkConfig, ?lkRenegotiate, ?lkRateSet, ?lkClassConfig, ?lkTc2WeightSet,
    ?lkPacketCloseSet, ?lkRepechageClear, ?lkPrbsConfigTest, ?lkPrbsConfigLeave, ?lkPrbsConfigNone,
    ?lkPrbsInjectSingle, ?lkPrbsInjectBurst, ?lkPrbsInjectRate, ?lkPrbsInjectStop, ?lkPrbsRead, ?lkEthConfig,
    ?lkEthStatus, ?lkSlStatus, ?lkSlConfig, ?lkStats, ?lkTc0Load⟩
  case lkRateSet => exact fun mb p s ask hp hrun hfree => lkRateSet_asked ask hp hrun hfree
  case lkPrbsConfigTest =>
    intro mb p s ask hp l g hpattern
    refine (call_need_asked ask (decide_eq_true hp)).trans ?_
    rw [if_pos hpattern]
  case lkPrbsConfigLeave =>
    intro mb p s ask hp l g hpattern htest
    refine (call_need_asked ask (decide_eq_true hp)).trans ?_
    rw [if_neg hpattern, if_pos htest]
  case lkPrbsConfigNone =>
    intro mb p s ask hp l hpattern htest
    refine (call_need_asked ask (decide_eq_true hp)).trans ?_
    rw [if_neg hpattern, if_neg htest]
  case lkPrbsInjectSingle =>
    intro mb p s ask hp hstate
    change execLkPrbsInjectSingle mb s = _
    exact prbsInject_asked ask hp.1 (by omega) (by simp [hp.2]) rfl hstate
  case lkPrbsInjectBurst =>
    intro mb p s ask hp hn hstate
    change execLkPrbsInjectBurst mb s = _
    exact prbsInject_asked ask hp.1 (by omega) (decide_eq_true hp.2) (decide_eq_true hn) hstate
  case lkPrbsInjectRate =>
    intro mb p s ask hp hn hstate
    change execLkPrbsInjectRate mb s = _
    exact prbsInject_asked ask hp.1 (by omega) (decide_eq_true hp.2) (decide_eq_true hn) hstate
  case lkPrbsInjectStop =>
    intro mb p s ask hp hstate
    change execLkPrbsInjectStop mb s = _
    exact prbsInject_asked ask hp.1 (by omega) (decide_eq_true hp.2) rfl hstate
  case lkEthConfig => exact fun mb p s ask hp => lkEthConfig_asked ask hp
  case lkConfig | lkClassConfig | lkTc2WeightSet | lkPacketCloseSet =>
    exact fun mb p s ask hp => call_need_asked ask hp
  case lkTc0Load => exact fun mb p s ask => call_asked ask
  case lkStatus | lkLaneStatus | lkRenegotiate | lkRepechageClear | lkPrbsRead | lkEthStatus | lkSlStatus | lkSlConfig
      | lkStats =>
    exact fun mb p s ask hp => call_need_asked ask (decide_eq_true hp)

end Sys2Proof.Machine
end

section
/-! SUPPORT. How an event that is due runs, what starts a scan job, what FE_MODE_SET answers; and that the pixel front end's
events and calls run as their rules say. -/
namespace Sys2Proof.Machine

/-- An event whose condition holds has its effect. -/
theorem event_due {due : Bool} {s t : State} {out : Out} (hdue : due = true)
    (hout : out = .next (if due then t else s)) : out = .next t := by
  rw [hout, if_pos hdue]

/-- Settles O15: each command is an event, which is due. Where the event is of a pulse, a clock request, a record, a crab or
another thing the state may hold, the clause names the one it holds, and with it the command's branch. -/
theorem frontEndEventsRun : Obligations.FrontEndEventsRun := by
  unfold Obligations.FrontEndEventsRun
  refine ⟨?discriminatorRise, ?ringCountSaturated, ?rangeSwitch, ?rangeBlankEnd, ?discriminatorFall, ?totSaturated,
    ?pixelDeadTimeEnd, ?blockClockReady, ?blockClockIdleGate, ?bridgeSaturated, ?portRecordAgeOut, ?portLossSend,
    ?watermarkSend, ?frameBoundary, ?frameUnitAssemble, ?feModeEffect, ?crabWindowEnd, ?crabRetest, ?leakUpdate,
    ?feScrub, ?feTmrVote, ?tpStep⟩
  case discriminatorRise => exact fun pix ps per s hdue => event_due (s := s) hdue rfl
  case blockClockIdleGate => exact fun block s hdue => event_due (s := s) hdue rfl
  case watermarkSend =>
    intro block s w advanced hdue
    exact event_due (s := s) hdue rfl
  case frameBoundary | crabWindowEnd => exact fun s hdue => event_due (s := s) hdue rfl
  case leakUpdate | feScrub => exact fun operand s hdue => event_due (s := s) hdue rfl
  case feTmrVote => exact fun upset droop s hdue => event_due (s := s) hdue rfl
  case ringCountSaturated | rangeBlankEnd | pixelDeadTimeEnd | bridgeSaturated =>
    intro pix s p hpulse hdue
    delta exec
    simp only [execRingCountSaturated, execRangeBlankEnd, execPixelDeadTimeEnd, execBridgeSaturated, hpulse]
    exact event_due (s := s) hdue rfl
  case rangeSwitch | discriminatorFall =>
    intro pix ps s p hpulse hdue
    delta exec
    simp only [execRangeSwitch, execDiscriminatorFall, hpulse]
    exact event_due (s := s) hdue rfl
  case totSaturated =>
    intro pix s p hpulse h hfull hdue
    delta exec
    simp only [execTotSaturated, hpulse, hfull]
    exact event_due (s := s) hdue rfl
  case blockClockReady =>
    intro block s t ps hreq hdue
    delta exec
    simp only [execBlockClockReady, hreq]
    exact event_due (s := s) hdue rfl
  case portRecordAgeOut =>
    intro block s h rest hhit hdue
    delta exec
    simp only [execPortRecordAgeOut, hhit]
    exact event_due (s := s) hdue rfl
  case portLossSend =>
    intro block cause s n first last hdiscards hdue
    delta exec
    simp only [execPortLossSend, hdiscards]
    exact event_due (s := s) hdue rfl
  case frameUnitAssemble =>
    intro block flips s r hreadout hdue
    delta exec
    simp only [execFrameUnitAssemble, hreadout]
    exact event_due (s := s) hdue rfl
  case crabRetest =>
    intro pix s c hcrab hdue
    delta exec
    simp only [execCrabRetest, hcrab]
    exact event_due (s := s) hdue rfl
  case feModeEffect | tpStep =>
    intro s held hheld hdue
    delta exec
    simp only [execFeModeEffect, execTpStep, hheld]
    exact event_due (s := s) hdue rfl

section JobStart
variable {code : Nat} {p : List Byte} {more : Bool} {busy : Nat → Bool} {begin_ : Nat → State → State} {s : State}

/-- A job call with room among the eight open jobs starts its job and answers with its number (R55). -/
theorem startJob_of_room (hroom : s.sys.jobs.length < 8) :
    startJob code p begin_ s = okBytes (b2 s.sys.nextJob) (begin_ s.sys.nextJob (addJob code p 1 0 s).2) :=
  if_neg (Nat.not_le.mpr hroom)

/-- A LOW job call starts at once where the governor defers none (R526). -/
theorem lowJob_of_not_deferred (hlow : lowDeferred s = false) : lowJob code p begin_ s = startJob code p begin_ s :=
  if_neg (by simp [hlow])

/-- A call on blocks in range, of which none is OFF or busy, is its LOW job (R145). -/
theorem blockJob_of_free (hrange : 0 < p8 p 1 ∧ p8 p 0 + p8 p 1 ≤ 256) (hmore : more = true)
    (hfree : ∀ k ∈ scanBlocks (p8 p 0) (p8 p 1), blockMode s k ≠ 0 ∧ busy k = false) :
    blockJob code p more busy begin_ s = lowJob code p begin_ s := by
  have hon : ¬ (scanBlocks (p8 p 0) (p8 p 1)).any (fun k => decide (blockMode s k = 0)) := by
    simpa using fun k hk => (hfree k hk).1
  have hidle : ¬ (scanBlocks (p8 p 0) (p8 p 1)).any busy := by
    simpa using fun k hk => (hfree k hk).2
  unfold blockJob
  rw [need_of_true (by simp [hrange, hmore]), if_neg hon, if_neg hidle]

end JobStart

/-- The blocks that an FE_MODE_SET names, each with its mode byte and the one asked for. -/
def modeChanges (p : List Byte) (s : State) : List (Nat × Nat × Nat) :=
  (bytesAt p 2 (p8 p 1)).zipIdx.map (fun e => (p8 p 0 + e.2, (blockAt s (p8 p 0 + e.2)).conf.mode.toNat, e.1.toNat))

/-- A change of POL of a block that is not OFF and that is not set to OFF (R122). -/
def polarityFlips (c : Nat × Nat × Nat) : Bool :=
  decide (bit c.2.1 2 ≠ bit c.2.2 2 ∧ c.2.1 % 4 ≠ 0 ∧ c.2.2 % 4 ≠ 0)

/-- The numeral form of a bit of a word is the word's bit. -/
theorem bit_toNat {w : Nat} (x : BitVec w) (i : Nat) : bit x.toNat i = x.getLsbD i := by
  rw [bit, BitVec.getLsbD, Nat.testBit_eq_decide_div_mod_eq]

/-- A byte of a cut is the byte of the whole at the cut's offset. -/
theorem toNat_getElem_bytesAt (p : List Byte) (i n k : Nat) (hk : k < (bytesAt p i n).length) :
    (bytesAt p i n)[k].toNat = p8 p (i + k) := by
  have hp : i + k < p.length := by
    rw [bytesAt, List.length_take, List.length_drop] at hk
    omega
  simp [bytesAt, p8, byteAt, List.getElem?_eq_getElem hp]

/-- The change that FE_MODE_SET asks of the k-th block it names. -/
theorem mem_modeChanges {p : List Byte} {k : Nat} (s : State) (hlen : (bytesAt p 2 (p8 p 1)).length = p8 p 1)
    (hk : k < p8 p 1) :
    (p8 p 0 + k, (blockAt s (p8 p 0 + k)).conf.mode.toNat, p8 p (2 + k)) ∈ modeChanges p s := by
  have hk' : k < (bytesAt p 2 (p8 p 1)).length := hlen.symm ▸ hk
  rw [← toNat_getElem_bytesAt p 2 (p8 p 1) k hk']
  exact List.mem_map_of_mem (List.mk_mem_zipIdx_iff_getElem?.mpr (List.getElem?_eq_getElem hk'))

/-- Every change that FE_MODE_SET asks is of one of the blocks it names. -/
theorem exists_lt_of_mem_modeChanges {p : List Byte} {s : State} {c : Nat × Nat × Nat} (hc : c ∈ modeChanges p s) :
    ∃ j < p8 p 1, c.1 = p8 p 0 + j := by
  obtain ⟨e, he, rfl⟩ := List.mem_map.mp hc
  have hlt : e.2 < (bytesAt p 2 (p8 p 1)).length := List.snd_lt_of_mem_zipIdx he
  exact ⟨e.2, Nat.lt_of_lt_of_le hlt (List.length_take_le _ _), rfl⟩

section FrontEndCalls
variable {mb : Fin 8} {code len : Nat} {a : Allowed} {p : List Byte} {s : State}

/-- A scan call on blocks that are neither OFF nor in a job begins its scan and answers with its job's number (R145). -/
theorem call_scanCall_asked {more : List Byte → Bool} (ask : Asked mb code a len p s)
    (hrange : 0 < p8 p 1 ∧ p8 p 0 + p8 p 1 ≤ 256) (hmore : more p = true)
    (hfree : ∀ k ∈ scanBlocks (p8 p 0) (p8 p 1), blockMode s k ≠ 0 ∧ inBlockJob s k = false)
    (hlow : lowDeferred s = false) (hroom : s.sys.jobs.length < 8) :
    call mb code a len (fun p => scanCall code p (more p)) s
      = .next (settle mb (okBytes (b2 s.sys.nextJob) (scanBegin code p s.sys.nextJob (addJob code p 1 0 s).2))) := by
  rw [call_asked ask, scanCall, blockJob_of_free hrange hmore hfree, lowJob_of_not_deferred hlow,
    startJob_of_room hroom]

/-- FE_MODE_SET with valid mode bytes, on blocks in no scan job: STATE where it flips the polarity of a block, else the
changes wait for their effect tick and rows power up (R121 to R124). -/
theorem feModeSet_asked (ask : Asked mb 0x0200 epd 3 p s)
    (hok : (decide (1 ≤ p8 p 1 ∧ p8 p 1 ≤ 224 ∧ p8 p 0 + p8 p 1 ≤ 256 ∧ (bytesAt p 2 (p8 p 1)).length = p8 p 1)
      && (bytesAt p 2 (p8 p 1)).all modeByteOk) = true)
    (hscan : ¬ (modeChanges p s).any (fun c => (blockAt s c.1).scan.isSome)) :
    execFeModeSet mb s = .next (settle mb (
      if (modeChanges p s).any polarityFlips then refuse stState s
      else
        let t := modeTick s (p8 p 0) (bytesAt p 2 (p8 p 1))
        okBytes (stampBytes t) (forAll (List.range 16) rowUpdate
          (onFe (fun x => { x with pendingMode := x.pendingMode ++ [(p8 p 0, bytesAt p 2 (p8 p 1), t)] }) s)))) := by
  refine (call_need_asked ask hok).trans ?_
  exact congrArg (fun r => Host.Outcome.next (settle mb r)) (if_neg hscan)

end FrontEndCalls

/-- Settles O16: each clause is its call row, accepted; the scan calls begin their jobs. -/
theorem frontEndCallsRun : Obligations.FrontEndCallsRun := by
  unfold Obligations.FrontEndCallsRun
  refine ⟨?feModeSet, ?feModeGet, ?feDacSet, ?feDacGet, ?fePixelWrite, ?fePixelRead, ?feTrimRun, ?feScurve,
    ?feScanResult, ?feBumpTest, ?feBumpResult, ?feTpInject, ?feCrabConfig, ?feCrabList, ?feLeakConfig, ?feFrameConfig,
    ?feChargeCal, ?feChargeRead, ?feChargeWrite, ?feScrubStatus, ?feStatus⟩
  case feModeSet =>
    intro mb p s ask first n bytes old hok hscan hpol
    refine (feModeSet_asked ask hok hscan).trans ?_
    exact congrArg (fun r => Host.Outcome.next (settle mb r)) (if_neg hpol)
  case feTrimRun | feScurve =>
    exact fun mb p s ask hrange hmore hfree hlow hroom =>
      call_scanCall_asked ask hrange (decide_eq_true hmore) hfree hlow hroom
  case feBumpTest | feChargeCal =>
    exact fun mb p s ask hrange hfree hlow hroom => call_scanCall_asked ask hrange rfl hfree hlow hroom
  case feTpInject =>
    intro mb p s ask hp hfree
    refine (call_need_asked ask (decide_eq_true hp)).trans ?_
    rw [if_neg hfree]
  case feCrabConfig | feLeakConfig => exact fun mb p s ask hp => call_need_asked ask hp
  case feModeGet => exact fun mb p s ask hp => call_need_asked ask (decide_eq_true hp)
  case fePixelWrite | fePixelRead | feBumpResult =>
    intro mb p s ask n hp
    exact call_need_asked ask (decide_eq_true hp)
  case feScanResult =>
    intro mb p s ask n hp
    refine (call_asked ask).trans ?_
    rw [need_of_true (decide_eq_true hp)]
  case feDacSet | feFrameConfig =>
    intro mb p s ask _ _ hp
    exact call_need_asked ask (decide_eq_true hp)
  case feDacGet | feCrabList | feChargeRead | feChargeWrite | feScrubStatus | feStatus =>
    exact fun mb p s ask => call_asked ask

/-- Settles O57: the named block's change flips its polarity, and no named block is in a scan job. -/
theorem polarityChangeRefused : Obligations.PolarityChangeRefused := by
  unfold Obligations.PolarityChangeRefused
  intro mb p s k ask hpos hmax hrange hlen hbytes hscan hk hpol hon hset
  have hfree : ¬ (modeChanges p s).any (fun c => (blockAt s c.1).scan.isSome) := by
    rw [List.any_eq_true]
    rintro ⟨c, hc, hbusy⟩
    obtain ⟨j, hj, hblock⟩ := exists_lt_of_mem_modeChanges hc
    simp [hblock, hscan j hj] at hbusy
  have hflip : polarityFlips (p8 p 0 + k, (blockAt s (p8 p 0 + k)).conf.mode.toNat, p8 p (2 + k)) = true := by
    have hbyte : (BitVec.ofNat 8 (p8 p (2 + k))).toNat = p8 p (2 + k) := Nat.mod_eq_of_lt (BitVec.isLt _)
    rw [← bit_toNat, ← bit_toNat, hbyte] at hpol
    exact decide_eq_true ⟨hpol, hon, hset⟩
  refine (feModeSet_asked ask (by simp [hpos, hmax, hrange, hlen, hbytes]) hfree).trans ?_
  rw [if_pos (List.any_eq_true.mpr ⟨_, mem_modeChanges s hlen hk, hflip⟩)]
  rfl

end Sys2Proof.Machine
end

section
/-! SUPPORT. How a LOW job call begins; and that the event timing's and the hit path's events and calls run as their rules
say. -/
namespace Sys2Proof.Machine

/-- A LOW job call that the governor does not defer, with room among the eight open jobs, starts its job at once and answers
with its number (R55, R526). -/
theorem lowJob_of_room {code : Nat} {p : List Byte} {begin_ : Nat → State → State} {s : State}
    (hlow : lowDeferred s = false) (hroom : s.sys.jobs.length < 8) :
    lowJob code p begin_ s = okBytes (b2 s.sys.nextJob) (begin_ s.sys.nextJob (addJob code p 1 0 s).2) :=
  (lowJob_of_not_deferred hlow).trans (startJob_of_room hroom)

/-- Settles O17: each event is one that is due, each call is its call row, accepted; the calls that begin a job find the
governor's leave and room for it. -/
theorem timingRuns : Obligations.TimingRuns := by
  unfold Obligations.TimingRuns
  refine ⟨?blockCounterCheck, ?inlUpdate, ?tmTempUpdate, ?calRunLatch, ?calBandAgeExpiry, ?tmStatus, ?tmCalStatus,
    ?tmCalRun, ?tmBandConfig, ?tmPeriodRead, ?tmPeriodWrite, ?tmSkewRead, ?tmSkewWrite, ?tmWalkRead, ?tmWalkWrite,
    ?tmWalkCal, ?tmSkewCal, ?tmInlRead, ?tmTempConfig, ?tmDroopRead, ?tmStats⟩
  case blockCounterCheck => exact fun block seen s hdue => event_due (s := s) hdue rfl
  case inlUpdate => exact fun block s hdue => event_due (s := s) (decide_eq_true hdue) rfl
  case tmTempUpdate => exact fun s hdue => event_due (s := s) hdue rfl
  case calRunLatch => exact fun sp per s hdue => event_due (s := s) hdue rfl
  case calBandAgeExpiry => exact fun block band s hdue => event_due (s := s) hdue rfl
  case tmCalRun =>
    intro mb p s ask p' hp hlow hroom
    refine (call_asked ask).trans ?_
    rw [need_of_true (decide_eq_true hp), lowJob_of_room hlow hroom]
  case tmWalkCal =>
    intro mb p s ask hrange hcount hfree hlow hroom
    have hidle : ∀ k ∈ scanBlocks (p8 p 0) (p8 p 1), blockMode s k ≠ 0 ∧ (blockAt s k).scan.isSome = false :=
      fun k hk => (hfree k hk).imp_right fun hnone => by rw [hnone]; rfl
    refine (call_asked ask).trans ?_
    rw [blockJob_of_free hrange (decide_eq_true hcount) hidle, lowJob_of_room hlow hroom]
  case tmSkewCal =>
    intro mb p s ask hp hlow hroom
    refine (call_need_asked ask (decide_eq_true hp)).trans ?_
    rw [lowJob_of_room hlow hroom]
  case tmCalStatus | tmSkewRead | tmSkewWrite | tmDroopRead =>
    exact fun mb p s ask hp => call_need_asked ask (decide_eq_true hp)
  case tmBandConfig | tmPeriodRead | tmPeriodWrite | tmTempConfig => exact fun mb p s ask hp => call_need_asked ask hp
  case tmStatus | tmWalkRead | tmWalkWrite | tmInlRead | tmStats => exact fun mb p s ask => call_asked ask

/-- Settles O18: each event is one that is due, and where it is of a frame, a cluster, a record or a fragment the state may
hold, the clause names the one it holds, and with it the command's branch; each call is its call row, accepted. -/
theorem hitPathRuns : Obligations.HitPathRuns := by
  unfold Obligations.HitPathRuns
  refine ⟨?hitFrameReceived, ?watermarkReceived, ?portLossReceived, ?portFramingError, ?clusterClose, ?reorderRelease,
    ?blockOffRelease, ?edgeFragRx, ?mergeReplyRx, ?mergeWaitExpiryFragment, ?mergeWaitExpiryKept, ?mergeReplyTimeout,
    ?hpStatus, ?hpOutputSet, ?hpClusterConfig, ?hpLossConfig, ?hpLossStatus, ?hpGateConfig, ?hpMergeConfig,
    ?hpMergeStatus, ?hpReorderConfig, ?hpStats, ?hpTpRead⟩
  case hitFrameReceived =>
    intro block ecc drop s n s0 f rest hport hdue
    have hfront : (blockAt (drainInBuf (engineOf s (block / 16)) s) block).port = .hit f :: rest := hport
    delta exec
    simp only [execHitFrameReceived, hfront]
    exact event_due (s := s) hdue rfl
  case clusterClose =>
    intro engine first s s0 c hfind hdue
    delta exec
    simp only [execClusterClose]
    split
    next hnone => exact absurd (hnone.symm.trans hfind) (Option.some_ne_none c).symm
    next c' hsome =>
      obtain rfl := Option.some.inj (hsome.symm.trans hfind)
      exact event_due (s := s) hdue rfl
  case watermarkReceived =>
    intro block s a w b c rest hport hdue
    delta exec
    simp only [execWatermarkReceived, hport]
    exact event_due (s := s) hdue rfl
  case portLossReceived =>
    intro block s cause n a b rest hport hdue
    delta exec
    simp only [execPortLossReceived, hport]
    exact event_due (s := s) hdue rfl
  case portFramingError => exact fun block word0 s hdue => event_due (s := s) hdue rfl
  case edgeFragRx => exact fun side f s hdue => event_due (s := s) hdue rfl
  case reorderRelease =>
    intro q s h rest hheld s0 hdue
    delta exec
    simp only [execReorderRelease, hheld]
    exact event_due (s := s) hdue rfl
  case blockOffRelease =>
    intro q s t bs hreleasing
    delta exec
    simp only [execBlockOffRelease, hreleasing]
    exact event_due (s := s) rfl rfl
  case mergeReplyRx =>
    intro side fragId result s m hsent hdue
    delta exec
    simp only [execMergeReplyRx, hsent]
    exact event_due (s := s) hdue rfl
  case mergeReplyTimeout =>
    intro side fragId s m hsent hdue
    delta exec
    simp only [execMergeReplyTimeout, hsent]
    exact event_due (s := s) hdue rfl
  case mergeWaitExpiryFragment =>
    intro side fragId s w hwaiting hdue
    delta exec
    simp only [execMergeWaitExpiry, hwaiting]
    exact event_due (s := s) hdue rfl
  case mergeWaitExpiryKept =>
    intro side fragId s hnone k hkept hdue
    delta exec
    simp only [execMergeWaitExpiry, hnone, hkept]
    exact event_due (s := s) hdue rfl
  case hpStatus | hpOutputSet | hpLossStatus | hpStats | hpTpRead =>
    exact fun mb p s ask hp => call_need_asked ask (decide_eq_true hp)
  case hpClusterConfig | hpGateConfig | hpMergeConfig | hpReorderConfig => exact fun mb p s ask hp => call_need_asked ask hp
  case hpLossConfig =>
    intro mb p s ask q v hp
    refine (call_asked ask).trans ?_
    rw [need_of_true hp]
  case hpMergeStatus => exact fun mb p s ask => call_asked ask

end Sys2Proof.Machine
end

section
/-! SUPPORT. What a domain word that counts does; and that the trigger engine's and the arming domain's events and calls run
as their rules say. -/
namespace Sys2Proof.Machine

/-- A domain word with a good CRC, of the type awaited, heard on a path of a module that is not OFF: in PADDLE and DRIVE it
is forwarded, and what it says is done (R284 to R286). -/
theorem domainRx_heard {type : Nat} {path : Fin 5} {w : BitVec 64} {act : State → State} {s : State}
    (hhears : (pathHears s path.val && decide (s.tr.domain.state ≠ .off)) = true)
    (hword : domainCrcOk w = true ∧ field w.toNat 63 60 = type) :
    let u := when (decide (path.val < 4)) (slPacketIn path.val) s
    busyState u = true → domainRx type path w act s = .next (act (forwardWord w path.val u)) := by
  obtain ⟨hcrc, htype⟩ := hword
  intro u hbusy
  have hdue : (pathHears s path.val && decide (s.tr.domain.state ≠ .off)
      && (!domainCrcOk w || decide (field w.toNat 63 60 = type))) = true := by
    rw [hhears, decide_eq_true htype, Bool.or_true]
    rfl
  refine (event_due hdue rfl).trans ?_
  dsimp only
  rw [if_neg (by simp [hcrc]), when, if_pos hbusy]

/-- Settles O19: each command is an event, which is due. Where it is of a hold-off, a fire, a capture, a configuration or an
instant the state may hold, the clause names the one it holds, and with it the command's branch; a domain word is heard and
well formed, and the clause's conditions name the branch of what it says. -/
theorem triggerEventsRun : Obligations.TriggerEventsRun := by
  unfold Obligations.TriggerEventsRun
  refine ⟨?adcCalUpdate, ?adcConvergeTimeout, ?triggerFire, ?holdoffEnd, ?softFireTick, ?triggerRecordWrite,
    ?waveCaptureDone, ?trConfigEffect, ?trigInEdge, ?domainArmRx, ?domainDisarmRx, ?domainFireRx, ?domainBeatRx,
    ?domainBeatSend, ?domainBeatTimeout, ?domainArmTick, ?domainRearm, ?domainDisarmEffect⟩
  case adcCalUpdate | adcConvergeTimeout | trigInEdge => exact fun operand s hdue => event_due (s := s) hdue rfl
  case triggerFire => exact fun g xs s hdue => event_due (s := s) hdue rfl
  case domainBeatSend => exact fun s hdue => event_due (s := s) hdue rfl
  case domainBeatTimeout => exact fun s hdue => event_due (s := s) (decide_eq_true hdue) rfl
  case holdoffEnd =>
    intro unit s h rest hholds hdue
    delta exec
    simp only [execHoldoffEnd, hholds]
    exact event_due (s := s) hdue rfl
  case softFireTick =>
    intro s mask t rest hsoft hdue
    delta exec
    simp only [execSoftFireTick, hsoft]
    rw [← hsoft] -- the clause states the effect through the queue itself
    exact event_due (s := s) hdue rfl
  case triggerRecordWrite =>
    intro s f hnext e waits hdue
    delta exec
    simp only [execTriggerRecordWrite, hnext]
    exact event_due (s := s) hdue rfl
  case waveCaptureDone =>
    intro eng s c hcapture hdue
    delta exec
    simp only [execWaveCaptureDone, hcapture]
    exact event_due (s := s) hdue rfl
  case trConfigEffect =>
    intro s p rest hpending hdue
    delta exec
    simp only [execTrConfigEffect, hpending]
    exact event_due (s := s) hdue rfl
  case domainArmTick | domainRearm | domainDisarmEffect =>
    intro s t hheld hdue
    delta exec
    simp only [execDomainArmTick, execDomainRearm, execDomainDisarmEffect, hheld]
    exact event_due (s := s) hdue rfl
  case domainArmRx =>
    intro path w s hhears hword u hbusy t ⟨hmember, hattached, hnew⟩
    refine (domainRx_heard hhears hword hbusy).trans ?_
    rw [if_neg (by simp [t, u, hmember, hattached, hnew])]
  case domainDisarmRx =>
    intro path w s hhears hword u hbusy t hattached
    refine (domainRx_heard hhears hword hbusy).trans ?_
    dsimp only
    rw [if_neg hattached]
  case domainFireRx =>
    intro path w s hhears hword u hbusy t d key ⟨hseq, hstate, hunseen⟩
    have hattached : d.state ≠ .detached := by
      obtain harmed | hfired := hstate
      · simp [harmed]
      · simp [hfired]
    have hvalid : ¬ (field w.toNat 59 52 ≠ d.seq ∨ (d.state ≠ .armed ∧ d.state ≠ .fired)) :=
      fun h => h.elim (fun hother => hother hseq) (fun hneither => hstate.elim hneither.1 hneither.2)
    refine (domainRx_heard hhears hword hbusy).trans ?_
    dsimp only
    rw [if_neg hattached, if_neg hvalid, if_neg (Bool.eq_false_iff.mp hunseen)]
  case domainBeatRx =>
    intro path w s hhears hword u hbusy
    exact (domainRx_heard hhears hword hbusy).trans rfl

/-- Settles O20: each clause is its call row, accepted; TR_ARM and TR_DISARM are the master's. -/
theorem triggerCallsRun : Obligations.TriggerCallsRun := by
  unfold Obligations.TriggerCallsRun
  refine ⟨?trStatus, ?trUnitConfig, ?trUnitRead, ?trUnitEnable, ?trPatchConfig, ?trAdcStatus, ?trAdcFreeze,
    ?trDomainConfig, ?trArm, ?trDisarm, ?trDomainStatus, ?trSoftFire, ?trStats, ?trTrigioConfig, ?trSampleRead⟩
  case trStatus | trDomainStatus => exact fun mb p s ask => call_asked ask
  case trUnitConfig =>
    intro mb p s ask c hp
    exact call_need_asked ask hp
  case trUnitEnable =>
    intro mb p s ask us cs hp
    refine (call_asked ask).trans ?_
    rw [need_of_true hp]
  case trPatchConfig =>
    intro mb p s ask first n v hp
    exact call_need_asked ask hp
  case trAdcStatus =>
    intro mb p s ask a hp
    refine (call_asked ask).trans ?_
    rw [need_of_true (decide_eq_true hp)]
  case trArm =>
    intro mb p s ask hmaster lead hp
    refine (call_asked ask).trans ?_
    rw [needState_of_true hmaster, need_of_true (decide_eq_true hp)]
  case trDisarm =>
    intro mb p s ask hmaster
    refine (call_asked ask).trans ?_
    rw [needState_of_true hmaster]
  case trUnitRead | trAdcFreeze => exact fun mb p s ask hp => call_need_asked ask (decide_eq_true hp)
  case trDomainConfig | trTrigioConfig => exact fun mb p s ask hp => call_need_asked ask hp
  case trSoftFire =>
    intro mb p s ask t hp
    refine (call_asked ask).trans ?_
    rw [need_of_true hp]
  case trStats =>
    intro mb p s ask u hp
    exact call_need_asked ask (decide_eq_true hp)
  case trSampleRead =>
    intro mb p s ask patch src n hp
    exact call_need_asked ask (decide_eq_true hp)

end Sys2Proof.Machine
end

section
/-! SUPPORT. When a core issues nothing, and which acts of its instructions never stall; and that the waveform engine's
instructions, events and calls run as their rules say. -/
namespace Sys2Proof.Machine

section Issue
variable {n opc : Nat} {legal : WeCore → WeIns → Bool} {act : WeIns → State → WeAct} {s : State}

/-- A core that is not RUNNING, is stalled or is unpowered issues nothing (R300, R301, R316). -/
theorem issue_of_idle (hidle : (coreAt s n).state ≠ .running ∨ (coreAt s n).stall ≠ none ∨ busyState s = false) :
    issue n opc legal act s = .next s := by
  refine congrArg Host.Outcome.next (if_neg ?_)
  simp only [Bool.and_eq_true, decide_eq_true_eq]
  rintro ⟨⟨hrunning, hfree⟩, hbusy⟩
  obtain hstate | hstall | hoff := hidle
  · exact hstate hrunning
  · exact hstall hfree
  · exact Bool.eq_false_iff.mp hoff hbusy

/-- An instruction command is an issue by its core. -/
theorem exec_eq_issue {i : Instr} {core : Fin 4} (hcore : issuesOn i = some core) (s : State) :
    ∃ opc legal act, exec i s = issue core.val opc legal act s := by
  unfold issuesOn at hcore
  split at hcore <;> cases hcore
  all_goals exact ⟨_, _, _, rfl⟩

theorem goAct_ne_stall (k : Stall) (u : State) : goAct n s ≠ .stall k u := nofun

theorem branchAct_ne_stall (target : Nat) (k : Stall) (u : State) : branchAct n target s ≠ .stall k u := by
  unfold branchAct
  split <;> exact nofun

theorem ftapAct_ne_stall (set : Bool) (i : WeIns) (k : Stall) (u : State) : ftapAct set n i s ≠ .stall k u := by
  unfold ftapAct
  dsimp only
  split <;> exact nofun

/-- An IN with a sample ready does not stall (R328). -/
theorem inAct_ne_stall {i : WeIns} (hready : (popInput n (i.src1 % 16) s).isSome = true) (k : Stall) (u : State) :
    inAct n i s ≠ .stall k u := by
  obtain ⟨popped, hpop⟩ := Option.isSome_iff_exists.mp hready
  rw [inAct, hpop]
  exact goAct_ne_stall k u

/-- An OUT with room in its channel's buffer does not stall (R332). -/
theorem outAct_ne_stall {i : WeIns} (hroom : (bufferedOuts (coreAt s n) (i.dst % 16)).length < 64) (k : Stall)
    (u : State) : outAct n i s ≠ .stall k u := by
  rw [outAct, if_neg (Nat.not_le.mpr hroom)]
  exact goAct_ne_stall k u

/-- A QPUT with room in the record buffer does not stall (R335). -/
theorem qputAct_ne_stall {i : WeIns} (hroom : bufferWords (coreAt (flushRecords n s) n) < 512) (k : Stall)
    (u : State) : qputAct n i s ≠ .stall k u := by
  rw [qputAct, if_neg (Nat.not_le.mpr hroom)]
  dsimp only
  split <;> exact goAct_ne_stall k u

end Issue

/-- Settles O58: an instruction command is an issue, and an idle core issues nothing. -/
theorem idleCoreIssuesNothing : Obligations.IdleCoreIssuesNothing := by
  unfold Obligations.IdleCoreIssuesNothing
  intro i core s hcore hidle
  obtain ⟨opc, legal, act, hissue⟩ := exec_eq_issue hcore s
  rw [hissue]
  exact issue_of_idle hidle

/-- Settles O21: each instruction issues, and goes on after its index, so that it does not stall. -/
theorem waveformArithmeticRuns : Obligations.WaveformArithmeticRuns := by
  unfold Obligations.WaveformArithmeticRuns
  and_intros
  all_goals exact fun core s hissues => issue_issued _ _ anyForm _ s hissues rfl goAct_ne_stall

/-- Settles O22: each instruction issues in a form its row allows. IN, OUT and QPUT find what they would else wait for; a
branch and an instruction that uses a stack go on, jump or fault; none of the others can stall. -/
theorem waveformControlRuns : Obligations.WaveformControlRuns := by
  unfold Obligations.WaveformControlRuns
  refine ⟨?movs, ?movsr, ?ftap, ?ftap0, ?lda, ?movaw, ?input, ?output, ?qput, ?qend, ?br, ?brz, ?brnz, ?call, ?ret,
    ?loop, ?ploop, ?wait, ?rti, ?swi, ?halt⟩
  case movs => exact fun core s hissues hform => issue_issued _ _ _ _ s hissues hform fun _ _ => nofun
  case movsr | lda | movaw | qend | swi =>
    exact fun core s hissues => issue_issued _ _ anyForm _ s hissues rfl goAct_ne_stall
  case wait | halt => exact fun core s hissues => issue_issued _ _ anyForm _ s hissues rfl fun _ _ => nofun
  case ftap | ftap0 =>
    exact fun core s hissues hform => issue_issued _ _ _ _ s hissues hform (ftapAct_ne_stall _ _)
  case input => exact fun core s hissues hready => issue_issued _ _ anyForm _ s hissues rfl (inAct_ne_stall hready)
  case output => exact fun core s hissues hroom => issue_issued _ _ anyForm _ s hissues rfl (outAct_ne_stall hroom)
  case qput => exact fun core s hissues hroom => issue_issued _ _ anyForm _ s hissues rfl (qputAct_ne_stall hroom)
  case br => exact fun core s hissues hform => issue_issued _ _ _ _ s hissues hform (branchAct_ne_stall _)
  case brz | brnz =>
    intro core s hissues hform
    refine issue_issued _ _ _ _ s hissues hform fun k u => ?_
    dsimp only
    split
    · exact branchAct_ne_stall _ k u
    · exact goAct_ne_stall k u
  case call =>
    intro core s hissues hform
    refine issue_issued _ _ _ _ s hissues hform fun k u => ?_
    dsimp only
    split
    · exact nofun -- the target lies outside the loop
    · split <;> exact nofun
  case ret =>
    intro core s hissues x hform
    refine issue_issued _ _ _ _ s hissues hform fun k u => ?_
    dsimp only
    split <;> exact nofun
  case loop =>
    intro core s hissues x i hform
    refine issue_issued _ _ _ _ s hissues hform fun k u => ?_
    dsimp only
    split
    · exact nofun -- no pass is asked
    · split <;> exact nofun
  case ploop =>
    intro core s hissues x i hform
    refine issue_issued _ _ _ _ s hissues hform fun k u => ?_
    dsimp only
    split <;> exact nofun
  case rti =>
    intro core s hissues
    refine issue_issued _ _ anyForm _ s hissues rfl fun k u => ?_
    dsimp only
    split <;> exact nofun

/-- Settles O23: each event is one that is due, and where it is of a sample or an interrupt source the state may hold, the
clause names the one it holds; each call is its call row, accepted. -/
theorem waveformCallsRun : Obligations.WaveformCallsRun := by
  unfold Obligations.WaveformCallsRun
  refine ⟨?weInResume, ?weOutResume, ?weQputResume, ?weIrqLevel1, ?weIrqLevel2, ?weInputSample, ?weStatus,
    ?weLoadBegin, ?weLoadData, ?weLoadEndReject, ?weLoadEndAccept, ?weStart, ?weStop, ?weMemRead, ?weParamWrite,
    ?weRegRead, ?weSignal, ?weStats, ?wePatrolScrub⟩
  case weInResume =>
    intro core s ready hready hstalled hbusy
    delta exec
    simp only [execWeInResume, hready]
    exact event_due (s := s) (by simp [hstalled, hbusy]) rfl
  case weOutResume =>
    intro core s hstalled hbusy
    exact event_due (s := s) (by simp [hstalled, hbusy]) rfl
  case weQputResume =>
    intro core s hstalled hbusy f hroom
    exact event_due (s := s) (by simp [hstalled, hbusy, f, hroom]) rfl
  case weIrqLevel1 =>
    intro core s x k hsource hdue
    delta exec
    simp only [execWeIrqLevel1, hsource]
    exact event_due (s := s) hdue rfl
  case weIrqLevel2 =>
    intro core s k hsource hdue
    delta exec
    simp only [execWeIrqLevel2, hsource]
    exact event_due (s := s) hdue rfl
  case weInputSample =>
    intro core ch g s x c d xs hgroup hdue
    delta exec
    simp only [execWeInputSample, x, c, d, hgroup]
    exact event_due (s := s) hdue rfl
  case wePatrolScrub => exact fun core space word syndrome ups s hdue => event_due (s := s) hdue rfl
  case weStatus =>
    intro mb p s ask x hp
    refine (call_asked ask).trans ?_
    rw [need_of_true (decide_eq_true hp)]
  case weStats =>
    intro mb p s ask n x hp
    refine (call_asked ask).trans ?_
    rw [need_of_true (decide_eq_true hp)]
  case weStart | weStop | weSignal => exact fun mb p s ask hp => call_need_asked ask (decide_eq_true hp)
  case weMemRead =>
    intro mb p s ask sp cnt off hp
    exact call_need_asked ask (decide_eq_true hp)
  case weLoadBegin =>
    intro mb p s ask n hp hstate
    refine (call_need_asked ask (decide_eq_true hp)).trans ?_
    rw [needState_of_true (decide_eq_true hstate)]
  case weLoadData =>
    intro mb p s ask n sp cnt off data hp hloading
    refine (call_need_asked ask (decide_eq_true hp)).trans ?_
    rw [needState_of_true hloading]
  case weLoadEndReject =>
    intro mb p s ask n hp x hstate r hreject
    refine (call_need_asked ask (decide_eq_true hp)).trans ?_
    rw [needState_of_true (decide_eq_true hstate), if_pos hreject]
  case weLoadEndAccept =>
    intro mb p s ask n hp x hstate r haccept
    refine (call_need_asked ask (decide_eq_true hp)).trans ?_
    rw [needState_of_true (decide_eq_true hstate), if_neg haccept]
  case weParamWrite =>
    intro mb p s ask n sp cnt off data hp
    refine (call_need_asked ask (decide_eq_true hp)).trans ?_
    dsimp only
    rw [← apply_ite ok]
  case weRegRead =>
    intro mb p s ask x r hp hstate
    refine (call_asked ask).trans ?_
    rw [need_of_true (decide_eq_true hp), needState_of_true (decide_eq_true hstate)]

end Sys2Proof.Machine
end

section
/-! SUPPORT. The code of the memory words: how many bits of a word are set and what XOR does to that number, the columns,
the syndrome as an XOR of columns; and what R371 guarantees of errors of up to three bits. -/
namespace Sys2Proof.Machine

section SetBits

/-- The numeral form of a bit of a number is the library's. -/
theorem bit_eq_testBit (v i : Nat) : bit v i = v.testBit i := by
  rw [bit, Nat.testBit_eq_decide_div_mod_eq]

/-- How many of the indices that satisfy just one of two tests there are. -/
theorem countP_xor {α : Type} (p q : α → Bool) (l : List α) :
    l.countP (fun x => p x ^^ q x) + 2 * l.countP (fun x => p x && q x) = l.countP p + l.countP q := by
  induction l with
  | nil => rfl
  | cons x xs ih => cases hp : p x <;> cases hq : q x <;> simp [hp, hq] <;> omega

/-- Set bits of a number below a limit, as a count. -/
theorem length_maskList (n v : Nat) : (maskList n v).length = (List.range n).countP (bit v) :=
  List.countP_eq_length_filter.symm

/-- The set bits below a limit, split at a place. -/
theorem length_maskList_add (m n v : Nat) :
    (maskList (m + n) v).length = (maskList m v).length + (maskList n (v / 2 ^ m)).length := by
  have hshift : bit v ∘ (m + ·) = bit (v / 2 ^ m) := by
    funext i
    simp [bit_eq_testBit, Nat.testBit_div_two_pow, Nat.add_comm]
  rw [length_maskList, length_maskList, length_maskList, List.range_add, List.countP_append, List.countP_map, hshift]

/-- A number below a power of two sets no bit from there on. -/
theorem length_maskList_of_lt {m n v : Nat} (hv : v < 2 ^ m) : (maskList (m + n) v).length = (maskList m v).length := by
  have hzero : maskList n (v / 2 ^ m) = [] := by
    rw [Nat.div_eq_of_lt hv]
    simp [maskList, bit]
  rw [length_maskList_add, hzero, List.length_nil, Nat.add_zero]

/-- The set bits of a number depend on what it is below the limit alone. -/
theorem length_maskList_mod (n v : Nat) : (maskList n (v % 2 ^ n)).length = (maskList n v).length := by
  refine congrArg List.length (List.filter_congr fun i hi => ?_)
  rw [bit_eq_testBit, bit_eq_testBit, Nat.testBit_mod_two_pow, decide_eq_true (List.mem_range.mp hi), Bool.true_and]

/-- The bits set in just one of two numbers: their number and the common bits twice are the bits of both. -/
theorem length_maskList_xor (n u v : Nat) :
    (maskList n (u ^^^ v)).length + 2 * (maskList n (u &&& v)).length
      = (maskList n u).length + (maskList n v).length := by
  have hxor : bit (u ^^^ v) = fun i => bit u i ^^ bit v i := by
    funext i
    simp [bit_eq_testBit]
  have hand : bit (u &&& v) = fun i => bit u i && bit v i := by
    funext i
    simp [bit_eq_testBit]
  rw [length_maskList, length_maskList, length_maskList, length_maskList, hxor, hand]
  exact countP_xor _ _ _

/-- The weight of a check code: how many of its 16 bits are set (R371). -/
def weight (x : Nat) : Nat := (maskList 16 x).length

@[simp] theorem weight_zero : weight 0 = 0 := rfl

/-- A code of 16 bits in which none is set is 0. -/
theorem eq_zero_of_weight_eq_zero {x : Nat} (hx : x < 2 ^ 16) (hw : weight x = 0) : x = 0 := by
  refine Nat.eq_of_testBit_eq fun i => ?_
  rw [Nat.zero_testBit]
  obtain hi | hi := Nat.lt_or_ge i 16
  · have hclear := List.filter_eq_nil_iff.mp (List.eq_nil_of_length_eq_zero hw) i (List.mem_range.mpr hi)
    rwa [bit_eq_testBit, Bool.not_eq_true] at hclear
  · exact Nat.testBit_lt_two_pow (Nat.lt_of_lt_of_le hx (Nat.pow_le_pow_right Nat.two_pos hi))

theorem weight_xor_le (x y : Nat) : weight (x ^^^ y) ≤ weight x + weight y :=
  Nat.le.intro (length_maskList_xor 16 x y)

theorem weight_xor_mod_two (x y : Nat) : weight (x ^^^ y) % 2 = (weight x + weight y) % 2 := by
  have h := length_maskList_xor 16 x y
  unfold weight
  omega

/-- A code and its difference from all ones have the 16 bits between them. -/
theorem sixteen_le_weight_complement (x : Nat) : 16 ≤ weight (0xFFFF ^^^ x) + weight x := by
  have hall : weight (0xFFFF ^^^ x ^^^ x) = 16 := by
    rw [Nat.xor_assoc, Nat.xor_self]
    rfl
  exact hall ▸ weight_xor_le _ _

end SetBits

section Columns
variable {x : Nat}

/-- Each number of a list lies above the one before it, and the first above a limit. -/
def risesFrom : Nat → List Nat → Bool
  | _, [] => true
  | lo, c :: cs => decide (lo < c) && risesFrom c cs

/-- What rises from a limit lies above it, and no two numbers in it are equal. -/
theorem nodup_of_risesFrom : ∀ (cs : List Nat) (lo : Nat), risesFrom lo cs = true → (∀ c ∈ cs, lo < c) ∧ cs.Nodup
  | [], _, _ => ⟨nofun, List.Pairwise.nil⟩
  | c :: cs, lo, h => by
    simp only [risesFrom, Bool.and_eq_true, decide_eq_true_eq] at h
    obtain ⟨hlo, hrises⟩ := h
    obtain ⟨habove, hnodup⟩ := nodup_of_risesFrom cs c hrises
    refine ⟨fun y hy => ?_, List.nodup_cons.mpr ⟨fun hc => Nat.lt_irrefl c (habove c hc), hnodup⟩⟩
    obtain rfl | hy := List.mem_cons.mp hy
    · exact hlo
    · exact Nat.lt_trans hlo (habove y hy)

/-- The columns of data and address bits rise, so that no two are equal (R369). -/
theorem weight3_nodup : weight3.Nodup :=
  have hrises : risesFrom 0 weight3 = true := by decide +kernel
  (nodup_of_risesFrom weight3 0 hrises).2

@[simp] theorem weight3_length : weight3.length = 364 := by decide +kernel

/-- The column of a data or address bit has weight 3 (R369). -/
theorem weight_of_mem_weight3 (hx : x ∈ weight3) : weight x = 3 := by
  have hall : ∀ y ∈ weight3, weight y = 3 := by decide +kernel
  exact hall x hx

/-- The column of a check bit has weight 1 (R369). -/
theorem weight_two_pow {k : Nat} (hk : k < 16) : weight (2 ^ k) = 1 := by
  have hall : ∀ j < 16, weight (2 ^ j) = 1 := by decide
  exact hall k hk

theorem getD_weight3 {i : Nat} (hi : i < 364) : weight3.getD i 0 = weight3[i]'(weight3_length ▸ hi) := by
  simp [hi]

theorem getD_mem_weight3 {i : Nat} (hi : i < 364) : weight3.getD i 0 ∈ weight3 :=
  getD_weight3 hi ▸ List.getElem_mem _

/-- The data bits' columns are the first 256. -/
theorem mem_dataColumns : x ∈ weight3.take 256 ↔ ∃ i < 256, weight3.getD i 0 = x := by
  simp only [List.mem_take_iff_getElem, weight3_length]
  constructor
  · rintro ⟨i, hi, rfl⟩
    exact ⟨i, by omega, getD_weight3 (by omega)⟩
  · rintro ⟨i, hi, rfl⟩
    exact ⟨i, by omega, (getD_weight3 (by omega)).symm⟩

/-- The address bits' columns are the next 28. -/
theorem mem_addressColumns : x ∈ (weight3.drop 256).take 28 ↔ ∃ j < 28, weight3.getD (256 + j) 0 = x := by
  simp only [List.mem_take_iff_getElem, List.length_drop, weight3_length, List.getElem_drop]
  constructor
  · rintro ⟨j, hj, rfl⟩
    exact ⟨j, by omega, getD_weight3 (by omega)⟩
  · rintro ⟨j, hj, rfl⟩
    exact ⟨j, by omega, (getD_weight3 (by omega)).symm⟩

/-- Two bits with one column are one bit. -/
theorem getD_weight3_inj {i j : Nat} (hi : i < 364) (hj : j < 364) (h : weight3.getD i 0 = weight3.getD j 0) :
    i = j := by
  rw [getD_weight3 hi, getD_weight3 hj] at h
  exact (List.getElem_inj weight3_nodup).mp h

end Columns

section Results
variable {x : Nat}

/-- A syndrome is the column of a data bit or check bit (R371). -/
def Correctable (x : Nat) : Prop := x ∈ weight3.take 256 ∨ ∃ k < 16, x = 2 ^ k

theorem checkResult_of_correctable (hx : Correctable x) : checkResult x = 1 := by
  have hne : x ≠ 0 := by
    rintro rfl
    obtain hdata | ⟨k, -, hzero⟩ := hx
    · exact absurd (weight_of_mem_weight3 (List.mem_of_mem_take hdata)) (by decide)
    · exact absurd hzero.symm (Nat.ne_of_gt (Nat.two_pow_pos k))
  rw [checkResult, if_neg hne, if_pos]
  simpa [Correctable] using hx

theorem checkResult_of_address (hx : x ∈ (weight3.drop 256).take 28) (hc : ¬ Correctable x) : checkResult x = 2 := by
  have hne : x ≠ 0 := by
    rintro rfl
    exact absurd (weight_of_mem_weight3 (List.mem_of_mem_drop (List.mem_of_mem_take hx))) (by decide)
  rw [checkResult, if_neg hne, if_neg (by simpa [Correctable] using hc), if_pos (by simpa using hx)]

theorem checkResult_of_no_column (hne : x ≠ 0) (hc : ¬ Correctable x) (ha : x ∉ (weight3.drop 256).take 28) :
    checkResult x = if 10 ≤ weight x then 3 else 4 := by
  rw [checkResult, if_neg hne, if_neg (by simpa [Correctable] using hc), if_neg (by simpa using ha), weight]

/-- A syndrome that is corrected has weight 3 or 1. -/
theorem weight_of_correctable (hx : Correctable x) : weight x = 3 ∨ weight x = 1 := by
  obtain hdata | ⟨k, hk, rfl⟩ := hx
  · exact .inl (weight_of_mem_weight3 (List.mem_of_mem_take hdata))
  · exact .inr (weight_two_pow hk)

/-- A syndrome reads as poison where its weight is 10 or more, and nowhere else (R371). -/
theorem checkResult_eq_three_iff : checkResult x = 3 ↔ 10 ≤ weight x := by
  by_cases hne : x = 0
  · simp [hne, checkResult]
  by_cases hc : Correctable x
  · rw [checkResult_of_correctable hc]
    have := weight_of_correctable hc
    omega
  by_cases ha : x ∈ (weight3.drop 256).take 28
  · rw [checkResult_of_address ha hc, weight_of_mem_weight3 (List.mem_of_mem_drop (List.mem_of_mem_take ha))]
    decide
  · simp [checkResult_of_no_column hne hc ha]

/-- A syndrome that is not 0 and has an even weight is no column of a data or check bit, so its word is unreliable. -/
theorem two_le_checkResult_of_even (hne : x ≠ 0) (heven : weight x % 2 = 0) : 2 ≤ checkResult x := by
  have hc : ¬ Correctable x := fun hx => by
    have := weight_of_correctable hx
    omega
  by_cases ha : x ∈ (weight3.drop 256).take 28
  · exact Nat.le_of_eq (checkResult_of_address ha hc).symm
  · rw [checkResult_of_no_column hne hc ha]
    split <;> decide

end Results

section Delivery
variable {d x : Nat}

/-- A syndrome that is no data bit's column leaves the data as stored. -/
theorem delivered_of_not_mem (hx : x ∉ weight3.take 256) : delivered d x = d := by
  have hnone : (weight3.take 256).findIdx? (· == x) = none := by
    rw [List.findIdx?_eq_none_iff]
    exact fun y hy => beq_false_of_ne (ne_of_mem_of_not_mem hy hx)
  rw [delivered, hnone]

/-- The column of a data bit restores that bit. -/
theorem delivered_data_column {i : Nat} (hi : i < 256) : delivered d (weight3.getD i 0) = d ^^^ 2 ^ i := by
  have hsome : (weight3.take 256).findIdx? (· == weight3.getD i 0) = some i := by
    have hlen : i < (weight3.take 256).length := by simpa using hi
    rw [List.findIdx?_eq_some_iff_getElem]
    simp only [List.getElem_take, beq_iff_eq]
    refine ⟨hlen, (getD_weight3 (by omega)).symm, fun j hj => ?_⟩
    rw [← getD_weight3 (show j < 364 by omega)]
    exact fun h => Nat.ne_of_lt hj (getD_weight3_inj (by omega) (by omega) h)
  rw [delivered, hsome]

end Delivery

section Syndromes

/-- A difference taken twice is undone. -/
theorem xor_xor_cancel_left (x y : Nat) : x ^^^ (x ^^^ y) = y := by
  rw [← Nat.xor_assoc, Nat.xor_self, Nat.zero_xor]

theorem eq_of_xor_eq_zero {x y : Nat} (h : x ^^^ y = 0) : x = y := by
  rw [← xor_xor_cancel_left x y, h, Nat.xor_zero]

/-- The column of a bit that is set in just one of two numbers. -/
theorem column_xor (b d : Bool) (c : Nat) :
    (if b ^^ d then c else 0) = (if b then c else 0) ^^^ (if d then c else 0) := by
  cases b <;> cases d <;> simp

theorem columnsOf_xor (u v : Nat) : ∀ (cs : List Nat) (k : Nat),
    columnsOf cs k (u ^^^ v) = columnsOf cs k u ^^^ columnsOf cs k v
  | [], _ => (Nat.xor_self 0).symm
  | c :: cs, k => by
    have hbit : bit (u ^^^ v) k = (bit u k ^^ bit v k) := by simp [bit_eq_testBit]
    rw [columnsOf, columnsOf, columnsOf, columnsOf_xor u v cs (k + 1), hbit, column_xor]
    ac_rfl

/-- A word and its line address lie side by side in the number whose columns are summed. -/
theorem testBit_word_append {data : Nat} (hdata : data < 2 ^ 256) (addr i : Nat) :
    (data + addr * 2 ^ 256).testBit i = if i < 256 then data.testBit i else addr.testBit (i - 256) := by
  rw [Nat.add_comm, Nat.mul_comm]
  exact Nat.testBit_two_pow_mul_add addr hdata i

/-- The clean check bits of a difference are the difference of the clean check bits. -/
theorem cleanCheck_xor {d e : Nat} (hd : d < 2 ^ 256) (he : e < 2 ^ 256) (a b : Nat) :
    cleanCheck (d ^^^ e) (a ^^^ b) = cleanCheck d a ^^^ cleanCheck e b := by
  have hword : (d ^^^ e) + (a ^^^ b) % 2 ^ 28 * 2 ^ 256
      = (d + a % 2 ^ 28 * 2 ^ 256) ^^^ (e + b % 2 ^ 28 * 2 ^ 256) := by
    refine Nat.eq_of_testBit_eq fun i => ?_
    rw [Nat.testBit_xor, testBit_word_append (Nat.xor_lt_two_pow hd he), testBit_word_append hd,
      testBit_word_append he, Nat.xor_mod_two_pow]
    split <;> exact Nat.testBit_xor ..
  rw [cleanCheck, hword, columnsOf_xor, cleanCheck, cleanCheck]

/-- With the address right, the clean check bits are those of the data. -/
theorem cleanCheck_data (data : Nat) : cleanCheck data 0 = columnsOf weight3 0 data := by
  simp [cleanCheck]

/-- How many bits of a number are set in a run of places: those whose columns `columnsOf` sums. -/
def bitsSet (v k n : Nat) : Nat := (List.range' k n).countP (bit v)

@[simp] theorem bitsSet_none (v k : Nat) : bitsSet v k 0 = 0 := rfl

theorem bitsSet_succ (v k n : Nat) : bitsSet v k (n + 1) = bitsSet v (k + 1) n + if bit v k then 1 else 0 := by
  rw [bitsSet, List.range'_succ, List.countP_cons, bitsSet]

/-- No bit set sums no column. -/
theorem columnsOf_eq_zero {v : Nat} : ∀ (cs : List Nat) (k : Nat),
    bitsSet v k cs.length = 0 → columnsOf cs k v = 0
  | [], _, _ => rfl
  | c :: cs, k, h => by
    rw [List.length_cons, bitsSet_succ] at h
    cases hk : bit v k
    · simpa [columnsOf, hk] using columnsOf_eq_zero cs (k + 1) (by omega)
    · simp [hk] at h

/-- One bit set sums to one of the columns. -/
theorem columnsOf_mem {v : Nat} : ∀ (cs : List Nat) (k : Nat),
    bitsSet v k cs.length = 1 → columnsOf cs k v ∈ cs
  | [], _, h => absurd h Nat.zero_ne_one
  | c :: cs, k, h => by
    rw [List.length_cons, bitsSet_succ] at h
    cases hk : bit v k
    · simpa [columnsOf, hk] using .inr (columnsOf_mem cs (k + 1) (by simpa [hk] using h))
    · simp [columnsOf, hk, columnsOf_eq_zero cs (k + 1) (by simpa [hk] using h)]

/-- Two bits set sum to something other than 0 where no two columns are equal. -/
theorem columnsOf_ne_zero {v : Nat} : ∀ (cs : List Nat) (k : Nat), cs.Nodup →
    bitsSet v k cs.length = 2 → columnsOf cs k v ≠ 0
  | [], _, _, h => absurd h (by simp)
  | c :: cs, k, hnodup, h => by
    obtain ⟨hc, hcs⟩ := List.nodup_cons.mp hnodup
    rw [List.length_cons, bitsSet_succ] at h
    cases hk : bit v k
    · simpa [columnsOf, hk] using columnsOf_ne_zero cs (k + 1) hcs (by simpa [hk] using h)
    · have hmem := columnsOf_mem cs (k + 1) (v := v) (by simpa [hk] using h)
      rw [columnsOf, if_pos hk]
      exact fun hzero => hc (eq_of_xor_eq_zero hzero ▸ hmem)

/-- A sum of columns weighs at most three for each bit set, and its weight is odd where their number is. -/
theorem weight_columnsOf {v : Nat} : ∀ (cs : List Nat) (k : Nat), (∀ c ∈ cs, weight c = 3) →
    weight (columnsOf cs k v) ≤ 3 * bitsSet v k cs.length ∧
      weight (columnsOf cs k v) % 2 = bitsSet v k cs.length % 2
  | [], _, _ => by simp [columnsOf]
  | c :: cs, k, hall => by
    obtain ⟨hle, hmod⟩ := weight_columnsOf (v := v) cs (k + 1) fun y hy => hall y (List.mem_cons_of_mem c hy)
    rw [List.length_cons, bitsSet_succ, columnsOf]
    cases hk : bit v k
    · simpa [hk] using ⟨hle, hmod⟩
    · have hc := hall c List.mem_cons_self
      have hxor := weight_xor_le c (columnsOf cs (k + 1) v)
      have hpar := weight_xor_mod_two c (columnsOf cs (k + 1) v)
      simp only [if_true]
      omega

/-- A single bit sums to its own column. -/
theorem columnsOf_two_pow (i : Nat) : ∀ (cs : List Nat) (k : Nat),
    columnsOf cs k (2 ^ i) = if k ≤ i then cs.getD (i - k) 0 else 0
  | [], k => by simp [columnsOf]
  | c :: cs, k => by
    have hbit : bit (2 ^ i) k = decide (i = k) := by rw [bit_eq_testBit, Nat.testBit_two_pow]
    rw [columnsOf, columnsOf_two_pow i cs (k + 1), hbit]
    obtain hlt | rfl | hgt := Nat.lt_trichotomy i k
    · simp [Nat.ne_of_lt hlt, show ¬ k ≤ i by omega, show ¬ k + 1 ≤ i by omega]
    · rw [if_neg (Nat.not_succ_le_self i)]
      simp
    · have hindex : i - k = i - (k + 1) + 1 := by omega
      simp [Nat.ne_of_gt hgt, Nat.le_of_lt hgt, Nat.succ_le_of_lt hgt, hindex]

/-- The data bits in error, as the columns count them. -/
theorem bitsSet_columns {data : Nat} (hdata : data < 2 ^ 256) :
    bitsSet data 0 weight3.length = (maskList 256 data).length := by
  rw [weight3_length, bitsSet, ← List.range_eq_range', ← length_maskList]
  exact length_maskList_of_lt (n := 108) hdata

end Syndromes

/-- The error of a word whose data and check bits differ where a number of 272 bits is set: the data bits first. -/
def wordErr (a : BitVec 272) : LineErr := { data := a.setWidth 256, check := (a >>> 256).setWidth 16, addr := 0 }

section WordErrors
variable (a : BitVec 272)

theorem syndrome_wordErr : syndrome (wordErr a) =
    columnsOf weight3 0 (wordErr a).data.toNat ^^^ (wordErr a).check.toNat :=
  congrArg (· ^^^ (wordErr a).check.toNat) (cleanCheck_data _)

/-- The bits in error are those of the data and those of the check bits. -/
theorem length_maskList_wordErr :
    (maskList 272 a.toNat).length
      = (maskList 256 (wordErr a).data.toNat).length + weight (wordErr a).check.toNat := by
  have hdata : (wordErr a).data.toNat = a.toNat % 2 ^ 256 := BitVec.toNat_setWidth ..
  have hcheck : (wordErr a).check.toNat = a.toNat / 2 ^ 256 % 2 ^ 16 := by
    simp [wordErr, Nat.shiftRight_eq_div_pow]
  rw [hdata, hcheck, weight, length_maskList_mod, length_maskList_mod]
  exact length_maskList_add 256 16 a.toNat

/-- The syndrome weighs at most three for each bit in error, and its weight is odd where their number is. -/
theorem weight_syndrome_wordErr : weight (syndrome (wordErr a)) ≤ 3 * (maskList 272 a.toNat).length ∧
    weight (syndrome (wordErr a)) % 2 = (maskList 272 a.toNat).length % 2 := by
  have hcolumns := weight_columnsOf (v := (wordErr a).data.toNat) weight3 0 fun c => weight_of_mem_weight3
  rw [bitsSet_columns (BitVec.isLt _)] at hcolumns
  have hle := weight_xor_le (columnsOf weight3 0 (wordErr a).data.toNat) (wordErr a).check.toNat
  have hmod := weight_xor_mod_two (columnsOf weight3 0 (wordErr a).data.toNat) (wordErr a).check.toNat
  rw [length_maskList_wordErr, syndrome_wordErr]
  omega

/-- Two bits in error do not cancel: two data bits have two columns, a data bit's column weighs 3 where a check bit's
weighs 1, and two check bits stay. -/
theorem syndrome_wordErr_ne_zero (htwo : (maskList 272 a.toNat).length = 2) : syndrome (wordErr a) ≠ 0 := by
  rw [syndrome_wordErr]
  intro hzero
  have heq := eq_of_xor_eq_zero hzero
  rw [length_maskList_wordErr] at htwo
  have hcount := bitsSet_columns (wordErr a).data.isLt
  obtain hnone | hone | hboth : weight (wordErr a).check.toNat = 0 ∨ weight (wordErr a).check.toNat = 1 ∨
      weight (wordErr a).check.toNat = 2 := by omega
  · exact columnsOf_ne_zero weight3 0 weight3_nodup (by omega)
      (heq.trans (eq_zero_of_weight_eq_zero (wordErr a).check.isLt hnone))
  · have hmem : (wordErr a).check.toNat ∈ weight3 := heq ▸ columnsOf_mem weight3 0 (by omega)
    exact absurd ((weight_of_mem_weight3 hmem).symm.trans hone) (by decide)
  · have hclear : (wordErr a).check.toNat = 0 := heq ▸ columnsOf_eq_zero weight3 0 (by omega)
    exact absurd (hboth.symm.trans (congrArg weight hclear)) (by decide)

/-- The poison code with some further bits in error. -/
theorem syndrome_poison :
    syndrome { data := (wordErr a).data, check := 0xFFFF ^^^ (wordErr a).check, addr := 0 }
      = 0xFFFF ^^^ syndrome (wordErr a) := by
  have hcheck : (0xFFFF ^^^ (wordErr a).check).toNat = 0xFFFF ^^^ (wordErr a).check.toNat := BitVec.toNat_xor ..
  rw [syndrome_wordErr, syndrome, hcheck]
  change cleanCheck (wordErr a).data.toNat 0 ^^^ _ = _
  rw [cleanCheck_data]
  ac_rfl

end WordErrors

section SingleErrors

/-- A data bit in error has its column as syndrome. -/
theorem syndrome_data_bit {i : Nat} (hi : i < 256) :
    syndrome { data := BitVec.ofNat 256 (2 ^ i), check := 0, addr := 0 } = weight3.getD i 0 := by
  have hdata : (BitVec.ofNat 256 (2 ^ i)).toNat = 2 ^ i :=
    Nat.mod_eq_of_lt (Nat.pow_lt_pow_right Nat.one_lt_two hi)
  refine (Nat.xor_zero _).trans ((cleanCheck_data _).trans ?_)
  rw [hdata, columnsOf_two_pow, if_pos (Nat.zero_le i), Nat.sub_zero]

/-- A check bit in error has its column as syndrome. -/
theorem syndrome_check_bit {k : Nat} (hk : k < 16) :
    syndrome { data := 0, check := BitVec.ofNat 16 (2 ^ k), addr := 0 } = 2 ^ k := by
  have hcheck : (BitVec.ofNat 16 (2 ^ k)).toNat = 2 ^ k :=
    Nat.mod_eq_of_lt (Nat.pow_lt_pow_right Nat.one_lt_two hk)
  have hclean : cleanCheck 0 0 = 0 := (cleanCheck_data 0).trans (columnsOf_eq_zero weight3 0 (by simp [bitsSet, bit]))
  rw [syndrome, hcheck]
  exact (congrArg (· ^^^ 2 ^ k) hclean).trans (Nat.zero_xor _)

theorem correctable_data_column {i : Nat} (hi : i < 256) : Correctable (weight3.getD i 0) :=
  .inl (mem_dataColumns.mpr ⟨i, hi, rfl⟩)

theorem correctable_check_column {k : Nat} (hk : k < 16) : Correctable (2 ^ k) := .inr ⟨k, hk, rfl⟩

/-- A check bit's column is no data bit's, so the data stay as stored. -/
theorem delivered_check_column {d k : Nat} (hk : k < 16) : delivered d (2 ^ k) = d := by
  refine delivered_of_not_mem fun hmem => ?_
  have hthree := weight_of_mem_weight3 (List.mem_of_mem_take hmem)
  rw [weight_two_pow hk] at hthree
  omega

/-- An address bit's column is neither a data bit's nor a check bit's. -/
theorem not_correctable_address_column {j : Nat} (hj : j < 28) : ¬ Correctable (weight3.getD (256 + j) 0) := by
  rintro (hdata | ⟨k, hk, hcheck⟩)
  · obtain ⟨i, hi, hsame⟩ := mem_dataColumns.mp hdata
    have := getD_weight3_inj (by omega) (by omega) hsame
    omega
  · have hthree := weight_of_mem_weight3 (getD_mem_weight3 (show 256 + j < 364 by omega))
    rw [hcheck, weight_two_pow hk] at hthree
    omega

end SingleErrors

/-- Settles O60: the syndrome of a read is linear in the difference, a column names its bit, and the weight of the syndrome
tells the errors of two and three bits and the poison codes apart. -/
theorem secDed : Obligations.SecDed := by
  unfold Obligations.SecDed
  refine ⟨?readSyndrome, ?clean, ?dataColumn, ?checkColumn, ?addressColumn, ?noColumn, ?unreliable, ?dataBit, ?checkBit,
    ?twoBits, ?poison, ?threeBits⟩
  case readSyndrome =>
    intro data addr e
    rw [BitVec.toNat_xor, BitVec.toNat_xor, cleanCheck_xor data.isLt e.data.isLt,
      Nat.xor_comm (cleanCheck data.toNat addr.toNat), Nat.xor_assoc, xor_xor_cancel_left, syndrome]
  case clean =>
    refine fun d => ⟨rfl, delivered_of_not_mem fun hmem => ?_⟩
    exact absurd (weight_of_mem_weight3 (List.mem_of_mem_take hmem)) (by decide)
  case dataColumn =>
    exact fun d i hi => ⟨checkResult_of_correctable (correctable_data_column hi), delivered_data_column hi⟩
  case checkColumn =>
    exact fun d k hk => ⟨checkResult_of_correctable (correctable_check_column hk), delivered_check_column hk⟩
  case addressColumn =>
    intro d j hj
    have hc := not_correctable_address_column hj
    exact ⟨checkResult_of_address (mem_addressColumns.mpr ⟨j, hj, rfl⟩) hc,
      delivered_of_not_mem fun hmem => hc (.inl hmem)⟩
  case noColumn =>
    intro d x hne hbits hcheck
    have hdata : x ∉ weight3.take 256 := fun hmem => by
      obtain ⟨i, hi, rfl⟩ := mem_dataColumns.mp hmem
      exact hbits i (by omega) rfl
    have haddress : x ∉ (weight3.drop 256).take 28 := fun hmem => by
      obtain ⟨j, hj, rfl⟩ := mem_addressColumns.mp hmem
      exact hbits (256 + j) (by omega) rfl
    have hc : ¬ Correctable x := fun hx => hx.elim hdata fun ⟨k, hk, hpow⟩ => hcheck k hk hpow
    exact ⟨checkResult_of_no_column hne hc haddress, delivered_of_not_mem hdata⟩
  case unreliable => exact fun e => rfl
  case dataBit =>
    intro d i hi
    rw [syndrome_data_bit hi, delivered_data_column hi, Nat.xor_comm, Nat.xor_comm d, xor_xor_cancel_left]
    exact ⟨checkResult_of_correctable (correctable_data_column hi), rfl⟩
  case checkBit =>
    intro d k hk
    rw [syndrome_check_bit hk]
    exact ⟨checkResult_of_correctable (correctable_check_column hk), delivered_check_column hk⟩
  case twoBits =>
    intro a htwo
    have heven : weight (syndrome (wordErr a)) % 2 = 0 := by rw [(weight_syndrome_wordErr a).2, htwo]
    exact decide_eq_true (two_le_checkResult_of_even (syndrome_wordErr_ne_zero a htwo) heven)
  case poison =>
    intro a hfew
    refine checkResult_eq_three_iff.mpr ?_
    have hcomplement := sixteen_le_weight_complement (syndrome (wordErr a))
    have hle := (weight_syndrome_wordErr a).1
    refine le_of_le_of_eq ?_ (congrArg weight (syndrome_poison a)).symm
    omega
  case threeBits =>
    intro a hfew (hpoison : checkResult (syndrome (wordErr a)) = 3)
    have hten := checkResult_eq_three_iff.mp hpoison
    have hle := (weight_syndrome_wordErr a).1
    omega

end Sys2Proof.Machine
end

section
/-! SUPPORT. That the burst buffer's, the memory's and the compression unit's events and calls run as their rules say. -/
namespace Sys2Proof.Machine

/-- Settles O24: each event is one that is due, each call is its call row, accepted; where a command's effect depends on
what the state holds, the clause names what it holds, and with it the branch. -/
theorem bufferAndCompressionRun : Obligations.BufferAndCompressionRun := by
  unfold Obligations.BufferAndCompressionRun
  refine ⟨?frameCloseTimeout, ?drain, ?spill, ?refill, ?pointerCheck, ?queueResetComplete, ?scrubLineVisit, ?sramScrub,
    ?bbStatus, ?bbQueueMapSet, ?bbQueueMapGet, ?bbRegionSet, ?bbRegionGet, ?bbHoldOutput, ?bbFlush, ?bbReset, ?bbPeek,
    ?bbStats, ?memStatus, ?memScrubConfig, ?memScrubRange, ?memScrubSummaryPatrol, ?memScrubSummaryRange,
    ?memDefectRead, ?memCheckerWrite, ?memCheckerRead, ?memTrain, ?cxUnitCodeSkipped, ?cxUnitCode,
    ?cxBufferCloseTimeout, ?cxIdleGate, ?cxStatus, ?cxQueueConfig, ?cxQueueGet, ?cxChainRead, ?cxStats, ?cxCodeTest,
    ?memLayerIdleSelfRefresh, ?cxStalled⟩
  case frameCloseTimeout =>
    intro q source kind s o hopen hstate
    delta exec
    simp only [execFrameCloseTimeout, hopen]
    exact event_due (s := s) (decide_eq_true hstate) rfl
  case cxBufferCloseTimeout =>
    intro unit q s b hopen hdue
    delta exec
    simp only [execCxBufferCloseTimeout, hopen]
    exact event_due (s := s) hdue rfl
  case cxStalled =>
    intro unit s t hfull hdue
    delta exec
    simp only [execCxStalled, hfull]
    exact event_due (s := s) hdue rfl
  case cxUnitCodeSkipped =>
    intro unit q s f hready s1 hserves s2 s3 htake
    delta exec
    simp only [execCxUnitCode, hready]
    rw [if_neg hserves, htake]
  case cxUnitCode =>
    intro unit q s f hready s1 hserves s2 g poison s3 htake s4 hfit
    delta exec
    simp only [execCxUnitCode, hready]
    rw [if_neg hserves, htake]
    exact event_due (s := s) hfit rfl
  case drain | spill => exact fun q s hdue => event_due (s := s) hdue rfl
  case refill => exact fun q ups s hdue => event_due (s := s) hdue rfl
  case pointerCheck => exact fun q upset s hstate => event_due (s := s) (decide_eq_true hstate) rfl
  case queueResetComplete => exact fun q s hstate => event_due (s := s) (decide_eq_true hstate) rfl
  case scrubLineVisit =>
    intro line upset s range hdue
    exact event_due (s := s) hdue rfl
  case sramScrub => exact fun found s hdue => event_due (s := s) hdue rfl
  case cxIdleGate | memLayerIdleSelfRefresh => exact fun s hdue => event_due (s := s) hdue rfl
  case bbQueueMapSet =>
    intro mb p s ask q e hp
    refine (call_asked ask).trans ?_
    rw [need_of_true hp]
  case bbRegionSet =>
    intro mb p s ask hp sizes hfree hspares
    refine (call_need_asked ask hp).trans ?_
    rw [needState_of_true hfree, need_of_true hspares]
  case memScrubRange =>
    intro mb p s ask r size hp hlow hroom
    refine (call_asked ask).trans ?_
    rw [need_of_true (decide_eq_true hp), lowJob_of_room hlow hroom]
  case memScrubSummaryPatrol =>
    intro mb p s ask hpatrol x hlast
    refine (call_asked ask).trans ?_
    rw [if_pos hpatrol, hlast]
  case memScrubSummaryRange =>
    intro mb p s ask hrange x hjob
    refine (call_asked ask).trans ?_
    rw [if_neg hrange, hjob]
  case memCheckerWrite =>
    intro mb p s ask target data clean hp htarget
    refine (call_asked ask).trans ?_
    rw [need_of_true hp, needState_of_true (decide_eq_true htarget)]
  case memTrain =>
    intro mb p s ask hempty hlow hroom
    refine (call_asked ask).trans ?_
    rw [needState_of_true hempty, lowJob_of_room hlow hroom]
  case cxQueueConfig =>
    intro mb p s ask c hp
    exact call_need_asked ask hp
  case cxStats =>
    intro mb p s ask q hp
    exact call_need_asked ask (decide_eq_true hp)
  case cxStatus | cxCodeTest =>
    intro mb p s ask _ _ hp
    exact call_need_asked ask (decide_eq_true hp)
  case memScrubConfig | memCheckerRead => exact fun mb p s ask hp => call_need_asked ask hp
  case bbStatus | bbReset | bbPeek | bbStats | cxChainRead =>
    exact fun mb p s ask hp => call_need_asked ask (decide_eq_true hp)
  case bbQueueMapGet | bbRegionGet | bbHoldOutput | bbFlush | memStatus | memDefectRead | cxQueueGet =>
    exact fun mb p s ask => call_asked ask

end Sys2Proof.Machine
end

section
/-! SUPPORT. That the governor's, the thermal scanner's, HOLD's and the power states' events run as their rules say. -/
namespace Sys2Proof.Machine

/-- Settles O30: each command is an event, which is due. -/
theorem powerEventsRun : Obligations.PowerEventsRun := by
  unfold Obligations.PowerEventsRun
  refine ⟨?governorEval, ?governorStep2Tick, ?governorRestoreRetry, ?thermalScan, ?throttleStepTimer,
    ?shutdownHoldTimeout, ?thermalLatchClear, ?autoRateWindow, ?wakeTimerFire, ?queueSave, ?holdReached, ?holdWake,
    ?holdWakeRestore, ?holdWakeEasy, ?powerStateChangeDone, ?clusterEngineIdleGate⟩
  case governorEval | thermalScan => exact fun reading s hdue => event_due (s := s) hdue rfl
  case governorStep2Tick | governorRestoreRetry | throttleStepTimer | shutdownHoldTimeout | thermalLatchClear
      | autoRateWindow | queueSave | holdReached | holdWakeEasy | powerStateChangeDone =>
    exact fun s hdue => event_due (s := s) hdue rfl
  case wakeTimerFire => exact fun n s hset => event_due (s := s) hset rfl
  case holdWake => exact fun src timer s hdue => event_due (s := s) hdue rfl
  case holdWakeRestore => exact fun coxOkS coxOkB queuesOk s hdue => event_due (s := s) hdue rfl
  case clusterEngineIdleGate => exact fun h s hdue => event_due (s := s) hdue rfl

end Sys2Proof.Machine
end

section
/-! SUPPORT. That the lanes', the lane groups', the packets', the Ethernet ports', the side links' and the test patterns' events
run as their rules say. -/
namespace Sys2Proof.Machine

/-- Settles O25: each command is an event, which is due; block lock and its loss are due in every state, and their branches
are the clause's own. -/
theorem laneEventsRun : Obligations.LaneEventsRun := by
  unfold Obligations.LaneEventsRun
  refine ⟨?laneSignalDetect, ?laneBlockLock, ?laneLockLost, ?negAdvRx, ?negFecRx, ?negGroupRx, ?negMapRx, ?negReadyRx,
    ?negRateReqRx, ?negRateAckRx, ?alignMarkerRx, ?alignMarkerSend, ?markerMissed, ?fecCodewordUncorrectable,
    ?laneRateDwellTimeout, ?laneTxOffEnd, ?laneFecTimeout, ?groupTimeout, ?alignTimeout, ?mapTimeout, ?rateReqTimeout,
    ?regroupTimeout⟩
  case laneBlockLock | laneLockLost => exact fun lane s => event_due (due := true) (s := s) rfl rfl
  case laneSignalDetect | negReadyRx | markerMissed | fecCodewordUncorrectable | laneRateDwellTimeout | laneTxOffEnd
      | laneFecTimeout | regroupTimeout =>
    exact fun lane s hdue => event_due (s := s) hdue rfl
  case negAdvRx | negFecRx | negGroupRx | negMapRx => exact fun lane v s hdue => event_due (s := s) hdue rfl
  case negRateReqRx | negRateAckRx =>
    intro lane v s g hdue
    exact event_due (s := s) hdue rfl
  case alignMarkerRx => exact fun lane d skew s hdue => event_due (s := s) hdue rfl
  case alignMarkerSend => exact fun g s hdue => event_due (s := s) (decide_eq_true hdue) rfl
  case groupTimeout | alignTimeout =>
    intro g s ls hdue
    exact event_due (s := s) hdue rfl
  case mapTimeout =>
    intro g s ls hwaiting
    exact event_due (s := s) (decide_eq_true hwaiting) rfl
  case rateReqTimeout => exact fun g s hdue => event_due (s := s) hdue rfl

/-- Settles O26: each command is an event, which is due; where a group waits for packets asked for again, the clause names
the one that has waited longest, and with it the command's branch. -/
theorem packetEventsRun : Obligations.PacketEventsRun := by
  unfold Obligations.PacketEventsRun
  refine ⟨?packetSend, ?rxPacketBad, ?rxReservedStream, ?nakRx, ?nakGroupWaitExpiry, ?tailSend, ?arpRequestRx,
    ?arpReplyRx, ?arpRetry, ?arpFailTimeout, ?pauseRx, ?pauseExpiry, ?ethFrameDiscard, ?slHelloRx, ?slHelloSend,
    ?slHelloTimeout, ?prbsCheckerLock, ?prbsLockLost⟩
  case packetSend => exact fun g out ups s hdue => event_due (s := s) hdue rfl
  case rxPacketBad | tailSend | arpRetry | arpFailTimeout => exact fun g s hdue => event_due (s := s) hdue rfl
  case rxReservedStream | nakRx => exact fun g received s hdue => event_due (s := s) hdue rfl
  case nakGroupWaitExpiry =>
    intro g s w rest hwaits hdue
    delta exec
    simp only [execNakGroupWaitExpiry, hwaits]
    exact event_due (s := s) hdue rfl
  case arpRequestRx =>
    exact fun g targetIp senderMac senderIp s hmode => event_due (s := s) (decide_eq_true hmode) rfl
  case arpReplyRx => exact fun g senderIp mac s hmode => event_due (s := s) (decide_eq_true hmode) rfl
  case pauseRx => exact fun g quanta s hmode => event_due (s := s) (decide_eq_true hmode) rfl
  case pauseExpiry | ethFrameDiscard => exact fun g s hdue => event_due (s := s) (decide_eq_true hdue) rfl
  case slHelloRx => exact fun side v s hstate => event_due (s := s) (decide_eq_true hstate) rfl
  case slHelloSend | slHelloTimeout => exact fun side s hstate => event_due (s := s) (decide_eq_true hstate) rfl
  case prbsCheckerLock =>
    intro lane rx s x hdue
    exact event_due (s := s) hdue rfl
  case prbsLockLost => exact fun lane errors bad s hdue => event_due (s := s) hdue rfl

end Sys2Proof.Machine
end

section
/-! SUPPORT. What a time message that is taken does; and that the time core's and the interval inputs' events and calls run
as their rules say. -/
namespace Sys2Proof.Machine

section Guards
variable {c : Bool}

/-- An effect under a condition that holds is the effect. -/
theorem when_of_true {act : State → State} {s : State} (hc : c = true) : when c act s = act s :=
  if_pos hc

/-- A check on a fact that holds lets the effect behind it pass. -/
theorem if_not_of_true {t u : State} (hc : c = true) : (if !c then t else u) = u :=
  if_neg (by simp [hc])

end Guards

section Messages
variable {g : Nat} {payload : List Byte} {act : State → State} {s t : State}

/-- A TIME payload of R490's form and of the message's kind, on a group that takes part in the time source's exchange, has
the message's effect. -/
theorem timeMessage_taken {msg : Nat} (hdue : ((groupAt s g).running && s.tc.strobe) = true)
    (hform : timeLayout payload = true ∧ byteAt payload 0 = msg) (hgroup : timeGroup s 1 1 g = true)
    (hact : act s = t) : timeMessage g msg payload act s = .next t := by
  have hgood : ¬ (!timeLayout payload || decide (byteAt payload 0 ≠ msg)) = true := by simp [hform]
  refine (event_due (s := s) hdue rfl).trans (congrArg Host.Outcome.next ?_)
  exact (if_neg hgood).trans ((when_of_true hgroup).trans hact)

/-- A well-formed PTP message of the type, in the configured domain, on a group that takes part in the PTP exchange, has the
message's effect (R493). -/
theorem ptpMessage_taken {type : Nat} (hdue : ((groupAt s g).running && timeGroup s 2 2 g) = true)
    (hform : ptpOther payload = false ∧ ptpFormed payload = true ∧ ptpType payload = type)
    (hdomain : ptpDomain payload = cfg8 s 0x0A03 0) (hact : act s = t) :
    ptpMessage g type payload act s = .next t := by
  obtain ⟨hkind, hformed, htype⟩ := hform
  have hother : ¬ ptpOther payload = true := by simp [hkind]
  have hgood : ¬ (!ptpFormed payload || decide (ptpType payload ≠ type)) = true := by simp [hformed, htype]
  refine (event_due (s := s) hdue rfl).trans (congrArg Host.Outcome.next ?_)
  exact (if_neg hother).trans ((if_neg hgood).trans ((when_of_true (decide_eq_true hdomain)).trans hact))

end Messages

/-- Settles O28: each command is an event, which is due; a message is one that is taken, and a sync comes from the master
at a time when a delay request may go out. -/
theorem timeEventsRun : Obligations.TimeEventsRun := by
  unfold Obligations.TimeEventsRun
  refine ⟨?timeTmrVote, ?freqSourceWatchdog, ?freqWindowCheck, ?ocxoRdyFall, ?ocxoWarmHoldExpiry, ?freqRestoreTimer,
    ?freqLockCheck, ?timeSyncRx, ?timeFollowUpRx, ?timeDelayRespRx, ?timeAnnounceRx, ?timeExchangeTimeout,
    ?masterAnnounceTimeout, ?timeHoldoverTimeout, ?timeStepEdge, ?ptpSyncRx, ?ptpFollowUpRx, ?ptpDelayRespRx,
    ?ptpAnnounceRx, ?ppsInEdge, ?ppsLossTimeout, ?ppsOutPulse, ?tiEdge, ?freqGateEnd, ?ocxoRdyRise⟩
  case ocxoRdyFall | timeStepEdge | ppsLossTimeout | ppsOutPulse | ocxoRdyRise =>
    exact fun s hdue => event_due (s := s) hdue rfl
  case timeHoldoverTimeout => exact fun s hsync => event_due (s := s) (decide_eq_true hsync) rfl
  case timeTmrVote | freqSourceWatchdog | ppsInEdge | freqGateEnd =>
    exact fun operand s hdue => event_due (s := s) hdue rfl
  case freqWindowCheck | freqLockCheck | tiEdge => exact fun operand value s hdue => event_due (s := s) hdue rfl
  case ocxoWarmHoldExpiry =>
    intro s t hsince hdue
    delta exec
    simp only [execOcxoWarmHoldExpiry, hsince]
    exact event_due (s := s) hdue rfl
  case freqRestoreTimer =>
    intro src s t husable hdue
    delta exec
    simp only [execFreqRestoreTimer, husable]
    exact event_due (s := s) hdue rfl
  case timeExchangeTimeout =>
    intro s e rest hexch hdue
    delta exec
    simp only [execTimeExchangeTimeout, hexch]
    exact event_due (s := s) hdue rfl
  case masterAnnounceTimeout =>
    intro master s m hfind hdue
    delta exec
    simp only [execMasterAnnounceTimeout, hfind]
    exact event_due (s := s) hdue rfl
  case timeSyncRx =>
    intro g payload t2 s hdue hform hgroup r hmaster u hrequest
    exact timeMessage_taken hdue hform hgroup ((if_not_of_true hmaster).trans (if_not_of_true hrequest))
  case ptpSyncRx =>
    intro g payload t2 s hdue hform hdomain r hmaster u hrequest
    exact ptpMessage_taken hdue hform hdomain ((if_not_of_true hmaster).trans (if_not_of_true hrequest))
  case timeFollowUpRx =>
    exact fun g payload s hdue hform hgroup hmaster => timeMessage_taken hdue hform hgroup (when_of_true hmaster)
  case ptpFollowUpRx =>
    exact fun g payload s hdue hform hdomain hmaster => ptpMessage_taken hdue hform hdomain (when_of_true hmaster)
  case timeDelayRespRx =>
    intro g payload s hdue hform hgroup hanswer
    exact timeMessage_taken hdue hform hgroup (when_of_true (by simp [hanswer]))
  case ptpDelayRespRx =>
    intro g payload s hdue hform hdomain hanswer
    exact ptpMessage_taken hdue hform hdomain (when_of_true (by simp [hanswer]))
  case timeAnnounceRx => exact fun g payload s hdue hform hgroup => timeMessage_taken hdue hform hgroup rfl
  case ptpAnnounceRx => exact fun g payload s hdue hform hdomain => ptpMessage_taken hdue hform hdomain rfl

/-- Settles O29: each clause is its call row, accepted; TIME_SET finds no step waiting, and FREQ_START finds the input free
and room for its job. -/
theorem timeCallsRun : Obligations.TimeCallsRun := by
  unfold Obligations.TimeCallsRun
  refine ⟨?timeStatus, ?timeNow, ?timeFreqConfig, ?timeServoConfig, ?timeSet, ?timePtpConfig, ?timePpsConfig, ?tiConfig,
    ?tiStampRead, ?splitConfig, ?splitRead, ?freqStart, ?freqRead, ?freqStop, ?timeStats⟩
  case timeSet =>
    intro mb p s ask hsource hfree hahead
    refine (call_asked ask).trans ?_
    rw [needState_of_true (decide_eq_true hsource), if_neg hfree, need_of_true (decide_eq_true hahead)]
  case freqStart =>
    intro mb p s ask t next hp hfree hroom
    refine (call_asked ask).trans ?_
    rw [need_of_true hp, if_neg hfree, startJob_of_room hroom]
  case timeServoConfig =>
    intro mb p s ask hp
    refine (call_asked ask).trans ?_
    rw [need_of_true hp]
  case timeFreqConfig | timePtpConfig | timePpsConfig | tiConfig | splitConfig =>
    exact fun mb p s ask hp => call_need_asked ask hp
  case tiStampRead | splitRead | freqRead | freqStop =>
    exact fun mb p s ask hp => call_need_asked ask (decide_eq_true hp)
  case timeStatus | timeNow | timeStats => exact fun mb p s ask => call_asked ask

end Sys2Proof.Machine
end

section
/-! SUPPORT. Which commands change the standing part of a state, what a step is; and that every step keeps the governor's
engaged steps a cascade. -/
namespace Sys2Proof.Machine

/-- The commands that may change the standing part of a state: the fuse calls, the power-on reset, the start of PD_0 and of
the safety partition, the tests that latch output faults, and what the governor's steps follow. -/
def movesStanding : Instr → Bool
  | .sysRollbackAdvance _ | .sysLifecycleAdvance _ | .sysKeyRevoke _
  | .porAssert | .porRelease _ | .pd0Running | .sfRomStart _ _
  | .sfSelfTestDone _ | .soReadback _ | .soDarkTest _ _
  | .governorEval _ | .throttleStepTimer | .thermalScan _ => true
  | _ => false

/-- Every other command leaves the standing part as it is: the law of each says so. -/
theorem exec_standing {c : Instr} (hc : movesStanding c = false) (s : State) :
    standingO (exec c s) = some (standing s) := by
  cases c
  case sysRollbackAdvance | sysLifecycleAdvance | sysKeyRevoke | porAssert | porRelease | pd0Running | sfRomStart
      | sfSelfTestDone | soReadback | soDarkTest | governorEval | throttleStepTimer | thermalScan => cases hc
  all_goals
    delta exec
    simp

/-- If the governor's engaged steps were a cascade, they are one still. -/
def KeepsCascade (a x : Standing) : Prop := cascade a.steps = true → cascade x.steps = true

theorem StepsMoved.keepsCascade {a x : Standing} (h : StepsMoved a x) : KeepsCascade a x := by
  obtain ⟨_, rfl, hkept⟩ := h
  exact hkept

theorem FaultsLatched.keepsCascade {a x : Standing} (h : FaultsLatched a x) : KeepsCascade a x := by
  obtain ⟨_, -, rfl⟩ := h
  exact id

theorem RbRaised.keepsCascade {a x : Standing} (h : RbRaised a x) : KeepsCascade a x := by
  obtain ⟨_, -, rfl⟩ := h
  exact id

theorem LcMoved.keepsCascade {a x : Standing} (h : LcMoved a x) : KeepsCascade a x := by
  obtain ⟨_, -, -, rfl⟩ := h
  exact id

theorem KeysRevoked.keepsCascade {a x : Standing} (h : KeysRevoked a x) : KeepsCascade a x := by
  obtain ⟨_, -, rfl⟩ := h
  exact id

theorem SafetyStarted.keepsCascade {seals : BitVec 12} {a x : Standing} (h : SafetyStarted seals a x) :
    KeepsCascade a x := by
  obtain rfl | rfl := h <;> exact id

/-- Each command answers a next state that keeps the cascade: the power-on reset releases every step, the governor and the
throttle move the steps in order (R524, R533), and no other command moves them. -/
theorem exec_keepsCascade (c : Instr) (s : State) :
    ∃ x, standingO (exec c s) = some x ∧ KeepsCascade (standing s) x := by
  cases hmoves : movesStanding c
  case false => exact ⟨_, exec_standing hmoves s, id⟩
  cases c
  case governorEval p => exact (execGovernorEval_standing p s).imp fun _ => And.imp_right (·.keepsCascade)
  case throttleStepTimer => exact (execThrottleStepTimer_standing s).imp fun _ => And.imp_right (·.keepsCascade)
  case thermalScan temps => exact (execThermalScan_standing temps s).imp fun _ => And.imp_right (·.keepsCascade)
  case porAssert => exact ⟨_, execPorAssert_standing s, fun _ => rfl⟩
  case porRelease straps =>
    refine ⟨_, execPorRelease_standing straps s, ?_⟩
    split <;> exact id
  case pd0Running => exact ⟨_, execPd0Running_standing s, id⟩
  case sfRomStart romOk seals =>
    obtain hx | ⟨-, x, hx, hstarted⟩ := execSfRomStart_standing romOk seals s
    · exact ⟨_, hx, id⟩
    · exact ⟨x, hx, hstarted.keepsCascade⟩
  case sysRollbackAdvance mb =>
    exact (execSysRollbackAdvance_standing mb s).imp fun _ => And.imp_right (·.keepsCascade)
  case sysLifecycleAdvance mb =>
    exact (execSysLifecycleAdvance_standing mb s).imp fun _ => And.imp_right (·.keepsCascade)
  case sysKeyRevoke mb => exact (execSysKeyRevoke_standing mb s).imp fun _ => And.imp_right (·.keepsCascade)
  case sfSelfTestDone tests =>
    exact (execSfSelfTestDone_standing tests s).imp fun _ => And.imp_right (·.keepsCascade)
  case soReadback pads => exact (execSoReadback_standing pads s).imp fun _ => And.imp_right (·.keepsCascade)
  case soDarkTest n passed => exact (execSoDarkTest_standing n passed s).imp fun _ => And.imp_right (·.keepsCascade)
  all_goals cases hmoves

/-- A step is an idle tick or carries out the command at the front of the queue. -/
theorem step_cases {s t : State} (hstep : step s = .next t) :
    (s.pending = [] ∧ t = idleTick s) ∨
      ∃ c cs, s.pending = c :: cs ∧ exec c { s with pending := cs } = .next t := by
  unfold step at hstep
  split at hstep
  · next hempty => exact .inl ⟨hempty, (Host.Outcome.next.inj hstep).symm⟩
  · next c cs hfront => exact .inr ⟨c, cs, hfront, hstep⟩

/-- Settles O52: an idle tick leaves the engaged steps, and every command keeps them a cascade. -/
theorem governorCascade : Obligations.GovernorCascade := by
  unfold Obligations.GovernorCascade
  intro s t hs hstep
  obtain ⟨-, rfl⟩ | ⟨c, cs, -, hexec⟩ := step_cases hstep
  · have hsteps : (idleTick s).pw.steps = s.pw.steps := congrArg Standing.steps (idleTick_standing s)
    rwa [hsteps]
  · obtain ⟨x, hx, hkept⟩ := exec_keepsCascade c { s with pending := cs }
    rw [hexec] at hx
    cases hx
    exact hkept hs

end Sys2Proof.Machine
end

section
/-! SUPPORT. What PW_STATE_SET answers; and that the power calls run as their rules say. -/
namespace Sys2Proof.Machine

/-- PW_STATE_SET to a state it allows, with no change under way: HOLD is answered and then entered, the present state is
answered at once, and a change to another state begins, with the call left open (R516, R517). -/
theorem pwStateSet_asked {mb : Fin 8} {p : List Byte} {s : State} (ask : Asked mb 0x0B01 epd 2 p s)
    (hrange : 1 ≤ p8 p 0 ∧ p8 p 0 ≤ 4) (hfree : s.pw.change = none ∧ s.red.takeover = none)
    (hjobs : p8 p 0 = 1 → runningJobs s = [] ∨ p8 p 1 = 1)
    (hlatch : 2 < p8 p 0 → s.pw.latch = false) :
    execPwStateSet mb s = .next (
      if p8 p 0 = 1 then beginHold 0 (respond mb stOk (b1 (powerCode s.sys.power)) s)
      else if p8 p 0 = powerCode s.sys.power then respond mb stOk (b1 (powerCode s.sys.power)) s
      else settle mb (.later (beginChange (p8 p 0) 0 (some mb.val) s))) := by
  obtain ⟨hacc, hp⟩ := ask
  obtain ⟨hchange, htakeover⟩ := hfree
  have hallowed : ¬ ((p8 p 0 = 1 ∧ runningJobs s ≠ [] ∧ p8 p 1 ≠ 1) ∨ (2 < p8 p 0 ∧ s.pw.latch = true)) := by
    rintro (⟨hhold, hopen, hwait⟩ | ⟨hhigh, hlatched⟩)
    · exact (hjobs hhold).elim hopen hwait
    · simp [hlatch hhigh] at hlatched
  have hbusy : ¬ (s.pw.change.isSome || s.red.takeover.isSome) = true := by simp [hchange, htakeover]
  refine (callThen_accepted _ _ _ _ _ _ _ _ hacc rfl).trans ?_
  rw [hp, need_of_true (decide_eq_true hrange)]
  dsimp only
  rw [if_neg hbusy, if_neg hallowed]
  by_cases hhold : p8 p 0 = 1
  · simp [hhold, when, okBytes]
  by_cases hsame : p8 p 0 = powerCode s.sys.power
  · rw [if_pos (.inr hsame), if_neg hhold, if_pos hsame]
    simp [hhold, when, okBytes]
  · simp [hhold, hsame]

/-- Settles O31: each clause is its call row, accepted; the clauses of PW_STATE_SET are its branches. -/
theorem powerCallsRun : Obligations.PowerCallsRun := by
  unfold Obligations.PowerCallsRun
  refine ⟨?pwStatus, ?pwStateSetHold, ?pwStateSetSame, ?pwStateSetOther, ?pwBudgetConfig, ?pwThermalConfig,
    ?pwThermalRead, ?pwWakeSet, ?pwWakeClear, ?pwAutoConfig, ?pwDomainRead, ?pwStats⟩
  case pwStateSetHold =>
    intro mb p s ask hhold hfree hjobs
    refine (pwStateSet_asked ask (by omega) hfree (fun _ => hjobs) (fun hhigh => by omega)).trans ?_
    rw [if_pos hhold]
  case pwStateSetSame =>
    intro mb p s ask ⟨hmin, hmax, hsame⟩ hfree hlatch
    refine (pwStateSet_asked ask (by omega) hfree (fun hhold => by omega)
      (fun hhigh => hlatch.resolve_left (by omega))).trans ?_
    rw [if_neg (by omega), if_pos hsame]
  case pwStateSetOther =>
    intro mb p s ask ⟨hmin, hmax, hother⟩ hfree hlatch
    refine (pwStateSet_asked ask (by omega) hfree (fun hhold => by omega)
      (fun hhigh => hlatch.resolve_left (by omega))).trans ?_
    rw [if_neg (by omega), if_neg hother]
  case pwWakeSet =>
    intro mb p s ask t hp hahead
    refine (call_asked ask).trans ?_
    rw [need_of_true (decide_eq_true hp), need_of_true hahead]
  case pwBudgetConfig | pwThermalConfig | pwAutoConfig => exact fun mb p s ask hp => call_need_asked ask hp
  case pwWakeClear | pwDomainRead => exact fun mb p s ask hp => call_need_asked ask (decide_eq_true hp)
  case pwStatus | pwThermalRead | pwStats => exact fun mb p s ask => call_asked ask

end Sys2Proof.Machine
end

section
/-! SUPPORT. What SC_INJECT and SC_CALIBRATE answer; and that slow-control events and calls run as their rules say. -/
namespace Sys2Proof.Machine

section SlowControlCalls
variable {mb : Fin 8} {p : List Byte} {s : State}

/-- SC_INJECT of an enabled channel with fewer than four requests waiting: the request joins the queue, and the answer is
its number and its expected start (R551, R567, log 32). -/
theorem scInject_asked (ask : Asked mb 0x0C05 epdPri 1 p s) (hchan : p8 p 0 ≤ 24) (hon : chanOn s (p8 p 0) = true)
    (hroom : ¬ 4 ≤ s.sc.hostQ.length) :
    execScInject mb s = .next (
      let n := s.sc.nextReq
      let t := onSc (fun x => { x with
        nextReq := nextJobNumber n, hostQ := x.hostQ ++ [n]
        reqs := ({ num := n, ch := p8 p 0, state := 0, result := List.replicate 16 0 } :: x.reqs).take 16 }) s
      settle mb (okBytes (b2 n ++ stampBytes (now t + BitVec.ofNat 64 (injectedTicks t))) t)) := by
  refine (call_need_asked ask (decide_eq_true hchan)).trans ?_
  rw [needState_of_true hon, if_neg hroom]

/-- SC_CALIBRATE with no injected conversion before it: its job starts, and the calibration begins where it may
(R552, R553, log 32). -/
theorem scCalibrate_asked_at_once (ask : Asked mb 0x0C07 epd 1 p s) (hgains : p8 p 0 ≠ 0) (hfree : injectedTicks s = 0)
    (hroom : s.sys.jobs.length < 8) :
    execScCalibrate mb s = .next (settle mb (okBytes (b2 s.sys.nextJob)
      (acceptCal (maskList 8 (p8 p 0)) s.sys.nextJob (addJob 0x0C07 (p.take 1) 1 0 s).2))) := by
  refine (call_need_asked ask (decide_eq_true hgains)).trans ?_
  rw [if_pos hfree, startJob_of_room hroom]

end SlowControlCalls

/-- Settles O32: each event is one that is due, and where it is of a conversion or a check the state may hold, the clause
names the one it holds; each call is its call row, accepted, and the two clauses of SC_CALIBRATE are its branches. -/
theorem slowControlRuns : Obligations.SlowControlRuns := by
  unfold Obligations.SlowControlRuns
  refine ⟨?scPassStart, ?scConversionDone, ?scSafetyInjectRequest, ?scCalStepDone, ?scAutoCalDue, ?scPinBreak,
    ?scExcMonitorDone, ?scStatus, ?scChannelConfig, ?scChannelRead, ?scSequenceSet, ?scResultRead, ?scInject,
    ?scInjectRead, ?scCalibrateAtOnce, ?scCalibrateDeferred, ?scDiagRun, ?scChannelStatus, ?scStats,
    ?scInjectedConversionStart⟩
  case scPassStart | scSafetyInjectRequest | scAutoCalDue | scInjectedConversionStart =>
    exact fun s hdue => event_due (s := s) hdue rfl
  case scCalStepDone => exact fun offsetNv gainPpm exc0 exc1 s hdue => event_due (s := s) hdue rfl
  case scPinBreak => exact fun ch pin clocks s hdue => event_due (s := s) hdue rfl
  case scConversionDone =>
    intro r s c hconv hdue
    delta exec
    simp only [execScConversionDone, hconv]
    exact event_due (s := s) hdue rfl
  case scExcMonitorDone =>
    intro m s c hcheck hdue
    delta exec
    simp only [execScExcMonitorDone, hcheck]
    exact event_due (s := s) hdue rfl
  case scInject => exact fun mb p s ask hchan hon hroom => scInject_asked ask hchan hon hroom
  case scCalibrateAtOnce =>
    intro mb p s ask hgains gains t hfree hroom
    exact scCalibrate_asked_at_once ask hgains hfree hroom
  case scCalibrateDeferred =>
    intro mb p s ask hgains gains t hbusy
    refine (call_need_asked ask (decide_eq_true hgains)).trans ?_
    exact congrArg (fun r => Host.Outcome.next (settle mb r)) (if_neg hbusy)
  case scDiagRun =>
    intro mb p s ask hchans hroom
    refine (call_need_asked ask hchans).trans ?_
    rw [startJob_of_room hroom]
  case scChannelConfig =>
    intro mb p s ask v hconf
    refine (call_asked ask).trans ?_
    rw [need_of_true hconf]
  case scSequenceSet => exact fun mb p s ask hp => call_need_asked ask hp
  case scChannelRead | scResultRead | scChannelStatus =>
    exact fun mb p s ask hp => call_need_asked ask (decide_eq_true hp)
  case scStatus | scInjectRead | scStats => exact fun mb p s ask => call_asked ask

end Sys2Proof.Machine
end

section
/-! SUPPORT. What a call that asks for a claim does where the claim is held; and that calibration light's events and calls run
as their rules say. -/
namespace Sys2Proof.Machine

theorem needClaim_of_true {c : Bool} {s : State} (hc : c = true) (k : State → Reply) : needClaim c k s = k s :=
  if_pos hc

/-- A call that asks a condition of its parameters and then a claim of the state, where both hold. -/
theorem call_need_needClaim_asked {mb : Fin 8} {code len : Nat} {a : Allowed} {p : List Byte} {s : State}
    {c : List Byte → Bool} {d : List Byte → State → Bool} {k : List Byte → State → Reply}
    (ask : Asked mb code a len p s) (hc : c p = true) (hd : d p s = true) :
    call mb code a len (fun p => need (c p) (fun s => needClaim (d p s) (k p) s)) s = .next (settle mb (k p s)) := by
  rw [call_need_asked ask hc, needClaim_of_true hd]

/-- Settles O33: each event is one that is due, and where it is of a flash or a pulse the state may hold, the clause names the
one it holds; each call is its call row, accepted, and finds its stages held and room for its job. -/
theorem lightRuns : Obligations.LightRuns := by
  unfold Obligations.LightRuns
  refine ⟨?ldPreWake, ?lampShiftStart, ?flashInstant, ?ledDiagSample, ?ledPulseEnd, ?flashWindowEnd, ?ldIdleGate,
    ?lampCaptureCycle, ?ledTempUpdate, ?proofPulseDue, ?proofPulse, ?diagAgeExpiry, ?ldLineReadbackFault, ?ldStatus,
    ?ldChainDiscover, ?ldChainRead, ?ldEmitterConfig, ?ldEmitterRead, ?ldSchedule, ?ldCancel, ?ldScheduleRead,
    ?ldDiagRead, ?ldProofRun, ?ldSinkConfig, ?ldStats⟩
  case ldPreWake | flashWindowEnd | ldIdleGate | ledTempUpdate => exact fun s hdue => event_due (s := s) hdue rfl
  case lampShiftStart =>
    intro chain s t hflash hdue
    delta exec
    simp only [execLampShiftStart, hflash]
    exact event_due (s := s) hdue rfl
  case flashInstant =>
    intro s t hflash hon
    delta exec
    simp only [execFlashInstant, hflash]
    exact event_due (s := s) hon rfl
  case ledDiagSample =>
    intro k current pinMv s amp w at_ hpulse hlong
    delta exec
    simp only [execLedDiagSample, hpulse]
    exact event_due (s := s) (decide_eq_true hlong) rfl
  case ledPulseEnd =>
    intro k s amp w at_ hpulse
    delta exec
    simp only [execLedPulseEnd, hpulse]
    exact event_due (due := true) (s := s) rfl rfl
  case lampCaptureCycle =>
    intro chain words s again hdue
    exact event_due (s := s) hdue rfl
  case proofPulseDue | diagAgeExpiry => exact fun e s hdue => event_due (s := s) hdue rfl
  case proofPulse => exact fun e current pinMv words s hdue => event_due (s := s) hdue rfl
  case ldLineReadbackFault => exact fun chain s hdue => event_due (s := s) hdue rfl
  case ldChainDiscover =>
    intro mb p s ask hmask hroom
    refine (call_need_asked ask (decide_eq_true hmask)).trans ?_
    rw [startJob_of_room hroom]
  case ldProofRun =>
    intro mb p s ask he hon hfree hroom
    refine (call_need_asked ask (decide_eq_true he)).trans ?_
    rw [needState_of_true hon, if_neg hfree, startJob_of_room hroom]
  case ldSchedule =>
    intro mb p s ask e es hp hheld
    refine (call_asked ask).trans ?_
    rw [need_of_true hp, needClaim_of_true hheld]
  case ldCancel =>
    intro mb p s ask named es hheld
    refine (call_asked ask).trans ?_
    rw [needClaim_of_true hheld]
  case ldEmitterConfig | ldSinkConfig => exact fun mb p s ask hp hheld => call_need_needClaim_asked ask hp hheld
  case ldChainRead | ldEmitterRead | ldScheduleRead | ldDiagRead | ldStats =>
    exact fun mb p s ask hp => call_need_asked ask (decide_eq_true hp)
  case ldStatus => exact fun mb p s ask => call_asked ask

end Sys2Proof.Machine
end

section
/-! SUPPORT. What each command does to the standing part of a state; and that every command answers, leaves the queue, and
leaves the safety partition's start, its output faults, the straps and the seals. -/
namespace Sys2Proof.Machine

/-- What a command may do to the standing part of a state. -/
inductive StandingMoved : Instr → Standing → Standing → Prop
  | stays (c a) : StandingMoved c a a
  | rbRaised {a x} (mb) (h : RbRaised a x) : StandingMoved (.sysRollbackAdvance mb) a x
  | lcMoved {a x} (mb) (h : LcMoved a x) : StandingMoved (.sysLifecycleAdvance mb) a x
  | keysRevoked {a x} (mb) (h : KeysRevoked a x) : StandingMoved (.sysKeyRevoke mb) a x
  | porFallen (a) : StandingMoved .porAssert a { a with
      por := true, windowReady := false, bootSel := 0, tileId := 0, testMode := false, sealRaw := 0, sealsRead := false
      started := false, soFault := 0, steps := 0 }
  | strapsSampled (a st testMode) : StandingMoved (.porRelease st) a { a with
      por := false, bootSel := st.bootSel, tileId := st.tileId, testMode := testMode }
  | windowOpened (a ready) : StandingMoved .pd0Running a { a with windowReady := ready }
  | safetyStarted {a x} (romOk seals) (h : SafetyStarted seals a x) : StandingMoved (.sfRomStart romOk seals) a x
  | selfTested {a x} (tests) (h : FaultsLatched a x) : StandingMoved (.sfSelfTestDone tests) a x
  | readBack {a x} (pads) (h : FaultsLatched a x) : StandingMoved (.soReadback pads) a x
  | darkTested {a x} (n readings) (h : FaultsLatched a x) : StandingMoved (.soDarkTest n readings) a x
  | governed {a x} (reading) (h : StepsMoved a x) : StandingMoved (.governorEval reading) a x
  | throttled {a x} (h : StepsMoved a x) : StandingMoved .throttleStepTimer a x
  | scanned {a x} (temps) (h : StepsMoved a x) : StandingMoved (.thermalScan temps) a x

/-- Each command answers a next state, whose standing part has moved as the command's law says. -/
theorem exec_standingMoved (c : Instr) (s : State) :
    ∃ x, standingO (exec c s) = some x ∧ StandingMoved c (standing s) x := by
  cases hmoves : movesStanding c
  case false => exact ⟨_, exec_standing hmoves s, .stays c _⟩
  cases c
  case sysRollbackAdvance mb => exact (execSysRollbackAdvance_standing mb s).imp fun _ => And.imp_right (.rbRaised mb)
  case sysLifecycleAdvance mb => exact (execSysLifecycleAdvance_standing mb s).imp fun _ => And.imp_right (.lcMoved mb)
  case sysKeyRevoke mb => exact (execSysKeyRevoke_standing mb s).imp fun _ => And.imp_right (.keysRevoked mb)
  case porAssert => exact ⟨_, execPorAssert_standing s, .porFallen _⟩
  case porRelease straps =>
    refine ⟨_, execPorRelease_standing straps s, ?_⟩
    split
    · exact .strapsSampled _ straps _
    · exact .stays _ _
  case pd0Running => exact ⟨_, execPd0Running_standing s, .windowOpened _ _⟩
  case sfRomStart romOk seals =>
    obtain hx | ⟨-, x, hx, hstarted⟩ := execSfRomStart_standing romOk seals s
    · exact ⟨_, hx, .stays _ _⟩
    · exact ⟨x, hx, .safetyStarted romOk seals hstarted⟩
  case sfSelfTestDone tests => exact (execSfSelfTestDone_standing tests s).imp fun _ => And.imp_right (.selfTested tests)
  case soReadback pads => exact (execSoReadback_standing pads s).imp fun _ => And.imp_right (.readBack pads)
  case soDarkTest n readings =>
    exact (execSoDarkTest_standing n readings s).imp fun _ => And.imp_right (.darkTested n readings)
  case governorEval reading => exact (execGovernorEval_standing reading s).imp fun _ => And.imp_right (.governed reading)
  case throttleStepTimer => exact (execThrottleStepTimer_standing s).imp fun _ => And.imp_right .throttled
  case thermalScan temps => exact (execThermalScan_standing temps s).imp fun _ => And.imp_right (.scanned temps)
  all_goals cases hmoves

/-- The standing part of the state a command answers has moved as the command's law says. -/
theorem standingMoved_of_exec {c : Instr} {s t : State} (hexec : exec c s = .next t) :
    StandingMoved c (standing s) (standing t) := by
  obtain ⟨x, hx, hmoved⟩ := exec_standingMoved c s
  rw [hexec] at hx
  cases hx
  exact hmoved

/-- No move of the standing part changes the queue. -/
theorem StandingMoved.pending_eq {c : Instr} {a x : Standing} (h : StandingMoved c a x) : x.pending = a.pending := by
  cases h with
  | stays | porFallen | strapsSampled | windowOpened => rfl
  | rbRaised _ h | keysRevoked _ h | selfTested _ h | readBack _ h | darkTested _ _ h => obtain ⟨_, -, rfl⟩ := h; rfl
  | lcMoved _ h => obtain ⟨_, -, -, rfl⟩ := h; rfl
  | safetyStarted _ _ h => obtain rfl | rfl := h <;> rfl
  | governed _ h | throttled h | scanned _ h => obtain ⟨_, rfl, -⟩ := h; rfl

/-- Settles O3: the queue is of the standing part, and no move of that part changes it. -/
theorem queueUntouched : Obligations.QueueUntouched := by
  unfold Obligations.QueueUntouched
  exact fun c s t hexec => (standingMoved_of_exec hexec).pending_eq

/-- Settles O4: a command that answered no next state would leave no standing part. -/
theorem everyCommandAnswers : Obligations.EveryCommandAnswers := by
  unfold Obligations.EveryCommandAnswers
  intro c s
  obtain ⟨x, hx, -⟩ := exec_standingMoved c s
  cases hexec : exec c s with
  | next t => exact ⟨t, rfl⟩
  | fault r | refused r => rw [hexec] at hx; cases hx

/-- No move but the fall of POR_N stops the safety partition or clears an output fault, and only the release of POR_N and the
start of the partition's ROM move the straps and the seals. -/
theorem StandingMoved.seals_and_straps {c : Instr} {a x : Standing} (h : StandingMoved c a x) (hpor : c ≠ .porAssert) :
    (a.started = true → x.started = true) ∧ a.soFault &&& x.soFault = a.soFault ∧
    ((∀ st, c ≠ .porRelease st) → x.bootSel = a.bootSel ∧ x.tileId = a.tileId ∧ x.testMode = a.testMode) ∧
    ((∀ ok v, c ≠ .sfRomStart ok v) → x.sealRaw = a.sealRaw ∧ x.sealsRead = a.sealsRead) := by
  cases h with
  | stays | windowOpened => simp
  | rbRaised _ h | keysRevoked _ h => obtain ⟨_, -, rfl⟩ := h; simp
  | lcMoved _ h => obtain ⟨_, -, -, rfl⟩ := h; simp
  | porFallen => exact absurd rfl hpor
  | strapsSampled _ st => simp
  | safetyStarted _ _ h => obtain rfl | rfl := h <;> simp
  | selfTested _ h | readBack _ h | darkTested _ _ h => obtain ⟨_, hkept, rfl⟩ := h; simp [hkept]
  | governed _ h | throttled h | scanned _ h => obtain ⟨_, rfl, -⟩ := h; simp

/-- Settles O53: the start, the output faults, the straps and the seals are of the standing part. -/
theorem sealsAndStrapsStand : Obligations.SealsAndStrapsStand := by
  unfold Obligations.SealsAndStrapsStand
  exact fun c s t hexec hpor => (standingMoved_of_exec hexec).seals_and_straps hpor

end Sys2Proof.Machine
end

section
/-! SUPPORT. What passing time leaves; and that a command changes no part of the state outside its footprint. -/
namespace Sys2Proof.Machine

theorem advance_up (n : Nat) (s : State) : (advance n s).up = s.up + n := by
  unfold advance
  dsimp only
  split
  · split <;> simp
  · rfl

theorem advance_sf (n : Nat) (s : State) : (advance n s).sf = s.sf := by
  unfold advance
  dsimp only
  split
  · split <;> simp
  · rfl

theorem reachUp_sf (t : Nat) (s : State) : (reachUp t s).sf = s.sf := by
  unfold reachUp
  split
  · exact advance_sf _ s
  · rfl

/-- What agrees outside every set that has some parts is the same in any other part. -/
theorem same_of_hide_of_may {parts : List StatePart} {s t : State}
    (h : ∀ {m : StatePart → Bool}, (∀ q ∈ parts, May m q) → hide m t = hide m s) {q : StatePart} (hq : q ∉ parts) :
    q.same s t :=
  StatePart.same_of_hide s t (h fun r hr => May.of_mem parts r hr) q (decide_eq_false hq)

/-- After the tick itself an idle tick installs what has come due, and no more time passes. -/
theorem idleTick_up (s : State) : (idleTick s).up = s.up + 1 := by
  have hclock : StatePart.clock.same (advance 1 s) (idleTick s) := by
    refine same_of_hide_of_may (parts := [.settings, .events, .hitPath, .buffer, .compression, .redundancy])
      (fun hmay => ?_) (by decide)
    simp only [List.forall_mem_cons] at hmay
    repeat obtain ⟨_, hmay⟩ := hmay
    simp [idleTick]
  exact Eq.trans hclock (advance_up 1 s)

/-- Settles O2: a step on an empty queue is an idle tick, and that leaves the queue. -/
theorem idleStepTicks : Obligations.IdleStepTicks := by
  unfold Obligations.IdleStepTicks
  intro s hempty
  refine ⟨?_, idleTick_up s, ?_⟩
  · unfold step
    rw [hempty]
  · exact (congrArg Standing.pending (idleTick_standing s)).trans hempty

/-- A step of the governor that engages may start loss policies and hold their blocks, and leaves the burst buffer (R526 to
R528). -/
@[simp] theorem engageStep_hide_without_buffer {m : StatePart → Bool} [May m .events] [May m .frontEnd] [May m .hitPath]
    [May m .waveform] [May m .compression] [May m .power] (k : Nat) (s : State) : hide m (engageStep k s) = hide m s := by
  unfold engageStep
  split <;> simp

/-- THROTTLE_STEP_TIMER engages steps and releases none, so that it leaves the burst buffer (R533). -/
@[simp] theorem execThrottleStepTimer_hide_without_buffer {m : StatePart → Bool} [May m .events] [May m .frontEnd]
    [May m .hitPath] [May m .waveform] [May m .compression] [May m .time] [May m .power] [May m .clock] (s : State) :
    hideO m (execThrottleStepTimer s) = some (hide m s) := by
  simp [execThrottleStepTimer, tryEngage]

/-- A command changes nothing outside a set that has the parts of its footprint: the law of each says so. -/
theorem exec_hide {m : StatePart → Bool} {c : Instr} (hmay : ∀ q ∈ footprint c, May m q) (s : State) :
    hideO m (exec c s) = some (hide m s) := by
  cases c
  all_goals
    simp only [footprint, List.forall_mem_cons] at hmay
    repeat obtain ⟨_, hmay⟩ := hmay
    delta exec
    simp

/-- The frame of every command: a part outside its footprint is as it was. -/
theorem exec_frame {c : Instr} {s t : State} (hexec : exec c s = .next t) {q : StatePart} (hq : q ∉ footprint c) :
    q.same s t := by
  refine same_of_hide_of_may (fun hmay => ?_) hq
  have hhide := exec_hide hmay s
  rw [hexec] at hhide
  exact Option.some.inj hhide

/-- Settles O8, by the frame of every command. -/
theorem frameSignalChain : Obligations.FrameSignalChain := by
  unfold Obligations.FrameSignalChain
  exact fun c s t hexec q _ hq => exec_frame hexec hq

/-- Settles O9, by the frame of every command. -/
theorem frameDataPath : Obligations.FrameDataPath := by
  unfold Obligations.FrameDataPath
  exact fun c s t hexec q _ hq => exec_frame hexec hq

/-- Settles O10, by the frame of every command. -/
theorem frameServices : Obligations.FrameServices := by
  unfold Obligations.FrameServices
  exact fun c s t hexec q _ hq => exec_frame hexec hq

end Sys2Proof.Machine
end

section
/-! SUPPORT. What a raise does to the sticky bits; and that EVENT_STICKY_CLEAR clears the chosen ones alone. -/
namespace Sys2Proof.Machine

theorem tc3Push_sticky (r : EvRec) (e : EvState) : (tc3Push r e).1.sticky = e.sticky := by
  unfold tc3Push
  dsimp only
  (repeat' split) <;> rfl

theorem flogAdd_sticky (r : EvRec) (e : EvState) : (flogAdd r e).sticky = e.sticky := by
  unfold flogAdd
  split <;> rfl

theorem commitAlarm_sticky (c : RaiseCtx) (at_ n : Nat) (p : PendingAlarm) (e : EvState) :
    (commitAlarm c at_ n p e).1.sticky = e.sticky := by
  unfold commitAlarm
  dsimp only
  rw [tc3Push_sticky, flogAdd_sticky]
  rfl

theorem isDefined_lt {n : Nat} (h : isDefined n = true) : n < 640 := by
  obtain ⟨r, hr, hn⟩ := List.any_eq_true.mp h
  have hmax : ∀ r ∈ sourceRanges, r.2 < 640 := by decide
  have := hmax r hr
  simp only [Bool.and_eq_true, decide_eq_true_eq] at hn
  omega

section Stuck
variable {b : Nat} {e : EvState}

/-- A sticky bit is set. -/
def Stuck (b : Nat) (e : EvState) : Prop := e.sticky.getLsbD b = true

theorem Stuck.of_sticky_eq {e' : EvState} (h : Stuck b e) (heq : e'.sticky = e.sticky) : Stuck b e' :=
  (congrArg (fun v : BitVec 640 => v.getLsbD b) heq).trans h

theorem Stuck.of_fst_eq {x : EvState × Option Nat} {m : Option Nat} (h : Stuck b x.1) (hx : x = (e, m)) : Stuck b e := by
  subst hx
  exact h

theorem Stuck.tc3Push (h : Stuck b e) (r : EvRec) : Stuck b (tc3Push r e).1 :=
  h.of_sticky_eq (tc3Push_sticky r e)

theorem Stuck.commitAlarm (h : Stuck b e) (c : RaiseCtx) (at_ n : Nat) (p : PendingAlarm) :
    Stuck b (commitAlarm c at_ n p e).1 :=
  h.of_sticky_eq (commitAlarm_sticky c at_ n p e)

theorem stuck_ite {p : Prop} [Decidable p] {e' : EvState} (h : Stuck b e) (h' : Stuck b e') :
    Stuck b (if p then e else e') := by
  split <;> assumption

/-- A raise sets the source's sticky bit and clears none (R653). -/
theorem stuck_markRaise {c : RaiseCtx} {n : Nat} {arg : List Byte} (h : Stuck b e ∨ (b = n ∧ isDefined n = true)) :
    Stuck b (markRaise c n arg e) := by
  change (e.sticky ||| BitVec.ofNat 640 (2 ^ n)).getLsbD b = true
  rw [BitVec.getLsbD_or, Bool.or_eq_true]
  refine h.imp_right ?_
  rintro ⟨rfl, hdef⟩
  rw [BitVec.getLsbD_ofNat, decide_eq_true (isDefined_lt hdef), Bool.true_and, Nat.testBit_two_pow_self]

/-- A raise, with the raises it causes, sets the source's sticky bit and clears none (R653, log 25). -/
theorem stuck_evRaise (d : Nat) (c : RaiseCtx) (n : Nat) (arg : List Byte)
    (h : Stuck b e ∨ (d ≠ 0 ∧ b = n ∧ isDefined n = true)) : Stuck b (evRaise d c n arg e) := by
  induction d generalizing n arg e with
  | zero => exact h.resolve_right fun hraise => hraise.1 rfl
  | succ d ih =>
    replace ih : ∀ {n arg e}, Stuck b e → Stuck b (evRaise d c n arg e) := fun h => ih _ _ (.inl h)
    unfold evRaise
    split
    · next hundef => exact h.resolve_right fun hraise => by simp [hraise.2.2] at hundef
    extract_lets arg marked _ _ _ _ _ begun counted nested r _ noted overdone _ folded _ held seen p sent
    have hmarked : Stuck b marked := stuck_markRaise (h.imp_right And.right)
    have hbegun : Stuck b begun := stuck_ite hmarked hmarked
    have hcounted : Stuck b counted := stuck_ite hbegun hbegun
    have hnested : Stuck b nested := stuck_ite (ih hcounted) hcounted
    clear_value nested
    have hnoted : Stuck b noted := hnested
    have hoverdone : Stuck b overdone := by
      unfold overdone
      split
      · split
        · next hcommit => exact (hnoted.commitAlarm c _ n _).of_fst_eq hcommit
        · next hcommit => exact ih ((hnoted.commitAlarm c _ n _).of_fst_eq hcommit)
      · exact hnoted
    clear_value overdone
    have hfolded : Stuck b folded := hoverdone
    have hheld : Stuck b held := hoverdone
    have hseen : Stuck b seen := stuck_ite hheld (ih hheld)
    have hsent : Stuck b sent := by
      unfold sent
      split
      · next hcommit => exact (hoverdone.commitAlarm c _ n _).of_fst_eq hcommit
      · next hcommit => exact ih ((hoverdone.commitAlarm c _ n _).of_fst_eq hcommit)
    refine stuck_ite hnested (stuck_ite hnested (stuck_ite ?_ (stuck_ite hfolded
      (stuck_ite (stuck_ite hseen (ih hseen)) (stuck_ite (ih hsent) hsent)))))
    split
    · next hpush => exact (hnested.tc3Push r).of_fst_eq hpush
    · next hpush => exact ih ((hnested.tc3Push r).of_fst_eq hpush)

/-- What changes the event state, with its saturation reported, clears no sticky bit that the change leaves set. -/
theorem stuck_evChange {f : State → State} {s : State} (h : Stuck b (f s).ev) : Stuck b (evChange f s).ev := by
  unfold evChange
  dsimp only
  split
  · exact h
  · exact stuck_evRaise raiseDepth _ 612 [] (.inl h)

/-- A raise clears no sticky bit (R653). -/
theorem Stuck.raise {s : State} (h : Stuck b s.ev) (n : Nat) (arg : List Byte) : Stuck b (raise n arg s).ev :=
  stuck_evChange (stuck_evRaise raiseDepth _ n arg (.inl h))

/-- A raise of a defined source leaves its sticky bit set (R653). -/
theorem stuck_raise_self {n : Nat} (hdef : isDefined n = true) (arg : List Byte) (s : State) :
    Stuck n (raise n arg s).ev :=
  stuck_evChange (stuck_evRaise raiseDepth _ n arg (.inr ⟨by decide, rfl, hdef⟩))

end Stuck

/-- A word of a 640-bit map, with zeros around it: its bits stand from bit 32 k on. -/
theorem getLsbD_wordAt (k b : Nat) (w : Word) (hb : b < 640) :
    (BitVec.ofNat 640 (w.toNat * 2 ^ (32 * k))).getLsbD b =
      (decide (32 * k ≤ b ∧ b < 32 * k + 32) && w.getLsbD (b - 32 * k)) := by
  rw [BitVec.getLsbD_ofNat, Nat.testBit_mul_two_pow, BitVec.testBit_toNat, decide_eq_true hb, Bool.true_and]
  by_cases hlt : b < 32 * k + 32
  · simp [hlt]
  · simp [hlt, BitVec.getLsbD_of_ge w (b - 32 * k) (by omega)]

/-- The sticky bits after a write of ones to their word k (R654). -/
theorem getLsbD_stickyClear (k b : Nat) (w : Word) (s : State) :
    (stickyClear k w s).ev.sticky.getLsbD b =
      (s.ev.sticky.getLsbD b && !(decide (32 * k ≤ b ∧ b < 32 * k + 32) && w.getLsbD (b - 32 * k))) := by
  change (s.ev.sticky &&& ~~~ BitVec.ofNat 640 (w.toNat * 2 ^ (32 * k))).getLsbD b = _
  rw [BitVec.getLsbD_and, BitVec.getLsbD_not]
  by_cases hb : b < 640
  · rw [getLsbD_wordAt k b w hb, decide_eq_true hb, Bool.true_and]
  · rw [BitVec.getLsbD_of_ge _ b (Nat.not_lt.mp hb), Bool.false_and, Bool.false_and]

end Sys2Proof.Machine

namespace Sys2Proof
open Machine

/-- Settles O56: the command is due, and its effect is on the sticky bits alone. -/
theorem stickyClear : Obligations.StickyClear := by
  unfold Obligations.StickyClear
  intro k w s hpor hready hk
  refine ⟨Machine.stickyClear k w s, event_due (s := s) (by simp [hpor, hready, hk]) rfl,
    fun b => getLsbD_stickyClear k b w s, rfl, rfl, rfl, rfl⟩

end Sys2Proof
end

section
/-! SUPPORT. What an evaluation of the safety functions leaves, and how the partition is locked out; and that the safety
partition's events and calls run as their rules say. -/
namespace Sys2Proof.Machine

/-- What an evaluation of the safety functions reads and leaves: the partition's state and cause, and the two requests of the
host. -/
def heldSf (x : SfState) : Nat × Nat × Bool × Bool := (x.part, x.cause, x.hvReq, x.hostClose)

/-- A fact that raises, changes of the host part, and changes of the safety partition outside what it holds leave true. -/
structure KeptByEval (P : State → Prop) : Prop where
  raise : ∀ {s} n arg, P s → P (raise n arg s)
  onSys : ∀ {s} g, P s → P (onSys g s)
  onSf : ∀ {s} g, (∀ x, heldSf (g x) = heldSf x) → P s → P (onSf g s)

/-- What holds before an effect and after it holds after the effect under a condition. -/
theorem when_induction {P : State → Prop} {f : State → State} {s : State} (c : Bool) (h : P s) (hf : P (f s)) :
    P (when c f s) := by
  unfold when
  split
  · exact hf
  · exact h

/-- What each of a list's effects leaves true holds after them all. -/
theorem forAll_induction {α : Type} {P : State → Prop} {f : α → State → State} {s : State} (xs : List α)
    (hf : ∀ x {s}, P s → P (f x s)) (h : P s) : P (forAll xs f s) :=
  List.foldlRecOn xs _ h fun _ ht x _ => hf x ht

namespace KeptByEval
variable {P : State → Prop} {s : State}

theorem raiseIf (hP : KeptByEval P) (c : Bool) (n : Nat) (arg : List Byte) (h : P s) : P (raiseIf c n arg s) := by
  unfold Machine.raiseIf
  split
  · exact hP.raise n arg h
  · exact h

theorem sfStat (hP : KeptByEval P) (i : Nat) (h : P s) : P (sfStat i s) :=
  hP.raiseIf _ 590 [] (hP.onSf _ (fun _ => rfl) h)

theorem logTrip (hP : KeptByEval P) (fn first : Nat) (h : P s) : P (logTrip fn first s) :=
  hP.onSf _ (fun _ => rfl) h

theorem tripHv (hP : KeptByEval P) (h : P s) : P (tripHv s) :=
  hP.raise 576 [] (hP.onSf _ (fun _ => rfl) (hP.sfStat 0 (hP.logTrip 0 _ h)))

theorem tripShutter (hP : KeptByEval P) (h : P s) : P (tripShutter s) := by
  unfold Machine.tripShutter
  extract_lets fresh raised
  have hraised : P raised := forAll_induction _ (fun _ _ h => hP.raise 587 [] (hP.sfStat 1 h)) h
  exact when_induction _ hraised (hP.logTrip 1 _ hraised)

theorem setFunctions (hP : KeptByEval P) (h : P s) : P (setFunctions s) := by
  unfold Machine.setFunctions
  exact hP.onSf _ (fun _ => rfl) h

theorem respond (hP : KeptByEval P) (n status : Nat) (bytes : List Byte) (h : P s) : P (respond n status bytes s) :=
  hP.raise _ [] (hP.onSys _ (hP.onSys _ h))

theorem settleDark (hP : KeptByEval P) (h : P s) : P (settleDark s) := by
  unfold Machine.settleDark
  split
  · exact h
  · dsimp only
    split
    · exact hP.respond _ _ _ (hP.onSf _ (fun _ => rfl) h)
    · exact hP.onSf _ (fun _ => rfl) h

/-- An evaluation of the safety functions is made of such changes alone (R616 to R618). -/
theorem sfEval (hP : KeptByEval P) (h : P s) : P (sfEval s) := by
  unfold Machine.sfEval
  split
  · exact h
  · extract_lets lock hvDone shutterDone set raised
    have hhvDone : P hvDone := when_induction _ h (hP.tripHv h)
    have hset : P set := hP.setFunctions (hP.tripShutter hhvDone)
    exact hP.settleDark (hP.raiseIf _ 577 [] (hP.raiseIf _ 582 [] hset))

end KeptByEval

theorem keptByEval_heldSf (v : Nat × Nat × Bool × Bool) : KeptByEval (fun s => heldSf s.sf = v) where
  raise n arg h := by rwa [raise_sf]
  onSys _ h := h
  onSf _ hg h := (hg _).trans h

theorem keptByEval_stuck (b : Nat) : KeptByEval (fun s => Stuck b s.ev) where
  raise n arg h := h.raise n arg
  onSys _ h := h
  onSf _ _ h := h

/-- An evaluation of the safety functions leaves the partition's state and cause, and the host's requests. -/
theorem sfEval_held (s : State) : (sfEval s).sf.part = s.sf.part ∧ (sfEval s).sf.cause = s.sf.cause ∧
    (sfEval s).sf.hvReq = s.sf.hvReq ∧ (sfEval s).sf.hostClose = s.sf.hostClose := by
  have hheld : heldSf (sfEval s).sf = heldSf s.sf := (keptByEval_heldSf _).sfEval rfl
  simpa only [heldSf, Prod.mk.injEq] using hheld

/-- A partition not in LOCKOUT enters it with its cause, and with EV_581 where the seals are the cause (R602, R606). -/
theorem lockout_seals {s : State} {cause : Nat} (hrun : s.sf.part ≠ 2) (hcause : cause = 1 ∨ cause = 2) :
    (lockout cause s).sf.part = 2 ∧ (lockout cause s).sf.cause = cause ∧
      (lockout cause s).ev.sticky.getLsbD 581 = true := by
  have hlock : lockout cause s =
      sfEval (raise 582 [] (raise 581 [] (onSf (fun x => { x with part := 2, cause := cause }) s))) := by
    rw [lockout, if_neg hrun, decide_eq_true hcause]
    rfl
  rw [hlock]
  obtain ⟨hpart, hcause, -⟩ := sfEval_held
    (raise 582 [] (raise 581 [] (onSf (fun x => { x with part := 2, cause := cause }) s)))
  rw [raise_sf, raise_sf, onSf_sf] at hpart hcause
  exact ⟨hpart, hcause, (keptByEval_stuck 581).sfEval ((stuck_raise_self (by decide) [] _).raise 582 [])⟩

/-- Settles O14: each event is one that is due, each call is its call row, accepted; the clauses of SF_RESET and of
SF_DARK_TEST are their branches. -/
theorem safetyPartitionRuns : Obligations.SafetyPartitionRuns := by
  unfold Obligations.SafetyPartitionRuns
  refine ⟨?sfRomStart, ?sfSelfTestDone, ?sfLogicCycle, ?ilkChannelChange, ?ilkDiscrepancyTimeout, ?sealReread,
    ?soReadback, ?soDarkTest, ?sfCommandRx, ?sfConnExpiry, ?sfHvmonPoll, ?sfStatus, ?sfHvRequest, ?sfResetDone,
    ?sfResetDenied, ?sfShutterRequest, ?sfDarkTestOff, ?sfDarkTestOn, ?sfTripLog, ?sfStats⟩
  case sfRomStart => exact fun romOk seals s hdue => event_due (s := s) hdue rfl
  case sfSelfTestDone | sfLogicCycle | sealReread | soReadback | sfCommandRx =>
    exact fun operand s hdue => event_due (s := s) hdue rfl
  case ilkChannelChange =>
    intro n chB samples s closed hdue
    exact event_due (s := s) hdue rfl
  case ilkDiscrepancyTimeout => exact fun n s hrunning => event_due (s := s) hrunning rfl
  case soDarkTest => exact fun n r s hdue => event_due (s := s) hdue rfl
  case sfConnExpiry | sfHvmonPoll => exact fun s hdue => event_due (s := s) hdue rfl
  case sfHvRequest | sfShutterRequest | sfTripLog =>
    exact fun mb p s ask hp => call_need_asked ask (decide_eq_true hp)
  case sfResetDone =>
    intro mb p s ask r hdone
    refine (call_asked ask).trans ?_
    rw [if_pos hdone]
  case sfResetDenied =>
    intro mb p s ask r hdenied
    refine (call_asked ask).trans ?_
    rw [if_neg hdenied]
  case sfDarkTestOff =>
    intro mb p s ask hoff
    refine (call_asked ask).trans ?_
    rw [if_pos hoff]
  case sfDarkTestOn =>
    intro mb p s ask hon
    refine (call_asked ask).trans ?_
    rw [if_neg hon]
  case sfStatus | sfStats => exact fun mb p s ask => call_asked ask

/-- Settles O54: the seals as read are left, and any other reading locks the partition out. -/
theorem sealReread : Obligations.SealReread := by
  unfold Obligations.SealReread
  intro v s hstarted hread hrun
  have hexec : exec (.sealReread v) s = .next (
      let u := reachUp (s.sf.sealAt + ms 100) s
      let u := onSf (fun x => { x with sealAt := u.up }) u
      if v = u.sf.sealRaw ∧ sealsValid v = true then u else lockout 2 u) :=
    event_due (s := s) (by simp [hstarted, hread, hrun]) rfl
  have hsf : (reachUp (s.sf.sealAt + ms 100) s).sf = s.sf := reachUp_sf _ s
  constructor
  · intro hsame hvalid
    refine ⟨_, rfl, hexec.trans (congrArg Host.Outcome.next (if_pos ⟨?_, hvalid⟩))⟩
    rw [onSf_sf, hsf]
    exact hsame
  · intro hchanged
    refine ⟨_, hexec.trans (congrArg Host.Outcome.next (if_neg ?_)), lockout_seals ?_ (.inr rfl)⟩
    · rw [onSf_sf, hsf]
      rintro ⟨hsame, hvalid⟩
      exact hchanged.elim (absurd hsame) (by simp [hvalid])
    · rw [onSf_sf, hsf]
      exact hrun

/-- Settles O55: each request is accepted and answered OK, and the evaluation that follows leaves it as asked. -/
theorem clearingNeverRefused : Obligations.ClearingNeverRefused := by
  unfold Obligations.ClearingNeverRefused
  intro mb p s
  constructor
  · intro ask hclear
    refine ⟨_, _, call_need_asked ask (decide_eq_true (by omega)), ?_⟩
    obtain ⟨-, -, hreq, -⟩ := sfEval_held (onSf (fun x => { x with hvReq := decide (p8 p 0 = 1) }) s)
    exact hreq.trans (decide_eq_false (by omega))
  · intro ask hclose
    refine ⟨_, _, call_need_asked ask (decide_eq_true (by omega)), ?_⟩
    obtain ⟨-, -, -, hheld⟩ := sfEval_held (onSf (fun x => { x with hostClose := decide (p8 p 0 = 1) }) s)
    exact hheld.trans (decide_eq_true hclose)

end Sys2Proof.Machine
end

section
/-! SUPPORT. That the redundancy's and the trouble record's events and calls run as their rules say; and what an isolated lead
answers and the fall of POR_N leaves. -/
namespace Sys2Proof.Machine

/-- Settles O34: each command is an event, which is due, or a call row, accepted; TAKEOVER_COMPLETE and REJOIN_TICK name the
takeover and the rejoin under way. -/
theorem redundancyRuns : Obligations.RedundancyRuns := by
  unfold Obligations.RedundancyRuns
  refine ⟨?xlinkHeartbeatSend, ?xlinkHeartbeatRx, ?xlinkHeartbeatTimeout, ?arbPoll, ?arbPollAnswer, ?arbLostTimeout,
    ?takeoverComplete, ?arbGntChange, ?rejoinTick, ?redStatus, ?redClaimRead, ?redRejoin, ?flogMirror, ?flogMirrorRead,
    ?arbiterTmrVote⟩
  case xlinkHeartbeatSend | arbLostTimeout => exact fun h s hdue => event_due (s := s) hdue rfl
  case xlinkHeartbeatRx | xlinkHeartbeatTimeout | arbPoll | arbPollAnswer =>
    exact fun h operand s hdue => event_due (s := s) hdue rfl
  case takeoverComplete =>
    intro s x from_ htakeover
    delta exec
    simp only [execTakeoverComplete, htakeover]
    exact event_due (due := true) (s := s) rfl rfl
  case arbGntChange => exact fun gntS gntB s hdue => event_due (s := s) hdue rfl
  case rejoinTick =>
    intro s r hrejoin hstandby
    delta exec
    simp only [execRejoinTick, hrejoin]
    exact event_due (s := s) hstandby rfl
  case redRejoin =>
    intro mb p s ask hhalf h t hgrant hsound hahead hroom
    refine (call_need_asked ask (decide_eq_true hhalf)).trans ?_
    rw [needClaim_of_true hgrant, needState_of_true hsound, need_of_true hahead, startJob_of_room hroom]
  case flogMirror =>
    intro mb p s ask hflash hroom
    refine (call_asked ask).trans ?_
    rw [needState_of_true hflash, startJob_of_room hroom]
  case flogMirrorRead =>
    intro mb p s ask hp hflash
    refine (call_need_asked ask (decide_eq_true hp)).trans ?_
    exact congrArg (fun r => Host.Outcome.next (settle mb r)) (needState_of_true hflash _)
  case redStatus | redClaimRead => exact fun mb p s ask => call_asked ask
  case arbiterTmrVote => exact fun disagree s hdue => event_due (s := s) hdue rfl

/-- Settles O35: each command is an event, which is due, or a call row, accepted. -/
theorem troubleRecordRuns : Obligations.TroubleRecordRuns := by
  unfold Obligations.TroubleRecordRuns
  refine ⟨?alarmPendingCommit, ?alarmHeldRelease, ?incidentCalmExpiry, ?evtRead, ?evtClear, ?evtConfig, ?evtSummary,
    ?flogRead, ?flogClear, ?evtStats, ?evtTraceConfig, ?eventStateTmrVote⟩
  case alarmPendingCommit | eventStateTmrVote => exact fun operand s hdue => event_due (s := s) hdue rfl
  case alarmHeldRelease | incidentCalmExpiry => exact fun s hdue => event_due (s := s) hdue rfl
  case evtRead | flogRead => exact fun mb p s ask hp => call_need_asked ask (decide_eq_true hp)
  case evtClear =>
    intro mb p s ask a b hp
    refine (call_asked ask).trans ?_
    rw [need_of_true (decide_eq_true hp)]
  case evtConfig =>
    intro mb p s ask n hp
    refine (call_asked ask).trans ?_
    rw [need_of_true hp]
  case evtSummary | flogClear | evtStats | evtTraceConfig => exact fun mb p s ask => call_asked ask

/-- Settles O45: the isolation of the lead is the first check of every call row but those two. -/
theorem isolatedLeadDenies : Obligations.IsolatedLeadDenies := by
  unfold Obligations.IsolatedLeadDenies
  intro i r s hrow hready hisolated hnop hident
  refine (exec_runs i r s hrow).refused hready (by decide) fun act => ?_
  exact if_pos (by simp [hisolated, hnop, hident])

/-- Settles O59: the state after the fall of POR_N is written out, and gives each of these values. -/
theorem powerOnReset : Obligations.PowerOnReset := by
  unfold Obligations.PowerOnReset
  exact fun s => ⟨porState s, rfl, rfl, rfl, rfl, rfl, rfl, rfl⟩

end Sys2Proof.Machine
end

section
/-! SUPPORT. What a step with a waiting command does, what the state after reset holds, and the frame of the host part. -/
namespace Sys2Proof.Machine

/-- Settles O1: with a command in front of the queue a step carries it out, by definition. -/
theorem stepRunsFront : Obligations.StepRunsFront := by
  unfold Obligations.StepRunsFront
  exact fun c cs s => rfl

/-- Ranges of numbers that rise from a bound without meeting. -/
def rangesFrom : Nat → List (Nat × Nat) → Bool
  | _, [] => true
  | lo, r :: rs => decide (lo ≤ r.1 ∧ r.1 ≤ r.2) && rangesFrom (r.2 + 1) rs

/-- Bits from `a` to `b` added above a number set those bits and no other. -/
theorem testBit_add_range {acc a b : Nat} (hacc : acc < 2 ^ a) (hab : a ≤ b) (n : Nat) :
    (acc + (2 ^ (b + 1) - 2 ^ a)).testBit n = (acc.testBit n || (decide (a ≤ n) && decide (n ≤ b))) := by
  have hrange : 2 ^ (b + 1) - 2 ^ a = 2 ^ a * (2 ^ (b + 1 - a) - 1) := by
    rw [Nat.mul_sub, ← pow_add, Nat.add_sub_cancel' (by omega), Nat.mul_one]
  rw [hrange, Nat.add_comm, Nat.testBit_two_pow_mul_add _ hacc, Nat.testBit_two_pow_sub_one]
  by_cases hn : n < a
  · simp [hn]
  · have hclear : acc.testBit n = false :=
      Nat.testBit_lt_two_pow (hacc.trans_le (Nat.pow_le_pow_right (by decide) (by omega)))
    simp only [hn, if_false, hclear, Bool.false_or]
    rw [← Bool.decide_and, decide_eq_decide]
    omega

/-- The sum of rising ranges' bits has the bits of the ranges. -/
theorem testBit_sum_ranges (n : Nat) : ∀ (rs : List (Nat × Nat)) (lo acc : Nat), rangesFrom lo rs = true → acc < 2 ^ lo →
    (rs.foldl (fun a r => a + (2 ^ (r.2 + 1) - 2 ^ r.1)) acc).testBit n =
      (acc.testBit n || rs.any (fun r => decide (r.1 ≤ n) && decide (n ≤ r.2)))
  | [], _, _, _, _ => by simp
  | r :: rs, lo, acc, hrs, hacc => by
    simp only [rangesFrom, Bool.and_eq_true, decide_eq_true_eq] at hrs
    obtain ⟨⟨hlo, hr⟩, hrs⟩ := hrs
    have hbelow : acc < 2 ^ r.1 := hacc.trans_le (Nat.pow_le_pow_right (by decide) hlo)
    have hpow : 2 ^ r.1 ≤ 2 ^ (r.2 + 1) := Nat.pow_le_pow_right (by decide) (by omega)
    rw [List.foldl_cons, testBit_sum_ranges n rs (r.2 + 1) _ hrs (by omega), testBit_add_range hbelow hr,
      List.any_cons, Bool.or_assoc]

/-- The enables after reset are those of the defined sources (R653, R654). -/
theorem getLsbD_definedSources (n : Nat) : definedSources.getLsbD n = isDefined n := by
  unfold definedSources
  rw [BitVec.getLsbD_ofNat, testBit_sum_ranges n sourceRanges 0 0 (by decide) (by decide), Nat.zero_testBit, Bool.false_or]
  change (decide (n < 640) && isDefined n) = isDefined n
  cases hdef : isDefined n
  · exact Bool.and_false _
  · rw [decide_eq_true (isDefined_lt hdef), Bool.true_and]

/-- Settles O5: the values are those that the state after reset is written with. -/
theorem resetValues : Obligations.ResetValues := by
  unfold Obligations.ResetValues
  exact ⟨rfl, rfl, rfl, rfl, rfl, rfl, rfl, rfl, rfl, rfl, rfl, rfl, fun n => rfl, rfl, rfl, rfl, rfl, rfl,
    getLsbD_definedSources⟩

/-- Settles O6: at reset no step is engaged, no job is open or ended, and no mailbox is listed. -/
theorem invariantsAtReset : Obligations.InvariantsAtReset := by
  unfold Obligations.InvariantsAtReset
  exact ⟨rfl, ⟨by decide, by decide, by decide, by decide, nofun, nofun⟩, rfl, fun n => rfl⟩

/-- Settles O7, by the frame of every command. -/
theorem frameHostPart : Obligations.FrameHostPart := by
  unfold Obligations.FrameHostPart
  exact fun c s t hexec q _ hq => exec_frame hexec hq

end Sys2Proof.Machine
end

section
/-! SUPPORT. What a call does whose effect follows its answer; and that the host window, the system calls, the supply sequence
and the boot run as their rules say. -/
namespace Sys2Proof.Machine

/-- Settles O11: each command is an event, which is due. -/
theorem hostWindowRuns : Obligations.HostWindowRuns := by
  unfold Obligations.HostWindowRuns
  refine ⟨?sbRead, ?sbWrite, ?sbStatus, ?sbUnknownCommand, ?windowWrite, ?eventStickyClear, ?ctrlRead, ?ctrlWrite⟩
  case sbRead => exact fun addr words s hpor => event_due (s := s) hpor rfl
  case sbWrite => exact fun addr data s hpor => event_due (s := s) hpor rfl
  case sbStatus => exact fun s hpor => event_due (s := s) hpor rfl
  case sbUnknownCommand => exact fun cmd s hdue => event_due (s := s) hdue rfl
  case windowWrite | eventStickyClear => exact fun place w s hdue => event_due (s := s) hdue rfl
  case ctrlRead | ctrlWrite => exact fun rq s harrives => event_due (s := s) harrives rfl

section SystemCalls
variable {mb : Fin 8} {code len : Nat} {a : Allowed} {p : List Byte} {s : State}

/-- A call whose effect follows its answer, asked with parameters its row selects and answered OK without result, is answered
and then has its effect. -/
theorem callThen_asked_ok {sel : List Byte → Bool} {act : List Byte → State → Reply} {after : List Byte → State → State}
    (ask : Asked mb code a len p s) (hsel : sel p = true) (hok : act p s = ok s) :
    callThen mb code sel a len act after s = .next (after p (respond mb stOk [] s)) := by
  obtain ⟨hacc, rfl⟩ := ask
  rw [callThen_accepted _ _ _ _ _ _ _ _ hacc hsel, hok]
  rfl

end SystemCalls

/-- Settles O12: each event is one that is due, each call is its call row, accepted; the calls that start a job find room for
it. -/
theorem systemCallsRun : Obligations.SystemCallsRun := by
  unfold Obligations.SystemCallsRun
  refine ⟨?unknownCall, ?jobComplete, ?discoveryComplete, ?jobDeferredStart, ?sysNop, ?sysIdent, ?sysResetWarm,
    ?sysResetCox, ?sysResetBoth, ?sysLeadSet, ?sysBootReport, ?sysFlashInfo, ?sysFlashInfoLater, ?sysSettingRead,
    ?sysSettingsSave, ?sysImageCommit, ?sysJobStatus, ?sysImageBegin, ?sysImageData, ?sysImageVerify,
    ?sysRollbackAdvance, ?sysLifecycleAdvance, ?sysKeyRevoke⟩
  case unknownCall =>
    intro mb s code hdue
    exact event_due (s := s) hdue rfl
  case jobComplete =>
    intro job out s j hopen hrunning
    delta exec
    simp only [execJobComplete, hopen]
    exact event_due (s := s) (decide_eq_true hrunning) rfl
  case discoveryComplete =>
    intro job out s hclosed hzero
    delta exec
    simp only [execJobComplete, hclosed]
    exact event_due (s := s) (decide_eq_true hzero) rfl
  case jobDeferredStart =>
    intro job s j hopen hdue
    delta exec
    simp only [execJobDeferredStart, hopen]
    exact event_due (s := s) hdue rfl
  case sysResetWarm =>
    intro mb p s ask ⟨hkind, hhalf⟩
    change execSysResetWarm mb s = _
    refine (callThen_asked_ok ask ?_ ?_).trans ?_
    · exact decide_eq_true (by omega)
    · exact need_of_true (decide_eq_true ⟨hkind, hhalf⟩) ok
    · rfl
  case sysResetCox =>
    intro mb p s ask ⟨hkind, hhalf⟩ h hmay
    change execSysResetCox mb s = _
    refine (callThen_asked_ok ask ?_ ?_).trans ?_
    · exact decide_eq_true hkind
    · rw [need_of_true (decide_eq_true hhalf), needState_of_true hmay]
    · rfl
  case sysResetBoth =>
    intro mb p s ask ⟨hkind, hhalf⟩
    change execSysResetBoth mb s = _
    refine (callThen_asked_ok ask ?_ ?_).trans ?_
    · exact decide_eq_true hkind
    · exact need_of_true (decide_eq_true hhalf) ok
    · rfl
  case sysLeadSet =>
    intro mb p s ask hhalf h halive
    refine (call_need_asked ask (decide_eq_true hhalf)).trans ?_
    exact congrArg (fun r => Host.Outcome.next (settle mb r)) (needState_of_true halive _)
  case sysFlashInfo =>
    intro mb p s ask hcs hflash hknown
    refine (call_need_needState_asked ask (decide_eq_true hcs) hflash).trans ?_
    rw [if_pos hknown]
  case sysFlashInfoLater =>
    intro mb p s ask hcs hflash hunknown
    refine (call_need_needState_asked ask (decide_eq_true hcs) hflash).trans ?_
    rw [if_neg hunknown]
  case sysSettingRead =>
    intro mb p s ask v hvalue
    refine (call_asked ask).trans ?_
    rw [hvalue]
  case sysSettingsSave | sysImageVerify =>
    intro mb p s ask hflash hroom
    refine (call_asked ask).trans ?_
    rw [needState_of_true hflash, startJob_of_room hroom]
  case sysImageBegin =>
    intro mb p s ask hkeep hflash hroom
    refine (call_need_needState_asked ask (decide_eq_true hkeep) hflash).trans ?_
    rw [startJob_of_room hroom]
  case sysJobStatus =>
    intro mb p s ask j hentry
    refine (call_asked ask).trans ?_
    rw [hentry]
  case sysImageCommit => exact fun mb p s ask hslot hflash => call_need_needState_asked ask (decide_eq_true hslot) hflash
  case sysImageData =>
    intro mb p s ask n d hrange hopen
    exact call_need_needState_asked ask (decide_eq_true hrange) hopen
  case sysRollbackAdvance =>
    intro mb p s ask hstate htarget
    refine (call_asked ask).trans ?_
    rw [needState_of_true hstate, need_of_true (decide_eq_true htarget)]
  case sysLifecycleAdvance =>
    exact fun mb p s ask hnext hkey => call_need_needState_asked ask (decide_eq_true hnext) hkey
  case sysKeyRevoke =>
    intro mb p s ask hslot hother
    exact call_need_needState_asked ask (decide_eq_true hslot) (decide_eq_true hother)
  case sysNop | sysIdent | sysBootReport => exact fun mb p s ask => call_asked ask

/-- Settles O13: each command is an event, which is due. -/
theorem supplyAndBootRun : Obligations.SupplyAndBootRun := by
  unfold Obligations.SupplyAndBootRun
  refine ⟨?porAssert, ?porRelease, ?pwrGoodRise, ?seqEnableTimeout, ?seqRetryTimer, ?pwrGoodFall, ?pwrGoodRetryTimer,
    ?rstNPulse, ?pd0Running, ?coxBootRomStart, ?coxRomReady, ?bootRomReadyTimeout, ?flashNegotiation, ?bootImageCheck,
    ?settingsApply, ?memTrainingDone, ?timeCoreStart, ?bootLinkWaitExpiry, ?bootEnterEasy, ?coxRestartTimeout,
    ?coxMemScrub, ?coxFirmwareReloaded, ?wakeHalfAnswerTimeout, ?wakePwrGoodTimeout⟩
  case porAssert => exact fun s => rfl
  case pwrGoodRise | seqEnableTimeout | seqRetryTimer | pwrGoodRetryTimer | pd0Running | coxBootRomStart
      | bootRomReadyTimeout | settingsApply | timeCoreStart | bootLinkWaitExpiry | bootEnterEasy =>
    exact fun s hdue => event_due (s := s) hdue rfl
  case porRelease | rstNPulse | coxRomReady | memTrainingDone | coxRestartTimeout | coxFirmwareReloaded
      | wakeHalfAnswerTimeout | wakePwrGoodTimeout =>
    exact fun operand s hdue => event_due (s := s) hdue rfl
  case pwrGoodFall => exact fun ns pmic s hdue => event_due (s := s) hdue rfl
  case flashNegotiation => exact fun cs probe s hdue => event_due (s := s) hdue rfl
  case bootImageCheck => exact fun cs slot readOk s hdue => event_due (s := s) hdue rfl
  case coxMemScrub => exact fun h corrected uncorrectable s hdue => event_due (s := s) hdue rfl

end Sys2Proof.Machine
end

section
/-! SUPPORT. How a command moves the fuses; and that they move one way, in the order of the lifecycle and within the running
image, through the fuse calls alone. -/
namespace Sys2Proof.Machine

/-- The fuses in the standing part of a state. -/
def Standing.fuses (a : Standing) : Fuses :=
  { stepping := a.stepping, screen := a.screen, serial := a.serial, lc := a.lc, keyRevoked := a.keyRevoked
    rbCount := a.rbCount, keyHash := a.keyHash }

theorem fuses_eq (s : State) : fuses s = (standing s).fuses := rfl

/-- Every fuse left as it is is a one-way change. -/
theorem Fuses.oneWay_refl (a : Fuses) : a.oneWay a :=
  ⟨BitVec.and_self, BitVec.and_self, Nat.le_refl _, rfl, rfl, rfl, rfl⟩

/-- A move of the standing part leaves every fuse, or is that of one of the three fuse calls (R63). -/
theorem StandingMoved.fuses_cases {c : Instr} {a x : Standing} (h : StandingMoved c a x) :
    x.fuses = a.fuses ∨ (∃ mb, c = .sysRollbackAdvance mb ∧ RbRaised a x) ∨
      (∃ mb, c = .sysLifecycleAdvance mb ∧ LcMoved a x) ∨ ∃ mb, c = .sysKeyRevoke mb ∧ KeysRevoked a x := by
  cases h with
  | stays | porFallen | strapsSampled | windowOpened => exact .inl rfl
  | rbRaised mb h => exact .inr (.inl ⟨mb, rfl, h⟩)
  | lcMoved mb h => exact .inr (.inr (.inl ⟨mb, rfl, h⟩))
  | keysRevoked mb h => exact .inr (.inr (.inr ⟨mb, rfl, h⟩))
  | safetyStarted _ _ h => obtain rfl | rfl := h <;> exact .inl rfl
  | selfTested _ h | readBack _ h | darkTested _ _ h => obtain ⟨_, -, rfl⟩ := h; exact .inl rfl
  | governed _ h | throttled h | scanned _ h => obtain ⟨_, rfl, -⟩ := h; exact .inl rfl

/-- Only the fuse calls change a fuse, and each change is one-way (R63). -/
theorem StandingMoved.fuses_oneWay {c : Instr} {a x : Standing} (h : StandingMoved c a x) :
    (x.fuses = a.fuses ∨ ∃ mb, c = .sysRollbackAdvance mb ∨ c = .sysLifecycleAdvance mb ∨ c = .sysKeyRevoke mb) ∧
      a.fuses.oneWay x.fuses := by
  obtain hsame | ⟨mb, rfl, _, hrb, rfl⟩ | ⟨mb, rfl, _, -, hlc, rfl⟩ | ⟨mb, rfl, _, hkeys, rfl⟩ := h.fuses_cases
  · exact ⟨.inl hsame, hsame ▸ Fuses.oneWay_refl _⟩
  · exact ⟨.inr ⟨mb, .inl rfl⟩, BitVec.and_self, BitVec.and_self, hrb, rfl, rfl, rfl, rfl⟩
  · exact ⟨.inr ⟨mb, .inr (.inl rfl)⟩, hlc, BitVec.and_self, Nat.le_refl _, rfl, rfl, rfl, rfl⟩
  · exact ⟨.inr ⟨mb, .inr (.inr rfl)⟩, BitVec.and_self, hkeys, Nat.le_refl _, rfl, rfl, rfl, rfl⟩

/-- LC is left, or SYS_LIFECYCLE_ADVANCE has moved it to the next state (R89). -/
theorem StandingMoved.lc_next {c : Instr} {a x : Standing} (h : StandingMoved c a x) :
    x.lc = a.lc ∨ ∃ mb, c = .sysLifecycleAdvance mb ∧ nextLc a.lc.toNat = some x.lc.toNat := by
  obtain hsame | ⟨mb, rfl, _, -, rfl⟩ | ⟨mb, rfl, _, hnext, -, rfl⟩ | ⟨mb, rfl, _, -, rfl⟩ := h.fuses_cases
  · exact .inl (congrArg Fuses.lc hsame)
  · exact .inl rfl
  · exact hnext.imp_right fun hnext => ⟨mb, rfl, hnext⟩
  · exact .inl rfl

/-- RB_COUNT is left, or the command is SYS_ROLLBACK_ADVANCE (R74). -/
theorem StandingMoved.rbCount_eq {c : Instr} {a x : Standing} (h : StandingMoved c a x) :
    x.rbCount = a.rbCount ∨ ∃ mb, c = .sysRollbackAdvance mb := by
  obtain hsame | ⟨mb, rfl, -⟩ | ⟨mb, rfl, _, -, -, rfl⟩ | ⟨mb, rfl, _, -, rfl⟩ := h.fuses_cases
  · exact .inl (congrArg Fuses.rbCount hsame)
  · exact .inr ⟨mb, rfl⟩
  · exact .inl rfl
  · exact .inl rfl

/-- A response changes no fuse. -/
theorem fuses_respond (n st : Nat) (bytes : List Byte) (s : State) : fuses (respond n st bytes s) = fuses s := by
  rw [fuses_eq, respond_standing, fuses_eq]

theorem need_of_false {c : Bool} (hc : c = false) (k : State → Reply) (s : State) :
    need c k s = refuse stBadParam s :=
  if_neg (by simp [hc])

theorem needState_of_false {c : Bool} (hc : c = false) (k : State → Reply) (s : State) :
    needState c k s = refuse stState s :=
  if_neg (by simp [hc])

/-- A call whose parameters do not meet the condition it asks of them is answered BAD_PARAM, and nothing is done. -/
theorem call_need_refused {mb : Fin 8} {code len : Nat} {a : Allowed} {p : List Byte} {s : State} {c : List Byte → Bool}
    {k : List Byte → State → Reply} (ask : Asked mb code a len p s) (hc : c p = false) :
    call mb code a len (fun p => need (c p) (k p)) s = .next (respond mb stBadParam [] s) := by
  rw [call_asked ask, need_of_false hc]
  rfl

/-- Settles O36: the fuses are of the standing part, and a confirm word that does not match fails the call's condition. -/
theorem fusesOneWay : Obligations.FusesOneWay := by
  unfold Obligations.FusesOneWay
  refine ⟨fun c s t hexec => (standingMoved_of_exec hexec).fuses_oneWay, ?lifecycle, ?keys⟩
  all_goals
    intro mb p s ask hconfirm
    exact ⟨_, call_need_refused ask (decide_eq_false (by simp [hconfirm])), rfl, fuses_respond ..⟩

/-- Settles O37: LC is of the standing part, and the table of R89 is `nextLc`. -/
theorem lifecycleOrder : Obligations.LifecycleOrder := by
  unfold Obligations.LifecycleOrder
  exact ⟨fun c s t hexec => (standingMoved_of_exec hexec).lc_next, rfl, rfl, rfl, rfl⟩

/-- Settles O38: with the confirm word and the next state given, the key hashes alone decide. -/
theorem developNeedsKey : Obligations.DevelopNeedsKey := by
  unfold Obligations.DevelopNeedsKey
  intro mb p s ask hconfirm hnext hdevelop
  refine (call_need_asked ask (decide_eq_true ⟨hconfirm, hnext⟩)).trans ?_
  split
  · next hkeys =>
    rw [needState_of_false (by simp [hdevelop, hkeys])]
    rfl
  · next hkeys =>
    have hfused : (tget none s.sys.keyHash 0).isSome = true ∨ (tget none s.sys.keyHash 1).isSome = true := by
      simpa only [Option.isSome_iff_ne_none, ne_eq, not_and_or] using hkeys
    rw [needState_of_true (by simpa [hdevelop] using hfused), hdevelop]
    rfl

/-- Settles O39: RB_COUNT is of the standing part; a target that RB_COUNT and the running image allow is answered OK, and any
other one fails the call's condition. -/
theorem rollbackCounter : Obligations.RollbackCounter := by
  unfold Obligations.RollbackCounter
  refine ⟨fun c s t hexec => (standingMoved_of_exec hexec).rbCount_eq, ?equal, ?outside⟩
  case equal =>
    intro mb p s ask hstate hequal hreached
    have hanswer : exec (.sysRollbackAdvance mb) s =
        .next (respond mb stOk (b1 (p8 p 0)) (onSys (fun x => { x with rbCount := p8 p 0 }) s)) := by
      refine (call_asked ask).trans ?_
      rw [needState_of_true (by simp [hstate]), need_of_true (decide_eq_true ⟨by omega, hreached⟩)]
      rfl
    have hsame : onSys (fun x => { x with rbCount := p8 p 0 }) s = s := by
      rw [hequal]
      rfl
    rw [hsame] at hanswer
    exact ⟨_, hanswer, rfl, fuses_respond ..⟩
  case outside =>
    intro mb p s ask hstate houtside
    refine ⟨_, ?_, rfl, fuses_respond ..⟩
    refine (call_asked ask).trans ?_
    rw [needState_of_true (by simp [hstate]), need_of_false (decide_eq_false (by omega))]
    rfl

end Sys2Proof.Machine
end

section
/-! SUPPORT. What an event that is not due leaves, the sideband STATUS byte and words sent byte by byte; and the sideband slave
and the window before and after it is ready, and writes to a busy mailbox. -/
namespace Sys2Proof.Machine

/-- An event whose condition does not hold changes nothing. -/
theorem event_idle {due : Bool} {s t : State} {out : Out} (hdue : due = false)
    (hout : out = .next (if due then t else s)) : out = .next s := by
  rw [hout, hdue]
  rfl

/-- The bits of the sideband STATUS byte (R46). -/
theorem getLsbD_statusByte (ready hold discarded : Bool) :
    let b : Byte := BitVec.ofNat 8 (word [(0, bitNat ready), (1, bitNat hold), (2, bitNat discarded)])
    b.getLsbD 0 = ready ∧ b.getLsbD 1 = hold ∧ b.getLsbD 2 = discarded ∧ ∀ k, 3 ≤ k → b.getLsbD k = false := by
  have hsmall : word [(0, bitNat ready), (1, bitNat hold), (2, bitNat discarded)] < 2 ^ 3 := by
    cases ready <;> cases hold <;> cases discarded <;> decide
  refine ⟨?_, ?_, ?_, fun k hk => ?_⟩
  · cases ready <;> cases hold <;> cases discarded <;> rfl
  · cases ready <;> cases hold <;> cases discarded <;> rfl
  · cases ready <;> cases hold <;> cases discarded <;> rfl
  · rw [BitVec.getLsbD_ofNat,
      Nat.testBit_lt_two_pow (hsmall.trans_le (Nat.pow_le_pow_right (by decide) hk)), Bool.and_false]

/-- STATUS with POR_N high puts its byte on SB_SDO. -/
theorem sbStatus_answers {s : State} (hpor : s.sys.por = false) : ∃ t b, exec .sbStatus s = .next t ∧
    t.sys.sbOut = some [b] ∧ b.getLsbD 0 = s.sys.windowReady ∧ b.getLsbD 1 = s.sys.bootHold ∧
    b.getLsbD 2 = s.sys.discarded ∧ ∀ k, 3 ≤ k → b.getLsbD k = false :=
  ⟨_, _, event_due (s := s) (by simp [hpor]) rfl, rfl, getLsbD_statusByte _ _ _⟩

/-- READ and WRITE with POR_N high, of a window that is not ready or at a misaligned address: zero bytes are sent, and the
data are discarded (R695, R696). -/
theorem sideband_not_carried_out {s : State} {addr : Word} (hpor : s.sys.por = false)
    (hout : ¬ (s.sys.windowReady = true ∧ addr.toNat % 4 = 0)) (n : Nat) (d : List Byte) :
    exec (.sbRead addr n) s = .next (onSys (fun x => { x with sbOut := some (List.replicate (4 * n) 0) }) s) ∧
    exec (.sbWrite addr d) s = .next (onSys (fun x => { x with discarded := true, sbOut := none }) s) := by
  obtain ⟨hread, hwrite, -⟩ := hostWindowRuns
  constructor
  · rw [hread addr n s (by simp [hpor]), if_neg hout]
  · rw [hwrite addr d s (by simp [hpor]), if_neg hout]

/-- Under POR_N every sideband transaction leaves the state (R696). -/
theorem sideband_ignored_under_por {s : State} (hpor : s.sys.por = true) (addr : Word) (n : Nat) (d : List Byte) (b : Byte) :
    exec (.sbRead addr n) s = .next s ∧ exec (.sbWrite addr d) s = .next s ∧ exec .sbStatus s = .next s ∧
    exec (.sbUnknownCommand b) s = .next s := by
  have hidle : (!s.sys.por) = false := by simp [hpor]
  exact ⟨event_idle (s := s) hidle rfl, event_idle (s := s) hidle rfl, event_idle (s := s) hidle rfl,
    event_idle (s := s) (by simp [hpor]) rfl⟩

/-- SB_SDO, high-impedance under POR_N, stays so under every command: the sideband transactions are ignored, the fall of
POR_N releases it, and no other command has it in its footprint (R696). -/
theorem exec_sbOut_none {c : Instr} {s t : State} (hpor : s.sys.por = true) (hnone : s.sys.sbOut = none)
    (hexec : exec c s = .next t) : t.sys.sbOut = none := by
  have hignored := sideband_ignored_under_por hpor
  cases c
  case sbRead addr n => cases (hignored addr n [] 0).1.symm.trans hexec; exact hnone
  case sbWrite addr d => cases (hignored addr 0 d 0).2.1.symm.trans hexec; exact hnone
  case sbStatus => cases (hignored 0 0 [] 0).2.2.1.symm.trans hexec; exact hnone
  case sbUnknownCommand b => cases (hignored 0 0 [] b).2.2.2.symm.trans hexec; exact hnone
  case porAssert => cases hexec; rfl
  all_goals exact (exec_frame (q := .sideband) hexec (by simp only [footprint]; decide)).1.trans hnone

/-- Only the fall of POR_N and the start of PD_0 move the window-ready bit. -/
theorem StandingMoved.windowReady_eq {c : Instr} {a x : Standing} (h : StandingMoved c a x) (hpor : c ≠ .porAssert) :
    x.windowReady = a.windowReady ∨ c = .pd0Running := by
  cases h with
  | porFallen => exact absurd rfl hpor
  | windowOpened => exact .inr rfl
  | stays | strapsSampled => exact .inl rfl
  | rbRaised _ h | keysRevoked _ h | selfTested _ h | readBack _ h | darkTested _ _ h =>
    obtain ⟨_, -, rfl⟩ := h
    exact .inl rfl
  | lcMoved _ h => obtain ⟨_, -, -, rfl⟩ := h; exact .inl rfl
  | safetyStarted _ _ h => obtain rfl | rfl := h <;> exact .inl rfl
  | governed _ h | throttled h | scanned _ h => obtain ⟨_, rfl, -⟩ := h; exact .inl rfl

/-- A window that is ready stays so under every command but the fall of POR_N (R696). -/
theorem exec_windowReady {c : Instr} {s t : State} (hexec : exec c s = .next t) (hready : s.sys.windowReady = true)
    (hpor : c ≠ .porAssert) : t.sys.windowReady = true := by
  obtain hsame | rfl := (standingMoved_of_exec hexec).windowReady_eq hpor
  · exact Eq.trans hsame hready
  · have hpd0 : standingO (exec .pd0Running s) = _ := execPd0Running_standing s
    rw [hexec, standingO_next, Option.some.injEq] at hpd0
    have hopen := congrArg Standing.windowReady hpd0
    rwa [hready, Bool.true_or] at hopen

/-- Settles O40: the sideband slave under POR_N, before the window is ready, and after. -/
theorem windowReady : Obligations.WindowReady := by
  unfold Obligations.WindowReady
  refine ⟨?underPor, ?porFalls, ?highImpedance, ?notReady, ?status, ?opens, ?stays⟩
  case underPor => exact fun addr n d b s hpor => sideband_ignored_under_por hpor addr n d b
  case porFalls => exact fun s => ⟨porState s, rfl, rfl, rfl, rfl⟩
  case highImpedance => exact fun c s t hpor hnone hexec => exec_sbOut_none hpor hnone hexec
  case notReady =>
    intro addr n d s hpor hclosed
    exact sideband_not_carried_out hpor (by simp [hclosed]) n d
  case status => exact fun s hpor => sbStatus_answers hpor
  case opens =>
    intro s hpor htest hstep
    exact ⟨_, event_due (s := s) (by simp [hpor, htest, hstep]) rfl, rfl, rfl⟩
  case stays => exact fun c s t hexec hready hpor => exec_windowReady hexec hready hpor

/-- Settles O41: a misaligned access is not carried out, and STATUS reports the discarded WRITE. -/
theorem misalignedSideband : Obligations.MisalignedSideband := by
  unfold Obligations.MisalignedSideband
  intro addr n d s hpor hmisaligned
  obtain ⟨hread, hwrite⟩ := sideband_not_carried_out hpor (addr := addr) (by simp [hmisaligned]) n d
  obtain ⟨u, b, hstatus, hout, -, -, hdiscarded, -⟩ :=
    sbStatus_answers (s := onSys (fun x => { x with discarded := true, sbOut := none }) s) hpor
  exact ⟨hread, _, hwrite, rfl, u, b, hstatus, hout, hdiscarded⟩

/-- The value of a number's bytes is its remainder. -/
theorem leNat_leBytes (n v : Nat) : leNat (leBytes n v) = v % 256 ^ n := by
  induction n generalizing v with
  | zero => simp [leNat, leBytes, Nat.mod_one]
  | succ n ih => rw [Nat.pow_succ', Nat.mod_mul, leBytes, leNat, ih, BitVec.toNat_ofNat]

/-- A word sent as its four bytes is one complete word (R46). -/
theorem wordsOf_b4 (w : Word) : wordsOf (b4 w.toNat) = [w] := by
  change [BitVec.ofNat 32 (leNat (leBytes 4 w.toNat))] = [w]
  rw [leNat_leBytes, Nat.mod_eq_of_lt (show w.toNat < 256 ^ 4 from w.isLt), BitVec.ofNat_toNat, BitVec.setWidth_eq]

/-- A write to a word of a mailbox in the window (R40). -/
theorem windowWrite_mailbox {n off : Nat} (hn : n < 8) (hoff : off < 256) (haligned : off % 4 = 0) (w : Word) (s : State) :
    windowWrite (0x100 + 0x100 * n + off) w s = mailboxWrite n off w s := by
  unfold windowWrite
  rw [if_neg (by omega), if_pos (by omega), show (0x100 + 0x100 * n + off - 0x100) / 0x100 = n by omega,
    show (0x100 + 0x100 * n + off) % 0x100 = off by omega]

/-- A write to a busy mailbox's payload, REQ_LEN or REQ_SEQ, or a RING, is ignored with EV_016 (R51). -/
theorem mailboxWrite_busy {n off : Nat} {w : Word} {s : State} (hbusy : (mbAt s n).busy = true)
    (hplace : (off = 0 ∧ w.getLsbD 0 = true ∧ s.sys.noCox = false) ∨ off = 8 ∨ off = 12 ∨ 16 ≤ off) :
    mailboxWrite n off w s = raise 16 [] s := by
  have hring : ¬ (off = 0 ∧ ((!bit w.toNat 0) = true ∨ s.sys.noCox = true)) := by
    rintro ⟨rfl, hidle⟩
    obtain ⟨-, hset, hcox⟩ | hplace := hplace
    · rw [bit_toNat, hset, hcox] at hidle
      simp at hidle
    · omega
  unfold mailboxWrite
  dsimp only
  rw [if_neg (by omega), if_neg hring, if_pos hbusy]

/-- Settles O42: the three paths all write the mailbox's word. -/
theorem busyMailboxWritesIgnored : Obligations.BusyMailboxWritesIgnored := by
  unfold Obligations.BusyMailboxWritesIgnored
  intro n off w s hn hoff haligned hbusy hplace
  have haddr : (BitVec.ofNat 32 (0x100 + 0x100 * n + off)).toNat = 0x100 + 0x100 * n + off := by
    rw [BitVec.toNat_ofNat, Nat.mod_eq_of_lt (by omega)]
  have hignored (u : State) (hmb : (mbAt u n).busy = true) (hcox : u.sys.noCox = s.sys.noCox) :
      windowWrite (0x100 + 0x100 * n + off) w u = raise 16 [] u := by
    rw [windowWrite_mailbox hn hoff haligned, mailboxWrite_busy hmb (hcox ▸ hplace)]
  refine ⟨hignored s hbusy rfl, fun hpor hready => ?_⟩
  obtain ⟨-, hwrite, -, -, hwindow, -⟩ := hostWindowRuns
  constructor
  · rw [hwindow _ w s (by simp [hpor, hready]), haddr, hignored s hbusy rfl]
  · have hwhole : decide ((b4 w.toNat).length % 4 ≠ 0) = false := decide_eq_false (by simp [b4, leBytes])
    rw [hwrite _ _ s (by simp [hpor]), haddr, if_pos ⟨hready, by omega⟩, hwhole, wordsOf_b4]
    dsimp only [windowWrites]
    rw [Nat.mod_eq_of_lt (by omega)]
    exact congrArg Host.Outcome.next (hignored _ hbusy rfl)

end Sys2Proof.Machine
end

section
/-! SUPPORT. When calls are served, what the checks of a request refuse, what a response leaves, and what a full job table
answers. -/
namespace Sys2Proof.Machine

/-- Where no call is served, a call command changes nothing. -/
theorem call_idle_of_not_serving {i : Instr} {r : CallRow} {s : State} (hrow : callRow i = some r)
    (hserving : serving s = false) : exec i s = .next s :=
  (exec_runs i r s hrow).idle (by simp [callReady, hserving])

/-- Outside boot hold calls are served in EASY, PADDLE and DRIVE alone (R56, R697). -/
theorem serving_of_not_awake {s : State} (hhold : s.sys.bootHold = false) (hasleep : awake s = false) :
    serving s = false := by
  simp [serving, hhold, hasleep]

/-- Settles O44: in HOLD no call is served. -/
theorem noCallInHold : Obligations.NoCallInHold := by
  unfold Obligations.NoCallInHold
  intro i r s hrow hpower hhold
  exact call_idle_of_not_serving hrow (serving_of_not_awake hhold (by simp [awake, hpower]))

/-- A changed mailbox is read back as changed. -/
theorem mbAt_modMb_same {s : State} (hwf : MailWf s) (n : Nat) (f : Mailbox → Mailbox) :
    mbAt (modMb n f s) n = f (mbAt s n) :=
  tget_tput_same ({} : Mailbox) n _ s.sys.mb 0 hwf.1

/-- A change of one mailbox leaves every other. -/
theorem mbAt_modMb_other {s : State} (hwf : MailWf s) {n k : Nat} (hk : k ≠ n) (f : Mailbox → Mailbox) :
    mbAt (modMb n f s) k = mbAt s k :=
  tget_tput_other ({} : Mailbox) n k _ hk s.sys.mb 0 hwf.1

/-- The state with a request rung in a mailbox: BUSY is set, and MB_2 to MB_7 enter their queue (R54, R697). -/
def rung (n : Nat) (s : State) : State :=
  when (2 ≤ n) (onSys (fun x => { x with waitQ := x.waitQ ++ [n] }))
    (modMb n (fun m => { m with busy := true, done := false, taken := false }) s)

/-- RING written to an idle mailbox rings its request, but in a boot stopped for want of a cox (R697). -/
theorem mailboxWrite_ring {n : Nat} {s : State} (hcox : s.sys.noCox = false) (hidle : (mbAt s n).busy = false) :
    mailboxWrite n 0 1 s = rung n s := by
  have hset : ¬ (0 = 0 ∧ ((!bit (1 : Word).toNat 0) = true ∨ s.sys.noCox = true)) := by simp [hcox, bit]
  unfold mailboxWrite ring
  dsimp only
  rw [if_neg (by decide), if_neg hset, if_neg (by simp [hidle]), if_pos rfl, if_neg (by simp [hcox])]
  rfl

/-- A ring changes a mailbox and the queue of requests alone. -/
theorem rung_sys (n : Nat) (s : State) : (rung n s).sys = { s.sys with
    mb := (modMb n (fun m => { m with busy := true, done := false, taken := false }) s).sys.mb
    waitQ := if 2 ≤ n then s.sys.waitQ ++ [n] else s.sys.waitQ } := by
  unfold rung when
  by_cases hn : 2 ≤ n
  · rw [if_pos (decide_eq_true hn), if_pos hn]
    rfl
  · rw [if_neg (by simp [hn]), if_neg hn]
    rfl

/-- Settles O43: the RING write rings the request, and in BOOT no call is served. -/
theorem ringWaitsInBoot : Obligations.RingWaitsInBoot := by
  unfold Obligations.RingWaitsInBoot
  intro n s hn hwf hpor hready hpower hhold hcox hidle
  obtain ⟨-, -, -, -, hwindow, -⟩ := hostWindowRuns
  have hexec : exec (.windowWrite (BitVec.ofNat 32 (0x100 + 0x100 * n)) 1) s = .next (rung n s) := by
    rw [hwindow _ 1 s (by simp [hpor, hready]), BitVec.toNat_ofNat, Nat.mod_eq_of_lt (by omega),
      ← Nat.add_zero (0x100 + 0x100 * n), windowWrite_mailbox hn (by decide) rfl, mailboxWrite_ring hcox hidle]
  have hmb : mbAt (rung n s) n = { mbAt s n with busy := true, done := false, taken := false } := by
    unfold mbAt
    rw [rung_sys]
    exact mbAt_modMb_same hwf n (fun m => { m with busy := true, done := false, taken := false })
  refine ⟨_, hexec, by rw [hmb], by rw [rung_sys], fun i r hrow => call_idle_of_not_serving hrow ?_⟩
  exact serving_of_not_awake (by rw [rung_sys]; exact hhold) (by rw [awake, rung_sys]; simp [hpower])

section Refusals
variable {n code len : Nat} {a : Allowed} {act : List Byte → State → Reply} {s : State}

/-- A request out of form is refused with BAD_PARAM, unless the lead is isolated (R48, R52). -/
theorem checkCall_out_of_form (hlead : leadIsolated s = false)
    (hform : (mbAt s n).reqLen < 4 ∨ 240 < (mbAt s n).reqLen ∨ reservedZero (mbAt s n) = false) :
    checkCall n code a len act s = refuse stBadParam s := by
  unfold checkCall
  dsimp only
  rw [if_neg (by simp [hlead])]
  by_cases hlen : (mbAt s n).reqLen < 4 ∨ 240 < (mbAt s n).reqLen
  · rw [if_pos hlen]
  · have hreserved : reservedZero (mbAt s n) = false := by
      obtain hlow | hhigh | hreserved := hform
      · exact absurd (.inl hlow) hlen
      · exact absurd (.inr hhigh) hlen
      · exact hreserved
    rw [if_neg hlen, if_pos (by simp [hreserved])]

/-- The request in a mailbox is in form, and the lead is not isolated. -/
def InForm (n : Nat) (s : State) : Prop :=
  leadIsolated s = false ∧ 4 ≤ (mbAt s n).reqLen ∧ (mbAt s n).reqLen ≤ 240 ∧ reservedZero (mbAt s n) = true

/-- For a request in form the checks go on with the mailbox and the states of the row. -/
theorem checkCall_in_form (hform : InForm n s) : checkCall n code a len act s =
    if n < 2 && !a.pri then refuse stBadCall s
    else if s.sys.bootHold && decide (s.sys.bootResult = 0x13) && !([0x0100, 0x0101, 0x0104].contains code) then
      refuse stState s
    else if !allowedNow a s then refuse stState s
    else if (params (mbAt s n)).length < len then refuse stBadParam s
    else act (params (mbAt s n)) s := by
  obtain ⟨hlead, hmin, hmax, hreserved⟩ := hform
  unfold checkCall
  dsimp only
  rw [if_neg (by simp [hlead]), if_neg (by omega), if_neg (by simp [hreserved])]

/-- In MB_0 and MB_1 a call without pri is refused with BAD_CALL (R53). -/
theorem checkCall_not_priority (hform : InForm n s) (hn : n < 2) (hpri : a.pri = false) :
    checkCall n code a len act s = refuse stBadCall s := by
  rw [checkCall_in_form hform, if_pos (by simp [hn, hpri])]

/-- A call is refused with STATE outside the states of its row, and on a decommissioned module in boot hold where that does
not serve it (R58, R85, R86). -/
theorem checkCall_out_of_state (hform : InForm n s) (hplace : 2 ≤ n ∨ a.pri = true)
    (hstate : allowedNow a s = false ∨
      (s.sys.bootHold = true ∧ s.sys.bootResult = 0x13 ∧ code ≠ 0x0100 ∧ code ≠ 0x0101 ∧ code ≠ 0x0104)) :
    checkCall n code a len act s = refuse stState s := by
  have hmailbox : ¬ (decide (n < 2) && !a.pri) = true := by
    obtain hn | hpri := hplace
    · simp [Nat.not_lt.mpr hn]
    · simp [hpri]
  rw [checkCall_in_form hform, if_neg hmailbox]
  obtain hrow | ⟨hhold, hresult, hnop, hident, hreport⟩ := hstate
  · rw [if_pos (c := (!allowedNow a s) = true) (by simp [hrow]), ite_self]
  · rw [if_pos (by simp [hhold, hresult, hnop, hident, hreport])]

end Refusals

/-- A state in which calls are served allows a call of every state. -/
theorem allowedNow_of_serving {s : State} (hserving : serving s = true) : allowedNow epdBhPri s = true := by
  unfold serving awake at hserving
  unfold allowedNow
  cases hhold : s.sys.bootHold
  · cases hpower : s.sys.power <;> simp [hhold, hpower, epdBhPri] at hserving ⊢
  · rfl

/-- Settles O46: the form is checked first, then the mailbox; an unknown code in form passes every check of a call of every
state and mailbox. -/
theorem badRequestsRefused : Obligations.BadRequestsRefused := by
  unfold Obligations.BadRequestsRefused
  refine ⟨fun i r s hrow hready hlead => ⟨fun hform => ?form, fun hmin hmax hreserved hmb hpri => ?mailbox⟩, ?unknown⟩
  case form =>
    exact (exec_runs i r s hrow).refused hready (by decide) fun act => checkCall_out_of_form hlead hform
  case mailbox =>
    exact (exec_runs i r s hrow).refused hready (by decide) fun act =>
      checkCall_not_priority ⟨hlead, hmin, hmax, hreserved⟩ hmb hpri
  case unknown =>
    intro mb s hunknown hready hlead hmin hmax hreserved hlife
    obtain ⟨hrun, -⟩ := systemCallsRun
    have hserving : serving s = true := by
      simp only [callReady, Bool.and_eq_true] at hready
      exact hready.1.1.1.2
    have hhold : ¬ (s.sys.bootHold && decide (s.sys.bootResult = 0x13) &&
        !([0x0100, 0x0101, 0x0104].contains (reqCode (mbAt s mb)))) = true := by
      cases hb : s.sys.bootHold
      · simp
      · rw [decide_eq_false (hlife hb)]
        simp
    rw [hrun mb s (by rw [hunknown]; exact hready), checkCall_in_form ⟨hlead, hmin, hmax, hreserved⟩,
      if_neg (by simp [epdBhPri]), if_neg hhold, if_neg (by simp [allowedNow_of_serving hserving]), if_neg (Nat.not_lt_zero _)]
    rfl

/-- Settles O47: the states of the row are checked after the form and the mailbox. -/
theorem callsOutsideTheirStates : Obligations.CallsOutsideTheirStates := by
  unfold Obligations.CallsOutsideTheirStates
  intro i r s hrow hready hlead hmin hmax hreserved hplace hstate
  exact (exec_runs i r s hrow).refused hready (by decide) fun act =>
    checkCall_out_of_state ⟨hlead, hmin, hmax, hreserved⟩ hplace hstate

/-- Consecutive entries written are read back in order. -/
theorem tslice_tfill {α : Type} [DecidableEq α] (d : α) {t : Table α} (ht : twf d 0 t = true) (vs : List α) (i : Nat) :
    tslice d (tfill d i vs t) i vs.length = vs := by
  induction vs generalizing i t with
  | nil => rfl
  | cons v vs ih =>
    have hput : twf d 0 (tput d i v t) = true := tput_twf d i v t 0 ht (Nat.zero_le i)
    have hfirst : tget d (tfill d (i + 1) vs (tput d i v t)) i = v := by
      rw [tget_tfill_other d vs (i + 1) i _ hput (.inl (by omega)), tget_tput_same d i v t 0 ht]
    change tget d (tfill d (i + 1) vs (tput d i v t)) i :: tslice d (tfill d (i + 1) vs (tput d i v t)) (i + 1) vs.length = _
    rw [hfirst, ih hput]

/-- Settles O48: a response changes its own mailbox as R49 has it, and raises the mailbox's event. -/
theorem responseLayout : Obligations.ResponseLayout := by
  unfold Obligations.ResponseLayout
  intro n st bytes s hn hst hbytes hwf
  have hmb (k : Nat) : mbAt (respond n st bytes s) k = mbAt (modMb n (fun m => { m with
      payload := tfill 0 0 (b2 (reqCode (mbAt s n)) ++ [BitVec.ofNat 8 st, 0] ++ bytes) m.payload
      rspLen := (b2 (reqCode (mbAt s n)) ++ [BitVec.ofNat 8 st, 0] ++ bytes).length
      rspSeq := m.reqSeq, code := st, done := true, busy := false, taken := false }) s) k := by
    unfold respond mbAt
    rw [raise_sys]
    rfl
  have hlength : (b2 (reqCode (mbAt s n)) ++ [BitVec.ofNat 8 st, 0] ++ bytes).length = 4 + bytes.length := by
    simp [b2, leBytes]
    omega
  have hdefined : ∀ k < 8, isDefined (8 + k) = true := by decide
  rw [hmb, mbAt_modMb_same hwf]
  refine ⟨?_, hlength, rfl, rfl, rfl, rfl, stuck_raise_self (hdefined n hn) [] _, fun k hk => ?_⟩
  · rw [← hlength]
    exact tslice_tfill 0 (hwf.2 n) _ 0
  · rw [hmb, mbAt_modMb_other hwf hk]

/-- Settles O50: each start of a job looks for room first. -/
theorem ninthJobBusy : Obligations.NinthJobBusy := by
  unfold Obligations.NinthJobBusy
  have hbusy {code : Nat} {par : List Byte} {f : Nat → State → State} {s : State} (hfull : 8 ≤ s.sys.jobs.length) :
      startJob code par f s = refuse stBusy s := if_pos hfull
  refine ⟨fun code par f start s hfull => ⟨hbusy hfull, if_pos hfull⟩, fun mb p s hfull hflash => ⟨?save, ?begin, ?verify⟩⟩
  case save =>
    intro ask himage
    refine (call_asked ask).trans ?_
    rw [needState_of_true (by simp [hflash, himage]), hbusy hfull]
    rfl
  case begin =>
    intro ask hkeep
    refine (call_need_needState_asked ask (decide_eq_true hkeep) hflash).trans ?_
    rw [hbusy hfull]
    rfl
  case verify =>
    intro ask
    refine (call_asked ask).trans ?_
    rw [needState_of_true hflash, hbusy hfull]
    rfl

end Sys2Proof.Machine
end

section
/-! SUPPORT. The mailboxes stay in canonical form and the job table within its bounds: the primitives that write them, the
combinators, and the answering of calls. -/
namespace Sys2Proof.Machine

/-- The mailboxes that a view shows are in canonical form. -/
def MailOk (v : View) : Prop :=
  ∀ mb q, v.sys.mail = some (mb, q) →
    twf {} 0 mb = true ∧ ∀ n, twf 0 0 (tget {} mb n).payload = true

/-- A job number is from 1 to 0xFFFF (R698). -/
def JobNumber (n : Nat) : Prop := 1 ≤ n ∧ n ≤ 0xFFFF

/-- The job table that a view shows is within its bounds (R55, R698). -/
def JobsOk (v : View) : Prop :=
  ∀ open_ ended next, v.sys.jobs = some (open_, ended, next) →
    open_.length ≤ 8 ∧ ended.length ≤ 16 ∧ JobNumber next ∧
    (∀ j ∈ open_, JobNumber j.num) ∧ ∀ j ∈ ended, JobNumber j.num

/-- Where a start state has its mailboxes canonical, a view does, and the same of the job table. -/
def Kept (a : State) (v : View) : Prop := (MailWf a → MailOk v) ∧ (JobTable a → JobsOk v)

variable {m : StatePart → Bool} {a s : State}

theorem veil_eq_some {α : Type} {b : Bool} {x y : α} : veil b x = some y ↔ b = false ∧ x = y := by
  cases b <;> simp [veil]

theorem mailOk_hide : MailOk (hide m s) ↔ (m .mail = false → MailWf s) := by
  simp only [MailOk, hide, viewSys, veil_eq_some, Prod.mk.injEq, MailWf, mbAt]
  exact ⟨fun h hm => h _ _ ⟨hm, rfl, rfl⟩, fun h mb q ⟨hm, hmb, _⟩ => hmb ▸ h hm⟩

theorem jobsOk_hide : JobsOk (hide m s) ↔ (m .jobs = false → JobTable s) := by
  simp only [JobsOk, JobNumber, hide, viewSys, veil_eq_some, Prod.mk.injEq, JobTable]
  constructor
  · intro h hm
    obtain ⟨hopen, hended, ⟨hlow, hhigh⟩, hjobs, hpast⟩ := h _ _ _ ⟨hm, rfl, rfl, rfl⟩
    exact ⟨hopen, hended, hlow, hhigh, hjobs, hpast⟩
  · rintro h _ _ _ ⟨hm, rfl, rfl, rfl⟩
    obtain ⟨hopen, hended, hlow, hhigh, hjobs, hpast⟩ := h hm
    exact ⟨hopen, hended, ⟨hlow, hhigh⟩, hjobs, hpast⟩

/-- A change of the host part keeps both where it keeps the canonical mailboxes and the bounds of the job table. -/
theorem onSys_kept {g : SysState → SysState} (h : Kept a (hide m s)) (hmail : MailWf s → MailWf (onSys g s))
    (hjobs : JobTable s → JobTable (onSys g s)) : Kept a (hide m (onSys g s)) := by
  simp only [Kept, mailOk_hide, jobsOk_hide] at h ⊢
  exact ⟨fun ha hm => hmail (h.1 ha hm), fun ha hm => hjobs (h.2 ha hm)⟩

/-! Mailboxes -/

theorem mailWf_modMb {n : Nat} {f : Mailbox → Mailbox} (h : MailWf s)
    (hf : ∀ x, twf 0 0 x.payload = true → twf 0 0 (f x).payload = true) : MailWf (modMb n f s) := by
  obtain ⟨hboxes, hpay⟩ := h
  refine ⟨tmod_twf _ _ _ _ hboxes, fun k => ?_⟩
  obtain rfl | hk := eq_or_ne k n
  · have heq : mbAt (modMb k f s) k = f (mbAt s k) := tget_tput_same _ _ _ _ 0 hboxes
    rw [heq]; exact hf _ (hpay k)
  · have heq : mbAt (modMb n f s) k = mbAt s k := tget_tput_other _ _ _ _ hk _ 0 hboxes
    rw [heq]; exact hpay k

@[simp] theorem modMb_kept {n : Nat} {f : Mailbox → Mailbox} (h : Kept a (hide m s))
    (hf : ∀ x, twf 0 0 x.payload = true → twf 0 0 (f x).payload = true) : Kept a (hide m (modMb n f s)) :=
  onSys_kept h (fun hs => mailWf_modMb hs hf) id

/-- An entry of a canonical table under a function that keeps the default. -/
theorem tget_tmap {α β : Type} [DecidableEq α] [DecidableEq β] {c : α} {d : β} {f : α → β}
    (hd : f c = d) {i : Nat} : ∀ {t : Table α} {lo : Nat}, twf c lo t = true → tget d (tmap d f t) i = f (tget c t i)
  | [], _, _ => hd.symm
  | (k, v) :: r, lo, h => by
    have h' := h
    simp only [twf, Bool.and_eq_true, decide_eq_true_eq] at h'
    obtain ⟨_, hr⟩ := h'
    have ih : tget d (tmap d f r) i = f (tget c r i) := tget_tmap hd hr
    by_cases hv : f v = d
    · have hskip : tmap d f ((k, v) :: r) = tmap d f r := by simp [tmap, hv]
      rw [hskip]
      by_cases hi : i ≤ k
      · rw [tget_below d _ _ _ (tmap_twf c d f r (k + 1) hr) (by omega)]
        obtain rfl | hlt := Nat.eq_or_lt_of_le hi
        · simp [tget, hv]
        · simp [tget, hlt, hlt.ne, hd]
      · simp [tget, ih, show i ≠ k by omega, show ¬ i < k by omega]
    · have hkeep : tmap d f ((k, v) :: r) = (k, f v) :: tmap d f r := by simp [tmap, hv]
      rw [hkeep]
      simp only [tget, ih]
      split
      · rfl
      · split
        · exact hd.symm
        · rfl

/-- A change of every mailbox that leaves the payloads keeps the canonical form. -/
theorem mailWf_tmap {g : SysState → SysState} {f : Mailbox → Mailbox} (hd : f {} = {})
    (hf : ∀ x, (f x).payload = x.payload) (hg : ∀ x, (g x).mb = tmap {} f x.mb) (h : MailWf s) :
    MailWf (onSys g s) := by
  obtain ⟨hboxes, hpay⟩ := h
  refine ⟨(congrArg (twf {} 0) (hg _)).trans (tmap_twf _ _ _ _ _ hboxes), fun n => ?_⟩
  have hentry : mbAt (onSys g s) n = f (mbAt s n) := by
    rw [mbAt, onSys_sys, hg, tget_tmap hd hboxes, mbAt]
  rw [hentry, hf]
  exact hpay n

/-! Jobs -/

theorem jobNumber_next {n : Nat} (h : JobNumber n) : JobNumber (nextJobNumber n) := by
  unfold JobNumber nextJobNumber at *
  split <;> omega

theorem addJob_kept {code : Nat} {par : List Byte} {state : Nat} {start : Stamp} (h : Kept a (hide m s))
    (hroom : s.sys.jobs.length < 8) : Kept a (hide m (addJob code par state start s).2) := by
  refine onSys_kept h id fun hs => ?_
  obtain ⟨-, hended, hlow, hhigh, hjobs, hpast⟩ := hs
  have ⟨hlow', hhigh'⟩ := jobNumber_next ⟨hlow, hhigh⟩
  refine ⟨by simpa using hroom, hended, hlow', hhigh', fun j hj => ?_, hpast⟩
  obtain hj | rfl := by simpa using hj
  · exact hjobs j hj
  · exact ⟨hlow, hhigh⟩

@[simp] theorem deferJob_kept {code : Nat} {par : List Byte} {start : Stamp} (h : Kept a (hide m s)) :
    Kept a (hideR m (deferJob code par start s)) := by
  unfold deferJob
  split
  · exact h
  · next hfull => exact addJob_kept h (by omega)

theorem startJob_kept {code : Nat} {par : List Byte} {begin_ : Nat → State → State} (h : Kept a (hide m s))
    (hbegin : ∀ n t, Kept a (hide m t) → Kept a (hide m (begin_ n t))) :
    Kept a (hideR m (startJob code par begin_ s)) := by
  unfold startJob
  split
  · exact h
  · next hfull => exact hbegin _ _ (addJob_kept h (by omega))

/-- A change of the open jobs that leaves their numbers keeps the job table. -/
theorem mapJobs_kept {g : SysState → SysState} {f : SysState → Job → Job} (h : Kept a (hide m s))
    (hg : ∀ x, g x = { x with jobs := x.jobs.map (f x) }) (hf : ∀ x j, (f x j).num = j.num) :
    Kept a (hide m (onSys g s)) := by
  obtain rfl : g = fun x => { x with jobs := x.jobs.map (f x) } := funext hg
  refine onSys_kept h id fun hs => ?_
  obtain ⟨hopen, hended, hlow, hhigh, hjobs, hpast⟩ := hs
  refine ⟨by simpa using hopen, hended, hlow, hhigh, fun j hj => ?_, hpast⟩
  obtain ⟨i, hi, rfl⟩ := List.mem_map.mp hj
  rw [hf]; exact hjobs i hi

@[simp] theorem jobRuns_kept {num : Nat} (h : Kept a (hide m s)) : Kept a (hide m (jobRuns num s)) :=
  mapJobs_kept h (fun _ => rfl) fun _ _ => by split <;> rfl

/-- The job that a number finds is open. -/
theorem openJob_mem {num : Nat} {j : Job} (h : openJob s num = some j) : j ∈ s.sys.jobs := List.mem_of_find?_eq_some h

section
variable [May m .events]

@[simp] theorem endJob_kept {num state status reason : Nat} (h : Kept a (hide m s)) :
    Kept a (hide m (endJob num state status reason s)) := by
  unfold endJob
  split
  · exact h
  · next j hfound =>
    rw [raise_hide]
    refine onSys_kept h id fun hs => ?_
    obtain ⟨hopen, hended, hlow, hhigh, hjobs, hpast⟩ := hs
    refine ⟨(List.length_filter_le _ _).trans hopen, by simp, hlow, hhigh, fun i hi => ?_, fun i hi => ?_⟩
    · exact hjobs i (List.mem_of_mem_filter hi)
    · obtain rfl | hi := List.mem_cons.mp (List.mem_of_mem_take hi)
      · exact hjobs j (openJob_mem hfound)
      · exact hpast i hi

/-! Calls -/

@[simp] theorem respond_kept {n status : Nat} {bytes : List Byte} (h : Kept a (hide m s)) :
    Kept a (hide m (respond n status bytes s)) := by
  unfold respond
  rw [raise_hide]
  exact onSys_kept (modMb_kept h fun x hx => tfill_twf _ _ _ _ hx) id id

@[simp] theorem settle_kept {n : Nat} {r : Reply} (h : Kept a (hideR m r)) : Kept a (hide m (settle n r)) := by
  cases r with
  | done st bs s => exact respond_kept h
  | later s => exact modMb_kept h fun _ hx => hx

end

@[simp] theorem kept_ite {c : Prop} [Decidable c] {v w : View} :
    Kept a (if c then v else w) ↔ (c → Kept a v) ∧ (¬ c → Kept a w) := by
  split <;> simp [*]

/-- What an operation done for every element of a list keeps. -/
theorem forAll_kept {α : Type} {xs : List α} {f : α → State → State} (h : Kept a (hide m s))
    (hf : ∀ x t, Kept a (hide m t) → Kept a (hide m (f x t))) : Kept a (hide m (forAll xs f s)) := by
  unfold forAll
  induction xs generalizing s with
  | nil => exact h
  | cons x xs ih => exact ih (hf x s h)

theorem when_kept {c : Bool} {f : State → State} (h : Kept a (hide m s)) (hf : Kept a (hide m (f s))) :
    Kept a (hide m (when c f s)) := by
  unfold when; split
  · exact hf
  · exact h

@[simp] theorem need_hideR {c : Bool} {k : State → Reply} :
    hideR m (need c k s) = if c then hideR m (k s) else hide m s := by unfold need; split <;> rfl

@[simp] theorem needState_hideR {c : Bool} {k : State → Reply} :
    hideR m (needState c k s) = if c then hideR m (k s) else hide m s := by unfold needState; split <;> rfl

@[simp] theorem needClaim_hideR {c : Bool} {k : State → Reply} :
    hideR m (needClaim c k s) = if c then hideR m (k s) else hide m s := by unfold needClaim; split <;> rfl

theorem checkCall_kept {n code : Nat} {al : Allowed} {len : Nat} {act : List Byte → State → Reply}
    (h : Kept a (hide m s)) (hact : ∀ p, Kept a (hideR m (act p s))) : Kept a (hideR m (checkCall n code al len act s)) := by
  unfold checkCall
  simp [h, hact]

/-- The state that an answer leaves keeps both. -/
def KeptO (m : StatePart → Bool) (a : State) (o : Out) : Prop := ∀ t, o = .next t → Kept a (hide m t)

theorem event_kept {c : Bool} {f : State → State} (h : Kept a (hide m s)) (hf : c = true → Kept a (hide m (f s))) :
    KeptO m a (event c f s) := by
  rintro _ ⟨⟩
  split
  · next hc => exact hf hc
  · exact h

section
variable [May m .events] {n code : Nat} {al : Allowed} {len : Nat} {act : List Byte → State → Reply}

theorem callSel_kept {sel : List Byte → Bool} (h : Kept a (hide m s)) (hact : ∀ p, Kept a (hideR m (act p s))) :
    KeptO m a (callSel n code sel al len act s) :=
  event_kept h fun _ => settle_kept (checkCall_kept h hact)

theorem call_kept (h : Kept a (hide m s)) (hact : ∀ p, Kept a (hideR m (act p s))) :
    KeptO m a (call n code al len act s) :=
  callSel_kept h hact

theorem callThen_kept {sel : List Byte → Bool} {after : List Byte → State → State} (h : Kept a (hide m s))
    (hact : ∀ p, Kept a (hideR m (act p s))) (hafter : ∀ p t, Kept a (hide m t) → Kept a (hide m (after p t))) :
    KeptO m a (callThen n code sel al len act after s) := by
  refine event_kept h fun _ => ?_
  have hchecked := checkCall_kept (n := n) (code := code) (al := al) (len := len) h hact
  dsimp only
  split
  · next st bs t hdone =>
    rw [hdone] at hchecked
    have hanswered : Kept a (hide m (respond n st bs t)) := respond_kept hchecked
    split
    · exact hafter _ _ hanswered
    · exact hanswered
  · next hlater =>
    rw [hlater] at hchecked
    exact settle_kept hchecked

end

end Sys2Proof.Machine
end

section
/-! SUPPORT. Each operation that writes the mailboxes or the job table keeps the one canonical and the other within its
bounds, in the order of the model; every other operation leaves both (the frames). -/
namespace Sys2Proof.Machine
section
set_option linter.unusedSectionVars false
variable {m : StatePart → Bool} [May m .settings] [May m .flash] [May m .sideband] [May m .host] [May m .events]
  [May m .frontEnd] [May m .timing] [May m .hitPath] [May m .trigger] [May m .waveform] [May m .buffer]
  [May m .compression] [May m .links] [May m .time] [May m .power] [May m .slowControl] [May m .light] [May m .safety]
  [May m .redundancy] [May m .sequencer] [May m .clock] [May m .free]
variable {a s : State} (hs : Kept a (hide m s))
include hs

/-! The ends of jobs -/

@[simp] theorem jobDone_kept {num : Nat} : Kept a (hide m (jobDone num s)) := by simp [jobDone, hs]
@[simp] theorem jobFail_kept {num : Nat} : Kept a (hide m (jobFail num s)) := by simp [jobFail, hs]

/-! The safety partition -/

@[simp] theorem settleDark_kept : Kept a (hide m (settleDark s)) := by
  unfold settleDark; (repeat' split) <;> simp [hs]
@[simp] theorem sfEval_kept : Kept a (hide m (sfEval s)) := by simp [sfEval, hs]
@[simp] theorem lockout_kept {cause : Nat} : Kept a (hide m (lockout cause s)) := by simp [lockout, hs]
@[simp] theorem outputFault_kept {n ev : Nat} : Kept a (hide m (outputFault n ev s)) := by simp [outputFault, hs]
@[simp] theorem sfReset_kept : Kept a (hide m (sfReset s).2) := by unfold sfReset; extract_lets; split <;> simp [hs]
@[simp] theorem coolingReport_kept : Kept a (hide m (coolingReport s)) := by simp [coolingReport, hs]
@[simp] theorem coolingClear_kept : Kept a (hide m (coolingClear s)) := by simp [coolingClear, hs]
@[simp] theorem hvmonResult_kept {own : Bool} {value : Int} {brk : Bool} :
    Kept a (hide m (hvmonResult own value brk s)) := by
  simp [hvmonResult, hs]

/-! Slow control -/

@[simp] theorem calBegin_kept : Kept a (hide m (calBegin s)) := by unfold calBegin; (repeat' split) <;> simp [hs]
@[simp] theorem gapWork_kept : Kept a (hide m (gapWork s)) := by unfold gapWork; (repeat' split) <;> simp [hs]
@[simp] theorem regularNext_kept : Kept a (hide m (regularNext s)) := by
  unfold regularNext; (repeat' split) <;> simp [hs]
@[simp] theorem scNext_kept : Kept a (hide m (scNext s)) := by unfold scNext; (repeat' split) <;> simp [hs]
@[simp] theorem scPowerUp_kept : Kept a (hide m (scPowerUp s)) := by simp [scPowerUp, hs]
@[simp] theorem diagDone_kept {ch : Nat} : Kept a (hide m (diagDone ch s)) := by
  simp +contextual [diagDone, hs, forAll_kept]

/-! Light -/

@[simp] theorem discoverEnds_kept {job : Nat} {out : JobOutcome} : Kept a (hide m (discoverEnds job out s)) := by
  unfold discoverEnds; (repeat' split) <;> simp [hs]
@[simp] theorem proofDone_kept {e : Nat} : Kept a (hide m (proofDone e s)) := by
  unfold proofDone; dsimp only; split <;> simp [hs]
@[simp] theorem boardReports_kept {c : Nat} {ws : List Word} : Kept a (hide m (boardReports c ws s)) := by
  simp +contextual [boardReports, hs, forAll_kept]

/-! Job calls, timing and scans -/

theorem lowJob_kept {code : Nat} {par : List Byte} {begin_ : Nat → State → State}
    (hbegin : ∀ n t, Kept a (hide m t) → Kept a (hide m (begin_ n t))) :
    Kept a (hideR m (lowJob code par begin_ s)) := by
  unfold lowJob; split
  · exact deferJob_kept hs
  · exact startJob_kept hs hbegin

@[simp] theorem fillJobEnds_kept {num : Nat} : Kept a (hide m (fillJobEnds num s)) := by simp [fillJobEnds, hs]
@[simp] theorem finishFill_kept {k : Nat} {f : Filling} : Kept a (hide m (finishFill k f s)) := by
  simp +contextual [finishFill, hs, forAll_kept]
@[simp] theorem fillCheck_kept {k b : Nat} : Kept a (hide m (fillCheck k b s)) := by
  unfold fillCheck; (repeat' split) <;> simp [hs]
@[simp] theorem scanBegin_kept {code : Nat} {p : List Byte} {num : Nat} :
    Kept a (hide m (scanBegin code p num s)) := by
  simp [scanBegin, hs]
theorem blockJob_kept {code : Nat} {p : List Byte} {more : Bool} {busy : Nat → Bool} {begin_ : Nat → State → State}
    (hbegin : ∀ n t, Kept a (hide m t) → Kept a (hide m (begin_ n t))) :
    Kept a (hideR m (blockJob code p more busy begin_ s)) := by
  simp [blockJob, hs, lowJob_kept hs hbegin]

@[simp] theorem scanCall_kept {code : Nat} {p : List Byte} {more : Bool} :
    Kept a (hideR m (scanCall code p more s)) :=
  blockJob_kept hs fun _ _ ht => scanBegin_kept ht

/-! Time -/

@[simp] theorem endGate_kept {i result : Nat} : Kept a (hide m (endGate i result s)) := by
  unfold endGate; (repeat' split) <;> simp [hs]
@[simp] theorem endGates_kept {l : List Nat} {result : Nat} :
    Kept a (hide m (forAll l (fun i => endGate i result) s)) :=
  forAll_kept hs fun _ _ ht => endGate_kept ht

@[simp] theorem takeStep_kept {st : Step489} : Kept a (hide m (takeStep st s)) := by
  simp +contextual [takeStep, hs, forAll_kept]

/-! The window and the links -/

@[simp] theorem ring_kept {n : Nat} : Kept a (hide m (ring n s)) := by
  unfold ring when
  split
  · exact hs
  · have hrung : Kept a (hide m (modMb n (fun x => { x with busy := true, done := false, taken := false }) s)) :=
      modMb_kept hs fun _ hx => hx
    split
    · exact onSys_kept hrung id id
    · exact hrung

@[simp] theorem mailboxWrite_kept {n off : Nat} {w : Word} : Kept a (hide m (mailboxWrite n off w s)) := by
  unfold mailboxWrite; (repeat' split) <;> simp +contextual [hs, tfill_twf]
@[simp] theorem windowWrite_kept {addr : Nat} {w : Word} : Kept a (hide m (windowWrite addr w s)) := by
  simp [windowWrite, hs]
@[simp] theorem rateAnswer_kept {g result : Nat} : Kept a (hide m (rateAnswer g result s)) := by
  unfold rateAnswer; (repeat' split) <;> simp [hs]
@[simp] theorem restartGroup_kept {g : Nat} : Kept a (hide m (restartGroup g s)) := by
  unfold restartGroup
  refine forAll_kept (by simp [hs]) fun l t ht => ?_
  split <;> simp [ht]

@[simp] theorem lkPowerUp_kept : Kept a (hide m (lkPowerUp s)) := by simp +contextual [lkPowerUp, hs, forAll_kept]
@[simp] theorem lkPowerDown_kept : Kept a (hide m (lkPowerDown s)) := by
  simp +contextual [lkPowerDown, hs, forAll_kept]
theorem prbsInject_kept {mb : Fin 8} {sel limit : Nat → Bool} {f : Nat → Option Nat × Nat → Option Nat × Nat} :
    KeptO m a (prbsInject mb sel limit f s) :=
  callSel_kept hs fun p => by simp [hs]

/-! Calibration runs and the memory -/

@[simp] theorem latchRun_kept {r : CalNow} {per : Nat} : Kept a (hide m (latchRun r per s)) := by simp [latchRun, hs]
@[simp] theorem calRunBegin_kept {p : List Byte} {num : Nat} : Kept a (hide m (calRunBegin p num s)) := by
  unfold calRunBegin
  refine fillJobEnds_kept ?_
  simp +contextual [hs, forAll_kept]

@[simp] theorem periodsWritten_kept {b k : Nat} : Kept a (hide m (periodsWritten b k s)) := by
  simp [periodsWritten, hs]
@[simp] theorem abortScrubs_kept {hit : Nat → Bool} : Kept a (hide m (abortScrubs hit s)) := by
  simp +contextual [abortScrubs, hs, forAll_kept]
@[simp] theorem autoTrim_kept : Kept a (hide m (autoTrim s)) := by
  unfold autoTrim
  split
  · next hroom =>
    have hdrawn : Kept a (hide m (drawNat s).2) := by simpa using hs
    have hadded := fun par => addJob_kept (code := 0x0206) (par := par) (state := 1) (start := 0) hdrawn hroom.2.2
    rw [hide_forAll _ _ _ fun _ _ => by simp]
    exact hadded _
  · exact hs

/-! What ends jobs: a failed half, a takeover, a reset -/

@[simp] theorem dropJob_kept {j : Job} {status reason : Nat} : Kept a (hide m (dropJob j status reason s)) := by
  unfold dropJob
  dsimp only
  split
  · simp [hs]
  · refine forAll_kept (by simp [hs]) fun i t ht => ?_
    split
    · split
      · exact endGate_kept ht
      · exact ht
    · exact ht

@[simp] theorem rejoinFails_kept {keep : Bool} : Kept a (hide m (rejoinFails keep s)) := by
  unfold rejoinFails; (repeat' split) <;> simp [hs]
@[simp] theorem abandonJob_kept {j : Job} {status reason : Nat} : Kept a (hide m (abandonJob j status reason s)) := by
  simp [abandonJob, hs]
@[simp] theorem abandonJobs_kept {js : List Job} {status reason : Nat} :
    Kept a (hide m (forAll js (fun j => abandonJob j status reason) s)) :=
  forAll_kept hs fun _ _ ht => abandonJob_kept ht

@[simp] theorem markFailed_kept {x : Half} : Kept a (hide m (markFailed x s)) := by simp [markFailed, hs]
@[simp] theorem declareFailed_kept {x : Half} : Kept a (hide m (declareFailed x s)) := by simp [declareFailed, hs]
@[simp] theorem judgeMissed_kept {x : Half} : Kept a (hide m (judgeMissed x s)) := by
  unfold judgeMissed; dsimp only; (repeat' split) <;> simp [hs]
@[simp] theorem failMailboxes_kept : Kept a (hide m (failMailboxes s)) := by
  simp +contextual [failMailboxes, hs, forAll_kept]
@[simp] theorem finishTakeover_kept {x : Half} : Kept a (hide m (finishTakeover x s)) := by
  unfold finishTakeover
  extract_lets y r led q t u
  have hq : Kept a (hide m q) := by simpa [q, r] using hs
  have hu : Kept a (hide m u) := by simp [u, t, hq]
  simpa using hu

@[simp] theorem finishRejoin_kept {r : Rejoin} : Kept a (hide m (finishRejoin r s)) := by simp [finishRejoin, hs]
@[simp] theorem unconfigure_kept : Kept a (hide m (unconfigure s)) := by simp [unconfigure, hs]
@[simp] theorem bootFrom4_kept {warm : Bool} : Kept a (hide m (bootFrom4 warm s)) := by
  unfold bootFrom4
  rw [hide_onPw]
  refine onSys_kept (by simpa using hs) ?_ id
  exact mailWf_tmap (f := fun x => { x with taken := false }) rfl (fun _ => rfl) fun _ => rfl

@[simp] theorem warmReset_kept : Kept a (hide m (warmReset s)) := by
  unfold warmReset
  have hjobs : Kept a (hide m (forAll s.sys.jobs (fun j => abandonJob j stHwFault 0x13) s)) := abandonJobs_kept hs
  simp [hjobs]

@[simp] theorem answerFlashInfo_kept {cs : Nat} : Kept a (hide m (answerFlashInfo cs s)) := by
  simp +contextual [answerFlashInfo, hs, forAll_kept]
@[simp] theorem configure_kept : Kept a (hide m (configure s)) := by
  unfold configure
  extract_lets r t u v w x y
  have hv : Kept a (hide m v) := by simp [v, u, t, r, hs]
  have hw : Kept a (hide m w) := by simp [w, hv]
  simpa [y, x] using hw

@[simp] theorem failHalf_kept {h : Half} : Kept a (hide m (failHalf h s)) := by simp [failHalf, hs]
@[simp] theorem failBootLead_kept {h : Half} : Kept a (hide m (failBootLead h s)) := by simp [failBootLead, hs]
@[simp] theorem stopBoot_kept : Kept a (hide m (stopBoot s)) := by simp +contextual [stopBoot, hs, forAll_kept]

/-! Power states and the hold -/

@[simp] theorem writeJobEnds_kept {num : Nat} {ok : Nat → Bool} : Kept a (hide m (writeJobEnds num ok s)) := by
  simp [writeJobEnds, hs]
@[simp] theorem answerChange_kept {status : Nat} {c : Change} : Kept a (hide m (answerChange status c s)) := by
  unfold answerChange; (repeat' split) <;> simp [hs]
@[simp] theorem stateRates_kept : Kept a (hide m (stateRates s)) := by simp +contextual [stateRates, hs, forAll_kept]
@[simp] theorem downToEasy_kept : Kept a (hide m (downToEasy s)) := by simp +contextual [downToEasy, hs, forAll_kept]
@[simp] theorem enterState_kept {p : PowerState} {cause : Nat} : Kept a (hide m (enterState p cause s)) := by
  simp [enterState, hs]
@[simp] theorem beginHold_kept {cause : Nat} : Kept a (hide m (beginHold cause s)) := by
  unfold beginHold
  extract_lets r t u v
  have hr : Kept a (hide m r) := by unfold r; split <;> simp [hs]
  have ht : Kept a (hide m t) := by simp [t, hr]
  simpa [v, u] using ht

@[simp] theorem stopTime_kept : Kept a (hide m (stopTime s)) := by simp +contextual [stopTime, hs, forAll_kept]
@[simp] theorem holdOff_kept : Kept a (hide m (holdOff s)) := by
  unfold holdOff
  extract_lets r t u v w
  have hu : Kept a (hide m u) := by simp [u, t, r, hs]
  have hw : Kept a (hide m w) := by simpa [w, v] using hu
  simp [hw]

@[simp] theorem enterHold_kept : Kept a (hide m (enterHold s)) := by unfold enterHold; (repeat' split) <;> simp [hs]
@[simp] theorem restoreFails_kept {h : Half} : Kept a (hide m (restoreFails h s)) := by simp [restoreFails, hs]

/-! The halves -/

@[simp] theorem linkLost_kept {h : Half} {lock : Bool} : Kept a (hide m (linkLost h lock s)) := by simp [linkLost, hs]
@[simp] theorem beatGap_kept {h : Half} : Kept a (hide m (beatGap h s)) := by simp [beatGap, hs]
@[simp] theorem answerSettles_kept {h : Half} : Kept a (hide m (answerSettles h s)) := by simp [answerSettles, hs]
@[simp] theorem grantFalls_kept {x : Half} : Kept a (hide m (grantFalls x s)) := by simp [grantFalls, hs]
@[simp] theorem restartCox_kept {h : Half} : Kept a (hide m (restartCox h s)) := by
  simp +contextual [restartCox, hs, forAll_kept]

/-! The ends and the deferred starts of jobs -/

@[simp] theorem saveDone_kept {num : Nat} {out : JobOutcome} : Kept a (hide m (saveDone num out s)) := by
  simp [saveDone, hs]
@[simp] theorem beginDone_kept {j : Job} {out : JobOutcome} : Kept a (hide m (beginDone j out s)) := by
  simp [beginDone, hs]
@[simp] theorem verifyDone_kept {num : Nat} {out : JobOutcome} : Kept a (hide m (verifyDone num out s)) := by
  simp [verifyDone, hs]
@[simp] theorem trainDone_kept {num : Nat} {out : JobOutcome} : Kept a (hide m (trainDone num out s)) := by
  simp [trainDone, hs]
@[simp] theorem scrubDone_kept {j : Job} : Kept a (hide m (scrubDone j s)) := by simp [scrubDone, hs]
@[simp] theorem mirrorDone_kept {num : Nat} {out : JobOutcome} : Kept a (hide m (mirrorDone num out s)) := by
  simp [mirrorDone, hs]
@[simp] theorem scanDone_kept {j : Job} {out : JobOutcome} : Kept a (hide m (scanDone j out s)) := by
  unfold scanDone; (repeat' split) <;> simp [hs]
@[simp] theorem finishJob_kept {j : Job} {out : JobOutcome} : Kept a (hide m (finishJob j out s)) := by
  unfold finishJob; (repeat' split) <;> simp [hs]
@[simp] theorem beginJob_kept {j : Job} : Kept a (hide m (beginJob j s)) := by
  unfold beginJob
  have hbegun := mapJobs_kept (f := fun x k => if k.num = j.num then { k with state := 1, half := x.lead } else k) hs
    (fun _ => rfl) fun _ _ => by split <;> rfl
  dsimp only
  split <;> simp [hbegun]

/-! Boot, light pulses and wakes -/

@[simp] theorem romFails_kept {h : Half} : Kept a (hide m (romFails h s)) := by simp [romFails, hs]
@[simp] theorem captureCycle_kept {c : Nat} {ws : List Word} : Kept a (hide m (captureCycle c ws s)) := by
  simp [captureCycle, hs]
@[simp] theorem sinkProof_kept {e current pinMv : Nat} : Kept a (hide m (sinkProof e current pinMv s)) := by
  unfold sinkProof; (repeat' split) <;> simp [hs]
@[simp] theorem boardProof_kept {e : Nat} {words : List Word} : Kept a (hide m (boardProof e words s)) := by
  simp [boardProof, hs]
@[simp] theorem proofPulse_kept {e current pinMv : Nat} {words : List Word} :
    Kept a (hide m (proofPulse e current pinMv words s)) := by
  simp [proofPulse, hs]
@[simp] theorem shutdown_kept : Kept a (hide m (shutdown s)) := by
  unfold shutdown
  extract_lets r t u
  have ht : Kept a (hide m t) := by simp [t, r, hs]
  split <;> simp [u, ht]

@[simp] theorem wakeRestore_kept {okS okB queuesOk : Bool} {c : Change} :
    Kept a (hide m (wakeRestore okS okB queuesOk c s)) := by
  simp [wakeRestore, hs]
@[simp] theorem wakeEasy_kept {c : Change} : Kept a (hide m (wakeEasy c s)) := by simp [wakeEasy, hs]
@[simp] theorem changeStep_kept {c : Change} : Kept a (hide m (changeStep c s)) := by simp [changeStep, hs]
@[simp] theorem readback_kept {r : SoReadback} : Kept a (hide m (readback r s)) := by simp [readback, hs]
@[simp] theorem connLost_kept : Kept a (hide m (connLost s)) := by simp [connLost, hs]
@[simp] theorem railsLost_kept : Kept a (hide m (railsLost s)) := by
  unfold railsLost
  extract_lets r t u
  have hr : Kept a (hide m r) := abandonJobs_kept hs
  have ht : Kept a (hide m t) := by simp [t, hr]
  simp [u, ht]

@[simp] theorem goodLostInHold_kept : Kept a (hide m (goodLostInHold s)) := by
  unfold goodLostInHold; (repeat' split) <;> simp [hs]
@[simp] theorem pinReset_kept : Kept a (hide m (pinReset s)) := by unfold pinReset; (repeat' split) <;> simp [hs]
@[simp] theorem calDone_kept {job : Option Nat} {exc0 exc1 : Nat} : Kept a (hide m (calDone job exc0 exc1 s)) := by
  unfold calDone; (repeat' split) <;> simp [hs]
@[simp] theorem acceptCal_kept {gains : List Nat} {n : Nat} : Kept a (hide m (acceptCal gains n s)) := by
  simp [acceptCal, hs]
end
end Sys2Proof.Machine
end

section
/-! SUPPORT. Each command keeps the mailboxes canonical and the job table within its bounds: those whose effect splits into
cases one by one, in the order of the model, and then all of them. -/
namespace Sys2Proof.Machine
section
set_option linter.unusedSectionVars false
variable {m : StatePart → Bool} [May m .settings] [May m .flash] [May m .sideband] [May m .host] [May m .events]
  [May m .frontEnd] [May m .timing] [May m .hitPath] [May m .trigger] [May m .waveform] [May m .buffer]
  [May m .compression] [May m .links] [May m .time] [May m .power] [May m .slowControl] [May m .light] [May m .safety]
  [May m .redundancy] [May m .sequencer] [May m .clock] [May m .free]
variable {a s : State}

@[simp] theorem windowWrites_kept {ws : List Word} :
    ∀ {addr : Nat} {s : State}, Kept a (hide m s) → Kept a (hide m (windowWrites addr ws s)) := by
  induction ws with
  | nil => exact id
  | cons w ws ih => exact fun hs => ih (windowWrite_kept hs)

/-- After the power-on reset every mailbox is clear and the job table empty. -/
theorem porState_kept : Kept a (hide m (porState s)) := by
  simp only [Kept, mailOk_hide, jobsOk_hide]
  exact ⟨fun _ _ => ⟨rfl, fun _ => rfl⟩, fun _ _ => by simp [JobTable, porState]⟩

variable (hs : Kept a (hide m s))
include hs

/-- What leaves every other part keeps both. -/
theorem KeptO.of_hide {o : Out} (h : hideO m o = some (hide m s)) : KeptO m a o := by
  rintro t rfl
  exact (Option.some.inj h).symm ▸ hs

theorem execUnknownCall_kept {mb : Fin 8} : KeptO m a (execUnknownCall mb s) := by
  unfold execUnknownCall
  exact event_kept hs fun _ => settle_kept (checkCall_kept hs fun _ => hs)

theorem execJobComplete_kept {job : Nat} {out : JobOutcome} : KeptO m a (execJobComplete job out s) := by
  unfold execJobComplete
  split
  · exact event_kept hs fun _ => finishJob_kept hs
  · exact event_kept hs fun _ => discoverEnds_kept hs

theorem execJobDeferredStart_kept {job : Nat} : KeptO m a (execJobDeferredStart job s) := by
  unfold execJobDeferredStart
  split
  · exact event_kept hs fun _ => beginJob_kept hs
  · exact event_kept hs fun _ => hs

theorem execSysResetWarm_kept {mb : Fin 8} : KeptO m a (execSysResetWarm mb s) :=
  callThen_kept hs (fun p => by simp [hs]) fun _ _ ht => warmReset_kept ht

theorem execSysResetCox_kept {mb : Fin 8} : KeptO m a (execSysResetCox mb s) := by
  refine callThen_kept hs (fun p => by simp [hs]) fun p t ht => ?_
  exact restartCox_kept (by simp [ht])

theorem execSysResetBoth_kept {mb : Fin 8} : KeptO m a (execSysResetBoth mb s) := by
  refine callThen_kept hs (fun p => by simp [hs]) fun p t ht => ?_
  split
  · exact warmReset_kept ht
  · exact forAll_kept ht fun _ _ ht => restartCox_kept ht

theorem execPorAssert_kept : KeptO m a (execPorAssert s) := event_kept hs fun _ => porState_kept

theorem execCalRunLatch_kept {sp per : Nat} : KeptO m a (execCalRunLatch sp per s) := by
  unfold execCalRunLatch
  refine event_kept hs fun _ => ?_
  dsimp only
  split <;> simp [hs]

theorem execTmPeriodWrite_kept {mb : Fin 8} : KeptO m a (execTmPeriodWrite mb s) :=
  call_kept hs fun _ => by simp +contextual [hs, forAll_kept]

theorem execTmWalkCal_kept {mb : Fin 8} : KeptO m a (execTmWalkCal mb s) :=
  call_kept hs fun _ => blockJob_kept hs fun _ _ => id

theorem execTrSampleRead_kept {mb : Fin 8} : KeptO m a (execTrSampleRead mb s) :=
  call_kept hs fun _ => by simp [hs, readSamples_hide]

theorem execWeStart_kept {mb : Fin 8} : KeptO m a (execWeStart mb s) := by
  refine call_kept hs fun p => ?_
  simp only [need_hideR, kept_ite]
  refine ⟨fun _ => ?_, fun _ => hs⟩
  refine forAll_kept hs fun n t ht => ?_
  split <;> simp [ht]

theorem execWeStop_kept {mb : Fin 8} : KeptO m a (execWeStop mb s) := by
  refine call_kept hs fun p => ?_
  simp only [need_hideR, kept_ite]
  refine ⟨fun _ => ?_, fun _ => hs⟩
  refine forAll_kept hs fun n t ht => ?_
  split <;> simp [ht]

theorem execNegRateAckRx_kept {lane : Fin 16} {v : BitVec 16} : KeptO m a (execNegRateAckRx lane v s) := by
  unfold execNegRateAckRx
  refine event_kept hs fun _ => ?_
  dsimp only
  (repeat' split) <;> simp [hs]

theorem execLkRenegotiate_kept {mb : Fin 8} : KeptO m a (execLkRenegotiate mb s) :=
  call_kept hs fun p => by simp +contextual [hs, forAll_kept]

theorem execTimeStepEdge_kept : KeptO m a (execTimeStepEdge s) := by
  refine event_kept hs fun _ => ?_
  split <;> simp [hs]

theorem execFreqGateEnd_kept {input : Fin 4} : KeptO m a (execFreqGateEnd input s) := by
  refine event_kept hs fun _ => ?_
  split <;> simp [hs]

theorem execFreqRead_kept {mb : Fin 8} : KeptO m a (execFreqRead mb s) := by
  refine call_kept hs fun p => ?_
  simp only [need_hideR, kept_ite]
  refine ⟨fun _ => ?_, fun _ => hs⟩
  split <;> simp [hs]

theorem execHoldWakeRestore_kept {coxOkS coxOkB queuesOk : Bool} :
    KeptO m a (execHoldWakeRestore coxOkS coxOkB queuesOk s) := by
  refine event_kept hs fun _ => ?_
  split <;> simp [hs]

theorem execHoldWakeEasy_kept : KeptO m a (execHoldWakeEasy s) := by
  refine event_kept hs fun _ => ?_
  split <;> simp [hs]

theorem execPwStateSet_kept {mb : Fin 8} : KeptO m a (execPwStateSet mb s) :=
  callThen_kept hs (fun p => by simp [hs]) fun p t ht => when_kept ht (beginHold_kept ht)

theorem execScConversionDone_kept {r : Conversion} : KeptO m a (execScConversionDone r s) := by
  unfold execScConversionDone
  split
  · rintro _ ⟨⟩; exact hs
  · refine event_kept hs fun _ => ?_
    extract_lets t u v w st x y
    have hw : Kept a (hide m w) := by simp [w, v, u, t, hs]
    have hx : Kept a (hide m x) := by simp [x, hw]
    have hy : Kept a (hide m y) := by simpa [y] using hx
    exact scNext_kept hy

theorem execScCalStepDone_kept {offsetNv gainPpm : Int} {exc0 exc1 : Nat} :
    KeptO m a (execScCalStepDone offsetNv gainPpm exc0 exc1 s) := by
  refine event_kept hs fun _ => ?_
  dsimp only
  split <;> simp [hs]

theorem execScExcMonitorDone_kept {x : ExcMonitor} : KeptO m a (execScExcMonitorDone x s) := by
  unfold execScExcMonitorDone
  split
  · rintro _ ⟨⟩; exact hs
  · refine event_kept hs fun _ => scNext_kept (diagDone_kept ?_)
    rw [hide_onSc]
    split <;> simp [hs]

theorem execScCalibrate_kept {mb : Fin 8} : KeptO m a (execScCalibrate mb s) := by
  refine call_kept hs fun p => ?_
  rw [need_hideR, kept_ite]
  refine ⟨fun _ => ?_, fun _ => hs⟩
  extract_lets gains t n
  split
  · exact startJob_kept hs fun _ _ ht => acceptCal_kept ht
  · have hdeferred : ∀ par start, Kept a (hideR m (deferJob 0x0C07 par start s)) := fun _ _ => deferJob_kept hs
    split
    · next hdone =>
      have hd := hdeferred _ _ |> (hdone ▸ ·)
      simpa using hd
    · next => exact hdeferred _ _

theorem execLampCaptureCycle_kept {chain : Fin 4} {words : List Word} :
    KeptO m a (execLampCaptureCycle chain words s) := by
  unfold execLampCaptureCycle
  exact event_kept hs fun _ => by simp [hs]

theorem execIlkChannelChange_kept {n : Fin 4} {chB : Bool} {samples : List Nat} :
    KeptO m a (execIlkChannelChange n chB samples s) := by
  unfold execIlkChannelChange
  exact event_kept hs fun _ => by simp [hs]

theorem execSealReread_kept {seals : BitVec 12} : KeptO m a (execSealReread seals s) := by
  refine event_kept hs fun _ => ?_
  dsimp only
  split <;> simp [hs]

theorem execSfCommandRx_kept {payload : List Byte} : KeptO m a (execSfCommandRx payload s) := by
  refine event_kept hs fun _ => ?_
  extract_lets r was t u v w
  have hr : Kept a (hide m r) := by simp [r, hs]
  have hv : Kept a (hide m v) := by simp [v, u, t, hr]
  have hw : Kept a (hide m w) := by simp [w, hv]
  simp [hr, hw]

theorem execTakeoverComplete_kept : KeptO m a (execTakeoverComplete s) := by
  unfold execTakeoverComplete
  split
  · exact event_kept hs fun _ => finishTakeover_kept hs
  · exact event_kept hs fun _ => hs

theorem execRejoinTick_kept : KeptO m a (execRejoinTick s) := by
  unfold execRejoinTick
  split
  · exact event_kept hs fun _ => by simp [hs]
  · exact event_kept hs fun _ => hs

theorem execFlogMirrorRead_kept {mb : Fin 8} : KeptO m a (execFlogMirrorRead mb s) := by
  refine call_kept hs fun p => ?_
  simp only [need_hideR, needState_hideR, kept_ite]
  refine ⟨fun _ => ⟨fun _ => ?_, fun _ => hs⟩, fun _ => hs⟩
  split <;> simp [hs]

theorem execPowerStateChangeDone_kept : KeptO m a (execPowerStateChangeDone s) := by
  refine event_kept hs fun _ => ?_
  split <;> simp [hs]

/-- Every command keeps both: those that write neither by their frame, a call by what its act does, the others by what
their event does. -/
theorem exec_kept (c : Instr) : KeptO m a (exec c s) := by
  cases c
  case sysNop | sysIdent | sysLeadSet | sysBootReport | sysFlashInfo | sysImageCommit | sysImageData |
      sysRollbackAdvance | sysLifecycleAdvance | sysKeyRevoke | feModeSet | feModeGet | feDacSet | feDacGet |
      fePixelWrite | fePixelRead | feTrimRun | feScurve | feScanResult | feBumpTest | feBumpResult | feTpInject |
      feCrabConfig | feCrabList | feLeakConfig | feFrameConfig | feChargeCal | feChargeRead | feChargeWrite |
      feScrubStatus | feStatus | tmStatus | tmCalStatus | tmBandConfig | tmPeriodRead | tmSkewRead | tmSkewWrite |
      tmWalkRead | tmWalkWrite | tmInlRead | tmTempConfig | tmDroopRead | tmStats | hpStatus | hpOutputSet |
      hpClusterConfig | hpLossConfig | hpLossStatus | hpGateConfig | hpMergeConfig | hpMergeStatus | hpReorderConfig |
      hpStats | hpTpRead | trStatus | trUnitConfig | trUnitRead | trUnitEnable | trPatchConfig | trAdcStatus |
      trAdcFreeze | trDomainConfig | trArm | trDisarm | trDomainStatus | trSoftFire | trStats | trTrigioConfig |
      weStatus | weLoadBegin | weLoadData | weLoadEnd | weMemRead | weParamWrite | weRegRead | weSignal | weStats |
      bbStatus | bbQueueMapSet | bbQueueMapGet | bbRegionSet | bbRegionGet | bbHoldOutput | bbFlush | bbReset | bbPeek
      | bbStats | memStatus | memScrubConfig | memDefectRead | memCheckerWrite | memCheckerRead | cxStatus |
      cxQueueConfig | cxQueueGet | cxChainRead | cxStats | cxCodeTest | lkStatus | lkLaneStatus | lkConfig | lkRateSet
      | lkClassConfig | lkTc2WeightSet | lkPacketCloseSet | lkRepechageClear | lkPrbsConfig | lkPrbsRead | lkEthConfig
      | lkEthStatus | lkSlStatus | lkSlConfig | lkStats | lkTc0Load | timeStatus | timeNow | timeFreqConfig |
      timeServoConfig | timeSet | timePtpConfig | timePpsConfig | tiConfig | tiStampRead | splitConfig | splitRead |
      freqStop | timeStats | pwStatus | pwBudgetConfig | pwThermalConfig | pwThermalRead | pwWakeSet | pwWakeClear |
      pwAutoConfig | pwDomainRead | pwStats | scStatus | scChannelConfig | scChannelRead | scSequenceSet |
      scResultRead | scInject | scInjectRead | scChannelStatus | scStats | ldStatus | ldChainRead | ldEmitterConfig |
      ldEmitterRead | ldSchedule | ldCancel | ldScheduleRead | ldDiagRead | ldSinkConfig | ldStats | sfStatus |
      sfHvRequest | sfReset | sfShutterRequest | sfDarkTest | sfTripLog | sfStats | redStatus | redClaimRead | evtRead
      | evtClear | evtConfig | evtSummary | flogRead | flogClear | evtStats | evtTraceConfig =>
    exact call_kept hs fun _ => by simp [hs]
  case sysSettingRead | sysJobStatus | memScrubSummary => exact call_kept hs fun _ => by (repeat' split) <;> simp [hs]
  case lkPrbsInjectSingle | lkPrbsInjectBurst | lkPrbsInjectRate | lkPrbsInjectStop =>
    delta exec; dsimp only; exact prbsInject_kept hs
  case sysSettingsSave | sysImageBegin | sysImageVerify | freqStart | scDiagRun | ldChainDiscover | ldProofRun |
      redRejoin | flogMirror =>
    exact call_kept hs fun _ => by simp +contextual [hs, startJob_kept]
  case tmCalRun | tmSkewCal | memScrubRange | memTrain =>
    exact call_kept hs fun _ => by simp +contextual [hs, lowJob_kept]
  case sbWrite | windowWrite | ctrlWrite | pwrGoodFall | rstNPulse | sfRomStart | flashNegotiation | settingsApply |
      timeCoreStart | coxRestartTimeout | coxMemScrub | queueResetComplete | rateReqTimeout | thermalScan |
      shutdownHoldTimeout | thermalLatchClear | holdReached | scPassStart | scSafetyInjectRequest | scAutoCalDue |
      scPinBreak | proofPulse | sfLogicCycle | ilkDiscrepancyTimeout | soDarkTest | sfConnExpiry | xlinkHeartbeatRx |
      xlinkHeartbeatTimeout | arbPoll | arbPollAnswer | arbGntChange | scInjectedConversionStart |
      wakeHalfAnswerTimeout | wakePwrGoodTimeout =>
    delta exec; dsimp only; exact event_kept hs fun _ => by simp [hs]
  case sfSelfTestDone | bootRomReadyTimeout | soReadback =>
    delta exec; dsimp only; exact event_kept hs fun _ => by simp +contextual [hs, forAll_kept]
  case unknownCall => exact execUnknownCall_kept hs
  case jobComplete => exact execJobComplete_kept hs
  case jobDeferredStart => exact execJobDeferredStart_kept hs
  case sysResetWarm => exact execSysResetWarm_kept hs
  case sysResetCox => exact execSysResetCox_kept hs
  case sysResetBoth => exact execSysResetBoth_kept hs
  case porAssert => exact execPorAssert_kept hs
  case calRunLatch => exact execCalRunLatch_kept hs
  case tmPeriodWrite => exact execTmPeriodWrite_kept hs
  case tmWalkCal => exact execTmWalkCal_kept hs
  case trSampleRead => exact execTrSampleRead_kept hs
  case weStart => exact execWeStart_kept hs
  case weStop => exact execWeStop_kept hs
  case negRateAckRx => exact execNegRateAckRx_kept hs
  case lkRenegotiate => exact execLkRenegotiate_kept hs
  case timeStepEdge => exact execTimeStepEdge_kept hs
  case freqGateEnd => exact execFreqGateEnd_kept hs
  case freqRead => exact execFreqRead_kept hs
  case holdWakeRestore => exact execHoldWakeRestore_kept hs
  case holdWakeEasy => exact execHoldWakeEasy_kept hs
  case pwStateSet => exact execPwStateSet_kept hs
  case scConversionDone => exact execScConversionDone_kept hs
  case scCalStepDone => exact execScCalStepDone_kept hs
  case scExcMonitorDone => exact execScExcMonitorDone_kept hs
  case scCalibrate => exact execScCalibrate_kept hs
  case lampCaptureCycle => exact execLampCaptureCycle_kept hs
  case ilkChannelChange => exact execIlkChannelChange_kept hs
  case sealReread => exact execSealReread_kept hs
  case sfCommandRx => exact execSfCommandRx_kept hs
  case takeoverComplete => exact execTakeoverComplete_kept hs
  case rejoinTick => exact execRejoinTick_kept hs
  case flogMirrorRead => exact execFlogMirrorRead_kept hs
  case powerStateChangeDone => exact execPowerStateChangeDone_kept hs
  -- The commands that are left write neither the mailboxes nor the job table.
  all_goals exact KeptO.of_hide hs (by delta exec; simp)

end
end Sys2Proof.Machine
end

section
/-! SUPPORT. Every step keeps the mailboxes canonical and the job table within its bounds. -/
namespace Sys2Proof.Machine

/-- The parts of the state other than the mailboxes and the job table. -/
def otherParts : List StatePart :=
  [.settings, .flash, .sideband, .host, .events, .frontEnd, .timing, .hitPath, .trigger, .waveform, .buffer,
   .compression, .links, .time, .power, .slowControl, .light, .safety, .redundancy, .sequencer, .clock, .free]

theorem kept_self {m : StatePart → Bool} {s : State} : Kept s (hide m s) :=
  ⟨fun hs => mailOk_hide.mpr fun _ => hs, fun hs => jobsOk_hide.mpr fun _ => hs⟩

/-- A step shows mailboxes and a job table that are kept, whichever other parts are hidden. -/
theorem step_kept {m : StatePart → Bool} {s t : State} (hmay : ∀ q ∈ otherParts, May m q) (hstep : step s = .next t) :
    Kept s (hide m t) := by
  simp only [otherParts, List.forall_mem_cons] at hmay
  repeat obtain ⟨_, hmay⟩ := hmay
  obtain ⟨-, rfl⟩ | ⟨c, cs, -, hexec⟩ := step_cases hstep
  · rw [idleTick_hide]
    exact kept_self
  · have hself : Kept s (hide m { s with pending := cs }) := kept_self
    exact exec_kept hself c t hexec

theorem step_keeps_tables {s t : State} (hstep : step s = .next t) :
    (MailWf s → MailWf t) ∧ (JobTable s → JobTable t) := by
  obtain ⟨hmail, hjobs⟩ := step_kept (May.of_mem otherParts) hstep
  exact ⟨fun hs => mailOk_hide.mp (hmail hs) rfl, fun hs => jobsOk_hide.mp (hjobs hs) rfl⟩

/-- Settles O49: every step keeps the canonical form, whatever command it carries out. -/
theorem mailboxesCanonical : Obligations.MailboxesCanonical := by
  unfold Obligations.MailboxesCanonical
  exact fun s t hs hstep => (step_keeps_tables hstep).1 hs

/-- Settles O51: every step keeps the bounds, whatever command it carries out. -/
theorem jobTableKept : Obligations.JobTableKept := by
  unfold Obligations.JobTableKept
  exact fun s t hs hstep => (step_keeps_tables hstep).2 hs

end Sys2Proof.Machine
end
